-- ==== Sys2Proof/Word.lean ====
section
/-! DEFINITION. Words: the byte, and the plainest arithmetic on bytes and naturals that the manual's notation
([msb:lsb] ranges, little-endian fields under R5) rests on. -/

namespace Sys2Proof

/-- One byte (R5). -/
abbrev Byte := BitVec 8

/-- The little-endian value of a list of bytes; byte 0 is least significant (R5). -/
def leNat : List Byte → Nat
  | [] => 0
  | b :: bs => b.toNat + 256 * leNat bs

/-- The n little-endian bytes of a value, its higher bits dropped (R5). -/
def leBytes : Nat → Nat → List Byte
  | 0, _ => []
  | n + 1, v => BitVec.ofNat 8 v :: leBytes n (v / 256)

/-- The value of bits [hi:lo] of x (notation of 00_scope.md). -/
def bitsOf (x hi lo : Nat) : Nat := (x / 2 ^ lo) % 2 ^ (hi + 1 - lo)

/-- Bit n of x. -/
def bitOf (x n : Nat) : Bool := x.testBit n

/-- x with its bits [hi:lo] replaced by v. -/
def setBits (x hi lo v : Nat) : Nat :=
  x - bitsOf x hi lo * 2 ^ lo + (v % 2 ^ (hi + 1 - lo)) * 2 ^ lo

/-- 1 for true, 0 for false. -/
def b2n (b : Bool) : Nat := if b then 1 else 0

/-- ceil(a / b). -/
def ceilDiv (a b : Nat) : Nat := (a + b - 1) / b

/-- a rounded up to a multiple of b. -/
def roundUp (a b : Nat) : Nat := ceilDiv a b * b

/-- ceil(log2 n), 0 for n at most 1. -/
def clog2 (n : Nat) : Nat := if n ≤ 1 then 0 else Nat.log2 (n - 1) + 1

/-- a clamped to lo to hi. -/
def clampN (a lo hi : Nat) : Nat := max lo (min a hi)

/-- a clamped to lo to hi. -/
def clampI (a lo hi : Int) : Int := max lo (min a hi)

/-- A count that saturates at top. -/
def satAdd (a b top : Nat) : Nat := min (a + b) top

/-- The signed value of the low w bits of x. -/
def sext (w x : Nat) : Int :=
  let v := x % 2 ^ w
  if v < 2 ^ (w - 1) then (v : Int) else (v : Int) - (2 : Int) ^ w

/-- The w-bit two's-complement code of v. -/
def twos (w : Nat) (v : Int) : Nat := (v % (2 : Int) ^ w).toNat

/-- x is later than y in serial-number arithmetic of w bits (R352, R376). -/
def serialNewer (w x y : Nat) : Bool :=
  let d := (x + 2 ^ w - y % 2 ^ w) % 2 ^ w
  decide (1 ≤ d) && decide (d ≤ 2 ^ (w - 1) - 1)

/-- The ASCII bytes of a string (every magic of the manual is ASCII). -/
def ascii (s : String) : List Byte := s.toList.map fun c => BitVec.ofNat 8 c.toNat

/-- n zero bytes. -/
def zeros (n : Nat) : List Byte := List.replicate n 0

end Sys2Proof
end

