-- ==== Sys2Proof/Syntax.lean ====
section
/-! DEFINITION. Syntax: the commands and events that the block takes, one constructor of Instr for each row of
spec/opcode_table.json, with their operands as plain data. -/

namespace Sys2Proof

/-- A command packet as the part's own copy holds it (R167): the queue whose ring held it and its LENGTH bytes, header
first (R158, R159). -/
structure Packet where
  queue : Nat
  bytes : List Byte
deriving DecidableEq, Repr

/-- A Proof core mailbox request (R449): over the register mailbox, or over the SMBus sideband (R436). -/
structure MboxRequest where
  sideband : Bool
  bytes : List Byte
deriving DecidableEq, Repr

/-- An MCTP message received on the SMBus sideband (R436): the destination and source endpoint identifiers, the message
type, and the body after the type byte. -/
structure MctpMessage where
  destEid : Nat
  srcEid : Nat
  tag : Nat
  mtype : Nat
  body : List Byte
deriving DecidableEq, Repr

/-- The features of R227's table, used and declined, that a host request can rely on. -/
inductive LinkFeature where
  | flitMode | msix | errorReporting | functionReset | cxlCache | cxlMem | cxlSwitch
  | srIov | pasid | ats | pri | peerToPeer | linkEncryption | multiLogical | pooling | dynamicCapacity | portRouting
deriving DecidableEq, Repr

/-- What a host memory request reaches (R438). -/
inductive HostTarget where
  /-- BAR0: registers and windows. -/
  | bar0
  /-- BAR2: the table window. -/
  | bar2
  /-- BAR4, NONCOHERENT mode: the device-memory window. -/
  | bar4
  /-- The CXL.mem HDM range, COHERENT mode. -/
  | hdm
  /-- Configuration space (R232). -/
  | config
  /-- No memory of the part: a request that relies on a feature of the link (R227). -/
  | feature (f : LinkFeature)
deriving DecidableEq, Repr

/-- A host memory request that arrives on the link (R232). `trusted` says that the requester ID is the upstream root port
or host bridge recorded at enumeration; `cached` that the host takes the line into its cache (R230). -/
structure HostRequest where
  trusted : Bool
  target : HostTarget
  write : Bool
  cached : Bool
  offset : Nat
  length : Nat
  data : List Byte
deriving DecidableEq, Repr

/-- A plate or a Stencil router, as the place where a dispatch unit runs (R143). -/
inductive UnitRef where
  | plate (n : Nat)
  | router (tile : Nat)
deriving DecidableEq, Repr

/-- What the part measures at a boundary: its offset in ns, none when it has no PTP time (R153), and the boundaries that a
step of R155 skips. -/
structure BoundaryInput where
  offset : Option Int
deriving DecidableEq, Repr

/-- What a PTP message tells a time receiver (R139): a Sync with its departure when it is one-step, a Follow_Up with the departure of the Sync
of its sequence, or the answer to a delay request with the request's arrival. Times are ns of PTP time. -/
inductive PtpBody where
  | sync (seq : Nat) (origin : Option Int)
  | followUp (seq : Nat) (origin : Int)
  | delayAnswer (seq : Nat) (received : Int)
deriving DecidableEq, Repr

/-- A PTP message that arrives: the time source on which it arrives, its port, the reading of the part's PTP clock at its arrival and at the
departure of the delay request that it prompts, and what it tells (R139, R155). -/
structure PtpMessage where
  source : Nat
  port : Nat
  arrival : Int
  departure : Int
  body : PtpBody
deriving DecidableEq, Repr

/-- The key of a Crosshatch bucket on this part: the context and the triple of R300. -/
structure BucketKey where
  context : Nat
  step : Nat
  group : Nat
  bucket : Nat
deriving DecidableEq, Repr

/-- A message on a queue pair that the part holds for itself: its TAG and its bytes (R299). -/
structure HeldMessage where
  qp : Nat
  tag : Nat
  bytes : List Byte
deriving DecidableEq, Repr

/-- A packet that arrives for another node, and the ns from the last boundary to its arrival (R151, R258). -/
structure TransitInput where
  bytes : List Byte
  now : Nat
deriving DecidableEq, Repr

/-- One 100 µs sampling round (R390, R419 to R421): raw temperatures in 1/16 °C by sensor, numbered 4 × the number of R419
plus the diode; mean currents in mA and levels in mV by rail, in the order of R402. -/
structure SensorInput where
  temps : List (Nat × Int)
  currents : List (Nat × Int)
  levels : List (Nat × Nat)
deriving DecidableEq, Repr

/-- What the patrol finds on a line (R224, R225). -/
inductive PatrolFinding where
  | clean
  | corrected
  | uncorrectable
deriving DecidableEq, Repr

/-- A DDR5 module as boot reads and trains it (R19, R20). -/
structure DimmInput where
  channel : Nat
  /-- 1 RDIMM, 2 MRDIMM, anything else a type that R19 does not take -/
  kind : Nat
  gib : Nat
  /-- rank count and organisation -/
  organisation : Nat
  /-- highest rate in MT/s -/
  rate : Nat
  trains : Bool
deriving DecidableEq, Repr

/-- What boot meets outside the part (R371, R384): the fuses it has none of, so the flash as a programmer may have left it
and the PUF array's power-up state; the flash probe; the stacks that fail; the modules; the stage that does not end
within its limit, if one does not. -/
structure BootInput where
  testEn : Bool
  puf : List Byte
  /-- bytes that something other than the part has written to the flash since the last boot, by offset -/
  flash : List (Nat × Byte)
  flashOk : Bool
  badStacks : List Nat
  dimms : List DimmInput
  late : Option Nat
deriving DecidableEq, Repr


/-- The part's steps: one constructor for each row of spec/opcode_table.json. -/
inductive Instr where
  /-- CONTEXT_CREATE (R183): Defines a new context with its plate mask, page-table root, seed, budget and fault limit, and generates its DDR key. -/
  | contextCreate (p : Packet)
  /-- CONTEXT_DESTROY (R185): Destroys a context that has no live queue, queue pair, stream or running command, and frees its frames. -/
  | contextDestroy (p : Packet)
  /-- CONTEXT_QUERY (R182): Returns a context's live-queue count, attributes, residence and open faults. -/
  | contextQuery (p : Packet)
  /-- QUEUE_CREATE (R156): Creates a queue with its submission and completion rings, vector and wait limit. -/
  | queueCreate (p : Packet)
  /-- QUEUE_DESTROY (R185): Destroys a queue that has no admitted command still running. -/
  | queueDestroy (p : Packet)
  /-- QUEUE_DRAIN (R184): Stops admission on a queue and, under CANCEL, pre-empts its admitted commands with PREEMPTED. -/
  | queueDrain (p : Packet)
  /-- QUEUE_START (R184): Returns a STOPPED queue to ACTIVE and retries any held record and flag writes. -/
  | queueStart (p : Packet)
  /-- QUEUE_QUERY (R182): Returns a queue's SQ_HEAD, state and number of held records. -/
  | queueQuery (p : Packet)
  /-- MEM_REGISTER (R206): Registers an allocation and claims every frame under its present pages for the context. -/
  | memRegister (p : Packet)
  /-- MEM_RELEASE (R206): Releases an allocation, zero-filling and freeing the frames that no other allocation of the context covers. -/
  | memRelease (p : Packet)
  /-- MEM_PIN (R217): Adds one to the pin count of every page of a range. -/
  | memPin (p : Packet)
  /-- MEM_UNPIN (R217): Takes one from the pin count of every page of a range whose count is above zero. -/
  | memUnpin (p : Packet)
  /-- DESC_CREATE (R81): Checks a 64-byte descriptor record and its extent, and returns a handle. -/
  | descCreate (p : Packet)
  /-- DESC_RELEASE (R185): Releases a descriptor handle that no running command names. -/
  | descRelease (p : Packet)
  /-- DMA_COPY (R186): Copies bytes unchanged between memories of the context, or from the inline payload, on the DMA movers. -/
  | dmaCopy (p : Packet)
  /-- FAULT_RESUME (R220): Closes an open demand fault, either retrying the faulting unit or aborting its command with FAULT_PENDING. -/
  | faultResume (p : Packet)
  /-- TLB_INVALIDATE (R211): Completes once every engine has dropped its cached translations of a range. -/
  | tlbInvalidate (p : Packet)
  /-- LINEAR (R62): Runs a Burin matrix product (FWD, BWD_DATA, BWD_WEIGHT or BWD) with optional adapters and an epilogue. -/
  | linear (p : Packet)
  /-- STIPPLE (R191): Runs an epilogue list over the tiles of its input tensors on the plate's Stipple units. -/
  | stipple (p : Packet)
  /-- ATTN_FWD (R131): Computes blockwise attention output O and log-sum-exp L on one plate. -/
  | attnFwd (p : Packet)
  /-- ATTN_PREP (R134): Forms D as the row sum of dO times O for the attention backward pass. -/
  | attnPrep (p : Packet)
  /-- ATTN_BWD (R134): Recomputes attention probabilities and forms dQ, dK and dV in two ordered sweeps. -/
  | attnBwd (p : Packet)
  /-- GRAD_POLICY (R124): Installs per-layer gradient-format policy entries when no command of the current step has been admitted. -/
  | gradPolicy (p : Packet)
  /-- TRACER (R88): Runs a Tracer COPY, GATHER, SCATTER or RESIZE with conversion, padding and list handling. -/
  | tracer (p : Packet)
  /-- ROUTE (R105): Routes tokens to experts on a tile's Stencil router, writing lists, weights and statistics. -/
  | route (p : Packet)
  /-- EXIT (R113): Writes an early-exit mask, live list and optional bitmap from per-token scores. -/
  | exit (p : Packet)
  /-- MASK (R114): Writes a block-sparse attention mask with its trailer. -/
  | mask (p : Packet)
  /-- INK_INIT (R194): Sets an ink word to FLAG or COUNTER mode with its initial state or count and bounds. -/
  | inkInit (p : Packet)
  /-- INK_READ (R240): Returns an ink word's mode, tag and value or count. -/
  | inkRead (p : Packet)
  /-- NOP (R194): Carries only a wait and a signal. -/
  | nop (p : Packet)
  /-- INK_OVERRIDE (R251): Lets a debug context dry, ink or set the count of any context's ink word and marks the target's step as overridden. -/
  | inkOverride (p : Packet)
  /-- QP_CREATE (R274): Creates a Stylus queue pair in RESET with its class, flags and window. -/
  | qpCreate (p : Packet)
  /-- QP_CONNECT (R274): Connects a queue pair to a peer node and queue pair at a start PSN, moving it to CONNECTED. -/
  | qpConnect (p : Packet)
  /-- QP_DESTROY (R290): Completes every request of a queue pair with PEER_LOST, zeroises its keys and frees it. -/
  | qpDestroy (p : Packet)
  /-- POST_RECV (R277): Posts a receive buffer with a tag on a queue pair. -/
  | postRecv (p : Packet)
  /-- POST_SEND (R276): Sends a tagged message on a connected queue pair, optionally armed on a trigger. -/
  | postSend (p : Packet)
  /-- POST_INK (R249): Sends one remote ink signal to the peer's context, optionally armed on a trigger. -/
  | postInk (p : Packet)
  /-- QP_QUERY (R274): Returns a queue pair's state and retransmission count. -/
  | qpQuery (p : Packet)
  /-- XH_GROUP (R298): Defines a Crosshatch group, checking its staging header and holding its queue pairs. -/
  | xhGroup (p : Packet)
  /-- XH_REDUCE (R300): Reduces one gradient bucket around the group's ring or tree and verifies it. -/
  | xhReduce (p : Packet)
  /-- XH_ABORT (R304): Aborts a step's reduction and sends ABORT records along the groups. -/
  | xhAbort (p : Packet)
  /-- PREFETCH_HINT (R309): Copies pages in order through the prefetch agent until done or a non-present page ends the hint. -/
  | prefetchHint (p : Packet)
  /-- MANIFEST_LOAD (R312): Copies a manifest into the manifest store, verifies its signature and structure, and returns its number. -/
  | manifestLoad (p : Packet)
  /-- SHARD_SEND (R316): Hashes a shard and sends its pieces and a verdict trailer on a queue pair. -/
  | shardSend (p : Packet)
  /-- SHARD_RECEIVE (R317): Receives or locally hashes a shard, forwards its pieces and trailer, and records it verified on a match. -/
  | shardReceive (p : Packet)
  /-- BASE_INSTALL (R319): Turns a manifest's verified shards into an installed, read-only base epoch after re-hashing them. -/
  | baseInstall (p : Packet)
  /-- BASE_MAP (R320): Maps or re-points a context's base window to an installed epoch. -/
  | baseMap (p : Packet)
  /-- BASE_RETIRE (R322): Makes an epoch RETIRING and invalidates every window that maps it. -/
  | baseRetire (p : Packet)
  /-- TENSOR_CLASS (R325): Registers a tensor in the ledger's tensor table with its requested or chosen protection class. -/
  | tensorClass (p : Packet)
  /-- SNAPSHOT (R330): Saves a tensor with its Merkle digest to a buddy's keep area or through a host bounce buffer. -/
  | snapshot (p : Packet)
  /-- RESTORE (R332): Restores a tensor from a host descriptor or a buddy, checking every chunk against its leaf. -/
  | restore (p : Packet)
  /-- MIRROR (R330): Copies a MIRRORED tensor to its buddy's keep area. -/
  | mirror (p : Packet)
  /-- LEDGER_SET (R324): Checks and initialises the context's ledger area and keep area. -/
  | ledgerSet (p : Packet)
  /-- REPLAY (R336): Opens a replay of a verified step, taking G and XP from its ledger entry. -/
  | replay (p : Packet)
  /-- SPARE_ARM (R337): Arms the part as a hot spare with a standby node and wake pattern. -/
  | spareArm (p : Packet)
  /-- SPARE_PROMOTE (R339): Takes a failed node's identity at the next boundary, or fills the spare from a surviving replica. -/
  | sparePromote (p : Packet)
  /-- PLACEMENT_SET (R342): Schedules a new placement epoch to take effect at the next stroke boundary. -/
  | placementSet (p : Packet)
  /-- STREAM_OPEN (R362): Opens an Easel stream with its codec, size, rate, output ring and signal word. -/
  | streamOpen (p : Packet)
  /-- STREAM_FEED (R363): Feeds a buffer of feed records to a stream for decoding into batch slots. -/
  | streamFeed (p : Packet)
  /-- STREAM_CLOSE (R368): Closes a stream after its earlier feeds complete, padding and releasing a partial last batch. -/
  | streamClose (p : Packet)
  /-- ATTEST (R387): Writes a signed attestation report with the requester's nonce. -/
  | attest (p : Packet)
  /-- SESSION_KEY (R289): Runs one stage of the ML-KEM key exchange that installs a queue pair's encryption keys. -/
  | sessionKey (p : Packet)
  /-- FW_STAGE (R381): Verifies a signed firmware image and writes it into the slot not running. -/
  | fwStage (p : Packet)
  /-- FW_ACTIVATE (R381): Marks a staged slot as activated for the next warm reset. -/
  | fwActivate (p : Packet)
  /-- CONFIG_READ (R375): Returns a configuration-store key's present value. -/
  | configRead (p : Packet)
  /-- CONFIG_WRITE (R377): Writes one configuration-store key by programming the unselected bank header last. -/
  | configWrite (p : Packet)
  /-- LOG_READ (R398): Copies trouble-log entries from a given slot into a destination. -/
  | logRead (p : Packet)
  /-- TELEMETRY_READ (R400): Returns a telemetry set sampled within one stroke. -/
  | telemetryRead (p : Packet)
  /-- PROFILE_SET (R414): Selects a power profile to take effect at the second boundary after admission. -/
  | profileSet (p : Packet)
  /-- STROKE_SET (R139): Schedules a new stroke period, time source and origin at an effective stroke. -/
  | strokeSet (p : Packet)
  /-- ROUTEMAP_LOAD (R265): Checks and loads a route map and slot schedule into an inactive bank. -/
  | routemapLoad (p : Packet)
  /-- ROUTEMAP_SWITCH (R266): Schedules a route-map bank switch at a future stroke. -/
  | routemapSwitch (p : Packet)
  /-- STROKE_QUERY (R182): Returns the stroke number and alignment state. -/
  | strokeQuery (p : Packet)
  /-- MBOX_NOP (R450): Mailbox request that does nothing but respond. -/
  | mboxNop (r : MboxRequest)
  /-- SB_SEND (R450): Mailbox request that sends a WAKE or DEBUG_REQUEST service frame on chosen ports. -/
  | sbSend (r : MboxRequest)
  /-- MBOX_TELEMETRY (R450): Mailbox request that returns a telemetry set. -/
  | mboxTelemetry (r : MboxRequest)
  /-- MBOX_CONFIG_READ (R450): Mailbox request that reads a configuration-store key as ADMIN. -/
  | mboxConfigRead (r : MboxRequest)
  /-- MBOX_CONFIG_WRITE (R450): Mailbox request that writes a configuration-store key as ADMIN. -/
  | mboxConfigWrite (r : MboxRequest)
  /-- MBOX_PROFILE_SET (R450): Mailbox request that selects a power profile. -/
  | mboxProfileSet (r : MboxRequest)
  /-- RECOVERY_BEGIN (R451): In recovery, erases slot 0 and starts receiving an image of a given length. -/
  | recoveryBegin (r : MboxRequest)
  /-- RECOVERY_DATA (R451): In recovery, writes image or signature bytes at an offset of slot 0. -/
  | recoveryData (r : MboxRequest)
  /-- RECOVERY_COMMIT (R451): In recovery, checks the written image, writes slot 0's header and schedules a warm reset. -/
  | recoveryCommit (r : MboxRequest)
  /-- MCTP_REQUEST (R436): Serves an MCTP control, PLDM or vendor mailbox message received on the SMBus sideband. -/
  | mctpRequest (m : MctpMessage)
  /-- SMBUS_CLOCK_TIMEOUT (R418): A clock held low for 25 ms abandons the SMBus transaction and releases the bus. -/
  | smbusClockTimeout
  /-- SQ_TAIL_WRITE (R162): A doorbell write posts slots of a queue's submission ring and starts reading records. -/
  | sqTailWrite (queue value : Nat)
  /-- CQ_HEAD_WRITE (R162): Releases completion-ring slots and lets held completion records be written. -/
  | cqHeadWrite (queue value : Nat)
  /-- ADMQ_ENABLE (R444): Writing ENABLE 1 checks the administrative-queue registers and starts queue 0 or refuses it. -/
  | admqEnable
  /-- ADMQ_DISABLE (R444): Writing ENABLE 0 stops queue 0 and releases its ring allocations when nothing is admitted. -/
  | admqDisable
  /-- SB_RX_HEAD_WRITE (R448): Releases consumed slots of the service receive ring. -/
  | sbRxHeadWrite (value : Nat)
  /-- FAULT_SUMMARY_READ (R441): A read of a FAULT_SUMMARY word returns and clears its bits. -/
  | faultSummaryRead (word : Nat)
  /-- HALF_READ_LATCH (R440): A 4-byte read of the low half of an 8-byte register latches its high half. -/
  | halfReadLatch (offset : Nat)
  /-- TABLE_WINDOW_WRITE (R447): A host write to the table pool through BAR2 becomes visible to every walk before later BAR writes. -/
  | tableWindowWrite (offset : Nat) (data : List Byte)
  /-- REGISTER_WRITE (R7): A host write to any other register field stores, clears or is dropped according to its access code. -/
  | registerWrite (offset size value : Nat)
  /-- HOST_INBOUND_REQUEST (R232): Checks and serves a host memory request to a BAR or the device-memory window. -/
  | hostInboundRequest (r : HostRequest)
  /-- CXL_SNOOP (R229): Answers a host snoop of a line in the host-line cache. -/
  | cxlSnoop (line : Nat)
  /-- BACK_INVALIDATION_RESPONSE (R230): The host's answer to a back-invalidation snoop releases the engine write that waited on it. -/
  | backInvalidationResponse (line : Nat) (writeBack : List Byte)
  /-- HOST_LINK_UP (R226): Link training completes and the host mode is settled or kept, releasing held host writes. -/
  | hostLinkUp (cxl : Bool) (width : Nat)
  /-- HOST_LINK_DOWN (R239): The host link goes down, host writes are held and the host-line cache is dropped. -/
  | hostLinkDown
  /-- HOST_LINK_LOSS_TIMEOUT (R239): After 1 ms down, commands with outstanding host accesses end with TIMEOUT. -/
  | hostLinkLossTimeout
  /-- RECORD_FETCH (R164): A submission record read completes and its header is checked for visibility and fields. -/
  | recordFetch (queue : Nat)
  /-- RECORD_REREAD (R164): The 250 ns re-read of a record that is not yet visible. -/
  | recordReread (queue : Nat)
  /-- STALLED_REREAD (R164): The 100 µs re-read of a record on a STALLED queue. -/
  | stalledReread (queue : Nat)
  /-- ADMISSION_PASS (R165): A dispatcher pass that admits at most one group per queue whose records, checks, wait and residence hold. -/
  | admissionPass (dispatcher : Nat)
  /-- DISPATCH_UNIT_END (R143): A dispatch unit ends on its plate or router and the next fitting unit is issued. -/
  | dispatchUnitEnd (u : UnitRef) (run : Nat)
  /-- COMMAND_SKIP (R79): A skip-flagged command, after its predicate command completes, completes DONE without effect or runs. -/
  | commandSkip (queue seq : Nat)
  /-- COMMAND_COMPLETE (R170): A command's last effect is done and its signal, record, flag and interrupt follow in order. -/
  | commandComplete (queue seq : Nat)
  /-- GLOBAL_FLUSH_DONE (R236): Under GLOBAL, every device write and the flushing read behind host writes are done, releasing the completion. -/
  | globalFlushDone (queue seq : Nat)
  /-- PIN_RETRY (R452): Every 100 µs the part retries held record and flag writes of a queue stopped by a PIN fault. -/
  | pinRetry (queue : Nat)
  /-- WAIT_TIMEOUT (R169): A group's wait has not held after WAIT_LIMIT strokes and the group ends with TIMEOUT. -/
  | waitTimeout (queue : Nat)
  /-- RESIDENCE_WAIT (R216): A context has waited 1,000 strokes for residence and one warning is logged. -/
  | residenceWait (context : Nat)
  /-- RESIDENCE_TIMEOUT (R216): A group whose context is not resident within WAIT_LIMIT strokes ends with TIMEOUT. -/
  | residenceTimeout (queue : Nat)
  /-- FAULT_LIMIT (R220): An open demand fault reaches FAULT_LIMIT strokes and its command ends with FAULT_PENDING. -/
  | faultLimit (context fseq : Nat)
  /-- STROKE_BOUNDARY (R140): The stroke timer reaches B(n + 1) and the boundary actions run in order. -/
  | strokeBoundary (b : BoundaryInput)
  /-- PLATE_HANDOVER (R141): A drained plate is given to the next qualifying context. -/
  | plateHandover (plate : Nat)
  /-- STROKE_OVERRUN (R145): A dispatch unit still running at the end of grace is force-drained and pre-empted with its cursor. -/
  | strokeOverrun (u : UnitRef) (run : Nat)
  /-- ENGINE_HUNG (R148): A plate or router not drained by B(n + 1) + 2g is reset and its group ends with INTERNAL. -/
  | engineHung (u : UnitRef)
  /-- PTP_SYNC (R155): A PTP message is received and the servo corrects the stroke length. -/
  | ptpSync (m : PtpMessage)
  /-- SYNC_TIMEOUT (R153): No Sync for 8 sync intervals makes the offset unbounded. -/
  | syncTimeout
  /-- ALIGNMENT_ACQUIRED (R153): The offset stays within ±100 ns for 8 boundaries and the part becomes ALIGNED. -/
  | alignmentAcquired
  /-- ALIGNMENT_LOST (R153): The offset exceeds ±500 ns for 3 boundaries and the part becomes UNALIGNED. -/
  | alignmentLost
  /-- SLOT_OPEN (R151): A slot of the schedule opens 100 ns after its START_NS and its class may begin frames. -/
  | slotOpen (port slot : Nat)
  /-- BURIN_BANK_LOADED (R47): A weight bank finishes loading, with its 2:4 metadata checked, and a waiting array may swap to it. -/
  | burinBankLoaded (plate array : Nat)
  /-- BURIN_TILE_DELIVERY (R60): An array delivers a finished tile to the proof tray or stalls when no slot is free. -/
  | burinTileDelivery (plate array : Nat)
  /-- TRAY_SLOT_FREE (R60): A tray slot frees and stalled arrays start again. -/
  | traySlotFree (plate : Nat)
  /-- STIPPLE_TILE_TAKEN (R70): A free Stipple unit takes the oldest untaken tile from the tray. -/
  | stippleTileTaken (plate unit : Nat)
  /-- STIPPLE_TILE_WRITTEN (R73): A tile leaves the write stage with its conversion, bitmap bits and summary counts. -/
  | stippleTileWritten (plate unit : Nat)
  /-- TRACER_UNIT (R101): A Tracer unit translates its pages, reads and converts into staging, then writes. -/
  | tracerUnit (plate : Nat)
  /-- STENCIL_TOKEN (R104): The Stencil router processes the next token or block row of a split command. -/
  | stencilToken (tile : Nat)
  /-- AQUATINT_PAIR_COMMIT (R131): A row job commits its running maximum, sum and output for one key block. -/
  | aquatintPairCommit (plate : Nat)
  /-- INK_WORD_EVICT (R241): An ink word untouched for 1 ms leaves its HBM4 ink unit. -/
  | inkWordEvict (word : Nat)
  /-- FRAME_RECEIVED (R254): A fabric port receives a frame and drops, answers or hands it on by kind. -/
  | frameReceived (port : Nat) (frame : List Byte)
  /-- LINK_DOWN (R255): A fabric port loses lock or exceeds the error ratio for 1 ms and is declared down. -/
  | linkDown (port : Nat)
  /-- LINK_UP (R255): A fabric port holds lock for 100 ms and is declared up. -/
  | linkUp (port : Nat)
  /-- TRANSIT_FORWARD (R258): A transit part forwards or wraps a Stylus packet for another node. -/
  | transitForward (port : Nat) (packet : TransitInput)
  /-- PASS_THROUGH_FRAME (R268): A standby spare's PASS pair forwards a frame unchanged out of the other port. -/
  | passThroughFrame (port : Nat) (frame : List Byte)
  /-- PROMOTION_ANNOUNCEMENT (R269): A promoted spare sends one round of unsolicited ARP replies and neighbour advertisements at 1 ms intervals. -/
  | promotionAnnouncement
  /-- PACKET_SEND (R276): Stylus sends the next packet of an accepted request once the send window has room. -/
  | packetSend (qp now : Nat)
  /-- DATA_PACKET_RECEIVED (R280): A DATA packet is checked, matched to a receive and written, and acknowledged as due. -/
  | dataPacketReceived (port : Nat) (checksumOk : Bool) (packet : List Byte)
  /-- INK_PACKET_RECEIVED (R279): An INK packet is applied or refused in PSN order and acknowledged. -/
  | inkPacketReceived (port : Nat) (checksumOk : Bool) (packet : List Byte)
  /-- ACK_RECEIVED (R281): An ACK acknowledges packets, updates the round-trip estimate and prompts fast retransmissions. -/
  | ackReceived (port : Nat) (checksumOk : Bool) (packet : List Byte) (now : Nat)
  /-- ACK_TIMER (R280): 1 µs after an unacknowledged arrival the receiver sends an ACK. -/
  | ackTimer (qp : Nat)
  /-- RETRANSMIT_TIMEOUT (R281): RTO passes without acknowledgement, the oldest packet is resent and RTO doubles, or the queue pair errors after 16 expiries. -/
  | retransmitTimeout (qp : Nat)
  /-- RNR_RESEND (R277): 64 µs after an RNR the sender resends the oldest packet. -/
  | rnrResend (qp : Nat)
  /-- RNR_TIMEOUT (R277): A send still refused with RNR after WAIT_LIMIT strokes completes with TIMEOUT. -/
  | rnrTimeout (qp : Nat)
  /-- QP_STATE_FETCHED (R285): An evicted queue-pair state returns on chip and its waiting requests and miss-buffer packets proceed. -/
  | qpStateFetched (qp : Nat)
  /-- TRIGGER_FIRE (R287): An armed request fires on its tag arrival or ink count and takes its MSN. -/
  | triggerFire (qp : Nat)
  /-- TRIGGER_TIMEOUT (R287): A request armed for WAIT_LIMIT strokes without firing completes with TIMEOUT. -/
  | triggerTimeout (qp : Nat)
  /-- BUCKET_START (R300): A queued bucket starts once fewer than eight of its group's buckets run. -/
  | bucketStart (context group : Nat)
  /-- XH_SEGMENT_RECEIVED (R300): A Crosshatch segment is checked, added or written, and forwarded. -/
  | xhSegmentReceived (m : HeldMessage)
  /-- VERDICT_RECORD_RECEIVED (R301): A COLLECT or DISTRIBUTE record is combined, forwarded or judged. -/
  | verdictRecordReceived (m : HeldMessage)
  /-- DEADLINE_EXPIRY (R303): At B(D) a judge that has not decided decides LATE. -/
  | deadlineExpiry (k : BucketKey)
  /-- VERDICT_TIMEOUT (R303): A member without a distributed verdict by B(D + DEADLINE) takes PEER_LOST. -/
  | verdictTimeout (k : BucketKey)
  /-- SHARD_PIECE_RECEIVED (R317): A distribution piece lands in DEST and is forwarded. -/
  | shardPieceReceived (qp : Nat) (piece : List Byte)
  /-- SHARD_PIECE_HASHED (R315): A digest lane finishes hashing a piece along the contiguous prefix. -/
  | shardPieceHashed (queue seq : Nat)
  /-- SHARD_TRAILER_RECEIVED (R317): An upstream trailer arrives and the shard's outcome is settled. -/
  | shardTrailerReceived (qp : Nat) (trailer : List Byte)
  /-- SHARD_TIMEOUT (R317): No new piece or trailer for WAIT_LIMIT strokes ends a shard command with TIMEOUT. -/
  | shardTimeout (queue seq : Nat)
  /-- EPOCH_RELEASE (R323): The last command bound to a retiring epoch completes and the epoch's frames, key and slot are freed. -/
  | epochRelease (epoch : Nat)
  /-- KEEP_PIECE_RECEIVED (R330): A keeper writes and hashes a mirror or snapshot chunk into its uncommitted half. -/
  | keepPieceReceived (qp : Nat) (piece : List Byte)
  /-- KEEP_DIGEST_RECEIVED (R330): A keeper compares the digest record and commits the half on a match. -/
  | keepDigestReceived (qp : Nat) (record : List Byte)
  /-- RESTORE_REQUEST_RECEIVED (R332): A keeper answers a RESTORE_REQUEST from a committed half. -/
  | restoreRequestReceived (qp : Nat) (request : List Byte)
  /-- FILL_REQUEST_RECEIVED (R340): A source answers a spare's fill request with its plan and chunks, or RNR. -/
  | fillRequestReceived (qp : Nat) (request : List Byte)
  /-- FILL_CHUNK_RECEIVED (R340): A spare writes and checks one FILL chunk. -/
  | fillChunkReceived (qp : Nat) (chunk : List Byte)
  /-- EASEL_FRAME_DECODED (R364): Easel decodes a frame, or marks it DROPPED, and writes it into its slot. -/
  | easelFrameDecoded (stream : Nat)
  /-- EASEL_BATCH_START (R366): A stream waiting for room starts writing its next batch once a slot is free. -/
  | easelBatchStart (stream : Nat)
  /-- BATCH_MISSING_TIMEOUT (R367): A group batch incomplete on a member for ceil(10^6 / P) strokes is completed with MISSING frames. -/
  | batchMissingTimeout (stream : Nat)
  /-- FEED_TIMEOUT (R363): A feed that waited WAIT_LIMIT strokes for a slot completes with TIMEOUT. -/
  | feedTimeout (stream : Nat)
  /-- DISCOVER_SEND (R345): A service-bus port sends DISCOVER on its discovery timer. -/
  | discoverSend (port : Nat)
  /-- DISCOVER (R345): A received DISCOVER records the sender's serial number and wanted PLCA ID. -/
  | discover (port : Nat) (frame : List Byte)
  /-- DISCOVERY_WINDOW_CLOSE (R345): The discovery window closes, PLCA IDs are assigned and the port enters PLCA. -/
  | discoveryWindowClose (port : Nat)
  /-- HELLO_SEND (R349): Every 1 s in PLCA the part sends HELLO. -/
  | helloSend (port : Nat)
  /-- PLCA_FALLBACK (R347): A lost or silent beacon makes the port fall back to CSMA/CD and rediscover. -/
  | plcaFallback (port : Nat)
  /-- COLLISION_BACKOFF (R347): A CSMA/CD back-off delay expires and the frame is sent again or dropped after 16 attempts. -/
  | collisionBackoff (port : Nat)
  /-- SERVICE_FRAME_RECEIVED (R348): A service frame is checked, relayed and delivered to the host ring when the part does not act on it. -/
  | serviceFrameReceived (port : Nat) (frame : List Byte)
  /-- TAKEOVER (R339): A received TAKEOVER moves queue pairs to that node into ERROR or fences the old holder. -/
  | takeover (port : Nat) (frame : List Byte)
  /-- TAKEOVER_REPEAT (R349): TAKEOVER is sent again 10 ms after the previous sending. -/
  | takeoverRepeat
  /-- FAILURE_RATE (R354): A received FAILURE_RATE frame updates the kept exposures and events. -/
  | failureRate (port : Nat) (frame : List Byte)
  /-- FAILURE_RATE_SEND (R349): The part sends FAILURE_RATE every 60 s and within 1 s of a new event. -/
  | failureRateSend
  /-- DEBUG_REQUEST (R355): A received DEBUG_REQUEST is answered with status, log entries, telemetry or a warm-reset acknowledgement. -/
  | debugRequest (port : Nat) (frame : List Byte)
  /-- DELAYED_WARM_RESET (R355): 10 ms after a debug WARM_RESET or recovery commit the part asserts a warm reset. -/
  | delayedWarmReset (e : BootInput)
  /-- LOG_EXPORT_SEND (R356): The part sends pending trouble-log entries to the collector within the frame-rate limit. -/
  | logExportSend
  /-- WAKE_MATCH (R358): A received frame matches a wake pattern and wakes a standby spare or a QUIET part. -/
  | wakeMatch (port : Nat) (frame : List Byte)
  /-- WAKE_RAIL_TIMEOUT (R406): Rails not in window within 1 s of a wake send the spare back to STANDBY. -/
  | wakeRailTimeout
  /-- SENSOR_SAMPLE (R390): The 100 µs sampling of temperatures and power, with plausibility checks and an immediate clamp when needed. -/
  | sensorSample (x : SensorInput)
  /-- SENSOR_FAILED (R420): A sensor with 3 consecutive implausible readings is failed. -/
  | sensorFailed (sensor : Nat)
  /-- SENSOR_RECOVERED (R420): A failed sensor with 1,000 consecutive plausible readings recovers. -/
  | sensorRecovered (sensor : Nat)
  /-- THERMAL_TRIP (R424): A die or stack above its trip temperature for 1 ms stops the part and latches THERMTRIP_N. -/
  | thermalTrip
  /-- BRD_THROT_ASSERT (R422): A filtered low on BRD_THROT_N applies the clamp. -/
  | brdThrotAssert
  /-- BRD_THROT_RELEASE (R422): BRD_THROT_N goes high and the duty follows the control loop from 16/64. -/
  | brdThrotRelease
  /-- AVS_STEP (R407): The part moves a tile's core-voltage target by one AVSBus step. -/
  | avsStep (tile : Nat)
  /-- AVS_TIMEOUT (R407): A regulator that does not acknowledge within 1 ms is declared failed and the duty capped. -/
  | avsTimeout (tile : Nat)
  /-- RAIL_FAULT (R405): A rail out of window for 20 µs stops every engine and asks the board to power down. -/
  | railFault (rail : Nat)
  /-- RAIL_RELEASE (R405): After rails read below 10 % for 10 ms, the part releases its power requests. -/
  | railRelease
  /-- RAIL_RECOVERED (R405): Rails back in window for 10 ms start a warm reset. -/
  | railRecovered (e : BootInput)
  /-- RAIL_RECOVERY_TIMEOUT (R405): Rails not back within 1 s make the part repeat the power cycle or give up after three tries. -/
  | railRecoveryTimeout
  /-- FABCLK_LOST (R409): FABCLK_156M25 missing for 10 µs stops every engine and holds the core domains in reset. -/
  | fabclkLost
  /-- FABCLK_RESTORED (R409): FABCLK_156M25 stable for 10 ms starts a warm reset. -/
  | fabclkRestored (e : BootInput)
  /-- AUXCLK_LOST (R409): AUXCLK_25 missing switches the auxiliary domain to its internal oscillator and stops the service bus. -/
  | auxclkLost
  /-- AUXCLK_RESTORED (R409): AUXCLK_25 stable for 10 ms is taken back into use. -/
  | auxclkRestored
  /-- REFCLK_LOST (R408): REFCLK_100 missing for 10 µs takes the host link down. -/
  | refclkLost
  /-- COLD_RESET (R411): PORST_N resets the part and boot runs every stage. -/
  | coldReset (e : BootInput)
  /-- WARM_RESET (R411): WARM_N or an internal warm reset clears contexts and boot runs from stage 3. -/
  | warmReset (e : BootInput)
  /-- PERST_RESET (R411): PERST# resets the part warm and settles the host link again. -/
  | perstReset (e : BootInput)
  /-- FUNCTION_LEVEL_RESET (R412): Stops and destroys every context but context 0 and returns queue 0 to its boot state. -/
  | functionLevelReset
  /-- BOOT_STAGE_TIMEOUT (R384): A boot stage exceeds its limit and boot continues, degrades or enters recovery. -/
  | bootStageTimeout (e : BootInput)
  /-- FLASH_TIMEOUT (R370): An erase or page program exceeds its limit and the flash operation ends with TIMEOUT. -/
  | flashTimeout
  /-- WATCHDOG_RESET (R391): Eight missed boundaries of the RT partition assert a warm reset. -/
  | watchdogReset (e : BootInput)
  /-- SERVICE_RESTART (R391): A service partition silent for 100 ms is restarted and its requests end with INTERNAL. -/
  | serviceRestart
  /-- PATROL_READ (R224): The daily low-priority patrol reads and corrects every HBM4 and DDR5 line. -/
  | patrolRead (line : Nat) (finding : PatrolFinding)
  /-- VAUX_3V3_LOSS (R402): VAUX_3V3 falls below its window, so the auxiliary domain resets and the trouble log and identity seed are lost. -/
  | vaux3v3Loss
  /-- VAUX_3V3_POWER_ON (R398): VAUX_3V3 powers on, clearing the trouble log to zeros and restarting its SEQ. -/
  | vaux3v3PowerOn
  /-- WAKE_RAILS_IN_WINDOW (R406): After a wake releases the power requests, every rail reaches its window and boot runs from stage 3. -/
  | wakeRailsInWindow (e : BootInput)
  /-- RESTORE_CHUNK_RECEIVED (R332): A restoring part receives a chunk from its buddy, writes it and checks it against its leaf. -/
  | restoreChunkReceived (qp : Nat) (chunk : List Byte)
  /-- FRAME_ZERO_FILL_DONE (R412): The background zero-fill of a destroyed context's frame finishes, freeing it and releasing a MEM_REGISTER that waited on it. -/
  | frameZeroFillDone (frame : Nat)
  /-- TAP_INSTRUCTION (R437): A JTAG TAP instruction is taken, with EXTEST, CLAMP and HIGHZ acting only while PORST_N is low and as BYPASS otherwise. -/
  | tapInstruction (code : Nat)
  /-- PLCA_BEACON_HEARD (R345): A service-bus port waiting to follow the beacon hears its first beacon and begins PLCA operation. -/
  | plcaBeaconHeard (port : Nat)
deriving DecidableEq, Repr

end Sys2Proof
end

