-- ==== Sys2Proof/Decode.lean ====
section
/-! DEFINITION. Decode. The opcode table of the block gives no row a word, so that `decodeTableWord` answers none; a command packet carries its
command in OPCODE (R159, R182), which `Packet.command` reads. -/

namespace Sys2Proof

/-- The command that a word spells by the opcode table's bits: none, since the table gives no row any bits. -/
def decodeTableWord (_nbits _w : Nat) : Option Instr := none

/-- OPCODE of a packet: bytes 0 and 1, little-endian (R5, R159). -/
def Packet.code (p : Packet) : Nat := leNat (p.bytes.take 2)

/-- The command of an OPCODE, carried by a packet: [15:8] class, [7:0] operation; none for an undefined one (R159, R182). -/
def commandOf (code : Nat) (p : Packet) : Option Instr :=
  match code with
  | 0x0101 => some (.contextCreate p)
  | 0x0102 => some (.contextDestroy p)
  | 0x0103 => some (.contextQuery p)
  | 0x0104 => some (.queueCreate p)
  | 0x0105 => some (.queueDestroy p)
  | 0x0106 => some (.queueDrain p)
  | 0x0107 => some (.queueStart p)
  | 0x0108 => some (.queueQuery p)
  | 0x0201 => some (.memRegister p)
  | 0x0202 => some (.memRelease p)
  | 0x0203 => some (.memPin p)
  | 0x0204 => some (.memUnpin p)
  | 0x0205 => some (.descCreate p)
  | 0x0206 => some (.descRelease p)
  | 0x0207 => some (.dmaCopy p)
  | 0x0208 => some (.faultResume p)
  | 0x0209 => some (.tlbInvalidate p)
  | 0x0301 => some (.linear p)
  | 0x0302 => some (.stipple p)
  | 0x0303 => some (.attnFwd p)
  | 0x0304 => some (.attnPrep p)
  | 0x0305 => some (.attnBwd p)
  | 0x0306 => some (.gradPolicy p)
  | 0x0401 => some (.tracer p)
  | 0x0501 => some (.route p)
  | 0x0502 => some (.exit p)
  | 0x0503 => some (.mask p)
  | 0x0601 => some (.inkInit p)
  | 0x0602 => some (.inkRead p)
  | 0x0603 => some (.nop p)
  | 0x0604 => some (.inkOverride p)
  | 0x0701 => some (.qpCreate p)
  | 0x0702 => some (.qpConnect p)
  | 0x0703 => some (.qpDestroy p)
  | 0x0704 => some (.postRecv p)
  | 0x0705 => some (.postSend p)
  | 0x0706 => some (.postInk p)
  | 0x0707 => some (.qpQuery p)
  | 0x0801 => some (.xhGroup p)
  | 0x0802 => some (.xhReduce p)
  | 0x0803 => some (.xhAbort p)
  | 0x0804 => some (.prefetchHint p)
  | 0x0901 => some (.manifestLoad p)
  | 0x0902 => some (.shardSend p)
  | 0x0903 => some (.shardReceive p)
  | 0x0904 => some (.baseInstall p)
  | 0x0905 => some (.baseMap p)
  | 0x0906 => some (.baseRetire p)
  | 0x0A01 => some (.tensorClass p)
  | 0x0A02 => some (.snapshot p)
  | 0x0A03 => some (.restore p)
  | 0x0A04 => some (.mirror p)
  | 0x0A05 => some (.ledgerSet p)
  | 0x0A06 => some (.replay p)
  | 0x0A07 => some (.spareArm p)
  | 0x0A08 => some (.sparePromote p)
  | 0x0A09 => some (.placementSet p)
  | 0x0B01 => some (.streamOpen p)
  | 0x0B02 => some (.streamFeed p)
  | 0x0B03 => some (.streamClose p)
  | 0x0C01 => some (.attest p)
  | 0x0C02 => some (.sessionKey p)
  | 0x0C03 => some (.fwStage p)
  | 0x0C04 => some (.fwActivate p)
  | 0x0C05 => some (.configRead p)
  | 0x0C06 => some (.configWrite p)
  | 0x0C07 => some (.logRead p)
  | 0x0C08 => some (.telemetryRead p)
  | 0x0C09 => some (.profileSet p)
  | 0x0D01 => some (.strokeSet p)
  | 0x0D02 => some (.routemapLoad p)
  | 0x0D03 => some (.routemapSwitch p)
  | 0x0D04 => some (.strokeQuery p)
  | _ => none

/-- The command that a packet carries, by its OPCODE (R159, R182). -/
def Packet.command (p : Packet) : Option Instr := commandOf p.code p

end Sys2Proof
end

