-- ==== Sys2Proof/Config.lean ====
section
/-! DEFINITION. Configuration: the values the manual leaves open (opaque, no body: no proof can see them) and the
functions of outside standards that the manual names and does not restate. Every one is declared in notes/assumptions. -/

namespace Sys2Proof.Config

/-- Free values: the n-th open value drawn by the part, of w bits (assumption 1). Nothing constrains it. -/
opaque freeValue : (w : Nat) → Nat → BitVec w

/-- What a byte of a DDR frame reads as after another owner released it and before it is written (R223,
assumption 2): the address and the number of the claim. -/
opaque staleByte : Nat → Nat → Byte

/-- A transcendental Stipple operation on an FP32 argument, as an FP32 bit pattern, inside the domain where R67
fixes no value; R66 bounds its error and fixes no bits (assumption 3). -/
opaque transcendental : (op : Nat) → (argument : BitVec 32) → BitVec 32

/-- A byte of a tile register that no entry of the list has written: at a tile's edge, or past a 16-bit result (R65; assumption 146). -/
opaque unwrittenByte : (register byte : Nat) → Byte

/-- The order in which ACCUMULATE_UNORDERED adds: the number of the add taken at each place (R94, assumption 4). -/
opaque unorderedPick : (draw : Nat) → (remaining : Nat) → Nat

/-- FIPS 205 verification: key, message, signature (R200, R289, R312, R379; assumption 5). -/
opaque slhVerify : List Byte → List Byte → List Byte → Bool
/-- FIPS 205 signature of a message under a device secret (R387, R289; assumption 5). -/
opaque slhSign : List Byte → List Byte → List Byte
/-- The FIPS 205 public key of a 48-byte seed triple (R372; assumption 5). -/
opaque slhPublic : List Byte → List Byte
/-- FIPS 203 encapsulation key of a random draw (R289; assumption 5). -/
opaque kemEncapKey : Nat → List Byte
/-- FIPS 203 ciphertext for an encapsulation key and a draw (R289; assumption 5). -/
opaque kemCipher : List Byte → Nat → List Byte
/-- FIPS 203 shared secret that the responder forms (R289; assumption 5). -/
opaque kemShared : List Byte → Nat → List Byte
/-- FIPS 203 decapsulation by the initiator's draw (R289; assumption 5). -/
opaque kemDecap : Nat → List Byte → List Byte
/-- SP 800-38D: key, nonce, additional data, plaintext; ciphertext then the 16-byte tag (R288; assumption 5). -/
opaque gcmSeal : List Byte → List Byte → List Byte → List Byte → List Byte
/-- SP 800-38D opening: key, nonce, additional data, ciphertext with tag; none on a tag that fails (R288). -/
opaque gcmOpen : List Byte → List Byte → List Byte → List Byte → Option (List Byte)
/-- The DRBG's n-th output of w bytes after a seeding (R373; assumption 5). -/
opaque drbg : (seeding n w : Nat) → List Byte
/-- AES-256-XTS of IEEE 1619 under a 64-byte key: the data unit's number and its bytes (R222; assumption 5). -/
opaque xtsEncipher : (key : List Byte) → (tweak : Nat) → (unit : List Byte) → List Byte
/-- The fuzzy extractor of R371: PUF response and helper data give a candidate seed (assumption 5). -/
opaque fuzzyExtract : (puf helper : List Byte) → List Byte

/-- The two Swierapol endorsement keys and the four firmware keys of the ROM (R373; assumption 6). -/
opaque endorseKey : Nat → List Byte
/-- See `endorseKey`. -/
opaque firmwareKey : Nat → List Byte
/-- SHA-256 of the ROM (R387; assumption 6). -/
opaque romDigest : List Byte

/-- A decoded video or still picture (ITU-T H.265, AV1, ITU-T T.81): codec, every record payload of the stream so
far in feed order, width, height, the picture's number in output order. none where the picture cannot be decoded; otherwise
its sample planes as R365's PLANE or RGB values want them: depth, chroma planes present, matrix code, full range,
and the Y, U, V samples at luma resolution (R364, R365; assumption 7). -/
opaque decodePicture : (codec : Nat) → (units : List (List Byte)) → (w h n : Nat) →
  Option (Nat × Bool × Nat × Bool × List Nat × List Nat × List Nat)

/-- The record, counted from STREAM_OPEN, whose picture is the n-th in output order: H.265 picture order or AV1 shown-frame order over
the records of the stream so far (R364; assumption 7). -/
opaque outputOrder : (codec : Nat) → (units : List (List Byte)) → (n : Nat) → Nat

/-- A picture with a matrix code of ITU-T H.273 other than those that assumption 70 writes out: the FP32 codes of R', G' and B' of a pixel,
from the matrix code, the depth, the range and the samples (R365; assumption 70). -/
opaque colour : (matrix depth : Nat) → (full : Bool) → (y u v : Nat) → BitVec 32 × BitVec 32 × BitVec 32

/-- The core-voltage target, in units of 0.1 mV, that a tile's timing monitors call for at a duty (R407;
assumption 8). -/
opaque avsWanted : (tile duty draw : Nat) → Nat

/-- The nonzero byte that marks an exited token, less one (R113 names no value; assumption 58). -/
opaque exitMark : Fin 255

/-- The rank score of a token's expert whose selection score is NaN through its bias (R106 orders no NaN; assumption 59). -/
opaque nanScore : (token expert : Nat) → Int

/-- The draw of a Stipple operation inside an attention pair under SR at a point that is no gradient point: R40 numbers no element of a
score block (assumption 65). Step of R131 or R134, head, query row, and key or column. -/
opaque scoreDraw : (step head row col : Nat) → BitVec 24

/-- The bytes that firmware keeps in a state area or a workspace, whose layout R104, R105, R131 and R135 do not give (assumption 52): the
number of the unit that writes them, and the address. -/
opaque areaByte : (unit address : Nat) → Byte

/-- The DMA mover that serves a command, which R14 and R219 number from 0 to 15 and no rule chooses (assumption 155): queue and SEQ. -/
opaque dmaMover : (queue seq : Nat) → Fin 16

/-- Where the copies of the frame map and of the context table lie in the reserved areas of tiles 0 and 1, counted from the end of the table
pool: R204 gives their sizes and tiles (assumption 163). -/
opaque frameMapOffset : Fin 30000000
/-- See `frameMapOffset`. -/
opaque contextTableOffset : Fin 30000000

/-- A byte of the configuration space that no request has written: PCIe and CXL lay it out, and the spec gives no contents (R227, R232;
assumption 165). -/
opaque configByte : Nat → Byte
/-- Where the Advanced Error Reporting capability holds its uncorrectable error status (R227; assumption 165). -/
opaque aerStatus : Fin 4000

/-- What Aquatint makes of a mask field of 0b11, which R115 reserves: one of its three codes (assumption 64). -/
opaque reservedMask : Fin 3

end Sys2Proof.Config
end

