-- ==== Sys2Proof/Machine/Crypto.lean ====
section
/-! DEFINITION. The outside standards that the manual's rules compute with, written out as functions: CRC-32C and
CRC-32 (R159, R358), SHA-256 (R39, R312, R328), HMAC and HKDF (R352, R372, R289), AES-128 (R39). Their texts stand outside the
manual (assumption 9, PRESUMED). -/

namespace Sys2Proof.Machine

/-! ### CRC -/

/-- One bit of a reflected CRC over polynomial poly. -/
def crcBit (poly c : Nat) : Nat := if c % 2 = 1 then Nat.xor (c / 2) poly else c / 2

/-- One byte of a reflected CRC. -/
def crcByte (poly c : Nat) (b : Byte) : Nat :=
  (List.range 8).foldl (fun a _ => crcBit poly a) (Nat.xor c b.toNat)

/-- A reflected 32-bit CRC with all-ones start and final complement. -/
def crc32With (poly : Nat) (bs : List Byte) : Nat :=
  Nat.xor (bs.foldl (crcByte poly) 0xFFFFFFFF) 0xFFFFFFFF

/-- CRC-32C (Castagnoli), R159, R371, R374, R380. -/
def crc32c (bs : List Byte) : Nat := crc32With 0x82F63B78 bs

/-- CRC-32 of IEEE 802.3, R358. -/
def crc32 (bs : List Byte) : Nat := crc32With 0xEDB88320 bs

/-! ### SHA-256 -/

/-- Eight 32-bit words packed into one number, the first in the highest place. -/
def wordsOf256 (x : Nat) : List Nat := (List.range 8).map fun i => bitsOf x (255 - 32 * i) (224 - 32 * i)

/-- The round constants of FIPS 180-4, eight words to a number: the fractions of the cube roots of the first 64 primes. -/
def shaRoundTable : List Nat :=
  [0x428a2f9871374491b5c0fbcfe9b5dba53956c25b59f111f1923f82a4ab1c5ed5,
   0xd807aa9812835b01243185be550c7dc372be5d7480deb1fe9bdc06a7c19bf174,
   0xe49b69c1efbe47860fc19dc6240ca1cc2de92c6f4a7484aa5cb0a9dc76f988da,
   0x983e5152a831c66db00327c8bf597fc7c6e00bf3d5a7914706ca635114292967,
   0x27b70a852e1b21384d2c6dfc53380d13650a7354766a0abb81c2c92e92722c85,
   0xa2bfe8a1a81a664bc24b8b70c76c51a3d192e819d6990624f40e3585106aa070,
   0x19a4c1161e376c082748774c34b0bcb5391c0cb34ed8aa4a5b9cca4f682e6ff3,
   0x748f82ee78a5636f84c878148cc7020890befffaa4506cebbef9a3f7c67178f2]

/-- The constant of each round. -/
def shaK : List Nat := shaRoundTable.flatMap wordsOf256

/-- The hash value before the first block: the fractions of the square roots of the first eight primes, packed likewise. -/
def shaH0 : List Nat := wordsOf256 0x6a09e667bb67ae853c6ef372a54ff53a510e527f9b05688c1f83d9ab5be0cd19

/-- Rotate a 32-bit word right. -/
def rotr32 (x n : Nat) : Nat := Nat.lor (x / 2 ^ n) ((x * 2 ^ (32 - n)) % 2 ^ 32)

/-- The next message-schedule word; the list holds the schedule newest first. -/
def shaSched (w : List Nat) : List Nat :=
  let x15 := w.getD 14 0
  let x2 := w.getD 1 0
  let s0 := Nat.xor (Nat.xor (rotr32 x15 7) (rotr32 x15 18)) (x15 / 2 ^ 3)
  let s1 := Nat.xor (Nat.xor (rotr32 x2 17) (rotr32 x2 19)) (x2 / 2 ^ 10)
  ((w.getD 15 0 + s0 + w.getD 6 0 + s1) % 2 ^ 32) :: w

/-- One round on the eight working variables. -/
def shaRound (v : List Nat) (kw : Nat) : List Nat :=
  match v with
  | [a, b, c, d, e, f, g, h] =>
    let s1 := Nat.xor (Nat.xor (rotr32 e 6) (rotr32 e 11)) (rotr32 e 25)
    let ch := Nat.xor (Nat.land e f) (Nat.land (2 ^ 32 - 1 - e) g)
    let t1 := h + s1 + ch + kw
    let s0 := Nat.xor (Nat.xor (rotr32 a 2) (rotr32 a 13)) (rotr32 a 22)
    let mj := Nat.xor (Nat.xor (Nat.land a b) (Nat.land a c)) (Nat.land b c)
    [(t1 + s0 + mj) % 2 ^ 32, a, b, c, (d + t1) % 2 ^ 32, e, f, g]
  | _ => v

/-- The big-endian value of bytes. -/
def beNat (bs : List Byte) : Nat := bs.foldl (fun a b => 256 * a + b.toNat) 0

/-- The n big-endian bytes of v. -/
def beBytes (n v : Nat) : List Byte := (leBytes n v).reverse

/-- One 64-byte block. -/
def shaBlock (h : List Nat) (blk : List Byte) : List Nat :=
  let w16 := ((List.range 16).map fun i => beNat ((blk.drop (4 * i)).take 4)).reverse
  let w := ((List.range 48).foldl (fun a _ => shaSched a) w16).reverse
  let v := (List.zipWith (· + ·) shaK w).foldl shaRound h
  List.zipWith (fun a b => (a + b) % 2 ^ 32) h v

/-- SHA-256 (FIPS 180-4). -/
def sha256 (m : List Byte) : List Byte :=
  let padN := (119 - m.length % 64) % 64
  let p := m ++ [0x80] ++ zeros padN ++ beBytes 8 (8 * m.length)
  let h := (List.range (p.length / 64)).foldl (fun h i => shaBlock h ((p.drop (64 * i)).take 64)) shaH0
  h.flatMap (beBytes 4)

/-- The SHA-256 state after whole blocks. -/
def shaUpdate (h : List Nat) (bs : List Byte) : List Nat :=
  (List.range (bs.length / 64)).foldl (fun h i => shaBlock h ((bs.drop (64 * i)).take 64)) h

/-- The digest of a message of n bytes whose whole blocks before `rest` have led to state h. -/
def shaFinish (h : List Nat) (n : Nat) (rest : List Byte) : List Byte :=
  (shaUpdate h (rest ++ [0x80] ++ zeros ((119 - rest.length % 64) % 64) ++ beBytes 8 (8 * n))).flatMap (beBytes 4)

/-- HMAC-SHA-256. -/
def hmacSha256 (key m : List Byte) : List Byte :=
  let k0 := if key.length > 64 then sha256 key else key
  let k := k0 ++ zeros (64 - k0.length)
  let x := fun (c : Byte) => k.map (fun b => b ^^^ c)
  sha256 (x 0x5c ++ sha256 (x 0x36 ++ m))

/-- The first n bytes of HKDF-SHA-256 (RFC 5869). -/
def hkdf (salt ikm info : List Byte) (n : Nat) : List Byte :=
  let prk := hmacSha256 (if salt = [] then zeros 32 else salt) ikm
  let step := fun (st : List Byte × List Byte) (i : Nat) =>
    let t := hmacSha256 prk (st.1 ++ info ++ [BitVec.ofNat 8 (i + 1)])
    (t, st.2 ++ t)
  (((List.range (ceilDiv n 32)).foldl step ([], [])).2).take n

/-! ### AES-128 -/

/-- Doubling in GF(2^8). -/
def aesXtime (a : Nat) : Nat := if a < 128 then 2 * a else Nat.xor (2 * a - 256) 0x1b

/-- Product in GF(2^8). -/
def aesMul (a b : Nat) : Nat :=
  ((List.range 8).foldl
    (fun (st : Nat × Nat) i => (aesXtime st.1, if b.testBit i then Nat.xor st.2 st.1 else st.2)) (a, 0)).2

/-- Inverse in GF(2^8), 0 for 0: a to the power 254. -/
def aesInv (a : Nat) : Nat :=
  let a2 := aesMul a a
  let a4 := aesMul a2 a2
  let a8 := aesMul a4 a4
  let a16 := aesMul a8 a8
  let a32 := aesMul a16 a16
  let a64 := aesMul a32 a32
  let a128 := aesMul a64 a64
  aesMul a128 (aesMul a64 (aesMul a32 (aesMul a16 (aesMul a8 (aesMul a4 a2)))))

/-- Rotate a byte left. -/
def rotl8 (x n : Nat) : Nat := (x * 2 ^ n) % 256 + x / 2 ^ (8 - n)

/-- The S-box (FIPS 197). -/
def aesSbox (a : Nat) : Nat :=
  let b := aesInv a
  Nat.xor 0x63 (Nat.xor b (Nat.xor (rotl8 b 1) (Nat.xor (rotl8 b 2) (Nat.xor (rotl8 b 3) (rotl8 b 4)))))

/-- The next round key (16 bytes) from the last, by round constant. -/
def aesNextKey (k : List Nat) (rcon : Nat) : List Nat :=
  let g := fun i => k.getD i 0
  let t := [Nat.xor (aesSbox (g 13)) rcon, aesSbox (g 14), aesSbox (g 15), aesSbox (g 12)]
  let w0 := List.zipWith Nat.xor (k.take 4) t
  let w1 := List.zipWith Nat.xor ((k.drop 4).take 4) w0
  let w2 := List.zipWith Nat.xor ((k.drop 8).take 4) w1
  let w3 := List.zipWith Nat.xor ((k.drop 12).take 4) w2
  w0 ++ w1 ++ w2 ++ w3

/-- SubBytes then ShiftRows on 16 bytes, column-major. -/
def aesSubShift (s : List Nat) : List Nat :=
  (List.range 16).map fun i => aesSbox (s.getD ((i + 4 * (i % 4)) % 16) 0)

/-- MixColumns of one column. -/
def aesMixCol (c : List Nat) : List Nat :=
  (List.range 4).map fun i =>
    Nat.xor (Nat.xor (aesMul 2 (c.getD i 0)) (aesMul 3 (c.getD ((i + 1) % 4) 0)))
      (Nat.xor (c.getD ((i + 2) % 4) 0) (c.getD ((i + 3) % 4) 0))

/-- MixColumns. -/
def aesMix (s : List Nat) : List Nat := (List.range 4).flatMap fun c => aesMixCol ((s.drop (4 * c)).take 4)

/-- AES-128 encryption of one block (FIPS 197). -/
def aes128 (key blk : List Byte) : List Byte :=
  let k0 := key.map (·.toNat)
  let s0 := List.zipWith Nat.xor (blk.map (·.toNat)) k0
  let step := fun (st : List Nat × List Nat) (rc : Nat × Bool) =>
    let k := aesNextKey st.2 rc.1
    let s1 := aesSubShift st.1
    let s2 := if rc.2 then s1 else aesMix s1
    (List.zipWith Nat.xor s2 k, k)
  let rcs := [(1, false), (2, false), (4, false), (8, false), (16, false), (32, false), (64, false), (128, false),
    (0x1b, false), (0x36, true)]
  ((rcs.foldl step (s0, k0)).1).map (BitVec.ofNat 8)

end Sys2Proof.Machine
end

