-- ==== Sys2Proof/Machine/Numerics.lean ====
section
/-! DEFINITION. Number formats, scales and rounding (02_number_formats.md, R23 to R44): exact values, decoding, the
six rounding modes, block scales, integer narrowing, BFX32, and the arithmetic of Stipple and Burin on exact values. -/

namespace Sys2Proof.Machine

/-- An exact value: a NaN with its sign and its 52-bit fraction aligned as FP64's (bit 51 marks it quiet), an infinity, or
(-1)^neg · m · 2^e; m = 0 is a signed zero (R24). -/
inductive FV where
  | nan (neg : Bool) (frac : Nat)
  | inf (neg : Bool)
  | num (neg : Bool) (m : Nat) (e : Int)
deriving DecidableEq, Repr

/-- Format codes of R180. -/
inductive Fmt where
  | fp64 | fp32 | bf16 | fp16 | e4m3 | e5m2 | e3m2 | e2m3 | e2m1 | e8m0 | int8 | int4 | int32 | bfx32
deriving DecidableEq, Repr

/-- R180: any other code fails with BAD_FIELD under R23. -/
def Fmt.ofCode : Nat → Option Fmt
  | 0x01 => some .fp64 | 0x02 => some .fp32 | 0x03 => some .bf16 | 0x04 => some .fp16
  | 0x10 => some .e4m3 | 0x11 => some .e5m2 | 0x12 => some .e3m2 | 0x13 => some .e2m3 | 0x14 => some .e2m1
  | 0x18 => some .e8m0 | 0x20 => some .int8 | 0x21 => some .int4 | 0x22 => some .int32 | 0x30 => some .bfx32
  | _ => none

/-- Element width in bits (R23); a BFX32 block counts as one element of 132 bytes (R180). -/
def Fmt.width : Fmt → Nat
  | .fp64 => 64 | .fp32 => 32 | .bf16 => 16 | .fp16 => 16 | .e4m3 => 8 | .e5m2 => 8 | .e3m2 => 6 | .e2m3 => 6
  | .e2m1 => 4 | .e8m0 => 8 | .int8 => 8 | .int4 => 4 | .int32 => 32 | .bfx32 => 1056

/-- Block element formats (R25). -/
def Fmt.isBlock : Fmt → Bool
  | .e4m3 | .e5m2 | .e3m2 | .e2m3 | .e2m1 => true
  | _ => false

/-- Integer formats (R32). -/
def Fmt.isInt : Fmt → Bool
  | .int8 | .int4 | .int32 => true
  | _ => false

/-- IEEE-style formats (R24). -/
def Fmt.isIeee : Fmt → Bool
  | .fp64 | .fp32 | .bf16 | .fp16 => true
  | _ => false

/-- Float formats of a tensor: IEEE-style and block formats (R66). -/
def Fmt.isFloat (f : Fmt) : Bool := f.isIeee || f.isBlock

/-- Burin operand formats (R45). -/
def Fmt.isBurin : Fmt → Bool
  | .fp32 | .bf16 | .fp16 | .e4m3 | .e5m2 | .e3m2 | .e2m3 | .e2m1 | .int8 | .int4 => true
  | _ => false

/-- Exponent bits, significand bits and bias (R24, R25). -/
def Fmt.params : Fmt → Nat × Nat × Nat
  | .fp64 => (11, 52, 1023) | .fp32 => (8, 23, 127) | .bf16 => (8, 7, 127) | .fp16 => (5, 10, 15)
  | .e4m3 => (4, 3, 7) | .e5m2 => (5, 2, 15) | .e3m2 => (3, 2, 3) | .e2m3 => (2, 3, 1) | .e2m1 => (2, 1, 1)
  | _ => (8, 23, 127)

/-- The code of the largest finite element, without sign, and emax (R25). -/
def Fmt.maxElem : Fmt → Nat × Int
  | .e4m3 => (0x7E, 8) | .e5m2 => (0x7B, 15) | .e3m2 => (0x1F, 4) | .e2m3 => (0x1F, 2) | .e2m1 => (0x7, 2)
  | _ => (0, 0)

/-- The canonical quiet NaN (R42): positive, zero payload. -/
def FV.qnan : FV := .nan false (2 ^ 51)

/-- A NaN. -/
def FV.isNan : FV → Bool
  | .nan _ _ => true
  | _ => false

/-- A signalling NaN (R24: bit 51 of the aligned fraction clear). -/
def FV.isSnan : FV → Bool
  | .nan _ f => !bitOf f 51
  | _ => false

/-- An infinity. -/
def FV.isInf : FV → Bool
  | .inf _ => true
  | _ => false

/-- A signed zero. -/
def FV.isZero : FV → Bool
  | .num _ 0 _ => true
  | _ => false

/-- A NaN with its quiet bit set, sign and payload kept (R42). -/
def FV.quiet : FV → FV
  | .nan s f => .nan s (if bitOf f 51 then f else f + 2 ^ 51)
  | v => v

/-- The sign. -/
def FV.neg : FV → Bool
  | .nan s _ => s
  | .inf s => s
  | .num s _ _ => s

/-- The value with sign s. -/
def FV.withSign (s : Bool) : FV → FV
  | .nan _ f => .nan s f
  | .inf _ => .inf s
  | .num _ m e => .num s m e

/-- Magnitude. -/
def FV.abs (v : FV) : FV := v.withSign false

/-- +0. -/
def FV.zero : FV := .num false 0 0

/-- Burin's NaN results are always the canonical quiet NaN (R36, R42, R50). -/
def FV.canon (v : FV) : FV := if v.isNan then .qnan else v

/-- An integer as an exact value. -/
def FV.ofInt (i : Int) : FV := .num (decide (i < 0)) i.natAbs 0

/-- floor(log2) of m · 2^e, m nonzero. -/
def flog2 (m : Nat) (e : Int) : Int := (Nat.log2 m : Int) + e

/-- m · 2^e as an integer numerator over 2^k: the common scale of two dyadics. -/
def alignTo (k : Int) (m : Nat) (e : Int) : Nat := m * 2 ^ (e - k).toNat

/-- Signed integer of (s, m). -/
def signed (s : Bool) (m : Nat) : Int := if s then -(m : Int) else m

/-- Compare two finite or infinite values: -1, 0, 1; NaN compares as 0 and is handled before. Zeros are equal. -/
def FV.cmp (a b : FV) : Int :=
  match a, b with
  | .inf s, .inf t => if s = t then 0 else if s then -1 else 1
  | .inf s, _ => if s then -1 else 1
  | _, .inf t => if t then 1 else -1
  | .num s m e, .num t n f =>
    let k := min e f
    let x := signed s (alignTo k m e)
    let y := signed t (alignTo k n f)
    if x < y then -1 else if x = y then 0 else 1
  | _, _ => 0

/-! ### Rounding (R37, R38) -/

/-- The rounding modes of R37. -/
inductive RMode where
  | rne | rtz | rup | rdn | rna | sr
deriving DecidableEq, Repr

/-- R37: codes 6 and 7 fail with BAD_FIELD. -/
def RMode.ofCode : Nat → Option RMode
  | 0 => some .rne | 1 => some .rtz | 2 => some .rup | 3 => some .rdn | 4 => some .rna | 5 => some .sr
  | _ => none

/-- m · 2^e rounded to a whole multiple of 2^q (R37, and R38's steps under SR with the draw r). -/
def roundAt (mode : RMode) (neg : Bool) (r m : Nat) (e q : Int) : Nat :=
  if q ≤ e then m * 2 ^ (e - q).toNat
  else
    let sh := (q - e).toNat
    let n := m / 2 ^ sh
    let rem := m % 2 ^ sh
    let twice := 2 * rem
    let up : Bool :=
      if rem = 0 then false
      else match mode with
        | .rne => decide (twice > 2 ^ sh) || (decide (twice = 2 ^ sh) && decide (n % 2 = 1))
        | .rtz => false
        | .rup => !neg
        | .rdn => neg
        | .rna => decide (twice ≥ 2 ^ sh)
        | .sr => decide (r < rem * 2 ^ 24 / 2 ^ sh)
    if up then n + 1 else n

/-- Is m · 2^e a whole multiple of 2^q. -/
def exactAt (m : Nat) (e q : Int) : Bool := decide (q ≤ e) || decide (m % 2 ^ (q - e).toNat = 0)

/-- The weight of the last place kept when m · 2^e, m nonzero, is written with mb significand bits and least
exponent qmin. -/
def lastPlace (mb : Nat) (qmin : Int) (m : Nat) (e : Int) : Int := max (flog2 m e - mb) qmin

/-- A value rounded to an IEEE-style format: its code, and whether a nonzero value became zero (R41). -/
def encodeIeee (f : Fmt) (mode : RMode) (r : Nat) (v : FV) : Nat × Bool :=
  let (eb, mb, bias) := f.params
  let top := (2 ^ eb - 1) * 2 ^ mb
  let signBit := fun (s : Bool) => if s then 2 ^ (eb + mb) else 0
  match v with
  | .nan s fr =>
    let lead := fr / 2 ^ (52 - mb)
    let q := if bitOf lead (mb - 1) then lead else lead + 2 ^ (mb - 1)
    (signBit s + top + q, false)
  | .inf s => (signBit s + top, false)
  | .num s 0 _ => (signBit s, false)
  | .num s m e =>
    let qmin : Int := 1 - (bias : Int) - mb
    let q := lastPlace mb qmin m e
    let n := roundAt mode s r m e q
    let code := n + (q - qmin).toNat * 2 ^ mb
    if code ≥ top then
      let toInf : Bool := match mode with
        | .rne | .rna => true
        | .rtz | .sr => false
        | .rup => !s
        | .rdn => s
      (signBit s + (if toInf then top else top - 1), false)
    else (signBit s + code, decide (n = 0))

/-- The code of a value that an IEEE-style format holds exactly: no rounding, and a NaN as it is, signalling or quiet (R81, R96). -/
def encodeExact (f : Fmt) (v : FV) : Nat :=
  match v with
  | .nan s fr =>
    let (eb, mb, _) := f.params
    b2n s * 2 ^ (eb + mb) + (2 ^ eb - 1) * 2 ^ mb + fr / 2 ^ (52 - mb)
  | _ => (encodeIeee f .rne 0 v).1

/-- The value of an IEEE-style code (R24). -/
def decodeIeee (f : Fmt) (code : Nat) : FV :=
  let (eb, mb, bias) := f.params
  let s := bitOf code (eb + mb)
  let ex := bitsOf code (eb + mb - 1) mb
  let fr := code % 2 ^ mb
  if ex = 2 ^ eb - 1 then (if fr = 0 then .inf s else .nan s (fr * 2 ^ (52 - mb)))
  else if ex = 0 then .num s fr (1 - (bias : Int) - mb)
  else .num s (fr + 2 ^ mb) ((ex : Int) - bias - mb)

/-- The value of a block element code under a scale code (R25, R27, R28). -/
def decodeElem (f : Fmt) (scale code : Nat) : FV :=
  let (eb, mb, bias) := f.params
  let s := bitOf code (eb + mb)
  let ex := bitsOf code (eb + mb - 1) mb
  let fr := code % 2 ^ mb
  if scale = 0xFF then .qnan
  else if f = .e4m3 ∧ code % 128 = 0x7F then .qnan
  else if f = .e5m2 ∧ ex = 31 then (if fr = 0 then .inf s else .qnan)
  else
    let k : Int := (scale : Int) - 127
    if ex = 0 then .num s fr (1 - (bias : Int) - mb + k)
    else .num s (fr + 2 ^ mb) ((ex : Int) - bias - mb + k)

/-- R28: a widened value beyond the FP32 range becomes the infinity of its sign. -/
def widenFp32 (v : FV) : FV :=
  match v with
  | .num s m e => if m ≠ 0 ∧ flog2 m e ≥ 128 then .inf s else v
  | _ => v

/-- Counts that a conversion adds (R31, R41, R42). -/
structure Counts where
  sat : Nat := 0
  under : Nat := 0
  nonfin : Nat := 0
  /-- NaNs converted to an integer format (R41) -/
  invalid : Nat := 0
  /-- signalling NaNs quieted by a conversion between float formats (R42) -/
  quieted : Nat := 0
deriving DecidableEq, Repr

/-- Sum of counts. -/
def Counts.add (a b : Counts) : Counts :=
  ⟨a.sat + b.sat, a.under + b.under, a.nonfin + b.nonfin, a.invalid + b.invalid, a.quieted + b.quieted⟩

/-- One element of a block written at scale exponent s (R30): code and counts. -/
def encodeElem (f : Fmt) (mode : RMode) (r : Nat) (s : Int) (v : FV) : Nat × Counts :=
  let (eb, mb, bias) := f.params
  let (maxC, _) := f.maxElem
  match v with
  | .num neg m e =>
    let sgn := if neg then 2 ^ (eb + mb) else 0
    if m = 0 then (sgn, {})
    else
      let qmin : Int := 1 - (bias : Int) - mb
      let q := lastPlace mb qmin m (e - s)
      let n := roundAt mode neg r m (e - s) q
      let code := n + (q - qmin).toNat * 2 ^ mb
      if code > maxC then (sgn + maxC, { sat := 1 })
      else (sgn + code, { under := b2n (decide (n = 0)) })
  | _ => (0, {})

/-- The scale code and element codes of one block (R30): noclip selects the rule, draws gives each element's r. -/
def encodeBlock (f : Fmt) (noclip : Bool) (mode : RMode) (vals : List (FV × Nat)) : Nat × List Nat × Counts :=
  if vals.any fun x => x.1.isNan || x.1.isInf then
    (0xFF, vals.map fun _ => 0, { nonfin := 1 })
  else
    let amax := vals.foldl (fun a x => if FV.cmp x.1.abs a = 1 then x.1.abs else a) FV.zero
    match amax with
    | .num _ m e =>
      if m = 0 then
        let sb := 2 ^ (f.width - 1)
        (0x7F, vals.map fun x => if x.1.neg then sb else 0, {})
      else
        let (maxC, emax) := f.maxElem
        let s0 := flog2 m e - emax
        let tooBig := FV.cmp amax (decodeElem f 127 maxC |> fun v => match v with
          | .num a b c => .num a b (c + s0)
          | w => w) = 1
        let s1 := if noclip ∧ tooBig then s0 + 1 else s0
        let s := clampI s1 (-127) 127
        let enc := vals.map fun x => encodeElem f mode x.2 s x.1
        ((s + 127).toNat, enc.map (·.1), enc.foldl (fun a x => a.add x.2) {})
    | _ => (0xFF, vals.map fun _ => 0, { nonfin := 1 })

/-! ### Integers (R32, R33, R41) -/

/-- Narrow an exact integer to w bits: wrap keeps the low bits; otherwise clamp and count (R33). -/
def narrowInt (wrap : Bool) (w : Nat) (v : Int) : Nat × Counts :=
  let lo := -((2 : Int) ^ (w - 1))
  let hi := (2 : Int) ^ (w - 1) - 1
  if wrap then (twos w v, {})
  else if v < lo then (twos w lo, { sat := 1 })
  else if v > hi then (twos w hi, { sat := 1 })
  else (twos w v, {})

/-- A float converted to a w-bit integer: always saturates (R33); NaN gives 0 and one invalid operation (R41). -/
def floatToInt (mode : RMode) (r w : Nat) (v : FV) : Nat × Counts :=
  match v with
  | .nan _ _ => (0, { invalid := 1 })
  | .inf s => (twos w (if s then -((2 : Int) ^ (w - 1)) else (2 : Int) ^ (w - 1) - 1), { sat := 1 })
  | .num s m e => narrowInt false w (signed s (roundAt mode s r m e 0))

/-! ### BFX32 (R34, R35, R291, R296) -/

/-- The residue of a block's mantissas (R291). -/
def watermark (ms : List Int) : Nat :=
  ((((List.range ms.length).map fun (i : Nat) => ((i : Int) + 1) * ms.getD i 0).foldl (· + ·) 0) % 65535).toNat

/-- A BFX32 block's fields (R34). -/
structure Bfx where
  xp : Nat
  nf : Bool
  esc : Bool
  rsv : Nat := 0
  wm : Nat
  mant : List Int
deriving DecidableEq, Repr

/-- The 132 bytes of a block (R34). -/
def Bfx.toBytes (b : Bfx) : List Byte :=
  leBytes 1 b.xp ++ leBytes 1 (b.rsv * 4 + b2n b.nf * 2 + b2n b.esc) ++ leBytes 2 b.wm ++
    b.mant.flatMap fun m => leBytes 4 (twos 32 m)

/-- A block read from 132 bytes (R34). -/
def Bfx.ofBytes (bs : List Byte) : Bfx :=
  let fl := leNat ((bs.drop 1).take 1)
  { xp := leNat (bs.take 1), nf := bitOf fl 1, esc := bitOf fl 0, rsv := fl / 4, wm := leNat ((bs.drop 2).take 2),
    mant := (List.range 32).map fun i => sext 32 (leNat ((bs.drop (4 + 4 * i)).take 4)) }

/-- One mantissa v × 2^(157 − xp), rounded (R35). none for NaN or infinity. -/
def bfxMant (mode : RMode) (r : Nat) (xp : Int) (v : FV) : Option Int :=
  match v with
  | .num s m e => some (signed s (roundAt mode s r m e (xp - 157)))
  | _ => none

/-- Convert 32 values under agreed XP (R35), escaping or zeroing at the source under R296. -/
def bfxEncode (mode : RMode) (xp : Nat) (vals : List (FV × Nat)) : Bfx :=
  let lim : Int := 2 ^ 31 - 1
  let conv := fun (x : Nat) => vals.map fun p => (bfxMant mode p.2 x p.1)
  let nf := vals.any fun p => p.1.isNan || p.1.isInf
  let ms := (conv xp).map fun o => o.getD 0
  let tooBig := fun (l : List Int) => l.any fun m => decide (m.natAbs > lim.natAbs)
  if tooBig ms then
    let ms8 := (conv (xp + 8)).map fun o => o.getD 0
    if tooBig ms8 then { xp := xp, nf := true, esc := false, wm := 0, mant := vals.map fun _ => 0 }
    else { xp := xp + 8, nf := nf, esc := true, wm := watermark ms8, mant := ms8 }
  else { xp := xp, nf := nf, esc := false, wm := watermark ms, mant := ms }

/-- Element i of a block as an exact value; every element of an NF block is NaN (R35). -/
def Bfx.value (b : Bfx) (i : Nat) : FV :=
  if b.nf then .qnan
  else
    let m := b.mant.getD i 0
    .num (decide (m < 0)) m.natAbs ((b.xp : Int) - 157)

/-! ### Exact operations (R36, R42, R43) -/

/-- The NaN that an operation with NaN operands returns, and how many operands were signalling (R42). -/
def nanOf (ops : List FV) : Option (FV × Nat) :=
  (ops.find? (·.isNan)).map fun v => (v.quiet, (ops.filter (·.isSnan)).length)

/-- Exact sum of two finite values; a zero result's sign by the rounding mode (IEEE 754-2019, R43). -/
def addNum (mode : RMode) (s : Bool) (m : Nat) (e : Int) (t : Bool) (n : Nat) (f : Int) : FV :=
  let k := min e f
  let x := signed s (alignTo k m e) + signed t (alignTo k n f)
  if x = 0 then
    (if m = 0 ∧ n = 0 then (if s = t then .num s 0 0 else .num (decide (mode = .rdn)) 0 0)
     else .num (decide (mode = .rdn)) 0 0)
  else .num (decide (x < 0)) x.natAbs k

/-- a + b: exact value and invalid operations counted. -/
def fvAdd (mode : RMode) (a b : FV) : FV × Nat :=
  match nanOf [a, b] with
  | some (v, n) => (v, n)
  | none =>
    match a, b with
    | .inf s, .inf t => if s = t then (.inf s, 0) else (.qnan, 1)
    | .inf s, _ => (.inf s, 0)
    | _, .inf t => (.inf t, 0)
    | .num s m e, .num t n f => (addNum mode s m e t n f, 0)
    | _, _ => (.qnan, 0)

/-- Negation, exact. -/
def FV.negate (v : FV) : FV := v.withSign (!v.neg)

/-- a − b; a NaN operand keeps its own sign (R42). -/
def fvSub (mode : RMode) (a b : FV) : FV × Nat :=
  match nanOf [a, b] with
  | some (v, n) => (v, n)
  | none => fvAdd mode a b.negate

/-- a × b. -/
def fvMul (a b : FV) : FV × Nat :=
  match nanOf [a, b] with
  | some (v, n) => (v, n)
  | none =>
    let s := a.neg != b.neg
    match a, b with
    | .num _ m e, .num _ n f => (.num s (m * n) (e + f), 0)
    | .inf _, y => if y.isZero then (.qnan, 1) else (.inf s, 0)
    | x, .inf _ => if x.isZero then (.qnan, 1) else (.inf s, 0)
    | _, _ => (.qnan, 0)

/-- a × b + c, one exact value. -/
def fvFma (mode : RMode) (a b c : FV) : FV × Nat :=
  match nanOf [a, b, c] with
  | some (v, n) => (v, n)
  | none =>
    let (p, i) := fvMul a b
    if p.isNan then (p, i) else fvAdd mode p c

/-- Extra bits kept below a quotient or root, with the last one sticky, so that every rounding of R37 and the 24 bits of
R38 come out as on the exact value. -/
def guardBits : Nat := 200

/-- a / b. -/
def fvDiv (a b : FV) : FV × Nat :=
  match nanOf [a, b] with
  | some (v, n) => (v, n)
  | none =>
    let s := a.neg != b.neg
    match a, b with
    | .inf _, .inf _ => (.qnan, 1)
    | .inf _, _ => (.inf s, 0)
    | _, .inf _ => (.num s 0 0, 0)
    | .num _ m e, .num _ n f =>
      if n = 0 then (if m = 0 then (.qnan, 1) else (.inf s, 0))
      else if m = 0 then (.num s 0 0, 0)
      else
        let k := guardBits + Nat.log2 n
        let q := m * 2 ^ k / n
        let st := b2n (decide (m * 2 ^ k % n ≠ 0))
        (.num s (2 * q + st) (e - f - k - 1), 0)
    | _, _ => (.qnan, 0)

/-- Integer square root by bits, structurally. -/
def isqrt (x : Nat) : Nat :=
  let k := Nat.log2 x / 2 + 1
  ((List.range (k + 1)).reverse).foldl (fun r i => if (r + 2 ^ i) * (r + 2 ^ i) ≤ x then r + 2 ^ i else r) 0

/-- Square root. -/
def fvSqrt (a : FV) : FV × Nat :=
  match nanOf [a] with
  | some (v, n) => (v, n)
  | none =>
    match a with
    | .inf s => if s then (.qnan, 1) else (.inf false, 0)
    | .num s m e =>
      if m = 0 then (.num s 0 0, 0)
      else if s then (.qnan, 1)
      else
        let odd := e % 2 ≠ 0
        let m2 := (if odd then 2 * m else m) * 4 ^ guardBits
        let e2 := (if odd then e - 1 else e) / 2 - guardBits
        let r := isqrt m2
        (.num false (2 * r + b2n (decide (r * r ≠ m2))) (e2 - 1), 0)
    | _ => (.qnan, 0)

/-- a is ordered below b, −0 below +0 (R44). -/
def totalLt (a b : FV) : Bool :=
  let c := FV.cmp a b
  decide (c = -1) || (decide (c = 0) && a.isZero && b.isZero && a.neg && !b.neg)

/-- MAX and MIN (propagate) and MAXNUM and MINNUM of R44. -/
def fvMaxMin (isMax propagate : Bool) (a b : FV) : FV × Nat :=
  let snans := ([a, b].filter (·.isSnan)).length
  if a.isNan ∨ b.isNan then
    (if propagate then ((if a.isNan then a.quiet else b.quiet), snans)
     else if a.isNan ∧ b.isNan then (a.quiet, snans)
     else ((if a.isNan then b else a), snans))
  else if isMax then ((if totalLt a b then b else a), 0)
  else ((if totalLt b a then b else a), 0)

/-- Exact sum of finite values over a common scale, for SUM, SUMSQ and Burin's per-clock sums (R50, R68, R77). -/
def exactSum (l : List (Bool × Nat × Int)) : Bool × Nat × Int :=
  let k := l.foldl (fun a x => min a x.2.2) 0
  let t := l.foldl (fun (a : Int) x => a + signed x.1 (alignTo k x.2.1 x.2.2)) 0
  (decide (t < 0), t.natAbs, k)

/-- The exact sum of values under R68's special cases: the NaN of lowest index, opposite infinities, an infinity. -/
def sumSpecial (l : List FV) : FV :=
  match l.find? (·.isNan) with
  | some v => v.quiet
  | none =>
    let p := l.any fun v => v.isInf && !v.neg
    let n := l.any fun v => v.isInf && v.neg
    if p ∧ n then .qnan
    else if p then .inf false
    else if n then .inf true
    else
      let (s, m, e) := exactSum (l.map fun v => match v with
        | .num s m e => (s, m, e)
        | _ => (false, 0, 0))
      .num s m e

/-! ### Random bits of SR and MASK (R39, R40) -/

/-- The key K of R39. -/
def srKey (seed step layer tensor : Nat) : List Byte :=
  (sha256 (ascii "KVSR" ++ leBytes 8 seed ++ leBytes 5 step ++ leBytes 2 layer ++ leBytes 2 tensor)).take 16

/-- The 24-bit draw of element index i at a conversion point (R39). -/
def srDraw (key : List Byte) (point i : Nat) : Nat :=
  let blk := leBytes 6 (i / 5) ++ leBytes 2 point ++ zeros 8
  let o := leNat (aes128 key blk)
  bitsOf o (24 * (i % 5) + 23) (24 * (i % 5))

/-- An IEEE-style value rounded to format f, under SR with the draw r, and read back. -/
def roundWith (f : Fmt) (mode : RMode) (r : Nat) (v : FV) : FV := decodeIeee f (encodeIeee f mode r v).1

/-- The same under a mode that draws nothing. -/
def roundTo (f : Fmt) (mode : RMode) (v : FV) : FV := roundWith f mode 0 v

end Sys2Proof.Machine
end

