-- ==== Sys2Proof/Machine/Kv.lean ====
section
/-! DEFINITION. Tables keyed by a number, held as lists with strictly rising keys, so that equal tables are equal data. -/

namespace Sys2Proof.Kv

/-- The entry under key k. -/
def get {α : Type} (k : Nat) : List (Nat × α) → Option α
  | [] => none
  | (j, a) :: t => if j = k then some a else get k t

/-- Is there an entry under key k. -/
def has {α : Type} (k : Nat) (t : List (Nat × α)) : Bool := (get k t).isSome

/-- Put a under key k. -/
def set {α : Type} (k : Nat) (a : α) : List (Nat × α) → List (Nat × α)
  | [] => [(k, a)]
  | (j, b) :: t => if k < j then (k, a) :: (j, b) :: t else if k = j then (k, a) :: t else (j, b) :: set k a t

/-- Remove the entry under key k. -/
def del {α : Type} (k : Nat) (t : List (Nat × α)) : List (Nat × α) := t.filter fun e => e.1 ≠ k

/-- Change the entry under key k, if there is one. -/
def upd {α : Type} (k : Nat) (f : α → α) (t : List (Nat × α)) : List (Nat × α) :=
  t.map fun e => if e.1 = k then (e.1, f e.2) else e

/-- The keys. -/
def keys {α : Type} (t : List (Nat × α)) : List Nat := t.map (·.1)

/-- The lowest number in lo, lo + 1, … below lo + n that is no key. -/
def lowestFree {α : Type} (lo n : Nat) (t : List (Nat × α)) : Option Nat :=
  ((List.range n).map (· + lo)).find? fun k => !has k t

/-- Keys strictly rising. -/
def sorted {α : Type} : List (Nat × α) → Bool
  | [] => true
  | [_] => true
  | a :: b :: t => decide (a.1 < b.1) && sorted (b :: t)

end Sys2Proof.Kv
end

