-- ==== Sys2Proof/Machine/State.lean ====
section
/-! DEFINITION. State: everything the manual gives the part, as plain data, its faults and refusals, and the state right
after reset. Each field's docstring reads: what it is | its width | the file and rule that name it | its reset value. -/

namespace Sys2Proof.Machine

/-- The reasons for which a step stops with a fault. No meaning of this model stops so: every row has an effect. -/
inductive Fault where
  /-- Raised by no step of this model; kept so that the interface has a fault type. Safe. -/
  | unused
deriving DecidableEq, Repr

/-- The reasons for which a step has no meaning. -/
inductive Refusal where
  /-- A row whose meaning is not modelled yet, by its mnemonic; raised by exec's arms only. Safe: the run stops. -/
  | notModelled (mnemonic : String)
deriving DecidableEq, Repr

/-! ### Outcomes of commands (R176, R178) -/

/-- The statuses of R176. -/
inductive Status where
  | done | badOpcode | badLength | badField | stateConflict | noResource | accessDenied | faultPending | descRange
  | inkUnderflow | inkOverflow | strokeOverrun | preempted | stepAborted | checkMismatch | signatureInvalid | busyRetry
  | timeout | peerLost | mediaError | epochStale | internal
deriving DecidableEq, Repr

/-- How a command ends: its status, its detail and its result words (R171, R176). -/
structure Ending where
  status : Status
  detail : Nat := 0
  r0 : Nat := 0
  r1 : Nat := 0
deriving DecidableEq, Repr

/-- The fault kinds of R218. -/
inductive FaultKind where
  | notPresent | protection | ink | owner | address | table | pin | strokeOverrun | media | limit
deriving DecidableEq, Repr

/-- A record of a fault ring (R219). -/
structure FaultRecord where
  fseq : Nat
  va : Nat
  stroke : Nat
  ns : Nat
  kind : FaultKind
  engine : Nat
  index : Nat
  access : Nat
  queue : Nat
  seq : Nat
  estimate : Nat
  run : Nat
  cursor : Nat
  isOpen : Bool
deriving DecidableEq, Repr

/-! ### Trouble log (23_proof_core_and_trouble_log.md) -/

/-- A trouble-log entry (R396). -/
structure LogEntry where
  stroke : Nat
  ns : Nat
  code : Nat
  severity : Nat
  source : Nat
  index : Nat
  flags : Nat
  context : Nat
  aux : Nat
  seq : Nat
  data : Nat
deriving DecidableEq, Repr

/-- The trouble log and its unit (R396 to R399). -/
structure TroubleLog where
  /-- entries by slot, unwritten slots read as zeros | 8,192 × 32 bytes | 23 R397, R398 | none written -/
  slots : List (Nat × LogEntry)
  /-- SEQ of the next entry | 32 bits | 23 R396, R398 | 1 -/
  nextSeq : Nat
  /-- INFO and WARNING entries accepted in this stroke, at most 64 | count | 23 R397 | 0 -/
  thisStroke : Nat
  /-- INFO and WARNING entries dropped since the last boundary | count | 23 R397 | 0 -/
  dropped : Nat
  /-- entries dropped in all, telemetry set 4 | 64 bits | 23 R400 | 0 -/
  droppedAll : Nat
deriving DecidableEq, Repr

/-! ### Memory (12_memory_translation_isolation.md, 01_plates_and_tiles.md) -/

/-- The owner entry of a 64 KiB frame (R205). -/
inductive FrameOwner where
  | context (c : Nat)
  | base (slot : Nat)
  | reserved
deriving DecidableEq, Repr

/-- A cached translation of one 4 KiB page (R211). -/
structure TlbEntry where
  context : Nat
  page : Nat
  frame : Nat
  read : Bool
  write : Bool
  ink : Bool
deriving DecidableEq, Repr

/-- Every memory that has a physical address (R203): HBM4 with its reserved areas, plate memory, the DDR tier, and host
memory; with ink tags, owners, keys and errors. -/
structure Memory where
  /-- bytes that differ from what an unlisted address reads as, addresses strictly rising | 49-bit addresses | 12 R203 | none listed: HBM4, plate memory zero by R411; DDR and host bytes DESIGN CHOICE 0 (assumption 10) -/
  cells : List Host.Cell
  /-- DDR frames whose unlisted bytes are unspecified, with the number of the claim | 64 KiB frames | 12 R223 | none -/
  stale : List (Nat × Nat)
  /-- physical addresses of the inked words | one tag per 8-byte word | 14 R240, 12 R224 | all dry, DESIGN CHOICE (assumption 11) -/
  inked : List Nat
  /-- 64-byte lines that are uncorrectable | line addresses | 12 R225 | none -/
  badLines : List Nat
  /-- owner of each frame that is not FREE, by frame number | 16 bits each, two copies | 12 R204, R205 | none: FREE, the reserved areas being reserved by address -/
  owners : List (Nat × FrameOwner)
  /-- last owner of each freed DDR frame: CONTEXT or BASE and the number of its key | 64 KiB frames | 12 R206, R223 | none -/
  ddrLast : List (Nat × Nat)
  /-- frames that are being zero-filled before they become FREE | 64 KiB frames | 12 R206, 24 R412 | none -/
  filling : List Nat
  /-- claims of DDR frames so far, the model's own serial for `stale` | count | 12 R223 | 0 -/
  claims : Nat
  /-- cached translations of every engine | per page | 12 R211 | none -/
  tlb : List TlbEntry
  /-- live DDR keys: for each context and each base slot the number of its DRBG output; the keys themselves cannot be read | 4,352 keys | 12 R222, R223 | none -/
  keys : List (Nat × Nat)
  /-- host lines held in the host-line cache, least recently used first | 16,384 lines of 64 bytes | 13 R229 | none -/
  hostLines : List Nat
  /-- window lines that the host holds, oldest first | 524,288 lines | 13 R230 | none -/
  directory : List Nat
  /-- engine writes that wait for a back-invalidation response: line and bytes | lines of 64 bytes | 13 R230 | none -/
  snooped : List (Nat × List (Nat × Byte))
  /-- ink words held in HBM4 ink units, by physical address | 4,096 words per unit | 14 R241 | none -/
  inkUnit : List Nat
deriving DecidableEq, Repr

/-! ### Contexts -/

/-- An allocation of a context (R186, R206, R217). -/
structure Alloc where
  base : Nat
  size : Nat
  write : Bool
  pinned : Bool
  ink : Bool
  /-- pin counts above zero, by page index -/
  pins : List (Nat × Nat)
deriving DecidableEq, Repr

/-- A base window (R213). -/
structure Window where
  va : Nat
  epoch : Nat
  manifest : Nat
  sizeGib : Nat
  valid : Bool
deriving DecidableEq, Repr

/-- What a command's translations are bound to (R211, R321). -/
inductive Bound where
  /-- the command has been admitted: it sees the listed windows and no others -/
  | admitted
  /-- a base window that was valid at the command's admission -/
  | window (w : Window)
  /-- a translation that the command's dispatch unit made before an invalidation dropped it -/
  | page (t : TlbEntry)
deriving DecidableEq, Repr

/-- A descriptor (R81). -/
structure Desc where
  record : List Byte
deriving DecidableEq, Repr

/-- A context's fault ring (R219). -/
structure FaultRing where
  /-- FSEQ of the next record | 64 bits | 12 R219 | 1 -/
  nextFseq : Nat
  /-- open records overwritten | 32 bits | 12 R219 | 0 -/
  lost : Nat
  /-- records by slot 1 to 63 | 64 bytes each | 12 R219 | none -/
  slots : List (Nat × FaultRecord)
  /-- open faults, oldest first, overwritten records included | FSEQ list | 12 R219, R220 | none -/
  opened : List FaultRecord
deriving DecidableEq, Repr

/-! ### Queues and commands (10_command_queues.md) -/

/-- Queue states (R162). -/
inductive QueueState where
  | unused | active | stalled | stopped
deriving DecidableEq, Repr

/-- Steps 3 to 5 of R170, held for a full ring or a broken pin (R173, R452): the record's bytes without PHASE, the flag
with its value, and whether the interrupt follows. -/
structure Held where
  record : Option (List Byte)
  flag : Option (Nat × Nat)
  irq : Bool
deriving DecidableEq, Repr

/-- What a stopped queue waits for (R174, R184, R185, R444): the command that waits, none for a write of ENABLE; whether it cancels what runs;
whether the queue goes once its last record is written; the commands cancelled so far. -/
structure Drain where
  waiter : Option (Nat × Nat)
  cancel : Bool
  destroy : Bool
  cancelled : Nat
deriving DecidableEq, Repr

/-- A queue (R156, R162). -/
structure Queue where
  /-- STATE | 3 bits | 10 R162 | UNUSED -/
  state : QueueState
  /-- owner context | 12 bits | 10 R156 | queue 0: context 0 -/
  owner : Nat
  /-- submission ring base | virtual address | 10 R156, 27 R443 | 0 -/
  sqBase : Nat
  /-- log2 of the submission ring's slots | 6 to 16 | 10 R156, 27 R443 | 0 -/
  sqLog2 : Nat
  /-- completion ring base | virtual address | 10 R156, 27 R443 | 0 -/
  cqBase : Nat
  /-- log2 of the completion ring's records | 6 to 16 | 10 R156, 27 R443 | 0 -/
  cqLog2 : Nat
  /-- WAIT_LIMIT in strokes | 25 bits | 10 R156 | 50,000 -/
  waitLimit : Nat
  /-- MSI-X vector, if any | 11 bits | 10 R156 | none -/
  vector : Option Nat
  /-- expected sequence number | 64 bits | 10 R156 | 1 -/
  expSeq : Nat
  /-- last accepted SQ_TAIL | 32 bits | 10 R162 | 0 -/
  sqTail : Nat
  /-- SQ_HEAD | 32 bits | 10 R162 | 0 -/
  sqHead : Nat
  /-- DOORBELL_ERRORS | 16 bits, saturating | 10 R162 | 0 -/
  dbErrors : Nat
  /-- last accepted CQ_HEAD | 32 bits | 10 R162 | 0 -/
  cqHead : Nat
  /-- completion records written | 32 bits | 10 R162, R172 | 0 -/
  cqWritten : Nat
  /-- held records and flags, completion order | at most 64 | 10 R173, R452 | none -/
  held : List Held
  /-- re-reads of the present record so far | 0 to 8 | 10 R164 | 0 -/
  rereads : Nat
  /-- a PIN event of the submission ring is logged and not yet repaired | flag | 10 R452 | false -/
  sqBroken : Bool
  /-- a PIN event of the completion ring or a flag is logged and not yet repaired | flag | 10 R452 | false -/
  pinBroken : Bool
  /-- what a stopped queue waits for | see Drain | 10 R174, 11 R184, R185 | none -/
  drain : Option Drain
deriving DecidableEq, Repr

/-- Where a command stands. -/
inductive Phase where
  /-- read and checked under R159, not admitted -/
  | visible
  /-- admitted under R165, not started -/
  | admitted
  /-- started under R166, its effects not yet done -/
  | running
  /-- its last effect is done: step 1 of R170 is due -/
  | finished (e : Ending)
  /-- under GLOBAL, waiting in step 1 of R170 -/
  | flushing (e : Ending)
deriving DecidableEq, Repr
/-! ### Base epochs and manifests (18_model_distribution.md) -/

/-- An installed base epoch (R319, R322, R323). -/
structure Epoch where
  slot : Nat
  manifest : Nat
  bytes : Nat
  /-- the slot's zero frame, to which image pages map that no shard covers (R319) -/
  blank : Nat
  /-- physical frame numbers of its 64 KiB frames in window order -/
  frames : List Nat
  retiring : Bool
deriving DecidableEq, Repr

/-- A loaded manifest (R311, R312, R317). -/
structure Manifest where
  /-- loading context, none once that context has been destroyed -/
  owner : Option Nat
  publisher : Nat
  bytes : List Byte
  digest : List Byte
  /-- store frames -/
  frames : List Nat
  /-- verified shards: shard, DEST base -/
  verified : List (Nat × Nat)
  /-- SHARD_RECEIVE commands admitted, by shard -/
  receives : List (Nat × Nat)
  /-- messages discarded because their shard was verified (R314) -/
  discards : Nat
deriving DecidableEq, Repr

/-- Progress of a shard command (R315 to R317). -/
structure ShardWork where
  /-- pieces present -/
  present : List Nat
  /-- bytes that they hold -/
  stored : Nat
  /-- pieces hashed, along the contiguous prefix -/
  hashed : Nat
  /-- SHA-256 state over the pieces hashed, each but the last being whole blocks; then the digest's words -/
  sha : List Nat
  /-- the upstream trailer's verdict, once it has arrived -/
  upstream : Option Bool
  /-- own digest matches, once it is complete -/
  matched : Option Bool
  /-- stroke of the last new piece or trailer -/
  since : Nat
  /-- ending that waits for the forwarded messages to be acknowledged -/
  settled : Option Ending
deriving DecidableEq, Repr


/-! ### Work in progress of a command -/

/-- One element to be written: its flat position in the tensor's element shape, its value, and its draw (R39, R40). -/
structure Put where
  flat : Nat
  val : FV
  draw : Nat
  /-- the value comes from an integer format, so R33's mode governs its narrowing -/
  fromInt : Bool
  /-- the code itself, where the element is stored without any conversion (R74) -/
  code : Option Nat := none
deriving DecidableEq, Repr

/-- What routing makes of a token (R106). -/
inductive TokenRoute where
  | exited
  | nonfinite
  /-- the ranked list of experts, each expert's logit and each expert's selection score -/
  | ranked (order : List Nat) (logits scores : List FV)
deriving DecidableEq, Repr

/-- The running summary of an epilogue (R76, R77): SUM and SUMSQ exactly as m · 2^e. -/
structure SumState where
  sum : Int × Int := (0, 0)
  sumsq : Int × Int := (0, 0)
  amax : FV := .num false 0 0
  elements : Nat := 0
  nans : Nat := 0
  infs : Nat := 0
  zeros : Nat := 0
  invalid : Nat := 0
  sat : Nat := 0
  under : Nat := 0
  nonfin : Nat := 0
  zeroBlocks : Nat := 0
deriving DecidableEq, Repr

/-- Progress of a LINEAR or STIPPLE command. -/
structure TileWork where
  /-- the product in progress, in the order of R117 and R121; 0 in a STIPPLE command -/
  stage : Nat
  /-- tiles of the stage given to an array or a Stipple unit -/
  issued : List Nat
  /-- tiles of the stage that have left the write stage -/
  written : List Nat
  sums : SumState
  /-- per-tile partial vectors of a final reduction (R69) -/
  partials : List (Nat × List Nat)
  /-- output elements of a final reduction whose list produced or propagated a NaN (R76) -/
  nanLines : List Nat
  /-- elements of output blocks that cross a tile's edge, until the block is complete -/
  carry : List Put
  /-- those of them whose list produced or propagated a NaN, by flat position (R76) -/
  carryNans : List Nat := []
  /-- tiles whose bitmap bits wait for such an element (R75) -/
  unmarked : List Nat := []
deriving DecidableEq, Repr

/-- The engine-side progress of a command beside its cursor. -/
inductive Work where
  | none
  | tiles (t : TileWork)
  /-- counters, in the order that each engine's definition gives -/
  | counts (l : List Nat)
  /-- a GATHER: the entries counted under ZERO mode, and the distinct units read so far by their origin, each element's code and scale code
  in order (R93, R99) -/
  | gather (zeros : Nat) (held : List (List Nat × List (Nat × Nat)))
  /-- a ROUTE: what routing has made of its tokens so far (R104, R106) -/
  | routed (tokens : List TokenRoute)
  /-- waits until every message sent for the command is acknowledged, and then ends so -/
  | sending (e : Ending)
  /-- a SHARD_SEND or SHARD_RECEIVE -/
  | shard (w : ShardWork)
deriving DecidableEq, Repr

/-- A command that the part has read and not yet completed (R159 to R170). -/
structure Cmd where
  queue : Nat
  /-- SEQ -/
  seq : Nat
  /-- the part's own copy of the packet (R167) -/
  bytes : List Byte
  /-- SEQ of the first command of its group (R161) -/
  group : Nat
  phase : Phase
  /-- a header check that failed when the record was read (R159, R164) -/
  failed : Option Ending
  /-- stroke of the first pass after the group became visible (R169) -/
  firstPass : Option Nat
  /-- stroke of the first boundary at which the group was visible (R216) -/
  firstBoundary : Option Nat
  /-- its signal and flag are not applied (R177, R184) -/
  quiet : Bool
  /-- a cancelling drain stops it at its next pre-emption point (R184) -/
  cancel : Bool
  /-- open demand fault on which it waits (R220) -/
  fault : Option Nat
  /-- packet offset of the field of the access that faulted last (R218) -/
  faultAt : Nat
  /-- a host-memory access of it is outstanding while the host link is down (R239), by the field's packet offset -/
  hostWait : Option Nat
  /-- stroke of its admission (R165, R303, R414) -/
  admitted : Nat
  /-- place of its group among the part's admissions (R276) -/
  place : Nat
  /-- effective stroke budget in ACLK (R142, R147) -/
  budget : Nat
  /-- overruns in a row (R147) -/
  overruns : Nat
  /-- its skip word has been settled: run (R79) -/
  skipSettled : Bool
  /-- windows it was bound to at admission (R321), and translations that its unit keeps (R211) -/
  bound : List Bound
  /-- Proof core class whose slot it holds (R392) -/
  slot : Option Nat
  /-- next unit: the engine's cursor -/
  cursor : Nat
  work : Work
deriving DecidableEq, Repr

/-! ### Strokes (09_strokes.md) -/

/-- A pending STROKE_SET (R139). -/
structure StrokeChange where
  effective : Nat
  period : Nat
  source : Nat
  port : Nat
  syncLog2 : Int
deriving DecidableEq, Repr

/-- Alignment states (R153). -/
inductive Align where
  | localTime | acquiring | aligned | unaligned
deriving DecidableEq, Repr

/-- The stroke timer and alignment (R138 to R155). -/
structure Strokes where
  /-- stroke number | 48 bits | 09 R138, R140 | 0 -/
  now : Nat
  /-- ns from cold reset to the latched boundary, on the part's own clock | count | 09 R140 | 0 -/
  elapsed : Nat
  /-- stroke period P in µs | 50 to 2,000 | 09 R138 | 200 -/
  period : Nat
  /-- time source: 0 LOCAL, 1 PTP over a fabric port, 2 PTP over a service-bus port | 2 bits | 09 R139 | 0 -/
  source : Nat
  /-- port of the time source | 3 bits | 09 R139 | 0 -/
  port : Nat
  /-- log2 of the Sync interval | signed | 09 R139 | 0 -/
  syncLog2 : Int
  /-- origin in seconds and ns, once set | 80 bits | 09 R139 | none -/
  origin : Option (Nat × Nat)
  /-- pending changes in order of effective stroke | list | 09 R139 | none -/
  changes : List StrokeChange
  /-- alignment state | 2 bits | 09 R153, 27 R441 | LOCAL -/
  align : Align
  /-- offset in ns at the last boundary | signed 32 bits | 09 R153, 27 R441 | 0 -/
  offset : Int
  /-- no Sync for 8 sync intervals | flag | 09 R153 | false -/
  unbounded : Bool
  /-- consecutive boundaries within ±100 ns | 0 to 8 | 09 R153 | 0 -/
  within : Nat
  /-- consecutive boundaries beyond ±500 ns | 0 to 3 | 09 R153 | 0 -/
  beyond : Nat
  /-- correction of the present stroke's length in ns, at most 250 either way | signed | 09 R155 | 0 -/
  correction : Int
  /-- duty in force | 1 to 64 | 09 R144, 27 R441 | 64 -/
  duty : Nat
  /-- a two-step Sync that waits for its Follow_Up: sequence and arrival in ns | 16 bits, time | 09 R139 | none -/
  ptpSync : Option (Nat × Int)
  /-- arrival less departure of the last complete Sync in ns | time | 09 R139 | none -/
  ptpDiff : Option Int
  /-- delay request without an answer: sequence and departure in ns | 16 bits, time | 09 R139 | none -/
  ptpRequest : Option (Nat × Int)
  /-- sequence of the next delay request | 16 bits | 09 R139 | 0, DESIGN CHOICE (assumption 161) -/
  ptpNext : Nat
  /-- mean path delay in ns | time | 09 R139 | 0, PRESUMED (assumption 161) -/
  ptpDelay : Int
deriving DecidableEq, Repr

/-- A dispatcher Scribe core (R14, R165). -/
structure Dispatcher where
  /-- queue served last | 10 bits | 10 R165 | its last queue, DESIGN CHOICE (assumption 12): the first pass starts at its lowest queue -/
  last : Nat
deriving DecidableEq, Repr

/-! ### Host interface (27_host_register_map.md, 13_host_coupling.md) -/

/-- A host request's answer, as the host sees it. -/
inductive HostAnswer where
  /-- bytes of a read -/
  | data (bytes : List Byte)
  /-- an accepted write -/
  | written
  /-- Unsupported Request, or a CXL.mem error response -/
  | unsupported
  /-- a poisoned completion -/
  | poisoned
deriving DecidableEq, Repr

/-- The Proof core mailbox (R448, R449). -/
structure Mailbox where
  /-- REQUEST bytes by offset, unlisted zero | 4 KiB | 27 R448 | 0 -/
  request : List (Nat × Byte)
  /-- RESPONSE | 4 KiB | 27 R448 | 0 -/
  response : List Byte
  /-- the request being served, copied at the doorbell: BUSY | see MboxRequest | 27 R448, R449 | none -/
  busy : Option MboxRequest
  /-- DONE | 1 bit | 27 R448 | 0 -/
  done : Bool
  /-- IGNORED | 16 bits, saturating | 27 R448 | 0 -/
  ignored : Nat
  /-- SB_RX_TAIL | 32 bits | 27 R448 | 0 -/
  rxTail : Nat
  /-- SB_RX_HEAD, last accepted | 32 bits | 27 R448 | 0 -/
  rxHead : Nat
  /-- SB_RX_DROPPED | 32 bits | 27 R448 | 0 -/
  rxDropped : Nat
  /-- SB_RX slots | 32 × 1 KiB | 27 R448 | empty -/
  rxSlots : List (Nat × List Byte)
  /-- response of the sideband path, to be fetched by the sideband master | bytes | 26 R436 | empty -/
  sideband : List Byte
deriving DecidableEq, Repr

/-- Registers and link of the host interface. -/
structure HostPort where
  /-- host link up | flag | 13 R226, R239 | false -/
  up : Bool
  /-- the mode is settled since the last PORST_N or PERST# | flag | 13 R226 | false -/
  settled : Bool
  /-- HOST_MODE: COHERENT | 1 bit | 13 R226, 27 R441 | 0 -/
  coherent : Bool
  /-- HOST_WIDTH: 1 x4, 2 x8, 3 x16 | 3 bits | 27 R441 | 0 -/
  width : Nat
  /-- the part holds the link down for a changed mode | flag | 13 R226 | false -/
  heldDown : Bool
  /-- the link has been down for 1 ms | flag | 13 R239 | false -/
  lost : Bool
  /-- host writes held while the link is down, oldest first: address and bytes | list | 13 R239 | none -/
  heldWrites : List (Nat × List Byte)
  /-- FAULT_EN | 1 bit | 27 R441 | 0 -/
  faultEn : Bool
  /-- FAULT_VEC | 11 bits | 27 R441 | 0 -/
  faultVec : Nat
  /-- MBOX_EN | 1 bit | 27 R441 | 0 -/
  mboxEn : Bool
  /-- MBOX_VEC | 11 bits | 27 R441 | 0 -/
  mboxVec : Nat
  /-- QP_BACKING bits [47:12] | 36 bits | 27 R441 | 0 -/
  qpBacking : Nat
  /-- FAULT_SUMMARY bits set, by context | 4,096 bits | 27 R441 | none -/
  faultSummary : List Nat
  /-- LOG_ERROR | 1 bit | 27 R441 | 0 -/
  logError : Bool
  /-- ALIGN_LOST | 1 bit | 27 R441 | 0 -/
  alignLost : Bool
  /-- latched high half of an 8-byte register: its offset and value | 32 bits | 27 R440 | none -/
  latch : Option (Nat × Nat)
  /-- CTX0_ROOT | 49 bits, [11:0] zero | 27 R443 | 0 -/
  ctx0Root : Nat
  /-- SQ_BASE of queue 0 | 48 bits, [11:0] zero | 27 R443 | 0 -/
  sqBase : Nat
  /-- CQ_BASE of queue 0 | 48 bits, [11:0] zero | 27 R443 | 0 -/
  cqBase : Nat
  /-- VEC_EN of queue 0 | 1 bit | 27 R443 | 0 -/
  vecEn : Bool
  /-- VECTOR of queue 0 | 11 bits | 27 R443 | 0 -/
  vector : Nat
  /-- CQ_LOG2 of queue 0 | 5 bits | 27 R443 | 0 -/
  cqLog2 : Nat
  /-- SQ_LOG2 of queue 0 | 5 bits | 27 R443 | 0 -/
  sqLog2 : Nat
  /-- ENABLE | 1 bit | 27 R443 | 0 -/
  enable : Bool
  /-- REASON | 8 bits | 27 R443 | 0 -/
  reason : Nat
  /-- ADMQ_STATE: 0 DISABLED, 1 ENABLED, 2 REFUSED | 2 bits | 27 R443 | 0 -/
  admqState : Nat
  /-- MSI-X table bytes that differ from a masked entry of zeros, by offset | 2,048 × 16 bytes | 27 R439, R442 | 0, vector control masked as PCIe has it: PRESUMED (assumption 13) -/
  msixTable : List (Nat × Byte)
  /-- MSI-X pending bits set | 2,048 bits | 27 R439 | none -/
  msixPending : List Nat
  /-- MSI-X messages sent, newest first | vectors | 27 R442 | none -/
  msiSent : List Nat
  /-- answer to the last host request | see HostAnswer | 13 R232 | none: `written` -/
  answer : HostAnswer
  /-- uncorrectable error status of Advanced Error Reporting | 32 bits | 13 R227 | 0, PRESUMED (assumption 165) -/
  aer : Nat
  /-- configuration-space bytes that the host has written, by offset | 4,096 bytes | 13 R227, R232 | none -/
  config : List (Nat × Byte)
  /-- requests for a line that wait for room in the back-invalidation directory, oldest first | list | 13 R230 | none -/
  waiting : List HostRequest
deriving DecidableEq, Repr

/-! ### Plates and routers (01, 03, 04, 09) -/

/-- A finished tile (R60): the command and stage that formed it, its number in the grid, and its codes row by row. -/
structure Tile where
  queue : Nat
  seq : Nat
  stage : Nat
  index : Nat
  codes : List Nat
  /-- saturations of its INT32 accumulations (R33) -/
  sats : Nat
deriving DecidableEq, Repr

/-- A slot of the proof tray: its tile, whether a Stipple unit has taken it, and whether its last read is done (R70). -/
structure TraySlot where
  tile : Tile
  taken : Bool
  spent : Bool
deriving DecidableEq, Repr

/-- A work item of a Burin array (R49, R63): one column block of a product against one chunk of streamed rows, with the passes whose banks
it needs, ascending. -/
structure ArrayItem where
  queue : Nat
  seq : Nat
  stage : Nat
  chunk : Nat
  block : Nat
  /-- passes that are not dropped (R58) -/
  passes : List Nat
deriving DecidableEq, Repr

/-- A loaded weight bank (R47): the pass and the column block of a product, and the elements that its cells hold, depth by depth and then
column by column; none where 2:4 stores none. -/
structure WeightBank where
  queue : Nat
  seq : Nat
  stage : Nat
  block : Nat
  pass : Nat
  cells : List (List (Option FV))
deriving DecidableEq, Repr

/-- A Burin array (R47, R49, R60). -/
structure BurinArray where
  /-- the work item whose rows it forms -/
  item : Option ArrayItem
  /-- the array's next item, once its first bank has loaded -/
  next : Option ArrayItem
  /-- weight banks that hold a block, oldest first | two | 03 R47 | empty -/
  banks : List WeightBank
  /-- banks of the item loaded so far -/
  loaded : Nat
  /-- accumulator store: the item's partial sums row by row, each with its saturations so far | 256 × 128 × 32 bits | 03 R49 | empty -/
  acc : List (Nat × Nat)
  /-- passes of the product that the store holds -/
  summed : Nat
  /-- tiles of the item delivered -/
  delivered : Nat
  /-- it holds its finished rows for want of a tray slot (R60) -/
  stalled : Bool
deriving DecidableEq, Repr

/-- An idle array whose banks are empty. -/
def BurinArray.idle : BurinArray :=
  { item := none, next := none, banks := [], loaded := 0, acc := [], summed := 0, delivered := 0, stalled := false }

/-- What one entry left in a tile register (R65): the width of its elements and the tile's codes, row by row; the register keeps under it
what it held where the entry wrote nothing. -/
structure RegLayer where
  width : Nat
  h : Nat
  w : Nat
  codes : List Nat
deriving DecidableEq, Repr

/-- A Stipple unit (R64, R65, R70). -/
structure StippleUnit where
  /-- the tile that it works on -/
  tile : Option Tile
  /-- tile registers TR0 to TR15 that hold anything, newest layer first | 16 × 128 × 128 × 32 bits | 04 R64, R65 | empty -/
  regs : List (Nat × List RegLayer)
deriving DecidableEq, Repr

/-- A unit without a tile, its registers empty. -/
def StippleUnit.empty : StippleUnit := { tile := none, regs := [] }

/-- A dispatch unit in progress (R143): its command, its estimate in ACLK, the progress that it began at and that it ends at, and the instant
of its issue in ns after the boundary of its stroke. -/
structure DispatchUnit where
  queue : Nat
  seq : Nat
  estimate : Nat
  start : Nat
  goal : Nat
  issued : Nat
deriving DecidableEq, Repr

/-- A plate (R10, R12, R60, R64, R141). -/
structure Plate where
  /-- context that holds it in this stroke | 12 bits | 01 R10, 09 R141 | none -/
  ctx : Option Nat
  /-- context served last | 12 bits | 09 R141 | 4,095, so that the first choice starts at context 0: DESIGN CHOICE (assumption 12) -/
  last : Nat
  /-- proof tray, oldest first | 24 slots of 64 KiB | 03 R60 | empty -/
  tray : List TraySlot
  /-- Burin arrays | 12 | 03 R47, R60 | idle, banks empty -/
  arrays : List BurinArray
  /-- Stipple units | 2 units of 16 × 64 KiB of tile registers | 04 R64, R70 | empty -/
  stipples : List StippleUnit
  /-- dispatch units in progress, in issue order | see DispatchUnit | 09 R143 | none -/
  units : List DispatchUnit
  /-- commands that have had a unit on the plate and have not ended, by their first issue: queue and SEQ | list | 04 R72 | none -/
  begun : List (Nat × Nat)
  /-- drained for this stroke's handover | flag | 01 R12, 09 R140 | true -/
  drained : Bool
  /-- it drained in this stroke's grace, so that its first units issue late | flag | 09 R145 | false -/
  late : Bool
  /-- a unit of this stroke has not fitted, and waits with those behind it for a later stroke | flag | 09 R143 | false -/
  closed : Bool
  /-- this stroke's handover is still to come | flag | 09 R140, R145 | false -/
  due : Bool
  /-- reset as hung, given out again at the next boundary | flag | 09 R148 | false -/
  hung : Bool
  /-- telemetry set 1: busy ACLK, tray-stall ACLK, corrected, uncorrectable | 64, 64, 32, 32 bits | 23 R400, 03 R60 | 0 -/
  counts : List Nat
deriving DecidableEq, Repr

/-- A Stencil router (R14, R103, R104). -/
structure Router where
  /-- context that holds it in this stroke | 12 bits | 06 R103 | none -/
  ctx : Option Nat
  /-- context served last | 12 bits | 06 R103 | 4,095: DESIGN CHOICE (assumption 12) -/
  last : Nat
  /-- dispatch units in progress, in issue order | see DispatchUnit | 09 R143, 04 R72 | none -/
  units : List DispatchUnit
  /-- drained for this stroke's handover | flag | 09 R140 | true -/
  drained : Bool
  /-- it drained in this stroke's grace, so that its first units issue late | flag | 09 R145 | false -/
  late : Bool
  /-- a unit of this stroke has not fitted, and waits with those behind it for a later stroke | flag | 09 R143 | false -/
  closed : Bool
  /-- this stroke's handover is still to come | flag | 09 R140, R145 | false -/
  due : Bool
  /-- reset as hung | flag | 09 R148 | false -/
  hung : Bool
deriving DecidableEq, Repr

/-- The outcome of a predicate of a group (R79): queue, group, SEQ of its command, whether it held. -/
structure PredResult where
  queue : Nat
  group : Nat
  seq : Nat
  held : Bool
deriving DecidableEq, Repr

/-! ### Proof core (23_proof_core_and_trouble_log.md) -/

/-- The Proof core's admission state (R392 to R395, R391, R400). -/
structure ProofCore where
  /-- refusals of each class since it last admitted a request: KEY, SURVIVAL, VERIFY, SIGN, MAINTENANCE | 5 counts | 23 R393 | 0 -/
  refusals : List Nat
  /-- BUSY_RETRY refusals, telemetry set 4 | 64 bits | 23 R400 | 0 -/
  refused : Nat
  /-- OVERLOAD | 1 bit | 23 R395, 27 R441 | 0 -/
  overload : Bool
  /-- service restarts, telemetry set 4 | 64 bits | 23 R400 | 0 -/
  restarts : Nat
deriving DecidableEq, Repr

/-! ### Fabric (15_fabric_ports_topology.md) -/

/-- A fabric port: its settings of R253, its link and its counters (R252 to R255). -/
structure Port where
  /-- MODE: 0 disabled, 1 to 3 for 200, 400, 800 Gb/s | 2 bits | 15 R252, R253 | 0 -/
  mode : Nat
  /-- MAX_FRAME | 16 bits | 15 R253 | 0 -/
  maxFrame : Nat
  /-- MAC, most significant byte first | 48 bits | 15 R253 | 0 -/
  mac : Nat
  /-- VLAN | 12 bits | 15 R253 | 0 -/
  vlan : Nat
  /-- IPV4, most significant byte first | 32 bits | 15 R253 | 0 -/
  ipv4 : Nat
  /-- IPV6, most significant byte first | 128 bits | 15 R253 | 0 -/
  ipv6 : Nat
  /-- GATEWAY_MAC | 48 bits | 15 R253 | 0 -/
  gateway : Nat
  /-- a field of its settings was refused | 1 bit | 15 R253, 27 R441 | false -/
  refused : Bool
  /-- link up | 1 bit | 15 R255, 27 R441 | false -/
  up : Bool
  /-- the second in which echo requests were answered last, and how many | count | 15 R254 | 0, 0 -/
  echoes : Nat × Nat
  /-- slot of the active bank's schedule that opened last in this stroke | 0 to 63 | 09 R151 | none -/
  slot : Option Nat
  /-- transit packets that wait in the port lane for their class: class and frame | list | 15 R258, 09 R151 | none -/
  waiting : List (Nat × List Byte)
  /-- telemetry set 3: frames out, frames in, dropped, link-down events, Stylus retransmissions, miss-buffer drops, authentication failures, bytes out | 64, 64, 32, 32, 64, 32, 32, 64 bits | 23 R400 | 0 -/
  counts : List Nat
deriving DecidableEq, Repr

/-- A loaded route-map bank: its map and its slot schedule (R261, R150). -/
structure Bank where
  map : List Byte
  schedule : List Byte
deriving DecidableEq, Repr

/-- A frame that the part has sent, without its FCS. -/
structure TxFrame where
  port : Nat
  bytes : List Byte
deriving DecidableEq, Repr

/-- The fabric side of the part. -/
structure Fabric where
  /-- UDP_PORT | 16 bits | 15 R253 | 46,520 -/
  udpPort : Nat
  /-- DSCP of COLLECTIVE, PIPELINE, BEST_EFFORT | 3 × 6 bits | 15 R253 | 34, 26, 0 -/
  dscp : List Nat
  /-- ports | 8 | 15 R252 | see Port -/
  ports : List (Nat × Port)
  /-- loaded banks | 4 | 15 R261 | none -/
  banks : List (Nat × Bank)
  /-- active bank | 0 to 3 | 15 R261 | none -/
  active : Option Nat
  /-- pending switch: bank and stroke | 15 R266 | none -/
  switch : Option (Nat × Nat)
  /-- Stylus node number, 0xFFFF for none | 16 bits | 15 R265, 22 R375 | 0xFFFF -/
  node : Nat
  /-- unsolicited announcements still to send | 0 to 3 | 15 R269 | 0 -/
  announce : Nat
  /-- frames sent, newest first | list | 15 R270 | none -/
  tx : List TxFrame
deriving DecidableEq, Repr

/-! ### Stylus (16_stylus_transport.md) -/

/-- Queue-pair states (R274). -/
inductive QpState where
  | reset | keyed | connected | error
deriving DecidableEq, Repr

/-- A packet that the sender keeps until it is acknowledged (R281). -/
structure TxPacket where
  /-- PSN as a count from START_PSN -/
  psn : Nat
  msn : Nat
  /-- Stylus header, payload and tag: a retransmission repeats them bit for bit -/
  body : List Byte
  sentAt : Nat
  times : Nat
  port : Nat
  /-- place among the queue pair's sendings -/
  order : Nat
  resend : Bool
  acked : Bool
deriving DecidableEq, Repr

/-- A request that Stylus has accepted (R276): of a command, or of an engine that holds the queue pair. -/
structure SendReq where
  cmd : Option (Nat × Nat)
  ink : Bool
  tag : Nat
  len : Nat
  /-- READ descriptor that is the source, or none for `data` -/
  source : Option Nat
  data : List Byte
  msn : Nat
  first : Nat
  packets : Nat
  payload : Nat
  formed : Nat
  retrans : Nat
  status : Option Ending
  /-- stroke of its first packet -/
  started : Option Nat
  rnr : Bool
deriving DecidableEq, Repr

/-- An armed request (R287). -/
structure Armed where
  queue : Nat
  seq : Nat
  /-- TRIGGER: 1 TAG_ARRIVAL, 2 INK_COUNT -/
  kind : Nat
  arg : Nat
  count : Nat
  since : Nat
  fired : Bool
deriving DecidableEq, Repr

/-- A message that the receiver has matched (R277). -/
structure RxMsg where
  msn : Nat
  /-- the POST_RECV; none on a held queue pair -/
  cmd : Option (Nat × Nat)
  tag : Nat
  len : Nat
  got : Nat
  /-- why it receives nothing: its buffer is too short, or its page cannot be used | 8 bits | 16 R277, 12 R217 | none -/
  refused : Option Status
  /-- payloads by offset, on a held queue pair -/
  parts : List (Nat × List Byte)
  /-- the packet that completed it on a held queue pair: acknowledged once the message is taken -/
  last : Option Nat
deriving DecidableEq, Repr

/-- The keys of an encrypted queue pair (R288, R289). -/
structure QpKey where
  number : Nat
  send : List Byte
  recv : List Byte
deriving DecidableEq, Repr

/-- A queue pair (R274 to R290). -/
structure Qp where
  /-- context | 12 bits | 16 R274 | — -/
  owner : Nat
  /-- CLASS | 2 bits | 16 R284 | QP_CREATE -/
  cls : Nat
  encrypt : Bool
  spray : Bool
  /-- WINDOW in packets | 64 to 16,384 | 16 R280 | QP_CREATE -/
  window : Nat
  state : QpState
  peerNode : Nat
  peerQp : Nat
  startPsn : Nat
  key : Option QpKey
  /-- INITIATE has run: the draw of the decapsulation key and M1 without its signature | 16 R289 | none -/
  initiated : Option (Nat × List Byte)
  /-- posted receives, oldest first: queue and SEQ | at most WINDOW | 16 R277 | none -/
  recvs : List (Nat × Nat)
  /-- armed requests in post order | list | 16 R287 | none -/
  armed : List Armed
  /-- accepted requests not completed, in MSN order | list | 16 R276 | none -/
  sends : List SendReq
  nextMsn : Nat
  /-- PSNs given so far | 64 bits, the extended sequence | 16 R276, R288 | 0 -/
  nextPsn : Nat
  /-- packets formed and not acknowledged | list | 16 R281 | none -/
  unacked : List TxPacket
  /-- oldest unacknowledged PSN as a count | 64 bits | 16 R281 | 0 -/
  oldest : Nat
  /-- sendings so far | count | 16 R281 | 0 -/
  sendings : Nat
  /-- SRTT and RTTVAR in ns, once sampled | 16 R281 | none -/
  rtt : Option (Nat × Nat)
  /-- RTO in ns | 4,000 to 64,000 | 16 R281 | 16,000 -/
  rto : Nat
  /-- consecutive expiries on the oldest PSN | 0 to 16 | 16 R281 | 0 -/
  expiries : Nat
  /-- retransmissions | count | 16 R274, 11 R182 | 0 -/
  retrans : Nat
  /-- CUM_PSN as a count | 64 bits | 16 R280 | 0 -/
  cum : Nat
  /-- PSNs at or beyond CUM_PSN marked received, as counts | list | 16 R280 | none -/
  received : List Nat
  /-- messages matched and not completed, by MSN | list | 16 R277 | none -/
  messages : List RxMsg
  /-- MSN of the next message to match, and to complete | 32 bits each | 16 R277, R278 | 0, 0 -/
  nextMatch : Nat
  nextDone : Nat
  /-- INK packets received and not applied: PSN count, MSN and signal | list | 16 R279 | none -/
  inks : List (Nat × Nat × Nat)
  /-- new packets since the last ACK | 0 to 8 | 16 R280 | 0 -/
  sinceAck : Nat
  /-- PSN count that the next ACK echoes | 16 R273 | 0 -/
  echo : Nat
  /-- ACK_SEQ of the next ACK | 64 bits | 16 R273 | 0 -/
  ackSeq : Nat
  /-- ACKs to send: ACK_FLAGS, STATUS_PSN, STATUS | list | 16 R280 | none -/
  acks : List (Nat × Nat × Nat)
  /-- cause of ERROR: its status code and the PSN count it names | 16 R275 | none -/
  cause : Option (Nat × Nat)
  /-- authentication failures in a row | 0 to 64 | 16 R288 | 0 -/
  authFails : Nat
deriving DecidableEq, Repr

/-- The Stylus engine's shared state (R285, R286). -/
structure Stylus where
  /-- queue pairs that exist | 65,536 | 16 R274 | none -/
  qps : List (Nat × Qp)
  /-- queue pairs whose state is on chip, most recently used first | 2,048 | 16 R285 | none -/
  chip : List Nat
  /-- miss buffer, oldest first: queue pair, port, arrival time in ns, packet | 1 MiB | 16 R286 | empty -/
  miss : List (Nat × Nat × Nat × List Byte)
  /-- key numbers given so far | count | 16 R289 | 0 -/
  keySerial : Nat
deriving DecidableEq, Repr
/-! ### Ledger, keeps and manifests (18_model_distribution.md, 19_failure_survival_and_replay.md) -/

/-- A step that is being replayed (R336): its number and the bytes of the named entry. -/
structure Replay where
  step : Nat
  entry : List Byte
deriving DecidableEq, Repr

/-- A keeper's progress with one save (R330). -/
structure KeepRx where
  qp : Nat
  layer : Nat
  tensor : Nat
  step : Nat
  index : Nat
  /-- the half it writes: 0 A, 1 B -/
  half : Nat
  length : Nat
  leaves : List (Nat × List Byte)
deriving DecidableEq, Repr

/-- What the part remembers of a step whose entry is open (R325, R333, R334). -/
structure StepWork where
  step : Nat
  /-- ns at the step's first admission, from which its wall time counts -/
  since : Nat
  /-- route maps active in switch order -/
  maps : List (List Byte)
  /-- ring entries of the Itusk groups used, by group -/
  rings : List (Nat × List Byte)
  /-- registered tensors that its commands write: layer and tensor -/
  wrote : List (Nat × Nat)
deriving DecidableEq, Repr

/-- A context's ledger area as LEDGER_SET took it (R324, R329). -/
structure Ledger where
  base : Nat
  handle : Nat
  tensorMax : Nat
  entryCount : Nat
  layers : Nat
  bucketsMax : Nat
  smallMib : Nat
  fastMib : Nat
  fastSteps : Nat
  mirrorBudget : Nat
  snapMin : Nat
  snapMax : Nat
  priorMtbf : Nat
  costOverride : Nat
  /-- keep area: base and bytes -/
  keep : Option (Nat × Nat)
  keepQps : List Nat
  /-- newest snapshot round: its step, ns of its first admission and of its last completion | 19 R333 | none -/
  round : Option (Nat × Nat × Nat)
  /-- a new failure event or a finished round since the interval was computed | flag | 19 R333 | false -/
  stale : Bool
  /-- wall times of the last 16 verified steps in ns, newest first | list | 19 R333 | none -/
  walls : List Nat
  /-- steps whose ring entries are open | 40 bits each, at most 2 | 19 R334 | none -/
  opened : List Nat
  /-- what the part remembers of the open steps | list | 19 R325, R333, R334 | none -/
  work : List StepWork
  /-- step of a SNAPSHOT tensor restored since the last numbered command was admitted | 40 bits | 19 R334 | none -/
  resumed : Option Nat
  replay : Option Replay
  keeping : List KeepRx
deriving DecidableEq, Repr

/-- What the part remembers of a step's reductions (R299, R305). -/
structure XhStep where
  step : Nat
  /-- aborted attempts -/
  attempts : Nat
  /-- groups and buckets verified in the present attempt -/
  verified : List (Nat × Nat)
  /-- the present attempt has aborted and its buckets may be admitted again -/
  aborted : Bool
  /-- groups and buckets whose command a new placement epoch ended (R342) -/
  stale : List (Nat × Nat)
deriving DecidableEq, Repr

/-- A layer's gradient policy and its running state (R124, R125). -/
structure LayerPolicy where
  pinned : Bool
  format : Nat
  floor : Nat
  ceiling : Nat
  uHi : Nat
  uLo : Nat
  spike : Nat
  /-- layer's current format, as a rank: 0 E3M2, 1 E5M2, 2 BF16, 3 FP32 -/
  g : Nat
  hold : Nat
  clean : Nat
  /-- finite values of a, newest first, as FP32 codes | at most 16 -/
  history : List Nat
  /-- the last step that was decided (R126) -/
  decided : Option Nat
deriving DecidableEq, Repr

/-- A layer's statistics of a step until the chooser reads them (R125). -/
structure LayerStat where
  step : Nat
  layer : Nat
  /-- a as an FP32 code -/
  amax : Nat
  under : Nat
  elements : Nat
  /-- escaped blocks -/
  escaped : Nat
  /-- a WIRE_TO_STORE summary has come -/
  summary : Bool
deriving DecidableEq, Repr

/-! ### Crosshatch groups (17_crosshatch_gradient_reduction.md) -/

/-- A defined group (R298, R196). -/
structure XhGroup where
  mode : Nat
  topology : Nat
  ring : Nat
  contributors : Nat
  margin : Nat
  deadline : Nat
  /-- handle and base address of the staging area -/
  handle : Nat
  staging : Nat
  stagingBytes : Nat
  prev : Option Nat
  next : Option Nat
  children : List Nat
  ituskPlate : Nat
deriving DecidableEq, Repr

/-- A Crosshatch bucket that is queued or running on this part (R300 to R303). -/
structure Bucket where
  context : Nat
  step : Nat
  group : Nat
  bucket : Nat
  layer : Nat
  /-- aborted attempts of the step before this one (R299: its low 3 bits travel in the tag) -/
  attempt : Nat
  queue : Nat
  seq : Nat
  /-- stroke at which XH_REDUCE was admitted -/
  admitted : Nat
  /-- the group's ring entry and the bank it came from, resolved at admission (R266) -/
  members : List Nat
  fanout : Nat
  bank : Nat
  xp : Nat
  started : Bool
  /-- largest biased exponent of the own contribution (R301) -/
  amax : Nat
  pass2 : Bool
  /-- blocks of the pass's body in order, in pass 2 the escaped ones (R297) -/
  body : List Nat
  /-- segments taken in this pass: phase, chunk, segment, queue pair -/
  taken : List (Nat × Nat × Nat × Nat)
  /-- children's segments that wait for their siblings, in a tree: segment, queue pair, blocks (R300) -/
  up : List (Nat × Nat × List Byte)
  /-- blocks of RESULT written in this pass -/
  written : Nat
  /-- source blocks saved before an escaped final block was written over them (R297) -/
  saves : List (Nat × List Byte)
  /-- escaped blocks of pass 1 -/
  escaped : List Nat
  /-- this part's checks are done and the bucket has joined the verdict (R301) -/
  joined : Bool
  /-- COLLECT records taken: queue pair and record -/
  collects : List (Nat × List Byte)
  /-- the combined record has been sent on, or judged -/
  collected : Bool
  /-- tiles of the Itusk mode holding NaN or infinity -/
  special : Nat
deriving DecidableEq, Repr


/-! ### Contexts (12_memory_translation_isolation.md) -/

/-- A defined context: its context-table entry (R212) and what the part holds for it. -/
structure Ctx where
  /-- ADMIN attribute | 1 bit | 12 R212 | context 0: true -/
  admin : Bool
  /-- DEBUG attribute | 1 bit | 12 R212, 10 R157 | context 0: false -/
  debug : Bool
  /-- PLATE_MASK | 16 bits | 12 R212, 10 R157 | context 0: every present plate -/
  plateMask : Nat
  /-- LAYERS | 13 bits | 12 R212, 10 R157 | context 0: 4,096 -/
  layers : Nat
  /-- ROOT | 49-bit physical address | 12 R212, 27 R444 | context 0: 0 -/
  root : Nat
  /-- SEED | 64 bits | 12 R212, 02 R39 | context 0: 0 -/
  seed : Nat
  /-- BUDGET, 0 for the dispatch window | 32 bits | 12 R212 | context 0: 0 -/
  budget : Nat
  /-- FAULT_LIMIT in strokes | 25 bits | 12 R212 | context 0: 5,000 -/
  faultLimit : Nat
  /-- SLOT: residence slot, none for 0xFF | 0 to 63 | 12 R212, R214 | context 0: 0 -/
  slot : Option Nat
  /-- LAST_ACTIVE | 48-bit stroke | 12 R212, R214 | 0 -/
  lastActive : Nat
  /-- live allocations, by base | at most 16,384 | 12 R206, R212 | none -/
  allocs : List Alloc
  /-- BASE_WINDOW0 to 3 | 4 × 16 bytes | 12 R213 | all invalid -/
  windows : List Window
  /-- step in progress | 40 bits | 00 R4 | 0 -/
  step : Nat
  /-- a command that carries the step in progress has been admitted | flag | 07 R124 | false -/
  stepSeen : Bool
  /-- the step in progress has been overridden by INK_OVERRIDE | flag | 14 R251, 19 R334 | false -/
  overridden : Bool
  /-- dW bindings: step, base, bytes, layer, tensor | list | 07 R122 | none -/
  dwBound : List (Nat × Nat × Nat × Nat × Nat)
  /-- fault ring | 4 KiB | 12 R219 | empty -/
  ring : FaultRing
  /-- live descriptors by handle | at most 65,536 | 05 R81 | none -/
  descs : List (Nat × Desc)
  /-- Crosshatch groups | 64 | 17 R298 | none -/
  groups : List (Nat × XhGroup)
  /-- ledger area | see Ledger | 19 R324 | none -/
  ledger : Option Ledger
  /-- gradient policies by layer; an unlisted layer has R124's default entry | 16 bytes each | 07 R124 | none listed -/
  policy : List (Nat × LayerPolicy)
  /-- layer statistics that wait for the chooser | list | 07 R125 | none -/
  stats : List LayerStat
  /-- reductions of recent steps | list | 17 R299, R305 | none -/
  xhSteps : List XhStep
  /-- arrival table: latched tags, oldest first | 64 | 16 R287 | empty -/
  arrivals : List Nat
  /-- arrivals not latched for want of room | count | 16 R287 | 0 -/
  arrivalsLost : Nat
  /-- telemetry set 5 counts: completed, plate strokes, overruns, faults, retransmissions, BUSY_RETRY | 64, 64, 32, 32, 64, 64 bits | 23 R400 | 0 -/
  counts : List Nat
  /-- first boundary at which it waited for residence | 48-bit stroke | 12 R214, R216 | none -/
  waitingSince : Option Nat
  /-- its RESIDENCE_WAIT entry is written for this wait | flag | 12 R216 | false -/
  waitLogged : Bool
deriving DecidableEq, Repr
/-! ### Boot, identity, flash and the configuration store (22_boot_identity_store.md) -/

/-- A flash write in progress (R370): the command it belongs to, none for the mailbox. -/
structure FlashOp where
  cmd : Option (Nat × Nat)
deriving DecidableEq, Repr

/-- A recovery in progress (R451): the image's length, and the bytes received so far by offset. -/
structure Recovery where
  length : Nat
  received : List (Nat × Byte)
deriving DecidableEq, Repr

/-- Boot, identity, the store and the firmware that runs. -/
structure Boot where
  /-- BOOT_STAGE: last stage completed | 0 to 9 | 22 R384, 27 R441 | 0 -/
  stage : Nat
  /-- boot is under way | flag | 22 R384 | false: PORST_N has just risen and the first boot row starts it -/
  running : Bool
  /-- recovery: only the ROM runs | flag | 22 R386, 27 R441 | false -/
  recovery : Bool
  /-- stage 5 failed | flag | 22 R384, 27 R441 | false -/
  halted : Bool
  /-- factory test: TEST_EN was high at PORST_N | flag | 26 R433 | false -/
  factory : Bool
  /-- causes of the management-only state | 1 HBM, 2 FENCED, 3 IDENTITY | 22 R385, 27 R441 | none -/
  causes : List Nat
  /-- FAILED_STACK | 4 bits | 01 R18, 27 R441 | none: 0xF -/
  failedStack : Option Nat
  /-- identity seed | 256 bits | 22 R371 | none -/
  seed : Option (List Byte)
  /-- SERIAL | 64 bits | 22 R371, 27 R441 | 0 until the record is read, DESIGN CHOICE (assumption 24) -/
  serial : Nat
  /-- ENDORSE_KEY | 1 bit | 22 R371 | 0 until the record is read -/
  endorseKey : Nat
  /-- ENDORSEMENT of the manufacturing record | 7,856 bytes | 22 R371 | empty -/
  endorsement : List Byte
  /-- ENDORSEMENT verified | flag | 22 R373, R387 | false -/
  endorsed : Bool
  /-- boot flash, bytes that are not 0xFF by offset | at least 64 MiB | 22 R369 | all 0xFF, DESIGN CHOICE (assumption 24) -/
  flash : List (Nat × Byte)
  /-- the flash answered the probe | flag | 22 R384 | false -/
  flashOk : Bool
  /-- selected bank | 0 or 1 | 22 R376 | none -/
  bank : Option Nat
  /-- SEQ of the selected bank | 32 bits | 22 R376 | 0 -/
  storeSeq : Nat
  /-- the Proof core's copy of the selected bank: values by key | list | 22 R370, R375 | empty: every default -/
  store : List (Nat × List Byte)
  /-- values in force of the keys that take effect at a reset | list | 22 R375 | empty: every default -/
  inForce : List (Nat × List Byte)
  /-- running firmware slot | 0 or 1 | 22 R382 | none -/
  slot : Option Nat
  /-- SVN of the running image | 32 bits | 22 R379 | 0 -/
  svn : Nat
  /-- FW_VERSION of the running image | 64 bits | 22 R379 | 0 -/
  version : Nat
  /-- KEY_INDEX of the running image | 2 bits | 22 R379 | 0 -/
  keyIndex : Nat
  /-- RAISE_FLOOR of the running image | flag | 22 R379 | false -/
  raiseFloor : Bool
  /-- SLOT_DIGEST | 32 bytes | 22 R382, R387 | empty -/
  slotDigest : List Byte
  /-- DRBG seedings and draws since | counts | 22 R373 | 0, 0 -/
  drbg : Nat × Nat
  /-- the boot count is written and AUTH frames may be sent | flag | 22 R378 | false -/
  counted : Bool
  /-- flash write in progress | see FlashOp | 22 R370 | none -/
  flashOp : Option FlashOp
  /-- recovery transfer | see Recovery | 27 R451 | none -/
  recv : Option Recovery
  /-- a warm reset is due 10 ms after a debug WARM_RESET or a recovery commit | flag | 20 R355, 27 R451 | false -/
  warmDue : Bool
  /-- HBM4 and DDR5 are to be trained again | flag | 24 R405, R411 | true -/
  retrain : Bool
deriving DecidableEq, Repr

/-! ### Service bus (20_service_bus.md) -/

/-- The medium access of a service-bus port (R345, R347). -/
inductive SbPhase where
  /-- disabled or stopped -/
  | off
  /-- CSMA/CD, running discovery -/
  | discovery
  /-- CSMA/CD, waiting for the first beacon -/
  | wait
  | plca
  /-- CSMA/CD without discovery -/
  | csma
deriving DecidableEq, Repr

/-- A service-bus port (R343 to R347). -/
structure SbPort where
  /-- a field of its settings was refused | flag | 20 R344 | false -/
  refused : Bool
  /-- MODE: 0 DISABLED, 1 AUTO, 2 CSMA_ONLY | 2 bits | 20 R344 | 1 -/
  mode : Nat
  /-- PLCA_ID or 0xFF | 8 bits | 20 R344 | 0xFF -/
  wanted : Nat
  /-- NODE_COUNT or 0 | 5 bits | 20 R344 | 0 -/
  nodeCount : Nat
  /-- MAX_BC | 3 bits | 20 R344 | 0 -/
  maxBc : Nat
  /-- TO_TIMER | 8 bits | 20 R344 | 32 -/
  toTimer : Nat
  /-- BURST_TIMER | 8 bits | 20 R344 | 128 -/
  burst : Nat
  /-- RESERVED_IDS | 16 bits | 20 R344 | 0 -/
  reserved : Nat
  /-- MAC | 48 bits | 20 R344 | 0 until the serial number is read -/
  mac : Nat
  /-- DELIVER_ERRORS | 1 bit | 20 R344 | false -/
  deliver : Bool
  phase : SbPhase
  /-- DISCOVERs heard: serial number and wanted ID | list | 20 R345 | none -/
  heard : List (Nat × Nat)
  /-- PLCA ID taken | 0 to 15 | 20 R345 | none -/
  id : Option Nat
  /-- NODE_COUNT in effect | 5 bits | 20 R345 | 0 -/
  count : Nat
  /-- it beacons | flag | 20 R345 | false -/
  beacon : Bool
  /-- it got no ID and sends nothing | flag | 20 R345 | false -/
  mute : Bool
  /-- frames queued to be sent, oldest first, without FCS | list | 20 R347 | none -/
  queue : List (List Byte)
  /-- collisions of the frame at the head | 0 to 16 | 20 R347 | 0 -/
  attempts : Nat
  /-- back-off in slots drawn for it | 0 to 1,023 | 20 R347 | 0 -/
  backoff : Nat
  /-- frames sent, newest first, with FCS | list | 20 R348 | none -/
  sent : List (List Byte)
  /-- counts: erroneous frames, authentication errors, wake matches without effect, frames dropped after 16 attempts | 20 R347, R352, R358, R359 | 0 -/
  counts : List Nat
deriving DecidableEq, Repr

/-- A failure event (R353). -/
structure FailEvent where
  node : Nat
  stroke : Nat
  cause : Nat
deriving DecidableEq, Repr

/-- The service bus. -/
structure Bus where
  /-- SB_KEY, none when all zero | 32 bytes | 20 R344 | none -/
  key : Option (List Byte)
  /-- FLAGS: LOG_EXPORT, RELAY, REMOTE_DEBUG | 3 bits | 20 R344 | 0 -/
  flags : Nat
  /-- HOPS | 3 bits | 20 R344 | 7 -/
  hops : Nat
  /-- EXPORT_SERIAL | 64 bits | 20 R344 | 0 -/
  exportTo : Nat
  /-- ports A and B | 2 | 20 R343 | see SbPort -/
  ports : List (Nat × SbPort)
  /-- relay cache: serial, type, FRAME_SEQ, newest first | 256 | 20 R350 | none -/
  relayed : List (Nat × Nat × Nat)
  /-- newest FRAME_SEQ by serial, newest first | 128 | 20 R352 | none -/
  seqs : List (Nat × Nat)
  /-- counter of the next FRAME_SEQ | 20 bits | 20 R348, R352 | 0 -/
  counter : Nat
  /-- kept exposures in seconds by serial, newest first | 256 | 20 R354 | none -/
  exposures : List (Nat × Nat)
  /-- kept failure events, newest first | 1,024 | 20 R354 | none -/
  events : List FailEvent
  /-- the part's own events, newest first | 8 | 20 R353 | none -/
  own : List FailEvent
  /-- TAKEOVER sendings still to come, and its body | 0 to 2 | 20 R349 | 0, empty -/
  takeover : Nat × List Byte
  /-- SEQ of the next trouble-log entry to send to the collector | 32 bits | 20 R356 | 1 -/
  cursor : Nat
deriving DecidableEq, Repr

/-! ### Power, sensors and clocks (24_power_clocks_reset.md, 25_limits_and_timeouts.md) -/

/-- A temperature sensor's filter (R420). -/
structure Sensor where
  /-- last three plausible readings, newest first, in 1/16 °C | signed | 25 R420 | none -/
  vals : List Int
  /-- implausible readings in a row, and plausible ones | counts | 25 R420 | 0, 0 -/
  bad : Nat
  good : Nat
  failed : Bool
  /-- last reading, as the SENSOR entries carry it | signed 16 bits | 25 R419 | 0 -/
  raw : Int
deriving DecidableEq, Repr

/-- What a rail fault has come to (R405). -/
inductive RailPhase where
  | normal
  /-- both outputs low, rails falling -/
  | down
  /-- outputs released, rails rising -/
  | rising
  /-- given up: waits for PORST_N -/
  | dead
deriving DecidableEq, Repr

/-- Power management. -/
structure Power where
  /-- PROFILE: 0 FULL, 1 AIR, 2 QUIET | 2 bits | 24 R413, 27 R441 | 1 AIR, the default of BOOT_PROFILE -/
  profile : Nat
  /-- changes of profile by effective stroke | list | 24 R414 | none -/
  changes : List (Nat × Nat)
  /-- profile in force before QUIET | 2 bits | 24 R415 | 1 -/
  before : Nat
  /-- BOOT_PROFILE | 2 bits | 24 R415 | 1 -/
  bootProfile : Nat
  /-- WAKE_PROFILE | 8 bits | 24 R415 | 0xFF -/
  wakeProfile : Nat
  /-- PEAK_ALLOWED | 1 bit | 24 R415 | true -/
  peakAllowed : Bool
  /-- LIMIT_W | 16 bits | 24 R415 | 0 -/
  limitW : Nat
  /-- AVS_ADDR of T0 to T3 | 4 × 4 bits | 24 R415 | 0, 1, 2, 3 -/
  avsAddr : List Nat
  /-- package-power samples of this stroke in mW, newest first | list | 24 R416 | none -/
  samples : List Nat
  /-- samples above L in a row | count | 24 R417 | 0 -/
  above : Nat
  /-- a clamp of R417 holds until the next boundary | flag | 24 R417 | false -/
  clamp : Bool
  /-- boundaries in a row with P_mean below 0.95 L | 0 to 7 | 24 R416 | 0 -/
  low : Nat
  /-- control value of R416 | 4 to 64 | 24 R416 | 64 -/
  control : Nat
  /-- thermal cap of the stroke just ended | 4 to 64 | 25 R423 | 64 -/
  thermal : Nat
  /-- duty that the last boundary called for: a rise waits for the core voltage | 4 to 64 | 24 R407 | 64 -/
  sought : Nat
  /-- cap of R407 | 32 to 64 | 24 R407 | 64 -/
  avsCap : Nat
  /-- core-voltage targets of T0 to T3 in 0.1 mV | 5,500 to 8,000 | 24 R403, R407 | 7,000 -/
  avs : List Nat
  /-- failed regulators | tiles | 24 R407 | none -/
  avsFailed : List Nat
  /-- last level of VDD_SRAM_0V75 in mV | 25 R419 | 750: DESIGN CHOICE (assumption 25) -/
  sramMv : Nat
  /-- BRD_THROT_N is low after its filter | flag | 25 R422 | false -/
  board : Bool
  /-- the duty restarts from 16/64 at the first boundary after BRD_THROT_N went high | flag | 25 R422 | false -/
  boardOver : Bool
  /-- temperature sensors by number × 4 + diode | list | 25 R419, R420 | none read -/
  sensors : List (Nat × Sensor)
  /-- items above Tc in the present excursion | dies 0 to 4, stacks 5 to 16 | 25 R423 | none -/
  hot : List Nat
  /-- samples in a row above the trip temperature, by item | list | 25 R424 | none -/
  tripRun : List (Nat × Nat)
  /-- THERMTRIP_N is low and latched | flag | 25 R424 | false -/
  tripped : Bool
  rail : RailPhase
  /-- repeats of R405 since the fault | 0 to 3 | 24 R405 | 0 -/
  tries : Nat
  /-- PWR_REQ_CORE is released | pin | 24 R406 | true -/
  reqCore : Bool
  /-- PWR_REQ_IO is released | pin | 24 R406 | true -/
  reqIo : Bool
  /-- SMB_ALERT_N is low: an ERROR or FATAL entry that the sideband has not read, from this SEQ | pin | 26 R436 | none -/
  alert : Option Nat
  /-- every engine is stopped and every domain but the auxiliary one is held in reset | flag | 24 R405, R409, 25 R424 | false -/
  stopped : Bool
  /-- FABCLK_156M25 is missing | flag | 24 R409 | false -/
  fabLost : Bool
  /-- AUXCLK_25 is missing | flag | 24 R409 | false -/
  auxLost : Bool
  /-- a wake has released the outputs and boot waits for the rails | flag | 24 R406 | false -/
  waking : Bool
  /-- package power of the last sample in mW | 32 bits | 23 R400 | 0 -/
  powerMw : Nat
  /-- throttled strokes, overruns, watchdog resets of R148: telemetry set 0 | 3 × 64 bits | 23 R400 | 0 -/
  counts : List Nat
  /-- implausible readings, implausible currents, malformed SMBus packets | counts | 25 R418, R420, R421 | 0 -/
  discarded : List Nat
  /-- plates that had a dispatch unit in this stroke | plates | 24 R413 | none -/
  busy : List Nat
  /-- plates that are power-gated in this stroke | plates | 24 R413 | none -/
  gated : List Nat
deriving DecidableEq, Repr

/-- The SMBus sideband and the TAP (26_package_and_signals.md). -/
structure Sideband where
  /-- MCTP endpoint identifier | 8 bits | 26 R436 | 0: PRESUMED (assumption 26) -/
  eid : Nat
  /-- an SMBus transaction that carries an answer is under way | flag | 25 R418 | false -/
  busy : Bool
  /-- MCTP answer to be fetched: message type and body | bytes | 26 R436 | none -/
  answer : Option (Nat × List Byte)
  /-- TAP instruction in effect: 0 BYPASS, 1 IDCODE, 2 SAMPLE/PRELOAD, 3 EXTEST, 4 CLAMP, 5 HIGHZ | 26 R437 | 1: PRESUMED (assumption 27) -/
  tap : Nat
  /-- PORST_N is low | pin | 24 R404 | false -/
  porst : Bool
deriving DecidableEq, Repr

/-! ### Spares (19_failure_survival_and_replay.md) -/

/-- Spare states (R337). -/
inductive SpareState where
  | active | standby | awake | taken
deriving DecidableEq, Repr

/-- A fill in progress on a spare (R340, R341). -/
structure Fill where
  queue : Nat
  seq : Nat
  qp : Nat
  context : Nat
  /-- plan: BASE and BYTES of each tensor, once it has come -/
  plan : Option (List (Nat × Nat))
  /-- the present chunk has been asked for once more -/
  again : Bool
deriving DecidableEq, Repr

/-- A fill that the part serves (R340, R341). -/
structure Serve where
  qp : Nat
  /-- chunks sent -/
  sent : Nat
deriving DecidableEq, Repr

/-- The spare's state and its fills. -/
structure Spare where
  state : SpareState
  /-- STANDBY_NODE | 16 bits | 19 R337 | 0xFFFF -/
  node : Nat
  /-- PATTERN | 0 to 7 | 19 R337 | 0 -/
  pattern : Nat
  /-- PORT | 0 or 1 | 19 R337 | 0 -/
  port : Nat
  /-- SPARE_ARM takes effect at the next boundary | flag | 19 R337 | false -/
  arming : Bool
  /-- SPARE_PROMOTE that takes the identity at the next boundary: queue, SEQ, node | 19 R339 | none -/
  promoting : Option (Nat × Nat × Nat)
  /-- identity stroke | 48 bits | 19 R339 | none -/
  identity : Option Nat
  fill : Option Fill
  /-- chunks completed and the SHA-256 of the plan, kept across fills | 19 R341 | none -/
  cursor : Option (Nat × List Byte)
  serve : Option Serve
deriving DecidableEq, Repr

/-! ### Easel (21_easel_ingest.md) -/

/-- A frame written to its slot and not released (R364, R365): its number, CAPTURE_NS, status and point count. -/
structure EFrame where
  frame : Nat
  capture : Nat
  status : Nat
  points : Nat
deriving DecidableEq, Repr

/-- A STREAM_FEED that has been admitted and not ended (R363). -/
structure EFeed where
  queue : Nat
  seq : Nat
  /-- number of its first frame, once it has begun -/
  first : Option Nat
  dropped : Nat
  /-- stroke since which it waits for a free slot -/
  since : Option Nat
deriving DecidableEq, Repr

/-- An open stream (R360 to R368). -/
structure EStream where
  owner : Nat
  codec : Nat
  width : Nat
  height : Nat
  /-- FRAME_RATE in 0.01 frame/s -/
  rate : Nat
  /-- handles of OUTPUT and META -/
  output : Nat
  metaH : Nat
  /-- SIGNAL -/
  signal : Nat
  batch : Nat
  slots : Nat
  group : Option Nat
  mode : Nat
  /-- payloads of the records decoded, in feed order, for codecs whose pictures depend on earlier ones | 21 R364 | none -/
  units : List (List Byte)
  /-- pictures decoded so far: the next frame number | 21 R364 | 0 -/
  next : Nat
  /-- batches released | 21 R366 | 0 -/
  released : Nat
  /-- batch whose first frame may be written | 21 R366 | none -/
  started : Option Nat
  /-- frames written and not released -/
  frames : List EFrame
  /-- complete batches and the stroke at which each became so | 21 R367 | none -/
  complete : List (Nat × Nat)
  feeds : List EFeed
  /-- frames decoded GOOD in all | 21 R368, 11 R182 | 0 -/
  good : Nat
  /-- STREAM_CLOSE that waits: queue and SEQ | 21 R368 | none -/
  closing : Option (Nat × Nat)
  /-- STREAM_CLOSE is done and batches are left for the next boundary | 21 R368 | false -/
  closed : Bool
  /-- SIGNAL steps refused: it has released but could not add | count -/
  refused : Nat
deriving DecidableEq, Repr


/-! ### The part -/

/-- The state of the part. -/
structure State where
  /-- commands that wait at the block's input, first in, first out | list | the model's own | empty -/
  pending : List Instr
  /-- free values drawn so far: the model's own counter, no register | count | the model's own (assumption 1) | 0: DESIGN CHOICE -/
  free : Nat
  /-- enabled physical plate sites in ascending order: logical plate n is the n-th | 14 or 16 sites | 00 R1, R2 | all 16, SWP-KV70-A1: DESIGN CHOICE (assumption 14) -/
  sites : List Nat
  /-- trouble log | see TroubleLog | 23 R396 | empty -/
  log : TroubleLog
  /-- memories | see Memory | 12 R203 | see Memory -/
  mem : Memory
  /-- defined contexts, by number | 4,096 | 12 R212, 10 R157 | context 0 -/
  ctxs : List (Nat × Ctx)
  /-- queues that exist, by number | 1,024 | 10 R156 | queue 0 -/
  queues : List (Nat × Queue)
  /-- DOORBELL_ERRORS of queue numbers without a queue | 1,024 × 16 bits, saturating | 10 R162 | 0 -/
  dbUnused : List (Nat × Nat)
  /-- commands read and not completed, in the order read | list | 10 R159, R165 | none -/
  cmds : List Cmd
  /-- dispatcher Scribe cores | 4 | 01 R14, 10 R165 | see Dispatcher -/
  dispatchers : List Dispatcher
  /-- stroke timer and alignment | see Strokes | 09 R138 | see Strokes -/
  strk : Strokes
  /-- plates, by logical number | 14 or 16 | 00 R2, 01 R10 | see Plate -/
  plates : List (Nat × Plate)
  /-- Stencil routers, by compute tile | 4 | 01 R14 | see Router -/
  routers : List (Nat × Router)
  /-- settled predicates of groups in progress | list | 04 R79 | none -/
  preds : List PredResult
  /-- host registers and link | see HostPort | 27 R438 | see HostPort -/
  host : HostPort
  /-- Proof core mailbox | see Mailbox | 27 R448 | idle -/
  mbox : Mailbox
  /-- fabric ports and route maps | see Fabric | 15 R252 | see Fabric -/
  fabric : Fabric
  /-- Stylus | see Stylus | 16 R274 | see Stylus -/
  stylus : Stylus
  /-- Proof core admission | see ProofCore | 23 R392 | idle -/
  proof : ProofCore
  /-- management-only state | flag | 01 R18, 22 R385 | false -/
  mgmtOnly : Bool
  /-- DDR_CHANNELS: included channels | 12 bits | 01 R19, 27 R441 | 0 -/
  ddrChannels : Nat
  /-- DDR_GIB: size of the DDR tier | 16 bits | 01 R19, 27 R441 | 0 -/
  ddrGib : Nat
  /-- DDR_RATE in MT/s | 16 bits | 01 R20, 27 R441 | 0 -/
  ddrRate : Nat
  /-- base epochs installed or retiring, by number | 16 bits, 256 slots | 18 R319, 12 R213 | none -/
  epochs : List (Nat × Epoch)
  /-- loaded manifests, by number | 256 | 18 R312 | none -/
  manifests : List (Nat × Manifest)
  /-- newest installed epoch | 16 bits | 18 R319 | none -/
  newest : Option Nat
  /-- Crosshatch buckets in admission order | list | 17 R300 | none -/
  buckets : List Bucket
  /-- telemetry set 2: corrected and uncorrectable errors of stacks 0 to 11, then of channels 0 to 11 | 48 × 32 bits | 12 R224, 23 R400 | 0 -/
  eccCounts : List Nat
  /-- boot, identity, flash, store | see Boot | 22 R369 | see Boot -/
  boot : Boot
  /-- service bus | see Bus | 20 R343 | see Bus -/
  bus : Bus
  /-- power, sensors, clocks | see Power | 24 R402 | see Power -/
  power : Power
  /-- SMBus sideband and TAP | see Sideband | 26 R436, R437 | see Sideband -/
  side : Sideband
  /-- spare state and fills | see Spare | 19 R337 | ACTIVE -/
  spare : Spare
  /-- open Easel streams | 32 | 21 R360 | none -/
  streams : List (Nat × EStream)
  /-- placement epoch that takes effect at the next boundary | 16 bits | 19 R342 | none -/
  nextPlacement : Option Nat
  /-- placement epoch | 16 bits | 00 R4, 19 R342 | 0 -/
  placement : Nat
  /-- groups admitted so far, the model's own count | count | 16 R276 | 0 -/
  admissions : Nat
deriving DecidableEq, Repr


/-! ### Reset (24 R411, 27 R441) -/

/-- A service-bus port before the store is read (R344): it is off until boot stage 8. -/
def SbPort.initial : SbPort :=
  { refused := false, mode := 1, wanted := 0xFF, nodeCount := 0, maxBc := 0, toTimer := 32, burst := 128, reserved := 0, mac := 0, deliver := false
    phase := .off, heard := [], id := none, count := 0, beacon := false, mute := false, queue := [], attempts := 0, backoff := 0, sent := []
    counts := List.replicate 4 0 }

/-- A fabric port before the store is read: MODE 0 (R253). -/
def Port.initial : Port :=
  { mode := 0, maxFrame := 0, mac := 0, vlan := 0, ipv4 := 0, ipv6 := 0, gateway := 0, refused := false, up := false, echoes := (0, 0), slot := none, waiting := []
    counts := List.replicate 8 0 }

/-- A plate as reset leaves it. -/
def Plate.initial : Plate :=
  { ctx := none, last := 4095, tray := [], arrays := List.replicate 12 .idle, stipples := [.empty, .empty], units := [], begun := []
    drained := true, late := false, closed := false, due := false, hung := false, counts := List.replicate 4 0 }

/-- A Stencil router as reset leaves it. -/
def Router.initial : Router := { ctx := none, last := 4095, units := [], drained := true, late := false, closed := false, due := false, hung := false }

/-- Numbered from 0. -/
def numbered' {α : Type} (n : Nat) (x : α) : List (Nat × α) := (List.range n).map fun i => (i, x)

/-- The machine right after reset: PORST_N has just risen on a part whose flash is blank, and boot has not begun; BOOT_STAGE reads 0
(R384, R441). COLD_RESET, with what boot meets, runs it. -/
def State.reset : State :=
  { pending := [], free := 0, sites := List.range 16
    log := { slots := [], nextSeq := 1, thisStroke := 0, dropped := 0, droppedAll := 0 }
    mem := { cells := [], stale := [], inked := [], badLines := [], owners := [], ddrLast := [], filling := [], claims := 0, tlb := [], keys := []
             hostLines := [], directory := [], snooped := [], inkUnit := [] }
    ctxs := [], queues := [], dbUnused := [], cmds := []
    dispatchers := (List.range 4).map fun d => { last := 256 * d + 255 }
    strk := { now := 0, elapsed := 0, period := 200, source := 0, port := 0, syncLog2 := 0, origin := none, changes := [], align := .localTime
              offset := 0, unbounded := false, within := 0, beyond := 0, correction := 0, duty := 64 , ptpSync := none, ptpDiff := none
              ptpRequest := none, ptpNext := 0, ptpDelay := 0 }
    plates := numbered' 16 Plate.initial, routers := numbered' 4 Router.initial, preds := []
    host := { up := false, settled := false, coherent := false, width := 0, heldDown := false, lost := false, heldWrites := [], faultEn := false
              faultVec := 0, mboxEn := false, mboxVec := 0, qpBacking := 0, faultSummary := [], logError := false, alignLost := false, latch := none
              ctx0Root := 0, sqBase := 0, cqBase := 0, vecEn := false, vector := 0, cqLog2 := 0, sqLog2 := 0, enable := false, reason := 0
              admqState := 0, msixTable := [], msixPending := [], msiSent := [], answer := .written, aer := 0, config := [], waiting := [] }
    mbox := { request := [], response := [], busy := none, done := false, ignored := 0, rxTail := 0, rxHead := 0, rxDropped := 0, rxSlots := []
              sideband := [] }
    fabric := { udpPort := 46520, dscp := [34, 26, 0], ports := numbered' 8 Port.initial, banks := [], active := none, switch := none
                node := 0xFFFF, announce := 0, tx := [] }
    stylus := { qps := [], chip := [], miss := [], keySerial := 0 }
    proof := { refusals := List.replicate 5 0, refused := 0, overload := false, restarts := 0 }
    mgmtOnly := false, ddrChannels := 0, ddrGib := 0, ddrRate := 0
    epochs := [], manifests := [], newest := none, buckets := [], eccCounts := List.replicate 48 0
    boot := { stage := 0, running := false, recovery := false, halted := false, factory := false, causes := [], failedStack := none, seed := none
              serial := 0, endorseKey := 0, endorsement := [], endorsed := false, flash := [], flashOk := false, bank := none, storeSeq := 0
              store := [], inForce := [], slot := none, svn := 0, version := 0, keyIndex := 0, raiseFloor := false, slotDigest := []
              drbg := (0, 0), counted := false, flashOp := none, recv := none, warmDue := false, retrain := true }
    bus := { key := none, flags := 0, hops := 7, exportTo := 0, ports := numbered' 2 SbPort.initial, relayed := [], seqs := [], counter := 0
             exposures := [], events := [], own := [], takeover := (0, []), cursor := 1 }
    power := { profile := 1, changes := [], before := 1, bootProfile := 1, wakeProfile := 0xFF, peakAllowed := true, limitW := 0
               avsAddr := [0, 1, 2, 3], samples := [], above := 0, clamp := false, low := 0, control := 64, thermal := 64, sought := 64, avsCap := 64
               avs := List.replicate 4 7000, avsFailed := [], sramMv := 750, board := false, boardOver := false, sensors := [], hot := [], tripRun := []
               tripped := false, rail := .normal, tries := 0, reqCore := true, reqIo := true, alert := none, stopped := false, fabLost := false
               auxLost := false, waking := false, powerMw := 0, counts := [0, 0, 0], discarded := [0, 0, 0], busy := [], gated := [] }
    side := { eid := 0, busy := false, answer := none, tap := 1, porst := false }
    spare := { state := .active, node := 0xFFFF, pattern := 0, port := 0, arming := false, promoting := none, identity := none, fill := none
               cursor := none, serve := none }
    streams := [], nextPlacement := none, placement := 0, admissions := 0 }

end Sys2Proof.Machine
end

