-- ==== Sys2Proof/Machine/Ops.lean ====
section
/-! DEFINITION. The named operations over State: tables, the trouble log, interrupts, memory and its owners,
page-table walks and the checks of R210, fault records, and the way commands end. -/

namespace Sys2Proof.Machine

/-! ### Codes -/

/-- The code of a status (R176). -/
def Status.code : Status → Nat
  | .done => 0x00 | .badOpcode => 0x01 | .badLength => 0x02 | .badField => 0x03 | .stateConflict => 0x04
  | .noResource => 0x05 | .accessDenied => 0x06 | .faultPending => 0x07 | .descRange => 0x08 | .inkUnderflow => 0x09
  | .inkOverflow => 0x0A | .strokeOverrun => 0x0B | .preempted => 0x0C | .stepAborted => 0x0D | .checkMismatch => 0x0E
  | .signatureInvalid => 0x0F | .busyRetry => 0x10 | .timeout => 0x11 | .peerLost => 0x12 | .mediaError => 0x13
  | .epochStale => 0x14 | .internal => 0xFF

/-- The code of a fault kind (R218). -/
def FaultKind.code : FaultKind → Nat
  | .notPresent => 0x01 | .protection => 0x02 | .ink => 0x03 | .owner => 0x04 | .address => 0x05 | .table => 0x06
  | .pin => 0x07 | .strokeOverrun => 0x08 | .media => 0x09 | .limit => 0x0A

/-- The status with which a fault ends its command (R218). -/
def FaultKind.status : FaultKind → Status
  | .notPresent => .faultPending | .protection => .accessDenied | .ink => .accessDenied | .owner => .accessDenied
  | .address => .descRange | .table => .descRange | .pin => .descRange | .strokeOverrun => .strokeOverrun
  | .media => .mediaError | .limit => .faultPending

/-- DONE with its result words. -/
def Ending.ok (r0 r1 : Nat) : Ending := { status := .done, r0 := r0 % 2 ^ 32, r1 := r1 % 2 ^ 32 }

/-- A failing check: status and detail. -/
def Ending.fail (st : Status) (detail : Nat) : Ending := { status := st, detail := detail }

/-- BAD_FIELD at a packet offset. -/
def badField (detail : Nat) : Ending := .fail .badField detail

/-- STATE_CONFLICT naming a state code of R178 or R202. -/
def conflict (code : Nat) : Ending := .fail .stateConflict code

/-- The state codes of R178 and R202. -/
def scGroupEnded : Nat := 0x0001
/-- MANAGEMENT_ONLY (R178). -/
def scManagementOnly : Nat := 0x0002
/-- QUEUE_BUSY (R178). -/
def scQueueBusy : Nat := 0x0003
/-- CONTEXT_BUSY (R178). -/
def scContextBusy : Nat := 0x0004
/-- STEP_OPEN (R178). -/
def scStepOpen : Nat := 0x0005
/-- PARAM_BOUND (R178). -/
def scParamBound : Nat := 0x0006
/-- SCHEDULE_LONG (R178). -/
def scScheduleLong : Nat := 0x0007
/-- UNALIGNED (R178). -/
def scUnaligned : Nat := 0x0008
/-- QUEUE_STOPPED (R178). -/
def scQueueStopped : Nat := 0x0009
/-- ALLOC_IN_USE (R202). -/
def scAllocInUse : Nat := 0x0100
/-- CONTEXT_EXISTS (R202). -/
def scContextExists : Nat := 0x0101
/-- QUEUE_EXISTS (R202). -/
def scQueueExists : Nat := 0x0102
/-- DESC_IN_USE (R202). -/
def scDescInUse : Nat := 0x0103
/-- FAULT_NOT_OPEN (R202). -/
def scFaultNotOpen : Nat := 0x0104
/-- QP_EXISTS (R202). -/
def scQpExists : Nat := 0x0105
/-- QP_CONNECTED (R202). -/
def scQpConnected : Nat := 0x0106
/-- QP_NOT_CONNECTED (R202). -/
def scQpNotConnected : Nat := 0x0107
/-- XH_GROUP_OPEN (R202). -/
def scXhGroupOpen : Nat := 0x0108
/-- BUCKET_OPEN (R202). -/
def scBucketOpen : Nat := 0x0109
/-- STEP_VERIFIED (R202). -/
def scStepVerified : Nat := 0x010A
/-- SHARDS_MISSING (R202). -/
def scShardsMissing : Nat := 0x010B
/-- EPOCH_CURRENT (R202). -/
def scEpochCurrent : Nat := 0x010C
/-- SPARE_NOT_STANDBY (R202). -/
def scSpareNotStandby : Nat := 0x010D
/-- STREAM_BUSY (R202). -/
def scStreamBusy : Nat := 0x010E
/-- SLOT_EMPTY (R202). -/
def scSlotEmpty : Nat := 0x010F
/-- BANK_ACTIVE (R202). -/
def scBankActive : Nat := 0x0110
/-- SWITCH_PENDING (R202). -/
def scSwitchPending : Nat := 0x0111
/-- PERIOD_IN_USE (R202). -/
def scPeriodInUse : Nat := 0x0112

/-- A check that fails with e unless c holds. -/
def require (c : Bool) (e : Ending) : Option Ending := if c then none else some e

/-- The first failure in table order. -/
def firstFail : List (Option Ending) → Option Ending
  | [] => none
  | some e :: _ => some e
  | none :: t => firstFail t

/-! ### Small updates -/

/-- Change a context, if it is defined. -/
def State.updCtx (s : State) (c : Nat) (f : Ctx → Ctx) : State := { s with ctxs := Kv.upd c f s.ctxs }

/-- Change a queue, if it exists. -/
def State.updQueue (s : State) (q : Nat) (f : Queue → Queue) : State := { s with queues := Kv.upd q f s.queues }

/-- Change a plate, if it is present. -/
def State.updPlate (s : State) (n : Nat) (f : Plate → Plate) : State := { s with plates := Kv.upd n f s.plates }

/-- Change a Stencil router. -/
def State.updRouter (s : State) (n : Nat) (f : Router → Router) : State := { s with routers := Kv.upd n f s.routers }

/-- Change the command (q, seq). -/
def State.updCmd (s : State) (q seq : Nat) (f : Cmd → Cmd) : State :=
  { s with cmds := s.cmds.map fun c => if c.queue = q ∧ c.seq = seq then f c else c }

/-- The command (q, seq). -/
def State.findCmd (s : State) (q seq : Nat) : Option Cmd := s.cmds.find? fun c => decide (c.queue = q ∧ c.seq = seq)

/-- Change the memories. -/
def State.updMem (s : State) (f : Memory → Memory) : State := { s with mem := f s.mem }

/-- Draw a free value of w bits: nothing constrains it (assumption 1). -/
def State.draw (s : State) (w : Nat) : Nat × State :=
  ((Config.freeValue w s.free).toNat, { s with free := s.free + 1 })

/-- The instant of an event in ns after the boundary: open, but below the stroke's length (assumption 15). -/
def State.drawNs (s : State) : Nat × State :=
  let (v, s) := s.draw 32
  (v % (s.strk.period * 1000), s)

/-- A fresh number below n that `used` does not hold: open which one (assumption 16); none when all are used. -/
def freshNumber (s : State) (w lo n : Nat) (used : Nat → Bool) : Option Nat × State :=
  let (v, s) := s.draw w
  if lo ≤ v ∧ v < n ∧ ¬ used v then (some v, s)
  else (((List.range (n - lo)).map (· + lo)).find? fun k => !used k, s)

/-! ### Trouble log (R396 to R399) -/

/-- SEVERITY of a code (R399). -/
def logSeverity (code : Nat) : Nat :=
  if code = 0x0103 then 3
  else if code ∈ [0x0003, 0x0102, 0x0201, 0x0202, 0x0402, 0x0601] then 2
  else if code ∈ [0x0001, 0x0004, 0x0403, 0x0501, 0x0602, 0x0701, 0x0801, 0x0901] then 0
  else 1

/-- What the log unit accepts: an entry whose time is known (R397). -/
def State.logAt (s : State) (ns code source index context aux data : Nat) : State :=
  let sev := logSeverity code
  if sev < 2 ∧ s.log.thisStroke ≥ 64 then
    { s with log := { s.log with dropped := s.log.dropped + 1, droppedAll := (s.log.droppedAll + 1) % 2 ^ 64 } }
  else
    let e : LogEntry :=
      { stroke := s.strk.now, ns := ns, code := code, severity := sev, source := source, index := index % 256,
        flags := if s.strk.align = .aligned then 0 else 2, context := context, aux := aux % 65536,
        seq := s.log.nextSeq, data := data % 2 ^ 64 }
    { s with
      log := { s.log with
        slots := Kv.set ((s.log.nextSeq - 1) % 8192) e s.log.slots, nextSeq := (s.log.nextSeq + 1) % 2 ^ 32,
        thisStroke := if sev < 2 then s.log.thisStroke + 1 else s.log.thisStroke },
      host := { s.host with logError := s.host.logError || decide (sev ≥ 2) }
      power := { s.power with alert := s.power.alert.orElse fun _ => if sev ≥ 2 then some s.log.nextSeq else none } }

/-- An event enters the trouble log (R396, R397). -/
def State.logEvent (s : State) (code source index context aux data : Nat) : State :=
  let (ns, s) := s.drawNs
  s.logAt ns code source index context aux data

/-- CONTEXT of an entry that names none (R396). -/
def noContext : Nat := 0xFFFF

/-- An entry's 32 bytes (R396). -/
def LogEntry.bytes (e : LogEntry) : List Byte :=
  leBytes 6 e.stroke ++ leBytes 4 e.ns ++ leBytes 2 e.code ++ leBytes 1 e.severity ++ leBytes 1 e.source ++
    leBytes 1 e.index ++ leBytes 1 e.flags ++ leBytes 2 e.context ++ leBytes 2 e.aux ++ leBytes 4 e.seq ++
    leBytes 8 e.data

/-- A slot as it reads: zeros when never written (R398). -/
def TroubleLog.read (l : TroubleLog) (slot : Nat) : List Byte :=
  match Kv.get (slot % 8192) l.slots with
  | some e => e.bytes
  | none => zeros 32

/-! ### Interrupts (R442) -/

/-- Is the MSI-X entry masked: bit 0 of its vector control, set at reset as PCIe has it (assumption 13). -/
def HostPort.masked (h : HostPort) (v : Nat) : Bool :=
  bitOf (((Kv.get (16 * v + 12) h.msixTable).getD 1).toNat) 0

/-- Raise a vector: the message is a posted write on the HOST path (R442); it stays pending while the entry is masked or
the link is down. -/
def State.raise (s : State) (v : Nat) : State :=
  if s.host.up ∧ ¬ s.host.masked v then { s with host := { s.host with msiSent := v :: s.host.msiSent } }
  else if v ∈ s.host.msixPending then s
  else { s with host := { s.host with msixPending := v :: s.host.msixPending } }

/-- Send the pending messages that may go. -/
def State.flushMsi (s : State) : State :=
  let go := s.host.msixPending.filter fun v => s.host.up && !s.host.masked v
  { s with host := { s.host with
    msixPending := s.host.msixPending.filter fun v => !(s.host.up && !s.host.masked v),
    msiSent := go ++ s.host.msiSent } }

/-! ### Physical memory (R203, R204) -/

/-- Bytes of HBM4 per compute tile. -/
def tileHbm : Nat := 0x24_0000_0000
/-- Bytes of HBM4 in all. -/
def hbmSize : Nat := 0x90_0000_0000
/-- First physical address of plate memory. -/
def plateBase : Nat := 0x100_0000_0000
/-- Bytes of plate memory per site. -/
def plateSize : Nat := 0x200_0000
/-- First physical address of the DDR tier. -/
def ddrBase : Nat := 0x200_0000_0000
/-- First physical address of host memory. -/
def hostBase : Nat := 0x1_0000_0000_0000
/-- Bytes of a reserved area. -/
def reservedSize : Nat := 0x1000_0000
/-- Bytes of a tile's table pool. -/
def poolSize : Nat := 0x0A00_0000

/-- The regions of R203. -/
inductive Region where
  | hbm (tile : Nat)
  | reserved (tile : Nat)
  | plate (site : Nat)
  | ddr
  | host
  | absent
deriving DecidableEq, Repr

/-- The region of a physical address (R203). Host memory is there once the host link has been up (assumption 17). -/
def State.region (s : State) (pa : Nat) : Region :=
  if pa < hbmSize then
    (if pa % tileHbm ≥ tileHbm - reservedSize then .reserved (pa / tileHbm) else .hbm (pa / tileHbm))
  else if plateBase ≤ pa ∧ pa < plateBase + 16 * plateSize then
    (if (pa - plateBase) / plateSize ∈ s.sites then .plate ((pa - plateBase) / plateSize) else .absent)
  else if ddrBase ≤ pa ∧ pa < ddrBase + s.ddrGib * 2 ^ 30 then .ddr
  else if hostBase ≤ pa ∧ pa < hostBase + 2 ^ 48 ∧ s.host.settled then .host
  else .absent

/-- Does pa lie in the table pool (R204, R447). -/
def inTablePool (pa : Nat) : Bool :=
  decide (pa < hbmSize) && decide (tileHbm - reservedSize ≤ pa % tileHbm) &&
    decide (pa % tileHbm < tileHbm - reservedSize + poolSize)

/-- Does pa lie in a copy of the frame map or of the context table, on tile 0 or 1 (R204; assumption 163). -/
def inTableCopy (pa : Nat) : Bool :=
  let off := pa % tileHbm - (tileHbm - reservedSize + poolSize)
  decide (pa / tileHbm < 2) && decide (tileHbm - reservedSize + poolSize ≤ pa % tileHbm) &&
    ((decide (Config.frameMapOffset.val ≤ off) && decide (off < Config.frameMapOffset.val + 69222400)) ||
     (decide (Config.contextTableOffset.val ≤ off) && decide (off < Config.contextTableOffset.val + 524288)))

/-- The HBM4 stack of a physical address (R17). -/
def stackOf (pa : Nat) : Nat := 3 * (pa / tileHbm) + pa / 4096 % 3

/-- The DDR5 channel of a physical address: the tier interleaves over the included channels in 4 KiB blocks (R20). -/
def State.channelOf (s : State) (pa : Nat) : Nat :=
  let chs := (List.range 12).filter fun c => bitOf s.ddrChannels c
  chs.getD ((pa - ddrBase) / 4096 % max 1 chs.length) 0

/-- What an unlisted address reads as: zero (R411; assumption 10), or an open byte in a re-claimed DDR frame (R223). -/
def Memory.unlisted (m : Memory) (a : Nat) : Byte :=
  match Kv.get (a / 65536) m.stale with
  | some n => Config.staleByte a n
  | none => 0

/-- The byte at physical address a. -/
def Memory.read (m : Memory) (a : Nat) : Byte :=
  match Kv.get a m.cells with
  | some b => b
  | none => m.unlisted a

/-- Write one byte, keeping the canonical form. -/
def Memory.write (m : Memory) (a : Nat) (b : Byte) : Memory :=
  if b = m.unlisted a then { m with cells := Kv.del a m.cells } else { m with cells := Kv.set a b m.cells }

/-- n bytes from physical address a. -/
def Memory.readBytes (m : Memory) (a n : Nat) : List Byte := (List.range n).map fun i => m.read (a + i)

/-- Write bytes from physical address a on, without any other effect. -/
def Memory.putBytes (m : Memory) (a : Nat) : List Byte → Memory
  | [] => m
  | b :: bs => Memory.putBytes (m.write a b) (a + 1) bs

/-- The canonical form of the memory: addresses strictly rising, no cell equal to what its address reads as unlisted. -/
def Memory.wf (m : Memory) : Bool :=
  Kv.sorted m.cells && m.cells.all fun c => decide (c.2 ≠ m.unlisted c.1)

/-- The line of an address. -/
def lineOf (a : Nat) : Nat := a / 64 * 64

/-- A write of bytes by the part or the host: the bytes, and a whole-line write ends a line's uncorrectable state (R225). -/
def Memory.writeBytes (m : Memory) (a : Nat) (bs : List Byte) : Memory :=
  { m.putBytes a bs with badLines := m.badLines.filter fun l => !(decide (a ≤ l) && decide (l + 64 ≤ a + bs.length)) }

/-- Does [a, a + n) touch an uncorrectable line (R225). -/
def Memory.bad (m : Memory) (a n : Nat) : Bool := m.badLines.any fun l => decide (l < a + n) && decide (a < l + 64)

/-- Note in the back-invalidation directory that an engine has written bytes of a line the host may hold (R230). -/
def Memory.snoop (m : Memory) (a : Nat) (b : Byte) : Memory :=
  let l := lineOf a
  if l ∈ m.directory ∨ Kv.has l m.snooped then
    { m with snooped := Kv.set l (((Kv.get l m.snooped).getD []).filter (fun e => e.1 ≠ a) ++ [(a, b)]) m.snooped }
  else m

/-- The engine's write to device memory: lands in the engines' view, and waits for the host's answer where the host may hold
the line (R230). -/
def Memory.engineWrite (m : Memory) (a : Nat) (bs : List Byte) : Memory :=
  (bs.zipIdx).foldl (fun m x => m.snoop (a + x.2) x.1) (m.writeBytes a bs)

/-- The tag of the word at physical address a (R240). -/
def Memory.tag (m : Memory) (a : Nat) : Bool := decide (a ∈ m.inked)

/-- Set or clear a tag. -/
def Memory.setTag (m : Memory) (a : Nat) (on : Bool) : Memory :=
  if on then (if a ∈ m.inked then m else { m with inked := a :: m.inked })
  else { m with inked := m.inked.filter (· ≠ a) }

/-- Zero-fill a frame: bytes zero, tags dry (R206; the tags: assumption 18). Lines that the host may hold are snooped first, as for every write
of the part (R230). -/
def Memory.zeroFrame (m : Memory) (f : Nat) : Memory :=
  let held := (m.directory ++ Kv.keys m.snooped).filter fun l => decide (l / 65536 = f)
  { m with
    snooped := held.foldl (fun t l => Kv.set l ((List.range 64).map fun i => (l + i, 0)) t) m.snooped
    cells := m.cells.filter (fun c => c.1 / 65536 ≠ f), stale := Kv.del f m.stale,
    inked := m.inked.filter (fun a => a / 65536 ≠ f),
    badLines := m.badLines.filter (fun l => l / 65536 ≠ f) }

/-! ### Frame ownership (R205, R206, R223) -/

/-- Frames exist in HBM4, plate memory and the DDR tier. -/
def State.framed (s : State) (pa : Nat) : Bool :=
  match s.region pa with
  | .hbm _ | .reserved _ | .plate _ | .ddr => true
  | _ => false

/-- The owner of the frame of pa, none when FREE; the reserved areas are RESERVED (R204, R205). -/
def State.ownerOf (s : State) (pa : Nat) : Option FrameOwner :=
  match s.region pa with
  | .reserved _ => some .reserved
  | _ => Kv.get (pa / 65536) s.mem.owners

/-- Index in the key store: a context number, or 4,096 plus a base slot (R223). -/
def ownerKeyIndex : FrameOwner → Nat
  | .context c => c
  | .base b => 4096 + b
  | .reserved => 0

/-- Give a FREE frame to an owner; a DDR frame that had another key before reads as unspecified values (R206, R223). -/
def State.claim (s : State) (f : Nat) (o : FrameOwner) : State :=
  let m := s.mem
  let m1 := { m with owners := Kv.set f o m.owners }
  if s.region (f * 65536) = .ddr then
    let k := (Kv.get (ownerKeyIndex o) m.keys).getD 0
    match Kv.get f m.ddrLast with
    | none => { s with mem := { m1 with ddrLast := Kv.set f k m.ddrLast } }
    | some k' =>
      if k' = k then { s with mem := m1 }
      else { s with mem := { m1 with
        ddrLast := Kv.set f k m.ddrLast, cells := m.cells.filter (fun c => c.1 / 65536 ≠ f),
        stale := Kv.set f m.claims m.stale, claims := m.claims + 1 } }
  else { s with mem := m1 }

/-- Free a frame: HBM4 and plate memory are zero-filled, DDR keeps its enciphered contents (R206). -/
def State.freeFrame (s : State) (f : Nat) : State :=
  let m := { s.mem with owners := Kv.del f s.mem.owners }
  { s with mem := if s.region (f * 65536) = .ddr then m else m.zeroFrame f }

/-- An output of the deterministic random bit generator: its number among all of them; the generator is seeded again after 2^20 (R373). -/
def State.drawRandom (s : State) : Nat × State :=
  let d := s.boot.drbg
  (d.1 * 2 ^ 20 + d.2 + 2, { s with boot := { s.boot with drbg := if d.2 + 1 = 2 ^ 20 then (d.1 + 1, 0) else (d.1, d.2 + 1) } })

/-- The 64 bytes of the AES-256-XTS key with a number (R222, R223). -/
def keyBytes (k : Nat) : List Byte := Config.drbg ((k - 2) / 2 ^ 20) ((k - 2) % 2 ^ 20) 64

/-- The number of no key: a DDR frame without an owner (assumption 2). -/
def noKey : Nat := 1

/-- A new DDR key under an index of the key store, drawn from the generator (R223). -/
def State.newKey (s : State) (i : Nat) : State :=
  let (k, s) := s.drawRandom
  s.updMem fun m => { m with keys := Kv.set i k m.keys }

/-- A line of the DDR tier as the modules hold it: enciphered under the key of the frame's last owner, the tweak being the line's number in the
tier (R222). -/
def State.ddrCipher (s : State) (pa : Nat) : List Byte :=
  let l := lineOf pa
  Config.xtsEncipher (keyBytes ((Kv.get (l / 65536) s.mem.ddrLast).getD noKey)) ((l - ddrBase) / 64) (s.mem.readBytes l 64)

/-- Zeroise a key (R223). -/
def State.dropKey (s : State) (i : Nat) : State := s.updMem fun m => { m with keys := Kv.del i m.keys }

/-! ### Page tables (R207 to R209) -/

/-- A translated 4 KiB page. -/
structure Leaf where
  /-- physical address of the page -/
  pa : Nat
  read : Bool
  write : Bool
  ink : Bool
deriving DecidableEq, Repr

/-- A table entry's bits that no entry may set (R208): [63:52], [51:49], [11:8], [5:4]; WRITE without READ. -/
def pteReserved (e : Nat) : Bool :=
  decide (bitsOf e 63 49 = 0) && decide (bitsOf e 11 8 = 0) && decide (bitsOf e 5 4 = 0) &&
    (!bitOf e 3 || bitOf e 2)

/-- The address field of an entry. -/
def pteAddr (e : Nat) : Nat := bitsOf e 51 12 * 4096

/-- Is [pa, pa + n) aligned to n and wholly in one present region outside the reserved areas (R208). -/
def State.pageRegionOk (s : State) (pa n : Nat) (ink : Bool) : Bool :=
  decide (pa % n = 0) &&
  (match s.region pa with
   | .hbm t => decide (s.region (pa + n - 1) = .hbm t)
   | .plate p => decide (s.region (pa + n - 1) = .plate p)
   | .ddr => decide (s.region (pa + n - 1) = .ddr) && !ink
   | .host => decide (s.region (pa + n - 1) = .host) && !ink
   | _ => false)

/-- Check a leaf entry of a page of n bytes and give the 4 KiB page that holds va. -/
def State.leafOf (s : State) (e n va : Nat) : Except FaultKind Leaf :=
  if pteReserved e ∧ s.pageRegionOk (pteAddr e) n (bitOf e 6) then
    .ok { pa := pteAddr e + va % n / 4096 * 4096, read := bitOf e 2, write := bitOf e 3, ink := bitOf e 6 }
  else .error .table

/-- Read a table entry; an uncorrectable one faults (R225). -/
def State.readPte (s : State) (pa : Nat) : Except FaultKind Nat :=
  if s.mem.bad pa 8 then .error .media else .ok (leNat (s.mem.readBytes pa 8))

/-- The level-3 table (R208, R209). -/
def State.walk3 (s : State) (table va : Nat) : Except FaultKind Leaf := do
  let i := bitsOf va 20 12
  let g ← s.readPte (table + i / 16 * 16 * 8)
  if bitOf g 0 ∧ bitOf g 7 then
    (if bitOf g 1 then s.leafOf g 65536 va else .error .table)
  else
    let e ← s.readPte (table + i * 8)
    if ¬ bitOf e 0 then .error .notPresent
    else if bitOf e 7 ∨ ¬ bitOf e 1 then .error .table
    else s.leafOf e 4096 va

/-- A non-leaf entry's next table (R208). -/
def nextTable (e : Nat) : Except FaultKind Nat :=
  if pteReserved e ∧ bitsOf e 7 2 = 0 ∧ inTablePool (pteAddr e) then .ok (pteAddr e) else .error .table

/-! ### Walks -/

/-- The walk of R207 to R209 from a root. -/
def State.walk (s : State) (root va : Nat) : Except FaultKind Leaf := do
  let e0 ← s.readPte (root + bitsOf va 47 39 * 8)
  if ¬ bitOf e0 0 then .error .notPresent
  else if bitOf e0 1 then .error .table
  else
    let t1 ← nextTable e0
    let e1 ← s.readPte (t1 + bitsOf va 38 30 * 8)
    if ¬ bitOf e1 0 then .error .notPresent
    else if bitOf e1 1 then (if bitOf e1 7 then .error .table else s.leafOf e1 (2 ^ 30) va)
    else
      let t2 ← nextTable e1
      let e2 ← s.readPte (t2 + bitsOf va 29 21 * 8)
      if ¬ bitOf e2 0 then .error .notPresent
      else if bitOf e2 1 then (if bitOf e2 7 then .error .table else s.leafOf e2 (2 ^ 21) va)
      else
        let t3 ← nextTable e2
        s.walk3 t3 va

/-- The first page from `base` at whose walk an entry fails a check or cannot be read, absent entries apart, and the fault (R208, R225). -/
def State.tableFault (s : State) (root base size : Nat) : Option (FaultKind × Nat) :=
  ((List.range (size / 4096)).map fun i => base + 4096 * i).findSome? fun v => match s.walk root v with
    | .ok _ | .error .notPresent => none
    | .error k => some (k, v)

/-! ### Accesses (R210, R211, R213, R217) -/

/-- What an access does. -/
structure Acc where
  read : Bool := false
  write : Bool := false
  ink : Bool := false
deriving DecidableEq, Repr

/-- A read. -/
def accR : Acc := { read := true }
/-- A write. -/
def accW : Acc := { write := true }
/-- An ink operation. -/
def accInk : Acc := { ink := true }

/-- The allocation that holds va (R210). -/
def Ctx.allocAt (c : Ctx) (va : Nat) : Option Alloc :=
  c.allocs.find? fun a => decide (a.base ≤ va) && decide (va < a.base + a.size)

/-- The windows that an access goes through: those bound at its command's admission, or the valid ones of the context (R213, R321). -/
def windowsOf (bound : List Bound) (c : Ctx) : List Window :=
  if .admitted ∈ bound then bound.filterMap fun b => match b with
    | .window w => some w
    | _ => none
  else c.windows.filter (·.valid)

/-- The window that holds va (R213). -/
def Ctx.windowAt (c : Ctx) (bound : List Bound) (va : Nat) : Option Window :=
  (windowsOf bound c).find? fun w => decide (w.va ≤ va) && decide (va < w.va + w.sizeGib * 2 ^ 30)

/-- The translation of a page that a dispatch unit keeps (R211). -/
def keptPage (bound : List Bound) (va : Nat) : Option TlbEntry :=
  bound.findSome? fun b => match b with
    | .page t => if t.page = va / 4096 then some t else none
    | _ => none

/-- Is the page of va pinned (R217). -/
def Alloc.pagePinned (a : Alloc) (va : Nat) : Bool := a.pinned || Kv.has ((va - a.base) / 4096) a.pins

/-- Is the page of va pinned in the context. -/
def Ctx.pagePinned (c : Ctx) (va : Nat) : Bool :=
  match c.allocAt va with
  | some a => a.pagePinned va
  | none => false

/-- The page of va through a base window's table (R213): BASE-owned frames, READ only. -/
def State.baseLeaf (s : State) (w : Window) (va : Nat) : Except FaultKind Leaf :=
  match Kv.get w.epoch s.epochs with
  | none => .error .notPresent
  | some e =>
    match e.frames[(va - w.va) / 65536]? with
    | none => .error .notPresent
    | some f => .ok { pa := f * 65536 + va % 65536 / 4096 * 4096, read := true, write := false, ink := false }

/-- A cached translation as a leaf. -/
def TlbEntry.leaf (t : TlbEntry) : Leaf := { pa := t.frame, read := t.read, write := t.write, ink := t.ink }

/-- Translate va of context n: through a window (R213), or by a translation that the access's unit keeps or that is cached (R211), or by the
walk. -/
def State.translate (s : State) (n : Nat) (bound : List Bound) (va : Nat) : Except FaultKind Leaf :=
  match Kv.get n s.ctxs with
  | none => .error .protection
  | some c =>
    if va ≥ 2 ^ 48 then .error .address
    else match c.windowAt bound va with
      | some w => s.baseLeaf w va
      | none =>
        match (keptPage bound va).orElse fun _ => s.mem.tlb.find? fun t => decide (t.context = n ∧ t.page = va / 4096) with
        | some t => .ok t.leaf
        | none => s.walk c.root va

/-- Does the frame of pa keep context n out (R205, R206): a FREE frame may be claimed, but not through a window and not while
it is being filled. -/
def State.frameDenied (s : State) (n : Nat) (win : Bool) (pa : Nat) : Bool :=
  match s.ownerOf pa with
  | none => win || decide (pa / 65536 ∈ s.mem.filling)
  | some (.context k) => decide (k ≠ n)
  | some (.base _) => !win
  | some .reserved => true

/-- The checks of R210 on a translated page, in order. -/
def State.accessCheck (s : State) (n : Nat) (bound : List Bound) (va : Nat) (acc : Acc) (l : Leaf) : Option FaultKind :=
  match Kv.get n s.ctxs with
  | none => some .protection
  | some c =>
    let win := (c.windowAt bound va).isSome
    let al := c.allocAt va
    if ¬ win ∧ al.isNone then some .protection
    else if s.framed l.pa ∧ s.frameDenied n win l.pa then some .owner
    else if acc.read ∧ ¬ l.read then some .protection
    else if acc.write ∧ ¬ (l.write ∧ al.any (·.write)) then some .protection
    else if acc.ink ∧ ¬ l.ink then some .ink
    else if acc.write ∧ l.ink then some .ink
    else none

/-- NOT_PRESENT becomes PIN in a pinned range, or for an engine that cannot wait (R217). -/
def State.presenceKind (s : State) (n va : Nat) (demand : Bool) (k : FaultKind) : FaultKind :=
  if k = .notPresent ∧ (¬ demand ∨ ((Kv.get n s.ctxs).map (·.pagePinned va)).getD false) then .pin else k

/-- Cache a translation (R211); window translations are held with the window. -/
def State.cache (s : State) (n : Nat) (bound : List Bound) (page : Nat) (l : Leaf) : State :=
  if s.mem.tlb.any (fun t => decide (t.context = n ∧ t.page = page)) ∨
      (((Kv.get n s.ctxs).bind fun c => c.windowAt bound (page * 4096)).isSome) then s
  else s.updMem fun m => { m with
    tlb := { context := n, page := page, frame := l.pa, read := l.read, write := l.write, ink := l.ink } :: m.tlb }

/-- One page of an access: translate, check, claim a FREE frame at its first translation (R206), cache. -/
def State.touchPage (s : State) (n : Nat) (bound : List Bound) (acc : Acc) (demand : Bool) (va : Nat) :
    Except (FaultKind × Nat) State :=
  match s.translate n bound va with
  | .error k => .error (s.presenceKind n va demand k, va)
  | .ok l =>
    match s.accessCheck n bound va acc l with
    | some k => .error (k, va)
    | none =>
      let s1 := if s.framed l.pa ∧ s.ownerOf l.pa = none then s.claim (l.pa / 65536) (.context n) else s
      .ok (s1.cache n bound (va / 4096) l)

/-- The first translation of a page inside an allocation of the context claims a FREE frame (R206). -/
def State.claimPage (s : State) (n va : Nat) : State :=
  match s.translate n [] va with
  | .ok l =>
    if s.framed l.pa ∧ s.ownerOf l.pa = none ∧ ¬ s.frameDenied n false l.pa ∧ ((Kv.get n s.ctxs).map fun c => (c.allocAt va).isSome).getD false then
      s.claim (l.pa / 65536) (.context n)
    else s
  | .error _ => s

/-- Why the page of a ring or a flag cannot be used, if it cannot: it must be present (R217), and it is checked as any page (R205, R210; DEDUCED,
assumption 159). -/
def State.ringFault (s : State) (n va : Nat) (acc : Acc) : Option FaultKind :=
  match s.translate n [] va with
  | .error k => some (if k = .notPresent then .pin else k)
  | .ok l => s.accessCheck n [] va acc l

/-- The first address of every page that [va, va + n) touches. -/
def pagesOf (va n : Nat) : List Nat :=
  if n = 0 then []
  else (List.range ((va + n - 1) / 4096 - va / 4096 + 1)).map fun i => if i = 0 then va else (va / 4096 + i) * 4096

/-- Translate and check every page of a range at a unit's start (R83). -/
def State.touch (s : State) (n : Nat) (bound : List Bound) (va len : Nat) (acc : Acc) (demand : Bool) :
    Except (FaultKind × Nat) State :=
  (pagesOf va len).foldlM (fun s v => s.touchPage n bound acc demand v) s

/-- The physical address of va, when it translates. -/
def State.paOf (s : State) (n : Nat) (bound : List Bound) (va : Nat) : Option Nat :=
  match s.translate n bound va with
  | .ok l => some (l.pa + va % 4096)
  | .error _ => none

/-- Does a read of [va, va + len) meet an uncorrectable line (R225). -/
def State.badRange (s : State) (n : Nat) (bound : List Bound) (va len : Nat) : Option Nat :=
  ((pagesOf va len).findSome? fun v => (s.paOf n bound v).bind fun p =>
    let k := min (4096 - v % 4096) (va + len - v)
    if s.mem.bad p k then some p else none)

/-- The byte at va; an address that does not translate is never read by an engine (its touch has faulted). -/
def State.vbyte (s : State) (n : Nat) (bound : List Bound) (va : Nat) : Byte :=
  match s.paOf n bound va with
  | some p => s.mem.read p
  | none => 0

/-- n bytes at va. -/
def State.vread (s : State) (c : Nat) (bound : List Bound) (va n : Nat) : List Byte :=
  (List.range n).map fun i => s.vbyte c bound (va + i)

/-- A write of the part to a physical address: to device memory, or on the HOST path, where it is held while the link is
down (R228, R239). -/
def State.physWrite (s : State) (pa : Nat) (bs : List Byte) : State :=
  if s.region pa = .host ∧ ¬ s.host.up then
    { s with host := { s.host with heldWrites := s.host.heldWrites ++ [(pa, bs)] } }
  else s.updMem fun m => m.engineWrite pa bs

/-- Cut a write at page boundaries. -/
def pageChunks : Nat → Nat → List Byte → List (Nat × List Byte)
  | 0, _, _ => []
  | k + 1, va, bs =>
    if bs.isEmpty then []
    else
      let n := 4096 - va % 4096
      (va, bs.take n) :: pageChunks k (va + n) (bs.drop n)

/-- Write bytes at va of context c, page by page. -/
def State.vwrite (s : State) (c : Nat) (bound : List Bound) (va : Nat) (bs : List Byte) : State :=
  (pageChunks (bs.length / 4096 + 2) va bs).foldl (fun s x =>
    match s.paOf c bound x.1 with
    | some p => s.physWrite p x.2
    | none => s) s

/-! ### Fault records (R219) -/

/-- Put a record into a context's ring: the oldest is overwritten, and counted in LOST while it is open. -/
def FaultRing.add (r : FaultRing) (f : FaultRecord) : FaultRing :=
  let f := { f with fseq := r.nextFseq }
  let slot := 1 + (r.nextFseq - 1) % 63
  let lost := match Kv.get slot r.slots with
    | some o => if r.opened.any (fun x => decide (x.fseq = o.fseq)) then r.lost + 1 else r.lost
    | none => r.lost
  { nextFseq := r.nextFseq + 1, lost := lost, slots := Kv.set slot f r.slots,
    opened := if f.isOpen then r.opened ++ [f] else r.opened }

/-- Close a fault: its record, where it is still in the ring, shows OPEN 0. -/
def FaultRing.close (r : FaultRing) (fseq : Nat) : FaultRing :=
  { r with
    opened := r.opened.filter (fun x => x.fseq ≠ fseq),
    slots := r.slots.map fun e => if e.2.fseq = fseq then (e.1, { e.2 with isOpen := false }) else e }

/-- A fault record of a command's access (R219). -/
def mkFault (kind : FaultKind) (va engine index : Nat) (acc : Acc) (queue seq cursor : Nat) : FaultRecord :=
  { fseq := 0, va := va, stroke := 0, ns := 0, kind := kind, engine := engine, index := index,
    access := b2n acc.read + 2 * b2n acc.write + 4 * b2n acc.ink, queue := queue, seq := seq, estimate := 0, run := 0,
    cursor := cursor, isOpen := decide (kind = .notPresent) }

/-- A record's 64 bytes (R219). -/
def FaultRecord.bytes (f : FaultRecord) : List Byte :=
  leBytes 8 f.fseq ++ leBytes 8 f.va ++ leBytes 6 f.stroke ++ leBytes 4 f.ns ++ leBytes 1 f.kind.code ++
    leBytes 1 f.engine ++ leBytes 1 f.index ++ leBytes 1 f.access ++ leBytes 2 f.queue ++ leBytes 8 f.seq ++
    leBytes 4 f.estimate ++ leBytes 4 f.run ++ leBytes 8 f.cursor ++ leBytes 1 (b2n f.isOpen) ++ zeros 7

/-- A fault ring's page as the fault window shows it (R219). -/
def FaultRing.page (r : FaultRing) : List Byte :=
  leBytes 8 r.nextFseq ++ leBytes 4 r.opened.length ++ leBytes 4 r.lost ++ zeros 48 ++
    (List.range 63).flatMap fun i => match Kv.get (i + 1) r.slots with
      | some f => f.bytes
      | none => zeros 64

/-! ### Failure events (R353, R354) -/

/-- Does the table already count an event of this node within 50,000 strokes. -/
def sameEvent (a b : FailEvent) : Bool :=
  decide (a.node = b.node) && decide (a.stroke < b.stroke + 50000) && decide (b.stroke < a.stroke + 50000)

/-- An event enters the kept events: counted once, the oldest dropped with a log entry when the table is full (R354). -/
def State.keepEvent (s : State) (e : FailEvent) : State :=
  if s.bus.events.any (sameEvent e) then s
  else
    let full := decide (1024 ≤ s.bus.events.length)
    let s : State := { s with
      bus := { s.bus with events := e :: (if full then s.bus.events.dropLast else s.bus.events) }
      ctxs := s.ctxs.map fun x => (x.1, { x.2 with ledger := x.2.ledger.map fun l => { l with stale := true } }) }
    if full then s.logEvent 0x0801 14 0 noContext 0 4 else s

/-- The part records an event of its own (R353). -/
def State.failEvent (s : State) (node cause : Nat) : State :=
  let e : FailEvent := { node := node, stroke := s.strk.now, cause := cause }
  ({ s with bus := { s.bus with own := (e :: s.bus.own).take 8 } } : State).keepEvent e

/-- Count an error of the memory behind a physical address: 0 corrected, 1 uncorrectable (R224, R400). -/
def State.countError (s : State) (pa k : Nat) : State :=
  match s.region pa with
  | .plate site =>
    let n := (s.sites.findIdx? (· = site)).getD 0
    s.updPlate n fun q => { q with counts := q.counts.set (2 + k) (satAdd (q.counts.getD (2 + k) 0) 1 (2 ^ 32 - 1)) }
  | .ddr => bump (2 * (12 + s.channelOf pa) + k)
  | .hbm _ | .reserved _ => bump (2 * stackOf pa + k)
  | _ => s
where
  /-- one more at place i of telemetry set 2, saturating -/
  bump (i : Nat) : State := { s with eccCounts := s.eccCounts.set i (satAdd (s.eccCounts.getD i 0) 1 (2 ^ 32 - 1)) }

/-- An uncorrectable line at physical address pa is counted and enters the trouble log (R224, R225, R400). -/
def State.logMedia (s : State) (n pa : Nat) : State :=
  let idx := match s.region pa with
    | .plate site => (s.sites.findIdx? (· = site)).getD 0
    | .ddr => s.channelOf pa
    | _ => stackOf pa
  ((s.countError pa 1).logEvent 0x0201 15 idx n 0 pa).failEvent s.fabric.node 3

/-- The uncorrectable table entry on the path of va from a table, below the levels left (R225). -/
def State.badTableFrom (s : State) (va table : Nat) : List Nat → Option Nat
  | [] =>
    let i := bitsOf va 20 12
    [table + i / 16 * 16 * 8, table + i * 8].find? fun a => s.mem.bad a 8
  | h :: t =>
    let a := table + bitsOf va h (h - 8) * 8
    if s.mem.bad a 8 then some a else s.badTableFrom va (pteAddr (leNat (s.mem.readBytes a 8))) t

/-- The uncorrectable table entry at which the walk of va in context n stops, if it does (R225). -/
def State.badTable (s : State) (n va : Nat) : Option Nat :=
  match Kv.get n s.ctxs with
  | some c => if s.translate n [] va matches .error .media then s.badTableFrom va c.root [47, 38, 29] else none
  | none => none

/-- Write a fault record and raise the fault interrupt (R219, R441, R442); OWNER, TABLE, PIN and MEDIA also enter the
trouble log (R218); so does the address of an uncorrectable table entry (R219, R225). -/
def State.faultRecord (s : State) (n : Nat) (f : FaultRecord) : State :=
  let (ns, s) := s.drawNs
  let f := { f with stroke := s.strk.now, ns := ns }
  let fseq := match Kv.get n s.ctxs with
    | some c => c.ring.nextFseq
    | none => 0
  let s := s.updCtx n fun c => { c with
    ring := c.ring.add f, counts := c.counts.set 3 (satAdd (c.counts.getD 3 0) 1 (2 ^ 32 - 1)) }
  let s := { s with host := { s.host with
    faultSummary := if n ∈ s.host.faultSummary then s.host.faultSummary else n :: s.host.faultSummary } }
  let s := if f.kind = .owner ∨ f.kind = .table ∨ f.kind = .pin ∨ f.kind = .media then
      s.logEvent 0x0202 f.engine 0 n f.kind.code fseq else s
  let s := if s.host.faultEn then s.raise s.host.faultVec else s
  match s.badTable n f.va with
  | some pa => if f.kind = .media then s.logMedia n pa else s
  | none => s

end Sys2Proof.Machine
end

