-- ==== Sys2Proof/Machine/Operands.lean ====
section
/-! DEFINITION. Operands: the fields of a command packet (R159, R160, R168, R179, R181), descriptors (R81, R82, R84 to
R87, R96), and the reading and writing of tensors through them. -/

namespace Sys2Proof

/-! ### Packet fields (R159) -/

/-- The little-endian field of n bytes at packet offset o; bytes beyond the packet read 0. -/
def Packet.at (p : Packet) (o n : Nat) : Nat := leNat ((p.bytes.drop o).take n)
/-- OPCODE. -/
def Packet.opcode (p : Packet) : Nat := p.at 0 2
/-- FLAGS. -/
def Packet.flags (p : Packet) : Nat := p.at 2 1
/-- VERSION. -/
def Packet.version (p : Packet) : Nat := p.at 3 1
/-- LENGTH. -/
def Packet.length (p : Packet) : Nat := p.at 4 2
/-- INLINE. -/
def Packet.inlineLen (p : Packet) : Nat := p.at 6 2
/-- SEQ. -/
def Packet.seq (p : Packet) : Nat := p.at 8 8
/-- CONTEXT. -/
def Packet.context (p : Packet) : Nat := p.at 16 2
/-- QUEUE. -/
def Packet.queueField (p : Packet) : Nat := p.at 18 2
/-- BUDGET. -/
def Packet.budget (p : Packet) : Nat := p.at 20 4
/-- WAIT. -/
def Packet.wait (p : Packet) : Nat := p.at 24 8
/-- SIGNAL. -/
def Packet.signal (p : Packet) : Nat := p.at 32 8
/-- COMPLETION TAG. -/
def Packet.tag (p : Packet) : Nat := p.at 40 8
/-- GROUP_END. -/
def Packet.groupEnd (p : Packet) : Bool := bitOf p.flags 0
/-- FENCE. -/
def Packet.fence (p : Packet) : Bool := bitOf p.flags 1
/-- GLOBAL. -/
def Packet.global (p : Packet) : Bool := bitOf p.flags 2
/-- QUIET. -/
def Packet.quietFlag (p : Packet) : Bool := bitOf p.flags 3
/-- INTERRUPT. -/
def Packet.interrupt (p : Packet) : Bool := bitOf p.flags 4
/-- A parameter field: offsets count from byte 64 (R179). -/
def Packet.par (p : Packet) (o n : Nat) : Nat := p.at (64 + o) n
/-- The lowest nonzero byte of [lo, hi) of a record, as an offset (R6). -/
def firstNonzero (bs : List Byte) (lo hi : Nat) : Option Nat := (((bs.drop lo).take (hi - lo)).findIdx? (· ≠ 0)).map (lo + ·)
/-- The parameter block as an opcode's p bytes lay it out. -/
def Packet.params (p : Packet) (n : Nat) : List Byte := (p.bytes.drop 64).take n
/-- The inline payload after a parameter block of n bytes (R160). -/
def Packet.payload (p : Packet) (n : Nat) : List Byte := (p.bytes.drop (64 + n)).take p.inlineLen
/-- A wait's or signal's OPERAND (R168). -/
def inkOperand (f : Nat) : Nat := bitsOf f 63 48
/-- A wait's or signal's word address (R168). -/
def inkWord (f : Nat) : Nat := bitsOf f 47 3 * 8
/-- A wait's or signal's KIND (R168). -/
def inkKind (f : Nat) : Nat := bitsOf f 2 0

namespace Machine

/-- A command's packet. -/
def Cmd.pkt (c : Cmd) : Packet := { queue := c.queue, bytes := c.bytes }

/-! ### Descriptors (R81) -/

/-- A record field. -/
def Desc.fld (d : Desc) (o n : Nat) : Nat := leNat ((d.record.drop o).take n)
/-- BASE. -/
def Desc.base (d : Desc) : Nat := d.fld 0 8
/-- FORMAT; every live descriptor has one (R81). -/
def Desc.fmt (d : Desc) : Fmt := (Fmt.ofCode (d.fld 8 1)).getD .int8
/-- LAYOUT: 0 LINEAR, 1 PANEL, 2 TILE. -/
def Desc.layout (d : Desc) : Nat := d.fld 9 1 % 4
/-- BLOCK in elements, 0 for none. -/
def Desc.block (d : Desc) : Nat := match d.fld 10 1 % 8 with
  | 1 => 16 | 2 => 32 | 3 => 64 | 4 => 128 | _ => 0
/-- RANK. -/
def Desc.rank (d : Desc) : Nat := d.fld 11 1 % 4 + 1
/-- BLOCK_AXIS. -/
def Desc.axis (d : Desc) : Nat := d.fld 11 1 / 4 % 4
/-- READ. -/
def Desc.canRead (d : Desc) : Bool := bitOf (d.fld 12 1) 0
/-- WRITE. -/
def Desc.canWrite (d : Desc) : Bool := bitOf (d.fld 12 1) 1
/-- SHAPE below the rank. -/
def Desc.shape (d : Desc) : List Nat := (List.range d.rank).map fun i => d.fld (16 + 4 * i) 4
/-- STRIDE of dimension i in bytes. -/
def Desc.stride (d : Desc) (i : Nat) : Nat := d.fld (32 + 4 * i) 4 * 16
/-- PAD counts: low and high of dimension rank − 2, then low and high of dimension rank − 1. -/
def Desc.pads (d : Desc) : List Nat := (List.range 4).map fun i => d.fld (44 + 2 * i) 2
/-- PAD_VALUE as a value (R81: exactly representable in the format). -/
def Desc.padValue (d : Desc) : FV := decodeIeee .fp32 (d.fld 52 4)
/-- SCALE_BASE. -/
def Desc.scaleBase (d : Desc) : Nat := d.fld 56 8

/-- Product of a list. -/
def prodN (l : List Nat) : Nat := l.foldl (· * ·) 1

/-- Row-major position of idx in a shape. -/
def flatIdx : List Nat → List Nat → Nat
  | [], _ => 0
  | _ :: ss, i :: is => i * prodN ss + flatIdx ss is
  | _ :: _, [] => 0

/-- The index at row-major position n of a shape. -/
def unflat (shape : List Nat) (n : Nat) : List Nat :=
  match shape with
  | [] => []
  | _ :: ss => (n / prodN ss) :: unflat ss (n % prodN ss)

/-- Elements of a descriptor's stored shape. -/
def Desc.count (d : Desc) : Nat := prodN d.shape

/-- Elements per panel (R85). -/
def Desc.panelElems (d : Desc) : Nat := if d.fmt.isBlock then 64 * d.block else 16384 / d.fmt.width

/-- Bytes per panel (R85). -/
def Desc.panelBytes (d : Desc) : Nat := if d.fmt.isBlock then 64 + 64 * (d.block * d.fmt.width / 8) else 2048

/-- A list with its n-th entry removed. -/
def dropAt (n : Nat) (l : List Nat) : List Nat := l.take n ++ l.drop (n + 1)

/-- Span in bytes of dimensions k on of a LINEAR descriptor (R82). -/
def Desc.spanFrom (d : Desc) : Nat → Nat → Nat
  | 0, k => ceilDiv ((d.shape.getD k 1) * d.fmt.width) 8
  | n + 1, k => ((d.shape.getD k 1) - 1) * d.stride k + Desc.spanFrom d n (k + 1)

/-- The extent of R82 in bytes. -/
def Desc.extent (d : Desc) : Nat :=
  let sh := d.shape
  match d.layout with
  | 0 => d.spanFrom (d.rank - 1) 0
  | 1 => prodN (dropAt d.axis sh) * ceilDiv (sh.getD d.axis 1) d.panelElems * d.panelBytes
  | _ => prodN (sh.take (d.rank - 2)) * ceilDiv (sh.getD (d.rank - 2) 1) 128 * ceilDiv (sh.getD (d.rank - 1) 1) 128 *
      16384 * d.fmt.width / 8

/-- Bytes of the separate scale array: one per block of a LINEAR block format (R82). -/
def Desc.scaleBytes (d : Desc) : Nat :=
  if d.layout = 0 ∧ d.fmt.isBlock then prodN (d.shape.set d.axis (ceilDiv (d.shape.getD d.axis 1) d.block)) else 0

/-- The byte ranges a descriptor covers: its extent and its scale array (R166). -/
def Desc.ranges (d : Desc) : List (Nat × Nat) :=
  (d.base, d.extent) :: (if d.scaleBytes = 0 then [] else [(d.scaleBase, d.scaleBytes)])

/-- Where the element at a stored index lies: the address of its first bit, and its scale byte where it has one
(R84 to R87). -/
def Desc.locate (d : Desc) (idx : List Nat) : Nat × Option Nat :=
  let w := d.fmt.width
  match d.layout with
  | 0 =>
    let off := ((List.range (d.rank - 1)).map fun i => idx.getD i 0 * d.stride i).foldl (· + ·) 0
    ((d.base + off) * 8 + idx.getD (d.rank - 1) 0 * w,
      if d.fmt.isBlock then
        some (d.scaleBase + flatIdx (d.shape.set d.axis (ceilDiv (d.shape.getD d.axis 1) d.block))
          (idx.set d.axis (idx.getD d.axis 0 / d.block)))
      else none)
  | 1 =>
    let i := idx.getD d.axis 0
    let run := flatIdx (dropAt d.axis d.shape) (dropAt d.axis idx)
    let pa := d.base + (run * ceilDiv (d.shape.getD d.axis 1) d.panelElems + i / d.panelElems) * d.panelBytes
    let k := i % d.panelElems
    if d.fmt.isBlock then
      ((pa + 64 + k / d.block * (d.block * w / 8)) * 8 + k % d.block * w, some (pa + k / d.block))
    else (pa * 8 + k * w, none)
  | _ =>
    let r := idx.getD (d.rank - 2) 0
    let c := idx.getD (d.rank - 1) 0
    let th := ceilDiv (d.shape.getD (d.rank - 2) 1) 128
    let tw := ceilDiv (d.shape.getD (d.rank - 1) 1) 128
    let outer := flatIdx (d.shape.take (d.rank - 2)) (idx.take (d.rank - 2))
    let tile := (outer * th + r / 128) * tw + c / 128
    (d.base * 8 + (tile * 16384 + r % 128 * 128 + c % 128) * w, none)

/-- A 32-bit handle field that names the inline payload (R167). -/
def inlineHandle : Nat := 0xFFFF_FFFF

/-- The descriptor of a handle of context n. -/
def State.desc (s : State) (n h : Nat) : Option Desc := (Kv.get n s.ctxs).bind fun c => Kv.get h c.descs

/-! ### Reading tensors -/

/-- The reader of a command: its context and the epochs bound at its admission (R321). -/
structure View where
  ctx : Nat
  bound : List Bound
deriving DecidableEq, Repr

/-- A command's view. -/
def Cmd.view (s : State) (c : Cmd) : View :=
  { ctx := ((Kv.get c.queue s.queues).map (·.owner)).getD 0, bound := c.bound }

/-- w bits at a bit address of virtual memory, least significant first (R87). -/
def State.vbits (s : State) (v : View) (bit w : Nat) : Nat :=
  let o := bit % 8
  leNat (s.vread v.ctx v.bound (bit / 8) ((o + w + 7) / 8)) / 2 ^ o % 2 ^ w

/-- An index that lies in the low or high padding of the two innermost dimensions, and the stored index otherwise (R96). -/
def Desc.unpad (d : Desc) (idx : List Nat) : Option (List Nat) :=
  let p := d.pads
  let k := d.rank
  let sub (i lo : Nat) (l : List Nat) : Option (List Nat) :=
    let x := l.getD i 0
    if lo ≤ x ∧ x < lo + d.shape.getD i 0 then some (l.set i (x - lo)) else none
  if k ≥ 2 then (sub (k - 2) (p.getD 0 0) idx).bind (sub (k - 1) (p.getD 2 0))
  else sub 0 (p.getD 2 0) idx

/-- The padded shape (R96). -/
def Desc.paddedShape (d : Desc) : List Nat :=
  let p := d.pads
  let k := d.rank
  let sh := d.shape.set (k - 1) (d.shape.getD (k - 1) 0 + p.getD 2 0 + p.getD 3 0)
  if k ≥ 2 then sh.set (k - 2) (sh.getD (k - 2) 0 + p.getD 0 0 + p.getD 1 0) else sh

/-- The stored code and scale code of a stored element. -/
def State.elemCode (s : State) (v : View) (d : Desc) (idx : List Nat) : Nat × Nat :=
  let (bit, sc) := d.locate idx
  (s.vbits v bit d.fmt.width, match sc with
    | some a => (s.vbyte v.ctx v.bound a).toNat
    | none => 127)

/-- A code as a value: integers exactly (R32), floats under R24 and R28. -/
def codeValue (f : Fmt) (scale code : Nat) : FV :=
  if f.isInt then FV.ofInt (sext f.width code) else if f.isIeee then decodeIeee f code else decodeElem f scale code

/-- The value at a stored index. -/
def State.elem (s : State) (v : View) (d : Desc) (idx : List Nat) : FV :=
  let (code, sc) := s.elemCode v d idx
  codeValue d.fmt sc code

/-- The integer that an integral value holds. -/
def fvInt : FV → Int
  | .num s m e => signed s (if 0 ≤ e then m * 2 ^ e.toNat else m / 2 ^ (-e).toNat)
  | _ => 0

/-- The code of a padding element (R81: PAD_VALUE is exactly representable, and ±0 in a block format). -/
def Desc.padCode (d : Desc) : Nat :=
  if d.fmt.isInt then twos d.fmt.width (fvInt d.padValue)
  else if d.fmt.isIeee then encodeExact d.fmt d.padValue else b2n d.padValue.neg * 2 ^ (d.fmt.width - 1)

/-- The code and scale code at a logical index over the padded shape (R96). -/
def State.padElemCode (s : State) (v : View) (d : Desc) (idx : List Nat) : Nat × Nat :=
  match d.unpad idx with
  | some i => s.elemCode v d i
  | none => (d.padCode, 127)

/-- The value at a logical index over the padded shape (R96). -/
def State.padElem (s : State) (v : View) (d : Desc) (idx : List Nat) : FV :=
  match d.unpad idx with
  | some i => s.elem v d i
  | none => d.padValue

/-- A BFX32 block of a LINEAR descriptor (R34, R180). -/
def State.bfxBlock (s : State) (v : View) (d : Desc) (idx : List Nat) : Bfx :=
  Bfx.ofBytes (s.vread v.ctx v.bound ((d.locate idx).1 / 8) 132)

/-- The shape that a reader sees, with BFX32's blocks opened (R96, R453); a descriptor with WRITE has no padding (R81). -/
def Desc.elemShape (d : Desc) : List Nat :=
  if d.fmt = .bfx32 then d.shape.set (d.rank - 1) (d.shape.getD (d.rank - 1) 0 * 32) else d.paddedShape

/-- Elements that a reader sees. -/
def Desc.elemCount (d : Desc) : Nat := prodN d.elemShape

/-- Rows and columns of a tensor flattened to two dimensions (R453). -/
def Desc.grid (d : Desc) : Nat × Nat :=
  let sh := d.elemShape
  (prodN (sh.take (d.rank - 1)), sh.getD (d.rank - 1) 1)

/-- The value at flat position n of the shape that a reader sees; a BFX32 element is its block's (R35, R453). -/
def State.flatElem (s : State) (v : View) (d : Desc) (n : Nat) : FV :=
  if d.fmt = .bfx32 then (s.bfxBlock v d (unflat d.shape (n / 32))).value (n % 32) else s.padElem v d (unflat d.paddedShape n)

/-- The value at grid position (r, c). -/
def State.gridElem (s : State) (v : View) (d : Desc) (r c : Nat) : FV := s.flatElem v d (r * d.grid.2 + c)

/-! ### Writing tensors -/

/-- Write w bits at a bit address: the bytes it shares keep their other bits (R87). -/
def State.putBits (s : State) (v : View) (bit w code : Nat) : State :=
  let o := bit % 8
  let n := (o + w + 7) / 8
  let old := leNat (s.vread v.ctx v.bound (bit / 8) n)
  s.vwrite v.ctx v.bound (bit / 8) (leBytes n (setBits old (o + w - 1) o code))

/-- How a command writes: rounding, NOCLIP, WRAP (R37, R30, R33). -/
structure Modes where
  rounding : RMode
  noclip : Bool
  wrap : Bool
deriving DecidableEq, Repr

/-- The block that a flat position belongs to, as the flat position of its first element (R29, R34). -/
def Desc.blockStart (d : Desc) (flat : Nat) : Nat :=
  if d.fmt = .bfx32 then flat / 32 * 32
  else if d.fmt.isBlock then
    let idx := unflat d.shape flat
    flatIdx d.shape (idx.set d.axis (idx.getD d.axis 0 / d.block * d.block))
  else flat

/-- The flat positions of the block that starts at one, in order, those inside the shape only. -/
def Desc.blockFlats (d : Desc) (start : Nat) : List Nat :=
  if d.fmt = .bfx32 then (List.range 32).map (start + ·)
  else if d.fmt.isBlock then
    let idx := unflat d.shape start
    let i := idx.getD d.axis 0
    (List.range (min d.block (d.shape.getD d.axis 0 - i))).map fun k => flatIdx d.shape (idx.set d.axis (i + k))
  else [start]

/-- Bits that lie beyond the shape behind an element, and are filled with zeros when it is written (R86): up to a LINEAR row's stride, to the
end of a run's last panel, or to the edges of a tile. Each is a bit address and a length. -/
def Desc.edgeRuns (d : Desc) (flat : Nat) : List (Nat × Nat) :=
  let i := if d.fmt = .bfx32 then flat / 32 else flat
  let idx := unflat d.shape i
  let w := d.fmt.width
  let bit := (d.locate idx).1 + w
  let upTo (stop : Nat) : List (Nat × Nat) := if bit < stop then [(bit, stop - bit)] else []
  match d.layout with
  | 0 =>
    let k := d.rank - 1
    if idx.getD k 0 + 1 < d.shape.getD k 0 then []
    else if k = 0 ∨ d.count ≤ i + 1 then upTo (roundUp bit 8)
    else
      let row := (d.locate (idx.set k 0)).1
      upTo (max (roundUp bit 8) (min (row + d.stride (k - 1) * 8) (d.locate (unflat d.shape (i + 1))).1))
  | 1 =>
    if idx.getD d.axis 0 + 1 < d.shape.getD d.axis 0 then []
    else
      let start := idx.set d.axis (idx.getD d.axis 0 / d.panelElems * d.panelElems)
      upTo ((d.locate start).1 + (d.panelBytes - if d.fmt.isBlock then 64 else 0) * 8)
  | _ =>
    let r := idx.getD (d.rank - 2) 0
    let c := idx.getD (d.rank - 1) 0
    let lastCol := decide (d.shape.getD (d.rank - 1) 0 ≤ c + 1)
    let tile := bit - (r % 128 * 128 + c % 128 + 1) * w
    (if lastCol then upTo (tile + (r % 128 + 1) * 128 * w) else []) ++
      (if d.shape.getD (d.rank - 2) 0 ≤ r + 1 ∧ (lastCol ∨ c % 128 = 127) ∧ r % 128 < 127 then
        [(tile + (r % 128 + 1) * 128 * w, (127 - r % 128) * 128 * w)] else [])

/-- Scale bytes of the blocks wholly beyond the shape in a run's last panel, behind the run's last element: they are written 0x7F (R86). -/
def Desc.edgeScales (d : Desc) (flat : Nat) : List Nat :=
  let idx := unflat d.shape flat
  let i := idx.getD d.axis 0
  if d.layout = 1 ∧ d.fmt.isBlock ∧ d.shape.getD d.axis 0 ≤ i + 1 then
    match (d.locate idx).2 with
    | some a => (List.range (63 - i % d.panelElems / d.block)).map fun j => a + 1 + j
    | none => []
  else []

/-- Bytes that the filling behind an element writes. -/
def Desc.edgeBytes (d : Desc) (flat : Nat) : List (Nat × Nat) :=
  ((d.edgeRuns flat).map fun x => (x.1 / 8, (x.1 % 8 + x.2 + 7) / 8)) ++ ((d.edgeScales flat).map fun a => (a, 1))

/-- Fill what storage holds beyond the shape behind an element (R86). -/
def State.fillEdge (s : State) (v : View) (d : Desc) (flat : Nat) : State :=
  let s := (d.edgeRuns flat).foldl (fun (s : State) x => s.putBits v x.1 x.2 0) s
  (d.edgeScales flat).foldl (fun (s : State) a => s.vwrite v.ctx v.bound a [0x7F]) s

/-- The code of one element of an unscaled format, and the counts of its conversion (R31, R33, R41, R42). -/
def putCodeOf (f : Fmt) (m : Modes) (p : Put) : Nat × Counts :=
  match p.code with
  | some c => (c, {})
  | none =>
    if f.isInt then (if p.fromInt then narrowInt m.wrap f.width (fvInt p.val) else floatToInt m.rounding p.draw f.width p.val)
    else
      let (c, u) := encodeIeee f m.rounding p.draw p.val
      (c, { under := b2n u, quieted := b2n p.val.isSnan })

/-- Write one whole block, or one element of an unscaled format: the stored codes and the counts of R31. An NF block of BFX32 counts among the
non-finite blocks: R31 names R30's blocks only, the rest is the model's choice (assumption 147). -/
def State.putBlock (s : State) (v : View) (d : Desc) (m : Modes) (xp : Nat) (ps : List Put) : State × Counts :=
  match ps with
  | [] => (s, {})
  | p :: _ =>
    if d.fmt = .bfx32 then
      let b := bfxEncode m.rounding xp (ps.map fun q => (q.val, q.draw))
      ((s.vwrite v.ctx v.bound ((d.locate (unflat d.shape (p.flat / 32))).1 / 8) b.toBytes).fillEdge v d p.flat,
        { nonfin := b2n b.nf, quieted := (ps.filter (·.val.isSnan)).length })
    else if d.fmt.isBlock then
      let (sc, codes, cnt) := encodeBlock d.fmt m.noclip m.rounding (ps.map fun q => (q.val, q.draw))
      let s := match (d.locate (unflat d.shape p.flat)).2 with
        | some a => s.vwrite v.ctx v.bound a [BitVec.ofNat 8 sc]
        | none => s
      ((ps.zip codes).foldl (fun s x =>
        (s.putBits v (d.locate (unflat d.shape x.1.flat)).1 d.fmt.width x.2).fillEdge v d x.1.flat) s,
        { cnt with quieted := (ps.filter (·.val.isSnan)).length })
    else
      let (code, cnt) := putCodeOf d.fmt m p
      ((s.putBits v (d.locate (unflat d.shape p.flat)).1 d.fmt.width code).fillEdge v d p.flat, cnt)

/-- Write the blocks that are complete among the given elements; the others are carried over. -/
def State.putElems (s : State) (v : View) (d : Desc) (m : Modes) (xp : Nat) (ps : List Put) :
    State × Counts × List Put :=
  let starts := (ps.map fun p => d.blockStart p.flat).eraseDups
  starts.foldl (fun (acc : State × Counts × List Put) st =>
    let mine := ps.filter fun p => d.blockStart p.flat = st
    let flats := d.blockFlats st
    if flats.all fun f => mine.any fun p => p.flat = f then
      let sorted := flats.filterMap fun f => mine.find? fun p => p.flat = f
      let (s, c) := acc.1.putBlock v d m xp sorted
      (s, acc.2.1.add c, acc.2.2)
    else (acc.1, acc.2.1, acc.2.2 ++ mine)) (s, {}, [])

/-- Byte ranges that elements at given flat positions occupy, scales included. -/
def Desc.rangesOf (d : Desc) (flats : List Nat) : List (Nat × Nat) :=
  flats.flatMap fun f =>
    let idx := if d.fmt = .bfx32 then unflat d.shape (f / 32) else unflat d.shape f
    let (bit, sc) := d.locate idx
    (bit / 8, (bit % 8 + d.fmt.width + 7) / 8) :: (match sc with
      | some a => [(a, 1)]
      | none => [])

/-- The same, with what the filling behind them writes (R86). -/
def Desc.writtenOf (d : Desc) (flats : List Nat) : List (Nat × Nat) := d.rangesOf flats ++ flats.flatMap d.edgeBytes

/-- Translate and check every page of several ranges (R83). -/
def State.touchAll (s : State) (v : View) (rs : List (Nat × Nat)) (acc : Acc) (demand : Bool) :
    Except (FaultKind × Nat) State :=
  let pages := (rs.flatMap fun r => (pagesOf r.1 r.2).map fun a => (a / 4096, a)).foldl
    (fun (l : List (Nat × Nat)) x => if l.any fun y => y.1 = x.1 then l else l ++ [x]) []
  pages.foldlM (fun s p => s.touchPage v.ctx v.bound acc demand p.2) s

end Machine

open Machine

/-- The numbering block's modes (R181). -/
def Packet.modes (p : Packet) : Modes :=
  { rounding := (RMode.ofCode (p.par 5 1 % 8)).getD .rne, noclip := bitOf (p.par 5 1) 3, wrap := bitOf (p.par 5 1) 4 }


/-- The SR key of a command (R39, R181). -/
def Packet.key (p : Packet) (seed : Nat) : List Byte := srKey seed (p.par 0 5) (p.par 6 2) (p.par 8 2)


end Sys2Proof
end

