-- ==== Sys2Proof/Machine/Transcendental.lean ====
section
/-! DEFINITION. Transcendental: the reach of Stipple's transcendental operations (R66, R67). The manual fixes their special values and bounds
their error in ulp; the exact functions are enclosed here in fixed point, far below an ulp, so that an open result stays within its bound. -/

namespace Sys2Proof.Machine

/-! ### Fixed point: an integer x stands for x · 2^-512 -/

/-- Fraction bits. -/
def fxBits : Nat := 512

/-- One. -/
def fxOne : Int := 2 ^ fxBits

/-- A finite value in fixed point, rounded toward zero; exact for every FP32 value. -/
def fxOf : FV → Int
  | .num s m e => signed s (if 0 ≤ e + fxBits then m * 2 ^ (e + fxBits).toNat else m / 2 ^ (-(e + fxBits)).toNat)
  | _ => 0

/-- The exact value that a fixed-point number stands for. -/
def fxValue (x : Int) : FV := .num (decide (x < 0)) x.natAbs (-(fxBits : Int))

/-- Product. -/
def fxMul (a b : Int) : Int := a * b / fxOne

/-- Quotient; 0 for a zero divisor. -/
def fxDiv (a b : Int) : Int := a * fxOne / b

/-- Square root of a non-negative number. -/
def fxSqrt (a : Int) : Int := isqrt (a.natAbs * 2 ^ fxBits)

/-- ln 2. -/
def fxLn2 : Int :=
  0xb17217f7d1cf79abc9e3b39803f2f6af40f343267298b62d8a0d175b8baafa2be7b876206debac98559552fb4afa1b10ed2eae35c138214427573b291169b825

/-- π. -/
def fxPi : Int :=
  0x3243f6a8885a308d313198a2e03707344a4093822299f31d0082efa98ec4e6c89452821e638d01377be5466cf34e90c6cc0ac29b7c97c50dd3f84d5b5b5470917

/-- The weighed sum of n terms, each formed from the one before it. -/
def fxSeries (n : Nat) (first : Int) (next : Nat → Int → Int) (weigh : Nat → Int → Int) : Int :=
  ((List.range n).foldl (fun (st : Int × Int) k => (next k st.1, st.2 + weigh k st.1)) (first, 0)).2

/-- e^x; arguments beyond ±1,000, far outside FP32's range, are taken there. -/
def fxExp (x : Int) : Int :=
  let x := clampI x (-1000 * fxOne) (1000 * fxOne)
  let n := x / fxLn2
  let r := x - n * fxLn2
  let t := fxSeries 110 fxOne (fun k u => fxMul u r / ((k : Int) + 1)) (fun _ u => u)
  if 0 ≤ n then t * 2 ^ n.toNat else t / 2 ^ (-n).toNat

/-- ln of a positive finite value: its exponent, and twice the inverse hyperbolic tangent of (f − 1) / (f + 1) for its significand f. -/
def fxLog : FV → Int
  | .num _ m e =>
    let l := Nat.log2 m
    let f : Int := (m : Int) * fxOne / 2 ^ l
    let q := fxDiv (f - fxOne) (f + fxOne)
    let q2 := fxMul q q
    2 * fxSeries 180 q (fun _ u => fxMul u q2) (fun k u => u / (2 * (k : Int) + 1)) + ((l : Int) + e) * fxLn2
  | _ => 0

/-- sin x and cos x. -/
def fxSinCos (x : Int) : Int × Int :=
  let r := x % (2 * fxPi)
  let r2 := fxMul r r
  (fxSeries 90 r (fun k u => -(fxMul u r2) / ((2 * (k : Int) + 2) * (2 * (k : Int) + 3))) (fun _ u => u),
   fxSeries 90 fxOne (fun k u => -(fxMul u r2) / ((2 * (k : Int) + 1) * (2 * (k : Int) + 2))) (fun _ u => u))

/-- erf x; beyond ±11 it is ±1 to far less than an ulp. -/
def fxErf (x : Int) : Int :=
  if x ≥ 11 * fxOne then fxOne
  else if x ≤ -11 * fxOne then -fxOne
  else
    let x2 := fxMul x x
    fxDiv (2 * fxSeries 640 x (fun k u => -(fxMul u x2) / ((k : Int) + 1)) (fun k u => u / (2 * (k : Int) + 1))) (fxSqrt fxPi)

/-- 1 / (1 + e^-x), formed from the exponential of a negative argument. -/
def fxSigmoid (x : Int) : Int :=
  let e := fxExp (if 0 ≤ x then -x else x)
  fxDiv (if 0 ≤ x then fxOne else e) (fxOne + e)

/-- tanh x, formed from the exponential of a negative argument. -/
def fxTanh (x : Int) : Int :=
  let e := fxExp (if 0 ≤ x then -(2 * x) else 2 * x)
  let t := fxDiv (fxOne - e) (fxOne + e)
  if 0 ≤ x then t else -t

/-! ### The operations (R66) -/

/-- The exact function of an operation code at a finite argument inside its domain, to far less than an ulp of its result. GELU_TANH's
0.5 · t · (1 + tanh u) is t · sigmoid (2 u). -/
def transExact (op : Nat) (x : FV) : FV :=
  let t := fxOf x
  match op with
  | 0x07 => (fvDiv (FV.ofInt 1) x).1
  | 0x08 => (fvDiv (FV.ofInt 1) (fvSqrt x).1).1
  | 0x09 => fxValue (fxExp (fxMul (clampI t (-1000 * fxOne) (1000 * fxOne)) fxLn2))
  | 0x0A => fxValue (fxDiv (fxLog x) fxLn2)
  | 0x0B => fxValue (fxExp t)
  | 0x0C => fxValue (fxLog x)
  | 0x0D => fxValue (fxTanh t)
  | 0x0E => fxValue (fxSigmoid t)
  | 0x0F => fxValue (fxErf t)
  | 0x10 => fxValue (fxSinCos t).1
  | 0x11 => fxValue (fxSinCos t).2
  | 0x12 => fxValue (fxMul t (fxSigmoid t))
  | 0x13 =>
    let u := fxMul (fxSqrt (2 * fxDiv fxOne fxPi)) (t + 44715 * fxMul t (fxMul t t) / 1000000)
    fxValue (fxMul t (fxSigmoid (2 * u)))
  | 0x14 => fxValue (fxMul t (fxOne + fxErf (fxDiv t (fxSqrt (2 * fxOne)))) / 2)
  | _ => x

/-- R66's error bound in ulp. -/
def transUlps (op : Nat) : Nat :=
  if 0x07 ≤ op ∧ op ≤ 0x0A then 1 else if op = 0x12 ∨ op = 0x13 then 3 else if op = 0x14 then 4 else 2

/-- The largest error that R66 allows at argument x with exact result y: ulps of an FP32 result, or 2^-22 for SIN and COS beyond 2^20. -/
def transError (op : Nat) (x y : FV) : FV :=
  if (op = 0x10 ∨ op = 0x11) ∧ FV.cmp x.abs (.num false 1 20) = 1 then .num false 1 (-22)
  else match y with
    | .num _ m e => .num false (transUlps op) (if m = 0 then -149 else lastPlace 23 (-149) m e)
    | _ => FV.zero

/-- Does an FP32 value lie within R66's bound of the exact result. -/
def transWithin (op : Nat) (x v : FV) : Bool :=
  let y := transExact op x
  !v.isNan && !v.isInf && decide (FV.cmp (fvSub .rne v y).1.abs (transError op x y) ≤ 0)

/-- A result within the bound: the open one where it is within it, and otherwise the exact result rounded. -/
def transBounded (op : Nat) (x v : FV) : FV :=
  if transWithin op x v then v else roundTo .fp32 .rne (transExact op x)

end Sys2Proof.Machine
end

