-- ==== Sys2Proof/Machine/Stipple.lean ====
section
/-! DEFINITION. Stipple: the epilogue list over one tile (R64 to R69, R74, R188 to R190, R453), its checks, the write stage
with bitmaps and summaries (R75, R76), and the end of a command that carries an epilogue (R77 to R79). -/

namespace Sys2Proof.Machine

/-! ### Entries (R189, R190) -/

/-- An epilogue entry. -/
structure Entry where
  op : Nat
  fmt : Nat
  dst : Nat
  a : Nat
  b : Nat
  c : Nat
  aux : Nat
  rsv : Nat
deriving DecidableEq, Repr

/-- Entry n of an epilogue list. -/
def entryAt (payload : List Byte) (n : Nat) : Entry :=
  let f (i : Nat) : Nat := ((payload.getD (8 * n + i) 0)).toNat
  { op := f 0, fmt := f 1, dst := f 2, a := f 3, b := f 4, c := f 5, aux := f 6, rsv := f 7 }

/-- The arity of an operation; 0 for a code that R190 does not define. -/
def opArity (op : Nat) : Nat :=
  if op ∈ [0x01, 0x02, 0x03, 0x05, 0x15, 0x16, 0x17, 0x18, 0x1D, 0x1E, 0x1F, 0x20, 0x21, 0x22, 0x23, 0x24, 0x25, 0x27] then 2
  else if op ∈ [0x04, 0x1B, 0x1C] then 3
  else if op = 0x06 ∨ (0x07 ≤ op ∧ op ≤ 0x14) ∨ op = 0x19 ∨ op = 0x1A ∨ op = 0x26 ∨ (0x30 ≤ op ∧ op ≤ 0x36) then 1
  else 0

/-- The entry formats that R66 allows an operation. -/
def opFormats (op : Nat) : List Fmt :=
  if op ∈ [0x01, 0x02, 0x03] then [.fp64, .fp32, .bf16, .fp16, .int32]
  else if op = 0x04 then [.fp64, .fp32, .bf16, .fp16]
  else if op = 0x05 ∨ op = 0x06 then [.fp64, .fp32]
  else if 0x07 ≤ op ∧ op ≤ 0x14 then [.fp32, .bf16, .fp16]
  else if 0x15 ≤ op ∧ op ≤ 0x20 then [.fp64, .fp32, .bf16, .fp16, .int32]
  else if 0x21 ≤ op ∧ op ≤ 0x25 then [.int32]
  else if op = 0x26 then [.fp64, .fp32, .bf16, .fp16, .int32]
  else if op = 0x27 then [.fp32, .bf16, .fp16]
  else if 0x30 ≤ op ∧ op ≤ 0x36 then [.fp64, .fp32, .bf16, .fp16, .int32]
  else []

/-- Is the operation a reduction. -/
def isReduction (op : Nat) : Bool := decide (0x30 ≤ op) && decide (op ≤ 0x36)

/-- The cost of an entry (R66, R68). -/
def entryCost (e : Entry) : Nat :=
  let f64 := e.fmt = 0x01
  if e.op ∈ [0x01, 0x02, 0x03, 0x04] then (if f64 then 4 else 1)
  else if e.op = 0x05 ∨ e.op = 0x06 then (if f64 then 16 else 4)
  else if e.op ∈ [0x07, 0x08, 0x09, 0x0A] then 2
  else if 0x0B ≤ e.op ∧ e.op ≤ 0x0F then 3
  else if e.op ∈ [0x10, 0x11, 0x12, 0x13] then 4
  else if e.op = 0x14 then 5
  else if e.op = 0x26 then (if f64 ∨ e.aux = 0x01 then 4 else 1)
  else if f64 then 4 else 1

/-- Format in which an entry leaves its result (R68, R190). -/
def entryResult (e : Entry) : Fmt :=
  if e.op = 0x26 then (Fmt.ofCode e.aux).getD .fp32
  else if e.op = 0x30 ∨ e.op = 0x31 then (if bitOf e.aux 2 then .fp64 else .fp32)
  else (Fmt.ofCode e.fmt).getD .fp32

/-! ### The epilogue block (R188) -/

/-- Offset of the epilogue block in the parameter block: LINEAR 96, STIPPLE 32 (R187, R191). -/
def epilogueBase (op : Nat) : Nat := if op = 0x0301 then 96 else 32

/-- Parameter-block size of a command that carries an epilogue. -/
def epilogueParams (op : Nat) : Nat := if op = 0x0301 then 160 else 96

end Sys2Proof.Machine

namespace Sys2Proof
open Machine

/-- A field of the epilogue block. -/
def Packet.epi (p : Packet) (o n : Nat) : Nat := p.par (epilogueBase p.opcode + o) n


/-- The entries of the list. -/
def Packet.entries (p : Packet) : List Entry :=
  (List.range (p.epi 0 1)).map (entryAt (p.payload (epilogueParams p.opcode)))


/-- Packet offset of entry n, the detail of its failures (R179, R189). -/
def Packet.entryOffset (p : Packet) (n : Nat) : Nat := 64 + epilogueParams p.opcode + 8 * n


/-- Packet offset of an epilogue field. -/
def Packet.epiOffset (p : Packet) (o : Nat) : Nat := 64 + epilogueBase p.opcode + o


/-- The summed cost of the list. -/
def Packet.listCost (p : Packet) : Nat := (p.entries.map entryCost).foldl (· + ·) 0

end Sys2Proof

namespace Sys2Proof.Machine

/-- The rounding of entry n at a conversion point: at a gradient point SR rounds only entry 0 of STORE_TO_OPT (R118). -/
def entryRounding (m : RMode) (point n : Nat) : RMode :=
  if 1 ≤ point ∧ point ≤ 4 then (if point = 3 ∧ n = 0 then .sr else .rne) else m

/-- The rounding of the conversion to an output's format: at a gradient point SR rounds the conversion to BFX32 of ACC_TO_WIRE, and those of
WIRE_TO_STORE and ACT_GRAD (R118). -/
def outRounding (m : RMode) (point : Nat) (out : Fmt) : RMode :=
  if 1 ≤ point ∧ point ≤ 4 then (if point = 3 ∨ (point = 1 ∧ out ≠ .bfx32) then .rne else .sr) else m

/-! ### Special inputs of the transcendental operations (R67) -/

/-- R67's result for a special input: none where the table gives no value. -/
def transSpecial (op : Nat) (x : FV) : Option (FV × Nat) :=
  let one := FV.ofInt 1
  match x with
  | .nan _ _ => some (x.quiet, b2n x.isSnan)
  | .inf s =>
    some (match op with
    | 0x07 => (.num s 0 0, 0)
    | 0x08 => if s then (.qnan, 1) else (FV.zero, 0)
    | 0x09 | 0x0B => if s then (FV.zero, 0) else (.inf false, 0)
    | 0x0A | 0x0C => if s then (.qnan, 1) else (.inf false, 0)
    | 0x0D | 0x0F => ((if s then FV.ofInt (-1) else one), 0)
    | 0x0E => ((if s then FV.zero else one), 0)
    | 0x12 | 0x13 | 0x14 => ((if s then .num true 0 0 else .inf false), 0)
    | _ => (.qnan, 1))
  | .num s m _ =>
    if m = 0 then
      some (match op with
      | 0x07 | 0x08 => (.inf s, 0)
      | 0x09 | 0x0B | 0x11 => (one, 0)
      | 0x0A | 0x0C => (.inf true, 0)
      | 0x0E => (.num false 1 (-1), 0)
      | _ => (x, 0))
    else if s ∧ (op = 0x08 ∨ op = 0x0A ∨ op = 0x0C) then some (.qnan, 1)
    else none

/-- A transcendental operation: R67's special values, and otherwise an open value within R66's error (assumption 3). -/
def transEval (op : Nat) (x : FV) : FV × Nat :=
  match transSpecial op x with
  | some r => r
  | none => (transBounded op x (decodeIeee .fp32
      (Config.transcendental op (BitVec.ofNat 32 (encodeIeee .fp32 .rne 0 x).1)).toNat), 0)

/-! ### One element of one entry -/

/-- What an entry leaves for one element: its code, whether it is a NaN or came from one, invalid operations,
saturations, underflows. -/
structure ElemResult where
  code : Nat
  nan : Bool
  invalid : Nat
  sat : Nat
  under : Nat
deriving DecidableEq, Repr

/-- 1 or 0 of a compare (R190). -/
def boolValue (b : Bool) : FV := FV.ofInt (if b then 1 else 0)

/-- Signalling operands among a list. -/
def snans (l : List FV) : Nat := (l.filter (·.isSnan)).length

/-- The exact value of a float operation and its invalid operations (R66, R44, R190). -/
def floatOp (op : Nat) (m : RMode) (r : Nat) (a b c : FV) : FV × Nat :=
  match op with
  | 0x01 => fvAdd m a b
  | 0x02 => fvSub m a b
  | 0x03 => fvMul a b
  | 0x04 => fvFma m a b c
  | 0x05 => fvDiv a b
  | 0x06 => fvSqrt a
  | 0x15 => fvMaxMin true true a b
  | 0x16 => fvMaxMin false true a b
  | 0x17 => fvMaxMin true false a b
  | 0x18 => fvMaxMin false false a b
  | 0x19 => if a.isNan then (a.quiet, snans [a]) else (a.abs, 0)
  | 0x1A => if a.isNan then (a.quiet, snans [a]) else (a.negate, 0)
  | 0x1B =>
    let (x, i) := fvMaxMin true true a b
    let (y, j) := fvMaxMin false true x c
    (y, i + j)
  | 0x1C => ((if ¬ a.isNan ∧ ¬ a.isZero then b else c).quiet, snans [a, b, c])
  | 0x1D => (boolValue (!a.isNan && !b.isNan && decide (FV.cmp a b = 0)), snans [a, b])
  | 0x1E => (boolValue (!a.isNan && !b.isNan && decide (FV.cmp a b = -1)), snans [a, b])
  | 0x1F => (boolValue (!a.isNan && !b.isNan && decide (FV.cmp a b ≤ 0)), snans [a, b])
  | 0x20 => (boolValue (a.isNan || b.isNan), snans [a, b])
  | 0x27 =>
    ((if ¬ b.isNan ∧ FV.cmp (FV.ofInt r) (fvMul b (FV.ofInt (2 ^ 24))).1 ≥ 0 then a.quiet else FV.zero), snans [a, b])
  | _ => transEval op a

/-- The exact value of an INT32 operation (R66, R190); the shift and logic operations work on the 32 bits. -/
def intOp (op aux : Nat) (a b c : Int) : Int :=
  let u (x : Int) : Nat := twos 32 x
  let n := u b % 32
  match op with
  | 0x01 => a + b
  | 0x02 => a - b
  | 0x03 => a * b
  | 0x15 | 0x17 => max a b
  | 0x16 | 0x18 => min a b
  | 0x19 => if a < 0 then -a else a
  | 0x1A => -a
  | 0x1B => min (max a b) c
  | 0x1C => if a ≠ 0 then b else c
  | 0x1D => if a = b then 1 else 0
  | 0x1E => if a < b then 1 else 0
  | 0x1F => if a ≤ b then 1 else 0
  | 0x21 => sext 32 (u a * 2 ^ n)
  | 0x22 => if bitOf aux 0 then sext 32 (u a / 2 ^ n) else a / 2 ^ n
  | 0x23 => sext 32 (Nat.land (u a) (u b))
  | 0x24 => sext 32 (Nat.lor (u a) (u b))
  | 0x25 => sext 32 (Nat.xor (u a) (u b))
  | _ => 0

/-- A float result in a float format: code, whether it is NaN, and counts. Underflows are counted where the entry is a conversion (R31, R41). -/
def intoFormat (f : Fmt) (m : RMode) (r : Nat) (v : FV) (inv : Nat) (converts : Bool) : ElemResult :=
  let (c, u) := encodeIeee f m r v
  { code := c, nan := v.isNan, invalid := inv, sat := 0, under := b2n (u && converts) }

/-- CONVERT under R41. A NaN converted to an integer format is one invalid operation, signalling or not: the manual does not say whether its
quieting counts beside it (assumption 148). -/
def convertElem (f : Fmt) (m : RMode) (r : Nat) (a : FV) : ElemResult :=
  if f.isInt then
    let (c, k) := floatToInt m r f.width a
    { code := c, nan := false, invalid := k.invalid, sat := k.sat, under := k.under }
  else intoFormat f m r a (snans [a]) true

/-- One element of an element-wise entry. -/
def entryElem (e : Entry) (m : RMode) (wrap : Bool) (r : Nat) (a b c : FV) : ElemResult :=
  let f := (Fmt.ofCode e.fmt).getD .fp32
  if f = .int32 then
    if e.op = 0x26 then convertElem (entryResult e) m r a
    else
      let (code, k) := narrowInt wrap 32 (intOp e.op e.aux (fvInt a) (fvInt b) (fvInt c))
      { code := code, nan := false, invalid := 0, sat := k.sat, under := 0 }
  else if e.op = 0x26 then convertElem (entryResult e) m r a
  else
    let (v, i) := floatOp e.op m r a b c
    intoFormat (entryResult e) m r v i false

/-! ### One tile -/

/-- A tile of a grid: its first row and column, and its size inside the grid (R453). -/
structure TileBox where
  r0 : Nat
  c0 : Nat
  h : Nat
  w : Nat
deriving DecidableEq, Repr

/-- Tile n of a grid, row by row of tiles. -/
def tileBox (rows cols n : Nat) : TileBox :=
  let tw := ceilDiv cols 128
  let r := n / tw * 128
  let c := n % tw * 128
  { r0 := r, c0 := c, h := min 128 (rows - r), w := min 128 (cols - c) }

/-- Tiles of a grid. -/
def tileCount (rows cols : Nat) : Nat := ceilDiv rows 128 * ceilDiv cols 128

/-- What an epilogue reads: the command, its grid, the tile at hand, and the tray's codes (R188, R453). -/
structure EpiEnv where
  view : View
  pkt : Packet
  key : List Byte
  rows : Nat
  cols : Nat
  box : TileBox
  tray : List Nat
  trayInt : Bool
  /-- saturations counted while the tray's codes were accumulated (R31, R33) -/
  traySat : Nat
deriving DecidableEq, Repr

/-- The tile registers of a unit that hold anything (R65). -/
abbrev TileRegs := List (Nat × List RegLayer)

/-- Byte b of a register as one entry left it: none where the entry wrote nothing there. An FP64 tile has rows 0 to 63 in the even register of
its pair and rows 64 to 127 in the odd one; a 16-bit tile fills the first half (R65). -/
def RegLayer.byte? (l : RegLayer) (reg b : Nat) : Option Nat :=
  let n := l.width / 8
  let r := b / n / 128 + (if l.width = 64 then 64 * (reg % 2) else 0)
  let c := b / n % 128
  if r < l.h ∧ c < l.w then some (l.codes.getD (r * l.w + c) 0 / 256 ^ (b % n) % 256) else none

/-- Byte b of a register. -/
def regByte (regs : TileRegs) (reg b : Nat) : Nat :=
  (((Kv.get reg regs).getD []).findSome? fun l => l.byte? reg b).getD (Config.unwrittenByte reg b).toNat

/-- The code of w bits that an entry reads at row r and column c of a register, or of a pair for FP64: the bits that lie there, whatever
entry wrote them (R65, R66). -/
def regCode (regs : TileRegs) (reg w r c : Nat) : Nat :=
  let t := if w = 64 then reg + r / 64 else reg
  let slot := (if w = 64 then r % 64 else r) * 128 + c
  match Kv.get t regs with
  | some (l :: _) =>
    if l.width = w then l.codes.getD (r * l.w + c) 0
    else ((List.range (w / 8)).map fun i => regByte regs t (slot * (w / 8) + i) * 256 ^ i).foldl (· + ·) 0
  | _ => ((List.range (w / 8)).map fun i => regByte regs t (slot * (w / 8) + i) * 256 ^ i).foldl (· + ·) 0

/-- An entry writes its result tile to a register, or to the pair of an FP64 result. -/
def putReg (regs : TileRegs) (reg : Nat) (l : RegLayer) : TileRegs :=
  let put (regs : TileRegs) (t : Nat) : TileRegs := Kv.set t (l :: (Kv.get t regs).getD []) regs
  if l.width = 64 then put (put regs reg) (reg + 1) else put regs reg

/-- The draw of grid element (r, c) (R39, R40). -/
def EpiEnv.drawAt (v : EpiEnv) (i : Nat) : Nat := srDraw v.key (v.pkt.par 10 2) i

/-- A tensor element as an entry of format f reads it: block elements widen to FP32, and BFX32 rounds to FP32 outside
WIRE_TO_STORE, with the element's draw r under SR (R28, R35, R119). -/
def widenFor (f : Fmt) (point : Nat) (m : RMode) (r : Nat) (d : Desc) (x : FV) : FV :=
  if d.fmt.isBlock ∧ f ≠ .fp64 then widenFp32 x
  else if d.fmt = .bfx32 ∧ point ≠ 2 then roundWith .fp32 m r x else x

/-- The value of an entry's source at position k of the tile. -/
def State.epiSource (s : State) (v : EpiEnv) (regs : TileRegs) (m : RMode) (f : Fmt) (src k : Nat) : FV :=
  let r := v.box.r0 + k / v.box.w
  let c := v.box.c0 + k % v.box.w
  let n := v.view.ctx
  let tensor (off : Nat) (g : Desc → FV) : FV :=
    match s.desc n (v.pkt.epi off 4) with
    | some d => widenFor f (v.pkt.par 10 2) m (if d.fmt = .bfx32 ∧ m = .sr then v.drawAt (r * v.cols + c) else 0) d (g d)
    | none => FV.zero
  if src < 16 then
    let code := regCode regs src f.width (k / v.box.w) (k % v.box.w)
    if f = .int32 then FV.ofInt (sext 32 code) else decodeIeee f code
  else if src = 0x10 then
    let code := v.tray.getD k 0
    if f = .int32 then FV.ofInt (sext 32 code) else decodeIeee .fp32 code
  else if src = 0x11 ∨ src = 0x12 then tensor (12 + 4 * (src - 0x11)) fun d => s.gridElem v.view d r c
  else if 0x14 ≤ src ∧ src ≤ 0x17 then
    let i := src - 0x14
    let col := bitOf (v.pkt.epi 3 1) (4 + i)
    tensor (20 + 4 * i) fun d => s.flatElem v.view d (if col then r else c)
  else if 0x18 ≤ src ∧ src ≤ 0x1B then
    let x := v.pkt.epi (44 + 4 * (src - 0x18)) 4
    if f = .int32 then FV.ofInt (sext 32 x) else decodeIeee .fp32 x
  else FV.zero

/-- An element-wise entry over the tile. -/
def State.entryTile (s : State) (v : EpiEnv) (regs : TileRegs) (n : Nat) (e : Entry) : List ElemResult :=
  let f := (Fmt.ofCode e.fmt).getD .fp32
  let m := entryRounding v.pkt.modes.rounding (v.pkt.par 10 2) n
  (List.range (v.box.h * v.box.w)).map fun k =>
    let i := (v.box.r0 + k / v.box.w) * v.cols + v.box.c0 + k % v.box.w
    let x (src : Nat) : FV := s.epiSource v regs m f src k
    entryElem e m v.pkt.modes.wrap (v.drawAt i) (x e.a) (x e.b) (x e.c)

/-- The largest finite magnitude of an IEEE-style format. -/
def maxFinite (f : Fmt) : FV :=
  let (eb, mb, _) := f.params
  decodeIeee f ((2 ^ eb - 2) * 2 ^ mb + (2 ^ mb - 1))

/-- A reduction of one vector within a tile (R68). A zero sum is −0 where every term is −0, or where terms of both signs cancel under RDN; the
squares of SUMSQ are never −0 (R43). The underflow of a sum to zero is no conversion and is not counted (R31, R41). -/
def reduceVec (op : Nat) (f res : Fmt) (m : RMode) (wrap : Bool) (r : Nat) (l : List FV) : ElemResult :=
  if op = 0x30 ∨ op = 0x31 then
    let terms := if op = 0x31 then l.map fun x => if x.isNan then x else (fvMul x x).1 else l
    let t := sumSpecial terms
    let inv := snans l + b2n (t.isNan && !(l.any (·.isNan)))
    let z : Bool := terms.all fun x => x.isZero && x.neg
    let t := if t.isZero then (.num (z || (decide (m = .rdn) && !(terms.all fun x => x.isZero && !x.neg))) 0 0) else t
    let t := if ¬ t.isNan ∧ ¬ t.isInf ∧ FV.cmp t.abs (maxFinite res) = 1 then .inf t.neg else t
    intoFormat res m r t inv false
  else if f = .int32 then
    let step (a b : Int) : Int := if op = 0x34 ∨ op = 0x36 then min a b else max a b
    let xs := l.map fun x => if op = 0x32 then narrowInt wrap 32 (fvInt x).natAbs else (twos 32 (fvInt x), {})
    let v := match xs.map fun x => sext 32 x.1 with
      | [] => 0
      | x :: t => t.foldl step x
    { code := twos 32 v, nan := false, invalid := 0, sat := (xs.map (·.2.sat)).foldl (· + ·) 0, under := 0 }
  else
    let xs := if op = 0x32 then l.map fun x => if x.isNan then x else x.abs else l
    let isMax := decide (op = 0x32) || decide (op = 0x33) || decide (op = 0x35)
    let prop := decide (op ≤ 0x34)
    let v := match xs with
      | [] => FV.zero
      | x :: t => t.foldl (fun a b => (fvMaxMin isMax prop a b).1) x
    intoFormat f m r v.quiet (snans l) false

/-- The vector that a reduction entry forms over the tile: one result for each row (axis 1) or column (axis 2). Under SR a sum draws at its
element of OUT's vector, or, for a tile register, at the first grid element that it is formed from: R40 numbers the elements of a tensor being
written and says nothing of a register (assumption 149). -/
def State.reduceTile (s : State) (v : EpiEnv) (regs : TileRegs) (n : Nat) (e : Entry) : List ElemResult :=
  let f := (Fmt.ofCode e.fmt).getD .fp32
  let m := entryRounding v.pkt.modes.rounding (v.pkt.par 10 2) n
  let row := e.aux % 4 = 1
  (List.range (if row then v.box.h else v.box.w)).map fun i =>
    let ks := if row then (List.range v.box.w).map (i * v.box.w + ·) else (List.range v.box.h).map (· * v.box.w + i)
    let pos := if e.dst = 0x1F then (if row then v.box.r0 + i else v.box.c0 + i)
      else if row then (v.box.r0 + i) * v.cols + v.box.c0 else v.box.r0 * v.cols + v.box.c0 + i
    reduceVec e.op f (entryResult e) m v.pkt.modes.wrap (v.drawAt pos) (ks.map fun k => s.epiSource v regs m f e.a k)

/-- The list's run over one tile: registers, the results of every entry, and the result that OUT takes. -/
structure TileRun where
  regs : TileRegs
  /-- results of each entry: element-wise, or the reduced vector -/
  outs : List (List ElemResult)
deriving DecidableEq, Repr

/-- Run the list over one tile (R74). -/
def State.runList (s : State) (v : EpiEnv) : TileRun :=
  (v.pkt.entries.zipIdx).foldl (fun (t : TileRun) x =>
    let (e, n) := x
    let (res, codes) : List ElemResult × List Nat :=
      if isReduction e.op then
        let vec := s.reduceTile v t.regs n e
        let row := e.aux % 4 = 1
        (vec, (List.range (v.box.h * v.box.w)).map fun k => ((vec[if row then k / v.box.w else k % v.box.w]?).map (·.code)).getD 0)
      else
        let res := s.entryTile v t.regs n e
        (res, res.map (·.code))
    { regs := if e.dst < 16 then
        putReg t.regs e.dst { width := (entryResult e).width, h := v.box.h, w := v.box.w, codes := codes } else t.regs,
      outs := t.outs ++ [res] }) { regs := [], outs := [] }

/-! ### Summary (R76, R77) -/

/-- An exact running sum: a + m · 2^e. -/
def addExact (a : Int × Int) (m e : Int) : Int × Int :=
  if a.1 = 0 then (m, e)
  else
    let k := min a.2 e
    (a.1 * 2 ^ (a.2 - k).toNat + m * 2 ^ (e - k).toNat, k)

/-- Enter one value at the tap. A NaN makes AMAX the canonical quiet NaN: R76 says that it is NaN, and R77 that it does not depend on the order
in which tiles come (assumption 150). -/
def SumState.tap (t : SumState) (x : FV) : SumState :=
  let t := { t with elements := t.elements + 1, amax := if x.isNan ∨ t.amax.isNan then .qnan else (fvMaxMin true true t.amax x.abs).1 }
  match x with
  | .nan _ _ => t
  | .inf _ => { t with infs := t.infs + 1 }
  | .num s m e =>
    let i := signed s m
    { t with
      sum := addExact t.sum i e, sumsq := addExact t.sumsq (i * i) (2 * e),
      zeros := if m = 0 then t.zeros + 1 else t.zeros }

/-- A count as the record shows it (R76). -/
def satCount (n : Nat) : Nat := min n (2 ^ 32 - 1)

/-- An exact sum as FP64 (R77). -/
def exactF64 (a : Int × Int) : Nat := (encodeIeee .fp64 .rne 0 (.num (decide (a.1 < 0)) a.1.natAbs a.2)).1

/-- AMAX as FP32. -/
def SumState.amaxBits (t : SumState) : Nat := (encodeIeee .fp32 .rne 0 t.amax).1

/-- Does the predicate hold (R79). -/
def SumState.holds (t : SumState) (pred thr : Nat) : Bool :=
  let th := decodeIeee .fp32 thr
  let am := decodeIeee .fp32 t.amaxBits
  match pred with
  | 1 => decide (satCount t.nans + satCount t.infs > 0)
  | 2 => am.isNan || decide (FV.cmp am th = 1)
  | 3 => am.isNan || decide (FV.cmp am th = -1)
  | 4 => decide (FV.cmp (FV.ofInt (satCount t.zeros)) (fvMul th (FV.ofInt (satCount t.elements))).1 = 1)
  | _ => false

/-- The summary record's 64 bytes (R76). -/
def SumState.bytes (t : SumState) (tap : Nat) (held : Bool) : List Byte :=
  let cs := [t.elements, t.nans, t.infs, t.zeros, t.invalid, t.sat, t.under, t.nonfin, t.zeroBlocks]
  leBytes 8 (exactF64 t.sum) ++ leBytes 8 (exactF64 t.sumsq) ++ leBytes 4 t.amaxBits ++
    (cs.flatMap fun c => leBytes 4 (satCount c)) ++ leBytes 1 tap ++
    leBytes 1 (2 * b2n (cs.any fun c => decide (c ≥ 2 ^ 32)) + b2n held) ++ Sys2Proof.zeros 6

/-! ### The write stage of one tile (R73, R75) -/

/-- A bucket's XP as a ledger entry records it (R334). -/
def entryXp (entry : List Byte) (layers group bucket : Nat) : Option Nat :=
  let fld (o n : Nat) : Nat := leNat ((entry.drop o).take n)
  ((List.range (fld 152 4)).map fun i => fld (512 + 64 * layers + 4 * i) 4).findSome? fun x =>
    if bitsOf x 31 26 = group ∧ bitsOf x 25 12 = bucket then some (x % 256) else none

/-- The BFX32 exponent of a bucket in a step: a replayed step's ledger entry, else XP_NEXT of the staging table, or
127 + c + M (R294, R295, R336). -/
def State.agreedXp (s : State) (v : View) (step group bucket : Nat) : Nat :=
  let table : Nat := match (Kv.get v.ctx s.ctxs).bind fun c => Kv.get group c.groups with
    | none => 127
    | some g =>
      let x := (s.vbyte v.ctx v.bound (g.staging + 128 + 8 * bucket)).toNat
      if x = 0 then 127 + clog2 g.contributors + g.margin else x
  match (Kv.get v.ctx s.ctxs).bind (·.ledger) with
  | some l =>
    (match l.replay with
     | some r => if r.step = step then (entryXp r.entry l.layers group bucket).getD table else table
     | none => table)
  | none => table

/-- The agreed exponent that an epilogue's IMM3 names (R295). -/
def State.epiXp (s : State) (v : View) (p : Packet) : Nat :=
  let x := p.epi 56 4
  s.agreedXp v (p.par 0 5) (bitsOf x 31 24) (bitsOf x 13 0)

/-- Does a stored element count as zero in a bitmap (R75). -/
def State.storedZero (s : State) (v : View) (d : Desc) (r c : Nat) : Bool :=
  if d.fmt = .bfx32 then (s.gridElem v d r c).isZero
  else
    let (code, sc) := s.elemCode v d (unflat d.shape (r * d.grid.2 + c))
    let x := codeValue d.fmt sc code
    if d.fmt.isBlock ∧ sc = 255 then false else x.isZero

/-- Bytes of one bitmap row for depth k: whole 64-bit words (R56). -/
def bitmapRowBytes (k : Nat) : Nat := ceilDiv (ceilDiv k 128) 64 * 8

/-- Is bit b of row group h set in the bitmap at base (R56). -/
def State.bitmapBit (s : State) (v : View) (base k h b : Nat) : Bool :=
  bitOf (s.vbyte v.ctx v.bound (base + h * bitmapRowBytes k + b / 8)).toNat (b % 8)

/-- Set or clear bit b of row group h. -/
def State.setBitmapBit (s : State) (v : View) (base k h b : Nat) (on : Bool) : State :=
  let a := base + h * bitmapRowBytes k + b / 8
  let old := (s.vbyte v.ctx v.bound a).toNat
  s.vwrite v.ctx v.bound a [BitVec.ofNat 8 (setBits old (b % 8) (b % 8) (b2n on))]

/-- Write the bit of a block; the last block of a row group brings the zeros that pad the group to whole words (R56). -/
def State.markBlock (s : State) (v : View) (base k h b : Nat) (on : Bool) : State :=
  let n := ceilDiv k 128
  let s := s.setBitmapBit v base k h b on
  if b + 1 = n then (List.range (64 * ceilDiv n 64 - n)).foldl (fun (s : State) i => s.setBitmapBit v base k h (n + i) false) s else s

/-- Write the 16 bits that a tile decides and count those set (R75). -/
def State.tileBitmap (s : State) (v : View) (d bm : Desc) (box : TileBox) (transposed : Bool) : State × Nat :=
  let (rows, cols) := d.grid
  (List.range 16).foldl (fun (acc : State × Nat) i =>
    let s := acc.1
    let (h, b, k, rs, cs) :=
      if transposed then (box.c0 / 8 + i, box.r0 / 128, rows, (box.r0, 128), (box.c0 + 8 * i, 8))
      else (box.r0 / 8 + i, box.c0 / 128, cols, (box.r0 + 8 * i, 8), (box.c0, 128))
    if (if transposed then decide (8 * h ≥ cols) else decide (8 * h ≥ rows)) then acc
    else
      let zero := (List.range rs.2).all fun x => (List.range cs.2).all fun y =>
        decide (rs.1 + x ≥ rows) || decide (cs.1 + y ≥ cols) || s.storedZero v d (rs.1 + x) (cs.1 + y)
      (s.markBlock v bm.base k h b zero, acc.2 + b2n zero)) (s, 0)

/-- What OUT takes at position k of the tile: the value before its conversion, whether it is an integer's, and, where an empty list stores an
unscaled element in its own format, the code itself, which nothing changes (R74). -/
def State.outValue (s : State) (v : EpiEnv) (out : Desc) (t : TileRun) (k : Nat) : FV × Bool × Option Nat :=
  let m := outRounding v.pkt.modes.rounding (v.pkt.par 10 2) out.fmt
  let typed (f : Fmt) (code : Nat) : FV × Bool := if f = .int32 then (FV.ofInt (sext 32 code), true) else (decodeIeee f code, false)
  match v.pkt.entries.getLast?, t.outs.getLast? with
  | some e, some res =>
    let (x, i) := typed (entryResult e) (((res[k]?).map (·.code)).getD 0)
    (x, i, none)
  | _, _ =>
    if v.pkt.opcode = 0x0301 then
      let f : Fmt := if v.trayInt then .int32 else .fp32
      let code := v.tray.getD k 0
      let (x, i) := typed f code
      (x, i, if out.fmt = f then some code else none)
    else
      match s.desc v.view.ctx (v.pkt.epi 12 4) with
      | some d =>
        let r := v.box.r0 + k / v.box.w
        let c := v.box.c0 + k % v.box.w
        let x := s.gridElem v.view d r c
        let draw := if d.fmt = .bfx32 ∧ m = .sr then v.drawAt (r * v.cols + c) else 0
        (widenFor .fp32 (v.pkt.par 10 2) m draw d x, d.fmt.isInt,
          if out.fmt = d.fmt ∧ ¬ d.fmt.isBlock ∧ d.fmt ≠ .bfx32 then
            some (s.padElemCode v.view d (unflat d.paddedShape (r * d.grid.2 + c))).1 else none)
      | none => (FV.zero, false, none)

/-- Did any block element or BFX32 element that entry sources read decode to NaN at position k (R76). -/
def State.readNan (s : State) (v : EpiEnv) (k : Nat) : Bool :=
  let r := v.box.r0 + k / v.box.w
  let c := v.box.c0 + k % v.box.w
  let chk (off : Nat) (col : Option Bool) : Bool :=
    match s.desc v.view.ctx (v.pkt.epi off 4) with
    | some d =>
      (d.fmt.isBlock || decide (d.fmt = .bfx32)) && (match col with
       | none => s.gridElem v.view d r c
       | some b => s.flatElem v.view d (if b then r else c)).isNan
    | none => false
  let used (code : Nat) : Bool := v.pkt.entries.any fun e => e.a = code || e.b = code || e.c = code
  (chk 12 none && (used 0x11 || v.pkt.opcode = 0x0302 && v.pkt.entries.isEmpty)) || (chk 16 none && used 0x12) ||
    ((List.range 4).any fun i => chk (20 + 4 * i) (some (bitOf (v.pkt.epi 3 1) (4 + i))) && used (0x14 + i))

/-- Does a tile hold a grid element by its flat position. -/
def TileBox.holds (b : TileBox) (cols flat : Nat) : Bool :=
  decide (b.r0 ≤ flat / cols) && decide (flat / cols < b.r0 + b.h) && decide (b.c0 ≤ flat % cols) && decide (flat % cols < b.c0 + b.w)

/-- Write the bitmap bits of tiles, and count those set (R75). -/
def State.markTiles (s : State) (v : View) (d bm : Desc) (transposed : Bool) (rows cols : Nat) (tiles : List Nat) : State × Nat :=
  tiles.foldl (fun (acc : State × Nat) i =>
    let (s, n) := acc.1.tileBitmap v d bm (tileBox rows cols i) transposed
    (s, acc.2 + n)) (s, 0)

/-- The values that entry n writes (R74). -/
def tapOf (p : Packet) (t : TileRun) (n : Nat) : List FV :=
  match p.entries[n]?, t.outs[n]? with
  | some e, some res => res.map fun x => if entryResult e = .int32 then FV.ofInt (sext 32 x.code) else decodeIeee (entryResult e) x.code
  | _, _ => []

/-- Does a list end in a reduction. -/
def endsInReduction (p : Packet) : Bool := (p.entries.getLast?).any fun e => isReduction e.op

/-- Does the summary read what OUT takes: by the tap OUT, or by that of a final reduction (R68, R74). -/
def tapsOut (p : Packet) : Bool := decide (p.epi 1 1 = 0xFF) || (endsInReduction p && decide (p.epi 1 1 + 1 = p.epi 0 1))

/-- One tile leaves the write stage after its list has run: the output and its bitmap bits are written, and the summary takes the tile (R70,
R73, R75, R76). An element of an output block that crosses into another tile is written, marked and summarised with that block. -/
def State.writeTile (s : State) (v : EpiEnv) (t : TileRun) (index : Nat) (w : TileWork) : State × TileWork :=
  let p := v.pkt
  let n := v.box.h * v.box.w
  let elemNan (k : Nat) : Bool := s.readNan v k || ((p.entries.zip t.outs).any fun x =>
    if isReduction x.1.op then ((x.2[if x.1.aux % 4 = 1 then k / v.box.w else k % v.box.w]?).map (·.nan)).getD false
    else ((x.2[k]?).map (·.nan)).getD false)
  let opNans := (List.range n).filter elemNan
  let flatOf (k : Nat) : Nat := (v.box.r0 + k / v.box.w) * v.cols + v.box.c0 + k % v.box.w
  let all := t.outs.flatMap id
  let sums := { w.sums with
    invalid := w.sums.invalid + (all.map (·.invalid)).foldl (· + ·) 0,
    sat := w.sums.sat + v.traySat + (all.map (·.sat)).foldl (· + ·) 0,
    under := w.sums.under + (all.map (·.under)).foldl (· + ·) 0 }
  let sums := if tapsOut p then sums else (tapOf p t (p.epi 1 1)).foldl SumState.tap sums
  let w := { w with written := index :: w.written, sums := sums }
  if endsInReduction p then
    let row := (p.entries.getLast?).any fun e => decide (e.aux % 4 = 1)
    let lines := opNans.map fun k => if row then v.box.r0 + k / v.box.w else v.box.c0 + k % v.box.w
    (s, { w with
      partials := Kv.set index (((t.outs.getLast?).getD []).map (·.code)) w.partials
      nanLines := (lines ++ w.nanLines).eraseDups })
  else
    match s.desc v.view.ctx (p.epi 8 4) with
    | none => (s, w)
    | some d =>
      let m := { p.modes with rounding := outRounding p.modes.rounding (p.par 10 2) d.fmt }
      let puts : List Put := (List.range n).map fun k =>
        let (x, isI, code) := s.outValue v d t k
        { flat := flatOf k, val := x, draw := v.drawAt (flatOf k), fromInt := isI, code := code }
      let given := w.carry ++ puts
      let nanFlats := opNans.map flatOf ++ w.carryNans
      let (s1, cnt, rest) := s.putElems v.view d m (s.epiXp v.view p) given
      let done := (given.map (·.flat)).filter fun f => !rest.any fun x => decide (x.flat = f)
      let stored (f : Nat) : FV := s1.flatElem v.view d f
      let nans := (done.filter fun f => decide (f ∈ nanFlats) || (stored f).isNan).length
      let sums := if tapsOut p then (done.map stored).foldl SumState.tap sums else sums
      let (ready, waits) := (index :: w.unmarked).partition fun i =>
        !rest.any fun x => (tileBox v.rows v.cols i).holds v.cols x.flat
      let (s2, zb) := match s.desc v.view.ctx (p.epi 36 4) with
        | some bm => s1.markTiles v.view d bm (bitOf (p.epi 3 1) 1) v.rows v.cols ready
        | none => (s1, 0)
      (s2, { w with
        carry := rest, carryNans := nanFlats.filter fun f => rest.any fun x => decide (x.flat = f), unmarked := waits
        sums := { sums with
          nans := sums.nans + nans, sat := sums.sat + cnt.sat, under := sums.under + cnt.under, nonfin := sums.nonfin + cnt.nonfin
          invalid := sums.invalid + cnt.invalid + cnt.quieted, zeroBlocks := sums.zeroBlocks + zb } })

/-! ### The end of a command with an epilogue (R69, R76 to R79) -/

/-- Combine the per-tile partial vectors of a final reduction in ascending block index: the codes, each with its invalid operations (R69). -/
def combinePartials (e : Entry) (m : RMode) (key : List Byte) (point rows cols : Nat) (ps : List (Nat × List Nat)) :
    List (Nat × Nat) :=
  let f := entryResult e
  let row := e.aux % 4 = 1
  let tw := ceilDiv cols 128
  let th := ceilDiv rows 128
  let dec (c : Nat) : FV := if f = .int32 then FV.ofInt (sext 32 c) else decodeIeee f c
  let enc (r : Nat) (x : FV) : Nat := if f = .int32 then twos 32 (fvInt x) else (encodeIeee f m r x).1
  (List.range (if row then rows else cols)).map fun i =>
    let parts := (List.range (if row then tw else th)).map fun j =>
      let tile := if row then i / 128 * tw + j else j * tw + i / 128
      dec (((Kv.get tile ps).getD []).getD (i % 128) 0)
    match parts with
    | [] => (0, 0)
    | x :: t => t.foldl (fun a b =>
        if e.op = 0x30 ∨ e.op = 0x31 then
          let (y, k) := fvAdd m (dec a.1) b
          (enc (srDraw key point i) y, a.2 + k)
        else (enc 0 (fvMaxMin (decide (e.op = 0x32) || decide (e.op = 0x33) || decide (e.op = 0x35))
          (decide (e.op ≤ 0x34)) (dec a.1) b).1, a.2)) (enc 0 x, 0)

/-- A WIRE_TO_STORE summary enters its layer's statistics: the largest AMAX, and the sums of the counts (R125). -/
def State.layerStat (s : State) (n step layer : Nat) (w : SumState) : State :=
  let add (c : Ctx) : Ctx :=
    let old := (c.stats.find? fun x => decide (x.step = step ∧ x.layer = layer)).getD
      { step := step, layer := layer, amax := 0, under := 0, elements := 0, escaped := 0, summary := false }
    let amax := (encodeIeee .fp32 .rne 0 (fvMaxMin true true (decodeIeee .fp32 old.amax) w.amax).1).1
    let new : LayerStat := { old with amax := amax, under := old.under + w.under, elements := old.elements + w.elements, summary := true }
    { c with stats := new :: c.stats.filter fun x => ¬ (x.step = step ∧ x.layer = layer) }
  s.updCtx n add

/-- Finish a command that carries an epilogue: combine reductions, write OUT's vector and the summary record, settle the
predicate, and form the result words (R69, R76 to R79). -/
def State.finishEpilogue (s : State) (v : View) (p : Packet) (key : List Byte) (rows cols group : Nat) (w : TileWork) :
    State × Ending :=
  let m := entryRounding p.modes.rounding (p.par 10 2) (p.epi 0 1 - 1)
  let (s, sums) : State × SumState := match p.entries.getLast?, s.desc v.ctx (p.epi 8 4) with
    | some e, some d =>
      if isReduction e.op then
        let parts := combinePartials e m key (p.par 10 2) rows cols w.partials
        let codes := parts.map (·.1)
        let s := (codes.zipIdx).foldl (fun s x =>
          (s.putBits v (d.locate (unflat d.shape x.2)).1 d.fmt.width x.1).fillEdge v d x.2) s
        let vals := codes.map fun c => if d.fmt = .int32 then FV.ofInt (sext 32 c) else decodeIeee d.fmt c
        let sums := if tapsOut p then vals.foldl SumState.tap w.sums else w.sums
        let nans := (vals.zipIdx.filter fun x => x.1.isNan || decide (x.2 ∈ w.nanLines)).length
        let (s, zb) := match s.desc v.ctx (p.epi 36 4) with
          | some bm => s.markTiles v d bm (bitOf (p.epi 3 1) 1) d.grid.1 d.grid.2 (List.range (tileCount d.grid.1 d.grid.2))
          | none => (s, 0)
        (s, { sums with
          nans := sums.nans + nans, invalid := sums.invalid + (parts.map (·.2)).foldl (· + ·) 0, zeroBlocks := sums.zeroBlocks + zb })
      else (s, w.sums)
    | _, _ => (s, w.sums)
  let pred := p.epi 2 1
  let held := sums.holds pred (p.epi 4 4)
  let s := match s.desc v.ctx (p.epi 40 4) with
    | some d => s.vwrite v.ctx v.bound d.base (sums.bytes (p.epi 1 1) held)
    | none => s
  let s := if p.par 10 2 = 2 then s.layerStat v.ctx (p.par 0 5) (p.par 6 2) sums else s
  let s := if pred = 0 then s
    else { s with preds := { queue := p.queue, group := group, seq := p.seq, held := held } :: s.preds }
  (s, Ending.ok sums.amaxBits (4 * min sums.nans (2 ^ 30 - 1) + b2n held))

end Sys2Proof.Machine
end

