-- ==== Sys2Proof/Machine/Checks.lean ====
section
/-! DEFINITION. Checks that several commands share: reserved bytes (R6, R179), the numbering block (R181, R118), handles
(R81), plates (R2, R11), and the epilogue block (R74, R188, R189, R453). -/

namespace Sys2Proof.Machine

/-- A check: an ending that refuses, or nothing. -/
abbrev Check := Except Ending Unit

/-- Refuse with e unless c holds. -/
def ensure (c : Bool) (e : Ending) : Check := if c then .ok () else .error e

/-- The ending of a check that fails. -/
def Check.fails (c : Check) : Option Ending :=
  match c with
  | .ok _ => none
  | .error e => some e

/-- Packet bytes [lo, hi] must be zero: BAD_FIELD at the lowest nonzero one (R6, R179). -/
def zeroBytes (p : Packet) (lo hi : Nat) : Check :=
  match ((List.range (hi + 1 - lo)).map (lo + ·)).find? fun i => p.at i 1 ≠ 0 with
  | some i => .error (badField i)
  | none => .ok ()

/-- Fields, each an offset and a size, that the operation does not use must be zero or null: BAD_FIELD at the first that is not (R179). -/
def zeroFields (p : Packet) (fs : List (Nat × Nat)) : Check :=
  match fs.find? fun f => p.at f.1 f.2 ≠ 0 with
  | some f => .error (badField f.1)
  | none => .ok ()

/-- The fields of the adapter block of LINEAR (R187). -/
def adapterFields : List (Nat × Nat) := [112, 116, 120, 124, 128, 132, 136, 140, 144].map (·, 4) ++ [(148, 2)]

/-- The fields of an epilogue block behind LIST_LEN (R188). -/
def epilogueFields (p : Packet) : List (Nat × Nat) :=
  [(1, 1), (2, 1), (3, 1)].map (fun f => (p.epiOffset f.1, f.2)) ++ ((List.range 14).map fun i => (p.epiOffset (4 + 4 * i), 4))

/-- A live handle of context n with the right asked: null fails with BAD_FIELD, a dead handle with ACCESS_DENIED (R81), and a missing right with
the status that the field's row names (R179). -/
def State.needRight (s : State) (n h detail : Nat) (write : Bool) (missing : Status) : Except Ending Desc :=
  if h = 0 ∨ h = inlineHandle then .error (badField detail)
  else match s.desc n h with
    | none => .error (.fail .accessDenied detail)
    | some d => if (if write then d.canWrite else d.canRead) then .ok d else .error (.fail missing detail)

/-- A handle whose row names no status of its own for a missing right: BAD_FIELD (R105, R113, R114, R121, R179). -/
def State.needDesc (s : State) (n h detail : Nat) (write : Bool) : Except Ending Desc := s.needRight n h detail write .badField

/-- The descriptor of a handle that may be null. -/
def State.optDesc (s : State) (n h detail : Nat) (write : Bool) : Except Ending (Option Desc) :=
  if h = 0 then .ok none else (s.needDesc n h detail write).map some

/-- Do two lists of byte ranges overlap. -/
def rangesOverlap (a b : List (Nat × Nat)) : Bool :=
  a.any fun x => b.any fun y => decide (x.1 < y.1 + y.2) && decide (y.1 < x.1 + x.2)

/-- Does a range lie wholly within one allocation of the context. -/
def Ctx.inOneAlloc (c : Ctx) (va n : Nat) : Bool :=
  c.allocs.any fun a => decide (a.base ≤ va) && decide (va + n ≤ a.base + a.size)

/-- An address field that may not name the inline payload (R167). -/
def notInline (p : Packet) (off : Nat) : Check := ensure (decide (p.at off 8 ≠ 2 ^ 64 - 1)) (badField off)

/-- Does a range lie inside allocations of the context, which do not overlap one another (R186, R196). -/
def Ctx.inAllocs (c : Ctx) (va n : Nat) : Bool :=
  decide ((c.allocs.map fun a => min (va + n) (a.base + a.size) - max va a.base).foldl (· + ·) 0 = n)

/-- Is every page of a range pinned (R217). -/
def Ctx.allPinned (c : Ctx) (va n : Nat) : Bool := (pagesOf va n).all fun v => c.pagePinned v

/-- Is every page of a descriptor's ranges pinned. -/
def Ctx.descPinned (c : Ctx) (d : Desc) : Bool := d.ranges.all fun r => c.allPinned r.1 r.2

/-- Is every page of a range present. -/
def State.allPresent (s : State) (v : View) (va n : Nat) : Bool :=
  (pagesOf va n).all fun a => match s.translate v.ctx v.bound a with
    | .ok _ => true
    | .error _ => false

/-- Number of present plates (R2). -/
def State.plateCount (s : State) : Nat := s.sites.length

/-- Does every page of the descriptor that translates lie in the memory of logical plate n (R11, R217). -/
def State.inPlate (s : State) (v : View) (d : Desc) (n : Nat) : Bool :=
  d.ranges.all fun r => (pagesOf r.1 r.2).all fun a => match s.paOf v.ctx v.bound a with
    | some p => decide (s.region p = .plate (s.sites.getD n 16))
    | none => true

/-- The plate of a PLATE field: a logical plate (R2, R179). A command for a plate outside its context's mask waits, since that plate never
goes to the context (R141; assumption 19). -/
def State.checkPlate (s : State) (n detail : Nat) : Check := ensure (decide (n < s.plateCount)) (badField detail)

/-- Is a step being replayed in the context (R336). -/
def Ctx.replays (c : Ctx) (step : Nat) : Bool := decide ((c.ledger.bind (·.replay)).map (·.step) = some step)

/-- Has the command of a packet been admitted: its step is then no longer held against the step in progress (R4). -/
def State.isAdmitted (s : State) (p : Packet) : Bool := (s.findCmd p.queue p.seq).any fun d => decide (d.phase ≠ .visible)

/-- STEP at parameter bytes 0 to 4: not older than the step in progress, unless it is replayed (R4, R336). -/
def State.checkStep (s : State) (c : Ctx) (p : Packet) : Check :=
  ensure (decide (c.step ≤ p.par 0 5) || c.replays (p.par 0 5) || s.isAdmitted p) (.fail .epochStale 64)

/-- A CONTEXT field at parameter byte 0: in the identifier's range, and defined (R4). -/
def State.checkContextField (s : State) (p : Packet) : Check := do
  ensure (decide (p.at 64 2 < 4096)) (badField 64)
  ensure (Kv.has (p.at 64 2) s.ctxs) (.fail .accessDenied 64)

/-- The numbering block (R181, R4, R37, R118). `sr` says whether the command converts or draws. -/
def State.checkNumbering (s : State) (c : Ctx) (p : Packet) (mask : Bool) : Check := do
  s.checkStep c p
  ensure (decide (p.par 5 1 < 32) && ((RMode.ofCode (p.par 5 1 % 8)).isSome)) (badField 69)
  ensure (decide (p.par 6 2 < c.layers)) (badField 70)
  let pt := p.par 10 2
  ensure (!(decide (6 ≤ pt) && decide (pt ≤ 0xFF))) (badField 74)
  ensure (!(decide (1 ≤ pt) && decide (pt ≤ 4)) || decide (p.par 5 1 % 8 = 5)) (badField 69)
  ensure (decide (pt ≠ 0) || (decide (p.par 5 1 % 8 ≠ 5) && !mask)) (badField 74)
  ensure (decide (p.par 12 2 = s.placement)) (.fail .epochStale 76)
  zeroBytes p 78 79

/-! ### Epilogue (R74, R188, R189) -/

/-- Classes of tensor for the entry that reads it (R66). -/
def feedsEntry (d : Desc) (f : Fmt) : Bool :=
  if f = .int32 then d.fmt.isInt else d.fmt.isFloat || decide (d.fmt = .bfx32)

/-- The tensor that a source code names, if it names one: the epilogue-block field. -/
def sourceField (code : Nat) : Option Nat :=
  if code = 0x11 then some 12 else if code = 0x12 then some 16
  else if 0x14 ≤ code ∧ code ≤ 0x17 then some (20 + 4 * (code - 0x14)) else none

/-- One source of an entry: written registers carry their widths; a pair written in FP64 is read by FP64 entries only, and an FP64 entry reads any
written pair (R65, R66, R74, R189). -/
def State.checkSource (s : State) (n : Nat) (p : Packet) (e : Entry) (regs : List (Nat × Nat)) (code : Nat) : Bool :=
  let f := (Fmt.ofCode e.fmt).getD .fp32
  if code < 16 then
    (match Kv.get code regs with
     | none => false
     | some w => if f = .fp64 then decide (code % 2 = 0) && Kv.has (code + 1) regs else decide (w ≠ 64))
  else if code = 0x10 then decide (p.opcode = 0x0301)
  else if 0x18 ≤ code ∧ code ≤ 0x1B then true
  else match sourceField code with
    | none => false
    | some off =>
      match s.desc n (p.epi off 4) with
      | none => false
      | some d => feedsEntry d f && (decide (e.op ≠ 0x26) || decide (d.fmt = f) || (d.fmt.isBlock && decide (f = .fp32)) ||
          (decide (d.fmt = .bfx32) && decide (f = .fp32)) || (d.fmt.isInt && decide (f = .int32)))

/-- One entry of the list; `last` says that it is the last one. -/
def State.checkEntry (s : State) (n : Nat) (p : Packet) (e : Entry) (regs : List (Nat × Nat)) (last : Bool) : Bool :=
  let ar := opArity e.op
  let srcs := [e.a, e.b, e.c]
  decide (ar > 0) &&
  (match Fmt.ofCode e.fmt with
   | none => false
   | some f => decide (f ∈ opFormats e.op)) &&
  decide (e.rsv = 0) &&
  (decide (e.dst < 16) || decide (e.dst = 0x1F)) && (!last || decide (e.dst = 0x1F)) &&
  (decide (e.dst = 0x1F) || decide ((entryResult e).width ≠ 64) || decide (e.dst % 2 = 0)) &&
  ((srcs.take ar).all fun c => s.checkSource n p e regs c) && ((srcs.drop ar).all fun c => decide (c = 0x1F)) &&
  (if e.op = 0x26 then
    (match Fmt.ofCode e.aux with
     | some f => decide (f ∈ [Fmt.fp64, .fp32, .bf16, .fp16, .int32])
     | none => false)
   else if isReduction e.op then
     decide (e.aux < 8) && (decide (e.aux % 4 = 1) || decide (e.aux % 4 = 2)) &&
       (!bitOf e.aux 2 || decide (e.op = 0x30) || decide (e.op = 0x31))
   else if e.op = 0x22 then decide (e.aux < 2)
   else decide (e.aux = 0))

/-- The list, entry by entry: BAD_FIELD naming the first that fails. -/
def State.checkList (s : State) (n : Nat) (p : Packet) : Nat → List Entry → List (Nat × Nat) → Check
  | _, [], _ => .ok ()
  | k, e :: t, regs =>
    if s.checkEntry n p e regs t.isEmpty then
      s.checkList n p (k + 1) t
        (if e.dst < 16 then
          (let w := (entryResult e).width
           let r := Kv.set e.dst w regs
           if w = 64 then Kv.set (e.dst + 1) 64 r else r)
         else regs)
    else .error (badField (p.entryOffset k))

/-- A vector or full-grid output as R453 has it. -/
def checkOutShape (e : Option Entry) (d : Desc) (rows cols : Nat) : Bool :=
  match e with
  | some e =>
    if isReduction e.op then
      decide (d.count = if e.aux % 4 = 1 then rows else cols) && decide (d.fmt = entryResult e)
    else decide (d.grid = (rows, cols))
  | none => decide (d.grid = (rows, cols))

/-- Bytes that a skip bitmap needs for `rows` rows and depth k (R56). -/
def bitmapBytes (rows k : Nat) : Nat := ceilDiv rows 8 * bitmapRowBytes k

/-- The epilogue block over a grid (R74, R188, R453): `earlier` says that an earlier command of the group carries a
predicate. -/
def State.checkEpilogue (s : State) (v : View) (p : Packet) (plate rows cols : Nat) (earlier : Bool) : Check := do
  let n := v.ctx
  let es := p.entries
  ensure (decide (p.inlineLen = 8 * p.epi 0 1)) (.fail .badLength 6)
  ensure (decide (p.epi 0 1 ≤ 32)) (badField (p.epiOffset 0))
  let tap := p.epi 1 1
  ensure (decide (tap = 0xFF) || decide (tap < p.epi 0 1)) (badField (p.epiOffset 1))
  ensure (decide (p.epi 2 1 ≤ 4)) (badField (p.epiOffset 2))
  ensure (decide (bitsOf (p.epi 3 1) 3 2 = 0)) (badField (p.epiOffset 3))
  ensure (!bitOf (p.epi 3 1) 0 || earlier) (badField (p.epiOffset 3))
  let th := decodeIeee .fp32 (p.epi 4 4)
  ensure (if p.epi 2 1 < 2 then decide (p.epi 4 4 = 0)
    else !th.isNan && !th.isInf && decide (FV.cmp th FV.zero = 1) &&
      (decide (p.epi 2 1 ≠ 4) || decide (FV.cmp th (FV.ofInt 1) ≤ 0))) (badField (p.epiOffset 4))
  let out ← s.needDesc n (p.epi 8 4) (p.epiOffset 8) true
  ensure (decide (out.fmt ≠ .e8m0) && checkOutShape es.getLast? out rows cols && s.inPlate v out plate)
    (badField (p.epiOffset 8))
  let used (code : Nat) : Bool := es.any fun e => decide (e.a = code) || decide (e.b = code) || decide (e.c = code)
  let m0 ← s.optDesc n (p.epi 12 4) (p.epiOffset 12) false
  ensure (match m0 with
    | some d => decide (d.grid = (rows, cols)) && s.inPlate v d plate && (used 0x11 || decide (p.opcode = 0x0302))
    | none => true) (badField (p.epiOffset 12))
  let m1 ← s.optDesc n (p.epi 16 4) (p.epiOffset 16) false
  ensure (match m1 with
    | some d => decide (d.grid = (rows, cols)) && s.inPlate v d plate && used 0x12
    | none => true) (badField (p.epiOffset 16))
  for i in [0, 1, 2, 3] do
    let d? ← s.optDesc n (p.epi (20 + 4 * i) 4) (p.epiOffset (20 + 4 * i)) false
    let col := bitOf (p.epi 3 1) (4 + i)
    ensure (match d? with
      | some d => decide (d.elemCount = if col then rows else cols) && s.inPlate v d plate && used (0x14 + i)
      | none => !col) (badField (if d?.isNone then p.epiOffset 3 else p.epiOffset (20 + 4 * i)))
  let bm ← s.optDesc n (p.epi 36 4) (p.epiOffset 36) true
  let tr := bitOf (p.epi 3 1) 1
  ensure (match bm with
    | some d => decide (d.extent ≥ if tr then bitmapBytes out.grid.2 out.grid.1 else bitmapBytes out.grid.1 out.grid.2) && s.inPlate v d plate
    | none => !tr) (badField (if bm.isNone then p.epiOffset 3 else p.epiOffset 36))
  let sm ← s.optDesc n (p.epi 40 4) (p.epiOffset 40) true
  ensure (match sm with
    | some d => decide (d.extent = 64) && decide (d.base % 8 = 0) && s.inPlate v d plate
    | none => true) (badField (p.epiOffset 40))
  if out.fmt = .bfx32 then do
    let x := p.epi 56 4
    ensure (decide (bitsOf x 23 14 = 0) &&
      (((Kv.get n s.ctxs).bind fun c => Kv.get (bitsOf x 31 24) c.groups).isSome)) (badField (p.epiOffset 56))
  zeroBytes p (p.epiOffset 60) (p.epiOffset 63)
  s.checkList n p 0 es []
  ensure (decide (p.par 10 2 ≠ 3) || (match es with
    | e :: _ => decide (e.op = 0x03) && decide (e.fmt = 0x02) &&
        ((decide (e.a = 0x11) && decide (0x18 ≤ e.b) && decide (e.b ≤ 0x1B)) ||
          (decide (e.b = 0x11) && decide (0x18 ≤ e.a) && decide (e.a ≤ 0x1B)))
    | [] => false)) (badField (p.entryOffset 0))

end Sys2Proof.Machine

namespace Sys2Proof
open Machine

/-- Does the list hold a MASK entry (R74). -/
def Packet.hasMask (p : Packet) : Bool := p.entries.any fun e => decide (e.op = 0x27)

end Sys2Proof

namespace Sys2Proof.Machine

end Sys2Proof.Machine
end

