-- ==== Sys2Proof/Machine/Burin.lean ====
section
/-! DEFINITION. Burin: modes and pairing (R45, R46), the value of one output element (R50, R54, R57), the products that a
LINEAR command forms (R117, R121), its checks (R62, R122, R187), and the timing figures of R47 and R63. -/

namespace Sys2Proof.Machine

/-! ### Modes -/

/-- The MACs per cell of a format's own mode, and its rank among the modes (R45). -/
def burinG (f : Fmt) : Nat :=
  match f with
  | .fp32 => 1
  | .bf16 | .fp16 => 4
  | .e2m1 | .int4 => 16
  | _ => 8

/-- g of the mode that two operand formats select, and whether it accumulates integers; none for an illegal pair (R46). -/
def burinMode (a b : Fmt) : Option (Nat × Bool) :=
  if ¬ a.isBurin ∨ ¬ b.isBurin ∨ a.isInt ≠ b.isInt then none
  else if (a = .bf16 ∧ b = .fp16) ∨ (a = .fp16 ∧ b = .bf16) then none
  else some (min (burinG a) (burinG b), a.isInt)

/-- The modes that take 2:4 sparsity (R54), by the formats that select them. -/
def sparseMode (a b : Fmt) : Bool :=
  let ok (f : Fmt) : Bool := decide (f ≠ .fp32) && decide (f ≠ .fp16) && decide (f ≠ .int4)
  match burinMode a b with
  | none => false
  | some (_, true) => decide (a = .int8) || decide (b = .int8)
  | some (_, false) => ok a && ok b

/-! ### Operands -/

/-- An operand as the array reads it: a descriptor, with rows and columns exchanged or not (R53). -/
structure Mat where
  d : Desc
  t : Bool
deriving DecidableEq, Repr

/-- Two entries of a list exchanged at its end: Tracer's transposed read (R88). -/
def swapLast (l : List Nat) : List Nat :=
  match l.reverse with
  | x :: y :: t => (y :: x :: t).reverse
  | _ => l

/-- Rows and columns: the outer dimensions of the padded shape fold into rows (R453's reading of a tensor as a grid), and a transposed read
exchanges rows and columns of that grid (R53). -/
def Mat.dims (m : Mat) : Nat × Nat := if m.t then m.d.grid.swap else m.d.grid

/-- The operand's value at row r and column c. -/
def State.matElem (s : State) (v : View) (m : Mat) (r c : Nat) : FV :=
  s.flatElem v m.d (if m.t then c * m.d.grid.2 + r else r * m.d.grid.2 + c)

/-- A product of R50: its operands, sparsity metadata, skip bitmap and accumulate-in codes. -/
structure Product where
  a : Mat
  w : Mat
  nibbles : Option Desc
  skip : Option Desc
  acc : Nat → Nat → Nat

/-- Contraction depth. -/
def Product.depth (q : Product) : Nat := q.a.dims.2

/-- Rows and columns of the result. -/
def Product.dims (q : Product) : Nat × Nat := (q.a.dims.1, q.w.dims.2)

/-- g, doubled in 2:4 mode (R45, R50). -/
def Product.g (q : Product) : Nat :=
  let g := ((burinMode q.a.d.fmt q.w.d.fmt).map (·.1)).getD 1
  if q.nibbles.isSome then 2 * g else g

/-- Does it accumulate integers. -/
def Product.isInt (q : Product) : Bool := ((burinMode q.a.d.fmt q.w.d.fmt).map (·.2)).getD false

/-- Pass depth. -/
def Product.dp (q : Product) : Nat := 128 * q.g

/-- Passes. -/
def Product.passes (q : Product) : Nat := max 1 (ceilDiv q.depth q.dp)

/-- The metadata nibble of group n of column j (R54). -/
def State.nibble (s : State) (v : View) (md : Desc) (groups j n : Nat) : Nat :=
  let i := j * groups + n
  (s.vbyte v.ctx v.bound (md.base + i / 2)).toNat / (if i % 2 = 0 then 1 else 16) % 16

/-- The stationary element at logical depth d of column j; none where 2:4 stores none (R50, R54). -/
def State.statElem (s : State) (v : View) (q : Product) (d j : Nat) : Option FV :=
  match q.nibbles with
  | none => some (s.matElem v q.w d j)
  | some md =>
    let x := s.nibble v md (ceilDiv q.depth 4) j (d / 4)
    if d % 4 = x % 4 then some (s.matElem v q.w (d / 4 * 2) j)
    else if d % 4 = x / 4 then some (s.matElem v q.w (d / 4 * 2 + 1) j)
    else none

/-- Logical depth of pass n. -/
def Product.passDepth (q : Product) (n : Nat) : Nat := min q.dp (q.depth - n * q.dp)

/-- Columns of column block b. -/
def Product.blockCols (q : Product) (b : Nat) : Nat := min 128 (q.w.dims.2 - 128 * b)

/-- Does the bank of pass n and column block b hold a NaN or an infinity: in 2:4 mode every kept slot counts, also one whose nibble names a
position at or beyond k (R54, R57). -/
def State.bankSpecial (s : State) (v : View) (q : Product) (n b : Nat) : Bool :=
  let (first, count) : Nat × Nat := if q.nibbles.isSome then (n * q.dp / 2, 2 * ceilDiv (q.passDepth n) 4) else (n * q.dp, q.passDepth n)
  (List.range (q.blockCols b)).any fun j => (List.range count).any fun d =>
    let x := s.matElem v q.w (first + d) (128 * b + j)
    x.isNan || x.isInf

/-- Is the block of row i and depth d marked as zeros (R56). -/
def State.marked (s : State) (v : View) (q : Product) (i d : Nat) : Bool :=
  match q.skip with
  | none => false
  | some bm => s.bitmapBit v bm.base q.depth (i / 8) (d / 128)

/-- The elements that the cells of a bank hold, from memory. -/
def State.bankCells (s : State) (v : View) (q : Product) (n b : Nat) : List (List (Option FV)) :=
  (List.range (q.passDepth n)).map fun d => (List.range (q.blockCols b)).map fun j => s.statElem v q (n * q.dp + d) (128 * b + j)

/-- The sums of pass n into one accumulator, cell row by cell row: R50's procedure, on the stationary elements of a column by depth within the
pass, and with the depths that a bitmap marks. A NaN is the canonical one. The code, and the saturations under R33. -/
def State.passCell (s : State) (v : View) (q : Product) (wrap : Bool) (stat : Nat → Option FV) (zero : Nat → Bool) (n i : Nat) (acc : Nat × Nat) :
    Nat × Nat :=
  (List.range (ceilDiv (q.passDepth n) q.g)).foldl (fun acc r =>
    let d0 := r * q.g
    let terms : List FV :=
      if zero (n * q.dp + d0) then []
      else (List.range (min q.g (q.passDepth n - d0))).filterMap fun x =>
        (stat (d0 + x)).map fun w => (fvMul (s.matElem v q.a i (n * q.dp + d0 + x)) w).1
    if q.isInt then
      let (code, k) := narrowInt wrap 32 (sext 32 acc.1 + (terms.map fvInt).foldl (· + ·) 0)
      (code, acc.2 + k.sat)
    else
      let t := sumSpecial terms
      let t := if t.isZero then FV.zero else t.canon
      ((encodeIeee .fp32 .rne 0 (fvAdd .rne (decodeIeee .fp32 acc.1) t).1.canon).1, acc.2)) acc

/-- One element of a product formed from memory whole, as R51 has every way of forming it: its code and its saturations. -/
def State.prodCell (s : State) (v : View) (q : Product) (wrap : Bool) (i j : Nat) : Nat × Nat :=
  (List.range q.passes).foldl (fun acc n =>
    s.passCell v q wrap (fun d => s.statElem v q (n * q.dp + d) j) (fun d => s.marked v q i d && !s.bankSpecial v q n (j / 128)) n i acc)
    (q.acc i j, 0)

/-- The code of `prodCell`. -/
def State.prodElem (s : State) (v : View) (q : Product) (wrap : Bool) (i j : Nat) : Nat := (s.prodCell v q wrap i j).1

/-! ### Arrays: items, banks, the accumulator store (R47, R49, R57, R58, R61) -/

/-- Rows of a chunk: R49 lets firmware cut at most 256; the model cuts 256, the last chunk shorter (assumption 152). -/
def chunkRows : Nat := 256

/-- First row and number of rows of a chunk of a product. -/
def Product.chunk (q : Product) (k : Nat) : Nat × Nat := (k * chunkRows, min chunkRows (q.dims.1 - k * chunkRows))

/-- Is a pass dropped with its bank load: every row group of the chunk is marked across its depth (R58). A bank that holds a NaN or an infinity
is loaded and its bitmap ignored, so that no value depends on how rows are cut into chunks (R51, R57; assumption 151). -/
def State.passDropped (s : State) (v : View) (q : Product) (chunk block n : Nat) : Bool :=
  let (r0, h) := q.chunk chunk
  ((List.range (ceilDiv h 8)).all fun g => (List.range (ceilDiv (q.passDepth n) 128)).all fun b =>
    s.marked v q (r0 + 8 * g) (n * q.dp + 128 * b)) && !s.bankSpecial v q n block

/-- The passes whose banks an item needs. -/
def State.neededPasses (s : State) (v : View) (q : Product) (chunk block : Nat) : List Nat :=
  (List.range q.passes).filter fun n => !s.passDropped v q chunk block n

/-- Is a bank the item's, of a pass that it needs. -/
def WeightBank.serves (b : WeightBank) (i : ArrayItem) : Bool :=
  decide (b.queue = i.queue ∧ b.seq = i.seq ∧ b.stage = i.stage ∧ b.block = i.block) && decide (b.pass ∈ i.passes)

/-- An array takes up an item: it keeps the bank of the item's first pass where it holds it, so that an item on the column block of the one
before it reloads none of a product of one pass (R49). -/
def BurinArray.begin (a : BurinArray) (i : ArrayItem) : BurinArray :=
  let held := ((a.banks.filter fun b => b.serves i && decide (i.passes.head? = some b.pass)).getLast?).toList
  { a with item := some i, next := none, banks := held, loaded := held.length, acc := [], summed := 0, delivered := 0, stalled := false }

/-- An array's item is over: its next one begins, or it idles with its banks as they are. -/
def BurinArray.shift (a : BurinArray) : BurinArray :=
  match a.next with
  | some i => a.begin i
  | none => { a with item := none, loaded := 0, acc := [], summed := 0, delivered := 0, stalled := false }

/-- A command leaves an array: its items, its banks and its partial sums are gone. -/
def BurinArray.drop (a : BurinArray) (q seq : Nat) : BurinArray :=
  let mine (i : ArrayItem) : Bool := decide (i.queue = q ∧ i.seq = seq)
  let a := { a with next := a.next.filter fun i => !mine i }
  let a := if a.item.any mine then a.shift else a
  { a with banks := a.banks.filter fun b => !decide (b.queue = q ∧ b.seq = seq) }

/-- The accumulator store once it holds all passes below `upTo` (R49, R50): the store starts from the accumulate-in, each pass reads its bank,
and a pass without one is dropped and adds zeros. -/
def State.sumPasses (s : State) (v : View) (q : Product) (wrap : Bool) (i : ArrayItem) (a : BurinArray) (upTo : Nat) : BurinArray :=
  let (r0, h) := q.chunk i.chunk
  let w := q.blockCols i.block
  let start : List (Nat × Nat) := if a.summed = 0 then
      (List.range (h * w)).map fun k => (q.acc (r0 + k / w) (128 * i.block + k % w), 0)
    else a.acc
  let acc := (List.range (upTo - a.summed)).foldl (fun acc x =>
    let n := a.summed + x
    let bank := a.banks.find? fun b => b.serves i && decide (b.pass = n)
    let cells := (bank.map (·.cells)).getD []
    let special := cells.any fun r => r.any fun e => e.any fun x => x.isNan || x.isInf
    let ignores := special || s.bankSpecial v q n i.block
    (acc.zipIdx).map fun e =>
      s.passCell v q wrap (fun d => (cells.getD d []).getD (e.2 % w) none)
        (fun d => bank.isNone || (s.marked v q (r0 + e.2 / w) d && !ignores)) n (r0 + e.2 / w) e.1) start
  { a with acc := acc, summed := max a.summed upTo }

/-! ### The stages of a LINEAR command (R117, R121) -/

/-- The products of R117 and R121. -/
inductive Stage where
  | zs | dz | db | da | main | dw
deriving DecidableEq, Repr

end Sys2Proof.Machine

namespace Sys2Proof
open Machine

/-- OP of LINEAR: 0 FWD, 1 BWD_DATA, 2 BWD_WEIGHT, 3 BWD. -/
def Packet.linOp (p : Packet) : Nat := p.at 80 1
/-- ADAPTER. -/
def Packet.adapter (p : Packet) : Bool := bitOf (p.at 82 1) 4
/-- FROZEN. -/
def Packet.frozen (p : Packet) : Bool := bitOf (p.at 82 1) 3
/-- SPARSE. -/
def Packet.sparse (p : Packet) : Bool := bitOf (p.at 82 1) 2

/-- Does the command form dW (R59, R117). -/
def Packet.formsDw (p : Packet) : Bool := decide (p.linOp = 2) || (decide (p.linOp = 3) && !p.frozen)

/-- The products in the order of R121, then dW. -/
def Packet.stages (p : Packet) : List Stage :=
  match p.linOp with
  | 0 => if p.adapter then [.zs, .main] else [.main]
  | 1 => if p.adapter then [.dz, .main] else [.main]
  | 2 => [.dw]
  | _ => (if p.adapter then [.dz, .db, .da, .main] else [.main]) ++ (if p.frozen then [] else [.dw])

end Sys2Proof

namespace Sys2Proof.Machine

/-- A descriptor field of a LINEAR packet as an operand. -/
def State.mat (s : State) (v : View) (p : Packet) (off : Nat) (t : Bool) : Option Mat :=
  (s.desc v.ctx (p.at off 4)).map fun d => { d := d, t := t }

/-- The accumulate-in code at (i, j) of an optional descriptor: +0 without one. -/
def State.accCode (s : State) (v : View) (d : Option Desc) (i j : Nat) : Nat :=
  match d with
  | some d => (s.padElemCode v d (unflat d.paddedShape (i * d.grid.2 + j))).1
  | none => 0

/-- The product that a stage forms; none where an operand that it needs is not named. -/
def State.stageProduct (s : State) (v : View) (p : Packet) (st : Stage) : Option Product := do
  let t0 := bitOf (p.at 82 1) 0
  let t1 := bitOf (p.at 82 1) 1
  let x ← s.mat v p 84 t0
  let skip := s.desc v.ctx (p.at 96 4)
  match st with
  | .zs => do
    let a ← s.mat v p 112 false
    return { a := x, w := a, nibbles := none, skip := skip, acc := fun _ _ => 0 }
  | .dz => do
    let b ← s.mat v p 116 true
    return { a := x, w := b, nibbles := none, skip := skip, acc := fun _ _ => 0 }
  | .db => do
    let z ← s.mat v p 120 true
    return { a := z, w := x, nibbles := none, skip := none, acc := s.accCode v (s.desc v.ctx (p.at 140 4)) }
  | .da => do
    let fx ← s.mat v p 108 true
    let z ← s.mat v p 124 false
    return { a := fx, w := z, nibbles := none, skip := none, acc := s.accCode v (s.desc v.ctx (p.at 132 4)) }
  | .dw =>
    if p.linOp = 2 then do
      let w ← s.mat v p 88 t1
      return { a := x, w := w, nibbles := if p.sparse then s.desc v.ctx (p.at 92 4) else none, skip := skip,
               acc := s.accCode v (s.desc v.ctx (p.at 100 4)) }
    else do
      let fx ← s.mat v p 108 true
      return { a := fx, w := x, nibbles := none, skip := none, acc := s.accCode v (s.desc v.ctx (p.at 100 4)) }
  | .main => do
    let w ← s.mat v p 88 t1
    let acc : Nat → Nat → Nat ←
      if p.adapter then do
        let z ← s.mat v p (if p.linOp = 0 then 120 else 124) false
        let m ← s.mat v p (if p.linOp = 0 then 116 else 112) (decide (p.linOp ≠ 0))
        let q : Product := { a := z, w := m, nibbles := none, skip := none, acc := fun _ _ => 0 }
        pure (s.prodElem v q false)
      else pure (if p.linOp = 3 then fun _ _ => 0 else s.accCode v (s.desc v.ctx (p.at 100 4)))
    return { a := x, w := w, nibbles := if p.sparse then s.desc v.ctx (p.at 92 4) else none, skip := skip, acc := acc }

/-- Rows and columns of a stage's result; dA of a frozen BWD, whose X must be null (R59, R62), has A's shape. -/
def State.stageDims (s : State) (v : View) (p : Packet) (st : Stage) : Nat × Nat :=
  match s.stageProduct v p st with
  | some q => q.dims
  | none => match s.desc v.ctx (p.at 112 4) with
    | some d => d.grid
    | none => (0, 0)

/-- The item of a chunk and a column block of a stage, with the passes that it needs; none of them where no product is formed
(assumption 20). -/
def State.makeItem (s : State) (v : View) (p : Packet) (q seq stage chunk block : Nat) : ArrayItem :=
  { queue := q, seq := seq, stage := stage, chunk := chunk, block := block
    passes := ((s.stageProduct v p (p.stages.getD stage .main)).map fun m => s.neededPasses v m chunk block).getD [] }

/-- Tile t of the chunk that an array has formed: its codes, its saturations, and the free values drawn: dA of a frozen BWD has no X operand,
and R121 leaves its values open (assumption 20). -/
def State.chunkTile (s : State) (v : View) (p : Packet) (i : ArrayItem) (acc : List (Nat × Nat)) (t : Nat) : List Nat × Nat × Nat :=
  let st := p.stages.getD i.stage .main
  let (rows, cols) := s.stageDims v p st
  let b := tileBox rows cols ((2 * i.chunk + t) * ceilDiv cols 128 + i.block)
  match s.stageProduct v p st with
  | some _ =>
    let cells := (acc.drop (128 * t * b.w)).take (b.h * b.w)
    (cells.map (·.1), (cells.map (·.2)).foldl (· + ·) 0, 0)
  | none => ((List.range (b.h * b.w)).map fun k => (Config.freeValue 32 (s.free + k)).toNat, 0, b.h * b.w)

/-- Rows of an item's chunk. -/
def State.itemRows (s : State) (v : View) (p : Packet) (i : ArrayItem) : Nat :=
  min chunkRows ((s.stageDims v p (p.stages.getD i.stage .main)).1 - i.chunk * chunkRows)

/-- The first metadata nibble of a bank whose positions do not rise (R55): the bank of a pass and a column block. -/
def State.bankBroken (s : State) (v : View) (q : Product) (pass block : Nat) : Bool :=
  match q.nibbles with
  | none => false
  | some md =>
    (List.range (min 128 (q.w.dims.2 - 128 * block))).any fun j =>
      (List.range (ceilDiv (min q.dp (q.depth - pass * q.dp)) 4)).any fun n =>
        let x := s.nibble v md (ceilDiv q.depth 4) (128 * block + j) (pass * q.dp / 4 + n)
        decide (x / 4 ≤ x % 4)

/-- A stage's tile leaves the write stage without an epilogue: Zs and dZ scaled by α into BF16, dA, dB and dW as raw
accumulators (R117, R121). -/
def State.writeRaw (s : State) (v : View) (p : Packet) (key : List Byte) (st : Stage) (n : Nat) (codes : List Nat) : State :=
  let (rows, cols) := s.stageDims v p st
  let b := tileBox rows cols n
  let off := match st with
    | .zs => 120 | .dz => 124 | .db => 136 | .da => 128 | _ => 104
  match s.desc v.ctx (p.at off 4) with
  | none => s
  | some d =>
    let alpha := decodeIeee .fp32 (p.at 144 4)
    (codes.zipIdx).foldl (fun s x =>
      let flat := (b.r0 + x.2 / b.w) * cols + b.c0 + x.2 % b.w
      let code := match st with
        | .zs => (encodeIeee .bf16 .rne 0 (roundTo .fp32 .rne (fvMul alpha (decodeIeee .fp32 x.1)).1)).1
        | .dz => (encodeIeee .bf16 .sr (srDraw key 4 flat)
            (roundTo .fp32 .rne (fvMul alpha (decodeIeee .fp32 x.1)).1)).1
        | _ => x.1
      (s.putBits v (d.locate (unflat d.shape flat)).1 d.fmt.width code).fillEdge v d flat) s

/-! ### Timing (R47, R63) -/

/-- Bank bytes of a pass of a given logical depth: in 2:4 mode two stored values and half a metadata byte for each group of four, the last
group short or not (R47, R54). -/
def bankBytes (f : Fmt) (block depth : Nat) (sparse : Bool) : Nat :=
  let scales := if f.isBlock then ceilDiv depth block * 128 else 0
  if sparse then 2 * ceilDiv depth 4 * 128 * f.width / 8 + ceilDiv depth 4 * 64 + scales else depth * 128 * f.width / 8 + scales

/-- Lw' of a pass: doubled from a non-panel layout and 128 more when the stationary operand is read transposed (R63). -/
def Product.loadTime (q : Product) (pass : Nat) : Nat :=
  let lw := ceilDiv (bankBytes q.w.d.fmt q.w.d.block (q.passDepth pass) q.nibbles.isSome) 1152
  let lw := if q.w.t ∧ q.w.d.layout ≠ 1 then 2 * lw else lw
  if q.w.t then lw + 128 else lw

/-- S' of a chunk of S rows (R63). -/
def Product.streamTime (q : Product) (rows : Nat) : Nat := if q.a.t ∧ q.a.d.layout ≠ 1 then 2 * rows else rows

/-- ACLK of an item of S rows when Lw' of its last pass is `next` (R63). -/
def Product.itemTime (q : Product) (rows next : Nat) : Nat :=
  ((List.range q.passes).map fun i => max (q.streamTime rows) (if i + 1 < q.passes then q.loadTime (i + 1) else next)).foldl (· + ·) 0

/-- ACLK before a dispatch unit's first tile: 272, and the corner turn of its first stream (R63). -/
def Product.startTime (q : Product) : Nat := 272 + (if q.a.t then 128 else 0)

/-! ### Checks (R62, R117, R121, R187) -/

/-- An operand field: live, readable, in the plate's memory, of a Burin format (R62, R11). -/
def State.burinOperand (s : State) (v : View) (p : Packet) (off plate : Nat) : Except Ending Desc := do
  let d ← s.needDesc v.ctx (p.at off 4) off false
  ensure (d.fmt.isBurin && s.inPlate v d plate) (badField off)
  return d

/-- A destination or source of a fixed format and grid in the plate's memory, with the status that its row gives a missing right. -/
def State.plateTensor (s : State) (v : View) (p : Packet) (off plate : Nat) (fmts : List Fmt) (g : Nat × Nat)
    (write : Bool) (missing : Status := .badField) : Check := do
  let d ← s.needRight v.ctx (p.at off 4) off write missing
  ensure (decide (d.fmt ∈ fmts) && decide (d.grid = g) && s.inPlate v d plate) (badField off)

/-- As `plateTensor`, for a field that may be null. -/
def State.plateTensorOpt (s : State) (v : View) (p : Packet) (off plate : Nat) (fmts : List Fmt) (g : Nat × Nat)
    (write : Bool) : Check :=
  if p.at off 4 = 0 then .ok () else s.plateTensor v p off plate fmts g write

/-- A field that must be null. -/
def nullField (p : Packet) (off : Nat) : Check := ensure (decide (p.at off 4 = 0)) (badField off)

/-- The adapter fields (R121). -/
def State.checkAdapter (s : State) (v : View) (p : Packet) (plate m k n : Nat) (x : Desc) : Check := do
  let r := p.at 148 2
  let (din, dout) := if p.linOp = 0 then (k, n) else (n, k)
  s.plateTensor v p 112 plate [.bf16, .fp32] (din, r) false
  s.plateTensor v p 116 plate [.bf16, .fp32] (r, dout) false
  let fm (off : Nat) : Fmt := ((s.desc v.ctx (p.at off 4)).map (·.fmt)).getD .fp32
  ensure (if p.linOp = 0 then (burinMode x.fmt (fm 112)).isSome else true) (badField 112)
  ensure (if p.linOp = 0 then true else (burinMode x.fmt (fm 116)).isSome) (badField 116)
  s.plateTensor v p 120 plate [.bf16] (m, r) (decide (p.linOp = 0)) .accessDenied
  if p.linOp = 0 then nullField p 124
  else do
    s.plateTensor v p 124 plate [.bf16] (m, r) true
    let mine := ((s.desc v.ctx (p.at 124 4)).map (·.ranges)).getD []
    let others := ([84, 88, 92, 96, 100, 104, 108, 112, 116, 120, 128, 132, 136, 140] ++
      [168, 172, 176, 180, 184, 188, 192, 196, 200]).flatMap fun o =>
        ((s.desc v.ctx (p.at o 4)).map Desc.ranges).getD []
    ensure (!rangesOverlap mine others) (badField 124)
  if p.linOp = 3 then do
    ensure (burinMode .bf16 x.fmt).isSome (badField 120)
    ensure (p.frozen || (burinMode (fm 108) .bf16).isSome) (badField 124)
    s.plateTensor v p 128 plate [.fp32] (din, r) true
    s.plateTensorOpt v p 132 plate [.fp32] (din, r) false
    s.plateTensor v p 136 plate [.fp32] (r, dout) true
    s.plateTensorOpt v p 140 plate [.fp32] (r, dout) false
  else do
    nullField p 128
    nullField p 132
    nullField p 136
    nullField p 140
  let a := decodeIeee .fp32 (p.at 144 4)
  ensure (!a.isNan && !a.isInf && !a.isZero) (badField 144)
  ensure (decide (4 ≤ r) && decide (r ≤ 256)) (badField 148)

/-- The checks of LINEAR (R62, R187): `earlier` says that an earlier command of its group carries a predicate. Two fields whose use the manual
leaves open must be null: ACC_IN of a frozen BWD, which forms no dW (assumption 153), and ACC_IN of a FWD or BWD_DATA that carries ADAPTER,
whose accumulate-in is U or U' (assumption 154). -/
def State.checkLinear (s : State) (c : Ctx) (v : View) (p : Packet) (earlier : Bool) : Check := do
  s.checkNumbering c p p.hasMask
  let op := p.linOp
  let plate := p.at 81 1
  let fl := p.at 82 1
  ensure (decide (op ≤ 3)) (badField 80)
  s.checkPlate plate 81
  ensure (decide (fl < 32)) (badField 82)
  ensure (!p.frozen || decide (op = 1) || decide (op = 3)) (badField 82)
  ensure (!p.adapter || decide (op ≠ 2)) (badField 82)
  zeroBytes p 83 83
  let x ← s.burinOperand v p 84 plate
  let w ← s.burinOperand v p 88 plate
  let xm : Mat := { d := x, t := bitOf fl 0 }
  let wm : Mat := { d := w, t := bitOf fl 1 }
  let (m, k) := xm.dims
  let (wk, n) := wm.dims
  ensure (decide (wk = if p.sparse then 2 * ceilDiv k 4 else k)) (badField 88)
  ensure (burinMode x.fmt w.fmt).isSome (badField 88)
  ensure (!p.sparse || sparseMode x.fmt w.fmt) (badField 82)
  if p.sparse then do
    let md ← s.needDesc v.ctx (p.at 92 4) 92 false
    ensure (decide (md.extent ≥ ceilDiv (n * ceilDiv k 4) 2) && s.inPlate v md plate) (badField 92)
  else nullField p 92
  let sk ← s.optDesc v.ctx (p.at 96 4) 96 false
  ensure (match sk with
    | some d => decide (d.extent ≥ bitmapBytes m k) && s.inPlate v d plate
    | none => true) (badField 96)
  let int := ((burinMode x.fmt w.fmt).map (·.2)).getD false
  let accF : List Fmt := if int then [.int32] else [.fp32]
  let xd : Mat := { d := (s.desc v.ctx (p.at 108 4)).getD x, t := true }
  let dwDims (off : Nat) : Nat × Nat := if op = 2 then (m, n)
    else if op = 3 ∧ (s.desc v.ctx (p.at 108 4)).isNone then ((s.desc v.ctx (p.at off 4)).map Desc.grid).getD (0, 0)
    else (xd.dims.1, k)
  if (decide (op ≤ 1) && p.adapter) || (decide (op = 3) && p.frozen) then nullField p 100
  else s.plateTensorOpt v p 100 plate accF (if op ≤ 1 then (m, n) else dwDims 100) false
  if p.formsDw then s.plateTensor v p 104 plate accF (dwDims 104) true else nullField p 104
  if op = 3 ∧ ¬ p.frozen then do
    let fx ← s.burinOperand v p 108 plate
    ensure ((burinMode fx.fmt x.fmt).isSome && decide (({ d := fx, t := true : Mat }).dims = (n, m)) &&
      decide (((burinMode fx.fmt x.fmt).map (·.2)).getD false = int)) (badField 108)
  else nullField p 108
  if p.adapter then s.checkAdapter v p plate m k n x else zeroFields p adapterFields
  zeroBytes p 150 159
  if op = 2 then do
    ensure (decide (p.inlineLen = 8 * p.epi 0 1)) (.fail .badLength 6)
    zeroFields p (epilogueFields p)
    zeroBytes p (p.epiOffset 60) (p.epiOffset 63)
    ensure (decide (p.par 10 2 ≠ 3)) (badField (p.epiOffset 0))
  else s.checkEpilogue v p plate m n earlier

end Sys2Proof.Machine
end

