-- ==== Sys2Proof/Machine/Order.lean ====
section
/-! DEFINITION. Order: the extents that a command names, conflicts within a queue (R166), when a command may start, and the
shared way in which a command's row runs it and records its ending (R165, R170). -/

namespace Sys2Proof

/-! ### What a packet names -/

/-- The handle fields of each opcode: packet offset, and whether the command writes through it (R187 to R201). -/
def Packet.handleFields (p : Packet) : List (Nat × Bool) :=
  let r (l : List Nat) : List (Nat × Bool) := l.map fun o => (o, false)
  let w (l : List Nat) : List (Nat × Bool) := l.map fun o => (o, true)
  let epi (b : Nat) : List (Nat × Bool) :=
    r ([12, 16, 20, 24, 28, 32].map (b + ·)) ++ w ([8, 36, 40].map (b + ·))
  match p.opcode with
  | 0x0301 => r [84, 88, 92, 96, 100, 108, 112, 116, 132, 140] ++ w [104, 124, 128, 136] ++
      [(120, decide (p.at 80 1 = 0))] ++ epi 160
  | 0x0302 => epi 96
  | 0x0303 => r [132, 136, 140, 144, 148, 152] ++ w [156, 160, 196]
  | 0x0304 => r [132, 136, 140, 156, 164] ++ w [168, 196]
  | 0x0305 => r [132, 136, 140, 144, 148, 152, 160, 164, 168, 184, 188, 192] ++ w [172, 176, 180, 196]
  | 0x0306 => r [64]
  | 0x0401 => r [84, 92] ++ w [88, 96]
  | 0x0501 => r [80, 84, 88, 104] ++ w [92, 96, 100, 108, 112]
  | 0x0502 => r [72, 76] ++ w [80, 84, 88]
  | 0x0503 => r [84, 88, 92] ++ w [96]
  | 0x0704 => w [68]
  | 0x0705 => r [68]
  | 0x0801 => w [76]
  | 0x0802 => r [88] ++ w [92]
  | 0x0901 => r [64, 68]
  | 0x0902 => r [76]
  | 0x0903 => w [72]
  | 0x0A01 => r [72]
  | 0x0A02 => r [72] ++ w [80] ++ (if p.at 69 1 = 1 then w [76] else [])
  | 0x0A03 => w [64] ++ r [72] ++ (if p.at 76 1 = 1 then r [68] else [])
  | 0x0A04 => r [72]
  | 0x0A05 => w [64]
  | 0x0A06 => r [72]
  | 0x0B01 => w [72]
  | 0x0B02 => r [68]
  | 0x0C01 => w [64] ++ r [68]
  | 0x0C02 => r [68] ++ w [72]
  | 0x0C03 => r [64, 68]
  | 0x0C05 => w [68]
  | 0x0C06 => r [68]
  | 0x0C07 | 0x0C08 => w [64]
  | 0x0D02 => r [68, 72]
  | _ => []

/-- The logical plate of a plate command. -/
def Packet.plate? (p : Packet) : Option Nat :=
  match p.opcode with
  | 0x0301 | 0x0401 => some (p.at 81 1)
  | 0x0302 | 0x0303 | 0x0304 | 0x0305 => some (p.at 80 1)
  | _ => none

/-- The compute tile of a Stencil command. -/
def Packet.tile? (p : Packet) : Option Nat :=
  match p.opcode with
  | 0x0501 | 0x0502 | 0x0503 => some (p.at 64 1)
  | _ => none

namespace Machine

/-- The extents of a command of context n: whether it writes, first address, length (R166). STREAM_FEED writes its stream's OUTPUT and META,
too (R363). -/
def State.extents (s : State) (n : Nat) (p : Packet) : List (Bool × Nat × Nat) :=
  let hs := p.handleFields.flatMap fun f => match s.desc n (p.at f.1 4) with
    | some d => d.ranges.map fun r => (f.2, r)
    | none => []
  let areas : List (Bool × Nat × Nat) := match p.opcode with
    | 0x0207 => (if p.at 64 8 = 2 ^ 64 - 1 then [] else [(false, p.at 64 8, p.at 80 8)]) ++ [(true, p.at 72 8, p.at 80 8)]
    | 0x0804 => [(false, p.at 64 8, p.at 80 4), (true, p.at 72 8, p.at 80 4)]
    | 0x0601 => [(true, p.at 64 8, 8)]
    | 0x0602 => [(false, p.at 64 8, 8)]
    | 0x0604 => if p.at 64 2 = n then [(true, p.at 72 8, 8)] else []
    | 0x0B02 => match Kv.get (p.par 0 1) s.streams with
      | some x => ([x.output, x.metaH].filterMap (s.desc n)).flatMap fun d => d.ranges.map fun r => (true, r)
      | none => []
    | 0x0705 | 0x0706 => if p.at 80 1 = 2 then [(false, p.at 88 8, 8)] else []
    | _ => []
  hs ++ areas ++ (if p.tag = 0 then [] else [(true, p.tag, 8)]) ++
    (if inkKind p.signal = 0 then [] else [(true, inkWord p.signal, 8)])

/-- Do two lists of extents conflict (R166). -/
def extentsConflict (a b : List (Bool × Nat × Nat)) : Bool :=
  a.any fun x => b.any fun y => (x.1 || y.1) && rangesOverlap [x.2] [y.2]

/-- Do two commands of one queue conflict. -/
def State.conflicts (s : State) (c d : Cmd) : Bool :=
  let n := (c.view s).ctx
  extentsConflict (s.extents n c.pkt) (s.extents n d.pkt)

/-- The earlier commands of the same queue that have not completed. -/
def State.earlierOf (s : State) (c : Cmd) : List Cmd := s.cmds.filter fun d => decide (d.queue = c.queue ∧ d.seq < c.seq)

/-- May an admitted command start under R166 and FENCE. -/
def State.mayStart (s : State) (c : Cmd) : Bool :=
  decide (c.phase = .admitted) &&
    (if c.pkt.fence then (s.earlierOf c).isEmpty else (s.earlierOf c).all fun d => !s.conflicts c d)

/-- The admitted command that a packet is a copy of, when it may start. -/
def State.startable (s : State) (p : Packet) : Option Cmd :=
  match s.findCmd p.queue p.seq with
  | some c => if c.bytes = p.bytes ∧ s.mayStart c then some c else none
  | none => none

/-- A command's row acts only on a packet of its own opcode. -/
def State.forOp (s : State) (p : Packet) (op : Nat) (t : State) : State := if p.opcode = op then t else s

/-- The command of a packet that has started and goes on from its cursor. -/
def State.resumable (s : State) (p : Packet) : Option Cmd :=
  match s.findCmd p.queue p.seq with
  | some c => if c.bytes = p.bytes ∧ c.phase = .running ∧ c.fault = none ∧ c.hostWait = none then some c else none
  | none => none

/-- The context of a command. -/
def State.ctxOf (s : State) (c : Cmd) : Option Ctx := Kv.get (c.view s).ctx s.ctxs

/-- Step 1 of R170 is due: the command's last effect is done. -/
def State.finish (s : State) (c : Cmd) (e : Ending) : State :=
  s.updCmd c.queue c.seq fun x => { x with phase := .finished e }

/-- Run a command that takes effect in one step: nothing happens unless it may start; otherwise its effect and its ending. -/
def State.runNow (s : State) (p : Packet) (act : State → Cmd → Ctx → Except Ending (State × Ending)) : State :=
  match s.startable p with
  | none => s
  | some c =>
    match s.ctxOf c with
    | none => s
    | some x =>
      match act s c x with
      | .ok (s', e) => s'.finish c e
      | .error e => s.finish c e

/-- Mark a command as running. -/
def State.begin (s : State) (c : Cmd) (w : Work) : State :=
  s.updCmd c.queue c.seq fun x => { x with phase := .running, work := w }

end Machine

end Sys2Proof
end

