-- ==== Sys2Proof/Machine/Ink.lean ====
section
/-! DEFINITION. Ink (14_ink_synchronisation.md): words, waits, signals, overrides, and the rows of class 0x06. -/

namespace Sys2Proof.Machine

/-- A word as an ink operation finds it (R240). -/
structure InkWord where
  counter : Bool
  /-- VALUE or COUNT -/
  value : Nat
  lower : Nat
  upper : Nat
  tag : Bool
  malformed : Bool
deriving DecidableEq, Repr

/-- The word of 64 data bits and its tag (R240, R242). -/
def InkWord.ofBits (x : Nat) (tag : Bool) : InkWord :=
  if bitOf x 63 then
    { counter := true, value := x % 2 ^ 16, lower := bitsOf x 31 16, upper := bitsOf x 47 32, tag := tag,
      malformed := decide (bitsOf x 62 48 ≠ 0) || decide (x % 2 ^ 16 < bitsOf x 31 16) ||
        decide (bitsOf x 47 32 < x % 2 ^ 16) }
  else { counter := false, value := x % 2 ^ 16, lower := 0, upper := 0, tag := tag, malformed := decide (bitsOf x 62 16 ≠ 0) }

/-- The 64 data bits of a word, reserved bits zero. -/
def InkWord.bits (w : InkWord) : Nat :=
  if w.counter then 2 ^ 63 + w.upper % 2 ^ 16 * 2 ^ 32 + w.lower % 2 ^ 16 * 2 ^ 16 + w.value % 2 ^ 16 else w.value % 2 ^ 16

/-- A counter word with a count: the tag follows (R240). -/
def InkWord.count (w : InkWord) (c : Nat) : InkWord := { w with value := c, tag := decide (w.lower < c), malformed := false }

/-- The physical address of an ink word of context n: 8-byte aligned, on an ink page (R194, R208, R210); none otherwise. -/
def State.inkPa (s : State) (n va : Nat) : Option Nat :=
  if va % 8 ≠ 0 then none
  else match s.translate n [] va with
    | .error _ => none
    | .ok l => if s.accessCheck n [] va accInk l = none then some (l.pa + va % 4096) else none

/-- As `inkPa`, on a pinned page (R168, R194). -/
def State.pinnedInkPa (s : State) (n va : Nat) : Option Nat :=
  if ((Kv.get n s.ctxs).map (·.pagePinned va)).getD false then s.inkPa n va else none

/-- Is the word on a pinned page of an ink allocation that is not present: the pin is broken (R217). -/
def State.inkPinBroken (s : State) (n va : Nat) : Bool :=
  decide (va % 8 = 0) && (match s.translate n [] va with
    | .error k => decide (k = .notPresent)
    | .ok _ => false) &&
  match Kv.get n s.ctxs with
  | none => false
  | some x => x.pagePinned va && (x.allocAt va).any (·.ink)

/-- The PIN fault of an ink operation (R217, R218, R219). -/
def State.inkPinFault (s : State) (n va queue seq : Nat) : State :=
  s.faultRecord n (mkFault .pin va 10 (queue / 256) accInk queue seq 0)

/-- The word at a physical address. -/
def State.inkAt (s : State) (pa : Nat) : InkWord := InkWord.ofBits (leNat (s.mem.readBytes pa 8)) (s.mem.tag pa)

/-- Bring an HBM4 word into its controller's ink unit, which holds 4,096 words (R241). -/
def State.inkTouch (s : State) (pa : Nat) : State :=
  if pa < hbmSize then
    s.updMem fun m =>
      let rest := m.inkUnit.filter (· ≠ pa)
      let mine := rest.filter fun a => decide (stackOf a = stackOf pa)
      let rest := if mine.length < 4096 then rest else rest.filter (· ≠ mine.getLastD 0)
      { m with inkUnit := pa :: rest }
  else s

/-- Does the counter word at va of context n hold at least k (R287). -/
def State.countReached (s : State) (n va k : Nat) : Bool :=
  match s.inkPa n va with
  | some pa => let w := s.inkAt pa; w.counter && !w.malformed && decide (k ≤ w.value)
  | none => false

/-- Requests armed on an ink count are sampled at every change of a word (R287). -/
def State.sampleTriggers (s : State) : State :=
  let upd (q : Qp) : Qp :=
    { q with armed := q.armed.map fun a => { a with fired := a.fired || (a.kind == 2 && s.countReached q.owner a.arg a.count) } }
  { s with stylus := { s.stylus with qps := s.stylus.qps.map fun e => (e.1, upd e.2) } }

/-- Write a word and its tag at its home. -/
def State.inkPut (s : State) (pa : Nat) (w : InkWord) : State :=
  ((s.updMem fun m => (m.engineWrite pa (leBytes 8 w.bits)).setTag pa w.tag).inkTouch pa).sampleTriggers

/-- Is the word inked to a wait: its tag, or a count above the lower bound (R243, R244). -/
def InkWord.inked (w : InkWord) : Bool := if w.counter then decide (w.lower < w.value) else w.tag

/-- The prior state of a word as INK_READ returns it (R182, R240). -/
def InkWord.results (w : InkWord) : Nat × Nat := (2 * b2n w.counter + b2n w.tag, w.value)

/-- Does WAIT or SIGNAL field f name a word whose pin is broken (R217). -/
def State.inkFieldPin (s : State) (n f : Nat) : Bool := decide (inkKind f ≠ 0) && s.inkPinBroken n (inkWord f)

/-- Is WAIT or SIGNAL field f well formed for context n (R168): kinds, operand, page, mode. -/
def State.inkFieldOk (s : State) (n f : Nat) (signal : Bool) : Bool :=
  let k := inkKind f
  if k = 0 then decide (f = 0)
  else decide (k ≤ 4) && (decide (inkOperand f = 0) || (if signal then decide (k ≠ 2) else decide (3 ≤ k))) &&
    (match s.pinnedInkPa n (inkWord f) with
     | none => false
     | some pa =>
       let w := s.inkAt pa
       !w.malformed && (if 3 ≤ k then w.counter else !signal || !w.counter))

/-- A sample of a wait: none where the word fails the operation (R169, R242, R245). -/
def State.inkWaitHolds (s : State) (n f : Nat) : Option Bool :=
  let k := inkKind f
  if k = 0 then some true
  else match s.pinnedInkPa n (inkWord f) with
    | none => none
    | some pa =>
      let w := s.inkAt pa
      if w.malformed ∨ (3 ≤ k ∧ ¬ w.counter) then none
      else some (match k with
        | 1 => w.inked
        | 2 => !w.inked
        | 3 => decide (inkOperand f ≤ w.value)
        | _ => decide (w.value ≤ inkOperand f))

/-- The effect of a signal kind on a word: the new word, or the status that refuses (R243 to R245). -/
def inkStep (w : InkWord) (k v : Nat) : Except Status InkWord :=
  if w.malformed then .error .badField
  else match k with
    | 1 => if w.counter then .error .badField else .ok { w with value := v, tag := true }
    | 2 => if w.counter then .error .badField else .ok { w with tag := false }
    | 3 => if ¬ w.counter then .error .badField
        else if w.value + v ≤ w.upper then .ok (w.count (w.value + v)) else .error .inkOverflow
    | 4 => if ¬ w.counter then .error .badField
        else if w.lower + v ≤ w.value then .ok (w.count (w.value - v)) else .error .inkUnderflow
    | _ => .error .badField

/-- An ink operation on an uncorrectable word: a MEDIA record and a MEDIA entry (R225). -/
def State.inkMedia (s : State) (n va pa queue seq : Nat) : State :=
  (s.faultRecord n (mkFault .media va 10 (queue / 256) accInk queue seq 0)).logMedia n pa

/-- A sample of a wait claims the word's frame and brings the word into its ink unit (R206, R241). -/
def State.inkSample (s : State) (n f : Nat) : State :=
  if inkKind f = 0 then s
  else match s.pinnedInkPa n (inkWord f) with
    | some pa => (s.claimPage n (inkWord f)).inkTouch pa
    | none => s

/-- The uncorrectable word that WAIT or SIGNAL field f names: its physical address (R225). -/
def State.inkFieldBad (s : State) (n f : Nat) : Option Nat :=
  if inkKind f = 0 ∨ 4 < inkKind f then none
  else (s.pinnedInkPa n (inkWord f)).bind fun pa => if s.mem.bad pa 8 then some pa else none

/-- Apply signal field f of context n for command (queue, seq); a bound that it would cross enters the trouble log (R244, R249). -/
def State.inkSignal (s : State) (n f queue seq : Nat) : Except (Status × State) State :=
  if inkKind f = 0 then .ok s
  else match s.pinnedInkPa n (inkWord f) with
    | none => if s.inkPinBroken n (inkWord f) then .error (.descRange, s.inkPinFault n (inkWord f) queue seq) else .error (.badField, s)
    | some pa =>
      let s := s.claimPage n (inkWord f)
      if s.mem.bad pa 8 then .error (.mediaError, s.inkMedia n (inkWord f) pa queue seq) else
      match inkStep (s.inkAt pa) (inkKind f) (inkOperand f) with
      | .ok w => .ok (s.inkPut pa w)
      | .error e =>
        .error (e, if e = .badField then s else (s.inkTouch pa).logEvent 0x0503 10 0 n queue (inkWord f))

/-! ### Class 0x06 -/

/-- WORD of an ink command: on a pinned ink page, and a page that is not present breaks the pin (R194, R217). -/
def State.checkInkWord (s : State) (n va : Nat) : Check :=
  ensure (s.pinnedInkPa n va).isSome (if s.inkPinBroken n va then .fail .descRange 64 else badField 64)

/-- The address of the ink word that the field at a packet offset names, for a command's refusal (R217). -/
def Cmd.inkFieldAt (c : Cmd) (off : Nat) : Option Nat :=
  if off = 24 ∧ inkKind c.pkt.wait ≠ 0 then some (inkWord c.pkt.wait)
  else if off = 32 ∧ inkKind c.pkt.signal ≠ 0 then some (inkWord c.pkt.signal)
  else if off = 64 ∧ (c.pkt.opcode = 0x0601 ∨ c.pkt.opcode = 0x0602) then some (c.pkt.at 64 8)
  else none

/-- The fault record of a refusal whose cause is a broken pin or an uncorrectable word (R217, R225). -/
def State.notePin (s : State) (n : Nat) (c : Cmd) (e : Ending) : State :=
  match c.inkFieldAt e.detail with
  | some va =>
    if e.status = .descRange ∧ s.inkPinBroken n va then s.inkPinFault n va c.queue c.seq
    else if e.status = .mediaError then
      (match s.inkPa n va with
       | some pa => s.inkMedia n va pa c.queue c.seq
       | none => s)
    else s
  | none => s

/-- An ink command whose word cannot be used ends so: the pin is broken, or the field is refused (R194, R217). -/
def State.inkRefusal (s : State) (c : Cmd) (n va : Nat) : State × Ending :=
  if s.inkPinBroken n va then (s.inkPinFault n va c.queue c.seq, .fail .descRange 64) else (s, badField 64)

/-- INK_INIT's fields (R194). -/
def State.checkInkInit (s : State) (n : Nat) (p : Packet) : Check := do
  s.checkInkWord n (p.at 64 8)
  ensure (decide (p.at 72 1 ≤ 1)) (badField 72)
  ensure (if p.at 72 1 = 1 then decide (p.at 73 1 = 0) else decide (p.at 73 1 ≤ 1)) (badField 73)
  if p.at 72 1 = 0 then zeroFields p [(74, 2), (76, 2), (78, 2)]
  else ensure (decide (p.at 76 2 ≤ p.at 74 2) && decide (p.at 74 2 ≤ p.at 78 2)) (badField 74)

/-- INK_INIT writes the word's bounds, count or state, whatever the word held (R242, R243, R244). -/
def execInkInit (p : Packet) (s : State) : Host.Outcome State Fault Refusal :=
  .next (s.forOp p 0x0601 (s.runNow p fun s c _ => do
    let n := (c.view s).ctx
    match s.pinnedInkPa n (p.at 64 8) with
    | none => .ok (s.inkRefusal c n (p.at 64 8))
    | some pa =>
      let s := s.claimPage n (p.at 64 8)
      let w : InkWord := if p.at 72 1 = 0 then
          { counter := false, value := 0, lower := 0, upper := 0, tag := bitOf (p.at 73 1) 0, malformed := false }
        else { counter := true, value := p.at 74 2, lower := p.at 76 2, upper := p.at 78 2,
               tag := decide (p.at 76 2 < p.at 74 2), malformed := false }
      .ok (s.inkPut pa w, Ending.ok 0 0)))

/-- INK_READ's fields (R194). -/
def State.checkInkRead (s : State) (n : Nat) (p : Packet) : Check := do
  s.checkInkWord n (p.at 64 8)
  zeroBytes p 72 79

/-- INK_READ returns the word's state and changes nothing but the ink unit's contents (R240, R242). -/
def execInkRead (p : Packet) (s : State) : Host.Outcome State Fault Refusal :=
  .next (s.forOp p 0x0602 (s.runNow p fun s c _ =>
    match s.pinnedInkPa (c.view s).ctx (p.at 64 8) with
    | none => .ok (s.inkRefusal c (c.view s).ctx (p.at 64 8))
    | some pa =>
      let s := s.claimPage (c.view s).ctx (p.at 64 8)
      let w := s.inkAt pa
      if s.mem.bad pa 8 then .ok (s.inkMedia (c.view s).ctx (p.at 64 8) pa p.queue p.seq, .fail .mediaError 64)
      else if w.malformed then .error (badField 64) else .ok (s.inkTouch pa, Ending.ok w.results.1 w.results.2)))

/-- NOP carries only a wait and a signal (R194). -/
def execNop (p : Packet) (s : State) : Host.Outcome State Fault Refusal :=
  .next (s.forOp p 0x0603 (s.runNow p fun s _ _ => .ok (s, Ending.ok 0 0)))

/-- INK_OVERRIDE's fields (R194). -/
def State.checkInkOverride (s : State) (p : Packet) : Check := do
  s.checkContextField p
  zeroBytes p 66 71
  match s.inkPa (p.at 64 2) (p.at 72 8) with
  | none => .error (badField 72)
  | some pa =>
    let w := s.inkAt pa
    let bad := s.mem.bad pa 8
    ensure (decide (p.at 80 1 ≤ 2) && (decide (p.at 80 1 ≠ 2) || bad || w.counter)) (badField 80)
    zeroBytes p 81 81
    ensure (if p.at 80 1 = 2 then bad || decide (w.upper < w.lower) || (decide (w.lower ≤ p.at 82 2) && decide (p.at 82 2 ≤ w.upper))
      else decide (p.at 82 2 = 0)) (badField 82)
    zeroBytes p 84 95

/-- The word after an override action; none where R251 refuses it (detail 80). -/
def overrideWord (w : InkWord) (action value : Nat) : Option InkWord :=
  if w.counter then
    (if w.upper < w.lower then none
     else match action with
      | 0 => some (w.count w.lower)
      | 1 => if w.upper = w.lower then none else some (w.count w.upper)
      | _ => if w.lower ≤ value ∧ value ≤ w.upper then some (w.count value) else none)
  else match action with
    | 0 => some { w with tag := false, malformed := false }
    | 1 => some { w with tag := true, malformed := false }
    | _ => none

/-- The entry that every admitted override writes: the command's status stands in INDEX (R194, R251; assumption 158). -/
def State.logOverride (s : State) (n : Nat) (p : Packet) (st : Status) : State :=
  s.logEvent 0x0504 10 st.code (p.at 64 2) n (p.at 72 8 / 8 * 8 + p.at 80 1 % 4)

/-- An override's effect on its word, and its ending (R225, R251). -/
def State.override (s : State) (c : Cmd) (p : Packet) : State × Ending :=
  let n := p.at 64 2
  let va := p.at 72 8
  match s.inkPa n va with
  | none => (s, badField 72)
  | some pa =>
    let s := s.claimPage n va
    let w := s.inkAt pa
    if s.mem.bad pa 8 then (s.inkMedia n va pa c.queue c.seq, .fail .mediaError 72)
    else match overrideWord w (p.at 80 1) (p.at 82 2) with
      | none => (s.inkTouch pa, badField 80)
      | some w' =>
        let s := s.inkPut pa w'
        (if w'.bits = w.bits ∧ w'.tag = w.tag ∧ ¬ w.malformed then s else s.updCtx n fun x => { x with overridden := true },
          Ending.ok w.results.1 w.results.2)

/-- INK_OVERRIDE (R251). -/
def execInkOverride (p : Packet) (s : State) : Host.Outcome State Fault Refusal :=
  .next (s.forOp p 0x0604 (s.runNow p fun s c _ =>
    let r := match s.checkInkOverride p with
      | .ok _ => s.override c p
      | .error e => (s, e)
    .ok (r.1.logOverride (c.view s).ctx p r.2.status, r.2)))

/-- A word that no operation has touched for 1 ms leaves its ink unit (R241). -/
def execInkWordEvict (word : Nat) (s : State) : Host.Outcome State Fault Refusal :=
  .next (s.updMem fun m => { m with inkUnit := m.inkUnit.filter (· ≠ word) })

end Sys2Proof.Machine
end

