-- ==== Sys2Proof/Machine/ProofCore.lean ====
section
/-! DEFINITION. The Proof core's classes, slots, retry-after figure and overload (R392 to R395). -/

namespace Sys2Proof.Machine

/-- The classes of R392, in priority order. -/
def clsKey : Nat := 0
/-- SURVIVAL. -/
def clsSurvival : Nat := 1
/-- VERIFY. -/
def clsVerify : Nat := 2
/-- SIGN. -/
def clsSign : Nat := 3
/-- MAINTENANCE. -/
def clsMaintenance : Nat := 4

/-- Slots of a class (R392). -/
def classSlots (k : Nat) : Nat := [16, 32, 16, 8, 16].getD k 0

/-- Typical cost of a class in µs; SESSION_KEY's check in VERIFY takes 4 ms (R392). -/
def classCost (k : Nat) (opcode : Nat) : Nat :=
  if k = 2 ∧ opcode = 0x0C02 then 4000 else [20, 200, 1500, 30000, 100].getD k 0

/-- Commands that hold a slot of class k: context and opcode, in queue order. -/
def State.holders (s : State) (k : Nat) : List (Nat × Nat) :=
  s.cmds.filterMap fun c => if c.slot = some k then some ((c.view s).ctx, c.pkt.opcode) else none

/-- Requests of class k that are not commands: the mailbox's, in MAINTENANCE. Requests that arise inside the part are served within the step
that makes them (R393; DESIGN CHOICE, assumption 81). -/
def State.innerHolders (s : State) (k : Nat) : Nat := if k = 4 ∧ s.mbox.busy.isSome then 1 else 0

/-- Does the class admit a request of context n: a slot is free, one of them being reserved for context 0 and the mailbox,
and the context holds fewer than four in VERIFY, SIGN and MAINTENANCE (R393). -/
def State.classAdmits (s : State) (k n : Nat) : Bool :=
  let hs := s.holders k
  let others := (hs.filter fun h => decide (h.1 ≠ 0)).length
  let adm := hs.length - others + s.innerHolders k
  let held := ((s.holders 2) ++ (s.holders 3) ++ (s.holders 4)).filter fun h => decide (h.1 = n)
  (if n = 0 then decide (others + adm < classSlots k) else decide (others + max adm 1 < classSlots k)) &&
    (decide (k < 2) || decide (held.length < 4))

/-- The estimated time in µs until m slots of a class are free, rounded up to 100 µs and clamped (R393). -/
def State.retryAfter (s : State) (k m : Nat) : Nat :=
  let cs := (s.holders k).map fun h => classCost k h.2
  let t := ((cs ++ List.replicate (m - cs.length) (classCost k 0)).take m).foldl (· + ·) 0
  clampN (roundUp t 100) 100 1000000

/-- The estimated queued work across all classes, in µs (R395). -/
def State.proofEstimate (s : State) : Nat :=
  ((List.range 5).map fun k => ((s.holders k).map fun h => classCost k h.2).foldl (· + ·) 0 +
    s.innerHolders k * classCost k 0).foldl (· + ·) 0

/-- Enter or leave OVERLOAD (R395). -/
def State.proofLoad (s : State) : State :=
  let e := s.proofEstimate
  if ¬ s.proof.overload ∧ 50000 < e then
    { s with proof := { s.proof with overload := true } }.logEvent 0x0004 11 0 noContext 0 (1 + e % 2 ^ 32 * 2 ^ 32)
  else if s.proof.overload ∧ e < 10000 then
    { s with proof := { s.proof with overload := false } }.logEvent 0x0004 11 0 noContext 0 (e % 2 ^ 32 * 2 ^ 32)
  else s

/-- A command asks for a slot of a class: the state with the slot held, or BUSY_RETRY and the refusal counted (R393). -/
def State.takeSlot (s : State) (c : Cmd) (k : Nat) : Except (Ending × State) State :=
  let n := (c.view s).ctx
  if s.classAdmits k n then
    .ok ({ s with proof := { s.proof with refusals := s.proof.refusals.set k 0 } }.updCmd c.queue c.seq fun x =>
      { x with slot := some k }).proofLoad
  else
    let m := s.proof.refusals.getD k 0 + 1
    let s' := ({ s with proof := { s.proof with refusals := s.proof.refusals.set k m, refused := (s.proof.refused + 1) % 2 ^ 64 } }).updCtx
      n fun y => { y with counts := y.counts.set 5 ((y.counts.getD 5 0 + 1) % 2 ^ 64) }
    .error ({ status := .busyRetry, r0 := s.retryAfter k m }, s')

/-- As `runNow`, through a class of the Proof core: the slot is held until the command completes (R392, R393). -/
def State.runProof (s : State) (p : Packet) (k : Nat) (act : State → Cmd → Ctx → Except Ending (State × Ending)) : State :=
  match s.startable p with
  | none => s
  | some c =>
    match s.ctxOf c, s.takeSlot c k with
    | none, _ => s
    | some _, .error (e, s') => s'.finish c e
    | some x, .ok s1 =>
      match act s1 { c with slot := some k } x with
      | .ok (s', e) => s'.finish c e
      | .error e => s1.finish c e

end Sys2Proof.Machine
end

