-- ==== Sys2Proof/Machine/Queues.lean ====
section
/-! DEFINITION. Queues (10_command_queues.md): the reading of records, doorbells, and the groups that are wholly visible. -/

namespace Sys2Proof.Machine

/-! ### Opcodes (R182) -/

/-- Parameter-block bytes of each opcode; none for an undefined one. -/
def opParams (op : Nat) : Option Nat :=
  match op with
  | 0x0101 => some 48 | 0x0102 => some 16 | 0x0103 => some 16 | 0x0104 => some 32 | 0x0105 => some 16 | 0x0106 => some 16
  | 0x0107 => some 16 | 0x0108 => some 16 | 0x0201 => some 32 | 0x0202 => some 16 | 0x0203 => some 16 | 0x0204 => some 16
  | 0x0205 => some 64 | 0x0206 => some 16 | 0x0207 => some 32 | 0x0208 => some 16 | 0x0209 => some 16 | 0x0301 => some 160
  | 0x0302 => some 96 | 0x0303 => some 144 | 0x0304 => some 144 | 0x0305 => some 144 | 0x0306 => some 16 | 0x0401 => some 48
  | 0x0501 => some 64 | 0x0502 => some 32 | 0x0503 => some 48 | 0x0601 => some 16 | 0x0602 => some 16 | 0x0603 => some 0
  | 0x0604 => some 32 | 0x0701 => some 16 | 0x0702 => some 32 | 0x0703 => some 16 | 0x0704 => some 16 | 0x0705 => some 48
  | 0x0706 => some 48 | 0x0707 => some 16 | 0x0801 => some 32 | 0x0802 => some 48 | 0x0803 => some 16 | 0x0804 => some 32
  | 0x0901 => some 16 | 0x0902 => some 16 | 0x0903 => some 32 | 0x0904 => some 16 | 0x0905 => some 16 | 0x0906 => some 16
  | 0x0A01 => some 16 | 0x0A02 => some 32 | 0x0A03 => some 16 | 0x0A04 => some 16 | 0x0A05 => some 16 | 0x0A06 => some 16
  | 0x0A07 => some 16 | 0x0A08 => some 16 | 0x0A09 => some 16 | 0x0B01 => some 32 | 0x0B02 => some 16 | 0x0B03 => some 16
  | 0x0C01 => some 16 | 0x0C02 => some 16 | 0x0C03 => some 16 | 0x0C04 => some 16 | 0x0C05 => some 16 | 0x0C06 => some 16
  | 0x0C07 => some 16 | 0x0C08 => some 16 | 0x0C09 => some 16 | 0x0D01 => some 32 | 0x0D02 => some 16 | 0x0D03 => some 16
  | 0x0D04 => some 16 | _ => none

end Sys2Proof.Machine

namespace Sys2Proof
open Machine

/-- Does the packet's opcode take inline data, and does a field of it name the payload (R160, R182). -/
def Packet.namesInline (p : Packet) : Bool :=
  match p.opcode with
  | 0x0301 | 0x0302 => true
  | 0x0207 => decide (p.at 64 8 = 2 ^ 64 - 1)
  | 0x0401 => decide (p.at 92 4 = inlineHandle)
  | 0x0705 | 0x0C01 | 0x0C06 => decide (p.at 68 4 = inlineHandle)
  | _ => false

end Sys2Proof

namespace Sys2Proof.Machine

/-! ### Reading a record (R158, R159, R164) -/

/-- Slots of the submission ring. -/
def Queue.sqSlots (q : Queue) : Nat := 2 ^ q.sqLog2
/-- Records of the completion ring. -/
def Queue.cqSlots (q : Queue) : Nat := 2 ^ q.cqLog2
/-- Slots posted and not read. -/
def Queue.posted (q : Queue) : Nat := (q.sqTail + 2 ^ 32 - q.sqHead) % 2 ^ 32

/-- Address of byte i of the record at SQ_HEAD; a packet may wrap (R158). -/
def Queue.recordAddr (q : Queue) (i : Nat) : Nat := q.sqBase + (q.sqHead * 64 + i) % (q.sqSlots * 64)

/-- The first of n record bytes whose page cannot be read, and why. -/
def State.recordBroken (s : State) (q : Queue) (n : Nat) : Option (Nat × FaultKind) :=
  ((List.range n).map q.recordAddr).findSome? fun a => (s.ringFault q.owner a accR).map (a, ·)

/-- n bytes of the record at SQ_HEAD. -/
def State.recordBytes (s : State) (q : Queue) (n : Nat) : List Byte :=
  (List.range n).map fun i => s.vbyte q.owner [] (q.recordAddr i)

/-- CRC-32C of a record with its CRC field taken as zero (R159). -/
def recordCrc (bs : List Byte) : Nat := crc32c (bs.take 60 ++ zeros 4 ++ bs.drop 64)

/-- The record at SQ_HEAD, when it is visible: SEQ, LENGTH and CRC (R159, R164). -/
def State.visibleRecord (s : State) (q : Queue) : Option (List Byte) :=
  let hd := s.recordBytes q 64
  let fld (o n : Nat) : Nat := leNat ((hd.drop o).take n)
  let len := fld 4 2
  if fld 8 8 ≠ q.expSeq ∨ len % 16 ≠ 0 ∨ len < 64 ∨ 512 < len ∨ q.posted < ceilDiv len 64 then none
  else
    let bs := s.recordBytes q len
    if recordCrc bs = fld 60 4 then some bs else none

/-- VERSION to FLAGS of R159, in the order of the table. -/
def checkHeader (owner q : Nat) (p : Packet) : Check := do
  ensure (decide (p.version = 2)) (badField 3)
  ensure (decide (p.context = owner)) (.fail .accessDenied 16)
  ensure (decide (p.queueField = q)) (.fail .accessDenied 18)
  match opParams p.opcode with
  | none => .error (.fail .badOpcode 0)
  | some n => ensure (decide (p.length = 64 + n + roundUp p.inlineLen 16) && decide (p.inlineLen ≤ 448) &&
      (decide (p.inlineLen = 0) || p.namesInline)) (.fail .badLength 6)
  ensure (decide (p.flags < 32)) (badField 2)

/-- Commands of queue q that have been read and not admitted, of the group that is still open. -/
def State.openGroup (s : State) (q : Nat) : List Cmd :=
  let mine := s.cmds.filter fun c => decide (c.queue = q ∧ c.phase = .visible)
  match mine.getLast? with
  | none => []
  | some l =>
    let g := mine.filter fun c => decide (c.group = l.group)
    if l.pkt.groupEnd ∨ 64 ≤ g.length then [] else g

/-- A command as it stands once read. -/
def newCmd (q seq group : Nat) (bs : List Byte) (failed : Option Ending) : Cmd :=
  { queue := q, seq := seq, bytes := bs, group := group, phase := .visible, failed := failed, firstPass := none, firstBoundary := none, place := 0,
    quiet := false, cancel := false, fault := none, faultAt := 0, hostWait := none, admitted := 0, budget := 0, overruns := 0, skipSettled := false,
    bound := [], slot := none, cursor := 0, work := .none }

/-- A new queue. -/
def newQueue (owner sqBase sqLog2 cqBase cqLog2 waitLimit : Nat) (vector : Option Nat) : Queue :=
  { state := .active, owner := owner, sqBase := sqBase, sqLog2 := sqLog2, cqBase := cqBase, cqLog2 := cqLog2, waitLimit := waitLimit,
    vector := vector, expSeq := 1, sqTail := 0, sqHead := 0, dbErrors := 0, cqHead := 0, cqWritten := 0, held := [], rereads := 0,
    sqBroken := false, pinBroken := false, drain := none }

/-- A visible record is consumed (R158, R161, R164, R167). -/
def State.consume (s : State) (q : Nat) (x : Queue) (bs : List Byte) : State :=
  let g := s.openGroup q
  let p : Packet := { queue := q, bytes := bs }
  let group := match g.head? with
    | some c => c.group
    | none => x.expSeq
  let failed : Option Ending := if g.length = 63 ∧ ¬ p.groupEnd then some (badField 2)
    else (checkHeader x.owner q p).fails
  let s := s.updQueue q fun y => { y with
    sqHead := (y.sqHead + ceilDiv bs.length 64) % 2 ^ 32, expSeq := y.expSeq + 1, state := .active, rereads := 0, sqBroken := false }
  { s with cmds := s.cmds ++ [newCmd q x.expSeq group bs failed] }

/-- A ring or flag page is not present: one fault record and one log entry for the event, and the queue stops (R452). -/
def State.breakPin (s : State) (q : Nat) (x : Queue) (f : Nat × FaultKind) (seq : Nat) (acc : Acc) (logged : Bool) : State :=
  let s := if logged then s else s.faultRecord x.owner (mkFault f.2 f.1 10 (q / 256) acc q seq 0)
  s.updQueue q fun y => { y with state := .stopped, sqBroken := y.sqBroken || acc.read, pinBroken := y.pinBroken || acc.write }

/-- May the dispatcher read queue q's ring: not STOPPED, slots posted, queue 0 ENABLED, and the host link up where the ring
lies in host memory (R178, R239, R444). -/
def State.mayRead (s : State) (q : Nat) (x : Queue) : Bool :=
  decide (x.state = .active ∨ x.state = .stalled) && decide (0 < x.posted) && (decide (q ≠ 0) || decide (s.host.admqState = 1)) &&
    (s.host.up || match s.paOf x.owner [] (x.recordAddr 0) with
      | some p => decide (s.region p ≠ .host)
      | none => true)

/-- The host-line cache takes a line of host memory in COHERENT mode; the least recently used one leaves a full cache (R229). -/
def State.hostLine (s : State) (pa : Nat) : State :=
  if s.host.coherent ∧ s.region pa = .host then
    s.updMem fun m =>
      let rest := m.hostLines.filter (· ≠ lineOf pa)
      { m with hostLines := rest.drop (rest.length + 1 - 16384) ++ [lineOf pa] }
  else s

/-- The dispatcher reads the lines of the record at SQ_HEAD through the host-line cache (R229). -/
def State.cacheRing (s : State) (q : Queue) (slots : Nat) : State :=
  (List.range slots).foldl (fun (s : State) i => match s.paOf q.owner [] (q.recordAddr (64 * i)) with
    | some pa => s.hostLine pa
    | none => s) s

/-- Read the record at SQ_HEAD: consumed when visible, `miss` otherwise. -/
def State.fetch (s : State) (q : Nat) (x : Queue) (miss : State → State) : State :=
  match s.recordBroken x 64 with
  | some a => s.breakPin q x a x.expSeq accR x.sqBroken
  | none =>
    let s := s.claimPage x.owner (x.recordAddr 0)
    let len := leNat (((s.recordBytes x 64).drop 4).take 2)
    let s := s.cacheRing x (if len ≤ 512 ∧ ceilDiv len 64 ≤ x.posted then max 1 (ceilDiv len 64) else 1)
    match s.recordBroken x (if len ≤ 512 ∧ ceilDiv len 64 ≤ x.posted then len else 64) with
    | some a => s.breakPin q x a x.expSeq accR x.sqBroken
    | none => match s.visibleRecord x with
      | some bs => s.consume q x bs
      | none => miss (s.updQueue q fun y => { y with sqBroken := false })

/-- RECORD_FETCH: the first read of the record at SQ_HEAD (R159, R164). -/
def execRecordFetch (queue : Nat) (s : State) : Host.Outcome State Fault Refusal :=
  .next (match Kv.get queue s.queues with
    | some x => if s.mayRead queue x then s.fetch queue x id else s
    | none => s)

/-- RECORD_REREAD: one of the eight re-reads; the eighth that fails stalls the queue (R164). -/
def execRecordReread (queue : Nat) (s : State) : Host.Outcome State Fault Refusal :=
  .next (match Kv.get queue s.queues with
    | some x =>
      if s.mayRead queue x ∧ x.rereads < 8 then
        s.fetch queue x fun s =>
          let s := s.updQueue queue fun y => { y with rereads := y.rereads + 1 }
          if x.rereads + 1 = 8 ∧ x.state = .active then
            (s.updQueue queue fun y => { y with state := .stalled }).logEvent 0x0301 10 0 x.owner queue x.expSeq
          else s
      else s
    | none => s)

/-- STALLED_REREAD: the 100 µs re-read of a stalled queue (R164). -/
def execStalledReread (queue : Nat) (s : State) : Host.Outcome State Fault Refusal :=
  .next (match Kv.get queue s.queues with
    | some x => if s.mayRead queue x ∧ x.state = .stalled ∧ x.rereads = 8 then s.fetch queue x id else s
    | none => s)

/-! ### Doorbells (R162, R163) -/

/-- An ignored doorbell write: counted, and for SQ_TAIL logged (R162). -/
def State.badDoorbell (s : State) (q value : Nat) (log : Bool) : State :=
  let s := match Kv.get q s.queues with
    | some _ => s.updQueue q fun y => { y with dbErrors := satAdd y.dbErrors 1 65535 }
    | none => { s with dbUnused := Kv.set q (satAdd ((Kv.get q s.dbUnused).getD 0) 1 65535) s.dbUnused }
  if log then s.logEvent 0x0302 10 0 (((Kv.get q s.queues).map (·.owner)).getD noContext) q value else s

/-- Does queue 0's completion ring lie in device memory in NONCOHERENT mode (R233). -/
def State.ring0Misplaced (s : State) (x : Queue) : Bool :=
  !s.host.coherent && match s.paOf x.owner [] x.cqBase with
    | some p => decide (s.region p ≠ .host)
    | none => false

/-- A write of SQ_TAIL (R162, R164, R233, R444). -/
def State.writeSqTail (s : State) (queue value : Nat) : State :=
  let v := value % 2 ^ 32
  if 1024 ≤ queue then s
  else match Kv.get queue s.queues with
    | none => if v = 0 then s else s.badDoorbell queue v true
    | some x =>
      if queue = 0 ∧ (s.host.admqState ≠ 1 ∨ s.ring0Misplaced x) then s.badDoorbell queue v true
      else if (v + 2 ^ 32 - x.sqHead) % 2 ^ 32 ≤ x.sqSlots ∧ (v + 2 ^ 32 - x.sqTail) % 2 ^ 32 < 2 ^ 31 then
        s.updQueue queue fun y => { y with sqTail := v, rereads := 0 }
      else s.badDoorbell queue v true

/-- SQ_TAIL_WRITE (R162). -/
def execSqTailWrite (queue value : Nat) (s : State) : Host.Outcome State Fault Refusal := .next (s.writeSqTail queue value)

/-! ### Whole groups (R161, R165, R169) -/

/-- Is a group that is being read complete: it ends with GROUP_END, or it has 64 commands (R161). -/
def groupWhole (g : List Cmd) : Bool := (g.getLast?.any fun l => l.pkt.groupEnd) || decide (64 ≤ g.length)

/-- The visible commands of a queue, in order. -/
def State.visibleOf (s : State) (q : Nat) : List Cmd := s.cmds.filter fun c => decide (c.queue = q ∧ c.phase = .visible)

/-- The groups of a queue that are wholly visible and not admitted, oldest first (R165, R169). -/
def State.visibleGroups (s : State) (q : Nat) : List (List Cmd) :=
  let l := s.visibleOf q
  (((l.map (·.group)).eraseDups).map fun k => l.filter fun c => decide (c.group = k)).filter groupWhole

/-- Is a command one of a group that is wholly visible. -/
def State.inWhole (s : State) (c : Cmd) : Bool :=
  decide (c.phase = .visible) && groupWhole ((s.visibleOf c.queue).filter fun d => decide (d.group = c.group))

/-- A visible group ends without having run: its first command with e, the others with GROUP_ENDED (R169, R216). -/
def State.expireGroup (s : State) (g : List Cmd) (e : Ending) : State :=
  g.zipIdx.foldl (fun (s : State) c => s.updCmd c.1.queue c.1.seq fun d =>
    { d with phase := .finished (if c.2 = 0 then e else conflict scGroupEnded) }) s

end Sys2Proof.Machine
end

