-- ==== Sys2Proof/Machine/MemCmds.lean ====
section
/-! DEFINITION. Memory and descriptors: the rows of class 0x02 (R81, R82, R186, R205, R206, R217, R220), zero-fill, the fault
limit and the patrol read. -/

namespace Sys2Proof.Machine

/-! ### Engine faults (R218, R220, R221) -/

/-- An access of a command faults: a recoverable one parks the command behind an open record; any other ends it with the
status of R218, the detail being the field through which the access was made. -/
def State.engineFault (s : State) (c : Cmd) (kind : FaultKind) (va engine index : Nat) (acc : Acc) (detail : Nat) : State :=
  let n := (c.view s).ctx
  let fseq := ((Kv.get n s.ctxs).map (·.ring.nextFseq)).getD 0
  let s := s.faultRecord n (mkFault kind va engine index acc c.queue c.seq c.cursor)
  if kind = .notPresent then s.updCmd c.queue c.seq fun x => { x with phase := .running, fault := some fseq, faultAt := detail }
  else s.finish c (.fail kind.status detail)

/-- A command's read through the field at `detail` meets an uncorrectable line (R218, R225). -/
def State.mediaFault (s : State) (c : Cmd) (va pa engine index detail : Nat) : State :=
  (s.engineFault c .media va engine index accR detail).logMedia (c.view s).ctx pa

/-- Does an access need host memory while the host link is down (R239). -/
def State.hostBlocked (s : State) (v : View) (rs : List (Nat × Nat)) : Bool :=
  !s.host.up && rs.any fun r => (pagesOf r.1 r.2).any fun a => match s.paOf v.ctx v.bound a with
    | some p => decide (s.region p = .host)
    | none => false

/-- A command waits for the host link; `detail` is the field of the access (R239). -/
def State.waitHost (s : State) (c : Cmd) (detail : Nat) : State :=
  s.updCmd c.queue c.seq fun x => { x with phase := .running, hostWait := some detail }

/-! ### Allocations (R186, R205, R206) -/

/-- The page numbers of a range, by first address. -/
def pageStarts (base size : Nat) : List Nat := (List.range (size / 4096)).map fun i => base + 4096 * i

/-- The walk over a range meets no entry that fails a check or cannot be read (R208, R225). -/
def State.checkWalk (s : State) (c : Ctx) (base size : Nat) : Check :=
  match s.tableFault c.root base size with
  | some (k, _) => .error (.fail k.status 64)
  | none => .ok ()

/-- MEM_REGISTER's fields (R186, R213). -/
def checkRegisterFields (c : Ctx) (p : Packet) : Check := do
  let base := p.at 64 8
  let size := p.at 72 8
  let attr := p.at 80 1
  ensure (decide (base % 4096 = 0)) (badField 64)
  ensure (decide (size % 4096 = 0) && decide (4096 ≤ size) && decide (base + size ≤ 2 ^ 48)) (badField 72)
  ensure (!(c.allocs.any fun a => rangesOverlap [(a.base, a.size)] [(base, size)])) (badField 72)
  ensure (!(c.windows.any fun w => w.valid && rangesOverlap [(w.va, w.sizeGib * 2 ^ 30)] [(base, size)])) (.fail .descRange 64)
  ensure (decide (c.allocs.length < 16384)) (.fail .noResource 72)
  ensure (decide (attr < 8)) (badField 80)
  zeroBytes p 81 95

/-- Check MEM_REGISTER (R186, R206, R208, R213). -/
def State.checkMemRegister (s : State) (n : Nat) (c : Ctx) (p : Packet) : Check := do
  let base := p.at 64 8
  let size := p.at 72 8
  let attr := p.at 80 1
  checkRegisterFields c p
  s.checkWalk c base size
  let leaves := (pageStarts base size).filterMap fun v => match s.walk c.root v with
    | .ok l => some l
    | .error _ => none
  ensure (leaves.all fun l => (!bitOf attr 0 || l.write) && (!bitOf attr 2 || l.ink)) (.fail .accessDenied 80)
  ensure (!bitOf attr 1 || decide (leaves.length = size / 4096)) (.fail .descRange 80)
  ensure (leaves.all fun l => !s.framed l.pa || !s.frameDenied n false l.pa) (.fail .accessDenied 64)

/-- Claim every FREE frame under the present pages of a range (R206). -/
def State.claimRange (s : State) (n root base size : Nat) : State :=
  (pageStarts base size).foldl (fun s v => match s.walk root v with
    | .ok l => if s.framed l.pa ∧ s.ownerOf l.pa = none then s.claim (l.pa / 65536) (.context n) else s
    | .error _ => s) s

/-- What lies over ranges of a context and keeps them from being released: live descriptors, rings, posted receive buffers
(named by live descriptors), staging areas, ink words of pending waits (R185). -/
def State.inUse (s : State) (n : Nat) (rs : List (Nat × Nat)) : Bool :=
  match Kv.get n s.ctxs with
  | none => false
  | some c =>
    (c.descs.any fun e => rangesOverlap e.2.ranges rs) ||
    (s.queues.any fun e => decide (e.2.owner = n) && decide (e.2.state ≠ .unused) &&
      rangesOverlap [(e.2.sqBase, e.2.sqSlots * 64), (e.2.cqBase, e.2.cqSlots * 32)] rs) ||
    (c.groups.any fun e => rangesOverlap [(e.2.staging, e.2.stagingBytes)] rs) ||
    (s.cmds.any fun d => decide (d.phase = .visible) && decide ((d.view s).ctx = n) && decide (inkKind d.pkt.wait ≠ 0) &&
      rangesOverlap [(inkWord d.pkt.wait, 8)] rs)

/-- The allocation that a MEM_RELEASE names. -/
def Ctx.released (c : Ctx) (p : Packet) : Option Alloc := c.allocs.find? fun a => decide (a.base = p.at 64 8)

/-- Check MEM_RELEASE (R185, R186, R208). -/
def State.checkMemRelease (s : State) (n : Nat) (c : Ctx) (p : Packet) : Check := do
  match c.released p with
  | none => .error (badField 64)
  | some a =>
    zeroBytes p 72 79
    ensure (!s.inUse n [(a.base, a.size)]) (conflict scAllocInUse)
    s.checkWalk c a.base a.size

/-- Check a range command: aligned and within one allocation (R186). -/
def checkRange (c : Ctx) (p : Packet) : Check := do
  notInline p 64
  let base := p.at 64 8
  let size := p.at 72 8
  ensure (decide (base % 4096 = 0) && decide (size % 4096 = 0) && (c.allocAt base).isSome && c.inOneAlloc base size)
    (.fail .descRange (if base % 4096 = 0 ∧ (c.allocAt base).isSome then 72 else 64))

/-- The range that a memory command walks once its fields are right. -/
def walkedRange (c : Ctx) (p : Packet) : Option (Nat × Nat) :=
  let fields (k : Check) : Option (Nat × Nat) := if k.fails.isNone then some (p.at 64 8, p.at 72 8) else none
  if p.opcode = 0x0201 then fields (checkRegisterFields c p)
  else if p.opcode = 0x0203 then fields (checkRange c p)
  else if p.opcode = 0x0202 then (c.released p).map fun a => (a.base, a.size)
  else none

/-- The fault record of a memory command that ends with e because its walk met an entry that fails a check or cannot be read (R208, R218). -/
def State.noteWalk (s : State) (n : Nat) (c : Cmd) (e : Ending) : State :=
  match (Kv.get n s.ctxs).bind fun x => (walkedRange x c.pkt).bind fun r => s.tableFault x.root r.1 r.2 with
  | some (k, va) => if e = .fail k.status 64 then s.faultRecord n (mkFault k va 10 0 accR c.queue c.seq c.cursor) else s
  | none => s

/-- As `runNow`, for a command that walks its range: a walk's fault is recorded (R208). -/
def State.runWalk (s : State) (p : Packet) (act : State → Cmd → Ctx → Except Ending (State × Ending)) : State :=
  match s.startable p with
  | none => s
  | some c =>
    match s.ctxOf c with
    | none => s
    | some x =>
      match act s c x with
      | .ok (s', e) => s'.finish c e
      | .error e => (s.noteWalk (c.view s).ctx c e).finish c e

/-- MEM_REGISTER (R186, R206). -/
def execMemRegister (p : Packet) (s : State) : Host.Outcome State Fault Refusal :=
  .next (s.forOp p 0x0201 (s.runWalk p fun s c x => do
    let n := (c.view s).ctx
    s.checkMemRegister n x p
    let attr := p.at 80 1
    let a : Alloc := { base := p.at 64 8, size := p.at 72 8, write := bitOf attr 0, pinned := bitOf attr 1,
                       ink := bitOf attr 2, pins := [] }
    return ((s.claimRange n x.root a.base a.size).updCtx n fun y => { y with allocs := y.allocs ++ [a] }, Ending.ok 0 0)))

/-- The frames that releasing an allocation frees: owned by the context, under present pages of the range, with no other
allocation of it over any part (R206). -/
def State.releasedFrames (s : State) (n : Nat) (c : Ctx) (a : Alloc) : List Nat :=
  let fs (b : Alloc) : List Nat := ((pageStarts b.base b.size).filterMap fun v => match s.walk c.root v with
    | .ok l => if s.ownerOf l.pa = some (.context n) then some (l.pa / 65536) else none
    | .error _ => none).eraseDups
  let kept := (c.allocs.filter fun b => b.base ≠ a.base).flatMap fs
  (fs a).filter fun f => !kept.contains f

/-- Release frames: DDR frames become FREE at once, the others are zero-filled first (R206). The frames that are being
filled. -/
def State.releaseFrames (s : State) (fs : List Nat) : State × List Nat :=
  let slow := fs.filter fun f => decide (s.region (f * 65536) ≠ .ddr)
  let s := fs.foldl (fun s f => s.updMem fun m => { m with owners := Kv.del f m.owners }) s
  (s.updMem fun m => { m with filling := m.filling ++ slow }, slow)

/-- Drop every cached translation of a range of a context (R211). -/
def State.dropTlb (s : State) (n base size : Nat) : State :=
  s.updMem fun m => { m with tlb := m.tlb.filter fun t =>
    !(decide (t.context = n) && rangesOverlap [(t.page * 4096, 4096)] [(base, size)]) }

/-- A LINEAR or STIPPLE unit in progress keeps the translations of a range that it made at its start (R83, R211). The units of other commands are
one step each. -/
def State.keepTranslations (s : State) (n base size : Nat) : State :=
  let kept := (s.mem.tlb.filter fun t => decide (t.context = n) && rangesOverlap [(t.page * 4096, 4096)] [(base, size)]).map Bound.page
  let running (c : Cmd) : Bool := decide (c.pkt.opcode = 0x0301 ∨ c.pkt.opcode = 0x0302) && decide ((c.view s).ctx = n) &&
    s.plates.any fun e => e.2.units.any fun u => decide (u.queue = c.queue ∧ u.seq = c.seq)
  { s with cmds := s.cmds.map fun c => if running c then { c with bound := c.bound ++ kept } else c }

/-- A command waits for frames to be filled, or finishes where there are none (R206). -/
def State.awaitFill (s : State) (c : Cmd) (fs : List Nat) (e : Ending) : State :=
  if fs.isEmpty then s.finish c e else s.begin c (.counts fs)

/-- MEM_RELEASE: it completes after the zero-fill of the frames that it frees (R206). -/
def execMemRelease (p : Packet) (s : State) : Host.Outcome State Fault Refusal :=
  .next (s.forOp p 0x0202 (match s.startable p with
    | none => s
    | some c =>
      let n := (c.view s).ctx
      match Kv.get n s.ctxs with
      | none => s
      | some x =>
        match s.checkMemRelease n x p, x.released p with
        | .ok _, some a =>
          let fs := s.releasedFrames n x a
          let (s, slow) := s.releaseFrames fs
          let s := s.updCtx n fun y => { y with allocs := y.allocs.filter fun b => b.base ≠ a.base }
          (s.dropTlb n a.base a.size).awaitFill c slow (Ending.ok 0 0)
        | .error e, _ => (s.noteWalk n c e).finish c e
        | .ok _, none => s.finish c (badField 64)))

/-- FRAME_ZERO_FILL_DONE: the frame is zero and FREE; a command that waited for its last frame is done (R206, R412). -/
def execFrameZeroFillDone (frame : Nat) (s : State) : Host.Outcome State Fault Refusal :=
  .next (if frame ∈ s.mem.filling then
      let s := s.updMem fun m => { m.zeroFrame frame with filling := m.filling.filter (· ≠ frame) }
      { s with cmds := s.cmds.map fun c =>
        match c.work with
        | .counts fs =>
          if c.pkt.opcode ∈ [0x0202, 0x0102] ∧ c.phase = .running then
            (let rest := fs.filter (· ≠ frame)
             if rest.isEmpty then { c with work := .none, phase := .finished (Ending.ok 0 0) } else { c with work := .counts rest })
          else c
        | _ => c }
    else s)

/-! ### Pins (R217) -/

/-- The pages of a range as indices of its allocation. -/
def Alloc.pageIndices (a : Alloc) (base size : Nat) : List Nat := (pageStarts base size).map fun v => (v - a.base) / 4096

/-- The pin count of a page index. -/
def Alloc.pinCount (a : Alloc) (i : Nat) : Nat := (Kv.get i a.pins).getD 0

/-- Check MEM_PIN: every page present and no count above 65,535 (R217). -/
def State.checkMemPin (s : State) (n : Nat) (c : Ctx) (p : Packet) : Check := do
  checkRange c p
  s.checkWalk c (p.at 64 8) (p.at 72 8)
  ensure (s.allPresent { ctx := n, bound := [] } (p.at 64 8) (p.at 72 8)) (.fail .descRange 64)
  match c.allocAt (p.at 64 8) with
  | none => .error (.fail .descRange 64)
  | some a => ensure ((a.pageIndices (p.at 64 8) (p.at 72 8)).all fun i => decide (a.pinCount i < 65535)) (.fail .noResource 64)

/-- Change the allocation that holds va. -/
def State.updAlloc (s : State) (n va : Nat) (f : Alloc → Alloc) : State :=
  s.updCtx n fun c => { c with allocs := c.allocs.map fun a => if a.base ≤ va ∧ va < a.base + a.size then f a else a }

/-- MEM_PIN adds one to every page's count; RESULT0 counts the pages that were not pinned (R217). -/
def execMemPin (p : Packet) (s : State) : Host.Outcome State Fault Refusal :=
  .next (s.forOp p 0x0203 (s.runWalk p fun s c x => do
    let n := (c.view s).ctx
    s.checkMemPin n x p
    match x.allocAt (p.at 64 8) with
    | none => .error (.fail .descRange 64)
    | some a =>
      let is := a.pageIndices (p.at 64 8) (p.at 72 8)
      let fresh := (is.filter fun i => !a.pinned && decide (a.pinCount i = 0)).length
      return (s.updAlloc n (p.at 64 8) fun a => { a with pins := is.foldl (fun t i => Kv.set i (a.pinCount i + 1) t) a.pins },
        Ending.ok fresh 0)))

/-- The pages that MEM_UNPIN would leave unpinned (R217). -/
def Alloc.unpinned (a : Alloc) (base size : Nat) : List Nat :=
  (a.pageIndices base size).filter fun i => !a.pinned && decide (a.pinCount i ≤ 1)

/-- Check MEM_UNPIN (R185, R217). -/
def State.checkMemUnpin (s : State) (n : Nat) (c : Ctx) (p : Packet) : Check := do
  checkRange c p
  match c.allocAt (p.at 64 8) with
  | none => .error (.fail .descRange 64)
  | some a =>
    let rs := (a.unpinned (p.at 64 8) (p.at 72 8)).map fun i => (a.base + 4096 * i, 4096)
    ensure (!(s.inUse n rs)) (conflict scAllocInUse)

/-- MEM_UNPIN takes one from every count above zero; RESULT0 counts the pages left unpinned (R217). -/
def execMemUnpin (p : Packet) (s : State) : Host.Outcome State Fault Refusal :=
  .next (s.forOp p 0x0204 (s.runNow p fun s c x => do
    let n := (c.view s).ctx
    s.checkMemUnpin n x p
    match x.allocAt (p.at 64 8) with
    | none => .error (.fail .descRange 64)
    | some a =>
      let is := a.pageIndices (p.at 64 8) (p.at 72 8)
      let pins := is.foldl (fun t i => match a.pinCount i with
        | 0 => t
        | 1 => Kv.del i t
        | k + 1 => Kv.set i k t) a.pins
      return (s.updAlloc n (p.at 64 8) fun a => { a with pins := pins },
        Ending.ok (a.unpinned (p.at 64 8) (p.at 72 8)).length 0)))

/-- TLB_INVALIDATE: every engine drops its translations of the range; a unit in progress ends with those it made (R211). -/
def execTlbInvalidate (p : Packet) (s : State) : Host.Outcome State Fault Refusal :=
  .next (s.forOp p 0x0209 (s.runNow p fun s c x => do
    checkRange x p
    return ((s.keepTranslations (c.view s).ctx (p.at 64 8) (p.at 72 8)).dropTlb (c.view s).ctx (p.at 64 8) (p.at 72 8), Ending.ok 0 0)))

/-! ### Descriptors (R81, R82, R84, R320) -/

/-- Is a PAD_VALUE exactly representable in a format, and ±0 for block formats (R81). -/
def padValueOk (f : Fmt) (bits : Nat) : Bool :=
  let v := decodeIeee .fp32 bits
  if f = .e8m0 ∨ f = .bfx32 then decide (bits = 0)
  else if f.isBlock then v.isZero
  else if f.isInt then
    (match v with
     | .num s m e =>
       let x := (floatToInt .rtz 0 f.width v).1
       decide (FV.cmp v (FV.ofInt (sext f.width x)) = 0) && (decide (m ≠ 0) || !s) && decide (e ≤ 4096)
     | _ => false)
  else if v.isNan then decide (decodeIeee f (encodeExact f v) = v)
  else
    let (c, _) := encodeIeee f .rtz 0 v
    decide (FV.cmp (decodeIeee f c) v = 0) && (decodeIeee f c).neg == v.neg

/-- Where a range lies: in one allocation, or in one valid window, which grants READ only (R82, R320). -/
def Ctx.extentOk (c : Ctx) (va n : Nat) (write : Bool) : Except Status Unit :=
  if c.windows.any fun w => w.valid && decide (w.va ≤ va) && decide (va + n ≤ w.va + w.sizeGib * 2 ^ 30) then
    (if write then .error .accessDenied else .ok ())
  else match c.allocs.find? fun a => decide (a.base ≤ va) && decide (va + n ≤ a.base + a.size) with
    | some a => if write ∧ ¬ a.write then .error .accessDenied else .ok ()
    | none => .error .descRange

/-- The record checks of R81 and R82, in the order of the table; details are offsets within the record. -/
def checkDesc (c : Ctx) (d : Desc) : Check := do
  let f? := Fmt.ofCode (d.fld 8 1)
  let f := d.fmt
  let lay := d.fld 9 1
  let w := d.canWrite
  let shape (i : Nat) : Nat := d.fld (16 + 4 * i) 4
  ensure (decide (d.base % (if lay = 0 then 16 else 64) = 0)) (badField 0)
  ensure f?.isSome (badField 8)
  ensure (decide (lay ≤ 2)) (badField 9)
  ensure (decide (lay ≠ 2) || (decide (f ∈ [Fmt.fp64, .fp32, .int32, .bf16, .fp16, .int8]) && decide (2 ≤ d.rank))) (badField 9)
  ensure (decide (lay = 0) || (decide (f ≠ .e8m0) && decide (f ≠ .bfx32))) (badField 9)
  ensure (decide (d.fld 10 1 ≤ 4) && (decide (d.fld 10 1 ≠ 0) == f.isBlock)) (badField 10)
  ensure (decide (d.fld 11 1 < 16) && decide (d.axis < d.rank) && (decide (lay ≠ 2) || decide (d.axis = 0))) (badField 11)
  ensure (decide (d.fld 12 1 < 4) && decide (d.fld 12 1 ≠ 0)) (badField 12)
  match [13, 14, 15].find? fun i => d.fld i 1 ≠ 0 with
  | some i => .error (badField i)
  | none => .ok ()
  for i in [0, 1, 2, 3] do
    ensure (if i < d.rank then decide (1 ≤ shape i) && decide (shape i < 2 ^ 31) else decide (shape i = 1)) (badField (16 + 4 * i))
  for i in [0, 1, 2] do
    let st := d.fld (32 + 4 * i) 4
    ensure (if lay = 0 ∧ i + 1 < d.rank then !w || decide (d.spanFrom (d.rank - 2 - i) (i + 1) ≤ st * 16) else decide (st = 0))
      (badField (32 + 4 * i))
  let pads := d.pads
  for i in [0, 1, 2, 3] do
    ensure (decide (pads.getD i 0 = 0) || (!w && (decide (2 ≤ i) || decide (2 ≤ d.rank)) && decide (f ≠ .e8m0) && decide (f ≠ .bfx32)))
      (badField 44)
  ensure (padValueOk f (d.fld 52 4)) (badField 52)
  let scaled := decide (lay = 0) && f.isBlock
  ensure (if scaled then decide (d.scaleBase % 16 = 0) else decide (d.scaleBase = 0)) (badField 56)
  match c.extentOk d.base d.extent w with
  | .error .accessDenied => .error (.fail .accessDenied 12)
  | .error st => .error (.fail st 0)
  | .ok _ => .ok ()
  if scaled then
    match c.extentOk d.scaleBase d.scaleBytes w with
    | .error .accessDenied => .error (.fail .accessDenied 12)
    | .error st => .error (.fail st 56)
    | .ok _ => .ok ()

/-- Check DESC_CREATE. -/
def checkDescCreate (c : Ctx) (p : Packet) : Check := do
  checkDesc c { record := p.params 64 }
  ensure (decide (c.descs.length < 65536)) (.fail .noResource 0)

/-- Is a number a handle that the part may not issue now: live in any context, null, or the inline handle (R81, R179). -/
def State.handleTaken (s : State) (h : Nat) : Bool :=
  decide (h = 0) || decide (h = inlineHandle) || s.ctxs.any fun e => Kv.has h e.2.descs

/-- DESC_CREATE returns a new handle (R81). -/
def execDescCreate (p : Packet) (s : State) : Host.Outcome State Fault Refusal :=
  .next (s.forOp p 0x0205 (s.runNow p fun s c x => do
    checkDescCreate x p
    match freshNumber s 32 1 (min inlineHandle (s.ctxs.length * 65536 + 2)) s.handleTaken with
    | (some h, s) =>
      return (s.updCtx (c.view s).ctx fun y => { y with descs := Kv.set h { record := p.params 64 } y.descs }, Ending.ok h 0)
    | (none, _) => .error (.fail .noResource 0)))

/-- Check DESC_RELEASE: live, and named by no admitted command that has not completed (R185, R186). -/
def State.checkDescRelease (s : State) (n : Nat) (c : Ctx) (p : Packet) : Check := do
  ensure (decide (p.at 64 4 ≠ inlineHandle)) (badField 64)
  ensure (Kv.has (p.at 64 4) c.descs) (.fail .accessDenied 64)
  zeroBytes p 68 79
  ensure (!(s.cmds.any fun d => decide (d.phase ≠ .visible) && decide ((d.view s).ctx = n) &&
    (d.pkt.handleFields.any fun f => decide (d.pkt.at f.1 4 = p.at 64 4)))) (conflict scDescInUse)

/-- DESC_RELEASE. -/
def execDescRelease (p : Packet) (s : State) : Host.Outcome State Fault Refusal :=
  .next (s.forOp p 0x0206 (s.runNow p fun s c x => do
    let n := (c.view s).ctx
    s.checkDescRelease n x p
    return (s.updCtx n fun y => { y with descs := Kv.del (p.at 64 4) y.descs }, Ending.ok 0 0)))

/-! ### DMA_COPY (R186, R36) -/

/-- Is SOURCE the inline payload (R167). -/
def dmaInline (p : Packet) : Bool := decide (p.at 64 8 = 2 ^ 64 - 1)

/-- Check DMA_COPY (R186). -/
def checkDmaCopy (c : Ctx) (p : Packet) : Check := do
  let src := p.at 64 8
  let dst := p.at 72 8
  let n := p.at 80 8
  ensure (dmaInline p || (c.extentOk src n false).isOk) (.fail .descRange 64)
  notInline p 72
  ensure ((c.extentOk dst n true).isOk && (dmaInline p || !rangesOverlap [(src, n)] [(dst, n)])) (.fail .descRange 72)
  ensure (decide (1 ≤ n) && decide (n ≤ 2 ^ 40) && (!dmaInline p || decide (n = p.inlineLen))) (badField 80)
  zeroBytes p 88 95

/-- The DMA mover that serves a command: one of sixteen, open which (R14, R219; assumption 155). -/
def Cmd.mover (c : Cmd) : Nat := (Config.dmaMover c.queue c.seq).val

/-- DMA_COPY moves bits unchanged in 4 KiB units of the destination, each translated whole before it is read (R36, R83, R220):
one presentation of the row runs the command to its end or to the next fault. -/
def State.dmaRun (s : State) (c : Cmd) : Nat → State
  | 0 => s
  | k + 1 =>
    let p := c.pkt
    let v := c.view s
    let n := p.at 80 8
    let o := c.cursor * 4096
    if n ≤ o then s.finish c (Ending.ok 0 0)
    else if c.cancel then s.finish c { status := .preempted, r1 := c.cursor }
    else
      let len := min 4096 (n - o)
      let src := p.at 64 8 + o
      let dst := p.at 72 8 + o
      if !dmaInline p && s.hostBlocked v [(src, len)] then s.waitHost c 64 else
      match (if dmaInline p then .ok s else s.touch v.ctx v.bound src len accR true) with
      | .error (k, va) => s.engineFault c k va 5 c.mover accR 64
      | .ok s =>
        match s.touch v.ctx v.bound dst len accW true with
        | .error (k, va) => s.engineFault c k va 5 c.mover accW 72
        | .ok s =>
          match (if dmaInline p then none else s.badRange v.ctx v.bound src len) with
          | some pa => s.mediaFault c src pa 5 c.mover 64
          | none =>
            let bs := if dmaInline p then ((p.payload 32).drop o).take len else s.vread v.ctx v.bound src len
            let c' := { c with cursor := c.cursor + 1 }
            ((s.vwrite v.ctx v.bound dst bs).updCmd c.queue c.seq fun x =>
              { x with cursor := x.cursor + 1 }).dmaRun c' k

/-- DMA_COPY: starts, or goes on from its cursor. -/
def execDmaCopy (p : Packet) (s : State) : Host.Outcome State Fault Refusal :=
  .next (s.forOp p 0x0207 (match s.startable p with
    | some c => (s.begin c .none).dmaRun { c with phase := .running } (p.at 80 8 / 4096 + 2)
    | none => match s.resumable p with
      | some c => s.dmaRun c (p.at 80 8 / 4096 + 2)
      | none => s))

/-! ### Demand faults (R220) -/

/-- The command that waits on an open fault. -/
def State.faultedCmd (s : State) (n fseq : Nat) : Option Cmd :=
  s.cmds.find? fun c => decide (c.fault = some fseq) && decide ((c.view s).ctx = n)

/-- Close a fault of a context. -/
def State.closeFault (s : State) (n fseq : Nat) : State := s.updCtx n fun c => { c with ring := c.ring.close fseq }

/-- Is the fault open. -/
def State.faultOpen (s : State) (n fseq : Nat) : Bool :=
  ((Kv.get n s.ctxs).map fun c => c.ring.opened.any fun f => decide (f.fseq = fseq)).getD false

/-- Check FAULT_RESUME (R186). -/
def State.checkFaultResume (s : State) (n : Nat) (p : Packet) : Check := do
  ensure (decide (p.at 72 1 ≤ 1)) (badField 72)
  zeroBytes p 73 79
  ensure (s.faultOpen n (p.at 64 8)) (conflict scFaultNotOpen)

/-- End a command that waits on a fault with FAULT_PENDING: the detail is the field of the access, RESULT1 the cursor. -/
def State.abandonFault (s : State) (n fseq : Nat) : State :=
  match s.faultedCmd n fseq with
  | some c => (s.updCmd c.queue c.seq fun x => { x with fault := none }).finish c
      { status := .faultPending, detail := c.faultAt, r1 := c.cursor }
  | none => s

/-- FAULT_RESUME: RETRY closes the fault and lets the engine try again, ABORT ends its command (R220). -/
def execFaultResume (p : Packet) (s : State) : Host.Outcome State Fault Refusal :=
  .next (s.forOp p 0x0208 (s.runNow p fun s c _ => do
    let n := (c.view s).ctx
    let fseq := p.at 64 8
    s.checkFaultResume n p
    if p.at 72 1 = 0 then
      match s.faultedCmd n fseq with
      | some d => return ((s.updCmd d.queue d.seq fun x => { x with fault := none }).closeFault n fseq, Ending.ok 0 0)
      | none => return (s.closeFault n fseq, Ending.ok 0 0)
    else return ((s.abandonFault n fseq).closeFault n fseq, Ending.ok 0 0)))

/-- A fault open for FAULT_LIMIT strokes closes; its command ends and a LIMIT record is written (R220). -/
def State.expireFault (s : State) (context fseq : Nat) : State :=
  match Kv.get context s.ctxs with
  | none => s
  | some c =>
    match c.ring.opened.find? fun f => decide (f.fseq = fseq) with
    | none => s
    | some f =>
      if s.strk.now < f.stroke + c.faultLimit then s
      else
        let s := (s.abandonFault context fseq).closeFault context fseq
        s.faultRecord context { f with kind := .limit, isOpen := false }

/-- FAULT_LIMIT (R220). -/
def execFaultLimit (context fseq : Nat) (s : State) : Host.Outcome State Fault Refusal := .next (s.expireFault context fseq)

/-! ### Errors (R224, R225) -/

/-- PATROL_READ of a line: a correction is counted, an uncorrectable line is counted and reported in the trouble log only (R224, R225). Which
lines have errors is outside the part, and this row also stands for the correction that any other read of a line makes, of plate memory too
(assumption 22). A damaged line of one copy of the frame map or of the context table is written again from the other (R204). -/
def execPatrolRead (line : Nat) (finding : PatrolFinding) (s : State) : Host.Outcome State Fault Refusal :=
  .next (match finding with
    | .clean => s
    | .corrected => if s.framed (lineOf line) then s.countError (lineOf line) 0 else s
    | .uncorrectable =>
      if s.framed (lineOf line) then
        let s := if inTableCopy (lineOf line) then s else s.updMem fun m =>
          { m with badLines := if lineOf line ∈ m.badLines then m.badLines else lineOf line :: m.badLines }
        s.logMedia noContext (lineOf line)
      else s)

end Sys2Proof.Machine
end

