-- ==== Sys2Proof/Machine/Completion.lean ====
section
/-! DEFINITION. Completion (R170 to R174, R177, R452): records and flags, held items, the end of a group, queues that wait to stop or to go
(R184, R185, R444), and waits that time out (R169). -/

namespace Sys2Proof.Machine

/-! ### Completion (R170 to R174, R177, R452) -/

/-- A completion record without STROKE, NS and PHASE (R171). -/
def recordBody (q seq : Nat) (e : Ending) : List Byte :=
  leBytes 8 seq ++ leBytes 4 e.r0 ++ leBytes 4 e.r1 ++ zeros 10 ++ leBytes 2 q ++ leBytes 1 e.status.code ++ [0] ++
    leBytes 2 e.detail

/-- A record with its STROKE, NS and PHASE. -/
def stampRecord (bs : List Byte) (stroke ns : Nat) (phase : Bool) : List Byte :=
  bs.take 16 ++ leBytes 6 stroke ++ leBytes 4 ns ++ (bs.drop 26).take 3 ++ leBytes 1 (b2n phase) ++ bs.drop 30

/-- The page of a held item that cannot be written, if any. -/
def State.heldBroken (s : State) (x : Queue) (h : Held) : Option (Nat × FaultKind) :=
  let broken (va : Nat) : Option (Nat × FaultKind) := (s.ringFault x.owner va accW).map (va, ·)
  match (if h.record.isSome then broken (x.cqBase + 32 * (x.cqWritten % x.cqSlots)) else none) with
  | some b => some b
  | none => h.flag.bind fun f => broken f.1

/-- The part's own write at va of a queue's owner. -/
def State.ringWrite (s : State) (n va : Nat) (bs : List Byte) : State := (s.claimPage n va).vwrite n [] va bs

/-- Steps 3 to 5 of R170 for one item (R171, R172). -/
def State.writeHeld (s : State) (q : Nat) (x : Queue) (h : Held) : State :=
  let s := match h.record with
    | none => s
    | some bs =>
      let (ns, s) := s.drawNs
      let r := stampRecord bs s.strk.now ns (decide (x.cqWritten / x.cqSlots % 2 = 0))
      (s.ringWrite x.owner (x.cqBase + 32 * (x.cqWritten % x.cqSlots)) r).updQueue q fun y =>
        { y with cqWritten := (y.cqWritten + 1) % 2 ^ 32 }
  let s := match h.flag with
    | some f => s.ringWrite x.owner f.1 (leBytes 8 f.2)
    | none => s
  match x.vector with
  | some v => if h.irq then s.raise v else s
  | none => s

/-- Write what can be written of a queue's held items, at most n of them, in order; a page that is not present breaks the pin (R173, R452). -/
def State.flushHeld (s : State) (q : Nat) : Nat → State
  | 0 => s
  | n + 1 =>
    match Kv.get q s.queues with
    | none => s
    | some x =>
      match x.held with
      | [] => s
      | h :: t =>
        if h.record.isSome ∧ x.cqSlots ≤ (x.cqWritten + 2 ^ 32 - x.cqHead) % 2 ^ 32 then s
        else match s.heldBroken x h with
          | some f => s.breakPin q x f (leNat ((h.record.getD []).take 8)) accW x.pinBroken
          | none => ((s.writeHeld q x h).updQueue q fun y => { y with held := t, pinBroken := false }).flushHeld q n

/-- A completion tag that the part may write: aligned, on a pinned page of a writable allocation, in host memory unless COHERENT; a page that
is not present is left to the write (R159, R217, R233, R452). -/
def State.tagOk (s : State) (n tag : Nat) : Bool :=
  decide (tag % 8 = 0) && ((Kv.get n s.ctxs).map fun c => c.pagePinned tag && (c.allocAt tag).any (·.write)).getD false &&
  (match s.translate n [] tag with
   | .ok l => decide (s.accessCheck n [] tag accW l = none) && (s.host.coherent || decide (s.region l.pa = .host))
   | .error k => decide (k = .notPresent))

/-- Has a command been admitted: its budget was set then. -/
def Cmd.wasAdmitted (c : Cmd) : Bool := decide (0 < c.budget)

/-- Has a command started (R177): it runs, or it has run to its end. -/
def Cmd.started (c : Cmd) : Bool :=
  match c.phase with
  | .visible | .admitted => false
  | .running => true
  | .finished e | .flushing e => c.wasAdmitted && decide (e ≠ conflict scGroupEnded)

/-- A status other than DONE ends the rest of the command's group (R177). -/
def State.endGroup (s : State) (c : Cmd) : State :=
  { s with cmds := s.cmds.map fun d =>
    if d.queue = c.queue ∧ d.group = c.group ∧ c.seq < d.seq then
      (if d.phase = .admitted ∨ d.phase = .visible then { d with phase := .finished (conflict scGroupEnded) }
       else if d.started then { d with quiet := true } else d)
    else d }

/-! ### Queues that wait (R174, R184, R185, R444) -/

/-- A queue is gone. -/
def State.dropQueue (s : State) (q : Nat) : State :=
  { s with queues := Kv.del q s.queues, preds := s.preds.filter fun r => r.queue ≠ q }

/-- Both ring allocations of queue 0 are released, and ADMQ_STATE is DISABLED (R444). -/
def State.closeAdmq (s : State) : State :=
  let drop (s : State) (b : Nat) : State :=
    match (Kv.get 0 s.ctxs).bind fun c => (c.allocs.find? fun a => decide (a.base = b)).map (c, ·) with
    | none => s
    | some (c, a) =>
      let s := (s.releaseFrames (s.releasedFrames 0 c a)).1
      (s.updCtx 0 fun y => { y with allocs := y.allocs.filter fun x => x.base ≠ b }).dropTlb 0 a.base a.size
  let s := drop (drop s s.host.sqBase) s.host.cqBase
  { s with
    queues := Kv.upd 0 (fun q => { newQueue 0 0 0 0 0 50000 none with dbErrors := q.dbErrors }) s.queues
    host := { s.host with admqState := 0, enable := false } }

/-- What a queue waits for has come about: no admitted command of it is left (R184), or, for a queue that goes, no command and no record at all
(R174). -/
def State.drainDone (s : State) (q : Nat) : State :=
  match Kv.get q s.queues with
  | none => s
  | some x =>
    match x.drain with
    | none => s
    | some d =>
      if (s.cmds.any fun c => decide (c.queue = q) && (d.destroy || decide (c.phase ≠ .visible))) ∨ (d.destroy ∧ x.held ≠ []) then s
      else
        let s := if ¬ d.destroy then s.updQueue q fun y => { y with drain := none }
          else if q = 0 then s.closeAdmq else s.dropQueue q
        match d.waiter with
        | some w => s.updCmd w.1 w.2 fun c => { c with phase := .finished (Ending.ok d.cancelled 0) }
        | none => s

/-- A queue stops for good: what it has read and not admitted ends, and it goes once its last record is written (R174, R185, R444; DESIGN CHOICE,
assumption 156). -/
def State.closeQueue (s : State) (q : Nat) (waiter : Option (Nat × Nat)) : State :=
  let s := s.updQueue q fun x => { x with state := .stopped, drain := some { waiter := waiter, cancel := false, destroy := true, cancelled := 0 } }
  ({ s with cmds := s.cmds.map fun c => if c.queue = q ∧ c.phase = .visible then
      { c with phase := .finished (c.failed.getD (conflict scGroupEnded)) } else c } : State).drainDone q

/-- Try a queue's held writes, and what waits for them (R173, R452). -/
def State.flush (s : State) (q : Nat) : State :=
  match Kv.get q s.queues with
  | some x => (s.flushHeld q x.held.length).drainDone q
  | none => s

/-! ### Finishing a command (R170) -/

/-- Step 2 of R170: a command that ends DONE applies its signal; one that fails gives the command its status (R177, R218, R244). -/
def State.applySignal (s : State) (c : Cmd) (e : Ending) : State × Ending :=
  match Kv.get c.queue s.queues with
  | none => (s, e)
  | some x =>
    if e.status = .done ∧ ¬ c.quiet then
      (match s.inkSignal x.owner c.pkt.signal c.queue c.seq with
       | .ok s => (s, e)
       | .error (st, s) => (s, { e with status := st, detail := 32 }))
    else (s, e)

/-- Steps 3 to 5 of R170 for a command whose ending is e, and its removal. -/
def State.complete (s : State) (c : Cmd) (e : Ending) : State :=
  let p := c.pkt
  match Kv.get c.queue s.queues with
  | none => { s with cmds := s.cmds.filter fun d => ¬ (d.queue = c.queue ∧ d.seq = c.seq) }
  | some x =>
    let s := if e.status = .done then s else s.endGroup c
    let quietDone := p.quietFlag && decide (e.status = .done)
    let h : Held :=
      { record := if quietDone then none else some (recordBody c.queue c.seq e),
        flag := if p.tag ≠ 0 ∧ ¬ c.quiet ∧ (c.wasAdmitted ∨ s.tagOk x.owner p.tag) then some (p.tag, c.seq) else none,
        irq := p.interrupt }
    let s : State := { s with cmds := s.cmds.filter fun d => ¬ (d.queue = c.queue ∧ d.seq = c.seq) }
    let s : State := if s.cmds.any fun d => decide (d.queue = c.queue ∧ d.group = c.group) then s
      else { s with preds := s.preds.filter fun r => ¬ (r.queue = c.queue ∧ r.group = c.group) }
    let s := s.updCtx x.owner fun y => { y with counts := y.counts.set 0 ((y.counts.getD 0 0 + 1) % 2 ^ 64) }
    let s := s.updQueue c.queue fun y => { y with held := y.held ++ [h] }
    (s.flush c.queue).proofLoad

/-- A write of CQ_HEAD: the host releases records, and held ones follow (R162, R173). -/
def State.writeCqHead (s : State) (queue value : Nat) : State :=
  let v := value % 2 ^ 32
  if 1024 ≤ queue then s
  else match Kv.get queue s.queues with
    | none => if v = 0 then s else s.badDoorbell queue v false
    | some x =>
      if (v + 2 ^ 32 - x.cqHead) % 2 ^ 32 ≤ (x.cqWritten + 2 ^ 32 - x.cqHead) % 2 ^ 32 then
        (s.updQueue queue fun y => { y with cqHead := v }).flush queue
      else s.badDoorbell queue v false

/-- CQ_HEAD_WRITE (R162). -/
def execCqHeadWrite (queue value : Nat) (s : State) : Host.Outcome State Fault Refusal := .next (s.writeCqHead queue value)

/-- PIN_RETRY: the 100 µs retry of held writes (R452). -/
def execPinRetry (queue : Nat) (s : State) : Host.Outcome State Fault Refusal :=
  .next (match Kv.get queue s.queues with
    | some x => if x.pinBroken then s.flush queue else s
    | none => s)

/-- WAIT_TIMEOUT: the wait of a visible group has not held for WAIT_LIMIT strokes (R169). -/
def execWaitTimeout (queue : Nat) (s : State) : Host.Outcome State Fault Refusal :=
  .next (match Kv.get queue s.queues with
    | none => s
    | some x =>
      let due (c : Cmd) : Bool := (c.firstPass.any fun f => decide (f + x.waitLimit ≤ s.strk.now)) &&
        decide (s.inkWaitHolds x.owner c.pkt.wait ≠ some true)
      match (s.visibleGroups queue).find? fun g => g.head?.any due with
      | some (c :: t) => (s.expireGroup (c :: t) (.fail .timeout 24)).logEvent 0x0303 10 0 x.owner queue c.seq
      | _ => s)

end Sys2Proof.Machine
end

