-- ==== Sys2Proof/Machine/Mgmt.lean ====
section
/-! DEFINITION. Commands that run on the Proof core and read or write memory of their context (R182, R217, R392). -/

namespace Sys2Proof.Machine

/-- An access of the Proof core: the packet field it is made through, whether it writes, and its bytes. -/
structure MgmtIO where
  detail : Nat
  write : Bool
  ranges : List (Nat × Nat)
deriving DecidableEq, Repr

/-- The access through a handle field of a command; none of its own for a null handle or the inline payload. -/
def State.ioOf (s : State) (c : Cmd) (off : Nat) (write : Bool) : MgmtIO :=
  { detail := off, write := write, ranges := ((s.desc (c.view s).ctx (c.pkt.at off 4)).map Desc.ranges).getD [] }

/-- Translate and check the Proof core's accesses; it cannot wait for a page (R217). The error is the ending of a fault, or none where
the access waits for the host link. -/
def State.mgmtTouch (s : State) (c : Cmd) (engine : Nat) : List MgmtIO → Except (State × Option Ending) State
  | [] => .ok s
  | x :: t =>
    let v := c.view s
    let acc := if x.write then accW else accR
    if s.hostBlocked v x.ranges then .error (s.waitHost c x.detail, none)
    else match s.touchAll v x.ranges acc false with
      | .error (k, va) => .error (s.faultRecord v.ctx (mkFault k va engine 0 acc c.queue c.seq c.cursor), some (.fail k.status x.detail))
      | .ok s =>
        match (if x.write then none else x.ranges.findSome? fun r => (s.badRange v.ctx v.bound r.1 r.2).map fun pa => (r.1, pa)) with
        | some (va, pa) => .error ((s.faultRecord v.ctx (mkFault .media va engine 0 acc c.queue c.seq c.cursor)).logMedia v.ctx pa, some (.fail .mediaError x.detail))
        | none => s.mgmtTouch c engine t

/-- As `runProof`, for a command that reaches memory: slot, fields, accesses, effect. An effect without an ending leaves the command
running; its row, presented again, goes on. -/
def State.runMgmt (s : State) (p : Packet) (k engine : Nat) (chk : State → Cmd → Ctx → Check) (io : State → Cmd → List MgmtIO)
    (act : State → Cmd → Ctx → Except Ending (State × Option Ending)) : State :=
  match (s.startable p).orElse (fun _ => s.resumable p) with
  | none => s
  | some c =>
    match s.ctxOf c, (if c.slot.isSome then .ok s else s.takeSlot c k) with
    | none, _ => s
    | some _, .error (e, s') => s'.finish c e
    | some x, .ok s1 =>
      match chk s1 c x with
      | .error e => s1.finish c e
      | .ok _ =>
        match s1.mgmtTouch c engine (io s1 c) with
        | .error (s2, some e) => s2.finish c e
        | .error (s2, none) => s2
        | .ok s2 =>
          match act s2 { c with slot := some k } x with
          | .ok (s', some e) => s'.finish c e
          | .ok (s', none) => s'
          | .error e => s2.finish c e

/-- As `runNow`, for a command that reaches memory: fields, accesses, effect (R217, R225). -/
def State.runReach (s : State) (p : Packet) (engine : Nat) (chk : State → Cmd → Ctx → Check) (io : State → Cmd → List MgmtIO)
    (act : State → Cmd → Ctx → Except Ending (State × Ending)) : State :=
  match (s.startable p).orElse (fun _ => s.resumable p) with
  | none => s
  | some c =>
    match s.ctxOf c with
    | none => s
    | some x =>
      match chk s c x with
      | .error e => s.finish c e
      | .ok _ =>
        match s.mgmtTouch c engine (io s c) with
        | .error (s2, some e) => s2.finish c e
        | .error (s2, none) => s2
        | .ok s2 =>
          match act s2 c x with
          | .ok (s', e) => s'.finish c e
          | .error e => s2.finish c e

/-- Bytes that a handle field names, of the inline payload where it does (R160). -/
def State.mgmtBytes (s : State) (c : Cmd) (off n : Nat) : List Byte :=
  if c.pkt.at off 4 = inlineHandle then (c.pkt.payload 16).take n
  else match s.desc (c.view s).ctx (c.pkt.at off 4) with
    | some d => s.vread (c.view s).ctx c.bound d.base n
    | none => []

/-- Write bytes at the start of the descriptor that a field names. -/
def State.mgmtWrite (s : State) (c : Cmd) (off : Nat) (bs : List Byte) : State :=
  match s.desc (c.view s).ctx (c.pkt.at off 4) with
  | some d => s.vwrite (c.view s).ctx c.bound d.base bs
  | none => s

end Sys2Proof.Machine
end

