-- ==== Sys2Proof/Machine/Fabric.lean ====
section
/-! DEFINITION. Fabric (15_fabric_ports_topology.md, R150 to R152): frames, route maps, slot schedules, transit and
pass-through. -/

namespace Sys2Proof.Machine

/-! ### Ports -/

/-- A port's settings, when it exists. -/
def State.port (s : State) (p : Nat) : Option Port := Kv.get p s.fabric.ports

/-- Change a port. -/
def State.updPort (s : State) (p : Nat) (f : Port → Port) : State :=
  { s with fabric := { s.fabric with ports := Kv.upd p f s.fabric.ports } }

/-- Add to a telemetry count of a port: 64-bit counts wrap and 32-bit counts saturate (R400, R401). -/
def State.portCount (s : State) (p i n : Nat) : State :=
  s.updPort p fun q =>
    let x := q.counts.getD i 0
    let y := if i = 0 ∨ i = 1 ∨ i = 4 ∨ i = 7 then (x + n) % 2 ^ 64 else satAdd x n (2 ^ 32 - 1)
    { q with counts := q.counts.set i y }

/-- A port is up. -/
def State.portUp (s : State) (p : Nat) : Bool := ((s.port p).map (·.up)).getD false

/-- Rate of a mode in Gb/s (R252). -/
def portRate (mode : Nat) : Nat := [0, 200, 400, 800].getD mode 0

/-- A frame leaves on a port. -/
def State.transmit (s : State) (p : Nat) (bs : List Byte) : State :=
  let s := (s.portCount p 0 1).portCount p 7 (bs.length + 4)
  { s with fabric := { s.fabric with tx := { port := p, bytes := bs } :: s.fabric.tx } }

/-! ### Ethernet, IP and UDP headers (R270) -/

/-- The one's-complement checksum of 16-bit big-endian words (RFC 1071; assumption 9). -/
def inetSum (bs : List Byte) : Nat :=
  let rec words : List Byte → Nat
    | [] => 0
    | [a] => a.toNat * 256
    | a :: b :: t => a.toNat * 256 + b.toNat + words t
  let x := words bs
  let x := if x = 0 then 0 else (x - 1) % 65535 + 1
  65535 - x

/-- The Ethernet header with the port's VLAN tag. -/
def etherHeader (q : Port) (dmac ethertype : Nat) : List Byte :=
  beBytes 6 dmac ++ beBytes 6 q.mac ++ (if q.vlan = 0 then [] else beBytes 2 0x8100 ++ beBytes 2 q.vlan) ++ beBytes 2 ethertype

/-- A UDP datagram on IPv4 or IPv6 (R270); `ident` fills the IPv4 identification or the IPv6 flow label, which the manual
leaves open. -/
def udpFrame (q : Port) (dmac : Nat) (v6 : Bool) (dst dscp sport dport ident : Nat) (body : List Byte) : List Byte :=
  let ulen := 8 + body.length
  let udp (ck : Nat) : List Byte := beBytes 2 sport ++ beBytes 2 dport ++ beBytes 2 ulen ++ beBytes 2 ck
  let nz (x : Nat) : Nat := if x = 0 then 65535 else x
  if v6 then
    let pseudo := beBytes 16 q.ipv6 ++ beBytes 16 dst ++ beBytes 4 ulen ++ beBytes 4 17
    let ck := nz (inetSum (pseudo ++ udp 0 ++ body))
    etherHeader q dmac 0x86DD ++ beBytes 4 (6 * 2 ^ 28 + dscp * 4 * 2 ^ 20 + ident % 2 ^ 20) ++ beBytes 2 ulen ++
      [17, 64] ++ beBytes 16 q.ipv6 ++ beBytes 16 dst ++ udp ck ++ body
  else
    let dst4 := dst % 2 ^ 32
    let pseudo := beBytes 4 q.ipv4 ++ beBytes 4 dst4 ++ beBytes 2 17 ++ beBytes 2 ulen
    let ck := nz (inetSum (pseudo ++ udp 0 ++ body))
    let hd (c : Nat) : List Byte := [0x45] ++ beBytes 1 (dscp * 4) ++ beBytes 2 (20 + ulen) ++ beBytes 2 (ident % 65536) ++
      beBytes 2 0x4000 ++ [64, 17] ++ beBytes 2 c ++ beBytes 4 q.ipv4 ++ beBytes 4 dst4
    etherHeader q dmac 0x0800 ++ hd (inetSum (hd 0)) ++ udp ck ++ body

/-! ### Route maps (R261 to R265) -/

/-- A little-endian field of a byte list. -/
def fieldAt (bs : List Byte) (o n : Nat) : Nat := leNat ((bs.drop o).take n)

/-- A node-table entry (R263). -/
structure NodeEntry where
  node : Nat
  mask : Nat
  v6 : Bool
  viaGateway : Bool
  dmac : Nat
  ip : Nat
deriving DecidableEq, Repr

/-- Node-table entry i of a map. -/
def nodeEntry (m : List Byte) (i : Nat) : NodeEntry :=
  let o := 192 + 32 * i
  { node := fieldAt m o 2, mask := fieldAt m (o + 2) 1, v6 := bitOf (fieldAt m (o + 3) 1) 0,
    viaGateway := bitOf (fieldAt m (o + 3) 1) 1, dmac := beNat ((m.drop (o + 8)).take 6), ip := beNat ((m.drop (o + 16)).take 16) }

/-- The node table of a map. -/
def mapNodes (m : List Byte) : List NodeEntry := (List.range (fieldAt m 8 2)).map (nodeEntry m)

/-- A ring-table entry (R264). -/
structure RingEntry where
  fanout : Nat
  members : List Nat
deriving DecidableEq, Repr

/-- The ring table from offset o on: n entries. -/
def ringsFrom (m : List Byte) : Nat → Nat → List RingEntry
  | 0, _ => []
  | n + 1, o =>
    let k := fieldAt m o 2
    { fanout := fieldAt m (o + 2) 1, members := (List.range k).map fun i => fieldAt m (o + 8 + 2 * i) 2 } ::
      ringsFrom m n (o + 8 + roundUp (2 * k) 8)

/-- Offsets of the first n ring entries from offset o on. -/
def ringOffsets (m : List Byte) : Nat → Nat → List Nat
  | 0, _ => []
  | n + 1, o => o :: ringOffsets m n (o + 8 + roundUp (2 * fieldAt m o 2) 8)

/-- Bytes of the ring table of n entries from offset o on. -/
def ringBytes (m : List Byte) : Nat → Nat → Nat
  | 0, _ => 0
  | n + 1, o =>
    let k := 8 + roundUp (2 * fieldAt m o 2) 8
    k + ringBytes m n (o + k)

/-- The ring table of a map. -/
def mapRings (m : List Byte) : List RingEntry := ringsFrom m (fieldAt m 10 2) (192 + 32 * fieldAt m 8 2)

/-- A port's role, line, partner and neighbour in a map (R262). -/
def mapPort (m : List Byte) (p : Nat) : Nat × Nat × Nat × Nat :=
  let o := 64 + 16 * p
  (fieldAt m o 1, fieldAt m (o + 1) 1, fieldAt m (o + 2) 1, fieldAt m (o + 4) 2)

/-- The active bank's map. -/
def State.activeMap (s : State) : Option (List Byte) :=
  (s.fabric.active.bind fun b => Kv.get b s.fabric.banks).map (·.map)

/-- The node entry of a node in the active bank. -/
def State.nodeOf (s : State) (n : Nat) : Option NodeEntry :=
  (s.activeMap).bind fun m => (mapNodes m).find? fun e => decide (e.node = n)

/-- Is a node present in the active route map (R4). -/
def State.nodePresent (s : State) (n : Nat) : Bool := (s.nodeOf n).isSome

/-- The part's present node number: its configured number, or the one that it assumed at promotion (R265, R339). -/
def State.selfNode (s : State) : Nat := s.fabric.node

/-- Up ports of a mask in ascending order. -/
def State.upPorts (s : State) (mask : Nat) : List Nat := (List.range 8).filter fun p => bitOf mask p && s.portUp p

/-- A ring entry of the active bank. -/
def State.ringOf (s : State) (i : Nat) : Option RingEntry := (s.activeMap).bind fun m => (mapRings m)[i]?

/-- Node numbers of the identity table, one of which a spare assumes at promotion (R338). -/
def State.identityNodes (s : State) : List Nat :=
  match Kv.get 0x14 s.boot.inForce with
  | some t => (List.range (fieldAt t 4 2)).map fun i => fieldAt t (16 + 224 * i) 2
  | none => []

/-- The checks of one ring entry at offset o, in its own order: the offset of each field that fails (R6, R264, R265). -/
def ringChecks (m : List Byte) (nodes : List Nat) (self : Nat) (r : RingEntry) (o : Nat) : List (Option Nat) :=
  let need (c : Bool) (o : Nat) : Option Nat := if c then none else some o
  let k := r.members.length
  [need (decide (2 ≤ k) && decide (k ≤ 4096)) o, need (decide (2 ≤ r.fanout) && decide (r.fanout ≤ 16)) (o + 2), firstNonzero m (o + 3) (o + 8)] ++
    (r.members.zipIdx.map fun x => need (decide (x.1 ∉ r.members.take x.2) && decide (x.1 ∈ nodes)) (o + 8 + 2 * x.2)) ++
    [need (decide (self ∈ r.members)) (o + 8), firstNonzero m (o + 8 + 2 * k) (o + 8 + roundUp (2 * k) 8)]

/-- The map check of R265, whose SELF_NODE may also be one that the spare may assume at promotion (R269; DEDUCED, assumption 94): the offset of the first field that fails. `have'` is the length of the MAP descriptor. -/
def State.checkMap (s : State) (m : List Byte) (have' : Nat) : Option Nat :=
  let n := fieldAt m 8 2
  let nodes := mapNodes m
  let direct := fieldAt m 6 1
  let roles := (List.range 8).map fun p => (p, mapPort m p)
  let self := fieldAt m 4 2
  let ringOff := 192 + 32 * n
  let rings := mapRings m
  let zeroAt (lo hi : Nat) : Option Nat := firstNonzero m lo (hi + 1)
  let first : List (Option Nat) → Option Nat := fun l => l.findSome? id
  let need (c : Bool) (o : Nat) : Option Nat := if c then none else some o
  let ringTarget (p : Nat) : Bool := (decide (1 ≤ (mapPort m p).1) && decide ((mapPort m p).1 ≤ 5))
  first ([need (decide (m.take 4 = ascii "KVRM")) 0, need (decide (self = s.fabric.node) || decide (self ∈ s.identityNodes)) 4, need (decide (direct ≤ 1)) 6,
    zeroAt 7 7, need (decide (1 ≤ n) && decide (n ≤ 4096)) 8, need (decide (fieldAt m 10 2 ≤ 64)) 10,
    need (decide (ringOff + fieldAt m 12 4 ≤ min 262144 have') && decide (ringBytes m (fieldAt m 10 2) ringOff = fieldAt m 12 4)) 12,
    zeroAt 16 63] ++
    (roles.flatMap fun r =>
      let o := 64 + 16 * r.1
      let (role, line, partner, nb) := r.2
      [need (decide (role ≤ 6) && (if direct = 0 then decide (role ≤ 1) else decide (role ≠ 1)) &&
          (decide (role = 0) || ((s.port r.1).map fun q => decide (q.mode ≠ 0)).getD false)) o,
       need (if role = 2 ∨ role = 3 then decide (line < 4) &&
          decide ((roles.filter fun x => x.2.1 = 2 ∧ x.2.2.1 = line).length = 1) &&
          decide ((roles.filter fun x => x.2.1 = 3 ∧ x.2.2.1 = line).length = 1) else decide (line = 0)) (o + 1),
       need (if role = 6 then decide (partner < 8) && decide (partner ≠ r.1) && decide ((mapPort m partner).1 = 6) &&
          decide ((mapPort m partner).2.2.1 = r.1) &&
          decide ((s.port partner).map (·.mode) = (s.port r.1).map (·.mode)) else decide (partner = 0)) (o + 2),
       zeroAt (o + 3) (o + 3),
       need (if role = 0 ∨ role = 1 ∨ role = 6 then decide (nb = 0xFFFF) else true) (o + 4),
       zeroAt (o + 6) (o + 15)]) ++
    ((List.range n).flatMap fun i =>
      let e := nodeEntry m i
      let o := 192 + 32 * i
      let isSelf := decide (e.node = self)
      [need (decide (i = 0) || decide ((nodeEntry m (i - 1)).node < e.node)) o,
       need (if isSelf then decide (e.mask = 0) else decide (e.mask ≠ 0) && (List.range 8).all fun p => !bitOf e.mask p || ringTarget p)
         (o + 2),
       need (decide (fieldAt m (o + 3) 1 < 4)) (o + 3),
       need (decide (fieldAt m (o + 4) 2 < 4096) && (decide (direct = 1) || decide (fieldAt m (o + 4) 2 = 0))) (o + 4),
       zeroAt (o + 6) (o + 7),
       need (isSelf || decide (direct = 1) || (if e.viaGateway then decide (e.dmac = 0) else decide (e.dmac ≠ 0))) (o + 8),
       zeroAt (o + 14) (o + 15),
       need (isSelf || decide (direct = 1) || decide (e.ip ≠ 0)) (o + 16)]) ++
    [need (nodes.any fun e => decide (e.node = self)) 4] ++
    ((rings.zip (ringOffsets m rings.length ringOff)).flatMap fun r => ringChecks m (nodes.map (·.node)) self r.1 r.2))

/-! ### Slot schedules (R150, R151) -/

/-- A schedule entry: start in ns, length in units of 100 ns, class, ports. -/
def schedEntry (bs : List Byte) (i : Nat) : Nat × Nat × Nat × Nat :=
  (fieldAt bs (8 * i) 4, fieldAt bs (8 * i + 4) 2, fieldAt bs (8 * i + 6) 1, fieldAt bs (8 * i + 7) 1)

/-- The entries of a schedule. -/
def schedEntries (bs : List Byte) : List (Nat × Nat × Nat × Nat) := (List.range (bs.length / 8)).map (schedEntry bs)

/-- The check of R150 against a period in µs: the offset of the first failing field. -/
def checkSchedule (bs : List Byte) (period : Nat) : Option Nat :=
  let es := schedEntries bs
  ((List.range es.length).flatMap fun i =>
    let e := schedEntry bs i
    let shared := (es.take i).filter fun x => Nat.land x.2.2.2 e.2.2.2 ≠ 0
    let need (c : Bool) (o : Nat) : Option Nat := if c then none else some (8 * i + o)
    [need (shared.all fun x => decide (x.1 ≤ e.1)) 0,
     need (decide (10 ≤ e.2.1) && decide (e.1 + 100 * e.2.1 ≤ period * 1000) &&
       (shared.all fun x => decide (x.1 + 100 * x.2.1 ≤ e.1))) 4,
     need (decide (e.2.2.1 ≤ 2)) 6, need (decide (e.2.2.2 ≠ 0)) 7]).findSome? id

/-- The end of a schedule's last slot in ns. -/
def schedEnd (bs : List Byte) : Nat := ((schedEntries bs).map fun e => e.1 + 100 * e.2.1).foldl max 0

/-- The schedule in force: none while it is suspended (R154) or no bank is active. -/
def State.schedule (s : State) : Option (List (Nat × Nat × Nat × Nat)) :=
  if s.strk.align = .acquiring ∨ s.strk.align = .unaligned then none
  else (s.fabric.active.bind fun b => Kv.get b s.fabric.banks).map fun b => schedEntries b.schedule

/-- The schedule entry that covers an instant on a port, guard included. -/
def slotAt (es : List (Nat × Nat × Nat × Nat)) (p now : Nat) : Option (Nat × Nat × Nat × Nat) :=
  es.find? fun e => bitOf e.2.2.2 p && decide (e.1 ≤ now) && decide (now < e.1 + 100 * e.2.1)

/-- The time in ns of n bytes on port p at its present rate. -/
def State.frameTime (s : State) (p n : Nat) : Nat := ceilDiv (n * 8) (max 1 (portRate (((s.port p).map (·.mode)).getD 0)))

/-- Does a frame of `ns` end before the stretch of uncovered time on a port ends: at the next slot's start in this stroke or the next, which
begins after `period` ns (R150, R151; DEDUCED, assumption 162). -/
def endsUncovered (es : List (Nat × Nat × Nat × Nat)) (p period now ns : Nat) : Bool :=
  let own := es.filter fun e => bitOf e.2.2.2 p
  own.all fun e => decide (now + ns ≤ (if now < e.1 then e.1 else period + e.1))

/-- May a frame of class c and n bytes begin on port p, `now` ns after the boundary (R151, R154): `queued k` says that a frame of class k is
queued at the port. A slot lends its open time to best effort while none of its own class is queued, and the last bit must leave before the
stretch of time ends for a frame on loan as for one of the slot's class (assumption 162). -/
def State.mayBegin (s : State) (p c n now : Nat) (queued : Nat → Bool) : Bool :=
  let ns := s.frameTime p n
  match s.schedule with
  | none => decide (c ≠ 2) || !(queued 0 || queued 1)
  | some es =>
    match slotAt es p now with
    | some e =>
      (decide (e.2.2.1 = c) || (decide (c = 2) && !queued e.2.2.1)) &&
        decide (e.1 + 100 ≤ now) && decide (now + ns ≤ e.1 + 100 * e.2.1)
    | none => decide (c = 2) && endsUncovered es p (s.strk.period * 1000) now ns

/-! ### Links (R255) -/

/-- LINK_UP after 100 ms of lock (R255). -/
def execLinkUp (port : Nat) (s : State) : Host.Outcome State Fault Refusal :=
  .next (match s.port port with
    | some q =>
      if q.mode = 0 ∨ q.up ∨ s.power.stopped then s
      else (s.updPort port fun q => { q with up := true }).logEvent 0x0501 13 port noContext 0 1
    | none => s)

/-- LINK_DOWN after 1 ms without lock (R255). -/
def execLinkDown (port : Nat) (s : State) : Host.Outcome State Fault Refusal :=
  .next (match s.port port with
    | some q =>
      if q.up then ((s.updPort port fun q => { q with up := false }).portCount port 3 1).logEvent 0x0501 13 port noContext 0 0
      else s
    | none => s)

/-! ### Received frames (R254) -/

/-- An Ethernet frame's payload: ethertype and bytes, when the VLAN is the port's. -/
def etherBody (q : Port) (f : List Byte) : Option (Nat × List Byte) :=
  let t := beNat ((f.drop 12).take 2)
  if q.vlan = 0 then (if t = 0x8100 then none else some (t, f.drop 14))
  else if t = 0x8100 ∧ beNat ((f.drop 14).take 2) % 4096 = q.vlan then some (beNat ((f.drop 16).take 2), f.drop 18) else none

/-- The ARP reply to a request for the port's IPv4 address (RFC 826; assumption 9). -/
def arpReply (q : Port) (b : List Byte) : Option (List Byte) :=
  if b.take 8 = beBytes 2 1 ++ beBytes 2 0x0800 ++ [6, 4] ++ beBytes 2 1 ∧ q.ipv4 ≠ 0 ∧ beNat ((b.drop 24).take 4) = q.ipv4 then
    let sha := (b.drop 8).take 6
    let spa := (b.drop 14).take 4
    some (etherHeader q (beNat sha) 0x0806 ++ b.take 6 ++ beBytes 2 2 ++ beBytes 6 q.mac ++ beBytes 4 q.ipv4 ++ sha ++ spa)
  else none

/-- The reply to an ICMP echo request for the port's address (RFC 792; assumption 9). -/
def echoReply4 (q : Port) (src : Nat) (b : List Byte) : Option (List Byte) :=
  let ihl := (b.getD 0 0).toNat % 16 * 4
  let len := beNat ((b.drop 2).take 2)
  let icmp := (b.take len).drop ihl
  if (b.getD 9 0) = 1 ∧ q.ipv4 ≠ 0 ∧ beNat ((b.drop 16).take 4) = q.ipv4 ∧ icmp.take 2 = [8, 0] then
    let body := icmp.drop 4
    let ck := inetSum ([0, 0] ++ [0, 0] ++ body)
    let hd (c : Nat) : List Byte := [0x45, 0] ++ beBytes 2 (20 + icmp.length) ++ (b.drop 4).take 4 ++ [64, 1] ++ beBytes 2 c ++
      beBytes 4 q.ipv4 ++ (b.drop 12).take 4
    some (etherHeader q src 0x0800 ++ hd (inetSum (hd 0)) ++ [0, 0] ++ beBytes 2 ck ++ body)
  else none

/-- An ICMPv6 message from the port, with its checksum (RFC 4443; assumption 9). -/
def icmp6 (q : Port) (dmac dst : Nat) (ty code : Byte) (body : List Byte) : List Byte :=
  let pseudo := beBytes 16 q.ipv6 ++ beBytes 16 dst ++ beBytes 4 (4 + body.length) ++ beBytes 4 58
  let ck := inetSum (pseudo ++ [ty, code, 0, 0] ++ body)
  etherHeader q dmac 0x86DD ++ beBytes 4 (6 * 2 ^ 28) ++ beBytes 2 (4 + body.length) ++ [58, 255] ++ beBytes 16 q.ipv6 ++
    beBytes 16 dst ++ [ty, code] ++ beBytes 2 ck ++ body

/-- The answer to a neighbour solicitation or an ICMPv6 echo request for the port's address (RFC 4861, RFC 4443;
assumption 9): whether it is an echo, and the frame. -/
def reply6 (q : Port) (src : Nat) (b : List Byte) : Option (Bool × List Byte) :=
  let m := b.drop 40
  let from' := beNat ((b.drop 8).take 16)
  if (b.getD 6 0) = 58 ∧ q.ipv6 ≠ 0 then
    (if m.take 1 = [135] ∧ beNat ((m.drop 8).take 16) = q.ipv6 then
      some (false, icmp6 q src from' 136 0 (beBytes 4 0x6000_0000 ++ beBytes 16 q.ipv6 ++ [2, 1] ++ beBytes 6 q.mac))
     else if m.take 1 = [128] ∧ beNat ((b.drop 24).take 16) = q.ipv6 then
      some (true, icmp6 q src from' 129 0 ((m.take (beNat ((b.drop 4).take 2))).drop 4))
     else none)
  else none

/-- The UDP destination port of an IP packet, when it is UDP to the port's address. -/
def udpDport (q : Port) (ty : Nat) (b : List Byte) : Option Nat :=
  if ty = 0x0800 ∧ (b.getD 9 0) = 17 ∧ beNat ((b.drop 16).take 4) = q.ipv4 then
    some (beNat ((b.drop ((b.getD 0 0).toNat % 16 * 4 + 2)).take 2))
  else if ty = 0x86DD ∧ (b.getD 6 0) = 17 ∧ beNat ((b.drop 24).take 16) = q.ipv6 then some (beNat ((b.drop 42).take 2))
  else none

/-- Is an echo request within the 100 that a port answers in a second (R254). -/
def State.echoAllowed (s : State) (q : Port) : Bool :=
  decide (q.echoes.1 ≠ s.strk.elapsed / 10 ^ 9) || decide (q.echoes.2 < 100)

/-- Answer an echo request and count it. -/
def State.answerEcho (s : State) (p : Nat) (f : List Byte) : State :=
  let sec := s.strk.elapsed / 10 ^ 9
  (s.updPort p fun q => { q with echoes := (sec, if q.echoes.1 = sec then q.echoes.2 + 1 else 1) }).transmit p f

/-- FRAME_RECEIVED: the action of R254. A Stylus or PTP datagram is only counted here: its packet is a row of its own. -/
def execFrameReceived (port : Nat) (frame : List Byte) (s : State) : Host.Outcome State Fault Refusal :=
  .next (match s.port port with
    | none => s
    | some q =>
      if q.mode = 0 ∨ ¬ q.up then s
      else
        let body := frame.take (frame.length - 4)
        let s := s.portCount port 1 1
        let dropIt := s.portCount port 2 1
        let dm := beNat (frame.take 6)
        let sm := beNat ((frame.drop 6).take 6)
        if crc32 body ≠ leNat (frame.drop (frame.length - 4)) ∨ q.maxFrame < frame.length then dropIt
        else if dm ≠ q.mac ∧ dm ≠ 2 ^ 48 - 1 ∧ ¬ (dm / 2 ^ 32 = 0x3333 ∧ (etherBody q body).any fun x => (reply6 q sm x.2).isSome) then dropIt
        else match etherBody q body with
          | none => dropIt
          | some (ty, b) =>
            if ty = 0x0806 then
              (match arpReply q b with
               | some r => s.transmit port r
               | none => dropIt)
            else match udpDport q ty b with
              | some d =>
                if d = s.fabric.udpPort ∨ ((d = 319 ∨ d = 320) ∧ s.strk.source = 1 ∧ s.strk.port = port) then s else dropIt
              | none =>
                match (if ty = 0x0800 then (echoReply4 q sm b).map fun r => (true, r) else if ty = 0x86DD then reply6 q sm b else none) with
                | some (true, r) => if s.echoAllowed q then s.answerEcho port r else dropIt
                | some (false, r) => s.transmit port r
                | none => dropIt)

/-! ### Sending to a node, transit and wrap (R256 to R259, R263) -/

/-- The frame of a packet toward a node entry on a port (R270, R283): the Stylus packet from its header on. -/
def State.frameFor (s : State) (p : Nat) (e : NodeEntry) (cls : Nat) (pkt : List Byte) : List Byte × State :=
  match s.port p with
  | none => ([], s)
  | some q =>
    let (id, s) := s.draw 20
    let dmac := if e.viaGateway then q.gateway else e.dmac
    let sport := 0xC000 + (fieldAt pkt 10 2 * 8 + p) % 16384
    (udpFrame q dmac e.v6 e.ip (s.fabric.dscp.getD cls 0) sport s.fabric.udpPort id pkt, s)

/-- A packet leaves toward a node entry. -/
def State.sendPacket (s : State) (p : Nat) (e : NodeEntry) (cls : Nat) (pkt : List Byte) : State :=
  if (s.port p).isNone then s else
  let (f, s) := s.frameFor p e cls pkt
  s.transmit p f

/-- A packet with its WRAP bit set and its HOPS. -/
def packetWith (pkt : List Byte) (wrap : Bool) (hops : Nat) : List Byte :=
  pkt.take 1 ++ leBytes 1 (setBits ((pkt.getD 1 0).toNat) 7 7 (b2n wrap)) ++ leBytes 2 (fieldAt pkt 2 2 / 4096 * 4096 + hops) ++ pkt.drop 4

/-- The other port of the physical ring on which a port stands (R259). -/
def State.ringMate (s : State) (p : Nat) : Option Nat :=
  (s.activeMap).bind fun m =>
    let (role, line, _, _) := mapPort m p
    if role = 2 ∨ role = 3 then
      (List.range 8).find? fun q => decide (q ≠ p) && decide ((mapPort m q).1 = 5 - role) && decide ((mapPort m q).2.1 = line)
    else none

/-- The node entry through which a ring port is reached: its neighbour's, or the destination's own. -/
def State.entryVia (s : State) (p dest : Nat) : NodeEntry :=
  match (s.activeMap).bind fun m => s.nodeOf (mapPort m p).2.2.2 with
  | some e => e
  | none => (s.nodeOf dest).getD { node := dest, mask := 0, v6 := false, viaGateway := false, dmac := 0, ip := 0 }

/-! ### Bank switches (R201, R266) -/

/-- The bytes of a LINEAR descriptor's extent. -/
def State.descBytes (s : State) (v : View) (d : Desc) : List Byte := s.vread v.ctx v.bound d.base d.extent

/-- ROUTEMAP_SWITCH's fields (R201, R154). -/
def State.checkRoutemapSwitch (s : State) (p : Packet) : Check := do
  ensure (Kv.has (p.at 64 1) s.fabric.banks) (badField 64)
  zeroBytes p 65 71
  ensure (decide (s.strk.now + 2 ≤ p.at 72 6)) (badField 72)
  ensure s.fabric.switch.isNone (conflict scSwitchPending)
  zeroBytes p 78 79
  ensure (decide (s.strk.align ≠ .acquiring) && decide (s.strk.align ≠ .unaligned)) (conflict scUnaligned)

/-- ROUTEMAP_SWITCH schedules a bank for a stroke (R266). -/
def execRoutemapSwitch (p : Packet) (s : State) : Host.Outcome State Fault Refusal :=
  .next (s.forOp p 0x0D03 (s.runNow p fun s _ _ => do
    s.checkRoutemapSwitch p
    return ({ s with fabric := { s.fabric with switch := some (p.at 64 1, p.at 72 6) } }, Ending.ok 0 0)))

/-- Action 2 of R140: a switch scheduled for this stroke takes effect, and the schedule restarts at slot 0 (R266). -/
def State.bankSwitch (s : State) : State :=
  let f := s.fabric
  let f := match f.switch with
    | some (b, n) => if n ≤ s.strk.now then { f with active := some b, switch := none } else f
    | none => f
  { s with fabric := { f with ports := f.ports.map fun e => (e.1, { e.2 with slot := none }) } }

/-! ### Pass-through and announcements (R268, R269) -/

/-- PASS_THROUGH_FRAME: a frame on a PASS port leaves on its partner, unchanged; only a bad FCS drops it (R268). Whether the
part is a spare in standby is checked through the roles of the active bank. -/
def State.passThrough (s : State) (port : Nat) (frame : List Byte) : State :=
  match s.activeMap with
  | none => s
  | some m =>
    let (role, _, partner, _) := mapPort m port
    if role ≠ 6 ∨ ¬ s.portUp port ∨ ¬ s.portUp partner then s
    else
      let body := frame.take (frame.length - 4)
      if crc32 body ≠ leNat (frame.drop (frame.length - 4)) then (s.portCount port 1 1).portCount port 2 1
      else (s.portCount port 1 1).transmit partner body

/-- The unsolicited ARP reply and IPv6 neighbour advertisement of a port (R269). -/
def announcements (q : Port) : List (List Byte) :=
  (if q.ipv4 = 0 then [] else [etherHeader q (2 ^ 48 - 1) 0x0806 ++ beBytes 2 1 ++ beBytes 2 0x0800 ++ [6, 4] ++ beBytes 2 2 ++
    beBytes 6 q.mac ++ beBytes 4 q.ipv4 ++ beBytes 6 (2 ^ 48 - 1) ++ beBytes 4 q.ipv4]) ++
  (if q.ipv6 = 0 then [] else [icmp6 q 0x3333_0000_0001 (0xFF02 * 2 ^ 112 + 1) 136 0
    (beBytes 4 0x2000_0000 ++ beBytes 16 q.ipv6 ++ [2, 1] ++ beBytes 6 q.mac)])

/-- PROMOTION_ANNOUNCEMENT: one of the three at 1 ms intervals, on every port that is up (R269). -/
def execPromotionAnnouncement (s : State) : Host.Outcome State Fault Refusal :=
  .next (if s.fabric.announce = 0 then s
    else
      let s := (List.range 8).foldl (fun s p => match s.port p with
        | some q => if q.up then (announcements q).foldl (fun s f => s.transmit p f) s else s
        | none => s) s
      { s with fabric := { s.fabric with announce := s.fabric.announce - 1 } })

end Sys2Proof.Machine
end

