-- ==== Sys2Proof/Machine/Stylus.lean ====
section
/-! DEFINITION. Stylus, the sender's side (16_stylus_transport.md): queue pairs, their state cache, posted and armed requests,
and the sending of packets. -/

namespace Sys2Proof.Machine

/-! ### Queue pairs and the state cache (R274, R285) -/

/-- Queue pair k. -/
def State.qp (s : State) (k : Nat) : Option Qp := Kv.get k s.stylus.qps

/-- Change a queue pair, if it exists. -/
def State.updQp (s : State) (k : Nat) (f : Qp → Qp) : State :=
  { s with stylus := { s.stylus with qps := Kv.upd k f s.stylus.qps } }

/-- The code of a queue pair's state (R274). -/
def QpState.code : QpState → Nat
  | .reset => 0 | .keyed => 1 | .connected => 2 | .error => 3

/-- Is the state of queue pair k on chip (R285). -/
def State.onChip (s : State) (k : Nat) : Bool := decide (k ∈ s.stylus.chip)

/-- Does eviction pass this entry by while another can go: an unacknowledged packet or an armed INK_COUNT trigger (R285). -/
def State.keepsOnChip (s : State) (k : Nat) : Bool :=
  match s.qp k with
  | some q => (q.unacked.any fun x => !x.acked) || (q.armed.any fun a => a.kind == 2)
  | none => false

/-- The four lines of queue pair k in the backing area pass through the host-line cache in COHERENT mode (R229, R285). -/
def State.backingLines (s : State) (k : Nat) : State :=
  (List.range 4).foldl (fun (s : State) i => s.hostLine (hostBase + s.host.qpBacking + 256 * k + 64 * i)) s

/-- The state of an evicted queue pair goes to its 256 bytes of the backing area: the LINE path in COHERENT mode (R228, R229), uncached writes
otherwise. The manual gives those bytes no layout: they are a free value (assumption 164). -/
def State.storeQp (s : State) (k : Nat) : State :=
  let (v, s) := s.draw 2048
  (s.backingLines k).physWrite (hostBase + s.host.qpBacking + 256 * k) (leBytes 256 v)

/-- Bring queue pair k on chip, evicting the least recently used entry that may go: its state is written to the backing area (R285). -/
def State.useQp (s : State) (k : Nat) : State :=
  let rest := s.stylus.chip.filter (· ≠ k)
  let victim : Option Nat := if rest.length < 2048 then none
    else (rest.reverse.find? fun j => !s.keepsOnChip j).orElse fun _ => rest.getLast?
  match victim with
  | none => { s with stylus := { s.stylus with chip := k :: rest } }
  | some j => ({ s with stylus := { s.stylus with chip := k :: rest.filter (· ≠ j) } } : State).storeQp j

/-- Queue pair k is needed: its state is read from the backing area where it is not on chip (R229, R285). -/
def State.bringQp (s : State) (k : Nat) : State := if s.onChip k then s.useQp k else (s.useQp k).backingLines k

/-- A queue pair as QP_CREATE makes it (R274). -/
def newQp (owner cls : Nat) (encrypt spray : Bool) (window : Nat) : Qp :=
  { owner := owner, cls := cls, encrypt := encrypt, spray := spray, window := window, state := .reset, peerNode := 0,
    peerQp := 0, startPsn := 0, key := none, initiated := none, recvs := [], armed := [], sends := [], nextMsn := 0,
    nextPsn := 0, unacked := [], oldest := 0, sendings := 0, rtt := none, rto := 16000, expiries := 0, retrans := 0,
    cum := 0, received := [], messages := [], nextMatch := 0, nextDone := 0, inks := [], sinceAck := 0, echo := 0,
    ackSeq := 0, acks := [], cause := none, authFails := 0 }

/-- The 24-bit PSN of a count (R276). -/
def Qp.psn (q : Qp) (count : Nat) : Nat := (q.startPsn + count) % 2 ^ 24

/-! ### Held queue pairs (R298, R314, R329) -/

/-- The queue-pair fields of a command that holds the queue pair it names while it runs (R314, R330, R332, R340). -/
def qpHolds (p : Packet) : List Nat :=
  match p.opcode with
  | 0x0902 => [72]
  | 0x0903 => [76, 80]
  | 0x0A02 => if p.at 69 1 = 0 then [76] else []
  | 0x0A03 => if p.at 76 1 = 0 then [68] else []
  | 0x0A04 => [76]
  | 0x0A08 => [68]
  | _ => []

/-- The queue pairs of a Crosshatch group. -/
def XhGroup.qps (g : XhGroup) : List Nat := g.prev.toList ++ g.next.toList ++ g.children

/-- The group of a context that holds queue pair k (R298). -/
def State.groupOf (s : State) (n k : Nat) : Option Nat :=
  (Kv.get n s.ctxs).bind fun c => (c.groups.find? fun e => decide (k ∈ e.2.qps)).map (·.1)

/-- Does a command hold its queue pairs: while it runs, a shard command from the lane on that it waits for before it runs (R315). -/
def Cmd.holds (c : Cmd) : Bool := decide (c.phase = .running)

/-- Running commands that hold queue pair k. -/
def State.holdersOf (s : State) (k : Nat) : List Cmd :=
  s.cmds.filter fun c => c.holds && (qpHolds c.pkt).any fun o => decide (c.pkt.at o 4 = k)

/-- Is queue pair k a KEEP_QP of its context's ledger (R329): the ledger's copy of its header. -/
def State.keepQp (s : State) (n k : Nat) : Bool :=
  match (Kv.get n s.ctxs).bind (·.ledger) with
  | some l => decide (k ∈ l.keepQps)
  | none => false

/-- Does the part hold queue pair k for itself (R298, R314, R329). -/
def State.qpHeld (s : State) (k : Nat) : Bool :=
  match s.qp k with
  | none => false
  | some q => (s.groupOf q.owner k).isSome || s.keepQp q.owner k || !(s.holdersOf k).isEmpty

/-! ### Class 0x07 (R195) -/

/-- The QP field names a queue pair of context n. -/
def State.needQp (s : State) (n k detail : Nat) : Except Ending Qp :=
  match s.qp k with
  | some q => if q.owner = n then .ok q else .error (.fail .accessDenied detail)
  | none => .error (.fail .accessDenied detail)

/-- Check QP_CREATE (R195, R441). -/
def State.checkQpCreate (s : State) (p : Packet) : Check := do
  let k := p.at 64 4
  ensure (decide (k < 65536) || decide (k = 0xFFFF_FFFF)) (badField 64)
  ensure (decide (k = 0xFFFF_FFFF) || (s.qp k).isNone) (conflict scQpExists)
  ensure (decide (k ≠ 0xFFFF_FFFF) || (Kv.lowestFree 0 65536 s.stylus.qps).isSome) (.fail .noResource 64)
  ensure (decide (s.host.qpBacking ≠ 0)) (.fail .noResource 64)
  ensure (decide (p.at 68 1 ≤ 2)) (badField 68)
  ensure (decide (p.at 69 1 < 4)) (badField 69)
  ensure (decide (p.at 70 2 ∈ [64, 128, 256, 512, 1024, 2048, 4096, 8192, 16384])) (badField 70)
  zeroBytes p 72 79

/-- QP_CREATE returns the queue pair's number (R195, R274). -/
def execQpCreate (p : Packet) (s : State) : Host.Outcome State Fault Refusal :=
  .next (s.forOp p 0x0701 (s.runNow p fun s c _ => do
    s.checkQpCreate p
    let k := if p.at 64 4 = 0xFFFF_FFFF then (Kv.lowestFree 0 65536 s.stylus.qps).getD 0 else p.at 64 4
    let q := newQp (c.view s).ctx (p.at 68 1) (bitOf (p.at 69 1) 1) (bitOf (p.at 69 1) 0) (p.at 70 2)
    return (({ s with stylus := { s.stylus with qps := Kv.set k q s.stylus.qps } }).useQp k, Ending.ok k 0)))

/-- Check QP_CONNECT (R195, R274). -/
def State.checkQpConnect (s : State) (n : Nat) (p : Packet) : Check := do
  let q ← s.needQp n (p.at 64 4) 64
  ensure (decide (q.state = .reset) || decide (q.state = .keyed)) (conflict scQpConnected)
  ensure (s.nodePresent (p.at 68 2)) (badField 68)
  zeroBytes p 70 71
  ensure (decide (p.at 72 4 < 65536)) (badField 72)
  ensure (decide (p.at 76 4 < 2 ^ 24)) (badField 76)
  ensure (if q.encrypt then decide (q.key.map (·.number) = some (p.at 80 4)) else decide (p.at 80 4 = 0)) (badField 80)
  zeroBytes p 84 95

/-- The effect of QP_CONNECT. -/
def State.connectQp (s : State) (c : Cmd) : Except Ending (State × Ending) := do
  let p := c.pkt
  s.checkQpConnect (c.view s).ctx p
  return (s.updQp (p.at 64 4) fun q =>
    { q with state := .connected, peerNode := p.at 68 2, peerQp := p.at 72 4, startPsn := p.at 76 4 }, Ending.ok 0 0)

/-- QP_CONNECT: an encrypted queue pair installs its keys through class KEY (R274, R392). -/
def execQpConnect (p : Packet) (s : State) : Host.Outcome State Fault Refusal :=
  .next (s.forOp p 0x0702 (if ((s.qp (p.at 64 4)).map (·.encrypt)).getD false then s.runProof p clsKey fun s c _ => s.connectQp c
    else s.runNow p fun s c _ => s.connectQp c))

/-- QP_QUERY returns the state's code and the retransmissions (R182, R274). -/
def execQpQuery (p : Packet) (s : State) : Host.Outcome State Fault Refusal :=
  .next (s.forOp p 0x0707 (s.runNow p fun s c _ => do
    let q ← s.needQp (c.view s).ctx (p.at 64 4) 64
    zeroBytes p 68 79
    return (s, Ending.ok q.state.code q.retrans)))

/-- End a command that is running for a queue pair. -/
def State.finishPost (s : State) (who : Nat × Nat) (e : Ending) : State :=
  s.updCmd who.1 who.2 fun x => { x with phase := .finished e, work := .none }

/-- The commands of a queue pair in post order: posted receives, matched messages, armed and accepted requests, and those that
wait for its state. -/
def State.posts (s : State) (k : Nat) (q : Qp) : List (Nat × Nat) :=
  let all := q.recvs ++ q.messages.filterMap (·.cmd) ++ q.armed.map (fun a => (a.queue, a.seq)) ++ q.sends.filterMap (·.cmd)
  (s.cmds.filter fun c => decide (c.phase = .running) && (decide ((c.queue, c.seq) ∈ all) ||
    (decide (c.pkt.opcode ∈ [0x0704, 0x0705, 0x0706]) && decide (c.pkt.at 64 4 = k)))).map fun c => (c.queue, c.seq)

/-- QP_DESTROY (R290): every request ends with PEER_LOST, the miss buffer forgets the queue pair, keys and number are gone. -/
def execQpDestroy (p : Packet) (s : State) : Host.Outcome State Fault Refusal :=
  .next (s.forOp p 0x0703 (s.runNow p fun s c _ => do
    let k := p.at 64 4
    let q ← s.needQp (c.view s).ctx k 64
    zeroBytes p 68 79
    let s := (s.posts k q).foldl (fun s w => s.finishPost w (.fail .peerLost 64)) s
    let st := s.stylus
    return ({ s with stylus := { st with
      qps := Kv.del k st.qps, chip := st.chip.filter (· ≠ k), miss := st.miss.filter fun m => m.1 ≠ k } }, Ending.ok 0 0)))

/-- A LINEAR buffer on pinned pages (R195, R217). -/
def State.needBuffer (s : State) (n : Nat) (c : Ctx) (h detail : Nat) (write : Bool) : Except Ending Desc := do
  let d ← s.needDesc n h detail write
  ensure (decide (d.layout = 0) && c.descPinned d) (badField detail)
  return d

/-- Check POST_RECV (R195, R298). -/
def State.checkPostRecv (s : State) (n : Nat) (c : Ctx) (p : Packet) : Check := do
  let q ← s.needQp n (p.at 64 4) 64
  ensure (!s.qpHeld (p.at 64 4)) (.fail .accessDenied 64)
  ensure (decide (q.state ≠ .error)) (.fail .peerLost 64)
  ensure (decide (q.recvs.length + (q.messages.filter fun m => m.cmd.isSome).length < q.window)) (.fail .noResource 64)
  let _ ← s.needBuffer n c (p.at 68 4) 68 true

/-- Check POST_SEND and POST_INK (R195, R274, R298). -/
def State.checkPost (s : State) (n : Nat) (c : Ctx) (p : Packet) : Check := do
  let q ← s.needQp n (p.at 64 4) 64
  ensure (!s.qpHeld (p.at 64 4)) (.fail .accessDenied 64)
  ensure (decide (q.state ≠ .error)) (.fail .peerLost 64)
  ensure (decide (q.state = .connected)) (conflict scQpNotConnected)
  (if p.opcode = 0x0705 then
    (if p.at 68 4 = inlineHandle then ensure (decide (0 < p.inlineLen)) (badField 68)
     else do
      let d ← s.needBuffer n c (p.at 68 4) 68 false
      ensure (decide (d.extent ≤ 2 ^ 30)) (badField 68))
   else zeroFields p [(68, 4)])
  ensure (decide (p.at 80 1 ≤ 2)) (badField 80)
  zeroBytes p 81 87
  ensure (if p.at 80 1 = 0 then decide (p.at 88 8 = 0)
    else if p.at 80 1 = 2 then ((s.pinnedInkPa n (p.at 88 8)).map fun a => (s.inkAt a).counter && !(s.inkAt a).malformed).getD false
    else true) (badField 88)
  ensure (decide (p.at 96 2 = 0) || decide (p.at 80 1 = 2)) (badField 96)
  zeroBytes p 98 111

/-- Stylus accepts a request: it takes its place and its MSN (R276). -/
def State.acceptSend (s : State) (k : Nat) (r : SendReq) : State :=
  s.updQp k fun q => { q with sends := q.sends ++ [{ r with msn := q.nextMsn }], nextMsn := (q.nextMsn + 1) % 2 ^ 32 }

/-- The request of a POST_SEND or POST_INK. -/
def State.reqOf (s : State) (n : Nat) (p : Packet) : SendReq :=
  let ink := decide (p.opcode = 0x0706)
  let inl := decide (p.at 68 4 = inlineHandle)
  { cmd := some (p.queue, p.seq), ink := ink, tag := p.at 72 8,
    len := if ink then 0 else if inl then p.inlineLen else ((s.desc n (p.at 68 4)).map (·.extent)).getD 0,
    source := if ink ∨ inl then none else some (p.at 68 4), data := if inl ∧ ¬ ink then p.payload 48 else [],
    msn := 0, first := 0, packets := 0, payload := 0, formed := 0, retrans := 0, status := none, started := none,
    rnr := false }

/-- A message that an engine of the part sends on a queue pair that it holds, for a command if there is one. -/
def State.postHeld (s : State) (k : Nat) (cmd : Option (Nat × Nat)) (tag : Nat) (data : List Byte) : State :=
  s.acceptSend k { cmd := cmd, ink := false, tag := tag, len := data.length, source := none, data := data, msn := 0, first := 0,
                   packets := 0, payload := 0, formed := 0, retrans := 0, status := none, started := none, rnr := false }

/-- Arm a request (R287): a latched arrival of its tag, or a count that already holds, fires it. -/
def State.arm (s : State) (n : Nat) (p : Packet) : State :=
  let kind := p.at 80 1
  let arg := p.at 88 8
  let latched := decide (kind = 1) && ((Kv.get n s.ctxs).map fun c => decide (arg ∈ c.arrivals)).getD false
  let fired := latched || (decide (kind = 2) && s.countReached n arg (p.at 96 2))
  let s := if latched then s.updCtx n fun c => { c with arrivals := c.arrivals.erase arg } else s
  let a : Armed := { queue := p.queue, seq := p.seq, kind := kind, arg := arg, count := p.at 96 2, since := s.strk.now, fired := fired }
  s.updQp (p.at 64 4) fun q => { q with armed := q.armed ++ [a] }

/-- A post reaches its queue pair, whose state is on chip. -/
def State.postNow (s : State) (c : Cmd) : State :=
  let p := c.pkt
  let n := (c.view s).ctx
  let k := p.at 64 4
  let s := (s.begin c .none).useQp k
  if p.opcode = 0x0704 then s.updQp k fun q => { q with recvs := q.recvs ++ [(c.queue, c.seq)] }
  else if p.at 80 1 = 0 then s.acceptSend k (s.reqOf n p) else s.arm n p

/-- Is a command a post to queue pair k. -/
def Cmd.postsTo (c : Cmd) (k : Nat) : Bool := decide (c.pkt.opcode ∈ [0x0704, 0x0705, 0x0706]) && decide (c.pkt.at 64 4 = k)

/-- Was c admitted before d: by the order of admission, and by sequence within a group (R276). -/
def Cmd.before (c d : Cmd) : Bool := decide (c.place < d.place) || (decide (c.place = d.place) && decide (c.seq < d.seq))

/-- Does an earlier post to the same queue pair still wait to start: posts are accepted in the order of their admission (R276). -/
def State.postWaits (s : State) (c : Cmd) : Bool :=
  s.cmds.any fun d => decide (d.phase = .admitted) && d.postsTo (c.pkt.at 64 4) && d.before c

/-- Does a post to queue pair k wait for its state (R285). -/
def State.postFetching (s : State) (k : Nat) : Bool := s.cmds.any fun d => decide (d.phase = .running) && decide (d.work = .counts [1]) && d.postsTo k

/-- A post starts, after those admitted before it: at once where the queue pair's state is on chip, and otherwise once it is fetched (R276,
R285). -/
def State.startPost (s : State) (c : Cmd) (chk : Check) : State :=
  match chk with
  | .error e => s.finish c e
  | .ok _ =>
    if s.postWaits c then s
    else if s.onChip (c.pkt.at 64 4) ∧ ¬ s.postFetching (c.pkt.at 64 4) then s.postNow c
    else s.begin c (.counts [1])

/-- POST_RECV (R277). -/
def execPostRecv (p : Packet) (s : State) : Host.Outcome State Fault Refusal :=
  .next (s.forOp p 0x0704 (match s.startable p with
    | none => s
    | some c => match s.ctxOf c with
      | none => s
      | some x => s.startPost c (s.checkPostRecv (c.view s).ctx x p)))

/-- POST_SEND (R276, R287). -/
def execPostSend (p : Packet) (s : State) : Host.Outcome State Fault Refusal :=
  .next (s.forOp p 0x0705 (match s.startable p with
    | none => s
    | some c => match s.ctxOf c with
      | none => s
      | some x => s.startPost c (s.checkPost (c.view s).ctx x p)))

/-- POST_INK (R249, R287). -/
def execPostInk (p : Packet) (s : State) : Host.Outcome State Fault Refusal :=
  .next (s.forOp p 0x0706 (match s.startable p with
    | none => s
    | some c => match s.ctxOf c with
      | none => s
      | some x => s.startPost c (s.checkPost (c.view s).ctx x p)))

/-! ### Triggers (R287) -/

/-- TRIGGER_FIRE: the oldest request of the queue pair whose condition has held is accepted. -/
def execTriggerFire (qp : Nat) (s : State) : Host.Outcome State Fault Refusal :=
  .next (match s.qp qp with
    | none => s
    | some q =>
      match q.armed.find? (·.fired) with
      | none => s
      | some a =>
        match s.findCmd a.queue a.seq with
        | none => s
        | some c => ((s.updQp qp fun q => { q with armed := q.armed.filter (· ≠ a) }).bringQp qp).acceptSend qp (s.reqOf q.owner c.pkt))

/-- TRIGGER_TIMEOUT: an armed request that has not fired within WAIT_LIMIT strokes. -/
def execTriggerTimeout (qp : Nat) (s : State) : Host.Outcome State Fault Refusal :=
  .next (match s.qp qp with
    | none => s
    | some q =>
      match q.armed.find? fun a => !a.fired &&
          decide (a.since + (((Kv.get a.queue s.queues).map (·.waitLimit)).getD 0) ≤ s.strk.now) with
      | none => s
      | some a =>
        (((s.updQp qp fun q => { q with armed := q.armed.filter (· ≠ a) }).finishPost (a.queue, a.seq) (.fail .timeout 80)).logEvent
          0x0303 7 (qp % 256) q.owner a.queue a.seq))

/-! ### Packets (R271 to R273, R283, R288) -/

/-- The 40-byte header of a DATA or INK packet (R272). -/
def dataHeader (q : Qp) (self k ty : Nat) (first last : Bool) (psn msn off len tag : Nat) : List Byte :=
  leBytes 1 (16 + ty) ++ leBytes 1 (64 * b2n q.encrypt + 32 * b2n first + 16 * b2n last + 4 * q.cls) ++ leBytes 2 0 ++
    leBytes 2 q.peerNode ++ leBytes 2 self ++ leBytes 2 q.peerQp ++ leBytes 2 k ++ leBytes 3 psn ++ [0] ++ leBytes 4 msn ++
    leBytes 4 off ++ leBytes 4 len ++ leBytes 8 tag ++ zeros 4

/-- The header and bitmap of an ACK (R273). -/
def ackHeader (q : Qp) (self k flags statusPsn status : Nat) : List Byte :=
  let top := q.received.foldl max q.cum
  let words := min 16 (ceilDiv (top - q.cum) 64)
  let word (w : Nat) : Nat := ((List.range 64).map fun b => if q.cum + 1 + 64 * w + b ∈ q.received then 2 ^ b else 0).foldl (· + ·) 0
  leBytes 1 18 ++ leBytes 1 (64 * b2n q.encrypt + 4 * q.cls) ++ leBytes 2 0 ++ leBytes 2 q.peerNode ++ leBytes 2 self ++
    leBytes 2 q.peerQp ++ leBytes 2 k ++ leBytes 3 (q.psn q.cum) ++ leBytes 1 flags ++ leBytes 3 statusPsn ++ leBytes 1 status ++
    leBytes 3 (q.psn q.echo) ++ leBytes 1 words ++ leBytes 8 q.ackSeq ++ zeros 8 ++ (List.range words).flatMap fun w => leBytes 8 (word w)

/-- Seal a packet where the queue pair is encrypted (R288): header, plain payload, extended sequence. -/
def sealPacket (q : Qp) (k : Nat) (ack : Bool) (ext : Nat) (hd pay : List Byte) : List Byte :=
  match q.encrypt, q.key with
  | true, some key =>
    hd ++ Config.gcmSeal key.send (leBytes 2 k ++ [if ack then 1 else 0] ++ leBytes 8 ext ++ [0]) hd pay
  | _, _ => hd ++ pay

/-- The port on which a packet numbered x leaves, and whether it is wrapped at its origin (R259, R283). -/
def State.choosePort (s : State) (e : NodeEntry) (x : Nat) : Option (Nat × Bool) :=
  match s.upPorts e.mask with
  | [] =>
    match (s.activeMap).bind fun m => if fieldAt m 6 1 = 1 then (List.range 8).find? (bitOf e.mask ·) else none with
    | some p => (s.ringMate p).bind fun o => if s.portUp o then some (o, true) else none
    | none => none
  | up => (up[x % up.length]?).map fun p => (p, false)

/-- The next up port after the previous one, in ascending order and round again (R283). -/
def State.nextPort (s : State) (e : NodeEntry) (prev x : Nat) : Option (Nat × Bool) :=
  let up := s.upPorts e.mask
  match up.find? (prev < ·), up with
  | some p, _ => some (p, false)
  | none, p :: _ => some (p, false)
  | none, [] => s.choosePort e x

/-- What PORT choice counts by: the PSN with SPRAY, else the queue pair's number (R283). -/
def Qp.portKey (q : Qp) (k count : Nat) : Nat := if q.spray then q.psn count else k

/-- PAYLOAD of a destination (R271). -/
def State.payloadFor (s : State) (e : NodeEntry) : Nat :=
  let ports := match s.upPorts e.mask with
    | [] => (List.range 8).filter (bitOf e.mask ·)
    | up => up
  max 64 (((ports.map fun p => ((s.port p).map (·.maxFrame)).getD 9216).foldl min 9216 - 126) / 64 * 64)

/-- The request whose packet is formed next: requests form in MSN order. -/
def Qp.unformed (q : Qp) : Option SendReq := q.sends.find? fun r => decide (r.packets = 0) || decide (r.formed < r.packets)

/-- What a queue pair sends next: an ACK, a resend, or a new packet within the window (R281). -/
inductive TxKind where
  | ack
  | resend (t : TxPacket)
  | fresh (r : SendReq)
deriving DecidableEq, Repr

/-- The next sending of queue pair k, if any. -/
def Qp.nextTx (q : Qp) : Option TxKind :=
  if ¬ q.acks.isEmpty then some .ack
  else match q.unacked.find? (·.resend) with
    | some t => some (.resend t)
    | none => if q.nextPsn < q.oldest + q.window ∧ q.state = .connected then q.unformed.map .fresh else none

/-- The port of a sending. -/
def State.txPort (s : State) (k : Nat) (q : Qp) (t : TxKind) : Option (Nat × Bool) :=
  (s.nodeOf q.peerNode).bind fun e => match t with
    | .ack => s.choosePort e (q.portKey k q.cum)
    | .resend t => s.nextPort e t.port (q.portKey k t.psn)
    | .fresh _ => s.choosePort e (q.portKey k q.nextPsn)

/-- A number that no queue pair has: the sender of a transit packet. -/
def noPair : Nat := 2 ^ 32

/-- Is a frame of class c queued at port p: of any queue pair but k, or in transit (R258). -/
def State.queuedAt (s : State) (k p c : Nat) : Bool :=
  (s.stylus.qps.any fun e => decide (e.1 ≠ k) && decide (e.2.cls = c) &&
    match e.2.nextTx with
    | some t => decide ((s.txPort e.1 e.2 t).map (·.1) = some p)
    | none => false) ||
  ((s.port p).any fun q => q.waiting.any fun w => decide (w.1 = c))

/-- Bytes of a packet on the wire. -/
def State.frameBytes (s : State) (p : Nat) (e : NodeEntry) (pkt : List Byte) : Nat :=
  14 + (if ((s.port p).map (·.vlan)).getD 0 = 0 then 0 else 4) + (if e.v6 then 40 else 20) + 8 + pkt.length + 4

/-- Let the transit packets that wait on port p begin from `now` on, each after the one before it has left (R151, R258): those whose class may
not begin yet stay, in their order. -/
def State.drainTransit (s : State) (p : Nat) : List (Nat × List Byte) → Nat → State
  | [], _ => s
  | w :: rest, now =>
    if s.portUp p ∧ s.mayBegin p w.1 (w.2.length + 4) now (s.queuedAt noPair p) = true then
      let ns := s.frameTime p (w.2.length + 4)
      ((s.updPort p fun q => { q with waiting := q.waiting.erase w }).transmit p w.2).drainTransit p rest (now + ns)
    else s.drainTransit p rest now

/-- The transit packets of port p begin, as far as they may. -/
def State.portLane (s : State) (p now : Nat) : State := s.drainTransit p (((s.port p).map (·.waiting)).getD []) now

/-- Send a packet on a port if its class may begin now, and after it the transit packets that may begin then; `done` is the change of state that
the sending makes. -/
def State.launch (s : State) (k : Nat) (q : Qp) (e : NodeEntry) (port : Nat × Bool) (now : Nat) (pkt : List Byte)
    (done : State → State) : State :=
  let via := if port.2 then s.entryVia port.1 q.peerNode else e
  if s.mayBegin port.1 q.cls (s.frameBytes port.1 via pkt) now (s.queuedAt k port.1) then
    (done ((s.useQp k).sendPacket port.1 via q.cls (if port.2 then packetWith pkt true 0 else pkt))).portLane port.1
      (now + s.frameTime port.1 (s.frameBytes port.1 via pkt))
  else s

/-- The payload of a packet of a request: the bytes and the state that has translated them, or the fault met: kind, virtual and physical
address. -/
def State.readPayload (s : State) (n : Nat) (r : SendReq) (off len : Nat) : Except (FaultKind × Nat × Option Nat) (List Byte × State) :=
  match r.source.bind (s.desc n) with
  | none => .ok ((r.data.drop off).take len, s)
  | some d =>
    match s.touch n [] (d.base + off) len accR false with
    | .error (f, va) => .error (f, va, none)
    | .ok s1 =>
      match s1.badRange n [] (d.base + off) len with
      | some pa => .error (.media, d.base + off, some pa)
      | none => .ok (s1.vread n [] (d.base + off) len, s1)

/-- Fix a request's PAYLOAD, packets and first PSN when its first packet is formed (R271, R276). -/
def State.planReq (s : State) (q : Qp) (e : NodeEntry) (r : SendReq) : SendReq :=
  if r.packets ≠ 0 then r
  else
    let pay := s.payloadFor e
    { r with payload := pay, packets := if r.ink then 1 else max 1 (ceilDiv r.len pay), first := q.nextPsn, started := some s.strk.now }

/-- Send a new packet of request r (R271, R276, R281). -/
def State.sendFresh (s : State) (k : Nat) (q : Qp) (e : NodeEntry) (port : Nat × Bool) (now : Nat) (r0 : SendReq) : State :=
  let r := s.planReq q e r0
  let off := r.formed * r.payload
  let len := min r.payload (r.len - off)
  let read := if r.ink then .ok ([], s) else s.readPayload q.owner r off len
  let blocked := match r.source.bind (s.desc q.owner) with
    | some d => s.hostBlocked { ctx := q.owner, bound := [] } [(d.base + off, len)]
    | none => false
  if blocked then
    (match r.cmd with
     | some w => s.updCmd w.1 w.2 fun x => { x with hostWait := some 68 }
     | none => s)
  else match read with
  | .error (kind, va, pa) =>
    let s := s.updQp k fun q => { q with sends := q.sends.filter (·.msn ≠ r.msn) }
    (match r.cmd.bind fun w => s.findCmd w.1 w.2 with
     | some c => (match pa with
       | some pa => s.mediaFault c va pa 7 0 68
       | none => s.engineFault c kind va 7 0 accR 68)
     | none => s)
  | .ok (bs, s) =>
    let hd := dataHeader q s.selfNode k (if r.ink then 1 else 0) (decide (r.formed = 0)) (decide (r.formed + 1 = r.packets))
      (q.psn q.nextPsn) r.msn (if r.ink then 0 else off) r.len r.tag
    let pkt := sealPacket q k false q.nextPsn hd bs
    s.launch k q e port now pkt fun s => s.updQp k fun q =>
      let t : TxPacket := { psn := q.nextPsn, msn := r.msn, body := pkt, sentAt := s.strk.elapsed + now, times := 1, port := port.1,
                            order := q.sendings, resend := false, acked := false }
      { q with unacked := q.unacked ++ [t], nextPsn := q.nextPsn + 1, sendings := q.sendings + 1,
               sends := q.sends.map fun x => if x.msn = r.msn then { r with formed := r.formed + 1 } else x }

/-- Send a packet again, bit for bit, on the next port (R281, R283). -/
def State.sendAgain (s : State) (k : Nat) (q : Qp) (e : NodeEntry) (port : Nat × Bool) (now : Nat) (t : TxPacket) : State :=
  s.launch k q e port now t.body fun s =>
    let s := s.updQp k fun q =>
      let again (x : TxPacket) : TxPacket :=
        { x with resend := false, times := x.times + 1, sentAt := s.strk.elapsed + now, port := port.1, order := q.sendings }
      { q with
        unacked := q.unacked.map fun x => if x.psn = t.psn then again x else x
        sends := q.sends.map fun r => if r.msn = t.msn then { r with retrans := r.retrans + 1 } else r
        sendings := q.sendings + 1, retrans := q.retrans + 1 }
    (s.portCount port.1 4 1).updCtx q.owner fun c => { c with counts := c.counts.set 4 ((c.counts.getD 4 0 + 1) % 2 ^ 64) }

/-- Send the oldest ACK that is due (R273, R280). -/
def State.sendAck (s : State) (k : Nat) (q : Qp) (e : NodeEntry) (port : Nat × Bool) (now : Nat) : State :=
  match q.acks with
  | [] => s
  | (flags, sp, st) :: rest =>
    let pkt := sealPacket q k true q.ackSeq (ackHeader q s.selfNode k flags sp st) []
    s.launch k q e port now pkt fun s => s.updQp k fun q => { q with acks := rest, ackSeq := (q.ackSeq + 1) % 2 ^ 64 }

/-- PACKET_SEND: queue pair qp sends its next packet, `now` ns after the boundary, if its class may begin then. -/
def execPacketSend (qp now : Nat) (s : State) : Host.Outcome State Fault Refusal :=
  .next (match s.qp qp with
    | none => s
    | some q =>
      if ¬ s.onChip qp then s else
      match q.nextTx, s.nodeOf q.peerNode with
      | some t, some e =>
        (match s.txPort qp q t with
         | none => s
         | some port =>
           match t with
           | .ack => s.sendAck qp q e port now
           | .resend t => s.sendAgain qp q e port now t
           | .fresh r => s.sendFresh qp q e port now r)
      | _, _ => s)

/-! ### Transit (R258, R259) and the opening of a slot (R151) -/

/-- A transit packet is queued at a port in the class that it carries, and begins at once where the class may (R258). -/
def State.sendTransit (s : State) (p : Nat) (e : NodeEntry) (cls : Nat) (pkt : List Byte) (now : Nat) : State :=
  let (f, s) := s.frameFor p e cls pkt
  (s.updPort p fun q => { q with waiting := q.waiting ++ [(cls, f)] }).portLane p now

/-- A packet for another node that arrives in a DIRECT topology, `now` ns after the boundary: forwarded or wrapped (R258, R259). One whose
only port up towards its node is the one on which it came is dropped (assumption 168). -/
def State.transit (s : State) (port : Nat) (packet : List Byte) (now : Nat) : State :=
  match s.activeMap with
    | none => s
    | some m =>
      let dest := fieldAt packet 4 2
      let hops := fieldAt packet 2 2 % 4096
      let wrap := bitOf (fieldAt packet 1 1) 7
      let cls := bitsOf (fieldAt packet 1 1) 3 2
      let dropIt := s.portCount port 2 1
      if fieldAt m 6 1 ≠ 1 ∨ dest = s.selfNode ∨ ¬ s.portUp port ∨ packet.length < 40 then s
      else if hops = 4095 then dropIt
      else if wrap then
        (match s.ringMate port with
         | some o => if s.portUp o then s.sendTransit o (s.entryVia o dest) cls (packetWith packet true (hops + 1)) now else dropIt
         | none => dropIt)
      else match s.nodeOf dest with
        | none => dropIt
        | some e =>
          match (s.upPorts e.mask).filter (· ≠ port) with
          | o :: _ => s.sendTransit o e cls (packetWith packet false (hops + 1)) now
          | [] =>
            if (s.upPorts e.mask).isEmpty then s.sendTransit port (s.entryVia port dest) cls (packetWith packet true (hops + 1)) now
            else dropIt

/-- TRANSIT_FORWARD (R258). -/
def execTransitForward (port : Nat) (packet : TransitInput) (s : State) : Host.Outcome State Fault Refusal :=
  .next (s.transit port packet.bytes packet.now)

/-- SLOT_OPEN: a slot of the active schedule opens 100 ns after its start on the ports that it governs (R151); transit packets of its class
that wait there begin. -/
def execSlotOpen (port slot : Nat) (s : State) : Host.Outcome State Fault Refusal :=
  .next (match s.schedule with
    | none => s
    | some es =>
      match es[slot]? with
      | some e => if bitOf e.2.2.2 port then (s.updPort port fun q => { q with slot := some slot }).portLane port (e.1 + 100) else s
      | none => s)

end Sys2Proof.Machine
end

