-- ==== Sys2Proof/Machine/Ledger.lean ====
section
/-! DEFINITION. The step ledger and the choice of gradient formats (R124 to R126, R324 to R326, R328, R333, R334, R336). -/

namespace Sys2Proof.Machine

/-! ### Merkle roots (R328) -/

/-- Cut bytes into chunks of n. -/
def chunksOf (n : Nat) : Nat → List Byte → List (List Byte)
  | 0, _ => []
  | k + 1, bs => if bs.isEmpty then [] else bs.take n :: chunksOf n k (bs.drop n)

/-- The leaf of a chunk. -/
def chunkLeaf (chunk : List Byte) : List Byte := sha256 ((0 : Byte) :: chunk)

/-- One level up: pairs become their digest, an odd last one moves up. -/
def levelUp : List (List Byte) → List (List Byte)
  | a :: b :: t => sha256 ((1 : Byte) :: (a ++ b)) :: levelUp t
  | l => l

/-- The root over leaves in chunk order. -/
def merkleRoot : Nat → List (List Byte) → List Byte
  | _, [] => zeros 32
  | _, [x] => x
  | 0, x :: _ => x
  | k + 1, l => merkleRoot k (levelUp l)

/-- The leaves of a tensor's bytes: 1 MiB chunks. -/
def leavesOf (bs : List Byte) : List (List Byte) := (chunksOf (2 ^ 20) (bs.length / 2 ^ 20 + 1) bs).map chunkLeaf

/-- The root of a tensor's bytes. -/
def rootOf (bs : List Byte) : List Byte := merkleRoot 64 (leavesOf bs)

/-! ### The area (R324, R334, R336) -/

/-- ENTRY_BYTES. -/
def Ledger.entryBytes (l : Ledger) : Nat := roundUp (512 + 64 * l.layers + 4 * l.bucketsMax) 64
/-- Address of the ring. -/
def Ledger.ringVa (l : Ledger) : Nat := l.base + 1024 + 32 * l.tensorMax
/-- Address of the entry of a step: its place in the ring, or the replay entry. -/
def Ledger.entryVa (l : Ledger) (step : Nat) : Nat :=
  if l.replay.map (·.step) = some step then l.ringVa + l.entryCount * l.entryBytes
  else l.ringVa + step % l.entryCount * l.entryBytes

/-- The ledger of context n. -/
def State.ledger (s : State) (n : Nat) : Option Ledger := (Kv.get n s.ctxs).bind (·.ledger)

/-- Change it. -/
def State.updLedger (s : State) (n : Nat) (f : Ledger → Ledger) : State :=
  s.updCtx n fun c => { c with ledger := c.ledger.map f }

/-- A field of context memory. -/
def State.vfield (s : State) (n va k : Nat) : Nat := leNat (s.vread n [] va k)

/-- A write of the part to context memory. -/
def State.vput (s : State) (n va : Nat) (bs : List Byte) : State := s.vwrite n [] va bs

/-- A tensor-table entry (R325). -/
structure TensorEntry where
  layer : Nat
  tensor : Nat
  requested : Nat
  applied : Nat
  buddy : Nat
  handle : Nat
  writeSteps : Nat
  base : Nat
  bytes : Nat
deriving DecidableEq, Repr

/-- Its 32 bytes. -/
def TensorEntry.encode (t : TensorEntry) : List Byte :=
  leBytes 2 t.layer ++ leBytes 2 t.tensor ++ leBytes 1 t.requested ++ leBytes 1 t.applied ++ leBytes 2 t.buddy ++
    leBytes 4 t.handle ++ leBytes 4 t.writeSteps ++ leBytes 8 t.base ++ leBytes 8 t.bytes

/-- Decode 32 bytes. -/
def TensorEntry.decode (bs : List Byte) : TensorEntry :=
  { layer := fieldAt bs 0 2, tensor := fieldAt bs 2 2, requested := fieldAt bs 4 1, applied := fieldAt bs 5 1,
    buddy := fieldAt bs 6 2, handle := fieldAt bs 8 4, writeSteps := fieldAt bs 12 4, base := fieldAt bs 16 8, bytes := fieldAt bs 24 8 }

/-- The tensor table, in order; an entry of BYTES 0 ends it. -/
def State.tensors (s : State) (n : Nat) (l : Ledger) : List TensorEntry :=
  ((List.range l.tensorMax).map fun i => TensorEntry.decode (s.vread n [] (l.base + 1024 + 32 * i) 32)).takeWhile fun t => t.bytes ≠ 0

/-- Write the tensor table, zeros behind it. -/
def State.putTensors (s : State) (n : Nat) (l : Ledger) (ts : List TensorEntry) : State :=
  s.vput n (l.base + 1024) ((ts.flatMap TensorEntry.encode) ++ zeros (32 * (l.tensorMax - ts.length)))

/-! ### Classes (R326) -/

/-- The part's choice for one tensor, before the mirror budget. -/
def State.chooseClass (s : State) (n : Nat) (l : Ledger) (t : TensorEntry) : Nat :=
  let w := ((List.range 32).filter (bitOf t.writeSteps ·)).length
  let inWindow := ((Kv.get n s.ctxs).map fun c => c.windows.any fun x =>
    x.valid && decide (x.va ≤ t.base) && decide (t.base + t.bytes ≤ x.va + x.sizeGib * 2 ^ 30)).getD false
  let replicated : Bool := match (Kv.get n s.ctxs).bind fun c => Kv.get 0 c.groups with
    | some g => ((s.ringOf g.ring).map fun r => decide (1 < r.members.length)).getD false
    | none => false
  if inWindow then 3
  else if replicated then 0
  else if t.bytes ≤ l.smallMib * 2 ^ 20 then 1
  else if t.bytes ≤ l.fastMib * 2 ^ 20 ∧ 32 ≤ w * l.fastSteps then 1
  else 2

/-- Does tensor a come before b for a move to SNAPSHOT: larger, ties to the higher (LAYER, TENSOR). -/
def demotedBefore (a b : TensorEntry) : Bool :=
  decide (b.bytes < a.bytes) || (decide (a.bytes = b.bytes) &&
    (decide (b.layer < a.layer) || (decide (a.layer = b.layer) && decide (b.tensor ≤ a.tensor))))

/-- Move mirrored tensors of 0xFF request to SNAPSHOT until their sum is within the budget. -/
def demote (budget : Nat) (ts : List TensorEntry) : List TensorEntry :=
  let mine := (ts.filter fun t => t.requested = 0xFF ∧ t.applied = 1).mergeSort demotedBefore
  let sum := (mine.map (·.bytes)).foldl (· + ·) 0
  let (gone, _) := mine.foldl (fun (a : List (Nat × Nat) × Nat) t =>
    if budget < a.2 then ((t.layer, t.tensor) :: a.1, a.2 - t.bytes) else a) ([], sum)
  ts.map fun t => if (t.layer, t.tensor) ∈ gone then { t with applied := 2 } else t

/-- The classes of every entry: requested ones unchanged, the part's choice for 0xFF. -/
def State.applyClasses (s : State) (n : Nat) (l : Ledger) (ts : List TensorEntry) : List TensorEntry :=
  demote (l.mirrorBudget * 2 ^ 20) (ts.map fun t =>
    { t with applied := if t.requested = 0xFF then s.chooseClass n l t else t.requested })

/-! ### The snapshot interval (R333) -/

/-- FP64 of a natural number. -/
def f64 (n : Nat) : FV := roundTo .fp64 .rne (FV.ofInt n)
/-- FP64 quotient. -/
def f64div (a b : FV) : FV := roundTo .fp64 .rne (fvDiv a b).1
/-- FP64 product. -/
def f64mul (a b : FV) : FV := roundTo .fp64 .rne (fvMul a b).1
/-- FP64 square root. -/
def f64sqrt (a : FV) : FV := roundTo .fp64 .rne (fvSqrt a).1
/-- FP64 code. -/
def f64code (a : FV) : Nat := (encodeIeee .fp64 .rne 0 a).1

/-- Part-hours of exposure (R354). -/
def State.exposureHours (s : State) : FV := f64div (f64 ((s.bus.exposures.map (·.2)).foldl (· + ·) 0)) (f64 3600)

/-- Recompute the interval and write its figures into the header (R333). -/
def State.interval (s : State) (n : Nat) (l : Ledger) : State :=
  let nodes := ((s.activeMap).map fun m => fieldAt m 8 2).getD 1
  let e := roundTo .fp64 .rne (fvAdd .rne s.exposureHours (f64 l.priorMtbf)).1
  let mtbf := f64mul (f64div (f64div e (f64 (s.bus.events.length + 1))) (f64 (max 1 nodes))) (f64 3600)
  match l.round with
  | none => s.vput n (l.base + 136) (leBytes 8 (f64code mtbf) ++ zeros 16 ++ leBytes 4 l.snapMin)
  | some (step, t0, t1) =>
    let cost := if l.costOverride ≠ 0 then f64div (f64 l.costOverride) (f64 1000) else f64div (f64 (t1 - t0)) (f64 (10 ^ 9))
    let iv := f64sqrt (f64mul (f64mul (f64 2) cost) mtbf)
    let t := f64div (f64div (f64 (l.walls.foldl (· + ·) 0)) (f64 (max 1 l.walls.length))) (f64 (10 ^ 9))
    let steps := if l.walls.isEmpty then l.snapMin else
      let q := f64div iv t
      if q.isNan ∨ q.isInf then l.snapMax else clampN (sext 64 (floatToInt .rne 0 64 q).1).toNat l.snapMin l.snapMax
    s.vput n (l.base + 136) (leBytes 8 (f64code mtbf) ++ leBytes 8 (f64code cost) ++ leBytes 8 (f64code iv) ++ leBytes 4 steps ++
      leBytes 5 (step + steps))

/-! ### Steps (R334) -/

/-- What the part remembers of a step's reductions. -/
def Ctx.xhStep (c : Ctx) (step : Nat) : XhStep :=
  (c.xhSteps.find? fun x => decide (x.step = step)).getD { step := step, attempts := 0, verified := [], aborted := false, stale := [] }

/-- Change it. -/
def Ctx.setXhStep (c : Ctx) (x : XhStep) : Ctx := { c with xhSteps := x :: c.xhSteps.filter (·.step ≠ x.step) }

/-- Buckets of a context and step that are queued or running. -/
def State.openBuckets (s : State) (n step : Nat) : List Bucket := s.buckets.filter fun b => decide (b.context = n ∧ b.step = step)

/-- Has every bucket of the step verified, of one at least (R301). -/
def State.stepVerified (s : State) (n step : Nat) : Bool :=
  match Kv.get n s.ctxs with
  | some c => let x := c.xhStep step; !x.aborted && !x.verified.isEmpty && (s.openBuckets n step).isEmpty
  | none => false

/-- OR bits into FLAGS of a step's open entry. -/
def State.ledgerFlag (s : State) (n step mask : Nat) : State :=
  match s.ledger n with
  | some l =>
    if step ∈ l.opened then
      let va := l.entryVa step + 6
      s.vput n va (leBytes 1 (Nat.lor (s.vfield n va 1) mask))
    else s
  | none => s

/-- What the part remembers of an open step. -/
def Ledger.workOf (l : Ledger) (step : Nat) : StepWork :=
  (l.work.find? fun w => decide (w.step = step)).getD { step := step, since := 0, maps := [], rings := [], wrote := [] }

/-- Change it. -/
def Ledger.setWork (l : Ledger) (w : StepWork) : Ledger := { l with work := w :: l.work.filter (·.step ≠ w.step) }

/-- A route map becomes active while steps are open (R334). -/
def Ledger.addMap (l : Ledger) (map : List Byte) : Ledger := { l with work := l.work.map fun w => { w with maps := w.maps ++ [map] } }

/-- The bytes of a new entry. -/
def newEntry (s : State) (c : Ctx) (step n : Nat) (recipe : List Byte) : List Byte :=
  leBytes 5 step ++ zeros 3 ++ leBytes 8 c.seed ++ leBytes 2 s.placement ++ zeros (n - 18) |> fun b =>
    b.take 156 ++ leBytes 2 0xFFFF ++ (b.drop 158).take 34 ++ recipe ++ b.drop 256

/-- A replayed step takes G, and what the chooser wrote with it, from its original entry (R126, R336). -/
def State.keepChoices (s : State) (n va : Nat) (entry : List Byte) (layers : Nat) : State :=
  (List.range layers).foldl (fun (s : State) i => s.vput n (va + 512 + 64 * i) ((entry.drop (512 + 64 * i)).take 16)) s

/-- Open a step's entry, unless it is open; RECIPE, which the recipe writes first, stays where an admission opens the entry
(DEDUCED, assumption 29). -/
def State.openEntry (s : State) (n step : Nat) (byAdmission : Bool) : State :=
  match Kv.get n s.ctxs with
  | none => s
  | some c =>
    match c.ledger with
    | none => s
    | some l =>
      if step ∈ l.opened then s
      else
        let va := l.entryVa step
        let recipe := if byAdmission then s.vread n [] (va + 192) 64 else zeros 64
        let s := s.vput n va (newEntry s c step l.entryBytes recipe)
        let w : StepWork := { step := step, since := s.strk.elapsed, maps := (s.activeMap).toList, rings := [], wrote := [] }
        let s := s.updLedger n fun l => ({ l with opened := step :: l.opened } : Ledger).setWork w
        let x := c.xhStep step
        let s := s.vput n (va + 7) (leBytes 1 x.attempts)
        let s := match l.replay with
          | some r => if r.step = step then s.keepChoices n va r.entry l.layers else s
          | none => s
        if l.round.any fun r => decide (r.1 = step) then s.ledgerFlag n step 0x20 else s

/-- The lowest layer whose digest differs from the original's, or 0xFFFF (R336). -/
def divergentLayer (mine orig : List Byte) (layers : Nat) : Nat :=
  ((List.range layers).find? fun i =>
    (mine.drop (512 + 64 * i + 16)).take 32 ≠ (orig.drop (512 + 64 * i + 16)).take 32).getD 0xFFFF

/-- Form every LAYER_DIGEST of an entry (R334). -/
def State.layerDigests (s : State) (n : Nat) (l : Ledger) (va : Nat) : State :=
  let ts := s.tensors n l
  (List.range l.layers).foldl (fun s i =>
    let mine := ts.filter fun t => t.layer = i
    if mine.isEmpty then s
    else s.vput n (va + 512 + 64 * i + 16) (sha256 (mine.flatMap fun t => rootOf (s.vread n [] t.base t.bytes)))) s

/-- What the close of a verified step does beside its entry: WRITE_STEPS, classes, LAST_VERIFIED_STEP, wall times, interval
(R325, R326, R333). -/
def State.closeVerified (s : State) (n step : Nat) (l : Ledger) : State :=
  let (ns, s) := s.drawNs
  let ts := (s.tensors n l).map fun t =>
    { t with writeSteps := (2 * t.writeSteps + b2n (decide ((t.layer, t.tensor) ∈ (l.workOf step).wrote))) % 2 ^ 32 }
  let s := s.putTensors n l (s.applyClasses n l ts)
  let s := s.vput n (l.base + 169) (leBytes 5 step)
  let walls := ((s.strk.elapsed + ns - (l.workOf step).since) :: l.walls).take 16
  let l := { l with walls := walls }
  let s := if l.stale then s.interval n l else s
  s.updLedger n fun x => { x with walls := walls, stale := false }

/-- Close a step's entry with the STATE that it reached (R334, R336). -/
def State.closeEntry (s : State) (n step : Nat) : State :=
  match Kv.get n s.ctxs with
  | none => s
  | some c =>
    match c.ledger with
    | none => s
    | some l =>
      if step ∉ l.opened then s
      else
        let va := l.entryVa step
        let s := if c.overridden ∧ c.step = step then s.ledgerFlag n step 0x02 else s
        let verified := s.stepVerified n step
        let replayed := c.replays step
        let st := if (c.xhStep step).aborted then 2 else if replayed then 3 else if verified then 1 else 0
        let s := if verified ∨ replayed then s.layerDigests n l va else s
        let s := s.vput n (va + 5) (leBytes 1 st)
        let s := s.vput n (va + 26) (leBytes 6 s.strk.now)
        let w := l.workOf step
        let rings := (w.rings.mergeSort fun a b => decide (a.1 ≤ b.1)).flatMap (·.2)
        let s := s.vput n (va + 88) ((if w.rings.isEmpty then zeros 32 else sha256 rings) ++ sha256 (w.maps.flatMap id))
        let s := match l.replay with
          | some r => if replayed then
              s.vput n (va + 156) (leBytes 2 (divergentLayer (s.vread n [] va l.entryBytes) r.entry l.layers)) else s
          | none => s
        let s := if verified ∧ ¬ replayed then s.closeVerified n step l else s
        s.updLedger n fun x => { x with opened := x.opened.filter (· ≠ step), work := x.work.filter (·.step ≠ step), replay := if replayed then none else x.replay }

/-- Does the opcode carry a numbering block (R181). -/
def numbered (op : Nat) : Bool := decide (op ∈ [0x0301, 0x0302, 0x0303, 0x0304, 0x0305, 0x0401, 0x0802])

/-- Registered tensors that a command writes (R325). -/
def State.noteWrites (s : State) (n : Nat) (p : Packet) : State :=
  match s.ledger n with
  | none => s
  | some l =>
    let ws := (s.extents n p).filterMap fun e => if e.1 then some e.2 else none
    let hit := (s.tensors n l).filterMap fun t => if rangesOverlap [(t.base, t.bytes)] ws then some (t.layer, t.tensor) else none
    s.updLedger n fun l =>
      let w := l.workOf (p.par 0 5)
      l.setWork { w with wrote := (w.wrote ++ hit).eraseDups }

/-- A command that carries a step is admitted: earlier entries close, its own opens, and COMMAND_SUM and COMMANDS go on (R334). -/
def State.noteAdmission (s : State) (n : Nat) (p : Packet) : State :=
  if ¬ numbered p.opcode then s
  else
    let step := p.par 0 5
    let s := ((s.ledger n).map (·.opened)).getD [] |>.foldl (fun s k => if k < step then s.closeEntry n k else s) s
    let s := s.openEntry n step true
    match Kv.get n s.ctxs, s.ledger n with
    | some c, some l =>
      let va := l.entryVa step
      let sum := leNat (s.vread n [] (va + 32) 32)
      let cnt := s.vfield n (va + 64) 4
      let (ns, s) := s.drawNs
      let s := if cnt = 0 then
          ((s.updLedger n fun l => l.setWork { l.workOf step with since := s.strk.elapsed + ns }).vput n (va + 20) (leBytes 6 s.strk.now)).vput n (va + 80) (((List.range 4).map fun i =>
            leBytes 2 (((c.windows[i]?).map fun w => if w.valid then w.epoch else 0xFFFF).getD 0xFFFF)).flatMap id)
        else s
      let add := leNat (sha256 (p.bytes ++ leBytes 2 p.queue))
      let s := s.vput n (va + 32) (leBytes 32 ((sum + add) % 2 ^ 256))
      let s := s.vput n (va + 64) (leBytes 4 (cnt + 1))
      let s := if l.resumed.any fun r => decide (r < step) then s.ledgerFlag n step 0x10 else s
      let s := s.updLedger n fun l => { l with resumed := none }
      let s := if p.opcode = 0x0401 ∧ p.par 16 1 = 2 ∧ p.par 19 1 = 2 then s.ledgerFlag n step 0x01 else s
      if c.overridden ∧ c.step = step then s.ledgerFlag n step 0x02 else s
    | _, _ => s

/-- A result that arrives for a command which the placement epoch ended is counted (R342). -/
def State.staleResult (s : State) (n step : Nat) : State :=
  match s.ledger n with
  | some l =>
    if step ∈ l.opened then
      let va := l.entryVa step + 68
      s.vput n va (leBytes 4 (satAdd (s.vfield n va 4) 1 (2 ^ 32 - 1)))
    else s
  | none => s

/-- The XP of a bucket enters the step's entry, once (R334). -/
def State.recordXp (s : State) (n step group bucket xp : Nat) : State :=
  match s.ledger n with
  | some l =>
    if step ∉ l.opened then s
    else
      let va := l.entryVa step
      let k := s.vfield n (va + 152) 4
      if (entryXp (s.vread n [] va l.entryBytes) l.layers group bucket).isSome then s
      else if k < l.bucketsMax then
        (s.vput n (va + 512 + 64 * l.layers + 4 * k) (leBytes 4 (group * 2 ^ 26 + bucket * 2 ^ 12 + xp))).vput n (va + 152)
          (leBytes 4 (k + 1))
      else s.ledgerFlag n step 0x80
  | none => s

/-! ### The chooser (R124, R125, R126) -/

/-- The format code of a rank. -/
def rankCode (r : Nat) : Nat := [0x12, 0x11, 0x03, 0x02].getD r 0x02

/-- The rank of a candidate format. -/
def codeRank (c : Nat) : Option Nat := [0x12, 0x11, 0x03, 0x02].findIdx? (· = c)

/-- The next step's policy of a layer from a step's a, u and x. -/
def LayerPolicy.decide' (p : LayerPolicy) (st : LayerStat) : LayerPolicy :=
  if p.pinned then { p with g := p.format }
  else
    let a := decodeIeee .fp32 st.amax
    if a.isNan ∨ a.isInf then { p with clean := 0 }
    else
      let prior := (p.history.map (decodeIeee .fp32)).foldl (fun m x => (fvMaxMin true false m x).1) FV.zero
      let hist := (st.amax :: p.history).take 16
      let spiked : Bool := match prior with
        | .num _ 0 _ => false
        | .num s m e => FV.cmp a (.num s m (e + p.spike)) = 1
        | _ => false
      if 0 < st.escaped ∨ p.uHi * st.elements < st.under * 65536 ∨ spiked then
        let next := min (p.g + 1) p.ceiling
        { p with g := next, hold := if next = p.g then p.hold else min (2 * p.hold) 256, clean := 0,
                 history := if next = p.g then hist else [] }
      else
        let n := if st.under * 65536 < p.uLo * st.elements then p.clean + 1 else 0
        if p.hold ≤ n then
          let next := max (p.g - 1) p.floor
          { p with g := next, clean := 0, history := if next = p.g then hist else [] }
        else { p with clean := n, history := hist }

/-- u as FP32 (R125, R334). -/
def LayerStat.fraction (st : LayerStat) : Nat :=
  if st.elements = 0 then 0 else (encodeIeee .fp32 .rne 0 (fvDiv (FV.ofInt st.under) (FV.ofInt st.elements)).1).1

/-- Write a layer's decision into the entry of the next step (R126, R334). HOLD is one byte: its low 8 bits
(DESIGN CHOICE, assumption 30). -/
def State.writeDecision (s : State) (n : Nat) (st : LayerStat) (p : LayerPolicy) : State :=
  let s := s.openEntry n (st.step + 1) false
  match s.ledger n with
  | some l =>
    s.vput n (l.entryVa (st.step + 1) + 512 + 64 * st.layer) (leBytes 1 (rankCode p.g) ++ leBytes 1 p.hold ++ leBytes 1 p.clean ++ [0] ++
      leBytes 4 st.amax ++ leBytes 4 st.fraction ++ leBytes 4 st.escaped)
  | none => s

/-- R124's default entry: AUTO, MXFP8 E5M2, floor MXFP6 E3M2, ceiling FP32. -/
def defaultPolicy : LayerPolicy :=
  { pinned := false, format := 1, floor := 0, ceiling := 3, uHi := 1024, uLo := 64, spike := 8, g := 1, hold := 16, clean := 0, history := [],
    decided := none }

/-- A layer's policy (R124). -/
def Ctx.policyOf (c : Ctx) (layer : Nat) : LayerPolicy := (Kv.get layer c.policy).getD defaultPolicy

/-- Has the step been decided for the layer: it is decided once, and its later statistics count for nothing (R126). -/
def LayerPolicy.past (p : LayerPolicy) (step : Nat) : Bool := p.decided.any fun k => decide (step ≤ k)

/-- One layer's decision of a verified step (R125, R126). -/
def State.decideLayer (s : State) (n : Nat) (st : LayerStat) : State :=
  match Kv.get n s.ctxs with
  | none => s
  | some c =>
    let p := c.policyOf st.layer
    if c.replays st.step ∨ p.past st.step then s
    else
      let p := { p.decide' st with decided := some st.step }
      (s.updCtx n fun c => { c with policy := Kv.set st.layer p c.policy }).writeDecision n st p

/-- The decisions that are due in context n: layers whose step has verified and whose summary has come (R126). -/
def State.decideLayers (s : State) (n : Nat) : State :=
  match Kv.get n s.ctxs with
  | none => s
  | some c =>
    let due := c.stats.filter fun st => st.summary && s.stepVerified n st.step
    let s := due.foldl (fun (s : State) st => s.decideLayer n st) s
    s.updCtx n fun c => { c with stats := c.stats.filter fun st => !(c.policyOf st.layer).past st.step && !(due.contains st) }

/-- The commands whose layer's gradient format R126 decides before they are admitted: backward LINEAR and attention. -/
def backwardOp (p : Packet) : Bool := (decide (p.opcode = 0x0301) && decide (p.linOp ≠ 0)) || decide (p.opcode = 0x0304 ∨ p.opcode = 0x0305)

/-- Will a command still bring the WIRE_TO_STORE summary of a layer and step (DEDUCED, assumption 160). -/
def State.summaryDue (s : State) (n step layer : Nat) : Bool :=
  s.cmds.any fun d => decide (d.pkt.opcode = 0x0302) && decide ((d.view s).ctx = n) && decide (d.pkt.par 0 5 = step) &&
    decide (d.pkt.par 6 2 = layer) && decide (d.pkt.par 10 2 = 2) && decide (d.pkt.epi 40 4 ≠ 0) && match d.phase with
      | .finished _ | .flushing _ => false
      | _ => true

/-- A backward command of a layer waits while the decision of a lower step in which the layer takes part is not made: a bucket of that step is
open, the decision is due at the next boundary, or the summary is still to come (R126). -/
def State.decisionPending (s : State) (n : Nat) (p : Packet) : Bool :=
  backwardOp p &&
  match Kv.get n s.ctxs with
  | none => false
  | some c =>
    let layer := p.par 6 2
    let steps := (c.stats.filter fun st => decide (st.layer = layer)).map (·.step) ++
      (s.buckets.filter fun b => decide (b.context = n) && decide (b.layer = layer)).map (·.step)
    !c.replays (p.par 0 5) && steps.any fun k => decide (k < p.par 0 5) && !(c.policyOf layer).past k &&
      (!(s.openBuckets n k).isEmpty || (c.stats.any fun st => decide (st.layer = layer) && decide (st.step = k) && st.summary) ||
        s.summaryDue n k layer)

/-! ### GRAD_POLICY (R124, R191) -/

/-- A policy entry's 16 bytes as a policy. -/
def decodePolicy (bs : List Byte) : Option LayerPolicy :=
  match codeRank (fieldAt bs 1 1), codeRank (fieldAt bs 2 1), codeRank (fieldAt bs 3 1) with
  | some f, some lo, some hi =>
    if fieldAt bs 0 1 ≤ 1 ∧ lo ≤ f ∧ f ≤ hi ∧ 1 ≤ fieldAt bs 4 2 ∧ fieldAt bs 6 2 < fieldAt bs 4 2 ∧ 1 ≤ fieldAt bs 8 1 ∧
        fieldAt bs 8 1 ≤ 64 ∧ 1 ≤ fieldAt bs 9 1 ∧ fieldAt bs 10 6 = 0 then
      some { pinned := decide (fieldAt bs 0 1 = 1), format := f, floor := lo, ceiling := hi, uHi := fieldAt bs 4 2,
             uLo := fieldAt bs 6 2, spike := fieldAt bs 8 1, g := f, hold := fieldAt bs 9 1, clean := 0, history := [],
             decided := none }
    else none
  | _, _, _ => none

/-- The entries that a GRAD_POLICY names, or the index of the first that fails. -/
def State.policies (s : State) (v : View) (d : Desc) : Except Nat (List LayerPolicy) :=
  ((List.range (d.paddedShape.getD 0 0)).mapM fun i =>
    match decodePolicy ((List.range 16).map fun j => BitVec.ofNat 8 (s.padElemCode v d [i, j]).1) with
    | some p => .ok p
    | none => .error i)

/-- Is the step in progress open for GRAD_POLICY: commands of it have been admitted and it has not verified (DEDUCED,
assumption 28). -/
def State.stepOpen (s : State) (n : Nat) (c : Ctx) : Bool := c.stepSeen && !s.stepVerified n c.step

/-- Check GRAD_POLICY (R124, R191); `full`: the entries too, which are read when the command runs (assumption 96). -/
def State.checkGradPolicy (s : State) (v : View) (c : Ctx) (p : Packet) (full : Bool) : Check := do
  let d ← s.needDesc v.ctx (p.at 64 4) 64 false
  ensure (decide (d.layout = 0) && decide (d.fmt = .int8) && decide (d.rank = 2) && decide (d.paddedShape.getD 1 0 = 16) &&
    decide (d.paddedShape.getD 0 0 = p.at 68 2)) (badField 64)
  ensure (decide (p.at 68 2 ≤ 4096) && decide (p.at 68 2 = c.layers)) (badField 68)
  zeroBytes p 70 79
  ensure (!s.stepOpen v.ctx c) (conflict scStepOpen)
  match (if full then s.policies v d else .ok []) with
  | .error i => .error { status := .badField, detail := 64, r1 := i }
  | .ok _ => .ok ()

/-- A context with new policies: statistics gathered under the old ones are gone, and what has been decided stays so. -/
def Ctx.install (c : Ctx) (ps : List LayerPolicy) : Ctx :=
  { c with policy := ps.zipIdx.map fun e => (e.2, { e.1 with decided := (c.policyOf e.2).decided }), stats := [] }

/-- GRAD_POLICY installs one entry per layer (R124). A fault of its read names the dispatcher, whose firmware makes it (DESIGN CHOICE,
assumption 96). -/
def execGradPolicy (p : Packet) (s : State) : Host.Outcome State Fault Refusal :=
  .next (s.forOp p 0x0306 (s.runReach p 10 (fun s c x => s.checkGradPolicy (c.view s) x p false) (fun s c => [s.ioOf c 64 false]) fun s c x => do
    let v := c.view s
    s.checkGradPolicy v x p true
    let d ← s.needDesc v.ctx (p.at 64 4) 64 false
    match s.policies v d with
    | .error i => .error { status := .badField, detail := 64, r1 := i }
    | .ok ps => return (s.updCtx v.ctx fun y => y.install ps, Ending.ok 0 0)))

end Sys2Proof.Machine
end

