-- ==== Sys2Proof/Machine/Held.lean ====
section
/-! DEFINITION. Held queue pairs: how a receiver marks and acknowledges packets (R273, R280), and how an engine of the part
takes the messages of a queue pair that the part holds for itself (R277, R299, R314). -/

namespace Sys2Proof.Machine

/-! ### Marking and acknowledging (R280) -/

/-- Advance CUM_PSN over every received PSN. -/
def advanceCum : Nat → Nat → List Nat → Nat × List Nat
  | 0, c, r => (c, r)
  | k + 1, c, r => if c ∈ r then advanceCum k (c + 1) (r.erase c) else (c, r)

/-- Ask for an ACK at once: flags, the PSN count that a status names, and the status (R273). -/
def Qp.ackNow (q : Qp) (flags psn status : Nat) : Qp :=
  { q with acks := q.acks ++ [(flags, q.psn psn, status)], sinceAck := 0 }

/-- A new packet is marked received; an ACK is due after 8 of them and on the first one beyond a hole (R280). -/
def Qp.mark (q : Qp) (c : Nat) : Qp :=
  let hole := decide (q.cum < c) && decide (c - 1 ∉ q.received) && q.received.all fun r => decide (r < c)
  let (cum, rest) := advanceCum (q.received.length + 1) q.cum (c :: q.received)
  let q := { q with cum := cum, received := rest, echo := c, sinceAck := q.sinceAck + 1 }
  if hole ∨ 8 ≤ q.sinceAck then q.ackNow 0 0 0 else q

/-! ### Messages of a held queue pair -/

/-- A message's bytes, its payloads put at their offsets. -/
def RxMsg.bytes (m : RxMsg) : List Byte := (m.parts.mergeSort fun a b => decide (a.1 ≤ b.1)).flatMap (·.2)

/-- The complete message at the head of a held queue pair (R277, R299). -/
def State.headMsg (s : State) (k : Nat) : Option RxMsg :=
  (s.qp k).bind fun q => q.messages.find? fun m => decide (m.msn = q.nextDone) && m.cmd.isNone && decide (m.got = m.len) && m.last.isSome

/-- The engine takes the head message: it is acknowledged, with a status where it refuses it. -/
def State.takeMsg (s : State) (k status : Nat) : State :=
  match s.headMsg k with
  | none => s
  | some m => s.updQp k fun q =>
    let q := { q with messages := q.messages.filter (·.msn ≠ m.msn), nextDone := (q.nextDone + 1) % 2 ^ 32 }
    let q := match m.last with
      | some c => q.mark c
      | none => q
    if status = 0 then q else q.ackNow 0 (m.last.getD 0) status

/-- The engine has no room for the head message: the packet that completed it counts as dropped, and is answered with RNR. -/
def State.rnrMsg (s : State) (k : Nat) : State :=
  match s.headMsg k with
  | none => s
  | some m =>
    let m' : RxMsg := { m with parts := m.parts.dropLast, got := m.got - ((m.parts.getLast?.map (·.2.length)).getD 0), last := none }
    let put (x : RxMsg) : RxMsg := if x.msn = m.msn then m' else x
    s.updQp k fun q => { q with messages := q.messages.map put }.ackNow 1 0 0

/-- Does the head message of a queue pair equal what a row presents. -/
def State.isHead (s : State) (h : HeldMessage) : Bool :=
  match s.headMsg h.qp with
  | some m => decide (m.tag = h.tag) && decide (m.bytes = h.bytes)
  | none => false

/-- As `isHead`, for rows that carry the message's bytes only. -/
def State.headIs (s : State) (k : Nat) (bs : List Byte) : Bool :=
  match s.headMsg k with
  | some m => decide (m.bytes = bs)
  | none => false

end Sys2Proof.Machine
end

