-- ==== Sys2Proof/Machine/Crosshatch.lean ====
section
/-! DEFINITION. Crosshatch gradient reduction (17_crosshatch_gradient_reduction.md): groups, buckets, segments, verdicts, step
aborts, and the prefetch agent. -/

namespace Sys2Proof.Machine

/-! ### Tags, segments and records (R299, R301) -/

/-- The TAG of a segment. -/
def xhTag (step group bucket chunk phase : Nat) (pass2 : Bool) (attempt : Nat) : Nat :=
  step % 2 ^ 24 * 2 ^ 40 + group * 2 ^ 34 + bucket * 2 ^ 20 + chunk * 2 ^ 8 + phase * 2 ^ 6 + b2n pass2 * 2 ^ 5 + attempt % 8 * 4

/-- A segment's 64-byte header. -/
def segHeader (first count index : Nat) : List Byte := leBytes 4 first ++ leBytes 2 count ++ leBytes 1 index ++ zeros 57

/-- A verdict record's fields. -/
structure Verdict where
  code : Nat
  amax : Nat
  escaped : Nat
  nf : Nat
  reporter : Nat
  stroke : Nat
deriving DecidableEq, Repr

/-- Its 32 bytes. -/
def Verdict.bytes (v : Verdict) : List Byte :=
  leBytes 1 v.code ++ leBytes 1 v.amax ++ leBytes 2 (min v.escaped 65535) ++ leBytes 4 v.nf ++ leBytes 2 v.reporter ++
    leBytes 6 v.stroke ++ zeros 16

/-- A record read from the body of a segment. -/
def Verdict.ofBytes (bs : List Byte) : Verdict :=
  { code := fieldAt bs 0 1, amax := fieldAt bs 1 1, escaped := fieldAt bs 2 2, nf := fieldAt bs 4 4, reporter := fieldAt bs 8 2,
    stroke := fieldAt bs 10 6 }

/-! ### Buckets -/

/-- The bucket's key. -/
def Bucket.key (b : Bucket) : BucketKey := { context := b.context, step := b.step, group := b.group, bucket := b.bucket }

/-- Replace a bucket. -/
def State.setBucket (s : State) (b : Bucket) : State :=
  { s with buckets := s.buckets.map fun x => if x.key = b.key then b else x }

/-- Remove a bucket. -/
def State.dropBucket (s : State) (k : BucketKey) : State := { s with buckets := s.buckets.filter fun x => x.key ≠ k }

/-- The bucket of a key. -/
def State.bucketAt (s : State) (k : BucketKey) : Option Bucket := s.buckets.find? fun x => decide (x.key = k)

/-- A group of a context. -/
def State.xhGroup (s : State) (n g : Nat) : Option XhGroup := (Kv.get n s.ctxs).bind fun c => Kv.get g c.groups

/-- The part's place in the bucket's ring entry. -/
def State.posIn (s : State) (b : Bucket) : Nat := (b.members.findIdx? (· = s.selfNode)).getD 0

/-- Everything that the work on one bucket needs: the bucket, its group, its command, and SOURCE and RESULT. -/
structure XhJob where
  b : Bucket
  g : XhGroup
  c : Cmd
  v : View
  src : Desc
  dst : Desc
deriving DecidableEq, Repr

/-- The job of a bucket, while its command runs. -/
def State.job (s : State) (b : Bucket) : Option XhJob :=
  match s.xhGroup b.context b.group, s.findCmd b.queue b.seq with
  | some g, some c =>
    let v := c.view s
    (match s.desc v.ctx (c.pkt.at 88 4), s.desc v.ctx (c.pkt.at 92 4) with
     | some src, some dst => some { b := b, g := g, c := c, v := v, src := src, dst := dst }
     | _, _ => none)
  | _, _ => none

/-- Does RESULT equal SOURCE. -/
def XhJob.inPlace (j : XhJob) : Bool := decide (j.src.base = j.dst.base)

/-- ITUSK mode (R308). -/
def XhJob.itusk (j : XhJob) : Bool := decide (j.g.mode = 1)

/-- Units of a segment. -/
def XhJob.perSegment (j : XhJob) : Nat := if j.itusk then 1 else 1024

/-- Units of a tensor: blocks, or tiles of 16,384 values. -/
def xhUnits (itusk : Bool) (d : Desc) : Nat := if itusk then ceilDiv d.count 16384 else d.count

/-- The byte ranges of unit i. -/
def xhRanges (itusk : Bool) (d : Desc) (i : Nat) : List (Nat × Nat) :=
  if itusk then d.rangesOf ((List.range (min 16384 (d.count - 16384 * i))).map (16384 * i + ·))
  else [((d.locate (unflat d.shape i)).1 / 8, 132)]

/-- Bytes of unit i. -/
def State.xhRead (s : State) (v : View) (itusk : Bool) (d : Desc) (i : Nat) : List Byte :=
  (xhRanges itusk d i).flatMap fun r => s.vread v.ctx v.bound r.1 r.2

/-- Write unit i. -/
def State.xhWrite (s : State) (v : View) (itusk : Bool) (d : Desc) (i : Nat) (bs : List Byte) : State :=
  ((xhRanges itusk d i).foldl (fun (a : State × List Byte) r =>
    (a.1.vwrite v.ctx v.bound r.1 (a.2.take r.2), a.2.drop r.2)) (s, bs)).1

/-- A block of zeros with NF set. -/
def nfBlock (xp : Nat) : Bfx := { xp := xp, nf := true, esc := false, wm := 0, mant := List.replicate 32 0 }

/-- T = 2^(31 − c) (R296). -/
def XhJob.limit (j : XhJob) : Nat := 2 ^ (31 - clog2 j.g.contributors)

/-- Has a block a mantissa of magnitude T or more. -/
def XhJob.reaches (j : XhJob) (x : Bfx) : Bool := x.mant.any fun m => decide (j.limit ≤ m.natAbs)

/-- A mantissa shifted right by 8 with round to nearest even (R297). -/
def shift8 (m : Int) : Int := signed (decide (m < 0)) (roundAt .rne (decide (m < 0)) 0 m.natAbs 0 8)

/-- The part's own contribution to body unit k as a block (R296, R297). In the second pass ESC says only what point 3 of
R297 has it say (DEDUCED, assumption 31). -/
def State.ownBlock (s : State) (j : XhJob) (k : Nat) : Bfx :=
  let i := j.b.body.getD k 0
  let raw := Bfx.ofBytes ((Kv.get i j.b.saves).getD (s.xhRead j.v false j.src i))
  if j.b.pass2 then
    let x := if raw.nf then nfBlock (j.b.xp + 8)
      else if raw.esc then raw
      else
        let ms := raw.mant.map shift8
        { raw with xp := j.b.xp + 8, wm := watermark ms, mant := ms }
    { x with esc := !x.nf && j.reaches x }
  else { raw with esc := raw.esc || (!raw.nf && j.reaches raw) }

/-- R292: the adder. -/
def addBfx (p o : Bfx) : Option Bfx :=
  if p.esc || o.esc then some { p with esc := true, nf := p.nf || o.nf }
  else
    let ms := p.mant.zipWith (· + ·) o.mant
    if ms.any fun m => decide (2 ^ 31 - 1 < m.natAbs) then none
    else some { p with mant := ms, wm := (p.wm + o.wm) % 65535, nf := p.nf || o.nf }

/-- R293: the checks on a received or final block. -/
def XhJob.blockOk (j : XhJob) (final : Bool) (x : Bfx) : Bool :=
  (if j.b.pass2 then decide (x.xp = j.b.xp + 8) else decide (x.xp = j.b.xp) || (x.esc && decide (x.xp = j.b.xp + 8))) &&
    decide (x.rsv = 0) && decide (x.wm ≤ 0xFFFE) && (!final || decide (watermark x.mant = x.wm))

/-- Cut bytes into n pieces of k. -/
def piecesOf (k n : Nat) (bs : List Byte) : List (List Byte) := (List.range n).map fun i => (bs.drop (k * i)).take k

/-- FP32 sums of two tiles, value by value, with RNE (R308). -/
def addTiles (p o : List Byte) : List Byte :=
  (List.range (o.length / 4)).flatMap fun i =>
    leBytes 4 (encodeIeee .fp32 .rne 0 (fvAdd .rne (decodeIeee .fp32 (fieldAt p (4 * i) 4)) (decodeIeee .fp32 (fieldAt o (4 * i) 4))).1).1

/-- Own bytes of body units first to first + count, as a segment's body. -/
def State.ownBytes (s : State) (j : XhJob) (first count : Nat) : List Byte :=
  if j.itusk then (List.range count).flatMap fun i => s.xhRead j.v true j.src (first + i)
  else (List.range count).flatMap fun i => (s.ownBlock j (first + i)).toBytes

/-- A received body added to the part's own, after the checks of R293; none is MISMATCH. -/
def State.addBody (s : State) (j : XhJob) (first count : Nat) (bs : List Byte) : Option (List Byte) :=
  if j.itusk then some (addTiles bs (s.ownBytes j first count))
  else
    (((piecesOf 132 count bs).zipIdx).mapM fun (x : List Byte × Nat) =>
      let p := Bfx.ofBytes x.1
      if j.blockOk false p then (addBfx p (s.ownBlock j (first + x.2))).map Bfx.toBytes else none).map fun l => l.flatMap id

/-- Are the blocks of a final body well formed (R293). -/
def XhJob.finalOk (j : XhJob) (count : Nat) (bs : List Byte) : Bool :=
  j.itusk || (piecesOf 132 count bs).all fun x => j.blockOk true (Bfx.ofBytes x)

/-- Chunk c of the body: its first unit and its units (R300). -/
def XhJob.chunk (j : XhJob) (c : Nat) : Nat × Nat :=
  let n := j.b.body.length
  let q := ceilDiv n (max 1 j.b.members.length)
  (c * q, min ((c + 1) * q) n - min (c * q) n)

/-- The segments of a span: index, first unit, count; an empty span sends a header only. -/
def XhJob.segments (j : XhJob) (span : Nat × Nat) : List (Nat × Nat × Nat) :=
  let per := j.perSegment
  (List.range (max 1 (ceilDiv span.2 per))).map fun i => (i, span.1 + i * per, min per (span.2 - i * per))

/-- Send a segment on a held queue pair. -/
def State.sendSeg (s : State) (j : XhJob) (qp chunk phase index first count : Nat) (body : List Byte) : State :=
  s.postHeld qp none (xhTag j.b.step j.b.group j.b.bucket chunk phase j.b.pass2 j.b.attempt) (segHeader first count index ++ body)

/-- Is the group a tree. -/
def XhJob.tree (j : XhJob) : Bool := decide (j.g.topology = 1)

/-- Send the part's own contribution where the phases begin with it: its own chunk in a ring, a leaf's body in a tree. -/
def State.sendOwn (s : State) (j : XhJob) : State :=
  if j.tree then
    (match j.g.children, j.g.prev with
     | [], some up => (j.segments (0, j.b.body.length)).foldl (fun s x => s.sendSeg j up 0 0 x.1 x.2.1 x.2.2 (s.ownBytes j x.2.1 x.2.2)) s
     | _, _ => s)
  else match j.g.next with
    | some nx =>
      let c := s.posIn j.b
      (j.segments (j.chunk c)).foldl (fun s x => s.sendSeg j nx c 0 x.1 x.2.1 x.2.2 (s.ownBytes j x.2.1 x.2.2)) s
    | none => s

/-- Segments that the part takes in one pass. -/
def State.segmentsDue (s : State) (j : XhJob) : Nat :=
  let n := j.b.members.length
  let me := s.posIn j.b
  if j.tree then
    let k := (j.segments (0, j.b.body.length)).length
    k * j.g.children.length + (if j.g.prev.isSome then k else 0)
  else
    let k (skip : Nat) : Nat := (((List.range n).filter (· ≠ skip)).map fun c => (j.segments (j.chunk c)).length).foldl (· + ·) 0
    k me + k ((me + 1) % n)

/-! ### Step abort (R304, R305) -/

/-- The step number whose low 24 bits are given, nearest to the context's step in progress (DEDUCED, assumption 32). -/
def Ctx.fullStep (c : Ctx) (low : Nat) : Nat :=
  let base := c.step / 2 ^ 24 * 2 ^ 24 + low
  if c.step + 2 ^ 23 < base ∧ 2 ^ 24 ≤ base then base - 2 ^ 24 else if base + 2 ^ 23 < c.step then base + 2 ^ 24 else base

/-- The abort record of a step goes on every group of the context but the queue pair it was learned from (R304). Its tag has
BUCKET 0, PHASE 3 and the aborted attempt: DESIGN CHOICE (assumption 33). -/
def State.sendAbort (s : State) (n step attempt : Nat) (rec : Verdict) (skip : Option Nat) : State :=
  match Kv.get n s.ctxs with
  | none => s
  | some c => c.groups.foldl (fun s e => e.2.qps.foldl (fun s k =>
      if some k = skip ∨ (s.qp k).map (·.state) ≠ some .connected then s
      else s.postHeld k none (xhTag step e.1 0 0 3 false attempt) (segHeader 0 0 0 ++ rec.bytes)) s) s

/-- Groups that wait in a queue of the context and whose first command carries the step end (R305). -/
def State.abortWaiting (s : State) (n step : Nat) : State :=
  let hit (c : Cmd) : Bool := decide (c.phase = .visible) && decide ((c.view s).ctx = n) &&
    (s.cmds.any fun f => decide (f.queue = c.queue) && decide (f.seq = c.group) && decide (f.phase = .visible) &&
      numbered f.pkt.opcode && decide (f.pkt.par 0 5 = step))
  { s with cmds := s.cmds.map fun c => if hit c then
      { c with phase := .finished (if c.seq = c.group then .fail .stepAborted 0 else conflict scGroupEnded) } else c }

/-- The step aborts on this part: its buckets end with e, waiting groups end, the attempt is counted and logged, and the records
go out (R304, R305). -/
def State.stepAbort (s : State) (n step : Nat) (e : Ending) (rec : Verdict) (group : Nat) (skip : Option Nat) : State :=
  match Kv.get n s.ctxs with
  | none => s
  | some c =>
    let x := c.xhStep step
    let open' := s.openBuckets n step
    let s := open'.foldl (fun s b => match s.findCmd b.queue b.seq with
      | some d => (match d.phase with
        | .finished _ => s
        | .flushing _ => s
        | _ => s.finish d e)
      | none => s) s
    let s : State := { s with buckets := s.buckets.filter fun b => !(decide (b.context = n) && decide (b.step = step)) }
    let s := s.abortWaiting n step
    let s := s.updCtx n fun c => { c.setXhStep { x with attempts := x.attempts + 1, verified := [], aborted := true } with
      stats := c.stats.filter fun st => st.step ≠ step }
    let s := match s.ledger n with
      | some l => if step ∈ l.opened then s.vput n (l.entryVa step + 7) (leBytes 1 (min 255 (x.attempts + 1))) else s
      | none => s
    let s := s.logEvent 0x0601 8 group n rec.reporter (step % 2 ^ 40 + rec.code * 2 ^ 40)
    s.sendAbort n step x.attempts rec skip

/-- A record that this part originates. -/
def State.ownRecord (s : State) (code : Nat) : Verdict :=
  { code := code, amax := 0, escaped := 0, nf := 0, reporter := s.selfNode, stroke := s.strk.now }

/-- CHECK_MISMATCH on the checking member (R304). -/
def State.mismatch (s : State) (b : Bucket) : State :=
  s.stepAbort b.context b.step (.fail .checkMismatch 92) (s.ownRecord 1) b.group none

/-- A held queue pair in ERROR: PEER_LOST for every step with an open bucket in its group (R275, R298, R304). -/
def State.xhPeerLost (s : State) (n k : Nat) : State :=
  match s.groupOf n k with
  | none => s
  | some g =>
    (((s.buckets.filter fun b => decide (b.context = n ∧ b.group = g)).map (·.step)).eraseDups).foldl (fun s step =>
      s.stepAbort n step (.fail .peerLost 76) (s.ownRecord 4) g (some k)) s

/-- An uncorrectable read of a command that carries a step aborts the step (R225, R304). -/
def State.mediaAbort (s : State) (n step : Nat) : State :=
  s.stepAbort n step (.fail .stepAborted 0) (s.ownRecord 3) ((((s.openBuckets n step).head?).map (·.group)).getD 0) none

/-- Touch the ranges of body units for reading or writing; a fault ends XH_REDUCE and aborts the step: with code ABORT, for an
uncorrectable line as R304 has it, for any other fault by DESIGN CHOICE (assumption 34). -/
def State.xhTouch (s : State) (j : XhJob) (write : Bool) (idx : List Nat) : Except State State :=
  let d := if write then j.dst else j.src
  let rs := idx.flatMap (xhRanges j.itusk d)
  let gone (s : State) : State := s.dropBucket j.b.key
  match s.touchAll j.v rs (if write then accW else accR) false with
  | .error (k, va) =>
    .error (((gone s).engineFault j.c k va 8 (j.b.bucket % 2) (if write then accW else accR) (if write then 92 else 88)).mediaAbort
      j.b.context j.b.step)
  | .ok s =>
    match (if write then none else rs.findSome? fun r => (s.badRange j.v.ctx j.v.bound r.1 r.2).map fun pa => (r.1, pa)) with
    | some (va, pa) => .error (((gone s).mediaFault j.c va pa 8 (j.b.bucket % 2) 88).mediaAbort j.b.context j.b.step)
    | none => .ok s

/-! ### The verdict (R301, R302) -/

/-- Final blocks of RESULT with NF set; in ITUSK mode the tiles that hold NaN or infinity. -/
def State.nfBlocks (s : State) (j : XhJob) : Nat :=
  if j.itusk then j.b.special
  else ((List.range j.dst.count).filter fun i => (Bfx.ofBytes (s.xhRead j.v false j.dst i)).nf).length

/-- Add a bucket's escaped blocks to its layer's statistics (R125). -/
def Ctx.addEscapes (c : Ctx) (step layer k : Nat) : Ctx :=
  let old := (c.stats.find? fun x => decide (x.step = step ∧ x.layer = layer)).getD
    { step := step, layer := layer, amax := 0, under := 0, elements := 0, escaped := 0, summary := false }
  { c with stats := { old with escaped := old.escaped + k } :: c.stats.filter fun x => ¬ (x.step = step ∧ x.layer = layer) }

/-- A PASS distribution: the exponent table, the bucket's end, and what the step decides (R302, R126). -/
def State.verified (s : State) (j : XhJob) (amax : Nat) : State :=
  let b := j.b
  let n := b.context
  let nf := s.nfBlocks j
  let entry := j.g.staging + 128 + 8 * b.bucket
  let xp := clampN (amax + clog2 j.g.contributors + j.g.margin) 1 0xF6
  let s := if j.itusk then s
    else
      let s := if amax = 0 then s else s.vput n entry (leBytes 1 xp)
      s.vput n (entry + 1) (leBytes 1 amax ++ leBytes 2 (min b.escaped.length 65535) ++ leBytes 4 (b.step % 2 ^ 32))
  let s := (s.dropBucket b.key).finish j.c (if j.itusk then Ending.ok 0 nf else Ending.ok b.escaped.length nf)
  let mark (c : Ctx) : Ctx :=
    let x := c.xhStep b.step
    (c.setXhStep { x with verified := (b.group, b.bucket) :: x.verified }).addEscapes b.step b.layer b.escaped.length
  s.updCtx n mark

/-- The stroke D of a bucket. -/
def XhJob.deadline (j : XhJob) : Nat := j.b.admitted + j.g.deadline

/-- Queue pairs on which a verdict goes on: up to the judge, or down from it. -/
def State.verdictOn (s : State) (j : XhJob) (down : Bool) : List Nat :=
  let me := s.posIn j.b
  let n := j.b.members.length
  if j.tree then (if down then j.g.children else j.g.prev.toList)
  else if down then (if me + 2 = n then [] else j.g.next.toList)
  else (if me + 1 = n then [] else j.g.next.toList)

/-- Is the part the judge of the bucket. -/
def State.isJudge (s : State) (j : XhJob) : Bool :=
  if j.tree then j.g.prev.isNone else decide (s.posIn j.b + 1 = j.b.members.length)

/-- Send a record on. -/
def State.sendVerdict (s : State) (j : XhJob) (down : Bool) (rec : Verdict) : State :=
  (s.verdictOn j down).foldl (fun s k =>
    s.postHeld k none (xhTag j.b.step j.b.group j.b.bucket 0 (if down then 3 else 2) false j.b.attempt) (segHeader 0 0 0 ++ rec.bytes)) s

/-- The judge has not decided by B(D): LATE (R303). -/
def State.decideLate (s : State) (b : Bucket) : State :=
  s.stepAbort b.context b.step (.fail .stepAborted 0) (s.ownRecord 2) b.group none

/-- Combine the COLLECT records once all are there, and send the result on or judge it (R301). The counts are compared outside
ITUSK mode, whose checks are the transport's alone (R308). -/
def State.tryVerdict (s : State) (j : XhJob) : State :=
  let want := if j.tree then j.g.children.length else if s.posIn j.b = 0 then 0 else 1
  if !j.b.joined || j.b.collected || decide (j.b.collects.length < want) then s
  else
    let nf := s.nfBlocks j
    let recs := j.b.collects.map fun x => Verdict.ofBytes x.2
    let esc := min j.b.escaped.length 65535
    if !j.itusk && recs.any fun r => decide (r.escaped ≠ esc) || decide (r.nf ≠ nf) then s.mismatch j.b
    else
      let amax := (recs.map (·.amax)).foldl max j.b.amax
      let rec' : Verdict := { code := 0, amax := amax, escaped := esc, nf := nf, reporter := 0, stroke := 0 }
      if s.isJudge j then
        (if s.strk.now < j.deadline then (s.sendVerdict j true { rec' with stroke := s.strk.now }).verified j amax
         else s.decideLate j.b)
      else (s.setBucket { j.b with collected := true }).sendVerdict j false rec'

/-- Every block of RESULT is written, in both passes: the member joins the verdict. -/
def State.joinVerdict (s : State) (j : XhJob) : State :=
  let b := { j.b with joined := true }
  (s.setBucket b).tryVerdict { j with b := b }

/-- The entry of a bucket with escapes (R297). -/
def State.logEscapes (s : State) (b : Bucket) : State := s.logEvent 0x0602 8 b.group b.context b.bucket (b.step % 2 ^ 40)

/-- A pass is over: the second pass begins, or the verdict (R297, R301). -/
def State.endPass (s : State) (j : XhJob) : State :=
  let b := j.b
  if b.pass2 ∨ b.escaped.isEmpty then s.joinVerdict j
  else
    let s := s.logEscapes b
    if j.inPlace ∧ 4096 < b.escaped.length then
      (b.escaped.foldl (fun s i => s.xhWrite j.v false j.dst i (nfBlock b.xp).toBytes) s).joinVerdict j
    else
      let b := { b with pass2 := true, body := b.escaped.mergeSort fun x y => decide (x ≤ y), written := 0, taken := [], up := [] }
      (s.setBucket b).sendOwn { j with b := b }

/-- Write final units of RESULT, saving own source blocks first where they share its place (R297, R308). -/
def State.writeFinal (s : State) (j : XhJob) (first count : Nat) (bs : List Byte) : State × XhJob :=
  (List.range count).foldl (fun (a : State × XhJob) k =>
    let (s, j) := a
    let i := j.b.body.getD (first + k) 0
    let size := if j.itusk then bs.length else 132
    let x := (bs.drop (size * k)).take size
    if j.itusk then
      let bad := (List.range (x.length / 4)).any fun n => decide (bitsOf (fieldAt x (4 * n) 4) 30 23 = 255)
      (s.xhWrite j.v true j.dst i x, { j with b := { j.b with written := j.b.written + 1, special := j.b.special + b2n bad } })
    else
      let f := Bfx.ofBytes x
      if j.b.pass2 then
        (s.xhWrite j.v false j.dst i (if f.esc then nfBlock (j.b.xp + 8) else f).toBytes, { j with b := { j.b with written := j.b.written + 1 } })
      else
        let keep := f.esc && j.inPlace && decide (j.b.saves.length < 4096)
        let saves := if keep then Kv.set i (s.xhRead j.v false j.src i) j.b.saves else j.b.saves
        let b := { j.b with written := j.b.written + 1, saves := saves, escaped := if f.esc then i :: j.b.escaped else j.b.escaped }
        (s.xhWrite j.v false j.dst i x, { j with b := b })) (s, j)

/-- Note a segment as taken, and end the pass with the last one. -/
def State.segmentDone (s : State) (j : XhJob) (key : Nat × Nat × Nat × Nat) : State :=
  let b := { j.b with taken := key :: j.b.taken }
  let j := { j with b := b }
  if b.taken.length = s.segmentsDue j then (s.setBucket b).endPass j else s.setBucket b

/-! ### Segments (R300) -/

/-- Body units of a segment, as indices of the tensor. -/
def XhJob.unitsOf (j : XhJob) (first count : Nat) : List Nat := (j.b.body.drop first).take count

/-- A final segment on its way round or down: checked, written, sent on. -/
def State.takeFinal (s : State) (j : XhJob) (chunk index first count : Nat) (body : List Byte) (key : Nat × Nat × Nat × Nat)
    (on : List Nat) : State :=
  if ¬ j.finalOk count body then s.mismatch j.b
  else match s.xhTouch j true (j.unitsOf first count) with
    | .error s => s
    | .ok s =>
      let s := on.foldl (fun s k => s.sendSeg j k chunk 1 index first count body) s
      let (s, j) := s.writeFinal j first count body
      s.segmentDone j key

/-- A SCATTER segment in a ring. -/
def State.takeScatter (s : State) (j : XhJob) (chunk index first count : Nat) (body : List Byte) (key : Nat × Nat × Nat × Nat) : State :=
  match s.xhTouch j false (j.unitsOf first count) with
  | .error s => s
  | .ok s =>
    match s.addBody j first count body with
    | none => s.mismatch j.b
    | some sum =>
      if chunk = (s.posIn j.b + 1) % j.b.members.length then s.takeFinal j chunk index first count sum key j.g.next.toList
      else
        (j.g.next.toList.foldl (fun s k => s.sendSeg j k chunk 0 index first count sum) s).segmentDone j key

/-- An UP segment in a tree: it waits for its siblings, and then the sum goes up, or is final at the root. -/
def State.takeUp (s : State) (j : XhJob) (index first count qp : Nat) (body : List Byte) (key : Nat × Nat × Nat × Nat) : State :=
  if ¬ ((piecesOf 132 count body).all fun x => j.blockOk false (Bfx.ofBytes x)) then s.mismatch j.b
  else
    let up := j.b.up ++ [(first, qp, body)]
    let mine := j.g.children.filterMap fun k => (up.find? fun x => decide (x.1 = first) && decide (x.2.1 = k)).map (·.2.2)
    if mine.length < j.g.children.length then s.segmentDone { j with b := { j.b with up := up } } key
    else
      let j := { j with b := { j.b with up := up.filter fun x => x.1 ≠ first } }
      match s.xhTouch j false (j.unitsOf first count) with
      | .error s => s
      | .ok s =>
        let join (a : Option (List Byte)) (x : List Byte) : Option (List Byte) := a.bind fun a =>
          (((piecesOf 132 count a).zip (piecesOf 132 count x)).mapM fun (y : List Byte × List Byte) =>
            (addBfx (Bfx.ofBytes y.1) (Bfx.ofBytes y.2)).map Bfx.toBytes).map fun l => l.flatMap id
        match (mine.drop 1).foldl join mine.head? with
        | none => s.mismatch j.b
        | some kids =>
          match (((piecesOf 132 count kids).zipIdx).mapM fun (x : List Byte × Nat) =>
              (addBfx (Bfx.ofBytes x.1) (s.ownBlock j (first + x.2))).map Bfx.toBytes).map fun l => l.flatMap id with
          | none => s.mismatch j.b
          | some sum =>
            match j.g.prev with
            | some p => (s.sendSeg j p 0 0 index first count sum).segmentDone j key
            | none => s.takeFinal j 0 index first count sum key j.g.children

/-- Where a message's key leads (R299). -/
inductive Filed where
  | bucket (j : XhJob)
  | notReady
  | discard

/-- Is attempt t (modulo 8) the attempt a, newer by 1 to 3, or older. -/
def attemptOf (t a : Nat) : Nat := (t + 8 - a % 8) % 8

/-- File a message by its key. -/
def State.fileKey (s : State) (n tag : Nat) : Filed :=
  let low := bitsOf tag 63 40
  let g := bitsOf tag 39 34
  let k := bitsOf tag 33 20
  let at' := bitsOf tag 4 2
  match s.buckets.find? fun b => decide (b.context = n) && decide (b.step % 2 ^ 24 = low) && decide (b.group = g) && decide (b.bucket = k) with
  | some b =>
    let d := attemptOf at' b.attempt
    if d = 0 then (match s.job b with
      | some j => if b.started then .bucket j else .notReady
      | none => .notReady)
    else if d ≤ 3 then .notReady else .discard
  | none =>
    match (Kv.get n s.ctxs).bind fun c => c.xhSteps.find? fun x => decide (x.step % 2 ^ 24 = low) with
    | some x => if (g, k) ∈ x.verified ∨ (g, k) ∈ x.stale then .discard else if attemptOf at' x.attempts ≤ 3 then .notReady else .discard
    | none => if at' ≤ 3 then .notReady else .discard

/-- XH_SEGMENT_RECEIVED: the head message of a held queue pair, PHASE 0 or 1 (R299, R300). -/
def execXhSegmentReceived (m : HeldMessage) (s : State) : Host.Outcome State Fault Refusal :=
  .next (match s.qp m.qp with
    | none => s
    | some q =>
      let phase := bitsOf m.tag 7 6
      if ¬ s.isHead m ∨ (s.groupOf q.owner m.qp).isNone ∨ 2 ≤ phase then s
      else match s.fileKey q.owner m.tag with
      | .discard => (s.takeMsg m.qp 0).staleResult q.owner (((Kv.get q.owner s.ctxs).map fun c => c.fullStep (bitsOf m.tag 63 40)).getD 0)
      | .notReady => s.rnrMsg m.qp
      | .bucket j =>
        let first := fieldAt m.bytes 0 4
        let count := fieldAt m.bytes 4 2
        let body := m.bytes.drop 64
        let chunk := bitsOf m.tag 19 8
        let key := (phase, chunk, first, m.qp)
        let held := (j.b.up.map fun x => x.2.2.length).foldl (· + ·) 0
        if bitOf m.tag 5 ≠ j.b.pass2 ∨ (j.tree ∧ phase = 0 ∧ 1081344 < held + body.length) ∨
            (j.itusk ∧ phase = 0 ∧ ((Kv.get j.g.ituskPlate s.plates).bind (·.ctx)) ≠ some q.owner) then s.rnrMsg m.qp
        else
          let s := s.takeMsg m.qp 0
          if key ∈ j.b.taken then s
          else if j.b.body.length < first + count ∧ 0 < count ∨ (¬ j.itusk ∧ body.length ≠ 132 * count) then s.mismatch j.b
          else if j.tree then
            (if phase = 0 then s.takeUp j (fieldAt m.bytes 6 1) first count m.qp body key
             else s.takeFinal j chunk (fieldAt m.bytes 6 1) first count body key j.g.children)
          else if phase = 0 then s.takeScatter j chunk (fieldAt m.bytes 6 1) first count body key
          else s.takeFinal j chunk (fieldAt m.bytes 6 1) first count body key
            (if chunk = (s.posIn j.b + 2) % j.b.members.length then [] else j.g.next.toList))

/-- A record with a code other than PASS: the step aborts here too, unless that attempt is over (R304, R305). -/
def State.takeAbort (s : State) (n qp tag : Nat) (rec : Verdict) : State :=
  match Kv.get n s.ctxs with
  | none => s
  | some c =>
    let low := bitsOf tag 63 40
    let step := match (s.buckets.find? fun b => decide (b.context = n) && decide (b.step % 2 ^ 24 = low)).map (·.step) with
      | some t => t
      | none => ((c.xhSteps.find? fun x => decide (x.step % 2 ^ 24 = low)).map (·.step)).getD (c.fullStep low)
    let x := c.xhStep step
    if s.stepVerified n step ∨ 4 ≤ attemptOf (bitsOf tag 4 2) x.attempts then s
    else s.stepAbort n step (.fail .stepAborted 0) rec (bitsOf tag 39 34) (some qp)

/-- VERDICT_RECORD_RECEIVED: the head message of a held queue pair, PHASE 2 or 3 (R301 to R304). -/
def execVerdictRecordReceived (m : HeldMessage) (s : State) : Host.Outcome State Fault Refusal :=
  .next (match s.qp m.qp with
    | none => s
    | some q =>
      let phase := bitsOf m.tag 7 6
      let rec' := Verdict.ofBytes (m.bytes.drop 64)
      if ¬ s.isHead m ∨ (s.groupOf q.owner m.qp).isNone ∨ phase < 2 then s
      else if rec'.code ≠ 0 then (s.takeMsg m.qp 0).takeAbort q.owner m.qp m.tag rec'
      else match s.fileKey q.owner m.tag with
      | .discard => (s.takeMsg m.qp 0).staleResult q.owner (((Kv.get q.owner s.ctxs).map fun c => c.fullStep (bitsOf m.tag 63 40)).getD 0)
      | .notReady => s.rnrMsg m.qp
      | .bucket j =>
        if phase = 2 then
          let b := { j.b with collects := j.b.collects ++ [(m.qp, m.bytes.drop 64)] }
          (((s.takeMsg m.qp 0).setBucket b).tryVerdict { j with b := b })
        else if ¬ j.b.joined then s.rnrMsg m.qp
        else if j.deadline + j.g.deadline ≤ s.strk.now then
          (s.takeMsg m.qp 0).stepAbort j.b.context j.b.step (.fail .peerLost 76) (s.ownRecord 4) j.b.group none
        else ((s.takeMsg m.qp 0).sendVerdict j true rec').verified j rec'.amax)

/-- At B(D) a judge that has not decided decides LATE (R303). -/
def State.expireDeadline (s : State) (k : BucketKey) : State :=
  match (s.bucketAt k).bind s.job with
  | some j => if s.isJudge j ∧ j.deadline ≤ s.strk.now then s.decideLate j.b else s
  | none => s

/-- A member without a distributed verdict by B(D + DEADLINE) takes PEER_LOST (R303). -/
def State.expireVerdict (s : State) (k : BucketKey) : State :=
  match (s.bucketAt k).bind s.job with
  | some j => if j.deadline + j.g.deadline ≤ s.strk.now then
      s.stepAbort k.context k.step (.fail .peerLost 76) (s.ownRecord 4) k.group none else s
  | none => s

/-- DEADLINE_EXPIRY (R303). -/
def execDeadlineExpiry (k : BucketKey) (s : State) : Host.Outcome State Fault Refusal := .next (s.expireDeadline k)

/-- VERDICT_TIMEOUT (R303). -/
def execVerdictTimeout (k : BucketKey) (s : State) : Host.Outcome State Fault Refusal := .next (s.expireVerdict k)

/-! ### Groups (R196, R298, R308) -/

/-- Staging bytes. -/
def stagingMin : Nat := 13107328

/-- A queue-pair field of the staging header: it is a connected COLLECTIVE queue pair of the context to the member. -/
def State.headerQp (s : State) (n k : Nat) (member : Option Nat) : Bool :=
  match member with
  | none => decide (k = 0xFFFF_FFFF)
  | some x => match s.qp k with
    | some q => decide (q.owner = n) && decide (q.state = .connected) && decide (q.cls = 0) && decide (q.peerNode = x)
    | none => false

/-- Check the staging header against the group (R298). -/
def State.headerOk (s : State) (n : Nat) (p : Packet) (r : RingEntry) (h : List Byte) : Bool :=
  let me := (r.members.findIdx? (· = s.selfNode)).getD 0
  let k := r.members.length
  let ring := decide (p.at 66 1 = 0)
  let kids : List Nat := (List.range r.fanout).map fun i => me * r.fanout + i + 1
  s.headerQp n (fieldAt h 0 4) (if ring then r.members[(me + k - 1) % k]? else if me = 0 then none else r.members[(me - 1) / r.fanout]?) &&
    s.headerQp n (fieldAt h 4 4) (if ring then r.members[(me + 1) % k]? else none) &&
    ((List.range 16).all fun i => s.headerQp n (fieldAt h (8 + 4 * i) 4) (if ring then none else (kids[i]?).bind (r.members[·]?))) &&
    (if p.at 65 1 = 1 then decide (fieldAt h 72 1 < s.plateCount) else decide (fieldAt h 72 1 = 0)) &&
    (h.drop 73).all (· = 0)

/-- The header of a staging area. -/
def State.stagingHeader (s : State) (n h : Nat) : List Byte :=
  match s.desc n h with
  | some d => s.vread n [] d.base 128
  | none => []

/-- Check XH_GROUP (R196, R298, R308). -/
def State.checkXhGroup (s : State) (n : Nat) (c : Ctx) (p : Packet) (full : Bool) : Check := do
  ensure (decide (p.at 64 1 < 64)) (badField 64)
  ensure (!(s.buckets.any fun b => decide (b.context = n) && decide (b.group = p.at 64 1))) (conflict scXhGroupOpen)
  ensure (decide (p.at 65 1 ≤ 1)) (badField 65)
  ensure (decide (p.at 66 1 ≤ 1) && !(decide (p.at 65 1 = 1) && decide (p.at 66 1 = 1))) (badField 66)
  match s.ringOf (p.at 67 1) with
  | none => .error (badField 67)
  | some r =>
    ensure (decide (2 ≤ p.at 68 2) && decide (p.at 68 2 ≤ 4096) && decide (p.at 68 2 = r.members.length)) (badField 68)
    ensure (decide (p.at 70 1 ≤ 8)) (badField 70)
    zeroBytes p 71 71
    ensure (decide (1 ≤ p.at 72 4) && decide (p.at 72 4 ≤ 4096)) (badField 72)
    let d ← s.needDesc n (p.at 76 4) 76 true
    ensure (decide (d.layout = 0) && c.descPinned d && decide (stagingMin ≤ d.extent)) (badField 76)
    ensure (!full || s.headerOk n p r (s.stagingHeader n (p.at 76 4))) (badField 76)
    zeroBytes p 80 95

/-- XH_GROUP defines a group, zero-fills its exponent table and in-flight areas, and holds its queue pairs (R298). -/
def execXhGroup (p : Packet) (s : State) : Host.Outcome State Fault Refusal :=
  .next (s.forOp p 0x0801 (s.runReach p 8 (fun s c x => s.checkXhGroup (c.view s).ctx x p false)
      (fun s c =>
        let base := (s.desc (c.view s).ctx (p.at 76 4)).map (·.base)
        [{ detail := 76, write := false, ranges := (base.map fun b => (b, 128)).toList : MgmtIO },
         { detail := 76, write := true, ranges := (base.map fun b => (b, stagingMin)).toList }]) fun s c x => do
    let n := (c.view s).ctx
    s.checkXhGroup n x p true
    let d ← s.needDesc n (p.at 76 4) 76 true
    let h := s.stagingHeader n (p.at 76 4)
    let opt (o : Nat) : Option Nat := if fieldAt h o 4 = 0xFFFF_FFFF then none else some (fieldAt h o 4)
    let g : XhGroup :=
      { mode := p.at 65 1, topology := p.at 66 1, ring := p.at 67 1, contributors := p.at 68 2, margin := p.at 70 1,
        deadline := p.at 72 4, handle := p.at 76 4, staging := d.base, stagingBytes := d.extent, prev := opt 0, next := opt 4,
        children := (List.range 16).filterMap fun i => opt (8 + 4 * i), ituskPlate := fieldAt h 72 1 }
    let s := s.vput n (d.base + 128) (zeros (stagingMin - 128))
    return (s.updCtx n fun c => { c with groups := Kv.set (p.at 64 1) g c.groups }, Ending.ok 0 0)))

/-! ### XH_REDUCE and XH_ABORT (R196, R300, R304) -/

/-- Bytes of gradient that a tensor counts as (R196, R308). -/
def gradientBytes (itusk : Bool) (d : Desc) : Nat := if itusk then 4 * d.count else 128 * d.count

/-- Check XH_REDUCE (R196, R298, R300, R308). Where the group's ring is no longer in the active bank, or no longer has the group's
contributors, GROUP fails: DESIGN CHOICE (assumption 35). -/
def State.checkXhReduce (s : State) (n : Nat) (c : Ctx) (p : Packet) : Check := do
  s.checkNumbering c p false
  zeroFields p [(69, 1), (74, 2)]
  match Kv.get (p.at 80 1) c.groups with
  | none => .error (badField 80)
  | some g =>
    ensure ((s.ringOf g.ring).any fun r => decide (r.members.length = g.contributors) && decide (s.selfNode ∈ r.members)) (badField 80)
    zeroBytes p 81 83
    ensure (decide (p.at 84 4 < 16384)) (badField 84)
    ensure (!(s.buckets.any fun b => decide (b.key = { context := n, step := p.par 0 5, group := p.at 80 1, bucket := p.at 84 4 }) &&
      !(decide (b.queue = p.queue) && decide (b.seq = p.seq)))) (conflict scBucketOpen)
    let x := c.xhStep (p.par 0 5)
    ensure (x.aborted || decide ((p.at 80 1, p.at 84 4) ∉ x.verified)) (conflict scStepVerified)
    let f := if g.mode = 1 then Fmt.fp32 else Fmt.bfx32
    let src ← s.needDesc n (p.at 88 4) 88 false
    let bytes := gradientBytes (decide (g.mode = 1)) src
    ensure (decide (src.fmt = f) && decide (src.layout = 0) && c.descPinned src && decide (2 ^ 20 ≤ bytes) && decide (bytes ≤ 2 ^ 26)) (badField 88)
    let dst ← s.needDesc n (p.at 92 4) 92 true
    ensure (decide (dst.fmt = f) && decide (dst.layout = 0) && c.descPinned dst && decide (dst.shape = src.shape)) (badField 92)
    zeroBytes p 96 111

/-- The bucket of an XH_REDUCE enters its group's queue at admission, with the ring that the active bank gives then (R266, R300,
R303); a new attempt of an aborted step begins with its first bucket (R305). -/
def State.admitBucket (s : State) (n : Nat) (p : Packet) : State :=
  match (Kv.get n s.ctxs).bind fun c => (Kv.get (p.at 80 1) c.groups).map fun g => (c, g) with
  | none => s
  | some (c, g) =>
    let x := c.xhStep (p.par 0 5)
    let r := (s.ringOf g.ring).getD { fanout := 2, members := [] }
    let units := ((s.desc n (p.at 88 4)).map (xhUnits (decide (g.mode = 1)))).getD 0
    let b : Bucket :=
      { context := n, step := p.par 0 5, group := p.at 80 1, bucket := p.at 84 4, layer := p.par 6 2, attempt := x.attempts,
        queue := p.queue, seq := p.seq, admitted := s.strk.now, members := r.members, fanout := r.fanout,
        bank := s.fabric.active.getD 0, xp := 0, started := false, amax := 0, pass2 := false, body := List.range units, taken := [],
        up := [], written := 0, saves := [], escaped := [], joined := false, collects := [], collected := false, special := 0 }
    let s := s.updCtx n fun c => c.setXhStep { x with aborted := false, stale := x.stale.filter (· ≠ (p.at 80 1, p.at 84 4)) }
    { s with buckets := s.buckets ++ [b] }

/-- XH_REDUCE starts: its bucket may be taken by BUCKET_START (R300). -/
def execXhReduce (p : Packet) (s : State) : Host.Outcome State Fault Refusal :=
  .next (s.forOp p 0x0802 (match s.startable p with
    | none => s
    | some c => match s.ctxOf c with
      | none => s
      | some x =>
        match s.checkXhReduce (c.view s).ctx x p with
        | .error e => ({ s with buckets := s.buckets.filter fun b => ¬ (b.queue = c.queue ∧ b.seq = c.seq) }).finish c e
        | .ok _ =>
          let s := if s.buckets.any fun b => decide (b.queue = c.queue ∧ b.seq = c.seq) then s else s.admitBucket (c.view s).ctx p
          s.begin c .none))

/-- The largest biased exponent of the own contribution (R301). -/
def State.ownAmax (s : State) (j : XhJob) : Nat :=
  let es := (List.range j.src.count).filterMap fun i =>
    let x := Bfx.ofBytes (s.xhRead j.v false j.src i)
    let m := (x.mant.map Int.natAbs).foldl max 0
    if x.nf ∨ m = 0 then none else some ((Nat.log2 m : Int) + x.xp - 30)
  match es with
  | [] => 0
  | e :: t => (clampI (t.foldl max e) 1 254).toNat

/-- BUCKET_START: the oldest waiting bucket of a group starts once fewer than eight of its buckets run (R300). -/
def execBucketStart (context group : Nat) (s : State) : Host.Outcome State Fault Refusal :=
  let mine := s.buckets.filter fun b => decide (b.context = context) && decide (b.group = group)
  .next (match mine.find? fun b => !b.started with
    | none => s
    | some b =>
      if 8 ≤ (mine.filter (·.started)).length then s
      else match s.job b with
        | none => s
        | some j =>
          if j.c.phase ≠ .running ∨ j.c.hostWait.isSome then s
          else if s.hostBlocked j.v j.src.ranges then s.waitHost j.c 88
          else match s.xhTouch j false b.body with
          | .error s => s
          | .ok s =>
            let xp := if j.itusk then 0 else s.agreedXp j.v b.step group b.bucket
            let b := { b with started := true, xp := xp, amax := if j.itusk then 0 else s.ownAmax j }
            let s := if j.itusk then
                ((s.updLedger context fun l =>
                  let ring := leBytes 2 b.members.length ++ leBytes 1 b.fanout ++ zeros 5 ++ b.members.flatMap (leBytes 2 ·)
                  let w := l.workOf b.step
                  if b.step ∈ l.opened then
                    l.setWork { w with rings := Kv.set group (ring ++ zeros (roundUp (2 * b.members.length) 8 - 2 * b.members.length)) w.rings }
                  else l).ledgerFlag context b.step 0x04)
              else s.recordXp context b.step group b.bucket xp
            (s.setBucket b).sendOwn { j with b := b })

/-- Check XH_ABORT (R196). -/
def State.checkXhAbort (s : State) (n : Nat) (c : Ctx) (p : Packet) : Check := do
  s.checkStep c p
  ensure (!s.stepVerified n (p.at 64 5)) (conflict scStepVerified)
  ensure (Kv.has (p.at 69 1) c.groups) (badField 69)
  zeroBytes p 70 79

/-- XH_ABORT aborts the step's reduction (R304). -/
def execXhAbort (p : Packet) (s : State) : Host.Outcome State Fault Refusal :=
  .next (s.forOp p 0x0803 (s.runNow p fun s c x => do
    let n := (c.view s).ctx
    s.checkXhAbort n x p
    return (s.stepAbort n (p.at 64 5) (.fail .stepAborted 0) (s.ownRecord 3) (p.at 69 1) none, Ending.ok 0 0)))

/-! ### The prefetch agent (R309) -/

/-- Admitted hints of a context that have not completed. -/
def State.hints (s : State) (n : Nat) : List Cmd :=
  s.cmds.filter fun c => decide (c.pkt.opcode = 0x0804) && decide ((c.view s).ctx = n) && decide (c.phase = .admitted)

/-- Check PREFETCH_HINT (R196, R309). -/
def State.checkPrefetchHint (s : State) (n : Nat) (c : Ctx) (p : Packet) : Check := do
  let len := p.at 80 4
  notInline p 64
  notInline p 72
  ensure (c.inAllocs (p.at 64 8) len) (.fail .descRange 64)
  ensure (c.inAllocs (p.at 72 8) len) (.fail .descRange 72)
  ensure (decide (len % 4096 = 0) && decide (len ≤ 2 ^ 30)) (badField 80)
  ensure (decide (p.at 84 1 ≤ 3)) (badField 84)
  zeroBytes p 85 95
  ensure (decide (((s.hints n).filter fun d => ¬ (d.queue = p.queue ∧ d.seq = p.seq)).length < 64)) (.fail .noResource 64)

/-- Copy pages in ascending order until one is not present; any other fault ends the hint with its status. -/
def State.prefetchRun (s : State) (c : Cmd) (src dst : Nat) : Nat → Nat → State
  | 0, done => s.finish c (Ending.ok done 0)
  | k + 1, done =>
    let v := c.view s
    match s.touch v.ctx v.bound (src + done) 4096 accR true with
    | .error (kind, va) => stop s kind va accR 64 done
    | .ok s1 =>
      match s1.touch v.ctx v.bound (dst + done) 4096 accW true with
      | .error (kind, va) => stop s1 kind va accW 72 done
      | .ok s2 =>
        match s2.badRange v.ctx v.bound (src + done) 4096 with
        | some pa => s2.mediaFault c (src + done) pa 5 c.mover 64
        | none => (s2.vwrite v.ctx v.bound (dst + done) (s2.vread v.ctx v.bound (src + done) 4096)).prefetchRun c src dst k (done + 4096)
where
  /-- a page that is not present ends the hint; any other fault ends it with its status (R217) -/
  stop (s : State) (kind : FaultKind) (va : Nat) (acc : Acc) (detail done : Nat) : State :=
    if kind = .notPresent then s.finish c (Ending.ok done 0) else s.engineFault c kind va 5 c.mover acc detail

/-- A DMA_COPY that runs or could start: the prefetch agent gives way to it (R309). -/
def State.copyAhead (s : State) : Bool :=
  s.cmds.any fun d => decide (d.pkt.opcode = 0x0207) && (s.mayStart d || (decide (d.phase = .running) && d.fault.isNone && d.hostWait.isNone))

/-- PREFETCH_HINT: hints run in PRIORITY order and then in admission order, and behind every DMA_COPY (R309). -/
def execPrefetchHint (p : Packet) (s : State) : Host.Outcome State Fault Refusal :=
  .next (s.forOp p 0x0804 (match (s.startable p).orElse fun _ => s.resumable p with
    | none => s
    | some c =>
      let n := (c.view s).ctx
      if s.copyAhead || (s.hints n).any fun d => s.mayStart d && (decide (d.pkt.at 84 1 < p.at 84 1) || (decide (d.pkt.at 84 1 = p.at 84 1) && d.before c)) then s
      else match s.ctxOf c with
        | none => s
        | some x =>
          match s.checkPrefetchHint n x p with
          | .error e => s.finish c e
          | .ok _ => if s.hostBlocked (c.view s) [(p.at 64 8, p.at 80 4)] then s.waitHost c 64
            else s.prefetchRun c (p.at 64 8) (p.at 72 8) (p.at 80 4 / 4096) 0))

end Sys2Proof.Machine
end

