-- ==== Sys2Proof/Machine/StylusRx.lean ====
section
/-! DEFINITION. Stylus, the receiver's side and the sender's answers (16_stylus_transport.md): packets, the miss buffer,
acknowledgements, timers, and queue pairs that enter ERROR. -/

namespace Sys2Proof.Machine

/-! ### A queue pair enters ERROR (R275) -/

/-- The offset of the field through which a running engine command holds queue pair k, when the loss of k ends the command
(R316, R317, R330, R332, R341). The detail of a MIRROR, SNAPSHOT or RESTORE is the queue pair's field: DESIGN CHOICE (assumption 37). -/
def lostDetail (p : Packet) (k : Nat) : Option Nat :=
  match p.opcode with
  | 0x0902 => some 72
  | 0x0903 => if p.at 76 4 = k then some 76 else none
  | 0x0A02 | 0x0A04 => some 76
  | 0x0A03 | 0x0A08 => some 68
  | _ => none

/-- A shard whose forward is lost keeps its own outcome, and a verified one ends with PEER_LOST (R317). -/
def forwardLost (x : Cmd) : Cmd :=
  match x.work with
  | .shard w => { x with work := .shard { w with settled := some { w.settled.getD (Ending.ok 0 0) with status := .peerLost, detail := 80 } } }
  | _ => x

/-- The ending of a SHARD_RECEIVE: RESULT0 holds the bytes stored, RESULT1 the SHARD_RECEIVE commands admitted for the shard (R317). -/
def State.shardResults (s : State) (c : Cmd) (e : Ending) : Ending :=
  match c.work with
  | .shard w =>
    if c.pkt.opcode = 0x0903 then
      { e with r0 := w.stored % 2 ^ 32, r1 := ((Kv.get (c.pkt.at 64 2) s.manifests).bind fun m => Kv.get (c.pkt.at 68 4) m.receives).getD 0 % 2 ^ 32 }
    else e
  | _ => e

/-- Commands whose last requests have all been acknowledged end (R278, R316, R317, R330). -/
def State.settleSends (s : State) : State :=
  let busy (c : Cmd) : Bool := s.stylus.qps.any fun e => e.2.sends.any fun r => decide (r.cmd = some (c.queue, c.seq))
  { s with cmds := s.cmds.map fun c =>
    if c.phase = .running ∧ ¬ busy c then
      (match c.work with
       | .sending e => { c with phase := .finished e }
       | .shard w => (match w.settled, w.matched with
         | some e, some _ => { c with phase := .finished e }
         | _, _ => c)
       | _ => c)
    else c }

/-- A queue pair enters ERROR (R275): a log entry, every request ends with PEER_LOST, and what the part held on it is lost. -/
def State.qpError (s : State) (k : Nat) (status psn : Nat) : State :=
  match s.qp k with
  | none => s
  | some q =>
    if q.state = .error then s
    else
      let s := s.logEvent 0x0502 7 0 q.owner k status
      let holders := s.holdersOf k
      let s := (s.posts k q).foldl (fun s w => s.finishPost w (.fail .peerLost 64)) s
      let s := s.updQp k fun q => { q with
        state := .error, cause := some (status, psn), recvs := [], armed := [], sends := [], messages := [], unacked := [], inks := [] }
      let s := holders.foldl (fun s c => match lostDetail c.pkt k with
        | some d => s.finish c <| s.shardResults c { status := .peerLost, detail := d, r1 := if c.pkt.opcode = 0x0A08 then c.cursor else 0 }
        | none => s.updCmd c.queue c.seq forwardLost) s
      let sp := s.spare
      let s : State := { s with spare := { sp with
        fill := sp.fill.filter (·.qp ≠ k), serve := sp.serve.filter (·.qp ≠ k) } }
      (s.xhPeerLost q.owner k).settleSends

/-! ### Completions and arrivals (R278, R279, R287) -/

/-- A POST_RECV completes with a tag: the oldest request armed for it fires, or the arrival is latched (R287). -/
def State.tagArrival (s : State) (n tag : Nat) (who : Nat × Nat) : State :=
  let waits (c : Cmd) : Bool := s.stylus.qps.any fun e => decide (e.2.owner = n) && e.2.armed.any fun a =>
    decide (a.queue = c.queue ∧ a.seq = c.seq) && decide (a.kind = 1) && decide (a.arg = tag) && !a.fired
  match (s.cmds.filter waits).mergeSort (fun a b => !b.before a) with
  | c :: _ =>
    let fire (q : Qp) : Qp := { q with armed := q.armed.map fun a => if a.queue = c.queue ∧ a.seq = c.seq then { a with fired := true } else a }
    { s with stylus := { s.stylus with qps := s.stylus.qps.map fun e => (e.1, fire e.2) } }
  | [] =>
    match Kv.get n s.ctxs with
    | none => s
    | some c =>
      if c.arrivals.length < 64 then s.updCtx n fun c => { c with arrivals := c.arrivals ++ [tag] }
      else (s.updCtx n fun c => { c with arrivalsLost := c.arrivalsLost + 1 }).logEvent 0x0303 7 0 n who.1 who.2

/-- A status code as a status, for the codes that an ACK may carry. -/
def statusOf (k : Nat) : Option Status :=
  [Status.badField, .stateConflict, .noResource, .accessDenied, .descRange, .inkUnderflow, .inkOverflow, .checkMismatch, .peerLost,
    .mediaError, .epochStale].find? fun x => decide (x.code = k)

/-- Apply an ink message (R249): the new state, or the status that refuses it. -/
def State.remoteInk (s : State) (n f : Nat) : Except (Status × State) State :=
  if let some pa := s.inkFieldBad n f then .error (.accessDenied, s.inkMedia n (inkWord f) pa 0 0)
  else if ¬ s.inkFieldOk n f true then .error (.accessDenied, if s.inkFieldPin n f then s.inkPinFault n (inkWord f) 0 0 else s)
  else match s.inkSignal n f 0 0 with
    | .ok s => .ok s
    | .error (e, s) => .error (if e = .inkOverflow ∨ e = .inkUnderflow then e else .accessDenied, s)

/-- Complete what is complete at the head, in message order: matched receives and ink messages (R278, R279). -/
def State.deliver (s : State) (k : Nat) : Nat → State
  | 0 => s
  | n + 1 =>
    match s.qp k with
    | none => s
    | some q =>
      match q.inks.find? fun i => decide (i.2.1 = q.nextDone) && decide (q.nextDone ≠ q.nextMatch) with
      | some (psn, _, f) =>
        (match s.remoteInk q.owner f with
         | .ok s =>
           (s.updQp k fun q => { q with inks := q.inks.filter (·.1 ≠ psn), nextDone := (q.nextDone + 1) % 2 ^ 32 }.mark psn).deliver k n
         | .error (e, s) => (s.qpError k e.code psn).updQp k fun q => q.ackNow 2 psn e.code)
      | none =>
        match q.messages.find? fun m => decide (m.msn = q.nextDone) && decide (m.got = m.len) with
        | none => s
        | some m =>
          match m.cmd with
          | none => s
          | some w =>
            let s := s.updQp k fun q => { q with messages := q.messages.filter (·.msn ≠ m.msn), nextDone := (q.nextDone + 1) % 2 ^ 32 }
            let s := s.finishPost w (match m.refused with
              | some st => .fail st 68
              | none => Ending.ok m.len q.peerNode)
            (s.tagArrival q.owner m.tag w).deliver k n

/-! ### DATA and INK packets (R272, R277, R279, R280) -/

/-- The extended count of a 24-bit PSN near a base (R280, R288). -/
def Qp.extCount (q : Qp) (base psn : Nat) : Option Nat :=
  let d := (psn + 2 ^ 24 - q.psn base) % 2 ^ 24
  if d < 2 ^ 23 then some (base + d) else if 2 ^ 24 ≤ base + d then some (base + d - 2 ^ 24) else none

/-- Open a packet's payload (R288): none where its authentication fails. -/
def Qp.opened (q : Qp) (ack : Bool) (ext : Nat) (pkt : List Byte) : Option (List Byte) :=
  if ¬ q.encrypt then some (pkt.drop 40)
  else match q.key with
    | none => none
    | some key =>
      let clean := packetWith pkt false 0
      let cut := if ack then clean.length - 16 else 40
      Config.gcmOpen key.recv (leBytes 2 q.peerQp ++ [if ack then 1 else 0] ++ leBytes 8 ext ++ [0]) (clean.take cut) (clean.drop cut)

/-- Replace a matched message. -/
def Qp.setMsg (q : Qp) (m : RxMsg) : Qp := { q with messages := q.messages.map fun (x : RxMsg) => if x.msn = m.msn then m else x }

/-- Replace an accepted request. -/
def Qp.setReq (q : Qp) (r : SendReq) : Qp := { q with sends := q.sends.map fun (x : SendReq) => if x.msn = r.msn then r else x }

/-- A matched message's payload lands in its buffer (R277, R278). A receive whose buffer is too short takes nothing, and so does one whose page
cannot be used: the fault is recorded, PIN for a page that is not there (R217, R218), and the sender learns the status (assumption 38). -/
def State.landData (s : State) (k : Nat) (m : RxMsg) (c off : Nat) (bs : List Byte) : State :=
  match m.cmd with
  | none =>
    let got := m.got + bs.length
    let m' : RxMsg := { m with got := got, parts := m.parts ++ [(off, bs)], last := if got = m.len then some c else none }
    s.updQp k fun q =>
      let q := q.setMsg m'
      if got = m.len then q else q.mark c
  | some w =>
    let put (s : State) (refused : Option Status) : State :=
      let m' : RxMsg := { m with got := m.got + bs.length, refused := refused }
      s.updQp k fun q =>
        let q := (q.setMsg m').mark c
        match refused with
        | some st => q.ackNow 0 c st.code
        | none => q
    match (s.findCmd w.1 w.2).bind fun d => (s.desc (d.view s).ctx (d.pkt.at 68 4)).map fun b => (d, b) with
    | none => put s (some .descRange)
    | some (d, b) =>
      if m.refused.isSome then put s m.refused
      else if b.extent < m.len then put s (some .descRange)
      else
        let n := (d.view s).ctx
        match s.touch n [] (b.base + off) bs.length accW false with
        | .error (f, va) => put (s.faultRecord n (mkFault f va 7 0 accW w.1 w.2 0)) (some f.status)
        | .ok s => put (s.vwrite n [] (b.base + off) bs) none

/-- Ink messages that are next in MSN order count as matched (R277, R279). -/
def Qp.passInks (q : Qp) : Nat → Qp
  | 0 => q
  | n + 1 => if q.inks.any fun i => decide (i.2.1 = q.nextMatch) then { q with nextMatch := (q.nextMatch + 1) % 2 ^ 32 }.passInks n else q

/-- Match a message to a posted receive, or to the engine that holds the queue pair. -/
def State.matchMsg (s : State) (k : Nat) (q : Qp) (msn tag len : Nat) : Option (State × RxMsg) :=
  let add (m : RxMsg) (q : Qp) : Qp := { q with messages := q.messages ++ [m], nextMatch := (q.nextMatch + 1) % 2 ^ 32 }.passInks (q.inks.length + 1)
  let new (w : Option (Nat × Nat)) : RxMsg := { msn := msn, cmd := w, tag := tag, len := len, got := 0, refused := none, parts := [], last := none }
  if s.qpHeld k then some (s.updQp k (add (new none)), new none)
  else
    match q.recvs.find? fun w => ((s.findCmd w.1 w.2).map fun c => decide (c.pkt.at 72 8 = tag)).getD false with
    | none => none
    | some w => some (s.updQp k fun q => add (new (some w)) { q with recvs := q.recvs.filter (· ≠ w) }, new (some w))

/-- A DATA packet that R280 finds new. The checks of R272 on OFFSET and MSG_LEN: a payload that is empty or runs past MSG_LEN fails them too
(assumption 166). -/
def State.takeData (s : State) (k port : Nat) (q : Qp) (c : Nat) (pkt bs : List Byte) : State :=
  let msn := fieldAt pkt 16 4
  let off := fieldAt pkt 20 4
  let len := fieldAt pkt 24 4
  let tag := fieldAt pkt 28 8
  let lastP := bitOf (fieldAt pkt 1 1) 4
  let wrong := fieldAt pkt 15 1 ≠ 0 ∨ fieldAt pkt 36 4 ≠ 0 ∨ len = 0 ∨ 2 ^ 30 < len ∨ len ≤ off ∨ len < off + bs.length ∨ bs.isEmpty ∨
    (¬ lastP ∧ off % bs.length ≠ 0)
  if wrong then s.portCount port 2 1
  else
    match q.messages.find? fun m => decide (m.msn = msn) with
    | some m => if m.last = some c then s else (s.landData k m c off bs).deliver k 4096
    | none =>
      if msn ≠ q.nextMatch then s
      else match s.matchMsg k q msn tag len with
        | none => s.updQp k fun q => { q with echo := c }.ackNow 1 0 0
        | some (s, m) => (s.landData k m c off bs).deliver k 4096

/-- An INK packet that R280 finds new: it waits for every earlier message (R279). -/
def State.takeInk (s : State) (k port : Nat) (q : Qp) (c : Nat) (pkt : List Byte) : State :=
  let msn := fieldAt pkt 16 4
  if fieldAt pkt 15 1 ≠ 0 ∨ fieldAt pkt 20 8 ≠ 0 ∨ fieldAt pkt 36 4 ≠ 0 then s.portCount port 2 1
  else if q.inks.any fun i => decide (i.1 = c) then s
  else
    (s.updQp k fun q => { q with inks := q.inks ++ [(c, msn, fieldAt pkt 28 8)] }.passInks (q.inks.length + 2)).deliver k 4096

/-! ### ACK packets (R273, R281) -/

/-- RFC 6298 smoothing of a sample, and the timeout, in ns (R281). -/
def Qp.sample (q : Qp) (r : Nat) : Qp :=
  let (srtt, var) := match q.rtt with
    | none => (r, r / 2)
    | some (a, v) => ((7 * a + r) / 8, (3 * v + (max a r - min a r)) / 4)
  { q with rtt := some (srtt, var), rto := clampN (srtt + 4 * var) 4000 64000 }

/-- The computed timeout. -/
def Qp.computedRto (q : Qp) : Nat := match q.rtt with
  | none => 16000
  | some (a, v) => clampN (a + 4 * v) 4000 64000

/-- Is PSN count c acknowledged by an ACK with this CUM_PSN and bitmap (R273). -/
def ackCovers (cum : Nat) (pkt : List Byte) (c : Nat) : Bool :=
  decide (c < cum) || (decide (cum < c) && (let i := c - cum - 1
    decide (i < 64 * fieldAt pkt 23 1) && bitOf (fieldAt pkt (40 + 8 * (i / 64)) 8) (i % 64)))

/-- Steps 1 to 3 of R281, at the instant `at'` in ns since cold reset. -/
def Qp.onAck (q : Qp) (cum : Nat) (pkt : List Byte) (at' : Nat) : Qp :=
  let sampled := match (q.extCount q.oldest (fieldAt pkt 20 3)).bind fun e => q.unacked.find? fun t => decide (t.psn = e) && decide (t.times = 1) && !t.acked with
    | some t => q.sample (at' - t.sentAt)
    | none => q
  let base := ((q.unacked.head?).map (·.psn)).getD q.nextPsn
  let un := sampled.unacked.map fun t => { t with acked := t.acked || ackCovers cum pkt t.psn }
  let un := un.filter fun t => decide (cum ≤ t.psn)
  let oldest := ((un.find? fun t => !t.acked).map (·.psn)).getD q.nextPsn
  let half := (sampled.rtt.map (·.1 / 2)).getD 0
  let missing (t : TxPacket) : Bool := !t.acked && (un.any fun a => a.acked && decide (t.psn < a.psn) && decide (t.order + 3 ≤ a.order)) &&
    decide (half < at' - t.sentAt)
  { sampled with
    unacked := un.map fun t => { t with resend := !t.acked && (t.resend || missing t) }
    oldest := oldest, expiries := if oldest = q.oldest then q.expiries else 0
    rto := if base < cum then sampled.computedRto else sampled.rto }

/-- The requests of a queue pair whose packets are all acknowledged end (R278). -/
def State.endSends (s : State) (k : Nat) : State :=
  match s.qp k with
  | none => s
  | some q =>
    let done (r : SendReq) : Bool := decide (r.packets ≠ 0) && decide (r.formed = r.packets) &&
      q.unacked.all fun t => t.acked || decide (t.psn < r.first) || decide (r.first + r.packets ≤ t.psn)
    let s := (q.sends.filter done).foldl (fun s r => match r.cmd.bind fun w => s.findCmd w.1 w.2 with
      | some c =>
        if c.pkt.opcode = 0x0705 ∨ c.pkt.opcode = 0x0706 then
          s.finishPost (c.queue, c.seq) (r.status.getD (Ending.ok r.len r.retrans)) else s
      | none => s) s
    (s.updQp k fun q => { q with sends := q.sends.filter fun r => !done r }).settleSends

/-- The peer refuses a message with a status (R277, R279, R330, R332). -/
def State.onStatus (s : State) (k : Nat) (q : Qp) (c : Nat) (st : Status) : State :=
  match q.sends.find? fun r => decide (r.packets ≠ 0) && decide (r.first ≤ c) && decide (c < r.first + r.packets) with
  | none => s
  | some r =>
    if r.ink then
      (match r.cmd with
       | some w => (s.finishPost w (.fail st 72)).qpError k st.code c
       | none => s.qpError k st.code c)
    else match r.cmd.bind fun w => s.findCmd w.1 w.2 with
      | none => s
      | some d =>
        if d.pkt.opcode = 0x0705 then
          s.updQp k fun q => q.setReq { r with status := some (.fail st 68) }
        else if d.pkt.opcode = 0x0903 then s.updCmd d.queue d.seq forwardLost
        else (s.updQp k fun q => { q with sends := q.sends.map fun x => if x.cmd = r.cmd then { x with cmd := none } else x }).finish d
          { status := st, detail := 72, r1 := if d.pkt.opcode = 0x0A03 then 0xFFFF_FFFF else 0 }

/-- An ACK for a queue pair that is not in ERROR. -/
def State.takeAck (s : State) (k port : Nat) (q : Qp) (pkt : List Byte) (at' : Nat) : State :=
  let flags := fieldAt pkt 15 1
  let st := fieldAt pkt 19 1
  if 4 ≤ flags ∨ 16 < fieldAt pkt 23 1 ∨ fieldAt pkt 32 8 ≠ 0 ∨ pkt.length < 40 + 8 * fieldAt pkt 23 1 then s.portCount port 2 1
  else match q.extCount q.oldest (fieldAt pkt 12 3) with
    | none => s
    | some cum =>
      if q.nextPsn < cum then s
      else
        let s := s.updQp k fun q => q.onAck cum pkt at'
        let s := match statusOf st, q.extCount q.oldest (fieldAt pkt 16 3) with
          | some x, some c => s.onStatus k q c x
          | _, _ => s
        let s := if bitOf flags 1 then s.qpError k (Status.peerLost).code 0 else s
        let s := if bitOf flags 0 then s.updQp k fun q => { q with sends := q.sends.map fun r =>
            if r.packets ≠ 0 ∧ r.first ≤ q.oldest ∧ q.oldest < r.first + r.packets then { r with rnr := true } else r } else s
        s.endSends k

/-! ### Reception (R272, R275, R285, R286, R288) -/

/-- A packet for a queue pair whose state is on chip. -/
def State.rxPacket (s : State) (k port : Nat) (pkt : List Byte) (at' : Nat) : State :=
  let dropIt := s.portCount port 2 1
  match s.qp k with
  | none => dropIt
  | some q =>
    let ty := fieldAt pkt 0 1 % 16
    let enc := bitOf (fieldAt pkt 1 1) 6
    if q.state = .reset ∨ q.state = .keyed ∨ enc ≠ q.encrypt ∨ fieldAt pkt 6 2 ≠ q.peerNode ∨ fieldAt pkt 10 2 ≠ q.peerQp then dropIt
    else if q.state = .error then
      (match q.cause with
       | some (st, c) => s.updQp k fun q => q.ackNow 2 c st
       | none => s.updQp k fun q => q.ackNow 2 0 0)
    else
      let ext := if ty = 2 then some (fieldAt pkt 24 8) else q.extCount q.cum (fieldAt pkt 12 3)
      match q.opened (decide (ty = 2)) (ext.getD 0) pkt with
      | none =>
        let s := (s.portCount port 2 1).portCount port 6 1
        let s := s.updQp k fun q => { q with authFails := q.authFails + 1 }
        if 64 ≤ q.authFails + 1 then s.qpError k (Status.peerLost).code q.cum else s
      | some bs =>
        let s := s.updQp k fun q => { q with authFails := 0 }
        if ty = 2 then s.takeAck k port q pkt at'
        else match ext with
          | none => s.updQp k fun q => q.ackNow 0 0 0
          | some c =>
            if c < q.cum ∨ c ∈ q.received then s.updQp k fun q => { q with echo := c }.ackNow 0 0 0
            else if q.cum + q.window ≤ c then dropIt
            else if ty = 1 then s.takeInk k port q c pkt
            else s.takeData k port q c pkt bs

/-- Bytes in the miss buffer, of one queue pair or of all. -/
def State.missBytes (s : State) (k : Option Nat) : Nat :=
  ((s.stylus.miss.filter fun m => k.isNone || decide (some m.1 = k)).map fun m => m.2.2.2.length).foldl (· + ·) 0

/-- A packet arrives on a port: the checks that need no queue pair, and then its queue pair or the miss buffer. -/
def State.rxArrive (s : State) (port : Nat) (ok : Bool) (pkt : List Byte) (now : Nat) : State :=
  let dropIt := s.portCount port 2 1
  let at' := s.strk.elapsed + now
  let b1 := fieldAt pkt 1 1
  if ¬ s.portUp port then s
  else if ¬ ok ∨ pkt.length < 40 ∨ fieldAt pkt 0 1 / 16 ≠ 1 ∨ 2 < fieldAt pkt 0 1 % 16 then dropIt
  else if fieldAt pkt 4 2 ≠ s.selfNode then
    (if ((s.activeMap).map fun m => fieldAt m 6 1) = some 1 then s else dropIt)
  else if bitsOf b1 3 2 = 3 ∨ b1 % 4 ≠ 0 ∨ 4096 ≤ fieldAt pkt 2 2 then dropIt
  else
    let k := fieldAt pkt 8 2
    match s.qp k with
    | none => dropIt
    | some _ =>
      if s.onChip k ∧ s.missBytes (some k) = 0 then (s.useQp k).rxPacket k port pkt at'
      else if s.missBytes none + pkt.length ≤ 2 ^ 20 ∧ s.missBytes (some k) + pkt.length ≤ 131072 then
        { s with stylus := { s.stylus with miss := s.stylus.miss ++ [(k, port, at', pkt)] } }
      else s.portCount port 5 1

/-- Is a packet of type ty, as the row that presents it has it; a TYPE that is none of the three counts as DATA. -/
def packetType (pkt : List Byte) (ty : Nat) : Bool :=
  let t := fieldAt pkt 0 1 % 16
  if ty = 0 then decide (t ≠ 1) && decide (t ≠ 2) else decide (t = ty)

/-- DATA_PACKET_RECEIVED (R277, R280, R282). -/
def execDataPacketReceived (port : Nat) (checksumOk : Bool) (packet : List Byte) (s : State) : Host.Outcome State Fault Refusal :=
  .next (if packetType packet 0 then
    (let (ns, s) := s.drawNs
     s.rxArrive port checksumOk packet ns) else s)

/-- INK_PACKET_RECEIVED (R279, R280). -/
def execInkPacketReceived (port : Nat) (checksumOk : Bool) (packet : List Byte) (s : State) : Host.Outcome State Fault Refusal :=
  .next (if packetType packet 1 then
    (let (ns, s) := s.drawNs
     s.rxArrive port checksumOk packet ns) else s)

/-- ACK_RECEIVED, `now` ns after the boundary (R281). -/
def execAckReceived (port : Nat) (checksumOk : Bool) (packet : List Byte) (now : Nat) (s : State) : Host.Outcome State Fault Refusal :=
  .next (if packetType packet 2 then s.rxArrive port checksumOk packet now else s)

/-- ACK_TIMER: 1 µs after the first unacknowledged arrival (R280). -/
def execAckTimer (qp : Nat) (s : State) : Host.Outcome State Fault Refusal :=
  .next (match s.qp qp with
    | some q => if 0 < q.sinceAck then s.updQp qp fun q => q.ackNow 0 0 0 else s
    | none => s)

/-- The request that the oldest unacknowledged packet belongs to. -/
def Qp.oldestReq (q : Qp) : Option SendReq :=
  q.sends.find? fun r => decide (r.packets ≠ 0) && decide (r.first ≤ q.oldest) && decide (q.oldest < r.first + r.packets)

/-- Ask for the oldest unacknowledged packet again. -/
def Qp.resendOldest (q : Qp) : Qp :=
  { q with unacked := q.unacked.map fun t => if t.psn = q.oldest then { t with resend := true } else t }

/-- RETRANSMIT_TIMEOUT: RTO has passed on the oldest unacknowledged packet (R281). -/
def execRetransmitTimeout (qp : Nat) (s : State) : Host.Outcome State Fault Refusal :=
  .next (match s.qp qp with
    | none => s
    | some q =>
      if (q.unacked.all (·.acked)) ∨ ((q.oldestReq).map (·.rnr)).getD false then s
      else if q.expiries + 1 = 16 then ((s.bringQp qp).qpError qp (Status.peerLost).code q.oldest).failEvent q.peerNode 0
      else (s.bringQp qp).updQp qp fun q => { q with expiries := q.expiries + 1, rto := min (2 * q.rto) 64000 }.resendOldest)

/-- RNR_RESEND: 64 µs after an RNR (R277). -/
def execRnrResend (qp : Nat) (s : State) : Host.Outcome State Fault Refusal :=
  .next (match s.qp qp with
    | none => s
    | some q =>
      match q.oldestReq with
      | some r => if r.rnr then s.updQp qp fun q => (q.setReq { r with rnr := false }).resendOldest else s
      | none => s)

/-- The stroke from which WAIT_LIMIT counts: a request's first packet, or a shard's first piece (R277, R316). -/
def rnrSince (c : Cmd) (r : SendReq) : Option Nat :=
  match c.work with
  | .shard w => if c.pkt.opcode = 0x0902 then some w.since else r.started
  | _ => r.started

/-- RNR_TIMEOUT: a send that still meets RNR after WAIT_LIMIT strokes completes with TIMEOUT; its packets stay (R277, R316). -/
def execRnrTimeout (qp : Nat) (s : State) : Host.Outcome State Fault Refusal :=
  .next (match s.qp qp with
    | none => s
    | some q =>
      match (q.sends.find? (·.rnr)).bind fun r => (r.cmd.bind fun w => s.findCmd w.1 w.2).map fun c => (r, c) with
      | none => s
      | some (r, c) =>
        match rnrSince c r, Kv.get c.queue s.queues with
        | some t, some x =>
          if s.strk.now < t + x.waitLimit then s
          else
            let s := s.updQp qp fun q => { q with sends := q.sends.map fun x => if x.cmd = r.cmd then { x with cmd := none } else x }
            if c.pkt.opcode = 0x0903 then (s.updCmd c.queue c.seq forwardLost).settleSends
            else s.finish c (.fail .timeout 72)
        | _, _ => s)

/-- QP_STATE_FETCHED: the state is on chip; waiting posts, in the order of their admission, and the packets of the miss buffer go on
(R276, R285, R286). -/
def execQpStateFetched (qp : Nat) (s : State) : Host.Outcome State Fault Refusal :=
  .next (match s.qp qp with
    | none => s
    | some _ =>
      let mine := s.stylus.miss.filter fun m => decide (m.1 = qp)
      if s.onChip qp ∧ mine.isEmpty ∧ ¬ s.postFetching qp then s
      else
        let s := s.bringQp qp
        let s : State := { s with stylus := { s.stylus with miss := s.stylus.miss.filter fun m => m.1 ≠ qp } }
        let posts := (s.cmds.filter fun c => decide (c.phase = .running) && decide (c.work = .counts [1]) && c.postsTo qp).mergeSort fun a b => !b.before a
        let s := posts.foldl (fun s c => s.postNow c) s
        mine.foldl (fun s m => s.rxPacket qp m.2.1 m.2.2.2 m.2.2.1) s)

end Sys2Proof.Machine
end

