-- ==== Sys2Proof/Machine/Distribution.lean ====
section
/-! DEFINITION. Distribution (18_model_distribution.md): manifests, shards on their lanes and on the wire, base epochs and
their windows. -/

namespace Sys2Proof.Machine

/-! ### Manifests (R311, R312) -/

/-- SHARD_COUNT. -/
def Manifest.shards (m : Manifest) : Nat := fieldAt m.bytes 16 4
/-- IMAGE_BYTES. -/
def Manifest.image (m : Manifest) : Nat := fieldAt m.bytes 8 8
/-- OFFSET of shard i. -/
def Manifest.offset (m : Manifest) (i : Nat) : Nat := fieldAt m.bytes (128 + 48 * i) 8
/-- LENGTH of shard i. -/
def Manifest.length (m : Manifest) (i : Nat) : Nat := fieldAt m.bytes (128 + 48 * i + 8) 4
/-- DIGEST of shard i. -/
def Manifest.shardDigest (m : Manifest) (i : Nat) : List Byte := (m.bytes.drop (128 + 48 * i + 16)).take 32
/-- Bits [29:0] of MANIFEST_DIGEST. -/
def Manifest.low (m : Manifest) : Nat := fieldAt m.digest 0 4 % 2 ^ 30

/-- The structure that R311 asks of a manifest in a descriptor of `have'` bytes. -/
def manifestOk (bs : List Byte) (have' : Nat) : Bool :=
  let n := fieldAt bs 16 4
  let image := fieldAt bs 8 8
  let off (i : Nat) : Nat := fieldAt bs (128 + 48 * i) 8
  let len (i : Nat) : Nat := fieldAt bs (128 + 48 * i + 8) 4
  decide (bs.take 4 = ascii "KVMF") && decide (fieldAt bs 4 2 = 1) && decide (fieldAt bs 6 2 = 0) && decide (65536 ≤ image) &&
    decide (image ≤ 2 ^ 41) && decide (1 ≤ n) && decide (n ≤ 65536) && decide (have' = 128 + 48 * n) && decide (fieldAt bs 20 4 = 0) &&
    ((bs.drop 64).take 64).all (· = 0) &&
    (List.range n).all fun i =>
      decide (off i % 65536 = 0) && (decide (i = 0) || decide (off (i - 1) + len (i - 1) < off i)) && decide (1 ≤ len i) &&
        decide (len i ≤ 2 ^ 30) && decide (off i + len i ≤ image) && decide (fieldAt bs (128 + 48 * i + 12) 4 = 0)

/-- A value of the configuration store's copy (R375). -/
def State.storeKey (s : State) (k : Nat) : Option (List Byte) := Kv.get k s.boot.store

/-- The value in force of a key that takes effect at a reset (R375). -/
def State.forceKey (s : State) (k : Nat) : Option (List Byte) := Kv.get k s.boot.inForce

/-- Claim n FREE HBM4 frames as RESERVED; which ones is open (assumption 16). -/
def State.claimStore (s : State) : Nat → Option (List Nat × State)
  | 0 => some ([], s)
  | n + 1 =>
    let taken (f : Nat) : Bool := decide (s.ownerOf (f * 65536) ≠ none) || decide (f ∈ s.mem.filling)
    match freshNumber s 24 0 (hbmSize / 65536) taken with
    | (none, _) => none
    | (some f, s) =>
      (({ s with mem := { s.mem with owners := Kv.set f .reserved s.mem.owners } } : State).claimStore n).map fun x => (f :: x.1, x.2)

/-- Write bytes over a list of frames. -/
def State.fillFrames (s : State) (fs : List Nat) (bs : List Byte) : State :=
  (fs.zip (chunksOf 65536 (fs.length + 1) bs)).foldl (fun s x => s.updMem fun m => m.engineWrite (x.1 * 65536) x.2) s

/-- Check MANIFEST_LOAD (R197). -/
def State.checkManifestLoad (s : State) (n : Nat) (p : Packet) : Check := do
  let _ ← s.needDesc n (p.at 64 4) 64 false
  let sg ← s.needDesc n (p.at 68 4) 68 false
  ensure (decide (sg.extent = 7856)) (badField 68)
  ensure (decide (p.at 72 1 < 16) && (s.storeKey (0x20 + p.at 72 1)).isSome) (badField 72)
  zeroBytes p 73 79

/-- MANIFEST_LOAD: copy, signature, structure, number (R312). -/
def execManifestLoad (p : Packet) (s : State) : Host.Outcome State Fault Refusal :=
  .next (s.forOp p 0x0901 (s.runMgmt p clsVerify 9 (fun s c _ => s.checkManifestLoad (c.view s).ctx p) (fun s c => [s.ioOf c 64 false, s.ioOf c 68 false]) fun s c _ => do
    let v := c.view s
    let d ← s.needDesc v.ctx (p.at 64 4) 64 false
    let sg ← s.needDesc v.ctx (p.at 68 4) 68 false
    let bs := s.descBytes v d
    let digest := sha256 bs
    let signed : Check := ensure (Config.slhVerify ((s.storeKey (0x20 + p.at 72 1)).getD []) bs (s.descBytes v sg)) (.fail .signatureInvalid 68)
    match s.manifests.find? fun e => decide (e.2.owner = some v.ctx) && decide (e.2.digest = digest) with
    | some e =>
      signed
      return (s, some (Ending.ok e.1 e.2.shards))
    | none =>
      ensure (decide (s.manifests.length < 256)) (.fail .noResource 64)
      match s.claimStore (ceilDiv bs.length 65536) with
      | none => .error (.fail .noResource 64)
      | some (fs, s1) =>
        signed
        ensure (manifestOk bs d.extent) (badField 64)
        let m : Manifest := { owner := some v.ctx, publisher := p.at 72 1, bytes := bs, digest := digest, frames := fs, verified := [], receives := [], discards := 0 }
        ensure (!(s.manifests.any fun e => decide (e.2.owner = some v.ctx) && decide (e.2.low = m.low))) (badField 64)
        match freshNumber s1 8 0 256 (fun k => Kv.has k s1.manifests) with
        | (none, _) => .error (.fail .noResource 64)
        | (some k, s2) => return ({ (s2.fillFrames fs bs) with manifests := Kv.set k m s2.manifests }, some (Ending.ok k m.shards))))

/-- The manifest that a command names (R312). -/
def State.needManifest (s : State) (n k : Nat) : Except Ending Manifest :=
  match Kv.get k s.manifests with
  | none => .error (badField 64)
  | some m => if m.owner = some n then .ok m else .error (.fail .accessDenied 64)

/-- Unload a manifest: its store frames are zero-filled and freed (R312). -/
def State.unloadManifest (s : State) (k : Nat) : State :=
  match Kv.get k s.manifests with
  | none => s
  | some m => { (s.releaseFrames m.frames).1 with manifests := Kv.del k s.manifests }

/-! ### Shard commands (R313 to R317) -/

/-- Bytes of a piece. -/
def pieceSize : Nat := 4194304

/-- The TAG of a piece or a trailer (R313). -/
def shardTag (m : Manifest) (shard piece : Nat) (trailer : Bool) : Nat :=
  0xA * 2 ^ 60 + shard * 2 ^ 44 + piece * 2 ^ 36 + b2n trailer * 2 ^ 35 + m.low

/-- A trailer's 64 bytes. -/
def trailerBytes (good : Bool) (digest : List Byte) : List Byte := leBytes 1 (b2n (!good)) ++ zeros 31 ++ digest

/-- A queue pair that distribution may hold: connected, of the context, held by no group and no ledger (R314, R324). -/
def State.needShardQp (s : State) (n k detail : Nat) : Check := do
  let q ← s.needQp n k detail
  ensure ((s.groupOf n k).isNone && !s.keepQp n k) (.fail .accessDenied detail)
  ensure (decide (q.state = .connected)) (badField detail)

/-- Check SHARD_SEND (R197, R314). -/
def State.checkShardSend (s : State) (n : Nat) (p : Packet) : Check := do
  let m ← s.needManifest n (p.at 64 2)
  zeroBytes p 66 67
  ensure (decide (p.at 68 4 < m.shards)) (badField 68)
  s.needShardQp n (p.at 72 4) 72
  let d ← s.needDesc n (p.at 76 4) 76 false
  ensure (decide (d.layout = 0) && decide (d.extent = m.length (p.at 68 4))) (badField 76)

/-- Does a descriptor's memory lie in HBM4, the DDR tier or host memory. -/
def State.notInPlates (s : State) (v : View) (d : Desc) : Bool :=
  d.ranges.all fun r => (pagesOf r.1 r.2).all fun a => match s.paOf v.ctx v.bound a with
    | some p => (match s.region p with
      | .hbm _ | .ddr | .host => true
      | _ => false)
    | none => true

/-- Check SHARD_RECEIVE (R197, R314, R317). -/
def State.checkShardReceive (s : State) (n : Nat) (c : Ctx) (p : Packet) : Check := do
  let m ← s.needManifest n (p.at 64 2)
  zeroBytes p 66 67
  ensure (decide (p.at 68 4 < m.shards)) (badField 68)
  ensure (!(s.cmds.any fun d => decide (d.pkt.opcode = 0x0903) && decide ((d.view s).ctx = n) && decide (d.phase ≠ .visible) &&
    decide (d.pkt.at 64 2 = p.at 64 2) && decide (d.pkt.at 68 4 = p.at 68 4) && !(decide (d.queue = p.queue) && decide (d.seq = p.seq)))) (badField 68)
  let d ← s.needDesc n (p.at 72 4) 72 true
  ensure (decide (d.layout = 0) && decide (d.extent = m.length (p.at 68 4)) && c.descPinned d && decide (d.base % 65536 = 0) &&
    s.notInPlates { ctx := n, bound := [] } d) (badField 72)
  let from' := p.at 76 4
  let fwd := p.at 80 4
  ensure (!(decide (from' = 0xFFFF_FFFF) && decide (fwd = 0xFFFF_FFFF))) (badField 76)
  if from' ≠ 0xFFFF_FFFF then s.needShardQp n from' 76
  if fwd ≠ 0xFFFF_FFFF then s.needShardQp n fwd 80
  zeroBytes p 84 95

/-- Is the command a shard command that has been admitted and has not ended. -/
def Cmd.takesLane (c : Cmd) : Bool :=
  decide (c.pkt.opcode ∈ [0x0902, 0x0903]) && (match c.phase with
    | .admitted | .running | .flushing _ => true
    | _ => false)

/-- Does a shard command hold one of the 32 lanes. A lane goes to it at its admission, or as soon as one is free, in admission order, and stays
until it completes: so the 32 oldest hold them (R315). -/
def State.hasLane (s : State) (c : Cmd) : Bool := decide ((s.cmds.filter fun d => d.takesLane && d.before c).length < 32)

/-- A shard command's work as it begins. -/
def State.newShard (s : State) : ShardWork :=
  { present := [], stored := 0, hashed := 0, sha := shaH0, upstream := none, matched := none, since := s.strk.now, settled := none }

/-- SHARD_SEND starts once it has a lane (R315, R316). -/
def execShardSend (p : Packet) (s : State) : Host.Outcome State Fault Refusal :=
  .next (s.forOp p 0x0902 (match s.startable p with
    | none => s
    | some c => if ¬ s.hasLane c then s else match s.checkShardSend (c.view s).ctx p with
      | .error e => s.finish c e
      | .ok _ => s.begin c (.shard s.newShard)))

/-- SHARD_RECEIVE starts once it has a lane (R315, R317). -/
def execShardReceive (p : Packet) (s : State) : Host.Outcome State Fault Refusal :=
  .next (s.forOp p 0x0903 (match s.startable p with
    | none => s
    | some c => if ¬ s.hasLane c then s else match s.ctxOf c with
      | none => s
      | some x => match s.checkShardReceive (c.view s).ctx x p with
        | .error e => s.finish c e
        | .ok _ => s.begin c (.shard s.newShard)))

/-- An admitted SHARD_RECEIVE counts for its manifest and shard (R317). -/
def State.noteShard (s : State) (p : Packet) : State :=
  if p.opcode = 0x0903 then
    { s with manifests := Kv.upd (p.at 64 2) (fun m =>
      { m with receives := Kv.set (p.at 68 4) ((Kv.get (p.at 68 4) m.receives).getD 0 + 1) m.receives }) s.manifests }
  else s

/-- Replace a shard command's work. -/
def State.setShard (s : State) (c : Cmd) (w : ShardWork) : State := s.updCmd c.queue c.seq fun x => { x with work := .shard w }

/-- Everything that the work on a shard needs. -/
structure ShardJob where
  c : Cmd
  w : ShardWork
  v : View
  m : Manifest
  shard : Nat
  d : Desc
deriving DecidableEq, Repr

/-- The job of a running shard command: it has its lane. -/
def State.shardJob (s : State) (c : Cmd) : Option ShardJob :=
  match c.work with
  | .shard w =>
    if c.phase = .running ∧ c.hostWait = none then
      (match Kv.get (c.pkt.at 64 2) s.manifests, s.desc (c.view s).ctx (c.pkt.at (if c.pkt.opcode = 0x0902 then 76 else 72) 4) with
       | some m, some d => some { c := c, w := w, v := c.view s, m := m, shard := c.pkt.at 68 4, d := d }
       | _, _ => none)
    else none
  | _ => none

/-- Pieces of the shard. -/
def ShardJob.pieces (j : ShardJob) : Nat := ceilDiv (j.m.length j.shard) pieceSize
/-- Bytes of piece i. -/
def ShardJob.pieceLen (j : ShardJob) (i : Nat) : Nat := min pieceSize (j.m.length j.shard - pieceSize * i)
/-- Is the shard in DEST already. -/
def ShardJob.isLocal (j : ShardJob) : Bool := decide (j.c.pkt.opcode = 0x0903) && decide (j.c.pkt.at 76 4 = 0xFFFF_FFFF)
/-- The queue pair on which pieces go on: QP of a send, FORWARD_QP of a receive; none where that queue pair is lost. -/
def State.shardOut (s : State) (j : ShardJob) : Option Nat :=
  let k := if j.c.pkt.opcode = 0x0902 then j.c.pkt.at 72 4 else j.c.pkt.at 80 4
  if (s.qp k).map (·.state) = some .connected then some k else none

/-- Send a message of the shard on. -/
def State.shardSend (s : State) (j : ShardJob) (piece : Nat) (trailer : Bool) (bs : List Byte) : State :=
  match s.shardOut j with
  | some k => s.postHeld k (some (j.c.queue, j.c.seq)) (shardTag j.m j.shard piece trailer) bs
  | none => s

/-- A shard command ends before its messages have left: they stay, for no command. -/
def State.endShard (s : State) (c : Cmd) (e : Ending) : State :=
  let cut (q : Qp) : Qp := { q with sends := q.sends.map fun r => if r.cmd = some (c.queue, c.seq) then { r with cmd := none } else r }
  ({ s with stylus := { s.stylus with qps := s.stylus.qps.map fun x => (x.1, cut x.2) } } : State).finish c e

/-- A SHARD_RECEIVE whose own digest is complete and whose upstream trailer has arrived is settled (R317). -/
def State.settleShard (s : State) (j : ShardJob) : State :=
  match j.w.matched, (if j.isLocal then some true else j.w.upstream) with
  | some own, some up =>
    let s := s.shardSend j 0 true (trailerBytes (own && up) (j.w.sha.flatMap (beBytes 4)))
    let with' (e : Ending) : Ending := s.shardResults { j.c with work := .shard { j.w with stored := if j.isLocal then j.m.length j.shard else j.w.stored } } e
    if ¬ own then s.endShard j.c (with' (.fail .checkMismatch 68))
    else if ¬ up then s.endShard j.c (with' (.fail .checkMismatch 76))
    else
      let s : State := { s with manifests := Kv.upd (j.c.pkt.at 64 2) (fun m => { m with verified := Kv.set j.shard j.d.base m.verified }) s.manifests }
      let lost := j.c.pkt.at 80 4 ≠ 0xFFFF_FFFF ∧ (s.shardOut j).isNone
      let e := if lost then .fail .peerLost 80 else (j.w.settled.getD (Ending.ok 0 0))
      (s.setShard j.c { j.w with settled := some (with' e) }).settleSends
  | _, _ => s

/-- A lane finishes piece j.w.hashed: bytes bs. -/
def State.hashPiece (s : State) (j : ShardJob) (bs : List Byte) : State :=
  let i := j.w.hashed
  let send := decide (j.c.pkt.opcode = 0x0902)
  let s := if send || j.isLocal then s.shardSend j i false bs else s
  if i + 1 < j.pieces then
    s.setShard j.c { j.w with hashed := i + 1, sha := shaUpdate j.w.sha bs, since := if i = 0 ∧ send then s.strk.now else j.w.since }
  else
    let tail := bs.length / 64 * 64
    let digest := shaFinish (shaUpdate j.w.sha (bs.take tail)) (j.m.length j.shard) (bs.drop tail)
    let good := decide (digest = j.m.shardDigest j.shard)
    let w := { j.w with hashed := i + 1, sha := (chunksOf 4 8 digest).map beNat, matched := some good }
    if send then
      let s := s.shardSend j 0 true (trailerBytes good digest)
      (if good then (s.setShard j.c { w with settled := some (Ending.ok (j.m.length j.shard) 0) }).settleSends
       else s.endShard j.c (.fail .checkMismatch 76))
    else (s.setShard j.c w).settleShard { j with w := w }

/-- SHARD_PIECE_HASHED: the next piece along the contiguous prefix (R315, R316, R317). -/
def execShardPieceHashed (queue seq : Nat) (s : State) : Host.Outcome State Fault Refusal :=
  .next (match (s.findCmd queue seq).bind s.shardJob with
    | none => s
    | some j =>
      let i := j.w.hashed
      let detail := if j.c.pkt.opcode = 0x0902 then 76 else 72
      let va := j.d.base + pieceSize * i
      let n := j.pieceLen i
      if j.pieces ≤ i ∨ (j.c.pkt.opcode = 0x0903 ∧ ¬ j.isLocal ∧ i ∉ j.w.present) then s
      else if s.hostBlocked j.v [(va, n)] then s.waitHost j.c detail
      else match s.touch j.v.ctx j.v.bound va n accR false with
      | .error (k, a) => s.engineFault j.c k a 9 0 accR detail
      | .ok s =>
        match s.badRange j.v.ctx j.v.bound va n with
        | some pa => s.mediaFault j.c va pa 9 0 detail
        | none => s.hashPiece j (s.vread j.v.ctx j.v.bound va n))

/-- The open SHARD_RECEIVE on queue pair k that a tag names. -/
def State.shardFor (s : State) (k tag : Nat) : Option ShardJob :=
  (s.cmds.filterMap s.shardJob).find? fun j => decide (j.c.pkt.opcode = 0x0903) && decide (j.c.pkt.at 76 4 = k) &&
    decide (j.shard = bitsOf tag 59 44) && decide (j.m.low = tag % 2 ^ 30)

/-- Is a tag of a shard verified in context n (R314). -/
def State.shardKnown (s : State) (n tag : Nat) : Bool :=
  s.manifests.any fun e => decide (e.2.owner = some n) && decide (e.2.low = tag % 2 ^ 30) && Kv.has (bitsOf tag 59 44) e.2.verified

/-- A discarded message of a verified shard counts (R314). -/
def State.countDiscard (s : State) (n tag : Nat) : State :=
  { s with manifests := s.manifests.map fun e =>
      if e.2.owner = some n ∧ e.2.low = tag % 2 ^ 30 then (e.1, { e.2 with discards := e.2.discards + 1 }) else e }

/-- A message that no open command takes: discarded where its shard is verified, else answered with RNR (R314). -/
def State.strayShard (s : State) (k tag : Nat) : State :=
  match s.qp k with
  | some q => if s.shardKnown q.owner tag then (s.takeMsg k 0).countDiscard q.owner tag else s.rnrMsg k
  | none => s

/-- Is the head message of k a distribution message with this TRAILER bit and these bytes. -/
def State.shardHead (s : State) (k : Nat) (bs : List Byte) (trailer : Bool) : Option Nat :=
  match s.headMsg k with
  | some m => if m.bytes = bs ∧ m.tag / 2 ^ 60 = 0xA ∧ bitOf m.tag 35 = trailer then some m.tag else none
  | none => none

/-- SHARD_PIECE_RECEIVED: the piece lands in DEST and is sent on (R314, R317). -/
def execShardPieceReceived (qp : Nat) (piece : List Byte) (s : State) : Host.Outcome State Fault Refusal :=
  .next (match s.shardHead qp piece false with
    | none => s
    | some tag =>
      match s.shardFor qp tag with
      | none => s.strayShard qp tag
      | some j =>
        let i := bitsOf tag 43 36
        let s := s.takeMsg qp 0
        if j.pieces ≤ i ∨ piece.length ≠ j.pieceLen i then s
        else match s.touch j.v.ctx j.v.bound (j.d.base + pieceSize * i) piece.length accW false with
          | .error (k, a) => s.engineFault j.c k a 9 0 accW 72
          | .ok s =>
            let s := s.vwrite j.v.ctx j.v.bound (j.d.base + pieceSize * i) piece
            let w := if i ∈ j.w.present then { j.w with since := s.strk.now }
              else { j.w with present := i :: j.w.present, stored := j.w.stored + piece.length, since := s.strk.now }
            (s.setShard j.c w).shardSend { j with w := w } i false piece)

/-- SHARD_TRAILER_RECEIVED: the upstream verdict (R317). -/
def execShardTrailerReceived (qp : Nat) (trailer : List Byte) (s : State) : Host.Outcome State Fault Refusal :=
  .next (match s.shardHead qp trailer true with
    | none => s
    | some tag =>
      match s.shardFor qp tag with
      | none => s.strayShard qp tag
      | some j =>
        let s := s.takeMsg qp 0
        let w := { j.w with upstream := some (decide (fieldAt trailer 0 1 = 0)), since := s.strk.now }
        (s.setShard j.c w).settleShard { j with w := w })

/-- SHARD_TIMEOUT: no new piece or trailer for WAIT_LIMIT strokes (R317). -/
def execShardTimeout (queue seq : Nat) (s : State) : Host.Outcome State Fault Refusal :=
  .next (match (s.findCmd queue seq).bind s.shardJob, Kv.get queue s.queues with
    | some j, some x =>
      let awaits := j.w.upstream.isNone ∨ j.w.present.length < j.pieces
      if j.c.pkt.opcode = 0x0903 ∧ ¬ j.isLocal ∧ awaits ∧ j.w.since + x.waitLimit ≤ s.strk.now then
        s.endShard j.c (s.shardResults j.c (.fail .timeout 76)) else s
    | _, _ => s)

/-! ### Base epochs (R319 to R323) -/

/-- Where shard i of a manifest stands: its verified DEST. -/
def Manifest.dest (m : Manifest) (i : Nat) : Option Nat := Kv.get i m.verified

/-- The DEST ranges of a manifest, rounded up to whole frames. -/
def Manifest.destRanges (m : Manifest) : List (Nat × Nat) :=
  (List.range m.shards).filterMap fun i => (m.dest i).map fun va => (va, roundUp (m.length i) 65536)

/-- Is va the start of a whole frame of the context's memory. -/
def State.wholeFrame (s : State) (n va : Nat) : Bool :=
  match s.paOf n [] va with
  | none => false
  | some pa => decide (pa % 65536 = 0) && (List.range 16).all fun i => decide (s.paOf n [] (va + 4096 * i) = some (pa + 4096 * i))

/-- The frame that holds va. -/
def State.frameOf (s : State) (n va : Nat) : Nat := ((s.paOf n [] va).getD 0) / 65536

/-- The 64 KiB frames of an image in window order; `blank` is the slot's shared zero frame (R319). -/
def State.imageFrames (s : State) (n : Nat) (m : Manifest) (blank : Nat) : List Nat :=
  (List.range (ceilDiv m.image 65536)).map fun f =>
    match (List.range m.shards).find? fun i => decide (m.offset i ≤ f * 65536) && decide (f * 65536 < m.offset i + m.length i) with
    | some i => s.frameOf n ((m.dest i).getD 0 + f * 65536 - m.offset i)
    | none => blank

/-- Bytes of base table that an image's frames take: a table per GiB, and one per 2 MiB that no 2 MiB page maps (DEDUCED,
assumption 39). -/
def tableBytes (frames : List Nat) : Nat :=
  let regions := ceilDiv frames.length 32
  let large (r : Nat) : Bool :=
    let f0 := frames.getD (32 * r) 0
    decide (f0 % 32 = 0) && (List.range 32).all fun i => decide (frames[32 * r + i]? = some (f0 + i))
  4096 * (ceilDiv frames.length 16384 + ((List.range regions).filter fun r => !large r).length)

/-- The allocations that a manifest's DESTs touch. -/
def Ctx.destAllocs (c : Ctx) (m : Manifest) : List Alloc :=
  c.allocs.filter fun a => rangesOverlap [(a.base, a.size)] m.destRanges

/-- Does every 64 KiB of an allocation lie in a DEST, on a whole frame. -/
def State.allocIsBase (s : State) (n : Nat) (m : Manifest) (a : Alloc) : Bool :=
  decide (a.base % 65536 = 0) && decide (a.size % 65536 = 0) && (List.range (a.size / 65536)).all fun i =>
    s.wholeFrame n (a.base + 65536 * i) && m.destRanges.any fun r => decide (r.1 ≤ a.base + 65536 * i) && decide (a.base + 65536 * i < r.1 + r.2)

/-- Check BASE_INSTALL, in R319's order. -/
def State.checkBaseInstall (s : State) (n : Nat) (c : Ctx) (p : Packet) : Check := do
  let m ← s.needManifest n (p.at 64 2)
  ensure ((List.range m.shards).all fun i => (m.dest i).isSome) (conflict scShardsMissing)
  ensure (decide (p.at 66 2 ∉ Kv.keys s.epochs) && (match s.newest with
    | some e => serialNewer 16 (p.at 66 2) e
    | none => true)) (.fail .epochStale 66)
  zeroBytes p 68 79
  ensure (m.destRanges.all fun r => (pagesOf r.1 r.2).all fun a => match s.paOf n [] a with
    | some pa => decide (s.region pa ≠ .host)
    | none => false) (badField 64)
  ensure ((c.destAllocs m).all (s.allocIsBase n m)) (badField 64)
  ensure (!s.inUse n ((c.destAllocs m).map fun a => (a.base, a.size))) (conflict scAllocInUse)
  ensure (decide (s.epochs.length < 256) &&
    decide (((s.epochs.map fun e => tableBytes e.2.frames).foldl (· + ·) 0) + tableBytes (s.imageFrames n m 0) ≤ 2 ^ 25)) (.fail .noResource 64)

/-- Steps 3 and 4 of an install: key, owners, tails, table (R319). -/
def State.installEpoch (s : State) (n : Nat) (m : Manifest) (number manifest slot blank : Nat) : State :=
  let frames := s.imageFrames n m blank
  let s := s.newKey (4096 + slot)
  let key := (Kv.get (4096 + slot) s.mem.keys).getD noKey
  let s := (List.range m.shards).foldl (fun s i =>
    let va := (m.dest i).getD 0 + m.length i
    let pad := roundUp (m.length i) 65536 - m.length i
    if pad = 0 then s else s.updMem fun mm => mm.engineWrite (((s.paOf n [] va).getD 0)) (zeros pad)) s
  let s := (blank :: frames).eraseDups.foldl (fun s f => s.updMem fun mm =>
    { mm with owners := Kv.set f (.base slot) mm.owners, ddrLast := if s.region (f * 65536) = .ddr then Kv.set f key mm.ddrLast else mm.ddrLast }) s
  { s with epochs := Kv.set number { slot := slot, manifest := manifest, bytes := m.image, blank := blank, frames := frames, retiring := false } s.epochs, newest := some number }

/-- BASE_INSTALL: the second hash reads the shards once their translations are gone; its frames stay with the context where a digest differs
(R319). -/
def execBaseInstall (p : Packet) (s : State) : Host.Outcome State Fault Refusal :=
  .next (s.forOp p 0x0904 (s.runReach p 9 (fun s c x => s.checkBaseInstall (c.view s).ctx x p)
      (fun s _ => ((Kv.get (p.at 64 2) s.manifests).map fun m =>
        [{ detail := 64, write := false, ranges := (List.range m.shards).map fun i => ((m.dest i).getD 0, m.length i) : MgmtIO }]).getD []) fun s c x => do
    let n := (c.view s).ctx
    let m ← s.needManifest n (p.at 64 2)
    let as := x.destAllocs m
    let bad := (List.range m.shards).filter fun i =>
      decide (sha256 (s.vread n [] ((m.dest i).getD 0) (m.length i)) ≠ m.shardDigest i)
    let s := as.foldl (fun s a => s.dropTlb n a.base a.size) s
    if bad ≠ [] then
      let keep (m : Manifest) : Manifest := { m with verified := m.verified.filter fun e => !bad.contains e.1 }
      let s := s.updCtx n fun y => { y with allocs := y.allocs.map fun a => if a ∈ as then { a with pins := [] } else a }
      return ({ s with manifests := Kv.upd (p.at 64 2) keep s.manifests }, .fail .checkMismatch 64)
    else
      match freshNumber s 8 0 256 (fun k => s.epochs.any fun e => decide (e.2.slot = k)), s.claimStore 1 with
      | (some slot, _), some (z, s1) =>
        let s2 := s1.installEpoch n m (p.at 66 2) (p.at 64 2) slot (z.headD 0)
        return (s2.updCtx n fun y => { y with allocs := y.allocs.filter fun a => a ∉ as }, Ending.ok 0 0)
      | _, _ => .error (.fail .noResource 64)))

/-- The window of VA in a context, if VA is the start of a valid one. -/
def Ctx.windowIs (c : Ctx) (va : Nat) : Option Nat := c.windows.findIdx? fun w => w.valid && decide (w.va = va)

/-- Check BASE_MAP (R213, R320). -/
def State.checkBaseMap (s : State) (p : Packet) : Check := do
  s.checkContextField p
  match Kv.get (p.at 64 2) s.ctxs, Kv.get (p.at 66 2) s.epochs with
  | none, _ => .error (badField 64)
  | some _, none => .error (.fail .epochStale 66)
  | some c, some e =>
    ensure (!e.retiring) (.fail .epochStale 66)
    zeroBytes p 68 71
    let va := p.at 72 8
    let size := ceilDiv e.bytes (2 ^ 30) * 2 ^ 30
    let mine := c.windowIs va
    ensure (decide (va % 2 ^ 30 = 0) && decide (va + size ≤ 2 ^ 48)) (badField 72)
    ensure (!(c.windows.zipIdx.any fun w => w.1.valid && decide (some w.2 ≠ mine) && rangesOverlap [(w.1.va, w.1.sizeGib * 2 ^ 30)] [(va, size)]))
      (badField 72)
    ensure (!(c.allocs.any fun a => rangesOverlap [(a.base, a.size)] [(va, size)])) (.fail .descRange 72)
    ensure (mine.isSome || c.windows.any fun w => !w.valid) (.fail .noResource 72)

/-- BASE_MAP fills the lowest free window, or re-points the window that starts at VA (R213, R320). -/
def execBaseMap (p : Packet) (s : State) : Host.Outcome State Fault Refusal :=
  .next (s.forOp p 0x0905 (s.runNow p fun s _ _ => do
    s.checkBaseMap p
    match Kv.get (p.at 64 2) s.ctxs, Kv.get (p.at 66 2) s.epochs with
    | some c, some e =>
      let i := ((c.windowIs (p.at 72 8)).orElse fun _ => c.windows.findIdx? fun w => !w.valid).getD 0
      let w : Window := { va := p.at 72 8, epoch := p.at 66 2, manifest := e.manifest, sizeGib := ceilDiv e.bytes (2 ^ 30), valid := true }
      return (s.updCtx (p.at 64 2) fun c => { c with windows := c.windows.set i w }, Ending.ok 0 0)
    | _, _ => .error (badField 64)))

/-- Commands bound to an epoch (R321). -/
def State.boundTo (s : State) (e : Nat) : Nat := (s.cmds.filter fun c => c.bound.any fun b => match b with
    | .window w => decide (w.epoch = e)
    | _ => false).length

/-- Check BASE_RETIRE (R197, R322). -/
def State.checkBaseRetire (s : State) (p : Packet) : Check := do
  ensure (match Kv.get (p.at 64 2) s.epochs with
    | some e => !e.retiring && decide (s.newest ≠ some (p.at 64 2))
    | none => false) (conflict scEpochCurrent)
  zeroBytes p 66 79

/-- BASE_RETIRE: the epoch is retiring and no window maps it (R322). -/
def execBaseRetire (p : Packet) (s : State) : Host.Outcome State Fault Refusal :=
  .next (s.forOp p 0x0906 (s.runNow p fun s _ _ => do
    s.checkBaseRetire p
    let k := p.at 64 2
    let off (c : Ctx) : Ctx := { c with windows := c.windows.map fun w => if w.epoch = k then { w with valid := false } else w }
    return ({ s with epochs := Kv.upd k (fun e => { e with retiring := true }) s.epochs, ctxs := s.ctxs.map fun e => (e.1, off e.2) },
      Ending.ok (s.boundTo k) 0)))

/-- The release of a retiring epoch that no command is bound to (R323). -/
def State.releaseEpoch (s : State) (k : Nat) (e : Epoch) : State :=
  let s := (s.releaseFrames (e.blank :: e.frames).eraseDups).1
  let s := s.dropKey (4096 + e.slot)
  let s : State := { s with epochs := Kv.del k s.epochs }
  let kept := s.epochs.any fun x => decide (x.2.manifest = e.manifest)
  let s := if !kept && decide (((Kv.get e.manifest s.manifests).map (·.owner)) = some none) then s.unloadManifest e.manifest else s
  s.logEvent 0x0701 11 0 noContext k 0

/-- EPOCH_RELEASE (R323). -/
def execEpochRelease (epoch : Nat) (s : State) : Host.Outcome State Fault Refusal :=
  .next (match Kv.get epoch s.epochs with
    | some e => if e.retiring ∧ s.boundTo epoch = 0 then s.releaseEpoch epoch e else s
    | none => s)

end Sys2Proof.Machine
end

