-- ==== Sys2Proof/Machine/Survival.lean ====
section
/-! DEFINITION. Surviving failures (19_failure_survival_and_replay.md): the ledger area, classes of protection, saves, keeps and
restores, replays, hot spares and their fills, and placement epochs. -/

namespace Sys2Proof.Machine

/-! ### LEDGER_SET (R324, R329) -/

/-- Are bytes [lo, hi) of a record zero, and the lowest one that is not (R6). -/
def zerosAt (bs : List Byte) (lo hi : Nat) : Bool × Nat := ((firstNonzero bs lo hi).isNone, (firstNonzero bs lo hi).getD lo)

/-- Are bytes [lo, hi) of a record zero. -/
def zerosIn (bs : List Byte) (lo hi : Nat) : Bool := (firstNonzero bs lo hi).isNone

/-- Does a LINEAR descriptor lie wholly in the DDR tier. -/
def State.inDdr (s : State) (n : Nat) (d : Desc) : Bool :=
  d.ranges.all fun r => (pagesOf r.1 r.2).all fun a => match s.paOf n [] a with
    | some p => decide (s.region p = .ddr)
    | none => false

/-- A KEEP_QP field: none, or a queue pair of the context that neither a group nor distribution holds. -/
def State.keepQpOk (s : State) (n k : Nat) : Bool :=
  decide (k = 0xFFFF_FFFF) || (decide ((s.qp k).map (·.owner) = some n) && (s.groupOf n k).isNone && (s.holdersOf k).isEmpty)

/-- The header's fields in table order: does each hold, and its offset. -/
def State.ledgerChecks (s : State) (n : Nat) (c : Ctx) (h : List Byte) : List (Bool × Nat) :=
  let f (o k : Nat) : Nat := fieldAt h o k
  let between (o k lo hi : Nat) : Bool × Nat := (decide (lo ≤ f o k) && decide (f o k ≤ hi), o)
  let keepOk : Bool := match s.needDesc n (f 16 4) 64 true with
    | .ok d => decide (d.layout = 0) && c.descPinned d && s.inDdr n d
    | .error _ => decide (f 16 4 = 0)
  [(decide (h.take 4 = ascii "KVLG"), 0), (decide (f 4 2 = 1), 4), between 6 2 1 16384, between 8 4 2 65536,
    (decide (f 12 2 = c.layers), 12), (true, 14), (keepOk, 16)] ++
  ((List.range 8).map fun i => (s.keepQpOk n (f (20 + 4 * i) 4), 20 + 4 * i)) ++
  [between 52 4 1 65536, between 56 4 (f 52 4) 65536, between 60 2 1 16, zerosAt h 62 64,
    between 64 4 1 (2 ^ 20), between 68 4 1 (2 ^ 24), between 72 4 (f 68 4) (2 ^ 24), between 76 4 1 (2 ^ 31 - 1), between 80 4 0 (2 ^ 24),
    zerosAt h 84 128, zerosAt h 174 1024]

/-- A ledger from its header. -/
def ledgerOf (base handle : Nat) (keep : Option (Nat × Nat)) (h : List Byte) : Ledger :=
  let f (o k : Nat) : Nat := fieldAt h o k
  { base := base, handle := handle, tensorMax := f 6 2, entryCount := f 8 4, layers := f 12 2, bucketsMax := f 14 2, smallMib := f 52 4,
    fastMib := f 56 4, fastSteps := max 1 (f 60 2), mirrorBudget := f 64 4, snapMin := f 68 4, snapMax := f 72 4, priorMtbf := f 76 4,
    costOverride := f 80 4, keep := keep,
    keepQps := if keep.isSome then ((List.range 8).map fun i => f (20 + 4 * i) 4).filter (· ≠ 0xFFFF_FFFF) else [],
    round := none, stale := false, walls := [], opened := [], work := [], resumed := none,
    replay := none, keeping := [] }

/-- A directory entry of a keep area (R329). -/
structure KeepEntry where
  index : Nat
  node : Nat
  layer : Nat
  tensor : Nat
  half : Nat
  capacity : Nat
  offsets : List Nat
  steps : List Nat
deriving DecidableEq, Repr

/-- Entry i of the keep area at base. -/
def State.keepEntry (s : State) (n base i : Nat) : KeepEntry :=
  let b := s.vread n [] (base + 64 + 64 * i) 64
  { index := i, node := fieldAt b 0 2, layer := fieldAt b 2 2, tensor := fieldAt b 4 2, half := fieldAt b 6 1, capacity := fieldAt b 8 8,
    offsets := [fieldAt b 16 8, fieldAt b 24 8], steps := [fieldAt b 32 5, fieldAt b 40 5] }

/-- The directory of a keep area. -/
def State.keepEntries (s : State) (n base : Nat) : List KeepEntry :=
  (List.range (s.vfield n (base + 4) 4)).map (s.keepEntry n base)

/-- Bytes of a half. -/
def KeepEntry.halfBytes (e : KeepEntry) : Nat := e.capacity + 64 + 32 * ceilDiv e.capacity (2 ^ 20)

/-- No two ranges of a list overlap. -/
def disjointRanges : List (Nat × Nat) → Bool
  | [] => true
  | x :: t => !rangesOverlap [x] t && disjointRanges t

/-- The checks of R329 on a keep area. -/
def State.keepOk (s : State) (n base size : Nat) : Bool :=
  let h := s.vread n [] base 64
  let count := fieldAt h 4 4
  decide (h.take 4 = ascii "KVKP") && zerosIn h 8 64 && decide (64 + 64 * count ≤ size) &&
  (let es := s.keepEntries n base
   decide ((es.map fun e => (e.node, e.layer, e.tensor)).Nodup) &&
   es.all (fun e =>
     let b := s.vread n [] (base + 64 + 64 * e.index) 64
     decide (fieldAt b 7 1 = 0) && zerosIn b 37 40 && zerosIn b 45 64 && decide (1 ≤ e.capacity) && decide (e.capacity ≤ 2 ^ 36) &&
       e.offsets.all fun o => decide (o % 2 ^ 20 = 0) && decide (o + e.halfBytes ≤ size)) &&
   disjointRanges (es.flatMap fun e => e.offsets.map fun o => (o, e.halfBytes)))

/-- Check LEDGER_SET's packet (R198). -/
def State.checkLedgerSet (s : State) (n : Nat) (c : Ctx) (p : Packet) : Check := do
  let d ← s.needDesc n (p.at 64 4) 64 true
  ensure (decide (d.layout = 0) && c.descPinned d && decide (1024 ≤ d.extent)) (badField 64)
  zeroBytes p 68 79
  ensure (!s.stepOpen n c) (conflict scStepOpen)

/-- LEDGER_SET: checks the header, zero-fills what the part writes, and takes the area (R324, R329). The code of the trouble-log
entry that names a refused header field is free: the manual gives none (assumption 40). -/
def execLedgerSet (p : Packet) (s : State) : Host.Outcome State Fault Refusal :=
  .next (s.forOp p 0x0A05 (s.runReach p 9 (fun s c x => s.checkLedgerSet (c.view s).ctx x p)
      (fun s c => [{ detail := 64, write := false, ranges := ((s.desc (c.view s).ctx (p.at 64 4)).map fun d => (d.base, 1024)).toList : MgmtIO },
        s.ioOf c 64 true]) fun s c x => do
    let n := (c.view s).ctx
    let d ← s.needDesc n (p.at 64 4) 64 true
    let h := s.vread n [] d.base 1024
    match (s.ledgerChecks n x h).find? fun f => !f.1 with
    | some (_, off) =>
      ensure (decide (off ≠ 16) || decide (s.ddrGib ≠ 0) || decide (fieldAt h 16 4 = 0)) (.fail .noResource 64)
      let (code, s) := s.draw 16
      return (s.logEvent code 9 0 n 0 off, badField 64)
    | none =>
      let keep := (s.desc n (fieldAt h 16 4)).map fun k => (k.base, k.extent)
      let l := ledgerOf d.base (p.at 64 4) keep h
      ensure (decide (1024 + 32 * l.tensorMax + (l.entryCount + 1) * l.entryBytes ≤ d.extent)) (badField 64)
      ensure ((keep.map fun k => s.keepOk n k.1 k.2).getD true) (badField 64)
      let s := s.vput n (d.base + 128) (leBytes 2 s.placement ++ zeros 30 ++ leBytes 4 l.snapMin ++ zeros 10)
      let s := s.vput n (d.base + 1024) (zeros (32 * l.tensorMax + (l.entryCount + 1) * l.entryBytes))
      return (s.updCtx n fun c => { c with ledger := some l }, Ending.ok 0 0)))

/-! ### TENSOR_CLASS (R325 to R327) -/

/-- Put an entry in ascending (LAYER, TENSOR), replacing its pair. -/
def putTensor (t : TensorEntry) (ts : List TensorEntry) : List TensorEntry :=
  let key (x : TensorEntry) : Nat := x.layer * 65536 + x.tensor
  (ts.filter fun x => decide (key x < key t)) ++ t :: ts.filter fun x => decide (key t < key x)

/-- Does a range lie in a valid base window. -/
def Ctx.inWindow (c : Ctx) (va n : Nat) : Bool :=
  c.windows.any fun w => w.valid && decide (w.va ≤ va) && decide (va + n ≤ w.va + w.sizeGib * 2 ^ 30)

/-- Check TENSOR_CLASS (R198, R324, R327). -/
def State.checkTensorClass (s : State) (n : Nat) (c : Ctx) (p : Packet) : Check := do
  ensure (decide (p.at 64 2 < c.layers)) (badField 64)
  match s.ledger n with
  | none => .error (.fail .noResource 64)
  | some l =>
    let ts := s.tensors n l
    ensure (decide (ts.length < l.tensorMax) || ts.any fun t => decide (t.layer = p.at 64 2) && decide (t.tensor = p.at 66 2))
      (.fail .noResource 64)
  ensure (decide (p.at 68 1 ≤ 3) || decide (p.at 68 1 = 0xFF)) (badField 68)
  zeroBytes p 69 69
  ensure (s.nodePresent (p.at 70 2)) (badField 70)
  let d ← s.needDesc n (p.at 72 4) 72 false
  zeroBytes p 76 79
  ensure (decide (p.at 68 1 ≠ 3) || c.inWindow d.base d.extent) (badField 68)
  ensure (!(decide (p.at 68 1 = 1) || decide (p.at 68 1 = 2)) || decide (p.at 70 2 ≠ s.selfNode)) (badField 70)
  ensure (!s.stepOpen n c) (conflict scStepOpen)

/-- TENSOR_CLASS registers a tensor; RESULT0 is the class applied (R325, R326). -/
def execTensorClass (p : Packet) (s : State) : Host.Outcome State Fault Refusal :=
  .next (s.forOp p 0x0A01 (s.runNow p fun s c x => do
    let n := (c.view s).ctx
    s.checkTensorClass n x p
    let d ← s.needDesc n (p.at 72 4) 72 false
    match s.ledger n with
    | none => .error (.fail .noResource 64)
    | some l =>
      let t : TensorEntry := { layer := p.at 64 2, tensor := p.at 66 2, requested := p.at 68 1, applied := 0, buddy := p.at 70 2,
                               handle := p.at 72 4, writeSteps := 0, base := d.base, bytes := d.extent }
      let ts := s.applyClasses n l (putTensor t (s.tensors n l))
      let cls := ((ts.find? fun x => decide (x.layer = t.layer) && decide (x.tensor = t.tensor)).map (·.applied)).getD 0
      return (s.putTensors n l ts, Ending.ok cls 0)))

/-! ### Saves (R328, R330, R331) -/

/-- The chunk of a Merkle tree. -/
def chunkSize : Nat := 2 ^ 20

/-- The TAG of keep messages. -/
def keepTag : Nat := 0xB000_0000_0000_0000

/-- A piece header (R330); a FILL chunk carries its leaf (R340). -/
def pieceHeader (layer tensor step kind chunk len : Nat) (leaf : List Byte) : List Byte :=
  leBytes 2 layer ++ leBytes 2 tensor ++ leBytes 5 step ++ leBytes 1 kind ++ zeros 2 ++ leBytes 4 chunk ++ leBytes 8 len ++ zeros 8 ++
    (leaf ++ zeros 32).take 32

/-- A digest record (R328). -/
def digestRecord (layer tensor step cls node len : Nat) (leaves : List (List Byte)) : List Byte :=
  ascii "KVSD" ++ leBytes 2 layer ++ leBytes 2 tensor ++ leBytes 5 step ++ leBytes 1 cls ++ leBytes 2 node ++ leBytes 8 len ++
    leBytes 4 leaves.length ++ zeros 4 ++ merkleRoot 64 leaves ++ leaves.flatMap id

/-- The leaves of a digest record. -/
def recordLeaves (r : List Byte) : List (List Byte) := (List.range (fieldAt r 24 4)).map fun i => (r.drop (64 + 32 * i)).take 32

/-- The tensor-table entry that a source descriptor is registered as. -/
def State.registered (s : State) (n : Nat) (d : Desc) : Option TensorEntry :=
  (s.ledger n).bind fun l => (s.tensors n l).find? fun t => decide (t.base = d.base) && decide (t.bytes = d.extent)

/-- Is SNAPSHOT's target the host. -/
def hostTarget (p : Packet) : Bool := decide (p.opcode = 0x0A02) && decide (p.at 69 1 = 1)

/-- The queue pair of a save: connected, and to the entry's BUDDY (R331). -/
def State.checkBuddyQp (s : State) (n k : Nat) (t : TensorEntry) : Check := do
  s.needShardQp n k 76
  ensure (decide ((s.qp k).map (·.peerNode) = some t.buddy)) (badField 76)

/-- A digest descriptor: LINEAR, on pinned pages, with room for a record over len bytes. -/
def State.checkDigest (s : State) (n : Nat) (c : Ctx) (h detail len : Nat) (write : Bool) : Check := do
  let d ← s.needDesc n h detail write
  ensure (decide (d.layout = 0) && c.descPinned d && decide (64 + 32 * ceilDiv len chunkSize ≤ d.extent)) (badField detail)

/-- Check SNAPSHOT and MIRROR (R198, R331). -/
def State.checkSave (s : State) (n : Nat) (c : Ctx) (p : Packet) : Check := do
  ensure (decide (c.step ≤ p.at 64 5) || s.isAdmitted p) (.fail .epochStale 64)
  let mirror := decide (p.opcode = 0x0A04)
  if mirror then zeroBytes p 69 71
  else do
    ensure (decide (p.at 69 1 ≤ 1)) (badField 69)
    zeroBytes p 70 71
  let d ← s.needDesc n (p.at 72 4) 72 false
  ensure (decide (d.layout = 0) && c.descPinned d && decide (d.extent ≤ 2 ^ 36)) (badField 72)
  match s.registered n d with
  | none => .error (badField 72)
  | some t =>
    ensure (if mirror then decide (t.applied = 1) else decide (t.applied ≠ 3)) (badField 72)
    if hostTarget p then do
      let h ← s.needDesc n (p.at 76 4) 76 true
      ensure (decide (h.layout = 0) && c.descPinned h && decide (d.extent ≤ h.extent) &&
        (pagesOf h.base h.extent).all fun a => match s.paOf n [] a with
          | some pa => decide (s.region pa = .host)
          | none => false) (badField 76)
    else s.checkBuddyQp n (p.at 76 4) t
  if mirror then .ok ()
  else do
    s.checkDigest n c (p.at 80 4) 80 d.extent true
    zeroBytes p 84 95

/-- The snapshot round of a step begins with its first admission (R333), and the step's entry says that it is one (R334). -/
def State.noteRound (s : State) (n : Nat) (p : Packet) : State :=
  if p.opcode = 0x0A02 then
    let (ns, s) := s.drawNs
    let t := s.strk.elapsed + ns
    (s.updLedger n fun l => { l with round := match l.round with
      | some (k, a, b) => if k = p.at 64 5 then some (k, a, b) else some (p.at 64 5, t, t)
      | none => some (p.at 64 5, t, t) }).ledgerFlag n (p.at 64 5) 0x20
  else s

/-- A SNAPSHOT that completes DONE extends its round (R333). -/
def State.extendRound (s : State) (n : Nat) (p : Packet) (done : Bool) : State :=
  if p.opcode = 0x0A02 ∧ done then
    let (ns, s) := s.drawNs
    s.updLedger n fun l => match l.round with
      | some (k, a, _) => if k = p.at 64 5 then { l with round := some (k, a, s.strk.elapsed + ns), stale := true } else l
      | none => l
  else s

/-- Everything that a save needs. -/
structure SaveJob where
  t : TensorEntry
  d : Desc
  /-- bounce buffer of the host target -/
  bounce : Option Desc
  /-- DIGEST -/
  digest : Option Desc
deriving DecidableEq, Repr

/-- The job of a save command. -/
def State.saveJob (s : State) (c : Cmd) : Option SaveJob :=
  let n := (c.view s).ctx
  match s.desc n (c.pkt.at 72 4) with
  | none => none
  | some d => (s.registered n d).map fun t =>
    { t := t, d := d, bounce := if hostTarget c.pkt then s.desc n (c.pkt.at 76 4) else none,
      digest := if c.pkt.opcode = 0x0A02 then s.desc n (c.pkt.at 80 4) else none }

/-- The kind of a save's pieces. -/
def saveKind (p : Packet) : Nat := if p.opcode = 0x0A04 then 0 else 1

/-- After the last chunk: the record goes to DIGEST and to the buddy (R330, R331). -/
def State.saveEnd (s : State) (c : Cmd) (j : SaveJob) (leaves : List Nat) : State :=
  let n := (c.view s).ctx
  let p := c.pkt
  let rec' := digestRecord j.t.layer j.t.tensor (p.at 64 5) j.t.applied s.selfNode j.d.extent (leaves.map (leBytes 32))
  let e := if p.opcode = 0x0A04 then Ending.ok j.d.extent 0 else Ending.ok leaves.length 0
  let write : Option (Nat × Nat) := j.digest.map fun g => (g.base, rec'.length)
  if s.hostBlocked { ctx := n, bound := c.bound } write.toList then s.waitHost c 80
  else
    match (match write with
      | some w => s.touch n c.bound w.1 w.2 accW false
      | none => .ok s) with
    | .error (k, va) => s.engineFault c k va 9 0 accW 80
    | .ok s =>
      let s := match write with
        | some w => s.vwrite n c.bound w.1 rec'
        | none => s
      if hostTarget p then s.finish c e
      else (s.postHeld (p.at 76 4) (some (c.queue, c.seq)) keepTag rec').updCmd c.queue c.seq fun x => { x with work := .sending e }

/-- A save, chunk by chunk from its cursor; the leaves so far are its counters (R328, R330). -/
def State.saveRun (s : State) (c : Cmd) (j : SaveJob) : Nat → State
  | 0 => s
  | k + 1 =>
    let v := c.view s
    let p := c.pkt
    let leaves : List Nat := match c.work with
      | .counts l => l
      | _ => []
    let o := chunkSize * c.cursor
    if j.d.extent ≤ o then s.saveEnd c j leaves
    else if c.cancel then s.endShard c { status := .preempted, r1 := c.cursor }
    else
      let len := min chunkSize (j.d.extent - o)
      let src := j.d.base + o
      let dst := j.bounce.map fun b => b.base + o
      if s.hostBlocked v [(src, len)] then s.waitHost c 72
      else if s.hostBlocked v (dst.toList.map fun a => (a, len)) then s.waitHost c 76
      else match s.touch v.ctx v.bound src len accR false with
      | .error (f, va) => s.engineFault c f va 9 0 accR 72
      | .ok s =>
        match (match dst with
          | some a => s.touch v.ctx v.bound a len accW false
          | none => .ok s) with
        | .error (f, va) => s.engineFault c f va 9 0 accW 76
        | .ok s =>
          match s.badRange v.ctx v.bound src len with
          | some pa => s.mediaFault c src pa 9 0 72
          | none =>
            let bs := s.vread v.ctx v.bound src len
            let work : Work := .counts (leaves ++ [leNat (chunkLeaf bs)])
            let s := match dst with
              | some a => s.vwrite v.ctx v.bound a bs
              | none => s.postHeld (p.at 76 4) (some (c.queue, c.seq)) keepTag
                  (pieceHeader j.t.layer j.t.tensor (p.at 64 5) (saveKind p) c.cursor j.d.extent [] ++ bs)
            (s.updCmd c.queue c.seq fun x => { x with cursor := x.cursor + 1, work := work }).saveRun
              { c with cursor := c.cursor + 1, work := work } j k

/-- A save starts, or goes on. -/
def State.save (s : State) (p : Packet) : State :=
  match s.startable p with
  | some c =>
    (match s.ctxOf c with
     | none => s
     | some x =>
       match s.checkSave (c.view s).ctx x p, s.saveJob c with
       | .ok _, some j => (s.begin c (.counts [])).saveRun { c with phase := .running, work := .counts [] } j (j.d.extent / chunkSize + 2)
       | .error e, _ => s.finish c e
       | .ok _, none => s.finish c (badField 72))
  | none => match s.resumable p with
    | none => s
    | some c => match s.saveJob c, c.work with
      | some j, .counts _ => s.saveRun c j (j.d.extent / chunkSize + 2)
      | _, _ => s

/-- SNAPSHOT (R330, R331). -/
def execSnapshot (p : Packet) (s : State) : Host.Outcome State Fault Refusal := .next (s.forOp p 0x0A02 (s.save p))

/-- MIRROR (R330, R331). -/
def execMirror (p : Packet) (s : State) : Host.Outcome State Fault Refusal := .next (s.forOp p 0x0A04 (s.save p))

/-! ### The keeper (R329, R330, R332) -/

/-- The keep area, and the entry for a sender's tensor, on a KEEP_QP: context, area and entry. -/
def State.keeperOf (s : State) (k layer tensor : Nat) : Option (Nat × Nat × Option KeepEntry) :=
  match s.qp k with
  | none => none
  | some q =>
    if ¬ s.keepQp q.owner k then none
    else match (s.ledger q.owner).bind (·.keep) with
      | none => none
      | some (base, _) => some (q.owner, base, (s.keepEntries q.owner base).find? fun e =>
          decide (e.node = q.peerNode) && decide (e.layer = layer) && decide (e.tensor = tensor))

/-- The half that a save goes into: not the one that holds the committed newer copy, and A where neither is committed (DESIGN CHOICE,
assumption 41). -/
def KeepEntry.saveHalf (e : KeepEntry) : Nat := if bitOf e.half 1 ∧ ¬ bitOf e.half 0 then 1 else 0

/-- The keeper's progress with a save on a queue pair. -/
def Ledger.keepRx (l : Ledger) (k : Nat) : Option KeepRx := l.keeping.find? fun r => decide (r.qp = k)

/-- Replace it. -/
def Ledger.setKeepRx (l : Ledger) (k : Nat) (r : Option KeepRx) : Ledger :=
  { l with keeping := r.toList ++ l.keeping.filter fun x => decide (x.qp ≠ k) }

/-- KEEP_PIECE_RECEIVED: the chunk is written and hashed, or the first piece is refused (R330), with NO_RESOURCE by a part without a DDR tier (R19). A chunk that does not fit the save in
progress begins a save of its own (DEDUCED, assumption 42). -/
def execKeepPieceReceived (qp : Nat) (piece : List Byte) (s : State) : Host.Outcome State Fault Refusal :=
  let layer := fieldAt piece 0 2
  let tensor := fieldAt piece 2 2
  let len := fieldAt piece 16 8
  let chunk := fieldAt piece 12 4
  .next (if ¬ s.headIs qp piece ∨ piece.take 4 = ascii "KVSD" ∨ 1 < fieldAt piece 9 1 then s
    else match s.keeperOf qp layer tensor with
    | none =>
      if s.ddrGib = 0 ∧ ¬ s.qpHeld qp ∧ ((s.headMsg qp).map (·.tag)) = some keepTag then s.takeMsg qp (Status.noResource).code else s
    | some (_, _, none) => s.takeMsg qp (Status.descRange).code
    | some (n, base, some e) =>
      if e.capacity < len then s.takeMsg qp (Status.descRange).code
      else
        let old := ((s.ledger n).bind fun l => l.keepRx qp).filter fun r =>
          decide (r.layer = layer) && decide (r.tensor = tensor) && decide (r.step = fieldAt piece 4 5) && decide (r.length = len)
        let r : KeepRx := old.getD { qp := qp, layer := layer, tensor := tensor, step := fieldAt piece 4 5, index := e.index, half := e.saveHalf,
                                     length := len, leaves := [] }
        let data := piece.drop 64
        let va := base + e.offsets.getD r.half 0 + chunkSize * chunk
        if ceilDiv len chunkSize ≤ chunk ∨ data.length ≠ min chunkSize (len - chunkSize * chunk) then s.takeMsg qp (Status.descRange).code
        else match s.touch n [] va data.length accW false with
          | .error (f, a) => (s.faultRecord n (mkFault f a 9 0 accW 0 0 0)).takeMsg qp (Status.descRange).code
          | .ok s =>
            let r := { r with leaves := Kv.set chunk (chunkLeaf data) r.leaves }
            ((s.vwrite n [] va data).updLedger n fun l => l.setKeepRx qp (some r)).takeMsg qp 0)

/-- Do a record's header, leaves and root agree with what the keeper hashed. -/
def KeepRx.agrees (r : KeepRx) (rec' : List Byte) : Bool :=
  let leaves := r.leaves.map (·.2)
  decide (fieldAt rec' 4 2 = r.layer) && decide (fieldAt rec' 6 2 = r.tensor) && decide (fieldAt rec' 8 5 = r.step) &&
    decide (fieldAt rec' 16 8 = r.length) && decide (fieldAt rec' 24 4 = ceilDiv r.length chunkSize) &&
    decide (leaves.length = ceilDiv r.length chunkSize) && decide (rec'.length = 64 + 32 * leaves.length) &&
    decide (recordLeaves rec' = leaves) && decide ((rec'.drop 32).take 32 = merkleRoot 64 leaves)

/-- KEEP_DIGEST_RECEIVED: on a match the record, then STEP, then HALF are written; on a mismatch nothing is committed (R330). The
record lies behind the half's CAPACITY bytes of data (DEDUCED, assumption 43). -/
def execKeepDigestReceived (qp : Nat) (record : List Byte) (s : State) : Host.Outcome State Fault Refusal :=
  .next (if ¬ s.headIs qp record ∨ record.take 4 ≠ ascii "KVSD" then s
    else match s.keeperOf qp (fieldAt record 4 2) (fieldAt record 6 2) with
    | none => s
    | some (_, _, none) => s.takeMsg qp (Status.descRange).code
    | some (n, base, some e) =>
      match (s.ledger n).bind fun l => l.keepRx qp with
      | none => s.takeMsg qp (Status.checkMismatch).code
      | some r =>
        let s := s.updLedger n fun l => l.setKeepRx qp none
        if ¬ r.agrees record then s.takeMsg qp (Status.checkMismatch).code
        else
          let dir := base + 64 + 64 * e.index
          let at' := base + e.offsets.getD r.half 0 + e.capacity
          match s.touch n [] at' record.length accW false with
          | .error (f, a) => (s.faultRecord n (mkFault f a 9 0 accW 0 0 0)).takeMsg qp (Status.checkMismatch).code
          | .ok s =>
            let s := s.vput n at' record
            let s := s.vput n (dir + 32 + 8 * r.half) (leBytes 5 r.step)
            (s.vput n (dir + 6) (leBytes 1 (2 + r.half))).takeMsg qp 0)

/-- The bytes and record of a half, when its record is one of this tensor and every chunk agrees with it. -/
def State.wholeHalf (s : State) (n base : Nat) (e : KeepEntry) (half : Nat) : Option (List Byte × List Byte) :=
  let o := base + e.offsets.getD half 0
  let hd := s.vread n [] (o + e.capacity) 64
  let len := fieldAt hd 16 8
  if hd.take 4 ≠ ascii "KVSD" ∨ e.capacity < len ∨ fieldAt hd 4 2 ≠ e.layer ∨ fieldAt hd 6 2 ≠ e.tensor then none
  else
    let rec' := s.vread n [] (o + e.capacity) (64 + 32 * ceilDiv len chunkSize)
    let bs := s.vread n [] o len
    if leavesOf bs = recordLeaves rec' ∧ (rec'.drop 32).take 32 = rootOf bs then some (bs, rec') else none

/-- The half that answers a request for a step: committed, with that STEP; the newer one for 0xFF_FFFF_FFFF (R332). -/
def State.restoreHalf (s : State) (n base : Nat) (e : KeepEntry) (step : Nat) : Option (List Byte × List Byte) :=
  let newer := if bitOf e.half 0 then 1 else 0
  if ¬ bitOf e.half 1 then none
  else if step = 0xFF_FFFF_FFFF ∨ e.steps.getD newer 0 = step then s.wholeHalf n base e newer
  else if e.steps.getD (1 - newer) 0 = step then s.wholeHalf n base e (1 - newer)
  else none

/-- RESTORE_REQUEST_RECEIVED: the keeper answers with the record and then the chunks, each re-hashed, or refuses (R332). -/
def execRestoreRequestReceived (qp : Nat) (request : List Byte) (s : State) : Host.Outcome State Fault Refusal :=
  let layer := fieldAt request 0 2
  let tensor := fieldAt request 2 2
  .next (if ¬ s.headIs qp request ∨ request.take 4 = ascii "KVSD" ∨ fieldAt request 9 1 ≠ 2 then s
    else match s.keeperOf qp layer tensor with
    | none => s
    | some (_, _, none) => s.takeMsg qp (Status.checkMismatch).code
    | some (n, base, some e) =>
      match s.restoreHalf n base e (fieldAt request 4 5) with
      | none => s.takeMsg qp (Status.checkMismatch).code
      | some (bs, rec') =>
        let s := (s.takeMsg qp 0).postHeld qp none keepTag rec'
        ((chunksOf chunkSize (bs.length / chunkSize + 1) bs).zipIdx).foldl (fun s x =>
          s.postHeld qp none keepTag (pieceHeader layer tensor (fieldAt rec' 8 5) 2 x.2 bs.length [] ++ x.1)) s)

/-! ### RESTORE (R198, R332) -/

/-- Check RESTORE. -/
def State.checkRestore (s : State) (n : Nat) (c : Ctx) (p : Packet) : Check := do
  let d ← s.needDesc n (p.at 64 4) 64 true
  ensure (decide (d.layout = 0) && c.descPinned d && decide (d.extent ≤ 2 ^ 36)) (badField 64)
  if p.at 76 1 = 1 then do
    let h ← s.needDesc n (p.at 68 4) 68 false
    ensure (decide (h.layout = 0) && c.descPinned h && decide (d.extent ≤ h.extent)) (badField 68)
  else s.needShardQp n (p.at 68 4) 68
  s.checkDigest n c (p.at 72 4) 72 (if p.at 76 1 = 1 then d.extent else 0) false
  ensure (decide (p.at 76 1 ≤ 1)) (badField 76)
  zeroBytes p 77 79

/-- The failure of a restore at a chunk; DEST is left as it is (R198, R332). -/
def restoreFail (i : Nat) : Ending := { status := .checkMismatch, detail := 72, r1 := i }

/-- Is a record one over len bytes whose root is that of its leaves. -/
def recordOk (rec' : List Byte) (len : Nat) : Bool :=
  decide (rec'.take 4 = ascii "KVSD") && decide (fieldAt rec' 16 8 = len) && decide (fieldAt rec' 24 4 = ceilDiv len chunkSize) &&
    (zerosIn rec' 32 64 || decide ((rec'.drop 32).take 32 = merkleRoot 64 (recordLeaves rec')))

/-- A restored tensor of class SNAPSHOT that is older than the next step is noted for that step's entry (R334). -/
def State.noteRestore (s : State) (n : Nat) (d : Desc) (step : Nat) : State :=
  match s.registered n d with
  | some t => if t.applied = 2 then s.updLedger n fun l => { l with resumed := some step } else s
  | none => s

/-- Write one chunk of DEST and check it against its leaf. -/
def State.restoreChunk (s : State) (c : Cmd) (d : Desc) (bs leaf : List Byte) (next : State → Cmd → State) : State :=
  let v := c.view s
  let va := d.base + chunkSize * c.cursor
  if s.hostBlocked v [(va, bs.length)] then s.waitHost c 64
  else match s.touch v.ctx v.bound va bs.length accW false with
  | .error (f, a) => s.engineFault c f a 9 0 accW 64
  | .ok s =>
    let s := s.vwrite v.ctx v.bound va bs
    if chunkLeaf bs ≠ leaf then s.endShard c (restoreFail c.cursor)
    else next (s.updCmd c.queue c.seq fun x => { x with cursor := x.cursor + 1 }) { c with cursor := c.cursor + 1 }

/-- A restore from a host descriptor, chunk by chunk from its cursor. -/
def State.restoreRun (s : State) (c : Cmd) (d h g : Desc) : Nat → State
  | 0 => s
  | k + 1 =>
    let v := c.view s
    let o := chunkSize * c.cursor
    if d.extent ≤ o then (s.noteRestore v.ctx d (fieldAt (s.vread v.ctx v.bound g.base 64) 8 5)).finish c (Ending.ok c.cursor 0)
    else if c.cancel then s.finish c { status := .preempted, r1 := c.cursor }
    else
      let len := min chunkSize (d.extent - o)
      if s.hostBlocked v [(h.base + o, len)] then s.waitHost c 68
      else match s.touch v.ctx v.bound (h.base + o) len accR false with
      | .error (f, a) => s.engineFault c f a 9 0 accR 68
      | .ok s =>
        match s.badRange v.ctx v.bound (h.base + o) len with
        | some pa => s.mediaFault c (h.base + o) pa 9 0 68
        | none => s.restoreChunk c d (s.vread v.ctx v.bound (h.base + o) len) (s.vread v.ctx v.bound (g.base + 64 + 32 * c.cursor) 32)
            fun s c => s.restoreRun c d h g k

/-- A RESTORE that may start: the request to the buddy, or the chunks from the host. -/
def State.restoreStart (s : State) (c : Cmd) : State :=
  let v := c.view s
  let p := c.pkt
  match s.desc v.ctx (p.at 64 4), s.desc v.ctx (p.at 72 4) with
  | some d, some g =>
    let need := if p.at 76 1 = 1 then 64 + 32 * ceilDiv d.extent chunkSize else 64
    if s.hostBlocked v [(g.base, need)] then s.waitHost c 72
    else match s.touch v.ctx v.bound g.base need accR false with
    | .error (f, a) => s.engineFault c f a 9 0 accR 72
    | .ok s =>
      if let some pa := s.badRange v.ctx v.bound g.base need then s.mediaFault c g.base pa 9 0 72 else
      let r := s.vread v.ctx v.bound g.base need
      if p.at 76 1 = 1 then
        (match s.desc v.ctx (p.at 68 4) with
         | none => s.finish c (.fail .accessDenied 68)
         | some h =>
           if recordOk r d.extent then (s.begin c .none).restoreRun { c with phase := .running } d h g (d.extent / chunkSize + 2)
           else s.finish c (badField 72))
      else if r.take 4 ≠ ascii "KVSD" then s.finish c (badField 72)
      else (s.begin c (.counts [])).postHeld (p.at 68 4) (some (c.queue, c.seq)) keepTag
        (pieceHeader (fieldAt r 4 2) (fieldAt r 6 2) (fieldAt r 8 5) 2 0 (fieldAt r 16 8) [] ++ r)
  | _, _ => s.finish c (.fail .accessDenied 64)

/-- RESTORE: starts, or goes on from its cursor (R332). -/
def execRestore (p : Packet) (s : State) : Host.Outcome State Fault Refusal :=
  .next (s.forOp p 0x0A03 (match s.startable p with
    | some c =>
      (match s.ctxOf c with
       | none => s
       | some x =>
         match s.checkRestore (c.view s).ctx x p with
         | .error e => s.finish c e
         | .ok _ => s.restoreStart c)
    | none => match s.resumable p with
      | none => s
      | some c =>
        let n := (c.view s).ctx
        match c.work, s.desc n (p.at 64 4), s.desc n (p.at 68 4), s.desc n (p.at 72 4) with
        | .none, some d, some h, some g =>
          if p.at 76 1 = 1 then (if c.cursor = 0 then s.restoreStart c else s.restoreRun c d h g (d.extent / chunkSize + 2))
          else s.restoreStart c
        | .none, _, _, _ => if p.at 76 1 = 0 then s.restoreStart c else s
        | _, _, _, _ => s))

/-- The RESTORE that runs on a queue pair. -/
def State.restoring (s : State) (k : Nat) : Option Cmd :=
  s.cmds.find? fun c => decide (c.phase = .running) && decide (c.pkt.opcode = 0x0A03) && decide (c.pkt.at 76 1 = 0) && decide (c.pkt.at 68 4 = k)

/-- RESTORE_CHUNK_RECEIVED: the keeper's record first, then its chunks, each checked against its leaf (R332). -/
def execRestoreChunkReceived (qp : Nat) (chunk : List Byte) (s : State) : Host.Outcome State Fault Refusal :=
  .next (if ¬ s.headIs qp chunk then s
    else match s.restoring qp with
    | none => if s.qpHeld qp then s else s.takeMsg qp 0
    | some c =>
      let v := c.view s
      match c.work, s.desc v.ctx (c.pkt.at 64 4), s.desc v.ctx (c.pkt.at 72 4) with
      | .counts [], some d, some g =>
        let s := s.takeMsg qp 0
        let want := s.vread v.ctx v.bound g.base 64
        let root := (want.drop 32).take 32
        if chunk.take 4 ≠ ascii "KVSD" ∨ fieldAt chunk 16 8 ≠ d.extent ∨ ¬ recordOk chunk d.extent ∨
            (root ≠ zeros 32 ∧ root ≠ merkleRoot 64 (recordLeaves chunk)) then
          s.endShard c (restoreFail 0xFFFF_FFFF)
        else s.updCmd c.queue c.seq fun x => { x with work := .counts (fieldAt chunk 8 5 :: (recordLeaves chunk).map leNat) }
      | .counts (step :: leaves), some d, some _ =>
        let s := s.takeMsg qp 0
        let bs := chunk.drop 64
        if fieldAt chunk 9 1 ≠ 2 ∨ fieldAt chunk 12 4 ≠ c.cursor ∨ bs.length ≠ min chunkSize (d.extent - chunkSize * c.cursor) then s
        else s.restoreChunk c d bs (leBytes 32 (leaves.getD c.cursor 0)) fun s c =>
          if c.cursor = leaves.length then (s.noteRestore v.ctx d step).finish c (Ending.ok c.cursor 0) else s
      | _, _, _ => s)

/-! ### REPLAY (R336) -/

/-- Check REPLAY: an entry with this STEP and STATE VERIFIED. -/
def State.checkReplay (s : State) (n : Nat) (c : Ctx) (p : Packet) (full : Bool) : Check := do
  zeroBytes p 69 71
  let d ← s.needDesc n (p.at 72 4) 72 false
  match s.ledger n with
  | none => .error (badField 72)
  | some l =>
    let e := s.vread n [] d.base 8
    ensure (decide (d.layout = 0) && decide (l.entryBytes ≤ d.extent) &&
      (!full || (decide (fieldAt e 0 5 = p.at 64 5) && decide (fieldAt e 5 1 = 1)))) (badField 72)
  zeroBytes p 76 79
  ensure (!s.stepOpen n c) (conflict scStepOpen)

/-- REPLAY: open entries close, and the step may be carried again, into the replay entry (R334, R336). -/
def execReplay (p : Packet) (s : State) : Host.Outcome State Fault Refusal :=
  .next (s.forOp p 0x0A06 (s.runReach p 9 (fun s c x => s.checkReplay (c.view s).ctx x p false)
      (fun s c => [{ detail := 72, write := false, ranges := ((s.desc (c.view s).ctx (p.at 72 4)).map fun d =>
        (d.base, ((s.ledger (c.view s).ctx).map (·.entryBytes)).getD 0)).toList : MgmtIO }]) fun s c x => do
    let n := (c.view s).ctx
    s.checkReplay n x p true
    let d ← s.needDesc n (p.at 72 4) 72 false
    match s.ledger n with
    | none => .error (badField 72)
    | some l =>
      let entry := s.vread n [] d.base l.entryBytes
      let s := l.opened.foldl (fun s k => s.closeEntry n k) s
      let step := p.at 64 5
      let s := s.updCtx n fun c =>
        { c.setXhStep { step := step, attempts := 0, verified := [], aborted := false, stale := [] } with stepSeen := false }
      return (s.updLedger n fun l => { l with replay := some { step := step, entry := entry } }, Ending.ok 0 0)))

/-! ### Placement epochs (R342) -/

/-- Check PLACEMENT_SET (R198). -/
def State.checkPlacementSet (s : State) (p : Packet) : Check := do
  ensure (serialNewer 16 (p.at 64 2) s.placement) (.fail .epochStale 64)
  zeroBytes p 66 79

/-- PLACEMENT_SET takes effect at the next boundary (R342). -/
def execPlacementSet (p : Packet) (s : State) : Host.Outcome State Fault Refusal :=
  .next (s.forOp p 0x0A09 (s.runNow p fun s _ _ => do
    s.checkPlacementSet p
    return ({ s with nextPlacement := some (p.at 64 2) }, Ending.ok 0 0)))

/-! ### Hot spares (R337 to R341) -/

/-- Is entry i of a wake-pattern key valid (R358). -/
def wakeValid (key : List Byte) (i : Nat) : Bool :=
  let e := (key.drop (24 * i)).take 24
  bitOf (fieldAt e 20 1) 0 && decide (fieldAt e 20 1 < 4) && zerosIn e 21 24 &&
    decide (8 ≤ ((List.range 128).filter fun j => bitOf (fieldAt e 0 16) j).length)

/-- The wake-pattern key of a service-bus port (R358). -/
def State.wakeKey (s : State) (port : Nat) : List Byte := (s.forceKey (0x12 + port)).getD []

/-- Check SPARE_ARM (R198, R337). -/
def State.checkSpareArm (s : State) (p : Packet) : Check := do
  ensure (s.nodePresent (p.at 64 2)) (badField 64)
  ensure (decide (p.at 66 1 < 8)) (badField 66)
  ensure (decide (p.at 67 1 ≤ 1) && wakeValid (s.wakeKey (p.at 67 1)) (p.at 66 1)) (badField (if p.at 67 1 ≤ 1 then 66 else 67))
  zeroBytes p 68 79
  ensure (s.ctxs.all fun e => decide (e.1 = 0)) (conflict scContextBusy)

/-- SPARE_ARM completes before the spare sleeps (R337). -/
def execSpareArm (p : Packet) (s : State) : Host.Outcome State Fault Refusal :=
  .next (s.forOp p 0x0A07 (s.runProof p clsSurvival fun s _ _ => do
    s.checkSpareArm p
    return ({ s with spare := { s.spare with node := p.at 64 2, pattern := p.at 66 1, port := p.at 67 1, arming := true } }, Ending.ok 0 0)))

/-- A port's addresses as R253 has them. -/
def addrOk (mac ipv4 ipv6 : Nat) : Bool :=
  decide (mac ≠ 0) && !bitOf (mac / 2 ^ 40) 0 && !(decide (0xE000_0000 ≤ ipv4) && decide (ipv4 < 0xF000_0000)) && decide (ipv4 ≠ 0xFFFF_FFFF) &&
    decide (ipv6 / 2 ^ 120 ≠ 0xFF) && (decide (ipv4 ≠ 0) || decide (ipv6 ≠ 0))

/-- The entries of the identity table: NODE, and MAC, IPV4 and IPV6 of each port (R338). -/
def identityEntries (k : List Byte) : List (Nat × List (Nat × Nat × Nat)) :=
  (List.range (fieldAt k 4 2)).map fun i =>
    let e := (k.drop (16 + 224 * i)).take 224
    (fieldAt e 0 2, (List.range 8).map fun q =>
      let b := e.drop (16 + 26 * q)
      (beNat (b.take 6), beNat ((b.drop 6).take 4), beNat ((b.drop 10).take 16)))

/-- The checks of R338 on the identity table. -/
def identityOk (k : List Byte) : Bool :=
  decide (k.take 4 = ascii "KVID") && zerosIn k 6 16 && decide (fieldAt k 4 2 ≤ 64) && decide (k.length = 16 + 224 * fieldAt k 4 2) &&
  (let es := identityEntries k
   decide ((es.map (·.1)).Nodup) && (es.all fun e => (e.2.all fun a => addrOk a.1 a.2.1 a.2.2) && decide ((e.2.map (·.1)).Nodup)) &&
   (List.range es.length).all fun i => zerosIn (k.drop (16 + 224 * i)) 2 16)

/-- The identity of a node. -/
def State.identityOf (s : State) (node : Nat) : Option (List (Nat × Nat × Nat)) :=
  let k := (s.forceKey 0x14).getD []
  if identityOk k then ((identityEntries k).find? fun e => decide (e.1 = node)).map (·.2) else none

/-- Check SPARE_PROMOTE (R198, R337 to R340). A second fill beside a running one finds no resource (DESIGN CHOICE, assumption 44). -/
def State.checkSparePromote (s : State) (n : Nat) (p : Packet) : Check := do
  ensure (decide (s.spare.state = .awake) || decide (s.spare.state = .taken)) (conflict scSpareNotStandby)
  zeroBytes p 66 67
  zeroBytes p 72 79
  ensure (s.identityOf (p.at 64 2)).isSome (badField 64)
  if s.spare.state = .awake then ensure (decide (p.at 68 4 = 0xFFFF_FFFF)) (badField 68)
  else if p.at 68 4 = 0xFFFF_FFFF then .ok ()
  else do
    s.needShardQp n (p.at 68 4) 68
    ensure s.spare.fill.isNone (.fail .noResource 68)

/-- As `runProof`, for an effect that may leave the command running. -/
def State.runProofLong (s : State) (p : Packet) (k : Nat) (chk : State → Nat → Check) (act : State → Cmd → State) : State :=
  match s.startable p with
  | none => s
  | some c =>
    match s.ctxOf c, s.takeSlot c k with
    | none, _ => s
    | some _, .error (e, s') => s'.finish c e
    | some _, .ok s1 =>
      match chk s1 (c.view s1).ctx with
      | .error e => s1.finish c e
      | .ok _ => act s1 c

/-- A fill request: a piece header of KIND FILL whose CHUNK is the chunk to begin at (R330, R340; its form: DEDUCED, assumption 45). -/
def fillRequest (cursor : Nat) : List Byte := pieceHeader 0 0 0 3 cursor 0 []

/-- SPARE_PROMOTE: in AWAKE the identity is taken at the next boundary; in TAKEN a fill begins, or the part gives up its fill (R339 to
R341). A fill that this ends completes with STATE_CONFLICT (DESIGN CHOICE, assumption 44). -/
def execSparePromote (p : Packet) (s : State) : Host.Outcome State Fault Refusal :=
  .next (s.forOp p 0x0A08 (s.runProofLong p clsSurvival (fun s n => s.checkSparePromote n p) fun s c =>
    if s.spare.state = .awake then
      ({ s with spare := { s.spare with promoting := some (c.queue, c.seq, p.at 64 2) } } : State).begin c .none
    else if p.at 68 4 = 0xFFFF_FFFF then
      let s := match s.spare.fill with
        | some f => s.updCmd f.queue f.seq fun x => { x with phase := .finished (conflict scSpareNotStandby) }
        | none => s
      ({ s with spare := { s.spare with state := .active, fill := none, cursor := none } } : State).finish c (Ending.ok 0 0)
    else
      let k := p.at 68 4
      let f : Fill := { queue := c.queue, seq := c.seq, qp := k, context := (c.view s).ctx, plan := none, again := false }
      let start := (s.spare.cursor.map (·.1)).getD 0
      (({ s with spare := { s.spare with fill := some f } } : State).begin c .none).postHeld k none keepTag (fillRequest start)))

/-- A plan: the registered REPLICATED tensors in order (R340). -/
def State.planBytes (s : State) (n : Nat) : List Byte :=
  match s.ledger n with
  | some l => ((s.tensors n l).filter fun t => decide (t.applied = 0)).flatMap TensorEntry.encode
  | none => []

/-- The chunks of a plan in order: the entry's LAYER and TENSOR, its bytes, the chunk's number in the tensor, address and length. -/
def planChunks (plan : List TensorEntry) : List (TensorEntry × Nat × Nat) :=
  plan.flatMap fun t => (List.range (ceilDiv t.bytes chunkSize)).map fun i => (t, t.base + chunkSize * i, min chunkSize (t.bytes - chunkSize * i))

/-- The entries of a plan's bytes. -/
def planOf (bs : List Byte) : List TensorEntry := (chunksOf 32 (bs.length / 32 + 1) bs).map TensorEntry.decode

/-- Does the part serve another fill, whose chunks are not all acknowledged (R341). -/
def State.servesOther (s : State) (k : Nat) : Bool :=
  match s.spare.serve with
  | some v => decide (v.qp ≠ k) && ((s.qp v.qp).map fun q => !q.sends.isEmpty).getD false
  | none => false

/-- FILL_REQUEST_RECEIVED: the plan and every chunk from the one asked for; RNR while the part is TAKEN or serves another fill (R340,
R341). A chunk that cannot be read ends the serving: the spare asks again (DEDUCED, assumption 45). -/
def execFillRequestReceived (qp : Nat) (request : List Byte) (s : State) : Host.Outcome State Fault Refusal :=
  .next (if ¬ s.headIs qp request ∨ request.length ≠ 64 ∨ request.take 4 = ascii "KVSD" ∨ fieldAt request 9 1 ≠ 3 then s
    else match s.qp qp with
    | none => s
    | some q =>
      let n := q.owner
      if ¬ s.keepQp n qp then s
      else if s.spare.state = .taken ∨ s.servesOther qp then s.rnrMsg qp
      else
        let plan := s.planBytes n
        let s := (s.takeMsg qp 0).postHeld qp none keepTag (pieceHeader 0 0 0 3 0xFFFF_FFFF plan.length [] ++ plan)
        let chunks := (((planChunks (planOf plan)).zipIdx).drop (fieldAt request 12 4))
        let step (a : State × Bool) (x : (TensorEntry × Nat × Nat) × Nat) : State × Bool :=
          let (t, va, len) := x.1
          if a.2 then a
          else match a.1.touch n [] va len accR false with
            | .error (f, e) => (a.1.faultRecord n (mkFault f e 9 0 accR 0 0 0), true)
            | .ok s =>
              match s.badRange n [] va len with
              | some pa => ((s.faultRecord n (mkFault .media va 9 0 accR 0 0 0)).logMedia n pa, true)
              | none =>
                let bs := s.vread n [] va len
                (s.postHeld qp none keepTag (pieceHeader t.layer t.tensor 0 3 x.2 t.bytes (chunkLeaf bs) ++ bs), false)
        let s := (chunks.foldl step (s, false)).1
        { s with spare := { s.spare with serve := some { qp := qp, sent := chunks.length } } })

/-- A fill ends: its command, and the spare's state where it is whole. -/
def State.endFill (s : State) (f : Fill) (e : Ending) : State :=
  let sp := { s.spare with fill := none }
  ({ s with spare := if e.status = .done then { sp with state := .active, cursor := none } else sp } : State).updCmd f.queue f.seq
    fun x => { x with phase := .finished e }

/-- The plan has come: the fill goes on at its cursor where the plan is the one it began with, and else restarts at chunk 0 (R341). -/
def State.fillPlan (s : State) (f : Fill) (plan : List Byte) : State :=
  let digest := sha256 plan
  let entries := (planOf plan).map fun t => (t.base, t.bytes)
  let total := (planChunks (planOf plan)).length
  let f := { f with plan := some entries }
  let put (cursor : Nat) (s : State) : State :=
    let s : State := { s with spare := { s.spare with fill := some f, cursor := some (cursor, digest) } }
    if total ≤ cursor then s.endFill f (Ending.ok total 0)
    else s.updCmd f.queue f.seq fun x => { x with cursor := cursor }
  match s.spare.cursor with
  | some (k, d) =>
    if d = digest then put k s
    else ((put 0 s).logEvent 0x0702 9 0 f.context s.fabric.node k).postHeld f.qp none keepTag (fillRequest 0)
  | none => put 0 s

/-- FILL_CHUNK_RECEIVED: the plan, or the next chunk, written at its BASE and checked against its leaf (R340). Chunks out of turn are
passed over (DESIGN CHOICE, assumption 45). -/
def execFillChunkReceived (qp : Nat) (chunk : List Byte) (s : State) : Host.Outcome State Fault Refusal :=
  .next (match s.spare.fill with
    | none => if ¬ s.headIs qp chunk ∨ s.qpHeld qp then s else s.takeMsg qp 0
    | some f =>
      if f.qp ≠ qp ∨ ¬ s.headIs qp chunk ∨ fieldAt chunk 9 1 ≠ 3 then s
      else
        let s := s.takeMsg qp 0
        let i := fieldAt chunk 12 4
        let bs := chunk.drop 64
        if i = 0xFFFF_FFFF then s.fillPlan f bs
        else match f.plan, s.spare.cursor with
          | some entries, some (cursor, digest) =>
            let all := entries.flatMap fun e => (List.range (ceilDiv e.2 chunkSize)).map fun j => (e.1 + chunkSize * j, min chunkSize (e.2 - chunkSize * j))
            (match all[cursor]? with
             | none => s
             | some (va, len) =>
               if i ≠ cursor ∨ bs.length ≠ len then s
               else
                 let writable := ((Kv.get f.context s.ctxs).map fun c =>
                   c.allocs.any fun a => a.write && decide (a.base ≤ va) && decide (va + len ≤ a.base + a.size)).getD false
                 if ¬ writable then s.endFill f (badField 68)
                 else match s.touch f.context [] va len accW false with
                   | .error (k, a) => (s.faultRecord f.context (mkFault k a 9 0 accW f.queue f.seq cursor)).endFill f (.fail k.status 68)
                   | .ok s =>
                     let s := s.vwrite f.context [] va bs
                     if chunkLeaf bs ≠ (chunk.drop 32).take 32 then
                       (if f.again then s.endFill f (.fail .checkMismatch 68)
                        else ({ s with spare := { s.spare with fill := some { f with again := true } } } : State).postHeld qp none keepTag
                          (fillRequest cursor))
                     else
                       let f := { f with again := false }
                       let s : State := { s with spare := { s.spare with fill := some f, cursor := some (cursor + 1, digest) } }
                       let s := s.updCmd f.queue f.seq fun x => { x with cursor := cursor + 1 }
                       if cursor + 1 = all.length then s.endFill f (Ending.ok all.length 0) else s)
          | _, _ => s)

/-- PASS_THROUGH_FRAME: the PASS pair of a spare that has not been promoted (R268, R269). -/
def execPassThroughFrame (port : Nat) (frame : List Byte) (s : State) : Host.Outcome State Fault Refusal :=
  .next (if s.spare.state = .standby ∨ s.spare.state = .awake then s.passThrough port frame else s)

end Sys2Proof.Machine
end

