-- ==== Sys2Proof/Machine/Contexts.lean ====
section
/-! DEFINITION. Contexts and queues: how a command is pre-empted (R184, R342, R412), class 0x01 (R182 to R185, R212), and
residence (R214 to R216). -/

namespace Sys2Proof.Machine

/-! ### Pre-emption (R184) -/

/-- A command's tile leaves a Stipple unit, and its registers go with it (R73). -/
def StippleUnit.drop (u : StippleUnit) (q seq : Nat) : StippleUnit :=
  if u.tile.any fun t => decide (t.queue = q ∧ t.seq = seq) then .empty else u

/-- Drop a command's tiles, items and units from a plate. -/
def Plate.drop (x : Plate) (q seq : Nat) : Plate :=
  { x with
    units := x.units.filter fun u => ¬ (u.queue = q ∧ u.seq = seq)
    begun := x.begun.filter fun b => b ≠ (q, seq)
    tray := x.tray.filter fun t => ¬ (t.tile.queue = q ∧ t.tile.seq = seq)
    stipples := x.stipples.map fun u => u.drop q seq
    arrays := x.arrays.map fun a => a.drop q seq }

/-- Count stalled ACLK of a plate: how many they were is open (R60, R400). -/
def State.countStall (s : State) (n : Nat) : State :=
  let (v, s) := s.draw 32
  s.updPlate n fun x => { x with counts := x.counts.set 1 ((x.counts.getD 1 0 + v) % 2 ^ 64) }

/-- A stall of a plate is over: the arrays start again, and its clocks are counted (R60). -/
def State.endStall (s : State) (n : Nat) : State :=
  match Kv.get n s.plates with
  | none => s
  | some x =>
    if x.arrays.any (·.stalled) then
      (s.countStall n).updPlate n fun x => { x with arrays := x.arrays.map fun a => { a with stalled := false } }
    else s

/-- Take a command off every plate; where it held a tile or an item, a stall of that plate ends. -/
def State.dropPlates (s : State) (q seq : Nat) : State :=
  let held := (s.plates.filter fun e => (e.2.tray.any fun t => decide (t.tile.queue = q ∧ t.tile.seq = seq)) ||
    e.2.arrays.any fun a => a.item.any fun i => decide (i.queue = q ∧ i.seq = seq)).map (·.1)
  let s := held.foldl (fun (s : State) n => s.endStall n) s
  { s with plates := s.plates.map fun e => (e.1, e.2.drop q seq) }

/-- Drop a command's units from a router. -/
def Router.drop (x : Router) (q seq : Nat) : Router := { x with units := x.units.filter fun u => ¬ (u.queue = q ∧ u.seq = seq) }

/-- Drop a command from a queue pair: its posted receive, its armed request, and its name on requests already accepted. -/
def Qp.drop (x : Qp) (q seq : Nat) : Qp :=
  { x with
    recvs := x.recvs.filter fun w => w ≠ (q, seq)
    armed := x.armed.filter fun a => ¬ (a.queue = q ∧ a.seq = seq)
    sends := x.sends.map fun r => if r.cmd = some (q, seq) then { r with cmd := none } else r }

/-- Drop a feed from a stream. -/
def EStream.drop (x : EStream) (q seq : Nat) : EStream :=
  { x with
    feeds := x.feeds.filter fun f => ¬ (f.queue = q ∧ f.seq = seq)
    closing := x.closing.filter fun w => w ≠ (q, seq) }

/-- Take a command out of every engine, at a point between its units. -/
def State.unhook (s : State) (c : Cmd) : State :=
  let q := c.queue
  let k := c.seq
  let n := (c.view s).ctx
  let s := match c.fault with
    | some f => s.closeFault n f
    | none => s
  let s := s.dropPlates q k
  { s with
    routers := s.routers.map fun e => (e.1, e.2.drop q k)
    stylus := { s.stylus with qps := s.stylus.qps.map fun e => (e.1, e.2.drop q k) }
    buckets := s.buckets.filter fun b => ¬ (b.queue = q ∧ b.seq = k)
    streams := s.streams.map fun e => (e.1, e.2.drop q k)
    spare := { s.spare with
      fill := s.spare.fill.filter fun f => !(decide (f.queue = q) && decide (f.seq = k))
      promoting := s.spare.promoting.filter fun w => !(decide (w.1 = q) && decide (w.2.1 = k)) } }

/-- A command stops before its end: its signal and flag are not applied (R184, R342). -/
def State.preempt (s : State) (c : Cmd) (e : Ending) : State :=
  (s.unhook c).updCmd c.queue c.seq fun x =>
    { x with phase := .finished e, quiet := true, work := .none, fault := none, hostWait := none }

/-- The ending of a cancelled command: its cursor in RESULT1 (R184). -/
def preempted (c : Cmd) : Ending := { status := .preempted, r1 := c.cursor % 2 ^ 32 }

/-- The ending of a command that stops before its end: a numbered one of an older placement epoch has become stale (R184, R342). -/
def State.stopEnding (s : State) (c : Cmd) : Ending :=
  if numbered c.pkt.opcode ∧ c.pkt.par 12 2 ≠ s.placement then .fail .epochStale 76 else preempted c

/-- Is the command one of a plate or a router. -/
def Cmd.onPlate (c : Cmd) : Bool := c.pkt.plate?.isSome || c.pkt.tile?.isSome

/-- Has a Stylus request of the command been matched or accepted. -/
def State.inMessage (s : State) (c : Cmd) : Bool :=
  s.stylus.qps.any fun e => (e.2.sends.any fun r => decide (r.cmd = some (c.queue, c.seq))) || e.2.messages.any fun m => decide (m.cmd = some (c.queue, c.seq))

/-- Is a running command of an I/O engine between units, so that it stops now. A message that Stylus has accepted or matched is one
unit (DEDUCED, assumption 46). -/
def State.stopsNow (s : State) (c : Cmd) : Bool :=
  decide (c.phase = .running) && !c.onPlate &&
  (if c.pkt.opcode = 0x0704 ∨ c.pkt.opcode = 0x0705 ∨ c.pkt.opcode = 0x0706 then !s.inMessage c
   else decide (c.pkt.opcode ∉ [0x0102, 0x0105, 0x0106, 0x0202, 0x0B03, 0x0C03, 0x0C04, 0x0C06]) && (match c.work with
     | .sending _ => false
     | _ => true))

/-- Cancelled commands stop where they may: I/O-engine commands between units; of the commands not started, the first one left of each
group, behind which the group ends (R177, R184). -/
def State.cancelNow (s : State) : State :=
  let due := s.cmds.filter fun c => c.cancel && (s.stopsNow c || (decide (c.phase = .admitted) &&
    !(s.cmds.any fun d => decide (d.queue = c.queue ∧ d.group = c.group ∧ d.seq < c.seq))))
  due.foldl (fun (s : State) c => s.preempt c (s.stopEnding c)) s

/-! ### Destroying a context (R185, R206, R223, R312) -/

/-- The frames that the frame map lists for a context. -/
def State.framesOf (s : State) (n : Nat) : List Nat := (s.mem.owners.filter fun e => decide (e.2 = .context n)).map (·.1)

/-- A manifest loses its context: it stays only under an installed epoch (R312). -/
def State.orphanManifests (s : State) (n : Nat) : State :=
  (s.manifests.filter fun e => decide (e.2.owner = some n)).foldl (fun s e =>
    if s.epochs.any fun x => decide (x.2.manifest = e.1) then
      { s with manifests := Kv.upd e.1 (fun m => { m with owner := none }) s.manifests }
    else s.unloadManifest e.1) s

/-- A context is gone: its frames are freed, its key is zeroised, its translations are dropped. The frames being filled. -/
def State.destroyCtx (s : State) (n : Nat) : State × List Nat :=
  let (s, slow) := s.releaseFrames (s.framesOf n)
  let s := ((s.orphanManifests n).dropKey n).updMem fun m => { m with tlb := m.tlb.filter fun t => t.context ≠ n }
  ({ s with
    ctxs := Kv.del n s.ctxs
    buckets := s.buckets.filter fun b => b.context ≠ n
    plates := s.plates.map fun e => (e.1, if e.2.ctx = some n then { e.2 with ctx := none } else e.2)
    routers := s.routers.map fun e => (e.1, if e.2.ctx = some n then { e.2 with ctx := none } else e.2) }, slow)

/-! ### Contexts (R183, R185) -/

/-- The dispatch window in ACLK (R143). -/
def State.dispatchWindow (s : State) : Nat := 700 * s.strk.period - 1400

/-- A context as CONTEXT_CREATE defines it. -/
def newCtx (admin debug : Bool) (mask layers root seed budget limit : Nat) : Ctx :=
  { admin := admin, debug := debug, plateMask := mask, layers := layers, root := root, seed := seed, budget := budget, faultLimit := limit,
    slot := none, lastActive := 0, allocs := [], windows := List.replicate 4 { va := 0, epoch := 0, manifest := 0, sizeGib := 0, valid := false },
    step := 0, stepSeen := false, overridden := false, dwBound := [], ring := { nextFseq := 1, lost := 0, slots := [], opened := [] },
    descs := [], groups := [], ledger := none, policy := [], stats := [], xhSteps := [], arrivals := [], arrivalsLost := 0,
    counts := List.replicate 6 0, waitingSince := none, waitLogged := false }

/-- The shortest of the present period and the pending ones (R139). -/
def State.leastPeriod (s : State) : Nat := (s.strk.changes.map (·.period)).foldl min s.strk.period

/-- The smallest dispatch window among the present period and the pending ones: what budgets are checked against (R139, R142). -/
def State.leastWindow (s : State) : Nat := 700 * s.leastPeriod - 1400

/-- Check CONTEXT_CREATE (R183, R212). -/
def State.checkContextCreate (s : State) (p : Packet) : Check := do
  let k := p.at 64 2
  ensure (decide (k < 4096) || decide (k = 0xFFFF)) (badField 64)
  ensure (decide (k = 0xFFFF) || !Kv.has k s.ctxs) (conflict scContextExists)
  ensure (decide (k ≠ 0xFFFF) || (Kv.lowestFree 1 4095 s.ctxs).isSome) (.fail .noResource 64)
  ensure (decide (1 ≤ p.at 66 2) && decide (p.at 66 2 ≤ 4096)) (badField 66)
  ensure (decide (p.at 68 2 ≠ 0) && decide (p.at 68 2 < 2 ^ s.plateCount)) (badField 68)
  ensure (decide (p.at 70 1 < 4)) (badField 70)
  zeroBytes p 71 71
  ensure (decide (p.at 72 8 % 4096 = 0) && inTablePool (p.at 72 8)) (badField 72)
  ensure (decide (p.at 88 4 = 0) || (decide (1024 ≤ p.at 88 4) && decide (p.at 88 4 ≤ s.leastWindow))) (badField 88)
  ensure (decide (p.at 92 4 ≤ 2 ^ 24)) (badField 92)
  zeroBytes p 96 111

/-- CONTEXT_CREATE: the context, and its DDR key through class KEY (R183, R223, R392). -/
def execContextCreate (p : Packet) (s : State) : Host.Outcome State Fault Refusal :=
  .next (s.forOp p 0x0101 (s.runProof p clsKey fun s _ _ => do
    s.checkContextCreate p
    let k := if p.at 64 2 = 0xFFFF then (Kv.lowestFree 1 4095 s.ctxs).getD 0 else p.at 64 2
    let c := newCtx (bitOf (p.at 70 1) 0) (bitOf (p.at 70 1) 1) (p.at 68 2) (p.at 66 2) (p.at 72 8) (p.at 80 8) (p.at 88 4)
      (if p.at 92 4 = 0 then 5000 else p.at 92 4)
    return (({ s with ctxs := Kv.set k c s.ctxs } : State).newKey k, Ending.ok k 0)))

/-- The target of a context or queue command: defined, and the issuing context's own or named by ADMIN (R4, R182, R183). -/
def State.checkTarget (s : State) (n : Nat) (c : Ctx) (p : Packet) (queue : Bool) : Check := do
  let k := p.at 64 2
  if queue then do
    ensure (decide (k < 1024)) (badField 64)
    match Kv.get k s.queues with
    | none => .error (.fail .accessDenied 64)
    | some x => ensure (c.admin || decide (x.owner = n)) (.fail .accessDenied 64)
  else do
    ensure (decide (k < 4096)) (badField 64)
    ensure (Kv.has k s.ctxs && (c.admin || decide (k = n))) (.fail .accessDenied 64)

/-- Has a context a live queue, queue pair, open stream or running command (R185). -/
def State.contextBusy (s : State) (k : Nat) : Bool :=
  (s.queues.any fun e => decide (e.2.owner = k)) || (s.stylus.qps.any fun e => decide (e.2.owner = k)) ||
    (s.streams.any fun e => decide (e.2.owner = k)) || s.cmds.any fun d => decide ((d.view s).ctx = k)

/-- Check CONTEXT_DESTROY (R185). -/
def State.checkContextDestroy (s : State) (n : Nat) (c : Ctx) (p : Packet) : Check := do
  ensure (decide (p.at 64 2 ≠ 0)) (.fail .accessDenied 64)
  s.checkTarget n c p false
  zeroBytes p 66 79
  ensure (!s.contextBusy (p.at 64 2)) (conflict scContextBusy)

/-- CONTEXT_DESTROY completes after the zero-fill of the frames it frees (R185, R206). -/
def execContextDestroy (p : Packet) (s : State) : Host.Outcome State Fault Refusal :=
  .next (s.forOp p 0x0102 (match s.startable p with
    | none => s
    | some c => match s.ctxOf c with
      | none => s
      | some x => match s.checkContextDestroy (c.view s).ctx x p with
        | .error e => s.finish c e
        | .ok _ =>
          let (s, slow) := s.destroyCtx (p.at 64 2)
          s.awaitFill c slow (Ending.ok 0 0)))

/-- CONTEXT_QUERY (R182). -/
def execContextQuery (p : Packet) (s : State) : Host.Outcome State Fault Refusal :=
  .next (s.forOp p 0x0103 (s.runNow p fun s c x => do
    s.checkTarget (c.view s).ctx x p false
    zeroBytes p 66 79
    let k := p.at 64 2
    match Kv.get k s.ctxs with
    | none => .error (.fail .accessDenied 64)
    | some t =>
      let live := (s.queues.filter fun e => decide (e.2.owner = k)).length
      return (s, Ending.ok (live * 65536 + 4 * b2n t.debug + 2 * b2n t.admin + b2n t.slot.isSome) t.ring.opened.length)))

/-! ### Queues (R156, R183, R184, R185) -/

/-- STATE's code (R162). -/
def QueueState.code : QueueState → Nat
  | .unused => 0 | .active => 1 | .stalled => 2 | .stopped => 3

/-- A ring: in one pinned allocation of the owner, with the right (R156). -/
def Ctx.ringOk (c : Ctx) (base bytes : Nat) (write : Bool) : Bool :=
  decide (base % 4096 = 0) && (c.allocs.any fun a => decide (a.base ≤ base) && decide (base + bytes ≤ a.base + a.size) && (!write || a.write)) &&
    c.allPinned base bytes

/-- Check QUEUE_CREATE (R156, R183, R233). -/
def State.checkQueueCreate (s : State) (n : Nat) (c : Ctx) (p : Packet) : Check := do
  let k := p.at 64 2
  ensure (decide (k < 1024) || decide (k = 0xFFFF)) (badField 64)
  ensure (decide (k = 0xFFFF) || !Kv.has k s.queues) (conflict scQueueExists)
  ensure (decide (k ≠ 0xFFFF) || (Kv.lowestFree 1 1023 s.queues).isSome) (.fail .noResource 64)
  ensure (decide (p.at 66 2 < 4096)) (badField 66)
  ensure (decide (p.at 66 2 = n) || c.admin) (.fail .accessDenied 66)
  match Kv.get (p.at 66 2) s.ctxs with
  | none => .error (.fail .accessDenied 66)
  | some o =>
    let sq := p.at 68 1
    let cq := p.at 69 1
    ensure (decide (6 ≤ sq) && decide (sq ≤ 16)) (badField 68)
    ensure (decide (6 ≤ cq) && decide (cq ≤ 16)) (badField 69)
    ensure (decide (p.at 70 2 < 2048) || decide (p.at 70 2 = 0xFFFF)) (badField 70)
    notInline p 72
    ensure (o.ringOk (p.at 72 8) (64 * 2 ^ sq) false) (.fail .descRange 72)
    notInline p 80
    ensure (o.ringOk (p.at 80 8) (32 * 2 ^ cq) true && !rangesOverlap [(p.at 72 8, 64 * 2 ^ sq)] [(p.at 80 8, 32 * 2 ^ cq)]) (.fail .descRange 80)
    ensure (s.host.coherent || (match s.paOf (p.at 66 2) [] (p.at 80 8) with
      | some a => decide (s.region a = .host)
      | none => true)) (badField 80)
    ensure (decide (p.at 88 4 ≤ 2 ^ 24)) (badField 88)
    zeroBytes p 92 95

/-- QUEUE_CREATE (R156, R183). -/
def execQueueCreate (p : Packet) (s : State) : Host.Outcome State Fault Refusal :=
  .next (s.forOp p 0x0104 (s.runNow p fun s c x => do
    s.checkQueueCreate (c.view s).ctx x p
    let k := if p.at 64 2 = 0xFFFF then (Kv.lowestFree 1 1023 s.queues).getD 0 else p.at 64 2
    let q := newQueue (p.at 66 2) (p.at 72 8) (p.at 68 1) (p.at 80 8) (p.at 69 1) (if p.at 88 4 = 0 then 50000 else p.at 88 4)
      (if p.at 70 2 = 0xFFFF then none else some (p.at 70 2))
    return ({ s with queues := Kv.set k q s.queues, dbUnused := Kv.del k s.dbUnused }, Ending.ok k 0)))

/-- Check QUEUE_DESTROY (R185). -/
def State.checkQueueDestroy (s : State) (n : Nat) (c : Ctx) (p : Packet) : Check := do
  ensure (decide (p.at 64 2 ≠ 0)) (.fail .accessDenied 64)
  s.checkTarget n c p true
  zeroBytes p 66 79
  ensure (!(s.cmds.any fun d => decide (d.queue = p.at 64 2) && decide (d.phase ≠ .visible)) &&
    !((Kv.get (p.at 64 2) s.queues).any fun q => q.drain.isSome)) (conflict scQueueBusy)

/-- QUEUE_DESTROY completes when the queue is gone (R174, R185). -/
def execQueueDestroy (p : Packet) (s : State) : Host.Outcome State Fault Refusal :=
  .next (s.forOp p 0x0105 (match s.startable p with
    | none => s
    | some c => match s.ctxOf c with
      | none => s
      | some x => match s.checkQueueDestroy (c.view s).ctx x p with
        | .error e => s.finish c e
        | .ok _ => (s.begin c .none).closeQueue (p.at 64 2) (some (c.queue, c.seq))))

/-- Queue 0 is started and stopped through ENABLE only: no command may (R185; the status is a DESIGN CHOICE, assumption 157). -/
def notQueue0 (p : Packet) : Check := ensure (decide (p.at 64 2 ≠ 0)) (.fail .accessDenied 64)

/-- Check QUEUE_DRAIN (R183, R184): that the target is not the issuing queue is a check of MODE's row. -/
def State.checkQueueDrain (s : State) (n : Nat) (c : Ctx) (p : Packet) : Check := do
  notQueue0 p
  s.checkTarget n c p true
  ensure (decide (p.at 66 1 ≤ 1) && decide (p.at 64 2 ≠ p.queue)) (badField 66)
  zeroBytes p 67 79
  ensure (decide ((Kv.get (p.at 64 2) s.queues).map (·.state) ≠ some .stopped)) (conflict scQueueStopped)

/-- QUEUE_DRAIN stops its target; it completes with the target's last admitted command (R184). -/
def execQueueDrain (p : Packet) (s : State) : Host.Outcome State Fault Refusal :=
  .next (s.forOp p 0x0106 (match s.startable p with
    | none => s
    | some c => match s.ctxOf c with
      | none => s
      | some x => match s.checkQueueDrain (c.view s).ctx x p with
        | .error e => s.finish c e
        | .ok _ =>
          let t := p.at 64 2
          let cancel := decide (p.at 66 1 = 1)
          let s := (s.begin c .none).updQueue t fun q => { q with state := .stopped, drain := some { waiter := some (c.queue, c.seq), cancel := cancel, destroy := false, cancelled := 0 } }
          let s : State := if cancel then
              { s with cmds := s.cmds.map fun d => if d.queue = t ∧ d.phase ≠ .visible then { d with cancel := true } else d }
            else s
          (if cancel then s.cancelNow else s).drainDone t))

/-- Check QUEUE_START (R183, R185). -/
def State.checkQueueStart (s : State) (n : Nat) (c : Ctx) (p : Packet) : Check := do
  notQueue0 p
  s.checkTarget n c p true
  zeroBytes p 66 79

/-- A STOPPED queue returns to ACTIVE, unless it is going (assumption 156). -/
def Queue.start (q : Queue) : Queue :=
  if q.state = .stopped ∧ ¬ q.drain.any (·.destroy) then { q with state := .active, rereads := 0 } else q

/-- QUEUE_START returns a STOPPED queue to ACTIVE and retries what its rings hold (R184, R452). -/
def execQueueStart (p : Packet) (s : State) : Host.Outcome State Fault Refusal :=
  .next (s.forOp p 0x0107 (s.runNow p fun s c x => do
    s.checkQueueStart (c.view s).ctx x p
    return ((s.updQueue (p.at 64 2) Queue.start).flush (p.at 64 2), Ending.ok 0 0)))

/-- QUEUE_QUERY: SQ_HEAD, STATE and the records held (R182). -/
def execQueueQuery (p : Packet) (s : State) : Host.Outcome State Fault Refusal :=
  .next (s.forOp p 0x0108 (s.runNow p fun s c x => do
    s.checkTarget (c.view s).ctx x p true
    zeroBytes p 66 79
    match Kv.get (p.at 64 2) s.queues with
    | none => .error (.fail .accessDenied 64)
    | some q => return (s, Ending.ok q.sqHead (q.state.code * 65536 + q.held.length))))

/-! ### Residence (R214 to R216) -/

/-- Has a context a visible group. -/
def State.hasVisible (s : State) (n : Nat) : Bool := s.cmds.any fun c => decide ((c.view s).ctx = n) && s.inWhole c

/-- Is a context active (R214). -/
def State.isActive (s : State) (n : Nat) : Bool :=
  (s.cmds.any fun c => decide ((c.view s).ctx = n) && (decide (c.phase ≠ .visible) || s.inWhole c)) ||
  (s.stylus.qps.any fun e => decide (e.2.owner = n) && !(e.2.recvs.isEmpty && e.2.armed.isEmpty && e.2.sends.isEmpty && e.2.messages.isEmpty)) ||
  (s.buckets.any fun b => decide (b.context = n)) || (s.streams.any fun e => decide (e.2.owner = n)) ||
  (((Kv.get n s.ctxs).map fun c => !c.ring.opened.isEmpty).getD false)

/-- A context leaves its slot: its translations and plates, and the residence of its queue pairs, are released (R214). -/
def State.evict (s : State) (n : Nat) : State :=
  let mine (k : Nat) : Bool := ((s.qp k).map fun q => decide (q.owner = n)).getD false
  let s := s.updCtx n fun c => { c with slot := none }
  { s.updMem fun m => { m with tlb := m.tlb.filter fun t => t.context ≠ n } with
    stylus := { s.stylus with chip := s.stylus.chip.filter fun k => !mine k }
    plates := s.plates.map fun e => (e.1, if e.2.ctx = some n then { e.2 with ctx := none } else e.2)
    routers := s.routers.map fun e => (e.1, if e.2.ctx = some n then { e.2 with ctx := none } else e.2) }

/-- The lowest slot that no context holds; slot 0 is context 0's. -/
def State.freeSlot (s : State) : Option Nat := ((List.range 63).map (· + 1)).find? fun k => s.ctxs.all fun e => decide (e.2.slot ≠ some k)

/-- The contexts of a list that a rule picks first: by a key, and by the lower number where keys are equal. -/
def firstBy (key : Ctx → Nat) (l : List (Nat × Ctx)) : Option (Nat × Ctx) :=
  l.foldl (fun (a : Option (Nat × Ctx)) e => match a with
    | none => some e
    | some b => if key e.2 < key b.2 ∨ (key e.2 = key b.2 ∧ e.1 < b.1) then some e else a) none

/-- The residence changes of a boundary: k more may follow (R214). -/
def State.changeResidence (s : State) : Nat → State
  | 0 => s
  | k + 1 =>
    match firstBy (fun c => c.waitingSince.getD 0) (s.ctxs.filter fun e => e.2.slot.isNone && s.hasVisible e.1) with
    | none => s
    | some (n, _) =>
      match s.freeSlot with
      | some slot => (s.updCtx n fun c => { c with slot := some slot, waitingSince := none, waitLogged := false }).changeResidence k
      | none =>
        match firstBy (fun c => c.lastActive) (s.ctxs.filter fun e =>
          decide (e.1 ≠ 0) && e.2.slot.isSome && !s.isActive e.1 && decide (e.2.lastActive + 16 ≤ s.strk.now)) with
        | none => s
        | some (m, _) => (s.evict m).changeResidence k

/-- Action of a boundary: LAST_ACTIVE, the waits for residence, and at most eight changes (R214, R216). -/
def State.residence (s : State) : State :=
  let now := s.strk.now
  let touch (n : Nat) (c : Ctx) : Ctx :=
    let c := if s.isActive n then { c with lastActive := now } else c
    if c.slot.isNone ∧ s.hasVisible n then { c with waitingSince := some (c.waitingSince.getD now) }
    else { c with waitingSince := none, waitLogged := false }
  let s : State := { s with
    ctxs := s.ctxs.map fun e => (e.1, touch e.1 e.2)
    cmds := s.cmds.map fun c => if s.inWhole c then { c with firstBoundary := some (c.firstBoundary.getD now) } else c }
  s.changeResidence 8

/-- RESIDENCE_WAIT: one entry for a context that has waited 1,000 strokes (R216). -/
def execResidenceWait (context : Nat) (s : State) : Host.Outcome State Fault Refusal :=
  .next (match Kv.get context s.ctxs with
    | none => s
    | some c =>
      match c.waitingSince with
      | none => s
      | some t => if c.slot.isSome ∨ c.waitLogged ∨ s.strk.now < t + 1000 then s
        else
          let q := ((s.cmds.find? fun d => decide ((d.view s).ctx = context) && s.inWhole d).map (·.queue)).getD 0
          (s.updCtx context fun c => { c with waitLogged := true }).logEvent 0x0304 10 0 context q (s.strk.now - t))

/-- RESIDENCE_TIMEOUT: the context of a visible group has not become resident within WAIT_LIMIT (R216). -/
def execResidenceTimeout (queue : Nat) (s : State) : Host.Outcome State Fault Refusal :=
  .next (match Kv.get queue s.queues with
    | none => s
    | some x =>
      let waits := ((Kv.get x.owner s.ctxs).map fun o => o.slot.isNone).getD false
      let due (c : Cmd) : Bool := c.firstBoundary.any fun f => decide (f + x.waitLimit ≤ s.strk.now)
      match (s.visibleGroups queue).find? fun g => g.head?.any due with
      | some g => if waits then s.expireGroup g (.fail .timeout 16) else s
      | none => s)

/-- A context's 128-byte entry of the context table (R212). -/
def ctxEntry (n : Nat) (c : Ctx) : List Byte :=
  let win (w : Window) : List Byte := leBytes 6 w.va ++ leBytes 2 w.epoch ++ leBytes 2 w.manifest ++ leBytes 2 w.sizeGib ++ leBytes 1 (b2n w.valid) ++ zeros 3
  leBytes 2 n ++ leBytes 1 (if c.slot.isSome then 2 else 1) ++ leBytes 1 (2 * b2n c.debug + b2n c.admin) ++ leBytes 2 c.plateMask ++
    leBytes 2 c.layers ++ leBytes 8 c.root ++ leBytes 8 c.seed ++ leBytes 4 c.budget ++ leBytes 4 c.faultLimit ++
    leBytes 1 (c.slot.getD 0xFF) ++ zeros 3 ++ leBytes 4 c.allocs.length ++ leBytes 6 c.lastActive ++ zeros 18 ++ c.windows.flatMap win

end Sys2Proof.Machine
end

