-- ==== Sys2Proof/Machine/Fields.lean ====
section
/-! DEFINITION. Fields: the parameter fields of TRACER, ROUTE and the attention commands (R191 to R193). -/

namespace Sys2Proof

/-! ### Fields of TRACER (R192) -/

/-- OP: 0 COPY, 1 GATHER, 2 SCATTER, 3 RESIZE. -/
def Packet.trOp (p : Packet) : Nat := p.par 16 1
/-- TRANSPOSE. -/
def Packet.trSwap (p : Packet) : Bool := bitOf (p.par 18 1) 0
/-- Range mode ZERO. -/
def Packet.trZero (p : Packet) : Bool := bitOf (p.par 18 1) 1
/-- PAD_OUT. -/
def Packet.trPad (p : Packet) : Bool := bitOf (p.par 18 1) 2
/-- BILINEAR. -/
def Packet.trLinear (p : Packet) : Bool := bitOf (p.par 18 1) 3
/-- SCATTER_MODE: 0 OVERWRITE, 1 ACCUMULATE, 2 ACCUMULATE_UNORDERED. -/
def Packet.trMode (p : Packet) : Nat := p.par 19 1
/-- UNIT_ROWS. -/
def Packet.unitRows (p : Packet) : Nat := p.par 36 4
/-- UNIT_COLS. -/
def Packet.unitCols (p : Packet) : Nat := p.par 40 4

/-! ### Fields of ROUTE (R193) -/

/-- K. -/
def Packet.rtK (p : Packet) : Nat := p.at 65 1
/-- E. -/
def Packet.rtE (p : Packet) : Nat := p.at 66 2
/-- C. -/
def Packet.rtC (p : Packet) : Nat := p.at 72 4
/-- TOPK_SOFTMAX. -/
def Packet.rtTopk (p : Packet) : Bool := bitOf (p.at 68 1) 0
/-- SCORE. -/
def Packet.rtScore (p : Packet) : Bool := bitOf (p.at 68 1) 1
/-- NEXT_FREE. -/
def Packet.rtNext (p : Packet) : Bool := bitOf (p.at 68 1) 2
/-- PACKED. -/
def Packet.rtPacked (p : Packet) : Bool := bitOf (p.at 68 1) 3

/-! ### Fields of the attention commands (R191) -/

/-- CAUSAL. -/
def Packet.aqCausal (p : Packet) : Bool := bitOf (p.at 81 1) 0
/-- Query rows of a block. -/
def Packet.aqBq (p : Packet) : Nat := 64 * 2 ^ p.at 82 1
/-- Key rows of a block. -/
def Packet.aqBk (p : Packet) : Nat := 64 * 2 ^ p.at 83 1
/-- H. -/
def Packet.aqH (p : Packet) : Nat := p.at 84 2
/-- HKV. -/
def Packet.aqHkv (p : Packet) : Nat := p.at 86 2
/-- DH. -/
def Packet.aqDh (p : Packet) : Nat := p.at 88 2
/-- H0. -/
def Packet.aqH0 (p : Packet) : Nat := p.at 90 2
/-- NH. -/
def Packet.aqNh (p : Packet) : Nat := p.at 92 2
/-- LQ. -/
def Packet.aqLq (p : Packet) : Nat := p.at 96 4
/-- LK. -/
def Packet.aqLk (p : Packet) : Nat := p.at 100 4
/-- First query block. -/
def Packet.aqQ0 (p : Packet) : Nat := p.at 104 4
/-- Query blocks. -/
def Packet.aqNq (p : Packet) : Nat := p.at 108 4
/-- First key block. -/
def Packet.aqK0 (p : Packet) : Nat := p.at 112 4
/-- Key blocks. -/
def Packet.aqNk (p : Packet) : Nat := p.at 116 4
/-- Query heads of a key-value head. -/
def Packet.aqGroup (p : Packet) : Nat := p.aqH / max 1 p.aqHkv
/-- Query blocks of a head. -/
def Packet.aqQBlocks (p : Packet) : Nat := ceilDiv p.aqLq p.aqBq
/-- Key blocks of a head. -/
def Packet.aqKBlocks (p : Packet) : Nat := ceilDiv p.aqLk p.aqBk

end Sys2Proof
end

