-- ==== Sys2Proof/Machine/Timing.lean ====
section
/-! DEFINITION. Timing: the indivisible units of plate and Stencil commands, how many a command has, and their times under R63, R80, R100,
R116 and R137, from which firmware estimates a dispatch unit and the part its unit floor (R142, R143). -/

namespace Sys2Proof.Machine

/-! ### TRACER (R100, R101) -/

/-- The source's logical shape: stored, or padded, after any transpose (R88, R96). -/
def trShape (p : Packet) (src : Desc) : List Nat :=
  let sh := if p.trOp = 0 ∧ ¬ p.trPad then src.shape else src.paddedShape
  if p.trSwap then swapLast sh else sh

/-- The source index that a logical index names, before padding is taken off. -/
def trIndex (p : Packet) (idx : List Nat) : List Nat := if p.trSwap then swapLast idx else idx

/-- The source dimension that logical dimension i is. -/
def trDim (p : Packet) (rank i : Nat) : Nat :=
  if p.trSwap then (if i + 1 = rank then rank - 2 else if i + 2 = rank then rank - 1 else i) else i

/-- Low and high padding along dimension i. -/
def Desc.padAt (d : Desc) (i : Nat) : Nat × Nat :=
  let q := d.pads
  if i + 1 = d.rank then (q.getD 2 0, q.getD 3 0) else if i + 2 = d.rank then (q.getD 0 0, q.getD 1 0) else (0, 0)

/-- Does every block of the padded shape hold stored elements only or padding only (R89). -/
def Desc.blocksKeep (d : Desc) : Bool :=
  let (lo, hi) := d.padAt d.axis
  !d.fmt.isBlock || (decide (lo % d.block = 0) && (decide (hi = 0) || decide (d.shape.getD d.axis 0 % d.block = 0)))

/-- Does a COPY or a nearest RESIZE keep every element's value and its block membership, so that it moves codes and scales (R89): one format, and
in a block format one block size, one block axis that is not resized, and padding that shares no block with stored elements. -/
def copyMoves (p : Packet) (src dst : Desc) : Bool :=
  let axis := dst.axis
  let along := if p.trOp = 3 then decide (axis ∉ [p.par 44 1, p.par 45 1]) || decide (dst.shape.getD axis 0 = (trShape p src).getD axis 0) else true
  let padded := decide (p.trOp = 3) || p.trPad
  decide (p.trOp = 0 ∨ (p.trOp = 3 ∧ ¬ p.trLinear)) && decide (src.fmt = dst.fmt) &&
    (!src.fmt.isBlock || (decide (src.block = dst.block) && decide (trDim p dst.rank axis = src.axis) && along && (!padded || src.blocksKeep)))

/-- Bytes of one unit of a destination. -/
def Desc.unitBytes (d : Desc) : Nat :=
  match d.layout with
  | 0 => 4096
  | 1 => d.panelBytes
  | _ => 16384 * d.fmt.width / 8

/-- The data run's units. -/
def Desc.dataUnits (d : Desc) : Nat := ceilDiv d.extent d.unitBytes

/-- Units of COPY and RESIZE: the data run, then the scale array's run (R101). -/
def Desc.unitCount (d : Desc) : Nat := d.dataUnits + ceilDiv d.scaleBytes 4096

/-- The bytes that unit u writes. -/
def Desc.unitWindow (d : Desc) (u : Nat) : Nat × Nat :=
  if u < d.dataUnits then (d.base + u * d.unitBytes, min d.unitBytes (d.extent - u * d.unitBytes))
  else (d.scaleBase + (u - d.dataUnits) * 4096, min 4096 (d.scaleBytes - (u - d.dataUnits) * 4096))

/-- The indexed tensor and the list-side tensor. -/
def trSides (p : Packet) (src dst : Desc) : Desc × Desc := if p.trOp = 1 then (src, dst) else (dst, src)

/-- Entries of the list. -/
def State.listLen (s : State) (v : View) (p : Packet) (rank : Nat) : Nat :=
  if p.par 28 4 = inlineHandle then p.inlineLen / (4 * rank) else ((s.desc v.ctx (p.par 28 4)).map fun d => d.paddedShape.getD 0 0).getD 0

/-- Bytes of a unit. -/
def unitSize (p : Packet) (d : Desc) : Nat :=
  let n := p.unitRows * p.unitCols
  ceilDiv (n * d.fmt.width) 8 + (if d.fmt.isBlock then ceilDiv n d.block else 0)

/-- Units of a TRACER command. -/
def State.tracerTotal (s : State) (v : View) (p : Packet) : Nat :=
  match s.desc v.ctx (p.par 20 4), s.desc v.ctx (p.par 24 4) with
  | some src, some dst => if p.trOp = 1 ∨ p.trOp = 2 then s.listLen v p (trSides p src dst).1.rank else dst.unitCount
  | _, _ => 0

/-- ACLK of unit u of a TRACER command (R100). A unit of the scale array converts every block whose scale it writes. -/
def State.tracerUnitTime (s : State) (v : View) (p : Packet) (u : Nat) : Nat :=
  match s.desc v.ctx (p.par 20 4), s.desc v.ctx (p.par 24 4) with
  | some src, some dst =>
    let t (rd wr conv : Nat) : Nat := max (max (ceilDiv rd 2048) (ceilDiv wr 2048)) (ceilDiv conv 1024)
    if p.trOp = 1 ∨ p.trOp = 2 then
      max 4 (t (unitSize p src + (if p.trMode = 0 then 0 else unitSize p dst)) (unitSize p dst) 0)
    else
      let wr := (dst.unitWindow u).2
      let elems := if u < dst.dataUnits then wr * 8 / dst.fmt.width else min dst.count (wr * dst.block)
      let rd := ceilDiv (elems * src.fmt.width * (if p.trLinear then 4 else 1)) 8 + (if src.fmt.isBlock then ceilDiv elems src.block else 0)
      let m := t rd wr (if copyMoves p src dst then 0 else elems)
      if p.trSwap ∧ (src.layout = 0 ∨ dst.layout = 0) then 2 * m else m
  | _, _ => 0

/-- ACLK of the scan that a FAULT-mode list command makes before its first write (R92, R100). -/
def State.scanTime (s : State) (v : View) (p : Packet) : Nat :=
  if (p.trOp = 1 ∨ p.trOp = 2) ∧ ¬ p.trZero then
    match s.desc v.ctx (p.par 20 4), s.desc v.ctx (p.par 24 4) with
    | some src, some dst =>
      let rank := (trSides p src dst).1.rank
      64 + ceilDiv (s.listLen v p rank * rank * 4) 2048
    | _, _ => 0
  else 0

/-- ACLK of n units of a TRACER command from unit `u`. -/
def State.tracerSpan (s : State) (v : View) (p : Packet) (u n : Nat) : Nat :=
  ((List.range n).map fun i => s.tracerUnitTime v p (u + i)).foldl (· + ·) (if u = 0 then s.scanTime v p else 0)

/-- ACLK of the largest unit of a TRACER command, with the scan: the first unit of each run is the largest of its run (R100, R142). -/
def State.tracerTime (s : State) (v : View) (p : Packet) : Nat :=
  let tail := match s.desc v.ctx (p.par 24 4) with
    | some dst => if p.trOp = 1 ∨ p.trOp = 2 ∨ dst.scaleBytes = 0 then 0 else s.tracerUnitTime v p dst.dataUnits
    | none => 0
  max (s.tracerUnitTime v p 0) tail + s.scanTime v p

/-! ### Stencil (R116) -/

/-- Tokens of a ROUTE or EXIT command. -/
def State.tokensOf (s : State) (v : View) (h : Nat) : Nat := ((s.desc v.ctx h).map fun d => d.paddedShape.getD 0 0).getD 0

/-- A block size code: 64, 128 or 256. -/
def blockSize (code : Nat) : Nat := 64 * 2 ^ code

/-- Units of a Stencil command: tokens, or block rows. -/
def State.stencilTotal (s : State) (v : View) (p : Packet) : Nat :=
  match p.opcode with
  | 0x0501 => s.tokensOf v (p.at 80 4)
  | 0x0502 => s.tokensOf v (p.at 72 4)
  | _ => ceilDiv (p.at 68 4) (blockSize (p.at 66 1))

/-- ACLK of n tokens or block rows of a Stencil command, with the fixed 64 (R116): every request of a NEXT_FREE route may be a retry. -/
def stencilTime (p : Packet) (n : Nat) : Nat :=
  64 + match p.opcode with
  | 0x0501 => n * ceilDiv p.rtE 128 + (if p.rtScore then n * p.rtK else ceilDiv (n * p.rtK) 4) + (if p.rtNext then n * p.rtK else 0)
  | 0x0502 => ceilDiv n 64
  | _ => ceilDiv (n * ceilDiv (p.at 72 4) (blockSize (p.at 67 1))) 64

/-! ### Attention (R137) -/

/-- Places of the key-major sweep. -/
def keySweep (p : Packet) : Nat := p.aqNh / max 1 p.aqGroup * p.aqNk * (p.aqGroup * p.aqQBlocks)

/-- Places that the cursor of an attention command counts through. -/
def aquatintTotal (p : Packet) : Nat :=
  match p.opcode with
  | 0x0303 => p.aqNh * p.aqNq * p.aqKBlocks
  | 0x0304 => p.aqNh * p.aqNq
  | _ => keySweep p + p.aqNh * p.aqNq * p.aqKBlocks

/-- ACLK of the largest pair of an attention command (R137). -/
def aquatintTime (p : Packet) : Nat :=
  let cb (x : Nat) : Nat := ceilDiv x 128
  let st := cb p.aqBq * cb p.aqBk
  let ot := cb p.aqBq * cb p.aqDh
  let partly := b2n (decide (p.at 132 4 ≠ 0))
  match p.opcode with
  | 0x0303 => max (ceilDiv (p.aqBq * cb p.aqBk + p.aqBq * cb p.aqDh) 12) (16 * ((5 + partly) * st + ot))
  | 0x0304 => 16 * (2 * ot)
  | _ => max (ceilDiv (2 * (p.aqBq * cb p.aqBk) + 2 * (p.aqBk * cb p.aqDh)) 12) (16 * ((6 + partly) * st))

/-! ### Tiles (R63, R80) -/

/-- MEM0's grid, a STIPPLE command's (R453). -/
def State.stippleGrid (s : State) (v : View) (p : Packet) : Nat × Nat := ((s.desc v.ctx (p.epi 12 4)).map Desc.grid).getD (0, 0)

/-- The grid of a stage of a tile command. -/
def State.tileGrid (s : State) (v : View) (p : Packet) (stage : Nat) : Nat × Nat :=
  if p.opcode = 0x0301 then s.stageDims v p (p.stages.getD stage .main) else s.stippleGrid v p

/-- Stages of a tile command. -/
def stageCount (p : Packet) : Nat := if p.opcode = 0x0301 then p.stages.length else 1

/-- The tiles of a command's work. -/
def Cmd.tiles (c : Cmd) : Option TileWork :=
  match c.work with
  | .tiles t => some t
  | _ => none

/-- Has every tile of every stage left the write stage. -/
def Cmd.tilesDone (c : Cmd) : Bool := c.tiles.any fun t => decide (stageCount c.pkt ≤ t.stage)

/-- How far a command has come, as a count that its units raise: tiles of a stage written, or the cursor. -/
def Cmd.progress (c : Cmd) : Nat :=
  match c.pkt.opcode, c.work with
  | 0x0301, .tiles t | 0x0302, .tiles t => t.stage * 2 ^ 40 + t.written.length
  | _, _ => c.cursor

/-- The tiles of the present stage for which `gone` is false, in order. -/
def State.tilesLeft (s : State) (c : Cmd) (gone : TileWork → List Nat) : List Nat :=
  match c.tiles with
  | none => []
  | some t =>
    let (rows, cols) := s.tileGrid (c.view s) c.pkt t.stage
    if stageCount c.pkt ≤ t.stage then [] else (List.range (tileCount rows cols)).filter fun i => decide (i ∉ gone t)

/-- Chunk and column block of a tile of a grid. -/
def tileItem (cols i : Nat) : Nat × Nat :=
  let tw := max 1 (ceilDiv cols 128)
  (i / tw / 2, i % tw)

/-- The work items of a LINEAR command's present stage that are not written whole, in order. -/
def State.itemsLeft (s : State) (c : Cmd) : List (Nat × Nat) :=
  let cols := (s.tileGrid (c.view s) c.pkt ((c.tiles.map (·.stage)).getD 0)).2
  ((s.tilesLeft c (·.written)).map (tileItem cols)).eraseDups

/-- ACLK on one array of a run of items of a product, each (chunk, block): Lw' of an item's last pass is the load of the first bank of the
array's next item, 0 where that is the bank it holds or where none follows (R63). -/
def Product.runTime (q : Product) : List (Nat × Nat) → Nat
  | [] => 0
  | i :: rest =>
    let next := match rest.head? with
      | some j => if q.passes = 1 ∧ i.2 = j.2 then 0 else q.loadTime 0
      | none => 0
    q.itemTime (q.chunk i.1).2 next + q.runTime rest

/-- ACLK of the first n items of a list on a plate, dealt to its twelve arrays in turn: the busiest array, or the plate's Stipple units where
they take longer (R63, R80). -/
def itemsTime (q : Product) (cost : Nat) (items : List (Nat × Nat)) : Nat :=
  let share (a : Nat) : List (Nat × Nat) := (items.zipIdx.filter fun x => x.2 % 12 = a).map (·.1)
  let burin := ((List.range 12).map fun a => q.runTime (share a)).foldl max 0
  let tiles := (items.map fun i => ceilDiv (q.chunk i.1).2 128).foldl (· + ·) 0
  q.startTime + max burin (16 * max cost 1 * tiles)

/-- ACLK of the largest work item of a LINEAR command, with its start cost: a chunk of any of its products, and in the output's stage its
tiles on the Stipple units (R63, R80, R142). -/
def State.linearTime (s : State) (v : View) (p : Packet) : Nat :=
  let inner : List Nat :=
    if p.adapter then
      (match s.mat v p (if p.linOp = 0 then 120 else 124) false, s.mat v p (if p.linOp = 0 then 116 else 112) (decide (p.linOp ≠ 0)) with
       | some z, some m => [itemsTime { a := z, w := m, nibbles := none, skip := none, acc := fun _ _ => 0 } 0 [(0, 0)]]
       | _, _ => [])
    else []
  (inner ++ p.stages.map fun st => match s.stageProduct v p st with
    | some q => itemsTime q (if st = Stage.main then p.listCost else 0) [(0, 0)]
    | none => 272).foldl max 272

/-! ### Dispatch units (R142, R143) -/

/-- ACLK of the largest indivisible unit of a plate or Stencil command with the start cost of a dispatch unit, at full duty (R142). -/
def State.unitTime (s : State) (v : View) (p : Packet) : Nat :=
  match p.opcode with
  | 0x0301 => s.linearTime v p
  | 0x0302 => 16 * max p.listCost 1
  | 0x0303 | 0x0304 | 0x0305 => aquatintTime p
  | 0x0401 => s.tracerTime v p
  | _ => stencilTime p 1

/-- The unit floor of R142 at the latched duty. -/
def State.unitFloor (s : State) (v : View) (p : Packet) : Nat := ceilDiv (s.unitTime v p * 64) (max 1 s.strk.duty)

/-- The indivisible units that a command has left, in its present stage. -/
def State.unitsLeft (s : State) (c : Cmd) : Nat :=
  let v := c.view s
  match c.pkt.opcode with
  | 0x0301 => (s.itemsLeft c).length
  | 0x0302 => (s.tilesLeft c (·.written)).length
  | 0x0303 | 0x0304 | 0x0305 => aquatintTotal c.pkt - c.cursor
  | 0x0401 => s.tracerTotal v c.pkt - c.cursor
  | _ => s.stencilTotal v c.pkt - c.cursor

/-- The estimate in ACLK, at full duty, of a dispatch unit of the next n indivisible units of a command (R63, R80, R100, R116, R137). -/
def State.spanTime (s : State) (c : Cmd) (n : Nat) : Nat :=
  let v := c.view s
  let p := c.pkt
  match p.opcode with
  | 0x0301 =>
    let st : Stage := p.stages.getD ((c.tiles.map (·.stage)).getD 0) .main
    (match s.stageProduct v p st with
     | some q => itemsTime q (if st = Stage.main then p.listCost else 0) ((s.itemsLeft c).take n)
     | none => 272)
  | 0x0302 => 16 * max p.listCost 1 * n
  | 0x0303 | 0x0304 | 0x0305 => aquatintTime p * n
  | 0x0401 => s.tracerSpan v p c.cursor n
  | _ => stencilTime p n

/-- How many indivisible units firmware puts into a command's next dispatch unit: as many as its budget holds at the latched duty, and one
at least: DESIGN CHOICE (assumption 47). `k` bounds the search. -/
def State.unitsFit (s : State) (c : Cmd) : Nat → Nat → Nat
  | 0, n => n
  | k + 1, n => if n < s.unitsLeft c ∧ s.spanTime c (n + 1) * 64 ≤ c.budget * s.strk.duty then s.unitsFit c k (n + 1) else n

/-- The progress at which a dispatch unit of n indivisible units is done. -/
def State.unitGoal (s : State) (c : Cmd) (n : Nat) : Nat :=
  if c.pkt.opcode = 0x0301 then
    let cols := (s.tileGrid (c.view s) c.pkt ((c.tiles.map (·.stage)).getD 0)).2
    let items := (s.itemsLeft c).take n
    c.progress + ((s.tilesLeft c (·.written)).filter fun i => decide (tileItem cols i ∈ items)).length
  else c.progress + n

end Sys2Proof.Machine
end

