-- ==== Sys2Proof/Machine/PlateUnits.lean ====
section
/-! DEFINITION. Dispatch units (R143 to R148, R83): which command a plate or router takes up next, how its unit is issued, and what
it does when a unit is gone. -/

namespace Sys2Proof.Machine

/-- Where a command runs. -/
def Cmd.unitRef (c : Cmd) : Option UnitRef :=
  match c.pkt.plate? with
  | some n => some (.plate n)
  | none => (c.pkt.tile?).map .router

/-- The context, the units and the readiness of a plate or router: none where it is absent, hung or between contexts. -/
def State.unitHost (s : State) (r : UnitRef) : Option (Nat × List DispatchUnit) :=
  match r with
  | .plate n => (Kv.get n s.plates).bind fun p => if p.due || p.hung then none else p.ctx.map fun c => (c, p.units)
  | .router t => (Kv.get t s.routers).bind fun p => if p.due || p.hung then none else p.ctx.map fun c => (c, p.units)

/-- The units of a plate or router. -/
def State.unitsOf (s : State) (r : UnitRef) : List DispatchUnit :=
  match r with
  | .plate n => ((Kv.get n s.plates).map (·.units)).getD []
  | .router t => ((Kv.get t s.routers).map (·.units)).getD []

/-- Replace them. -/
def State.setUnits (s : State) (r : UnitRef) (us : List DispatchUnit) : State :=
  match r with
  | .plate n => s.updPlate n fun p => { p with units := us }
  | .router t => s.updRouter t fun p => { p with units := us }

/-- Has a command a unit in progress. -/
def State.inUnit (s : State) (c : Cmd) : Bool :=
  match c.unitRef with
  | some r => (s.unitsOf r).any fun u => decide (u.queue = c.queue ∧ u.seq = c.seq)
  | none => false

/-- Does a conversion to BFX32 wait: an earlier step of its bucket is still open (R295). -/
def State.xpPending (s : State) (c : Cmd) : Bool :=
  let p := c.pkt
  decide (p.opcode = 0x0301 ∨ p.opcode = 0x0302) &&
  (let n := (c.view s).ctx
   ((s.desc n (p.epi 8 4)).map fun d => decide (d.fmt = .bfx32)).getD false &&
   s.buckets.any fun b => decide (b.context = n) && decide (b.group = bitsOf (p.epi 56 4) 31 24) && decide (b.bucket = bitsOf (p.epi 56 4) 13 0) &&
     decide (b.step < p.par 0 5))

/-- Is a command ready for a unit on a plate or router: running, of the context that holds it, without one, without an open fault,
behind no earlier command of its queue there that has none (R72, R143). -/
def State.readyFor (s : State) (r : UnitRef) (n : Nat) (c : Cmd) : Bool :=
  decide (c.unitRef = some r) && decide (c.phase = .running) && decide ((c.view s).ctx = n) && decide (c.fault = none) && !c.cancel &&
    decide (c.hostWait = none) && !s.inUnit c && !s.xpPending c &&
    s.cmds.all fun d => !(decide (d.queue = c.queue ∧ d.seq < c.seq) && decide (d.unitRef = some r)) || s.inUnit d ||
      (match d.phase with
       | .finished _ | .flushing _ => true
       | _ => false)

/-- The budget of a command in full: its header's, its context's, or the dispatch window (R142). -/
def State.fullBudget (s : State) (c : Cmd) : Nat :=
  if c.pkt.budget ≠ 0 then c.pkt.budget
  else match s.ctxOf c with
    | some x => if x.budget ≠ 0 then x.budget else s.dispatchWindow
    | none => s.dispatchWindow

/-- The engine code and index of a plate or Stencil command's faults (R219). -/
def Cmd.engine (c : Cmd) : Nat × Nat :=
  let i := match c.unitRef with
    | some (.plate n) => n
    | some (.router t) => t
    | none => 0
  (match c.pkt.opcode with
   | 0x0301 => 0 | 0x0302 => 1 | 0x0401 => 2 | 0x0501 | 0x0502 | 0x0503 => 4 | _ => 3, i)

/-- What keeps a LINEAR or STIPPLE command's next unit from beginning. -/
inductive OperandStop where
  | fault (kind : FaultKind) (va : Nat) (acc : Acc) (off : Nat)
  | media (va pa off : Nat)
  /-- an operand has come to lie outside the plate's memory (R11) -/
  | outside (off : Nat)
deriving DecidableEq, Repr

/-- The state with every operand of a LINEAR or STIPPLE command translated and checked, or the first one that stops its unit (R11, R83, R217,
R225). -/
def State.touchOperands (s : State) (c : Cmd) : Except OperandStop State :=
  let v := c.view s
  (c.pkt.handleFields).foldlM (fun s f =>
    match s.desc v.ctx (c.pkt.at f.1 4) with
    | none => .ok s
    | some d =>
      let acc : Acc := { read := !f.2, write := f.2 }
      let touch (s : State) (x : Nat × Nat) : Except OperandStop State :=
        match s.touch v.ctx v.bound x.1 x.2 acc false with
        | .error (k, va) => .error (.fault k va acc f.1)
        | .ok s =>
          match (if f.2 then none else s.badRange v.ctx v.bound x.1 x.2) with
          | some pa => .error (.media x.1 pa f.1)
          | none => .ok s
      match d.ranges.foldlM touch s with
      | .error e => .error e
      | .ok s => if s.inPlate v d ((c.pkt.plate?).getD 16) then .ok s else .error (.outside f.1)) s

/-- ACLK that remain in the stroke before the reserve, at an instant ns after the boundary (R143). -/
def State.remaining (s : State) (ns : Nat) : Nat := (s.strk.period * 1000 - 2000 - ns) * 7 / 10

/-- A plate has a dispatch unit in this stroke; a power-gated one is taken out of its gate for it (R413; DEDUCED, assumption 66). -/
def State.markBusy (s : State) (r : UnitRef) : State :=
  match r with
  | .plate n => { s with power := { s.power with
      busy := if n ∈ s.power.busy then s.power.busy else n :: s.power.busy
      gated := s.power.gated.filter (· ≠ n) } }
  | .router _ => s

/-- What an issue reads of a place: does its first units issue late, and has one not fitted in this stroke. -/
def State.placeFlags (s : State) (r : UnitRef) : Bool × Bool :=
  match r with
  | .plate n => ((Kv.get n s.plates).map fun x => (x.late, x.closed)).getD (false, true)
  | .router t => ((Kv.get t s.routers).map fun x => (x.late, x.closed)).getD (false, true)

/-- A unit has not fitted: it and those behind it wait for a later stroke (R143). -/
def State.closePlace (s : State) (r : UnitRef) : State :=
  match r with
  | .plate n => s.updPlate n fun x => { x with closed := true }
  | .router t => s.updRouter t fun x => { x with closed := true }

/-- A unit joins its place; the plate notes the commands that have begun there, in the order of their first units (R72). -/
def State.addUnit (s : State) (r : UnitRef) (u : DispatchUnit) : State :=
  let s := (s.setUnits r (s.unitsOf r ++ [u])).markBusy r
  match r with
  | .plate n => s.updPlate n fun x => { x with begun := if (u.queue, u.seq) ∈ x.begun then x.begun else x.begun ++ [(u.queue, u.seq)] }
  | .router _ => s

/-- A budget halved by an overrun is no lower than the unit floor at the duty latched when its command resumes (R147). -/
def State.resumedBudget (s : State) (c : Cmd) : Nat := if 0 < c.overruns then max (s.unitFloor (c.view s) c.pkt) c.budget else c.budget

/-- Issue a unit of command c where its estimate fits (R143). The instant is open but at a boundary; a unit that does not fit closes the place
for the stroke. The first unit of a stroke that can never fit is issued at the handover. -/
def State.issueUnit (s : State) (r : UnitRef) (c : Cmd) (boundary : Bool) : State :=
  let c := { c with budget := s.resumedBudget c }
  let (ns, s) : Nat × State := if boundary ∧ ¬ (s.placeFlags r).1 then (0, s) else s.drawNs
  let n := s.unitsFit c (s.unitsLeft c) 1
  let est := s.spanTime c n
  let first := boundary && (s.unitsOf r).isEmpty
  if est * 64 ≤ s.remaining ns * s.strk.duty ∨ (first ∧ s.dispatchWindow * s.strk.duty < est * 64) then
    (s.updCmd c.queue c.seq fun x => { x with budget := c.budget }).addUnit r
      { queue := c.queue, seq := c.seq, estimate := est, start := c.progress, goal := s.unitGoal c n, issued := ns }
  else s.closePlace r

/-- Issue units to a plate or router until none fits; k bounds the search. -/
def State.issue (s : State) (r : UnitRef) (boundary : Bool) : Nat → State
  | 0 => s
  | k + 1 =>
    match s.unitHost r with
    | none => s
    | some (n, _) =>
      if (s.placeFlags r).2 then s
      else match s.cmds.find? (s.readyFor r n) with
      | none => s
      | some c =>
        let (eng, idx) := c.engine
        match (if c.pkt.opcode = 0x0301 ∨ c.pkt.opcode = 0x0302 then s.touchOperands c else .ok s) with
        | .error (.fault kind va acc off) => (s.engineFault c kind va eng idx acc off).issue r boundary k
        | .error (.media va pa off) => (s.mediaFault c va pa eng idx off).issue r boundary k
        | .error (.outside off) => (s.finish c (badField off)).issue r boundary k
        | .ok s => (s.issueUnit r c boundary).issue r boundary k

/-- Issue to the place of a command, as the dispatcher does between boundaries. -/
def State.issueAt (s : State) (r : UnitRef) : State := s.issue r false (s.cmds.length + 1)

/-- A command's unit is over: the translations that it kept and the units that a GATHER has read go with it (R93, R101, R211). -/
def Cmd.leaveUnit (c : Cmd) : Cmd :=
  { c with
    bound := c.bound.filter fun b => match b with
      | .page _ => false
      | _ => true
    work := match c.work with
      | .gather z _ => .gather z []
      | w => w }

/-- Take a command's unit off its plate or router; a late one has then drained for the handover (R145). -/
def State.removeUnit (s : State) (c : Cmd) : State :=
  let keep (u : DispatchUnit) : Bool := !decide (u.queue = c.queue ∧ u.seq = c.seq)
  let s := s.updCmd c.queue c.seq Cmd.leaveUnit
  match c.unitRef with
  | some (.plate n) => s.updPlate n fun p =>
      let us := p.units.filter keep
      let now := p.due && us.isEmpty && !p.drained
      { p with units := us, drained := p.drained || now, late := p.late || now }
  | some (.router t) => s.updRouter t fun p =>
      let us := p.units.filter keep
      let now := p.due && us.isEmpty && !p.drained
      { p with units := us, drained := p.drained || now, late := p.late || now }
  | none => s

/-- A command ends on its plate or router: its unit and its tiles go, and the next unit that fits is issued. -/
def State.endOnPlate (s : State) (c : Cmd) (e : Ending) : State :=
  let s := (s.removeUnit c).dropPlates c.queue c.seq
  let s := s.finish c e
  match c.unitRef with
  | some r => s.issueAt r
  | none => s

/-- A fault of a unit: the unit is set aside, the command waits behind the record or ends (R101, R220, R221). -/
def State.unitFault (s : State) (c : Cmd) (kind : FaultKind) (va : Nat) (acc : Acc) (detail : Nat) : State :=
  let (eng, idx) := c.engine
  let s := if kind = .notPresent then s.updCmd c.queue c.seq Cmd.leaveUnit else s.removeUnit c
  let s := s.engineFault c kind va eng idx acc detail
  match c.unitRef with
  | some r => if kind = .notPresent then s else s.issueAt r
  | none => s

/-- A unit meets an uncorrectable line (R225). -/
def State.unitMedia (s : State) (c : Cmd) (va pa detail : Nat) : State :=
  let (eng, idx) := c.engine
  let s := (s.removeUnit c).mediaFault c va pa eng idx detail
  match c.unitRef with
  | some r => s.issueAt r
  | none => s

/-- The commands with a unit in progress on a plate or router, in issue order. -/
def State.working (s : State) (r : UnitRef) : List Cmd :=
  (s.unitsOf r).filterMap fun u => (s.findCmd u.queue u.seq).filter fun c => decide (c.phase = .running) && decide (c.fault = none) && decide (c.hostWait = none)

/-- The commands that have begun on a plate before a given one and have not ended (R72). -/
def State.begunBefore (s : State) (n : Nat) (c : Cmd) : List Cmd :=
  (((((Kv.get n s.plates).map (·.begun)).getD []).takeWhile fun b => b ≠ (c.queue, c.seq)).filterMap fun b => s.findCmd b.1 b.2).filter fun d =>
    decide (d.phase = .running)

/-- Does no command that began on the plate before it hold a command back: an earlier one of the same context whose extents meet its own
(R72). -/
def State.clearOn (s : State) (n : Nat) (c : Cmd) : Bool :=
  (s.begunBefore n c).all fun d => decide ((d.view s).ctx ≠ (c.view s).ctx) || !s.conflicts d c

/-- Does a skip-flagged command still wait for its predicate (R79). -/
def Cmd.awaitsSkip (c : Cmd) : Bool :=
  decide (c.pkt.opcode = 0x0301 ∨ c.pkt.opcode = 0x0302) && !decide (c.pkt.opcode = 0x0301 ∧ c.pkt.linOp = 2) && bitOf (c.pkt.epi 3 1) 0 && !c.skipSettled

/-- A plate or Stencil command begins: it waits for its units (R165, R166). -/
def State.startOnPlate (s : State) (p : Packet) (chk : State → Cmd → Ctx → Check) (w : Work) : State :=
  match s.startable p with
  | none => s
  | some c =>
    if c.awaitsSkip then s
    else match s.ctxOf c with
      | none => s
      | some x =>
        match chk s c x with
        | .error e => s.finish c e
        | .ok _ =>
          match c.unitRef with
          | some r => (s.begin c w).issueAt r
          | none => s.begin c w

/-- COMMAND_SKIP: the predicate of the nearest earlier command of the group that carries one is settled (R79). A skipped command has no effect,
and the predicate that it carries does not hold. -/
def execCommandSkip (queue seq : Nat) (s : State) : Host.Outcome State Fault Refusal :=
  .next (match s.findCmd queue seq with
    | none => s
    | some c =>
      if ¬ (c.awaitsSkip ∧ s.mayStart c) then s
      else
        match (s.preds.filter fun r => decide (r.queue = queue) && decide (r.group = c.group) && decide (r.seq < seq)).mergeSort (fun a b => decide (b.seq ≤ a.seq)) with
        | [] => s
        | r :: _ =>
          let earlier := s.cmds.any fun d => decide (d.queue = queue ∧ d.group = c.group ∧ r.seq < d.seq ∧ d.seq < seq) &&
            decide (d.pkt.opcode = 0x0301 ∨ d.pkt.opcode = 0x0302) && decide (d.pkt.epi 2 1 ≠ 0)
          let own := s.cmds.any fun d => decide (d.queue = queue ∧ d.seq = r.seq)
          if earlier ∨ own then s
          else if r.held then
            let s := (s.ledgerFlag (c.view s).ctx (c.pkt.par 0 5) 0x08).finish c (Ending.ok 0 2)
            if c.pkt.epi 2 1 = 0 then s
            else { s with preds := { queue := queue, group := c.group, seq := seq, held := false } :: s.preds }
          else s.updCmd queue seq fun x => { x with skipSettled := true })

end Sys2Proof.Machine
end

