-- ==== Sys2Proof/Machine/Tiles.lean ====
section
/-! DEFINITION. Tiles: LINEAR and STIPPLE on a plate: banks, arrays, the proof tray and the Stipple units (R47 to R49, R55, R60, R61, R70
to R73, R191). -/

namespace Sys2Proof.Machine

/-! ### What is given to engines -/

/-- The grid that the epilogue runs over. -/
def State.mainGrid (s : State) (v : View) (p : Packet) : Nat × Nat :=
  if p.opcode = 0x0301 then s.stageDims v p .main else s.stippleGrid v p

/-- A tile command as it begins. -/
def newTiles : Work := .tiles { stage := 0, issued := [], written := [], sums := {}, partials := [], nanLines := [], carry := [] }

/-- Does a command's unit on a plate still take tiles of the present stage: it ends at its goal (R143). -/
def State.unitTakes (s : State) (n : Nat) (c : Cmd) : Bool :=
  (s.unitsOf (.plate n)).any fun u => decide (u.queue = c.queue ∧ u.seq = c.seq) &&
    c.tiles.any fun t => decide (t.stage * 2 ^ 40 + t.issued.length < u.goal)

/-- The tiles of the present stage that a command may give out on a plate: none while an earlier command holds it back (R72). -/
def State.openTiles (s : State) (n : Nat) (c : Cmd) : List Nat :=
  if s.unitTakes n c && s.clearOn n c then s.tilesLeft c (·.issued) else []

/-- The first working command of an opcode on a plate that has a tile to give, and that tile. -/
def State.nextTile (s : State) (n opcode : Nat) : Option (Cmd × Nat) :=
  ((s.working (.plate n)).filter fun c => c.pkt.opcode = opcode).findSome? fun c => (s.openTiles n c).head?.map fun t => (c, t)

/-- The item of a tile of a LINEAR command. -/
def State.itemOf (s : State) (c : Cmd) (tile : Nat) : ArrayItem :=
  let st := (c.tiles.map (·.stage)).getD 0
  let (k, b) := tileItem (s.tileGrid (c.view s) c.pkt st).2 tile
  s.makeItem (c.view s) c.pkt c.queue c.seq st k b

/-- Does an array hold the whole stationary operand of an item's column block: the one bank of a product of one pass (R49). -/
def BurinArray.holdsFor (a : BurinArray) (i : ArrayItem) : Bool := decide (i.passes = [0]) && a.banks.any fun b => b.serves i

/-- The item that an array takes next: one whose bank it holds where there is one, otherwise the first (R49). -/
def State.nextItem (s : State) (n : Nat) (a : BurinArray) : Option (Cmd × ArrayItem) :=
  let ws := (s.working (.plate n)).filter fun c => c.pkt.opcode = 0x0301
  let same := ws.findSome? fun c =>
    if a.banks.any fun b => decide (b.queue = c.queue ∧ b.seq = c.seq) then
      ((s.openTiles n c).map (s.itemOf c)).find? a.holdsFor |>.map fun i => (c, i)
    else none
  same.orElse fun _ => (s.nextTile n 0x0301).map fun x => (x.1, s.itemOf x.1 x.2)

/-- The tiles of an item: at most two row tiles of one column block. -/
def State.itemTiles (s : State) (c : Cmd) (i : ArrayItem) : List Nat :=
  let (rows, cols) := s.tileGrid (c.view s) c.pkt i.stage
  (List.range (tileCount rows cols)).filter fun t => decide (tileItem cols t = (i.chunk, i.block))

/-- Note that tiles are given to an engine. -/
def Cmd.giveTiles (c : Cmd) (l : List Nat) : Cmd :=
  match c.work with
  | .tiles t => { c with work := .tiles { t with issued := l.filter (fun i => decide (i ∉ t.issued)) ++ t.issued } }
  | _ => c

/-- Take back the tiles that an engine has discarded: those not written run again (R61, R73). -/
def Cmd.takeTiles (c : Cmd) (stage : Nat) (l : List Nat) : Cmd :=
  match c.work with
  | .tiles t =>
    if t.stage = stage then { c with work := .tiles { t with issued := t.issued.filter fun i => decide (i ∉ l ∨ i ∈ t.written) } } else c
  | _ => c

/-! ### The write stage of one tile -/

/-- The work once its present stage is written whole: the next stage begins (R117, R121). -/
def TileWork.advance (t : TileWork) (count : Nat) : TileWork :=
  if count ≤ t.written.length then { t with stage := t.stage + 1, issued := [], written := [], carry := [], carryNans := [], unmarked := [] } else t

/-- A tile leaves the write stage (R73, R117): the state, and the tile registers as its list left them (R65). -/
def State.writeOne (s : State) (tile : Tile) : State × TileRegs :=
  match s.findCmd tile.queue tile.seq with
  | none => (s, [])
  | some c =>
    match c.tiles, s.ctxOf c with
    | some t, some x =>
      if t.stage ≠ tile.stage ∨ tile.index ∈ t.written then (s, [])
      else
        let p := c.pkt
        let v := c.view s
        let (rows, cols) := s.tileGrid v p tile.stage
        let st : Stage := p.stages.getD tile.stage .main
        let key := p.key x.seed
        let int := p.opcode = 0x0301 ∧ ((s.stageProduct v p st).map Product.isInt).getD false
        let env : EpiEnv := { view := v, pkt := p, key := key, rows := rows, cols := cols, box := tileBox rows cols tile.index,
                              tray := tile.codes, trayInt := decide int, traySat := tile.sats }
        let (s, t, regs) : State × TileWork × TileRegs :=
          if p.opcode = 0x0301 ∧ st ≠ .main then
            (s.writeRaw v p key st tile.index tile.codes, { t with written := tile.index :: t.written }, [])
          else
            let run := s.runList env
            let (s, t) := s.writeTile env run tile.index t
            (s, t, run.regs)
        (s.updCmd c.queue c.seq fun c => { c with work := .tiles (t.advance (tileCount rows cols)), cursor := c.cursor + 1 }, regs)
    | _, _ => (s, [])

/-- The tiles that a plate's Stipple units work on, and that no slot of `live` holds, are discarded; every unit is empty (R73). -/
def State.emptyUnits (s : State) (n : Nat) (live : List Tile) (mine : Tile → Bool) : State :=
  match Kv.get n s.plates with
  | none => s
  | some x =>
    let s := (x.stipples.filterMap (·.tile)).foldl (fun (s : State) t =>
      if live.any (fun y => decide (y = t)) || !mine t then s else s.updCmd t.queue t.seq fun c => c.takeTiles t.stage [t.index]) s
    s.updPlate n fun x => { x with stipples := x.stipples.map fun u => if u.tile.any fun t => !mine t then u else .empty }

/-- Drain the tray in order (R61, R145): the units discard the tiles that they took from no tray, and every unspent slot is written. -/
def State.drainTray (s : State) (n : Nat) : State :=
  match Kv.get n s.plates with
  | none => s
  | some x =>
    let live := (x.tray.filter fun t => !t.spent).map (·.tile)
    let s := live.foldl (fun (s : State) t => (s.writeOne t).1) s
    (s.emptyUnits n live fun _ => true).updPlate n fun x => { x with tray := [] }

/-- Stop the arrays of a plate: banks, partial sums and the undelivered tiles of their items are discarded (R61). -/
def State.stopArrays (s : State) (n : Nat) : State :=
  match Kv.get n s.plates with
  | none => s
  | some x =>
    let s := s.endStall n
    let gone := x.arrays.flatMap fun a => (a.item.toList.map fun i => (i, a.delivered)) ++ a.next.toList.map fun i => (i, 0)
    let s := gone.foldl (fun (s : State) g => match s.findCmd g.1.queue g.1.seq with
      | some c => s.updCmd c.queue c.seq fun y => y.takeTiles g.1.stage ((s.itemTiles c g.1).drop g.2)
      | none => s) s
    s.updPlate n fun x => { x with arrays := x.arrays.map fun _ => .idle }

/-- The end of a tile command: its result words, and in an epilogue its reduction, summary and predicate (R76 to R79, R117). -/
def State.finishTiles (s : State) (c : Cmd) : State × Ending :=
  match c.tiles, s.ctxOf c with
  | some t, some x =>
    let p := c.pkt
    if p.opcode = 0x0301 ∧ p.linOp = 2 then (s, Ending.ok 0 0)
    else
      let (rows, cols) := s.mainGrid (c.view s) p
      s.finishEpilogue (c.view s) p (p.key x.seed) rows cols c.group t
  | _, _ => (s, Ending.ok 0 0)

/-! ### LINEAR and STIPPLE (R62, R187, R191) -/

/-- Does an earlier command of the group carry a predicate (R74). -/
def State.earlierPred (s : State) (c : Cmd) : Bool :=
  (s.cmds.any fun d => decide (d.queue = c.queue ∧ d.group = c.group ∧ d.seq < c.seq) &&
    decide (d.pkt.opcode = 0x0301 ∨ d.pkt.opcode = 0x0302) && decide (d.pkt.epi 2 1 ≠ 0)) ||
  s.preds.any fun r => decide (r.queue = c.queue ∧ r.group = c.group ∧ r.seq < c.seq)

/-- The checks of STIPPLE (R74, R191, R453). -/
def State.checkStipple (s : State) (c : Ctx) (v : View) (p : Packet) (earlier : Bool) : Check := do
  s.checkNumbering c p p.hasMask
  s.checkPlate (p.at 80 1) 80
  zeroBytes p 81 95
  let _ ← s.needDesc v.ctx (p.epi 12 4) (p.epiOffset 12) false
  let (rows, cols) := s.stippleGrid v p
  s.checkEpilogue v p (p.at 80 1) rows cols earlier

/-- LINEAR: the product begins, and its work items wait for banks and arrays (R49, R62). -/
def execLinear (p : Packet) (s : State) : Host.Outcome State Fault Refusal :=
  .next (s.forOp p 0x0301 (s.startOnPlate p (fun s c x => s.checkLinear x (c.view s) p (s.earlierPred c)) newTiles))

/-- STIPPLE: its tiles wait for the plate's Stipple units (R70, R191). -/
def execStipple (p : Packet) (s : State) : Host.Outcome State Fault Refusal :=
  .next (s.forOp p 0x0302 (s.startOnPlate p (fun s c x => s.checkStipple x (c.view s) p (s.earlierPred c)) newTiles))

/-! ### Arrays (R47, R49, R55, R60) -/

/-- Change an array. -/
def State.updArray (s : State) (n k : Nat) (a : BurinArray) : State := s.updPlate n fun x => { x with arrays := x.arrays.set k a }

/-- Is the metadata of a bank broken: the bank of a pass and of an item's column block (R55). -/
def State.itemBroken (s : State) (c : Cmd) (i : ArrayItem) (pass : Nat) : Bool :=
  match s.stageProduct (c.view s) c.pkt (c.pkt.stages.getD i.stage .main) with
  | none => false
  | some q => s.bankBroken (c.view s) q pass i.block

/-- A broken bank stops its command: the tiles in the tray stand, and no later one is delivered (R55). -/
def State.stopBroken (s : State) (n : Nat) (c : Cmd) : State :=
  let mine : State := match Kv.get n s.plates with
    | none => s
    | some x => (x.tray.filter fun t => !t.spent && decide (t.tile.queue = c.queue ∧ t.tile.seq = c.seq)).foldl
        (fun (s : State) t => (s.writeOne t.tile).1) s
  mine.endOnPlate c (badField 92)

/-- The array's accumulator store with every pass below `upTo` (R49, R50). -/
def State.sumItem (s : State) (c : Cmd) (a : BurinArray) (upTo : Nat) : BurinArray :=
  match a.item.bind fun i => (s.stageProduct (c.view s) c.pkt (c.pkt.stages.getD i.stage .main)).map fun q => (i, q) with
  | some (i, q) => s.sumPasses (c.view s) q c.pkt.modes.wrap i a upTo
  | none => a

/-- Make room for a bank: of two banks the older one has been computed with, and gives way (R47). -/
def State.freeBank (s : State) (a : BurinArray) : BurinArray :=
  match a.banks with
  | b :: c :: rest =>
    let a := match a.item.bind fun i => s.findCmd i.queue i.seq with
      | some d => if a.item.any b.serves then s.sumItem d a (b.pass + 1) else a
      | none => a
    { a with banks := c :: rest }
  | _ => a

/-- Load the bank of a pass of an item into an array (R47, R55). -/
def State.loadBank (s : State) (n k : Nat) (a : BurinArray) (i : ArrayItem) (c : Cmd) (pass : Nat) : State :=
  if s.itemBroken c i pass then s.stopBroken n c
  else
    let cells := ((s.stageProduct (c.view s) c.pkt (c.pkt.stages.getD i.stage .main)).map fun q =>
      s.bankCells (c.view s) q pass i.block).getD []
    let a := s.freeBank a
    s.updArray n k { a with
      banks := a.banks ++ [{ queue := i.queue, seq := i.seq, stage := i.stage, block := i.block, pass := pass, cells := cells }]
      loaded := if a.item = some i then a.loaded + 1 else a.loaded }

/-- An array takes an item, as the one it forms or as its next: its tiles are given out, and the first bank that the array does not hold for it
loads, where the item needs one. -/
def State.takeItem (s : State) (n k : Nat) (a : BurinArray) (c : Cmd) (i : ArrayItem) : State :=
  let s := s.updCmd c.queue c.seq fun y => y.giveTiles (s.itemTiles c i)
  let a := if a.item.isNone then a.begin i else { a with next := some i }
  match i.passes[if a.next.isNone then a.loaded else 0]? with
  | none => s.updArray n k a
  | some p => if a.holdsFor i then s.updArray n k a else s.loadBank n k a i c p

/-- The working command of an item. -/
def State.itemCmd (s : State) (n : Nat) (i : ArrayItem) : Option Cmd :=
  (s.working (.plate n)).find? fun c => decide (c.queue = i.queue ∧ c.seq = i.seq)

/-- BURIN_BANK_LOADED: the next bank of the array's item; behind its last one the first bank of the array's next item, while the present one
computes; on an idle array the first bank of an item (R47, R49, R55). -/
def execBurinBankLoaded (plate array : Nat) (s : State) : Host.Outcome State Fault Refusal :=
  .next (match (Kv.get plate s.plates).bind fun x => x.arrays[array]? with
    | none => s
    | some a =>
      match a.item with
      | some i =>
        (match s.itemCmd plate i with
         | none => s
         | some c =>
           match i.passes[a.loaded]?, a.next with
           | some p, _ => s.loadBank plate array a i c p
           | none, some _ => s
           | none, none =>
             match s.nextItem plate a with
             | none => s
             | some (d, j) => s.takeItem plate array a d j)
      | none =>
        match s.nextItem plate a with
        | none => s
        | some (c, i) => s.takeItem plate array a c i)

/-- An array whose item is delivered goes on to its next item; without one it takes at once an item whose bank it holds, since no bank load
announces it (R49). -/
def State.shiftArray (s : State) (n k : Nat) (a : BurinArray) : State :=
  let b := a.shift
  match (if b.item.isNone then s.nextItem n b else none) with
  | some (c, i) => if b.holdsFor i then s.takeItem n k b c i else s.updArray n k b
  | none => s.updArray n k b

/-- BURIN_TILE_DELIVERY: the next tile of an item whose passes are all done goes to the tray, or the array stalls (R49, R60). -/
def execBurinTileDelivery (plate array : Nat) (s : State) : Host.Outcome State Fault Refusal :=
  .next (match Kv.get plate s.plates with
    | none => s
    | some x =>
      match (x.arrays[array]?).bind fun a => a.item.bind fun i => (s.itemCmd plate i).map fun c => (a, i, c) with
      | none => s
      | some (a, i, c) =>
        if a.loaded < i.passes.length then s
        else
          let passes := ((s.stageProduct (c.view s) c.pkt (c.pkt.stages.getD i.stage .main)).map Product.passes).getD 0
          let a := s.sumItem c a passes
          if 24 ≤ x.tray.length then s.updArray plate array { a with stalled := true }
          else
            let s := if a.stalled then s.endStall plate else s
            let (codes, sats, used) := s.chunkTile (c.view s) c.pkt i a.acc a.delivered
            let t : Tile := { queue := i.queue, seq := i.seq, stage := i.stage, index := (s.itemTiles c i).getD a.delivered 0, codes := codes, sats := sats }
            let s := s.updPlate plate fun x => { x with tray := x.tray ++ [{ tile := t, taken := false, spent := false }] }
            let s : State := { s with free := s.free + used }
            let a := { a with delivered := a.delivered + 1, stalled := false }
            if a.delivered < (s.itemTiles c i).length then s.updArray plate array a else s.shiftArray plate array a)

/-- May a slot free: its last read is done, or its tile is taken and the entries that name TRAY have run, so that the write stage reads
something else (R70). -/
def State.slotDone (s : State) (t : TraySlot) : Bool :=
  t.spent || (t.taken && (match s.findCmd t.tile.queue t.tile.seq with
    | some c => decide (c.pkt.opcode = 0x0301) && decide (c.pkt.stages.getD t.tile.stage .main = .main) && decide (c.pkt.epi 0 1 ≠ 0)
    | none => true))

/-- TRAY_SLOT_FREE: the slots whose last read is done free; where none is, the oldest taken one whose list has read its tile for the last
time does. Stalled arrays start again (R60, R70). -/
def execTraySlotFree (plate : Nat) (s : State) : Host.Outcome State Fault Refusal :=
  .next (match Kv.get plate s.plates with
    | none => s
    | some x =>
      match (if x.tray.any (·.spent) then some (x.tray.filter fun t => !t.spent)
             else (x.tray.find? s.slotDone).map fun t => x.tray.erase t) with
      | none => s
      | some tray => (s.endStall plate).updPlate plate fun x => { x with tray := tray })

/-! ### Stipple units (R70, R73) -/

/-- Mark the oldest untaken tile of a tray as taken. -/
def takeOldest : List TraySlot → Option (Tile × List TraySlot)
  | [] => none
  | t :: ts => if t.taken then (takeOldest ts).map fun r => (r.1, t :: r.2) else some (t.tile, { t with taken := true } :: ts)

/-- A Stipple unit takes a tile, its registers empty. -/
def Plate.giveUnit (x : Plate) (unit : Nat) (t : Tile) : Plate := { x with stipples := x.stipples.set unit { tile := some t, regs := [] } }

/-- STIPPLE_TILE_TAKEN: a free unit takes the oldest untaken tile, unit 0 before unit 1; where the tray has none, the next tile of a STIPPLE
command (R70, R74). -/
def execStippleTileTaken (plate unit : Nat) (s : State) : Host.Outcome State Fault Refusal :=
  .next (match Kv.get plate s.plates with
    | none => s
    | some x =>
      let busy (k : Nat) : Bool := (x.stipples.getD k .empty).tile.isSome
      if x.stipples.length ≤ unit ∨ busy unit ∨ (unit = 1 ∧ ¬ busy 0) then s
      else match takeOldest x.tray with
        | some (t, tray) => s.updPlate plate fun x => { x with tray := tray }.giveUnit unit t
        | none =>
          match s.nextTile plate 0x0302 with
          | none => s
          | some (c, i) =>
            let t : Tile := { queue := c.queue, seq := c.seq, stage := (c.tiles.map (·.stage)).getD 0, index := i, codes := [], sats := 0 }
            (s.updCmd c.queue c.seq fun c => c.giveTiles [i]).updPlate plate fun x => x.giveUnit unit t)

/-- The slot of a tile has had its last read. -/
def spendSlot (t : Tile) : List TraySlot → List TraySlot
  | [] => []
  | x :: xs => if x.tile = t ∧ x.taken ∧ ¬ x.spent then { x with spent := true } :: xs else x :: spendSlot t xs

/-- STIPPLE_TILE_WRITTEN: the unit's tile leaves the write stage; its registers hold what the list left until the unit takes another tile
(R65, R70, R73, R75, R76). -/
def execStippleTileWritten (plate unit : Nat) (s : State) : Host.Outcome State Fault Refusal :=
  .next (match ((Kv.get plate s.plates).bind fun x => x.stipples[unit]?).bind (·.tile) with
    | none => s
    | some t =>
      let (s, regs) := s.writeOne t
      s.updPlate plate fun x => { x with tray := spendSlot t x.tray, stipples := x.stipples.set unit { tile := none, regs := regs } })

end Sys2Proof.Machine
end

