-- ==== Sys2Proof/Machine/Tracer.lean ====
section
/-! DEFINITION. Tracer: COPY, GATHER, SCATTER and RESIZE (R88 to R102, R192) and their units. -/

namespace Sys2Proof.Machine

/-! ### Values -/

/-- RESIZE's source coordinate for destination index y (R98), in FP32 with rounding to nearest even. -/
def resizeCoord (hd hs y : Nat) : FV :=
  let r (x : FV) : FV := roundTo .fp32 .rne x
  let half : FV := .num false 1 (-1)
  let ratio := r (fvDiv (r (FV.ofInt hs)) (r (FV.ofInt hd))).1
  let sy := r (fvSub .rne (r (fvMul (r (fvAdd .rne (r (FV.ofInt y)) half).1) ratio).1) half).1
  if FV.cmp sy FV.zero < 0 then FV.zero else if FV.cmp sy (r (FV.ofInt ((hs : Int) - 1))) > 0 then r (FV.ofInt ((hs : Int) - 1)) else sy

/-- The largest integer not above a non-negative finite value. -/
def floorFV : FV → Nat
  | .num _ m e => if e ≥ 0 then m * 2 ^ e.toNat else m / 2 ^ (-e).toNat
  | _ => 0

/-- A source element as RESIZE's arithmetic reads it: an FP32 value (R98; FP64 sources round first: assumption 50). -/
def State.resizeElem (s : State) (v : View) (p : Packet) (src : Desc) (idx : List Nat) : FV :=
  roundTo .fp32 .rne (widenFor .fp32 0 .rne 0 src (s.padElem v src (trIndex p idx)))

/-- The source indices that RESIZE reads for a destination index: first row of the pair, and its neighbours. -/
def resizePoints (p : Packet) (src dst : Desc) (idx : List Nat) : List (List Nat) × FV × FV :=
  let dy := p.par 44 1
  let dx := p.par 45 1
  let hs := (trShape p src).getD dy 1
  let ws := (trShape p src).getD dx 1
  let sy := resizeCoord (dst.shape.getD dy 1) hs (idx.getD dy 0)
  let sx := resizeCoord (dst.shape.getD dx 1) ws (idx.getD dx 0)
  let half : FV := .num false 1 (-1)
  let at' (y x : Nat) : List Nat := (idx.set dy y).set dx x
  if p.trLinear then
    let y0 := floorFV sy
    let x0 := floorFV sx
    let y1 := min (y0 + 1) (hs - 1)
    let x1 := min (x0 + 1) (ws - 1)
    ([at' y0 x0, at' y0 x1, at' y1 x0, at' y1 x1],
      roundTo .fp32 .rne (fvSub .rne sy (FV.ofInt y0)).1, roundTo .fp32 .rne (fvSub .rne sx (FV.ofInt x0)).1)
  else
    let near (c : FV) (n : Nat) : Nat := min (floorFV (roundTo .fp32 .rne (fvAdd .rne c half).1)) (n - 1)
    ([at' (near sy hs) (near sx ws)], FV.zero, FV.zero)

/-- The value that RESIZE gives a destination element (R98). -/
def State.resizeValue (s : State) (v : View) (p : Packet) (src dst : Desc) (idx : List Nat) : FV :=
  let (pts, fy, fx) := resizePoints p src dst idx
  let a (k : Nat) : FV := s.resizeElem v p src (pts.getD k [])
  let r (x : FV) : FV := roundTo .fp32 .rne x
  let fma (x y z : FV) : FV := r (fvFma .rne x y z).1
  if p.trLinear then
    let top := fma fx (r (fvSub .rne (a 1) (a 0)).1) (a 0)
    let bottom := fma fx (r (fvSub .rne (a 3) (a 2)).1) (a 2)
    fma fy (r (fvSub .rne bottom top).1) top
  else s.padElem v src (trIndex p (pts.getD 0 []))

/-- The source indices, padding still on, that a destination element of COPY or RESIZE reads. -/
def copyReads (p : Packet) (src dst : Desc) (flat : Nat) : List (List Nat) :=
  let idx := unflat dst.shape flat
  if p.trOp = 3 then (resizePoints p src dst idx).1.map (trIndex p) else [trIndex p idx]

/-- The stored index of a source index of COPY: without PAD_OUT the stored shape is read (R88). -/
def stored? (p : Packet) (src : Desc) (idx : List Nat) : Option (List Nat) := if p.trOp = 0 ∧ ¬ p.trPad then some idx else src.unpad idx

/-- A destination element's value before its conversion: block elements widen to FP32 for an IEEE-style destination but FP64 (R28, R41). -/
def State.copyValue (s : State) (v : View) (p : Packet) (src dst : Desc) (flat : Nat) : FV :=
  let x := if p.trOp = 3 then s.resizeValue v p src dst (unflat dst.shape flat)
    else match stored? p src (trIndex p (unflat dst.shape flat)) with
      | some i => s.elem v src i
      | none => src.padValue
  if src.fmt.isBlock ∧ dst.fmt.isIeee ∧ dst.fmt ≠ .fp64 then widenFp32 x else x

/-- Put one code, with its scale where there is one, and what storage holds beyond the shape (R86). -/
def State.putCode (s : State) (v : View) (d : Desc) (flat code scale : Nat) : State :=
  let (bit, sc) := d.locate (unflat d.shape flat)
  let s := s.putBits v bit d.fmt.width code
  let s := match sc with
    | some a => s.vwrite v.ctx v.bound a [BitVec.ofNat 8 scale]
    | none => s
  s.fillEdge v d flat

/-- The stored source index whose code and scale a moved destination element takes, none for padding (R89). -/
def copyFrom (p : Packet) (src dst : Desc) (flat : Nat) : Option (List Nat) := ((copyReads p src dst flat).head?).bind (stored? p src)

/-- The whole destination as COPY or RESIZE writes it, with the counts of each block by its first element (R30, R31, R89). The padding of a
PAD_OUT draws nothing; where its value is not exact in the destination, the draw is open (assumption 51). -/
def State.copyImage (s : State) (v : View) (p : Packet) (key : List Byte) (src dst : Desc) (padDraw : Nat) : State × List (Nat × Counts) :=
  if copyMoves p src dst then
    ((List.range dst.count).foldl (fun (t : State) f =>
      let (code, sc) := ((copyFrom p src dst f).map (s.elemCode v src)).getD (src.padCode, 0x7F)
      t.putCode v dst f code sc) s, [])
  else
    let m : Modes := { p.modes with rounding := outRounding p.modes.rounding (p.par 10 2) dst.fmt }
    let starts := (List.range dst.count).filter fun f => dst.blockStart f = f
    starts.foldl (fun (acc : State × List (Nat × Counts)) st =>
      let puts : List Put := (dst.blockFlats st).map fun f =>
        let pad := decide (p.trOp = 0) && (stored? p src (trIndex p (unflat dst.shape f))).isNone
        { flat := f, val := s.copyValue v p src dst f, draw := if pad then padDraw else srDraw key (p.par 10 2) f,
          fromInt := src.fmt.isInt }
      let (s', c) := acc.1.putBlock v dst m 127 puts
      (s', acc.2 ++ [(st, c)])) (s, [])

/-! ### Units of COPY and RESIZE (R101) -/

/-- Does an element, or its scale, lie in a window of bytes. -/
def Desc.inWindow (d : Desc) (w : Nat × Nat) (flat : Nat) : Bool := rangesOverlap [w] (d.rangesOf [flat])

/-- The elements that a unit needs: those of every block it touches. -/
def Desc.unitFlats (d : Desc) (w : Nat × Nat) : List Nat :=
  let starts := ((List.range d.count).filter (d.inWindow w)).map d.blockStart
  starts.eraseDups.flatMap d.blockFlats

/-- The source bytes that a unit reads. -/
def copySources (p : Packet) (src dst : Desc) (flats : List Nat) : List (Nat × Nat) :=
  let idxs := (flats.flatMap (copyReads p src dst)).filterMap (stored? p src)
  src.rangesOf (idxs.map (flatIdx src.shape))

/-! ### Lists (R91, R92) -/

/-- Coordinates of entry n. -/
def State.listEntry (s : State) (v : View) (p : Packet) (rank n : Nat) : List Int :=
  (List.range rank).map fun j =>
    if p.par 28 4 = inlineHandle then sext 32 (leNat (((p.payload 48).drop (4 * (n * rank + j))).take 4))
    else match s.desc v.ctx (p.par 28 4) with
      | some d => sext 32 (s.padElemCode v d [n, j]).1
      | none => 0

/-- The first index of the unit that an entry names, over the padded shape; none when it is out of range (R91, R92). -/
def unitOrigin (p : Packet) (d : Desc) (e : List Int) : Option (List Nat) :=
  let sh := d.paddedShape
  let r := d.rank
  let step (i : Nat) : Nat := if i + 1 = r then p.unitCols else if i + 2 = r then p.unitRows else 1
  if (List.range r).all fun i => decide (0 ≤ e.getD i 0) && decide (((e.getD i 0).toNat + 1) * step i ≤ sh.getD i 0) then
    some ((List.range r).map fun i => (e.getD i 0).toNat * step i)
  else none

/-- The padded index of element (i, j) of a unit at an origin. -/
def unitElem (d : Desc) (o : List Nat) (i j : Nat) : List Nat :=
  let r := d.rank
  let o := o.set (r - 1) (o.getD (r - 1) 0 + j)
  if r ≥ 2 then o.set (r - 2) (o.getD (r - 2) 0 + i) else o

/-- Positions (i, j) of a unit. -/
def unitCells (p : Packet) : List (Nat × Nat) :=
  (List.range (p.unitRows * p.unitCols)).map fun k => (k / p.unitCols, k % p.unitCols)

/-- Flat position of element (i, j) of unit n on the list side. -/
def listFlat (p : Packet) (n : Nat) (ij : Nat × Nat) : Nat := (n * p.unitRows + ij.1) * p.unitCols + ij.2

/-- The stored flat positions that a unit covers in the indexed tensor. -/
def unitStored (p : Packet) (d : Desc) (o : List Nat) : List Nat :=
  ((unitCells p).filterMap fun ij => d.unpad (unitElem d o ij.1 ij.2)).map (flatIdx d.shape)

/-- What a GATHER has read of a unit at an origin: each element's code and scale code, padding included (R92). -/
def State.readUnit (s : State) (v : View) (p : Packet) (src : Desc) (o : List Nat) : List (Nat × Nat) :=
  (unitCells p).map fun ij => ((src.unpad (unitElem src o ij.1 ij.2)).map (s.elemCode v src)).getD (src.padCode, 0x7F)

/-- GATHER's write of entry n: the codes and scales of the unit it names, or zeros (R89, R92). -/
def State.gatherUnit (s : State) (v : View) (p : Packet) (dst : Desc) (n : Nat) (data : Option (List (Nat × Nat))) : State :=
  (unitCells p).zipIdx.foldl (fun (s : State) x =>
    let (code, sc) := (data.getD []).getD x.2 (0, 0x7F)
    s.putCode v dst (listFlat p n x.1) code sc) s

/-- SCATTER's write of entry n, every element read before the first is written (R94, R102). -/
def State.scatterUnit (s : State) (v : View) (p : Packet) (src dst : Desc) (n : Nat) (o : List Nat) : State :=
  (unitCells p).foldl (fun (t : State) ij =>
    let (code, sc) := s.padElemCode v src (unflat src.paddedShape (listFlat p n ij))
    let f := flatIdx dst.shape (unitElem dst o ij.1 ij.2)
    if p.trMode = 0 then t.putCode v dst f code sc
    else
      let sum := (fvAdd .rne (s.elem v dst (unflat dst.shape f)) (decodeIeee .fp32 code)).1
      t.putCode v dst f (encodeIeee .fp32 .rne 0 sum).1 sc) s

/-- The bitmap bits of the row groups whose last row lies in unit n (R95): set exactly where every row came from an entry out of range. -/
def State.gatherBits (s : State) (v : View) (p : Packet) (src bm : Desc) (entries n : Nat) : State :=
  let rows := entries * p.unitRows
  let k := p.unitCols
  (List.range (ceilDiv rows 8)).foldl (fun (s : State) h =>
    let last := min (8 * h + 7) (rows - 1)
    if last / p.unitRows ≠ n then s
    else
      let zero := (List.range (last + 1 - 8 * h)).all fun i =>
        (unitOrigin p src (s.listEntry v p src.rank ((8 * h + i) / p.unitRows))).isNone
      (List.range (ceilDiv k 128)).foldl (fun (s : State) b => s.markBlock v bm.base k h b zero) s) s

/-! ### Checks (R88 to R92) -/

/-- An extent of a unit along an axis holds whole grains, or runs to the dimension's end. -/
def wholeGrain (u dim grain : Nat) : Bool := decide (u % grain = 0) || decide (u = dim)

/-- The grain of a tensor along its axis: blocks, or panels. -/
def Desc.grain (d : Desc) : Nat := if d.layout = 1 then d.panelElems else if d.fmt.isBlock then d.block else 1

/-- Extent of a unit along dimension i of a tensor. -/
def unitAlong (p : Packet) (d : Desc) (i : Nat) : Nat := if i + 1 = d.rank then p.unitCols else if i + 2 = d.rank then p.unitRows else 1

/-- The checks of a list command. -/
def State.checkList2 (s : State) (v : View) (p : Packet) (src dst : Desc) : Check := do
  let (ix, ls) := trSides p src dst
  let lsOff := if p.trOp = 1 then 88 else 84
  if p.par 28 4 = inlineHandle then
    ensure (decide (1 ≤ p.inlineLen / (4 * ix.rank)) && decide (p.inlineLen % (4 * ix.rank) = 0)) (badField 92)
  else do
    let l ← s.needDesc v.ctx (p.par 28 4) 92 false
    ensure (decide (l.fmt = .int32) && decide (l.rank = 2) && decide (l.paddedShape.getD 1 0 = ix.rank)) (badField 92)
  let n := s.listLen v p ix.rank
  ensure (decide (1 ≤ p.unitRows) && (decide (2 ≤ ix.rank) || decide (p.unitRows = 1))) (badField 100)
  ensure (decide (1 ≤ p.unitCols)) (badField 104)
  ensure (decide (unitSize p src ≤ 262144) && decide (unitSize p dst ≤ 262144)) (badField 100)
  ensure (decide (src.fmt = dst.fmt) && decide (src.block = dst.block)) (badField lsOff)
  ensure (decide (ls.paddedShape = [n * p.unitRows, p.unitCols])) (badField lsOff)
  ensure (!ix.fmt.isBlock || (decide (ix.rank ≤ ix.axis + 2) && decide (ls.axis = if ix.axis + 1 = ix.rank then 1 else 0)))
    (badField lsOff)
  ensure (decide (p.trOp ≠ 1) || ix.blocksKeep) (badField 84)
  ensure (wholeGrain (unitAlong p ix ix.axis) (ix.paddedShape.getD ix.axis 0) ix.grain) (badField (if ix.axis + 1 = ix.rank then 104 else 100))
  ensure (wholeGrain (unitAlong p ls ls.axis) (ls.paddedShape.getD ls.axis 0) ls.grain) (badField (if ls.axis = 1 then 104 else 100))
  if p.trOp = 1 then do
    let bm ← s.optDesc v.ctx (p.par 32 4) 96 true
    ensure (match bm with
      | some d => decide (d.extent ≥ bitmapBytes (n * p.unitRows) p.unitCols)
      | none => true) (badField 96)
  else nullField p 96

/-- The checks of TRACER (R88, R192). -/
def State.checkTracer (s : State) (c : Ctx) (v : View) (p : Packet) : Check := do
  s.checkNumbering c p false
  ensure (decide (p.par 10 2 ≠ 3)) (badField 74)
  let op := p.trOp
  ensure (decide (op ≤ 3)) (badField 80)
  s.checkPlate (p.par 17 1) 81
  let listed := decide (op = 1) || decide (op = 2)
  ensure (decide (p.par 18 1 < 16) && (!p.trSwap || !listed) && (!p.trZero || listed) && (!p.trPad || decide (op = 0)) &&
    (!p.trLinear || decide (op = 3))) (badField 82)
  ensure (decide (p.trMode ≤ 2) && (decide (p.trMode = 0) || decide (op = 2))) (badField 83)
  let src ← s.needRight v.ctx (p.par 20 4) 84 false .accessDenied
  let dst ← s.needRight v.ctx (p.par 24 4) 88 true .accessDenied
  ensure (decide (src.fmt ≠ .bfx32) && (decide (src.fmt ≠ .e8m0) || (decide (op = 0) && decide (dst.fmt = .e8m0)))) (badField 84)
  ensure (decide (dst.fmt ≠ .bfx32) && (decide (dst.fmt ≠ .e8m0) || decide (src.fmt = .e8m0))) (badField 88)
  ensure (!p.trSwap || decide (2 ≤ src.rank)) (badField 82)
  ensure (decide (p.trMode = 0) || decide (dst.fmt = .fp32)) (badField 83)
  if listed then s.checkList2 v p src dst
  else do
    nullField p 92
    nullField p 96
    ensure (decide (p.unitRows = 0)) (badField 100)
    ensure (decide (p.unitCols = 0)) (badField 104)
    let sh := trShape p src
    if op = 0 then ensure (decide (dst.shape = sh)) (badField 88)
    else do
      let dy := p.par 44 1
      let dx := p.par 45 1
      ensure (decide (dy < src.rank)) (badField 108)
      ensure (decide (dx < src.rank) && decide (dx ≠ dy)) (badField 109)
      ensure src.fmt.isFloat (badField 84)
      ensure (decide ((dst.shape.set dy 0).set dx 0 = (sh.set dy 0).set dx 0)) (badField 88)
  if op ≠ 3 then do
    ensure (decide (p.par 44 1 = 0)) (badField 108)
    ensure (decide (p.par 45 1 = 0)) (badField 109)
  zeroBytes p 110 111
  let out := dst.ranges
  let meets (off : Nat) : Bool := match s.desc v.ctx (p.at off 4) with
    | some d => rangesOverlap d.ranges out
    | none => false
  ensure (!meets 84) (badField 84)
  ensure (!meets 92) (badField 92)
  ensure (!meets 96) (badField 96)

/-- The bytes of the block that starts at an element: every data byte, beyond the shape too where a panel stores them, and its scale byte;
an element's own bytes in an unscaled format (R85, R97). -/
def Desc.blockBytes (d : Desc) (start : Nat) : List (Nat × Nat) :=
  if d.fmt.isBlock ∧ d.layout = 1 then ((d.locate (unflat d.shape start)).1 / 8, d.block * d.fmt.width / 8) :: d.rangesOf [start]
  else d.rangesOf (d.blockFlats start)

/-- The byte ranges of a COPY's destination that receive padding, at the granularity of storage (R97). -/
def State.padBytes (s : State) (v : View) (p : Packet) : List (Nat × Nat) :=
  match s.desc v.ctx (p.par 20 4), s.desc v.ctx (p.par 24 4) with
  | some src, some dst =>
    if p.trOp = 0 ∧ p.trPad then
      let pads := (List.range dst.count).filter fun f => (src.unpad (trIndex p (unflat dst.shape f))).isNone
      (pads.map dst.blockStart).eraseDups.flatMap dst.blockBytes
    else []
  | _, _ => []

/-- TRACER: its units wait for the plate's Tracer (R88, R192). -/
def execTracer (p : Packet) (s : State) : Host.Outcome State Fault Refusal :=
  .next (s.forOp p 0x0401 (s.startOnPlate p (fun s c x => s.checkTracer x (c.view s) p) (if p.trOp = 1 then .gather 0 [] else .counts [])))

/-! ### Running a unit (R83, R101, R102) -/

/-- The numbers that a TRACER command keeps: saturations, non-finite blocks and underflows, or the entries counted and, in an unordered
scatter, those done. -/
def Cmd.countAt (c : Cmd) (i : Nat) : Nat :=
  match c.work with
  | .counts l => l.getD i 0
  | .gather z _ => if i = 0 then z else 0
  | _ => 0

/-- What a GATHER has already read of the unit at an origin (R93). -/
def Cmd.heldUnit (c : Cmd) (o : List Nat) : Option (List (Nat × Nat)) :=
  match c.work with
  | .gather _ l => (l.find? fun x => x.1 = o).map (·.2)
  | _ => none

/-- A unit that a GATHER has read, kept for the list positions that name it again. -/
def Cmd.holdUnit (c : Cmd) (o : List Nat) (data : List (Nat × Nat)) : Cmd :=
  match c.work with
  | .gather z l => { c with work := .gather z (if l.any fun x => x.1 = o then l else l ++ [(o, data)]) }
  | _ => c

/-- The entries done by an unordered scatter. -/
def Cmd.doneEntries (c : Cmd) : List Nat :=
  match c.work with
  | .counts l => l.drop 1
  | _ => []

/-- The accesses of a unit, each with the packet field it is made through. -/
structure UnitIO where
  reads : List (Nat × List (Nat × Nat))
  writes : List (Nat × List (Nat × Nat))
deriving DecidableEq, Repr

/-- What stops a unit before its first access. -/
inductive UnitStop where
  | fault (kind : FaultKind) (va : Nat) (acc : Acc) (detail : Nat)
  | media (va pa detail : Nat)
  | host (detail : Nat)
deriving DecidableEq, Repr

/-- Translate and check every page of a unit (R83), and find an uncorrectable line or a host access that must wait. -/
def State.touchUnit (s : State) (v : View) (io : UnitIO) : Except (UnitStop × State) State := do
  let s ← io.reads.foldlM (fun (s : State) x => match s.touchAll v x.2 accR true with
    | .ok s => .ok s
    | .error (k, va) => .error (.fault k va accR x.1, s)) s
  let s ← io.writes.foldlM (fun (s : State) x => match s.touchAll v x.2 accW true with
    | .ok s => .ok s
    | .error (k, va) => .error (.fault k va accW x.1, s)) s
  match (io.reads ++ io.writes).find? fun x => s.hostBlocked v x.2 with
  | some x => .error (.host x.1, s)
  | none =>
    match io.reads.findSome? fun x => x.2.findSome? fun r => (s.badRange v.ctx v.bound r.1 r.2).map fun pa => (r.1, pa, x.1) with
    | some (va, pa, d) => .error (.media va pa d, s)
    | none => .ok s

/-- A unit that cannot go on: its command waits or ends. -/
def State.stopUnit (s : State) (c : Cmd) (e : UnitStop) : State :=
  match e with
  | .fault k va acc d => s.unitFault c k va acc d
  | .media va pa d => s.unitMedia c va pa d
  | .host d => s.waitHost c d

/-- The list's bytes, where it is a descriptor. -/
def State.listRanges (s : State) (v : View) (p : Packet) : List (Nat × Nat) := ((s.desc v.ctx (p.par 28 4)).map Desc.ranges).getD []

/-- A COPY or RESIZE unit: the bytes of its window as the whole command would write them. -/
def State.copyUnit (s : State) (c : Cmd) (seed : Nat) (src dst : Desc) : State :=
  let p := c.pkt
  let v := c.view s
  let w := dst.unitWindow c.cursor
  let flats := dst.unitFlats w
  match s.touchUnit v { reads := [(84, copySources p src dst flats)], writes := [(88, [w])] } with
  | .error (e, s) => s.stopUnit c e
  | .ok s =>
    let (padDraw, s) : Nat × State := if p.trPad then s.draw 24 else (0, s)
    let (img, counts) := s.copyImage v p (p.key seed) src dst padDraw
    let first (st : Nat) : Bool :=
      let a := (dst.locate (unflat dst.shape st)).1 / 8
      decide (w.1 ≤ a) && decide (a < w.1 + w.2)
    let k : Counts := ((counts.filter fun x => first x.1).map (·.2)).foldl Counts.add {}
    let s := s.vwrite v.ctx v.bound w.1 (img.vread v.ctx v.bound w.1 w.2)
    s.updCmd c.queue c.seq fun c => { c with
      cursor := c.cursor + 1
      work := .counts [c.countAt 0 + k.sat, c.countAt 1 + k.nonfin + k.invalid, c.countAt 2 + k.under] }

/-- The entry that the next unit of a list command runs: in list order, or any one left of an unordered scatter (R94, assumption 4). -/
def State.pickEntry (s : State) (c : Cmd) (total : Nat) : Nat × State :=
  if c.pkt.trOp = 2 ∧ c.pkt.trMode = 2 then
    let left := (List.range total).filter fun i => decide (i ∉ c.doneEntries)
    (left.getD (Config.unorderedPick s.free left.length % max 1 left.length) 0, { s with free := s.free + 1 })
  else (c.cursor, s)

/-- The first entry out of range under FAULT (R92). -/
def State.badEntry (s : State) (v : View) (p : Packet) (ix : Desc) (total : Nat) : Option Nat :=
  if p.trZero then none else (List.range total).find? fun n => (unitOrigin p ix (s.listEntry v p ix.rank n)).isNone

/-- An entry is done: it counts where it was out of range under ZERO (R92, R99). -/
def Cmd.entryDone (c : Cmd) (n : Nat) (out : Bool) : Cmd :=
  { c with
    cursor := c.cursor + 1
    work := match c.work with
      | .gather z l => .gather (z + b2n out) l
      | _ => .counts ((c.countAt 0 + b2n out) :: (if c.pkt.trOp = 2 ∧ c.pkt.trMode = 2 then n :: c.doneEntries else [])) }

/-- A GATHER entry: its unit is read where the command does not hold it yet, and its copy written (R93, R95). -/
def State.gatherEntry (s : State) (c : Cmd) (src dst : Desc) (total n : Nat) : State :=
  let p := c.pkt
  let v := c.view s
  let o := unitOrigin p src (s.listEntry v p src.rank n)
  let bm := s.desc v.ctx (p.par 32 4)
  let held := o.bind c.heldUnit
  let rd := if held.isSome then [] else (o.map fun o => src.rangesOf (unitStored p src o)).getD []
  let wr := dst.writtenOf ((unitCells p).map (listFlat p n))
  match s.touchUnit v { reads := [(84, rd)], writes := [(88, wr), (96, (bm.map Desc.ranges).getD [])] } with
  | .error (e, s) => s.stopUnit c e
  | .ok s =>
    let data := o.map fun o => (c.heldUnit o).getD (s.readUnit v p src o)
    let s := s.gatherUnit v p dst n data
    let s := match bm with
      | some b => s.gatherBits v p src b total n
      | none => s
    s.updCmd c.queue c.seq fun c => (match o, data with
      | some o, some data => c.holdUnit o data
      | _, _ => c).entryDone n o.isNone

/-- A SCATTER entry: written, added, or dropped where it is out of range (R92, R94). -/
def State.scatterEntry (s : State) (c : Cmd) (src dst : Desc) (n : Nat) : State :=
  let p := c.pkt
  let v := c.view s
  let o := unitOrigin p dst (s.listEntry v p dst.rank n)
  let rd := src.rangesOf ((unitCells p).filterMap fun ij => (src.unpad (unflat src.paddedShape (listFlat p n ij))).map (flatIdx src.shape))
  let cells := (o.map fun o => unitStored p dst o).getD []
  let io : UnitIO := if o.isNone then { reads := [], writes := [] }
    else { reads := (84, rd) :: (if p.trMode = 0 then [] else [(88, dst.rangesOf cells)]), writes := [(88, dst.writtenOf cells)] }
  match s.touchUnit v io with
  | .error (e, s) => s.stopUnit c e
  | .ok s =>
    let s := match o with
      | some o => s.scatterUnit v p src dst n o
      | none => s
    s.updCmd c.queue c.seq fun c => c.entryDone n o.isNone

/-- A GATHER or SCATTER unit: one list entry, after the scan of the whole list under FAULT (R92, R101). -/
def State.listUnit (s : State) (c : Cmd) (src dst : Desc) : State :=
  let p := c.pkt
  let v := c.view s
  let ix := (trSides p src dst).1
  let total := s.listLen v p ix.rank
  match s.touchUnit v { reads := [(92, s.listRanges v p)], writes := [] } with
  | .error (e, s) => s.stopUnit c e
  | .ok s =>
    match (if c.cursor = 0 then s.badEntry v p ix total else none) with
    | some n => s.endOnPlate c { status := .descRange, detail := 92, r0 := n }
    | none =>
      let (n, s) := s.pickEntry c total
      if p.trOp = 1 then s.gatherEntry c src dst total n else s.scatterEntry c src dst n

/-- TRACER_UNIT: the next unit of the first TRACER command that works on the plate and that no command begun there before it holds back (R72,
R101, R102). -/
def execTracerUnit (plate : Nat) (s : State) : Host.Outcome State Fault Refusal :=
  .next (match (s.working (.plate plate)).find? fun c => decide (c.pkt.opcode = 0x0401 ∧ c.cursor < s.tracerTotal (c.view s) c.pkt) && s.clearOn plate c with
    | none => s
    | some c =>
      match s.desc (c.view s).ctx (c.pkt.par 20 4), s.desc (c.view s).ctx (c.pkt.par 24 4), s.ctxOf c with
      | some src, some dst, some x => if c.pkt.trOp = 1 ∨ c.pkt.trOp = 2 then s.listUnit c src dst else s.copyUnit c x.seed src dst
      | _, _, _ => s)

/-- The ending of a TRACER command (R99). -/
def tracerEnding (c : Cmd) : Ending :=
  let p := c.pkt
  if p.trOp = 1 ∨ p.trOp = 2 then Ending.ok (min (c.countAt 0) (2 ^ 32 - 1)) (b2n (decide (p.trOp = 2 ∧ p.trMode = 2)))
  else Ending.ok (min (c.countAt 0) 65535 * 65536 + min (c.countAt 1) 65535) (min (c.countAt 2) (2 ^ 32 - 1))

end Sys2Proof.Machine
end

