-- ==== Sys2Proof/Machine/Stencil.lean ====
section
/-! DEFINITION. Stencil: ROUTE, EXIT and MASK (R103 to R116, R193). -/

namespace Sys2Proof.Machine

/-! ### Routing (R106 to R108) -/

/-- Element i of a vector named by a packet field. -/
def State.vecElem (s : State) (v : View) (h i : Nat) : FV :=
  match s.desc v.ctx h with
  | some d => s.padElem v d (unflat d.paddedShape i)
  | none => FV.zero

/-- The logits of token t. -/
def State.logitsOf (s : State) (v : View) (p : Packet) (t : Nat) : List FV :=
  match s.desc v.ctx (p.at 80 4) with
  | some d => (List.range p.rtE).map fun e => s.padElem v d [t, e]
  | none => []

/-- Is byte t of a byte vector nonzero; false without the vector. -/
def State.byteSet (s : State) (v : View) (h t : Nat) : Bool :=
  match s.desc v.ctx h with
  | some d => decide ((s.padElemCode v d (unflat d.paddedShape t)).1 ≠ 0)
  | none => false

/-- The router's view of token t (R106); a score that is NaN through its bias has an open place (assumption 59). -/
def State.routeToken (s : State) (v : View) (p : Packet) (t : Nat) : TokenRoute :=
  let ls := s.logitsOf v p t
  if s.byteSet v (p.at 88 4) t then .exited
  else if ls.any fun x => x.isNan || x.isInf then .nonfinite
  else
    let us := (ls.zipIdx).map fun x =>
      let u := roundTo .fp32 .rne (fvAdd .rne x.1 (s.vecElem v (p.at 84 4) x.2)).1
      if u.isNan then FV.ofInt (Config.nanScore t x.2) else u
    let score (e : Nat) : FV := us.getD e FV.zero
    let order := (List.range p.rtE).mergeSort fun a b =>
      let c := FV.cmp (score a) (score b)
      decide (c > 0) || (decide (c = 0) && decide (a ≤ b))
    .ranked order ls us

/-- A request: its token, its expert and its rank from 0. -/
structure Request where
  token : Nat
  expert : Nat
  rank : Nat
deriving DecidableEq, Repr

/-- The table that the router fills: the tokens in each expert's slots, in slot order; requests finally dropped; retries that found a slot. -/
structure RouteTable where
  slots : List (List Nat)
  dropped : List Request
  retried : Nat
deriving DecidableEq, Repr

/-- Slots taken of an expert. -/
def RouteTable.load (r : RouteTable) (e : Nat) : Nat := (r.slots.getD e []).length

/-- Give a token the next free slot of an expert. -/
def RouteTable.take (r : RouteTable) (e t : Nat) : RouteTable := { r with slots := r.slots.set e (r.slots.getD e [] ++ [t]) }

/-- A dropped request under the drop mode (R108). -/
def RouteTable.drop (r : RouteTable) (p : Packet) (order : List Nat) (q : Request) : RouteTable :=
  let beyond := (order.take (min p.rtE 16)).drop p.rtK
  match (if p.rtNext then beyond.find? fun e => decide (r.load e < p.rtC) && decide (q.token ∉ r.slots.getD e []) else none) with
  | some e => { r.take e q.token with retried := r.retried + 1 }
  | none => { r with dropped := r.dropped ++ [q] }

/-- The ranked list of token t; empty where it is not routed. -/
def orderOf (rs : List TokenRoute) (t : Nat) : List Nat :=
  match rs[t]? with
  | some (.ranked o _ _) => o
  | _ => []

/-- The logits of token t; empty where it is not routed. -/
def logitsAt (rs : List TokenRoute) (t : Nat) : List FV :=
  match rs[t]? with
  | some (.ranked _ ls _) => ls
  | _ => []

/-- The selection score of a request. -/
def scoreOf (rs : List TokenRoute) (q : Request) : FV :=
  match rs[q.token]? with
  | some (.ranked _ _ us) => us.getD q.expert FV.zero
  | _ => FV.zero

/-- The requests of one rank in ascending token index. -/
def rankRequests (rs : List TokenRoute) (rank : Nat) : List Request :=
  (List.range rs.length).filterMap fun t => ((orderOf rs t)[rank]?).map fun e => { token := t, expert := e, rank := rank }

/-- Fill the slots under ORDER (R108). -/
def fillOrder (p : Packet) (rs : List TokenRoute) : RouteTable :=
  ((List.range p.rtK).flatMap (rankRequests rs)).foldl (fun (r : RouteTable) q =>
    if r.load q.expert < p.rtC then r.take q.expert q.token else r.drop p (orderOf rs q.token) q)
    { slots := List.replicate p.rtE [], dropped := [], retried := 0 }

/-- Fill the slots under SCORE: each expert's best requests, their slots in ascending token index; then the retries, which take the next free
slots (R108; DEDUCED, assumption 56). -/
def fillScore (p : Packet) (rs : List TokenRoute) : RouteTable :=
  let reqs := (List.range p.rtK).flatMap (rankRequests rs)
  let better (a b : Request) : Bool :=
    let c := FV.cmp (scoreOf rs a) (scoreOf rs b)
    decide (c > 0) || (decide (c = 0) && (decide (a.token < b.token) || (decide (a.token = b.token) && decide (a.rank ≤ b.rank))))
  let best (e : Nat) : List Request := ((reqs.filter fun q => decide (q.expert = e)).mergeSort better).take p.rtC
  let slots := (List.range p.rtE).map fun e => ((best e).map (·.token)).mergeSort fun a b => decide (a ≤ b)
  let lost := (reqs.filter fun q => decide (q ∉ best q.expert)).mergeSort fun a b =>
    decide (a.token < b.token) || (decide (a.token = b.token) && decide (a.rank ≤ b.rank))
  lost.foldl (fun (r : RouteTable) q => r.drop p (orderOf rs q.token) q) { slots := slots, dropped := [], retried := 0 }

/-! ### Weights (R107) -/

/-- EXP of x − m in FP32. -/
def expShift (m x : FV) : FV := (transEval 0x0B (roundTo .fp32 .rne (fvSub .rne x m).1)).1

/-- An FP32 sum in ascending index, rounded at each addition. -/
def sumFp32 (l : List FV) : FV := l.foldl (fun a b => roundTo .fp32 .rne (fvAdd .rne a b).1) FV.zero

/-- The softmax weight of logit x among some logits in ascending expert index. -/
def softmaxOf (ls : List FV) (x : FV) : FV :=
  match ls with
  | [] => FV.zero
  | y :: t =>
    let m := t.foldl (fun a b => if FV.cmp b a > 0 then b else a) y
    roundTo .fp32 .rne (fvDiv (expShift m x) (sumFp32 (ls.map (expShift m)))).1

/-- The weight of an accepted expert of a token (R107). -/
def gateWeight (p : Packet) (logits : List FV) (accepted : List Nat) (e : Nat) : FV :=
  let x := logits.getD e FV.zero
  if p.rtTopk then softmaxOf logits x else softmaxOf (accepted.map fun a => logits.getD a FV.zero) x

/-- The experts that accepted a token, ascending. -/
def acceptedBy (r : RouteTable) (t : Nat) : List Nat := (List.range r.slots.length).filter fun e => decide (t ∈ r.slots.getD e [])

/-! ### Outputs (R109 to R112) -/

/-- The experts in list order: ascending, or by node under a placement table (R109, R112). -/
def State.expertOrder (s : State) (v : View) (p : Packet) : List Nat :=
  match s.desc v.ctx (p.at 104 4) with
  | none => List.range p.rtE
  | some d =>
    let node (e : Nat) : Nat := (s.padElemCode v d (unflat d.paddedShape e)).1 % 65536
    (List.range p.rtE).mergeSort fun a b => decide (node a < node b) || (decide (node a = node b) && decide (a ≤ b))

/-- The list's entries in order: the expert, and the token of a filled slot. -/
def listSlots (p : Packet) (order : List Nat) (r : RouteTable) : List (Nat × Option Nat) :=
  order.flatMap fun e =>
    let ts := (r.slots.getD e []).map fun t => (e, some t)
    if p.rtPacked then ts else ts ++ List.replicate (p.rtC - ts.length) (e, none)

/-- Write a tensor's codes from flat position n on. -/
def State.putCodes (s : State) (v : View) (d : Desc) (n : Nat) (codes : List Nat) : State :=
  (codes.zipIdx).foldl (fun (s : State) x => s.putCode v d (n + x.2) x.1 0x7F) s

/-- The statistics record (R110). -/
def statsBytes (p : Packet) (rs : List TokenRoute) (r : RouteTable) (probs : List Nat) : List Byte :=
  let reqs := (List.range p.rtK).flatMap (rankRequests rs)
  let requests (e : Nat) : Nat := (reqs.filter fun q => decide (q.expert = e)).length
  let most := (List.range p.rtE).foldl (fun b e => if requests b < requests e then e else b) 0
  let accepted := (r.slots.map (·.length)).foldl (· + ·) 0
  leBytes 4 rs.length ++ leBytes 4 reqs.length ++ leBytes 4 accepted ++ leBytes 4 r.dropped.length ++ leBytes 4 r.retried ++
    leBytes 4 (rs.filter fun x => decide (x = .exited)).length ++ leBytes 4 (rs.filter fun x => decide (x = .nonfinite)).length ++
    leBytes 2 most ++ leBytes 2 p.rtE ++ zeros 32 ++
    (List.range p.rtE).flatMap fun e => leBytes 4 (requests e) ++ leBytes 4 (r.load e) ++
      leBytes 4 (r.dropped.filter fun q => decide (q.expert = e)).length ++ leBytes 4 (probs.getD e 0)

/-- The exact sum of an expert's full-softmax probabilities over the routed tokens, as FP32 (R110). -/
def probSums (p : Packet) (rs : List TokenRoute) : List Nat :=
  let routed := (List.range rs.length).filter fun t => !(orderOf rs t).isEmpty
  (List.range p.rtE).map fun e =>
    let a := routed.foldl (fun (a : Int × Int) t =>
      let ls := logitsAt rs t
      match softmaxOf ls (ls.getD e FV.zero) with
      | .num sg m x => addExact a (signed sg m) x
      | _ => a) (0, 0)
    (encodeIeee .fp32 .rne 0 (.num (decide (a.1 < 0)) a.1.natAbs a.2)).1

/-- All outputs of a ROUTE command from its tokens' routes, and its result words (R109 to R111). -/
def State.routeWrite (s : State) (v : View) (p : Packet) (rs : List TokenRoute) : State × Nat × Nat :=
  let r := if p.rtScore then fillScore p rs else fillOrder p rs
  let slots := listSlots p (s.expertOrder v p) r
  let weight (x : Nat × Option Nat) : Nat := match x.2 with
    | some t => (encodeIeee .fp32 .rne 0 (gateWeight p (logitsAt rs t) (acceptedBy r t) x.1)).1
    | none => 0
  let coords := slots.flatMap fun x => match x.2 with
    | some t => [p.at 76 4 + t, 0]
    | none => [2 ^ 32 - 1, 0]
  let ws := slots.map weight
  let stats := statsBytes p rs r (probSums p rs)
  let put (s : State) (off : Nat) (codes : List Nat) : State := match s.desc v.ctx (p.at off 4) with
    | some d => s.putCodes v d 0 codes
    | none => s
  let offsets := (List.range (p.rtE + 1)).map fun e => ((List.range e).map r.load).foldl (· + ·) 0
  let s := put s 92 coords
  let s := put s 96 ws
  let s := if p.rtPacked then put s 100 offsets else s
  let s := match s.desc v.ctx (p.at 108 4) with
    | some d => s.vwrite v.ctx v.bound d.base stats
    | none => s
  (s, (r.slots.map (·.length)).foldl (· + ·) 0,
    min r.dropped.length 65535 * 65536 + min (rs.filter fun x => decide (x = .nonfinite)).length 65535)

/-! ### Checks (R105, R113, R114) -/

/-- A vector of a format and length. -/
def Desc.isVector (d : Desc) (fmts : List Fmt) (n : Nat) : Bool := decide (d.rank = 1) && decide (d.fmt ∈ fmts) && decide (d.elemCount = n)

/-- The byte ranges of a packet's handle fields. -/
def State.fieldRanges (s : State) (v : View) (p : Packet) (offs : List Nat) : List (Nat × Nat) :=
  offs.flatMap fun o => ((s.desc v.ctx (p.at o 4)).map Desc.ranges).getD []

/-- Does no command outside the group name an extent of an area (R105). -/
def State.privateArea (s : State) (c : Cmd) (rs : List (Nat × Nat)) : Bool :=
  s.cmds.all fun d => decide (d.queue = c.queue ∧ d.group = c.group) || decide (d.phase = .visible) || decide ((d.view s).ctx ≠ (c.view s).ctx) ||
    !rangesOverlap rs ((s.extents (d.view s).ctx d.pkt).map (·.2))

/-- The checks of ROUTE (R105, R112, R193). -/
def State.checkRoute (s : State) (c : Cmd) (v : View) (p : Packet) : Check := do
  let n := v.ctx
  let lg := s.desc n (p.at 80 4)
  let t := s.tokensOf v (p.at 80 4)
  ensure (decide (p.at 64 1 < 4)) (badField 64)
  ensure (decide (1 ≤ p.rtK) && decide (p.rtK ≤ 8) && decide (p.rtK ≤ p.rtE)) (badField 65)
  ensure (decide (1 ≤ p.rtE) && decide (p.rtE ≤ 1024) && (lg.all fun d => decide (d.paddedShape.getD 1 0 = p.rtE))) (badField 66)
  ensure (decide (p.at 68 1 < 16) && (!p.rtPacked || decide (p.at 104 4 = 0))) (badField 68)
  zeroBytes p 69 71
  ensure (decide (8 ≤ p.rtC) && decide (p.rtC ≤ 65536) && decide (p.rtC % 8 = 0)) (badField 72)
  ensure (decide (p.at 76 4 + t ≤ 2 ^ 31 - 1)) (badField 76)
  let lg ← s.needDesc n (p.at 80 4) 80 false
  ensure (decide (lg.rank = 2) && decide (lg.fmt = .fp32 ∨ lg.fmt = .bf16) && decide (1 ≤ t) && decide (t ≤ 65536)) (badField 80)
  let bias ← s.optDesc n (p.at 84 4) 84 false
  ensure (bias.all fun d => d.isVector [.fp32] p.rtE) (badField 84)
  let em ← s.optDesc n (p.at 88 4) 88 false
  ensure (em.all fun d => d.isVector [.int8] t) (badField 88)
  let entries := if p.rtPacked then min (t * p.rtK) (p.rtE * p.rtC) else p.rtE * p.rtC
  let fits (d : Desc) (k : Nat) : Bool := if p.rtPacked then decide (k ≤ d.count) else decide (d.count = k)
  let inputs := s.fieldRanges v p [80, 84, 88, 104]
  let clear (own : Nat) (others : List Nat) : Bool := !rangesOverlap (s.fieldRanges v p [own]) (inputs ++ s.fieldRanges v p others)
  let ls ← s.needDesc n (p.at 92 4) 92 true
  ensure (decide (ls.fmt = .int32) && decide (ls.rank = 2) && decide (ls.shape.getD 1 0 = 2) && fits ls (2 * entries) && clear 92 [96, 100])
    (badField 92)
  let w ← s.needDesc n (p.at 96 4) 96 true
  ensure (decide (w.fmt = .fp32) && fits w entries && clear 96 [92, 100]) (badField 96)
  if p.rtPacked then do
    let o ← s.needDesc n (p.at 100 4) 100 true
    ensure (o.isVector [.int32] (p.rtE + 1) && clear 100 [92, 96]) (badField 100)
  else nullField p 100
  let pl ← s.optDesc n (p.at 104 4) 104 false
  ensure (pl.all fun d => d.isVector [.int32] p.rtE) (badField 104)
  let st ← s.optDesc n (p.at 108 4) 108 true
  ensure (st.all fun d => decide (d.extent = 64 + 16 * p.rtE) && decide (d.base % 8 = 0)) (badField 108)
  let a ← s.needDesc n (p.at 112 4) 112 true
  ensure (decide (a.extent = 64 + 16 * p.rtE) && s.privateArea c a.ranges) (badField 112)
  zeroBytes p 116 127

/-- The checks of EXIT (R113, R193). -/
def State.checkExit (s : State) (v : View) (p : Packet) : Check := do
  let n := v.ctx
  ensure (decide (p.at 64 1 < 4)) (badField 64)
  zeroBytes p 65 67
  let th := decodeIeee .fp32 (p.at 68 4)
  ensure (!th.isNan && !th.isInf) (badField 68)
  let sc ← s.needDesc n (p.at 72 4) 72 false
  let t := sc.elemCount
  ensure (decide (sc.fmt = .fp32) && decide (sc.rank = 1) && decide (t ≤ 65536)) (badField 72)
  let em ← s.optDesc n (p.at 76 4) 76 false
  ensure (em.all fun d => d.isVector [.int8] t) (badField 76)
  let out ← s.needDesc n (p.at 80 4) 80 true
  ensure (out.isVector [.int8] t) (badField 80)
  let ls ← s.needDesc n (p.at 84 4) 84 true
  ensure (decide (ls.fmt = .int32) && decide (ls.rank = 2) && decide (ls.shape = [roundUp t 8, 2])) (badField 84)
  let bm ← s.optDesc n (p.at 88 4) 88 true
  ensure (bm.all fun d => decide (d.extent ≥ bitmapBytes t (p.at 92 4))) (badField 88)
  ensure (if bm.isSome then decide (1 ≤ p.at 92 4) else decide (p.at 92 4 = 0)) (badField 92)

/-- Bytes of one query block's row of a mask (R115). -/
def maskRowBytes (lk bk : Nat) : Nat := ceilDiv (ceilDiv lk bk) 32 * 8

/-- Bytes of a mask with its trailer (R115). -/
def maskBytes (lq lk bq bk : Nat) : Nat := ceilDiv lq bq * maskRowBytes lk bk + 8

/-- The checks of MASK (R114, R193). -/
def State.checkMask (s : State) (v : View) (p : Packet) : Check := do
  let n := v.ctx
  let lq := p.at 68 4
  let lk := p.at 72 4
  ensure (decide (p.at 64 1 < 4)) (badField 64)
  ensure (decide (p.at 65 1 < 2)) (badField 65)
  ensure (decide (p.at 66 1 < 3)) (badField 66)
  ensure (decide (p.at 67 1 < 3)) (badField 67)
  ensure (decide (1 ≤ lq) && decide (lq ≤ 1048576)) (badField 68)
  ensure (decide (1 ≤ lk) && decide (lk ≤ 1048576)) (badField 72)
  ensure (decide ((lk : Int) - lq ≤ sext 32 (p.at 76 4))) (badField 76)
  ensure (decide (p.at 80 4 ≤ lk)) (badField 80)
  let sq ← s.optDesc n (p.at 84 4) 84 false
  ensure (sq.all fun d => d.isVector [.int32] lq) (badField 84)
  let sk ← s.optDesc n (p.at 88 4) 88 false
  ensure (sk.all (fun d => d.isVector [.int32] lk) && decide (sk.isSome = sq.isSome)) (badField 88)
  let out ← s.needDesc n (p.at 96 4) 96 true
  let ov ← s.optDesc n (p.at 92 4) 92 false
  let size := maskBytes lq lk (blockSize (p.at 66 1)) (blockSize (p.at 67 1))
  ensure (ov.all fun d => decide (d.shape = out.shape) && decide (d.fmt = out.fmt) && decide (size ≤ d.extent)) (badField 92)
  ensure (decide (size ≤ out.extent)) (badField 96)
  zeroBytes p 100 111

/-! ### The commands -/

/-- ROUTE: its tokens wait for the tile's router (R105, R193). -/
def execRoute (p : Packet) (s : State) : Host.Outcome State Fault Refusal :=
  .next (s.forOp p 0x0501 (s.startOnPlate p (fun s c _ => s.checkRoute c (c.view s) p) (.routed [])))

/-- EXIT: its tokens wait for the tile's router (R113, R193). -/
def execExit (p : Packet) (s : State) : Host.Outcome State Fault Refusal :=
  .next (s.forOp p 0x0502 (s.startOnPlate p (fun s c _ => s.checkExit (c.view s) p) (.counts [])))

/-- MASK: its block rows wait for the tile's router (R114, R193). -/
def execMask (p : Packet) (s : State) : Host.Outcome State Fault Refusal :=
  .next (s.forOp p 0x0503 (s.startOnPlate p (fun s c _ => s.checkMask (c.view s) p) (.counts [])))

/-- Flat positions [a, a + n) of a field's tensor, as byte ranges. -/
def State.fieldElems (s : State) (v : View) (p : Packet) (off a n : Nat) : Nat × List (Nat × Nat) :=
  (off, ((s.desc v.ctx (p.at off 4)).map fun d => d.rangesOf ((List.range n).filterMap fun i => (d.unpad (unflat d.paddedShape (a + i))).map (flatIdx d.shape))).getD [])

/-- The whole of a field's tensor. -/
def State.fieldAll (s : State) (v : View) (p : Packet) (off : Nat) : Nat × List (Nat × Nat) :=
  (off, ((s.desc v.ctx (p.at off 4)).map Desc.ranges).getD [])

/-- Firmware's running state in a private area after a unit: bytes that no rule lays out (R104, R131, R136; assumption 52). -/
def State.keepArea (s : State) (v : View) (rs : List (Nat × Nat)) : State :=
  rs.foldl (fun (s : State) r => s.vwrite v.ctx v.bound r.1 ((List.range r.2).map fun i => Config.areaByte s.free (r.1 + i)))
    { s with free := s.free + 1 }

/-- The tokens that a ROUTE has taken so far. -/
def Cmd.routedTokens (c : Cmd) : List TokenRoute :=
  match c.work with
  | .routed l => l
  | _ => []

/-- A token of ROUTE: it is ranked from its inputs and the running state goes on; with the last one the outputs are written (R104, R106). -/
def State.tokenRoute (s : State) (c : Cmd) : State :=
  let p := c.pkt
  let v := c.view s
  let t := c.cursor
  let last := decide (t + 1 = s.tokensOf v (p.at 80 4))
  let area := s.fieldAll v p 112
  let io : UnitIO :=
    { reads := [s.fieldElems v p 80 (t * p.rtE) p.rtE, s.fieldAll v p 84, s.fieldElems v p 88 t 1] ++ (if last then [s.fieldAll v p 104] else [])
      writes := if last then [92, 96, 100, 108].map (s.fieldAll v p) ++ [area] else [area] }
  match s.touchUnit v io with
  | .error (e, s) => s.stopUnit c e
  | .ok s =>
    let rs := c.routedTokens ++ [s.routeToken v p t]
    let s := s.keepArea v area.2
    if last then
      let (s, acc, rest) := s.routeWrite v p rs
      s.updCmd c.queue c.seq fun c => { c with cursor := t + 1, work := .counts [acc, rest] }
    else s.updCmd c.queue c.seq fun c => { c with cursor := t + 1, work := .routed rs }

/-- Does token t exit (R113). -/
def State.exits (s : State) (v : View) (p : Packet) (t : Nat) : Bool :=
  let x := s.vecElem v (p.at 72 4) t
  s.byteSet v (p.at 76 4) t || (!x.isNan && decide (FV.cmp x (decodeIeee .fp32 (p.at 68 4)) ≥ 0))

/-- A token of EXIT: its mask byte, its place in the live list, and the bitmap bits of the group that it ends (R56, R113). The counts kept: live
tokens, NaN scores, and live tokens of the present group. -/
def State.tokenExit (s : State) (c : Cmd) : State :=
  let p := c.pkt
  let v := c.view s
  let t := c.cursor
  let total := s.tokensOf v (p.at 72 4)
  let last := decide (t + 1 = total)
  let live := c.countAt 0
  let tail := if last then 2 * (roundUp total 8 - live) else 2
  let io : UnitIO :=
    { reads := [s.fieldElems v p 72 t 1, s.fieldElems v p 76 t 1]
      writes := [s.fieldElems v p 80 t 1, s.fieldElems v p 84 (2 * live) tail, s.fieldAll v p 88] }
  match s.touchUnit v io with
  | .error (e, s) => s.stopUnit c e
  | .ok s =>
    let out := s.exits v p t
    let nan := (s.vecElem v (p.at 72 4) t).isNan
    let inGroup := (if t % 8 = 0 then 0 else c.countAt 2) + b2n (!out)
    let put (s : State) (off n : Nat) (codes : List Nat) : State := match s.desc v.ctx (p.at off 4) with
      | some d => s.putCodes v d n codes
      | none => s
    let s := put s 80 t [if out then 1 + Config.exitMark.val else 0]
    let s := if out then s else put s 84 (2 * live) [t, 0]
    let live' := live + b2n (!out)
    let s := if last then put s 84 (2 * live') ((List.replicate (roundUp total 8 - live') [2 ^ 32 - 1, 0]).flatMap id) else s
    let k := p.at 92 4
    let s := match (if last ∨ t % 8 = 7 then s.desc v.ctx (p.at 88 4) else none) with
      | some bm => (List.range (ceilDiv k 128)).foldl (fun (s : State) b => s.markBlock v bm.base k (t / 8) b (decide (inGroup = 0))) s
      | none => s
    s.updCmd c.queue c.seq fun c => { c with cursor := t + 1, work := .counts [live', c.countAt 1 + b2n nan, inGroup] }

/-- Is key position j visible to query i (R114): causal, window, offset, and the two segment ids where there are any. -/
def visiblePair (causal : Bool) (window : Nat) (offset : Int) (segs : Option (Int × Int)) (i j : Nat) : Bool :=
  let p : Int := i + offset
  (!causal || decide ((j : Int) ≤ p)) && (decide (window = 0) || decide (p - j < window)) &&
    (match segs with
     | some (a, b) => decide (a = b) && decide (a ≠ -1)
     | none => true)

/-- The segment id at position i of a vector. -/
def State.segId (s : State) (v : View) (h i : Nat) : Int :=
  match s.desc v.ctx h with
  | some d => sext 32 (s.padElemCode v d (unflat d.paddedShape i)).1
  | none => 0

/-- A field of a mask: query block a, key block b (R115). -/
def State.maskField (s : State) (v : View) (base rowBytes a b : Nat) : Nat :=
  (s.vbyte v.ctx v.bound (base + a * rowBytes + b / 4)).toNat / 4 ^ (b % 4) % 4

/-- The code of a block pair of a MASK command (R115). -/
def State.maskCode (s : State) (v : View) (p : Packet) (a b : Nat) : Nat :=
  let lq := p.at 68 4
  let lk := p.at 72 4
  let bq := blockSize (p.at 66 1)
  let bk := blockSize (p.at 67 1)
  let ids := decide (p.at 84 4 ≠ 0)
  let vis (i j : Nat) : Bool := decide (i < lq) && decide (j < lk) &&
    visiblePair (bitOf (p.at 65 1) 0) (p.at 80 4) (sext 32 (p.at 76 4))
      (if ids then some (s.segId v (p.at 84 4) i, s.segId v (p.at 88 4) j) else none) i j
  let forced : Bool := match s.desc v.ctx (p.at 92 4) with
    | some d => decide (s.maskField v d.base (maskRowBytes lk bk) a b = 0)
    | none => false
  let pairs := (List.range bq).flatMap fun i => (List.range bk).map fun j => vis (a * bq + i) (b * bk + j)
  if forced ∨ ¬ pairs.any id then 0 else if pairs.all id then 1 else 2

/-- A block row of MASK, and with the last one the trailer (R115). -/
def State.rowMask (s : State) (c : Cmd) : State :=
  let p := c.pkt
  let v := c.view s
  let a := c.cursor
  let lk := p.at 72 4
  let bq := blockSize (p.at 66 1)
  let nk := ceilDiv lk (blockSize (p.at 67 1))
  let rb := maskRowBytes lk (blockSize (p.at 67 1))
  let last := decide (a + 1 = ceilDiv (p.at 68 4) bq)
  match s.desc v.ctx (p.at 96 4) with
  | none => s
  | some out =>
    let row := (out.base + a * rb, if last then rb + 8 else rb)
    let ov := ((s.desc v.ctx (p.at 92 4)).map fun d => [(d.base + a * rb, rb)]).getD []
    match s.touchUnit v { reads := [s.fieldElems v p 84 (a * bq) (min bq (p.at 68 4 - a * bq)), s.fieldAll v p 88, (92, ov)], writes := [(96, [row])] } with
    | .error (e, s) => s.stopUnit c e
    | .ok s =>
      let codes := (List.range nk).map (s.maskCode v p a)
      let word := (codes.zipIdx).foldl (fun w x => w + x.1 * 4 ^ x.2) 0
      let count (k : Nat) : Nat := (codes.filter (· = k)).length
      let skips := c.countAt 2 + b2n (codes.all (· = 0))
      let s := s.vwrite v.ctx v.bound row.1 (leBytes rb word ++ (if last then leBytes 4 skips ++ zeros 4 else []))
      s.updCmd c.queue c.seq fun c => { c with
        cursor := c.cursor + 1
        work := .counts [c.countAt 0 + count 1, c.countAt 1 + count 2, skips] }

/-- STENCIL_TOKEN: the next token or block row of the first command that works on the router (R104). -/
def execStencilToken (tile : Nat) (s : State) : Host.Outcome State Fault Refusal :=
  .next (match (s.working (.router tile)).find? fun c => decide (c.cursor < s.stencilTotal (c.view s) c.pkt) with
    | none => s
    | some c =>
      match c.pkt.opcode with
      | 0x0501 => s.tokenRoute c
      | 0x0502 => s.tokenExit c
      | _ => s.rowMask c)

/-- The ending of a Stencil command (R111, R113, R115). -/
def stencilEnding (c : Cmd) : Ending := Ending.ok (c.countAt 0) (c.countAt 1)

end Sys2Proof.Machine
end

