-- ==== Sys2Proof/Machine/Aquatint.lean ====
section
/-! DEFINITION. Aquatint: ATTN_FWD, ATTN_PREP and ATTN_BWD, pair by pair (R129 to R137, R191). -/

namespace Sys2Proof.Machine

/-! ### Arithmetic -/

/-- A value rounded to FP32, with a draw for SR. -/
def rnd32 (m : RMode) (r : Nat) (x : FV) : FV := decodeIeee .fp32 (encodeIeee .fp32 m r x).1

/-- log2 e to 200 binary places: enough for the one rounding of c (R129's preface; DEDUCED, assumption 62). -/
def log2e : FV := .num false 2318321547468254865173387471183990171487108758923299108729110 (-200)

/-- σ: the SIGMA field, or 1 / √dh correctly rounded (R129). -/
def sigmaOf (p : Packet) : FV :=
  let x := decodeIeee .fp32 (p.at 128 4)
  if x.isZero then rnd32 .rne 0 (fvSqrt (.num false 1 (-(Nat.log2 p.aqDh : Int)))).1 else x

/-- c = σ × log2 e, once, in FP32 by RNE. -/
def scaleOf (p : Packet) : FV := rnd32 .rne 0 (fvMul (sigmaOf p) log2e).1

/-- The rounding of the Stipple operations inside a pair (R66, R118, R131). -/
def pairMode (p : Packet) : RMode := entryRounding p.modes.rounding (p.par 10 2) 1

/-- A draw inside a pair (assumption 65). -/
def pairDraw (step head row col : Nat) : Nat := (Config.scoreDraw step head row col).toNat

/-- A Burin product's element with its accumulate-in value, g products a clock (R50). -/
def dotBurin (g : Nat) (acc : FV) (xs : List (FV × FV)) : FV :=
  (List.range (ceilDiv xs.length g)).foldl (fun acc r =>
    let t := sumSpecial (((xs.drop (r * g)).take g).map fun x => (fvMul x.1 x.2).1)
    let t := if t.isZero then FV.zero else t
    (rnd32 .rne 0 (fvAdd .rne acc t).1).canon) acc

/-- g of a product of two formats. -/
def pairG (a b : Fmt) : Nat := ((burinMode a b).map (·.1)).getD 1

/-- A row SUM of FP32 values: exact in each tile of 128 columns, the tiles added in ascending index (R68, R69). -/
def rowSum (m : RMode) (r : Nat → Nat) (xs : List FV) : FV :=
  let parts := (List.range (ceilDiv xs.length 128)).map fun j =>
    decodeIeee .fp32 (reduceVec 0x30 .fp32 .fp32 m false (r j) ((xs.drop (128 * j)).take 128)).code
  match parts with
  | [] => FV.zero
  | x :: t => t.foldl (fun a b => rnd32 m (r 0) (fvAdd m a b).1) x

/-- EXP2. -/
def exp2 (x : FV) : FV := (transEval 0x09 x).1

/-- A value stored in BF16 by RNE and read back. -/
def viaBf16 (x : FV) : FV := roundTo .bf16 .rne x

/-! ### Operands -/

/-- The format of a field's tensor. -/
def State.aqFmt (s : State) (v : View) (p : Packet) (off : Nat) : Fmt := ((s.desc v.ctx (p.at off 4)).map (·.fmt)).getD .bf16

/-- An element of a field's tensor, decoded exactly (R28). -/
def State.aqElem (s : State) (v : View) (p : Packet) (off : Nat) (idx : List Nat) : FV :=
  match s.desc v.ctx (p.at off 4) with
  | some d => s.padElem v d idx
  | none => FV.zero

/-- An element as a Stipple operation reads it in FP32. -/
def State.aqElem32 (s : State) (v : View) (p : Packet) (off : Nat) (idx : List Nat) : FV :=
  match s.desc v.ctx (p.at off 4) with
  | some d => widenFor .fp32 0 .rne 0 d (s.padElem v d idx)
  | none => FV.zero

/-- The bytes of rows [a, a + n) of head h of a field's tensor. -/
def State.aqRows (s : State) (v : View) (p : Packet) (off h a n : Nat) : Nat × List (Nat × Nat) :=
  (off, match s.desc v.ctx (p.at off 4) with
    | none => []
    | some d =>
      let cols := if d.rank = 3 then d.paddedShape.getD 2 1 else 1
      let idxs := (List.range n).flatMap fun i => (List.range cols).map fun j => if d.rank = 3 then [h, a + i, j] else [h, a + i]
      d.rangesOf ((idxs.filterMap d.unpad).map (flatIdx d.shape)))

/-- The bytes that writing those rows touches, with what lies beyond the shape (R86). -/
def State.aqOut (s : State) (v : View) (p : Packet) (off h a n : Nat) : Nat × List (Nat × Nat) :=
  (off, match s.desc v.ctx (p.at off 4) with
    | none => []
    | some d =>
      let cols := if d.rank = 3 then d.shape.getD 2 1 else 1
      let idxs := (List.range n).flatMap fun i => (List.range cols).map fun j => if d.rank = 3 then [h, a + i, j] else [h, a + i]
      d.writtenOf (idxs.map (flatIdx d.shape)))

/-- Rows of query block i, and of key block j. -/
def aqRowsOf (l b i : Nat) : Nat := min b (l - i * b)

/-- The mask's code for a block pair: FULL without a mask (R115, R130). -/
def State.aqMask (s : State) (v : View) (p : Packet) (i j : Nat) : Nat :=
  match s.desc v.ctx (p.at 132 4) with
  | none => 1
  | some d =>
    let k := s.maskField v d.base (maskRowBytes p.aqLk p.aqBk) i j
    if k = 3 then Config.reservedMask.val else k

/-- Is key k visible to query q, by the command's own fields (R114, R130). -/
def State.aqVisible (s : State) (v : View) (p : Packet) (q k : Nat) : Bool :=
  visiblePair p.aqCausal (p.at 124 4) (sext 32 (p.at 120 4))
    (if p.at 136 4 = 0 then none else some (s.segId v (p.at 136 4) q, s.segId v (p.at 140 4) k)) q k

/-- The scores of query row q of head h against key block j, after the SELECT of a PARTIAL block (R131 steps 2 and 3). -/
def State.scoreRow (s : State) (v : View) (p : Packet) (h q i j : Nat) : List FV :=
  let g := pairG (s.aqFmt v p 144) (s.aqFmt v p 148)
  let partly := decide (s.aqMask v p i j = 2)
  (List.range (aqRowsOf p.aqLk p.aqBk j)).map fun n =>
    let k := j * p.aqBk + n
    if partly ∧ ¬ s.aqVisible v p q k then .inf true
    else dotBurin g FV.zero ((List.range p.aqDh).map fun d =>
      (s.aqElem v p 144 [h, q, d], s.aqElem v p 148 [h / max 1 p.aqGroup, k, d]))

/-- Does a row see a key of a block: every key of a FULL one. -/
def State.rowSees (s : State) (v : View) (p : Packet) (q i j : Nat) : Bool :=
  decide (s.aqMask v p i j = 1) ||
    (List.range (aqRowsOf p.aqLk p.aqBk j)).any fun n => s.aqVisible v p q (j * p.aqBk + n)

/-! ### Forward (R131 to R133) -/

/-- A row of a row job: m, l and O as FP32 values, and whether it has seen a visible key. -/
structure AqRow where
  m : FV
  l : FV
  o : List FV
  seen : Bool
deriving DecidableEq, Repr

/-- A row before its first pair. -/
def newRow (dh : Nat) : AqRow := { m := .inf true, l := FV.zero, o := List.replicate dh FV.zero, seen := false }

/-- One pair of a row: steps 2 to 9 of R131. -/
def State.rowPair (s : State) (v : View) (p : Packet) (h q i j : Nat) (a : AqRow) : AqRow :=
  let md := pairMode p
  let c := scaleOf p
  let xs := s.scoreRow v p h q i j
  let b := match xs with
    | [] => .inf true
    | x :: t => t.foldl (fun a b => (fvMaxMin true true a b).1) x
  let mb := rnd32 .rne 0 (fvMul c b).1
  let m' := (fvMaxMin true true a.m mb).1
  let low := decide (m' = .inf true)
  let ps := (xs.zipIdx).map fun x =>
    if low then FV.zero else exp2 (rnd32 md (pairDraw 5 h q (j * p.aqBk + x.2)) (fvFma md x.1 c m'.negate).1)
  let r := rowSum md (fun t => pairDraw 6 h q t) ps
  let alpha := if low then FV.ofInt 1 else exp2 (rnd32 md (pairDraw 7 h q j) (fvSub md a.m m').1)
  let l' := rnd32 md (pairDraw 8 h q j) (fvFma md alpha a.l r).1
  let g := pairG .bf16 (s.aqFmt v p 152)
  let o' := (a.o.zipIdx).map fun x =>
    dotBurin g (rnd32 md (pairDraw 9 h q x.2) (fvMul x.1 alpha).1) ((ps.zipIdx).map fun y =>
      (viaBf16 y.1, s.aqElem v p 152 [h / max 1 p.aqGroup, j * p.aqBk + y.2, x.2]))
  { m := m', l := l', o := o', seen := a.seen || s.rowSees v p q i j }

/-- A row's results: its O values before conversion, and L (R131, R133). -/
def rowResult (p : Packet) (h q : Nat) (a : AqRow) : List FV × FV :=
  if ¬ a.seen then (a.o.map fun _ => FV.zero, .inf true)
  else
    let md := pairMode p
    let rcp := (transEval 0x07 a.l).1
    ((a.o.zipIdx).map fun x => rnd32 md (pairDraw 10 h q x.2) (fvMul x.1 rcp).1,
      rnd32 .rne 0 (fvAdd .rne a.m (transEval 0x0A a.l).1).1)

/-! ### Backward (R134) -/

/-- Row q of head h against key block j: p in FP32 and dS as stored in BF16, key by key. -/
def State.gradRow (s : State) (v : View) (p : Packet) (h q i j : Nat) : List (FV × FV) :=
  let md := pairMode p
  let c := scaleOf p
  let l := s.aqElem v p 160 [h, q]
  let dd := s.aqElem v p 168 [h, q]
  let g := pairG (s.aqFmt v p 164) (s.aqFmt v p 152)
  ((s.scoreRow v p h q i j).zipIdx).map fun x =>
    let k := j * p.aqBk + x.2
    let pr := if l = .inf true then FV.zero else exp2 (rnd32 md (pairDraw 11 h q k) (fvFma md x.1 c l.negate).1)
    let dp := dotBurin g FV.zero ((List.range p.aqDh).map fun d =>
      (s.aqElem v p 164 [h, q, d], s.aqElem v p 152 [h / max 1 p.aqGroup, k, d]))
    let a := rnd32 md (pairDraw 12 h q k) (fvSub md dp dd).1
    let b := rnd32 md (pairDraw 13 h q k) (fvMul a pr).1
    (pr, viaBf16 (rnd32 md (pairDraw 14 h q k) (fvMul b (sigmaOf p)).1))

/-! ### Checks (R129) -/

/-- A format that Q, K and V may have. -/
def attnFmt (d : Desc) : Bool :=
  decide (d.fmt = .bf16 ∨ d.fmt = .fp16) || (decide (d.fmt = .e4m3 ∨ d.fmt = .e5m2) && decide (d.block = 32) && decide (d.axis = 2))

/-- A tensor of the command: its rights, its formats and its shape. Q, K, V, O and L, whose rows name ACCESS_DENIED, end so where a right is
missing; the others end with BAD_FIELD. -/
def State.aqTensor (s : State) (v : View) (p : Packet) (off : Nat) (write : Bool) (ok : Desc → Bool) (shape : List Nat) : Check := do
  let d ← s.needRight v.ctx (p.at off 4) off write (if off ≤ 160 then .accessDenied else .badField)
  ensure (ok d && decide (d.paddedShape = shape)) (badField off)

/-- As `aqTensor`, for a field that may be null. -/
def State.aqTensorOpt (s : State) (v : View) (p : Packet) (off : Nat) (write : Bool) (ok : Desc → Bool) (shape : List Nat) : Check :=
  if p.at off 4 = 0 then .ok () else s.aqTensor v p off write ok shape

/-- Bytes of the workspace, in 32nds for the staged formats (R135). -/
def State.aqWorkspace (s : State) (v : View) (p : Packet) : Nat :=
  let bq := p.aqBq
  let bk := p.aqBk
  let dh := p.aqDh
  let e := if [144, 148, 152].any fun o => decide (p.at o 4 ≠ 0) && !(s.aqFmt v p o).isBlock then 64
    else if [144, 148, 152].any fun o => decide (p.at o 4 ≠ 0) then 33 else 64
  let fwd := 6 * (8 * bq * dh + 2 * bq * bk + 16 * bq) + (6 * e * bq * dh + 4 * e * bk * dh) / 32
  if p.opcode = 0x0305 then fwd + 6 * (8 * bk * dh + 2 * bq * bk + 4 * bq) else fwd

/-- Output formats of O. -/
def outFmt (d : Desc) : Bool := decide (d.fmt ∈ [Fmt.bf16, .fp16, .fp32]) || d.fmt.isBlock

/-- The checks of the attention commands (R129, R191). Fields that an operation does not use are null; ATTN_PREP takes the operands of the
scores too (DEDUCED, assumption 60). -/
def State.checkAttn (s : State) (c : Ctx) (v : View) (p : Packet) : Check := do
  let op := p.opcode
  let fwd := decide (op = 0x0303)
  let prep := decide (op = 0x0304)
  let bwd := decide (op = 0x0305)
  s.checkNumbering c p false
  ensure (decide (p.par 10 2 ≠ 3)) (badField 74)
  s.checkPlate (p.at 80 1) 80
  ensure (decide (p.at 81 1 < 2)) (badField 81)
  ensure (decide (p.at 82 1 < 3)) (badField 82)
  ensure (decide (p.at 83 1 < 3)) (badField 83)
  ensure (decide (1 ≤ p.aqH) && decide (p.aqH ≤ 256)) (badField 84)
  ensure (decide (1 ≤ p.aqHkv) && decide (p.aqHkv ≤ 256) && decide (p.aqH % p.aqHkv = 0)) (badField 86)
  ensure (decide (p.aqDh ∈ [64, 128, 256])) (badField 88)
  ensure (decide (p.aqH0 < p.aqH) && (!bwd || decide (p.aqH0 % p.aqGroup = 0))) (badField 90)
  ensure (decide (1 ≤ p.aqNh) && decide (p.aqH0 + p.aqNh ≤ p.aqH) && (!bwd || decide (p.aqNh % p.aqGroup = 0))) (badField 92)
  zeroBytes p 94 95
  ensure (decide (1 ≤ p.aqLq) && decide (p.aqLq ≤ 1048576)) (badField 96)
  ensure (decide (1 ≤ p.aqLk) && decide (p.aqLk ≤ 1048576)) (badField 100)
  ensure (decide (p.aqQ0 < p.aqQBlocks)) (badField 104)
  ensure (decide (1 ≤ p.aqNq) && decide (p.aqQ0 + p.aqNq ≤ p.aqQBlocks)) (badField 108)
  ensure (if bwd then decide (p.aqK0 < p.aqKBlocks) else decide (p.aqK0 = 0)) (badField 112)
  ensure (if bwd then decide (1 ≤ p.aqNk) && decide (p.aqK0 + p.aqNk ≤ p.aqKBlocks) else decide (p.aqNk = 0)) (badField 116)
  ensure (decide ((p.aqLk : Int) - p.aqLq ≤ sext 32 (p.at 120 4)) || (prep && decide (p.at 120 4 = 0))) (badField 120)
  ensure (decide (p.at 124 4 ≤ p.aqLk)) (badField 124)
  let sg := decodeIeee .fp32 (p.at 128 4)
  ensure (!sg.isNan && !sg.isInf && decide (FV.cmp sg FV.zero ≥ 0)) (badField 128)
  let mk ← s.optDesc v.ctx (p.at 132 4) 132 false
  ensure (mk.all fun d => decide (maskBytes p.aqLq p.aqLk p.aqBq p.aqBk ≤ d.extent)) (badField 132)
  let sq ← s.optDesc v.ctx (p.at 136 4) 136 false
  ensure (sq.all fun d => d.isVector [.int32] p.aqLq) (badField 136)
  let sk ← s.optDesc v.ctx (p.at 140 4) 140 false
  ensure (sk.all (fun d => d.isVector [.int32] p.aqLk) && decide (sk.isSome = sq.isSome)) (badField 140)
  let qs := [p.aqH, p.aqLq, p.aqDh]
  let ks := [p.aqHkv, p.aqLk, p.aqDh]
  let rows := [p.aqH, p.aqLq]
  let f (off : Nat) : Fmt := s.aqFmt v p off
  let pair (a b : Fmt) : Bool := (burinMode a b).isSome
  if prep then do
    s.aqTensorOpt v p 144 false attnFmt qs
    s.aqTensorOpt v p 148 false attnFmt ks
    s.aqTensorOpt v p 152 false attnFmt ks
  else do
    s.aqTensor v p 144 false attnFmt qs
    ensure (!bwd || pair .bf16 (f 144)) (badField 144)
    s.aqTensor v p 148 false attnFmt ks
    ensure (pair (f 144) (f 148) && (!bwd || pair .bf16 (f 148))) (badField 148)
    s.aqTensor v p 152 false attnFmt ks
    ensure (!fwd || pair .bf16 (f 152)) (badField 152)
  s.aqTensor v p 156 fwd outFmt qs
  let isF32 (d : Desc) : Bool := decide (d.fmt = .fp32)
  s.aqTensor v p 160 fwd isF32 rows
  if fwd then do
    nullField p 164
    nullField p 168
  else do
    s.aqTensor v p 164 false (fun d => d.fmt.isBurin) qs
    ensure (!bwd || (pair (f 164) (f 152) && pair .bf16 (f 164))) (badField 164)
    s.aqTensor v p 168 prep isF32 rows
  let grad (d : Desc) : Bool := decide (d.fmt = .fp32 ∨ d.fmt = .bf16)
  if bwd then do
    s.aqTensor v p 172 true grad qs
    s.aqTensor v p 176 true grad ks
    s.aqTensor v p 180 true grad ks
    s.aqTensorOpt v p 184 false grad qs
    s.aqTensorOpt v p 188 false grad ks
    s.aqTensorOpt v p 192 false grad ks
  else do
    nullField p 172
    nullField p 176
    nullField p 180
    nullField p 184
    nullField p 188
    nullField p 192
  let w ← s.needDesc v.ctx (p.at 196 4) 196 true
  ensure (decide (s.aqWorkspace v p ≤ w.extent) && s.inPlate v w (p.at 80 1)) (badField 196)
  zeroBytes p 200 207

/-! ### The commands -/

/-- An attention command as it begins: no row job is under way. -/
def newAttn : Work := .tiles { stage := 0, issued := [], written := [], sums := {}, partials := [], nanLines := [], carry := [] }

/-- ATTN_FWD: its pairs wait for the plate's Aquatint sequencer (R131, R191). -/
def execAttnFwd (p : Packet) (s : State) : Host.Outcome State Fault Refusal :=
  .next (s.forOp p 0x0303 (s.startOnPlate p (fun s c x => s.checkAttn x (c.view s) p) newAttn))

/-- ATTN_PREP: D, query block by query block (R134, R191). -/
def execAttnPrep (p : Packet) (s : State) : Host.Outcome State Fault Refusal :=
  .next (s.forOp p 0x0304 (s.startOnPlate p (fun s c x => s.checkAttn x (c.view s) p) newAttn))

/-- ATTN_BWD: the key-major sweep and then the query-major one (R134, R191). -/
def execAttnBwd (p : Packet) (s : State) : Host.Outcome State Fault Refusal :=
  .next (s.forOp p 0x0305 (s.startOnPlate p (fun s c x => s.checkAttn x (c.view s) p) newAttn))

/-- The state that a row job or a chain keeps between pairs (R131, R134), as codes by name. -/
def Cmd.job (c : Cmd) (k : Nat) : List Nat := (c.tiles.map fun t => (Kv.get k t.partials).getD []).getD []

/-- The rows with no visible key and the NaN rows so far (R133). -/
def Cmd.rowCounts (c : Cmd) : Nat × Nat := match c.tiles with
  | some t => (t.issued.getD 0 0, t.issued.getD 1 0)
  | none => (0, 0)

/-- The blocks of an output that wait for elements of another row job. -/
def Cmd.carried (c : Cmd) : List Put := (c.tiles.map (·.carry)).getD []

/-- The bytes of elements that waited for another row job. -/
def State.carriedOut (s : State) (v : View) (p : Packet) (off : Nat) (carry : List Put) : Nat × List (Nat × Nat) :=
  (off, ((s.desc v.ctx (p.at off 4)).map fun d => d.writtenOf (carry.map (·.flat))).getD [])

/-- A pair is committed: the cursor, the job's state, the counts and what waits. The workspace holds them, and P, in a layout that no rule gives
(R12, R131, R134, R136; assumption 52). -/
def State.commitPair (s : State) (c : Cmd) (cursor : Nat) (job : List (Nat × List Nat)) (counts : Nat × Nat) (carry : List Put) : State :=
  let s := s.keepArea (c.view s) (s.fieldAll (c.view s) c.pkt 196).2
  s.updCmd c.queue c.seq fun c => { c with
    cursor := cursor
    work := .tiles { stage := cursor, issued := [counts.1, counts.2], written := [], sums := {}, partials := job, nanLines := [], carry := carry } }

/-- FP32 codes of values. -/
def codes32 (l : List FV) : List Nat := l.map fun x => (encodeIeee .fp32 .rne 0 x).1

/-- Write rows of a three-dimensional output under the command's modes, and give what waits (R131, R134). -/
def State.writeRows (s : State) (v : View) (p : Packet) (key : List Byte) (off h a : Nat) (rows : List (List FV)) (carry : List Put) :
    State × List Put :=
  match s.desc v.ctx (p.at off 4) with
  | none => (s, carry)
  | some d =>
    let m : Modes := { p.modes with rounding := outRounding p.modes.rounding (p.par 10 2) d.fmt }
    let puts : List Put := (rows.zipIdx).flatMap fun r => (r.1.zipIdx).map fun x =>
      let f := flatIdx d.shape [h, a + r.2, x.2]
      { flat := f, val := x.1, draw := srDraw key (p.par 10 2) f, fromInt := false }
    let (s, _, rest) := s.putElems v d m 127 (carry ++ puts)
    (s, rest)

/-- Write one FP32 value per row of a [H][L] vector. -/
def State.writeVec (s : State) (v : View) (p : Packet) (off h a : Nat) (xs : List FV) : State :=
  match s.desc v.ctx (p.at off 4) with
  | none => s
  | some d => (xs.zipIdx).foldl (fun (s : State) x => s.putCode v d (flatIdx d.shape [h, a + x.2]) (encodeIeee .fp32 .rne 0 x.1).1 0x7F) s

/-- The accesses that every pair has: the mask's row, the segment ids, the workspace. -/
def State.aqCommon (s : State) (v : View) (p : Packet) (i : Nat) : List (Nat × List (Nat × Nat)) :=
  let rb := maskRowBytes p.aqLk p.aqBk
  [(132, ((s.desc v.ctx (p.at 132 4)).map fun d => [(d.base + i * rb, rb)]).getD []), s.fieldAll v p 136, s.fieldAll v p 140]

/-- The rows of a row job as its state holds them. -/
def Cmd.rows (c : Cmd) (n dh : Nat) : List AqRow :=
  if c.job 0 = [] then List.replicate n (newRow dh)
  else (List.range n).map fun r =>
    { m := decodeIeee .fp32 ((c.job 0).getD r 0), l := decodeIeee .fp32 ((c.job 1).getD r 0),
      o := (List.range dh).map fun d => decodeIeee .fp32 ((c.job 2).getD (r * dh + d) 0), seen := decide ((c.job 3).getD r 0 = 1) }

/-- The rows of a row job as its state keeps them. -/
def keepRows (rs : List AqRow) : List (Nat × List Nat) :=
  [(0, codes32 (rs.map (·.m))), (1, codes32 (rs.map (·.l))), (2, codes32 (rs.flatMap (·.o))), (3, rs.map fun r => b2n r.seen)]

/-- A pair of ATTN_FWD, or the end of a query block without one (R131, R133). -/
def State.pairFwd (s : State) (c : Cmd) (seed : Nat) : State :=
  let p := c.pkt
  let v := c.view s
  let nk := p.aqKBlocks
  let job := c.cursor / nk
  let h := p.aqH0 + job / p.aqNq
  let i := p.aqQ0 + job % p.aqNq
  let n := aqRowsOf p.aqLq p.aqBq i
  match s.touchUnit v { reads := s.aqCommon v p i, writes := [s.fieldAll v p 196] } with
  | .error (e, s) => s.stopUnit c e
  | .ok s =>
    let ahead (from' : Nat) : Option Nat := ((List.range nk).filter fun j => decide (from' ≤ j)).find? fun j => decide (s.aqMask v p i j ≠ 0)
    let j? := ahead (c.cursor % nk)
    let last := match j? with
      | some j => (ahead (j + 1)).isNone
      | none => true
    let kv := h / max 1 p.aqGroup
    let io : UnitIO :=
      { reads := match j? with
          | some j => [s.aqRows v p 144 h (i * p.aqBq) n, s.aqRows v p 148 kv (j * p.aqBk) (aqRowsOf p.aqLk p.aqBk j),
              s.aqRows v p 152 kv (j * p.aqBk) (aqRowsOf p.aqLk p.aqBk j)]
          | none => []
        writes := if last then [s.aqOut v p 156 h (i * p.aqBq) n, s.carriedOut v p 156 c.carried, s.aqOut v p 160 h (i * p.aqBq) n] else [] }
    match s.touchUnit v io with
    | .error (e, s) => s.stopUnit c e
    | .ok s =>
      let rs := c.rows n p.aqDh
      let rs := match j? with
        | some j => (rs.zipIdx).map fun x => s.rowPair v p h (i * p.aqBq + x.2) i j x.1
        | none => rs
      if last then
        let out := (rs.zipIdx).map fun x => rowResult p h (i * p.aqBq + x.2) x.1
        let (s, rest) := s.writeRows v p (p.key seed) 156 h (i * p.aqBq) (out.map (·.1)) c.carried
        let s := s.writeVec v p 160 h (i * p.aqBq) (out.map (·.2))
        let (a, b) := c.rowCounts
        s.commitPair c ((job + 1) * nk) [] (a + (rs.filter fun r => !r.seen).length, b + (out.filter fun x => x.2.isNan).length) rest
      else s.commitPair c ((j?.getD 0) + 1 + job * nk) (keepRows rs) c.rowCounts c.carried

/-- A query block of ATTN_PREP (R134). -/
def State.pairPrep (s : State) (c : Cmd) : State :=
  let p := c.pkt
  let v := c.view s
  let h := p.aqH0 + c.cursor / p.aqNq
  let i := p.aqQ0 + c.cursor % p.aqNq
  let n := aqRowsOf p.aqLq p.aqBq i
  let a := i * p.aqBq
  match s.touchUnit v { reads := [s.aqRows v p 164 h a n, s.aqRows v p 156 h a n], writes := [s.aqOut v p 168 h a n, s.fieldAll v p 196] } with
  | .error (e, s) => s.stopUnit c e
  | .ok s =>
    let md := pairMode p
    let ds := (List.range n).map fun r =>
      rowSum md (fun t => pairDraw 16 h (a + r) t) ((List.range p.aqDh).map fun d =>
        rnd32 md (pairDraw 15 h (a + r) d) (fvMul (s.aqElem32 v p 164 [h, a + r, d]) (s.aqElem32 v p 156 [h, a + r, d])).1)
    (s.writeVec v p 168 h a ds).commitPair c (c.cursor + 1) [] (0, 0) []

/-- The start of a chain: its accumulate-in rows, or +0 (R134). -/
def State.chainStart (s : State) (v : View) (p : Packet) (off h a n : Nat) : List FV :=
  (List.range (n * p.aqDh)).map fun k => if p.at off 4 = 0 then FV.zero else s.aqElem32 v p off [h, a + k / p.aqDh, k % p.aqDh]

/-- A chain's state as values. -/
def Cmd.chain (c : Cmd) (k : Nat) : List FV := (c.job k).map (decodeIeee .fp32)

/-- Cut a chain into rows. -/
def chainRows (dh : Nat) (l : List FV) : List (List FV) := (List.range (l.length / dh)).map fun r => (l.drop (r * dh)).take dh

/-- A pair of the key-major sweep: dV and dK of one key block (R134). -/
def State.pairKey (s : State) (c : Cmd) (seed : Nat) : State :=
  let p := c.pkt
  let v := c.view s
  let inner := p.aqGroup * p.aqQBlocks
  let chain := c.cursor / inner
  let kv := p.aqH0 / p.aqGroup + chain / p.aqNk
  let j := p.aqK0 + chain % p.aqNk
  let n := aqRowsOf p.aqLk p.aqBk j
  let a := j * p.aqBk
  let first := decide (c.cursor % inner = 0)
  match s.touchUnit v { reads := s.fieldAll v p 132 :: (s.aqCommon v p 0).drop 1 ++
      (if first then [s.aqRows v p 188 kv a n, s.aqRows v p 192 kv a n] else []), writes := [s.fieldAll v p 196] } with
  | .error (e, s) => s.stopUnit c e
  | .ok s =>
    let ahead (from' : Nat) : Option Nat :=
      ((List.range inner).filter fun x => decide (from' ≤ x)).find? fun x => decide (s.aqMask v p (x % p.aqQBlocks) j ≠ 0)
    let x? := ahead (c.cursor % inner)
    let last := match x? with
      | some x => (ahead (x + 1)).isNone
      | none => true
    let h := kv * p.aqGroup + (x?.getD 0) / p.aqQBlocks
    let i := (x?.getD 0) % p.aqQBlocks
    let m := aqRowsOf p.aqLq p.aqBq i
    let b := i * p.aqBq
    let io : UnitIO :=
      { reads := if x?.isNone then [] else [s.aqRows v p 144 h b m, s.aqRows v p 148 kv a n, s.aqRows v p 152 kv a n, s.aqRows v p 160 h b m,
          s.aqRows v p 164 h b m, s.aqRows v p 168 h b m]
        writes := if last then [s.aqOut v p 176 kv a n, s.aqOut v p 180 kv a n] else [] }
    match s.touchUnit v io with
    | .error (e, s) => s.stopUnit c e
    | .ok s =>
      let dv := if first then s.chainStart v p 192 kv a n else c.chain 0
      let dk := if first then s.chainStart v p 188 kv a n else c.chain 1
      let (dv, dk) : List FV × List FV := if x?.isNone then (dv, dk) else
        let gs := (List.range m).map fun r => s.gradRow v p h (b + r) i j
        let col (k : Nat) (f : FV × FV → FV) (off d : Nat) : List (FV × FV) :=
          (gs.zipIdx).map fun g => (f (g.1.getD k (FV.zero, FV.zero)), s.aqElem v p off [h, b + g.2, d])
        ((dv.zipIdx).map fun y => dotBurin (pairG .bf16 (s.aqFmt v p 164)) y.1 (col (y.2 / p.aqDh) (fun g => viaBf16 g.1) 164 (y.2 % p.aqDh)),
          (dk.zipIdx).map fun y => dotBurin (pairG .bf16 (s.aqFmt v p 144)) y.1 (col (y.2 / p.aqDh) (·.2) 144 (y.2 % p.aqDh)))
      if last then
        let (s, _) := s.writeRows v p (p.key seed) 180 kv a (chainRows p.aqDh dv) []
        let (s, _) := s.writeRows v p (p.key seed) 176 kv a (chainRows p.aqDh dk) []
        s.commitPair c ((chain + 1) * inner) [] (0, 0) []
      else s.commitPair c (chain * inner + (x?.getD 0) + 1) [(0, codes32 dv), (1, codes32 dk)] (0, 0) []

/-- A pair of the query-major sweep: dQ of one query block (R134). -/
def State.pairQuery (s : State) (c : Cmd) (seed : Nat) : State :=
  let p := c.pkt
  let v := c.view s
  let nk := p.aqKBlocks
  let at' := c.cursor - keySweep p
  let chain := at' / nk
  let h := p.aqH0 + chain / p.aqNq
  let kv := h / max 1 p.aqGroup
  let i := p.aqQ0 + chain % p.aqNq
  let m := aqRowsOf p.aqLq p.aqBq i
  let b := i * p.aqBq
  let first := decide (at' % nk = 0)
  match s.touchUnit v { reads := s.aqCommon v p i ++ (if first then [s.aqRows v p 184 h b m] else []), writes := [s.fieldAll v p 196] } with
  | .error (e, s) => s.stopUnit c e
  | .ok s =>
    let ahead (from' : Nat) : Option Nat := ((List.range nk).filter fun j => decide (from' ≤ j)).find? fun j => decide (s.aqMask v p i j ≠ 0)
    let j? := ahead (at' % nk)
    let last := match j? with
      | some j => (ahead (j + 1)).isNone
      | none => true
    let j := j?.getD 0
    let n := aqRowsOf p.aqLk p.aqBk j
    let a := j * p.aqBk
    let io : UnitIO :=
      { reads := if j?.isNone then [] else [s.aqRows v p 144 h b m, s.aqRows v p 148 kv a n, s.aqRows v p 152 kv a n, s.aqRows v p 160 h b m,
          s.aqRows v p 164 h b m, s.aqRows v p 168 h b m]
        writes := if last then [s.aqOut v p 172 h b m] else [] }
    match s.touchUnit v io with
    | .error (e, s) => s.stopUnit c e
    | .ok s =>
      let dq := if first then s.chainStart v p 184 h b m else c.chain 0
      let dq := if j?.isNone then dq else
        let gs := (List.range m).map fun r => s.gradRow v p h (b + r) i j
        (dq.zipIdx).map fun y => dotBurin (pairG .bf16 (s.aqFmt v p 148)) y.1
          (((gs.getD (y.2 / p.aqDh) []).zipIdx).map fun g => (g.1.2, s.aqElem v p 148 [kv, a + g.2, y.2 % p.aqDh]))
      if last then
        let (s, _) := s.writeRows v p (p.key seed) 172 h b (chainRows p.aqDh dq) []
        s.commitPair c (keySweep p + (chain + 1) * nk) [] (0, 0) []
      else s.commitPair c (keySweep p + chain * nk + j + 1) [(0, codes32 dq)] (0, 0) []

/-- AQUATINT_PAIR_COMMIT: the next pair of the first attention command that works on the plate and that no command begun there before it holds
back (R72, R131, R134, R136). -/
def execAquatintPairCommit (plate : Nat) (s : State) : Host.Outcome State Fault Refusal :=
  .next (match (s.working (.plate plate)).find? fun c => decide (0x0303 ≤ c.pkt.opcode ∧ c.pkt.opcode ≤ 0x0305 ∧ c.cursor < aquatintTotal c.pkt) && s.clearOn plate c with
    | none => s
    | some c =>
      match s.ctxOf c with
      | none => s
      | some x =>
        match c.pkt.opcode with
        | 0x0303 => s.pairFwd c x.seed
        | 0x0304 => s.pairPrep c
        | _ => if c.cursor < keySweep c.pkt then s.pairKey c x.seed else s.pairQuery c x.seed)

/-- The ending of an attention command (R133, R182). -/
def aquatintEnding (c : Cmd) : Ending :=
  if c.pkt.opcode = 0x0303 then Ending.ok c.rowCounts.1 c.rowCounts.2 else Ending.ok 0 0

end Sys2Proof.Machine
end

