-- ==== Sys2Proof/Machine/UnitEnd.lean ====
section
/-! DEFINITION. The ends of dispatch units: how a plate or Stencil command's work is done, its unit floor (R142), DISPATCH_UNIT_END, handovers
(R103, R141), overruns (R145 to R147) and hangs (R148). -/

namespace Sys2Proof.Machine

/-! ### Work done -/

/-- Is all the work of a plate or Stencil command done. -/
def State.workDone (s : State) (c : Cmd) : Bool :=
  match c.pkt.opcode with
  | 0x0301 | 0x0302 => c.tilesDone
  | 0x0303 | 0x0304 | 0x0305 => decide (aquatintTotal c.pkt ≤ c.cursor)
  | 0x0401 => decide (s.tracerTotal (c.view s) c.pkt ≤ c.cursor)
  | _ => decide (s.stencilTotal (c.view s) c.pkt ≤ c.cursor)

/-- The last effects of a command whose work is done, and its ending. -/
def State.endWork (s : State) (c : Cmd) : State × Ending :=
  match c.pkt.opcode with
  | 0x0301 | 0x0302 => s.finishTiles c
  | 0x0303 | 0x0304 | 0x0305 => (s, aquatintEnding c)
  | 0x0401 => (s, tracerEnding c)
  | _ => (s, stencilEnding c)

/-- Does no engine of a plate hold a tile or an item of a command. -/
def Plate.idleOf (x : Plate) (q seq : Nat) : Bool :=
  let mine (t : Tile) : Bool := decide (t.queue = q ∧ t.seq = seq)
  let has (i : ArrayItem) : Bool := decide (i.queue = q ∧ i.seq = seq)
  !(x.tray.any fun t => mine t.tile) && !(x.stipples.any fun u => u.tile.any mine) && !(x.arrays.any fun a => a.item.any has || a.next.any has)

/-- Has a unit come to its end: its goal is reached or nothing is left to do, and nothing of it is held in an engine. -/
def State.unitOver (s : State) (r : UnitRef) (u : DispatchUnit) : Bool :=
  match s.findCmd u.queue u.seq with
  | none => true
  | some c => decide (c.phase = .running) && decide (c.fault = none) && decide (c.hostWait = none) &&
      (decide (u.goal ≤ c.progress) || s.workDone c) &&
      (match r with
       | .plate n => ((Kv.get n s.plates).map fun x => x.idleOf u.queue u.seq).getD true
       | .router _ => true)

/-- The grace in ACLK: one tenth of the stroke (R145). -/
def State.grace (s : State) : Nat := 70 * s.strk.period

/-! ### Handovers (R103, R141) -/

/-- Has a context work pending for a plate or router: a running command there that may take a unit, or one that may start. -/
def State.workFor (s : State) (r : UnitRef) (n : Nat) : Bool :=
  s.cmds.any fun c => decide (c.unitRef = some r) && decide ((c.view s).ctx = n) && !c.cancel &&
    ((decide (c.phase = .running) && decide (c.fault = none) && decide (c.hostWait = none)) || s.mayStart c)

/-- The contexts that qualify for a plate or router, ascending: resident, with work pending, and the plate in their mask. -/
def State.qualifying (s : State) (r : UnitRef) : List Nat :=
  (s.ctxs.filter fun x => x.2.slot.isSome && s.workFor r x.1 && (match r with
    | .plate n => bitOf x.2.plateMask n
    | .router _ => true)).map (·.1)

/-- The choice of R141 and R103: after the context served last, ascending and wrapping; without any, the present one stays while it is
resident. -/
def State.chooseCtx (s : State) (r : UnitRef) (last : Nat) (present : Option Nat) : Option Nat :=
  let qs := s.qualifying r
  match qs.find? fun n => decide (last < n) with
  | some n => some n
  | none => match qs.head? with
    | some n => some n
    | none => present.filter fun n => ((Kv.get n s.ctxs).bind (·.slot)).isSome

/-- A stroke on a plate for a context (R400, set 5). -/
def State.countPlateStroke (s : State) (n : Nat) : State := s.updCtx n fun x => { x with counts := x.counts.set 1 ((x.counts.getD 1 0 + 1) % 2 ^ 64) }

/-- Give a drained plate to its context for this stroke; its banks and tile registers are empty (R12, R140 action 6). -/
def State.givePlate (s : State) (n : Nat) : State :=
  match Kv.get n s.plates with
  | none => s
  | some x =>
    if ¬ (x.due ∧ x.drained) ∨ x.hung then s
    else
      let c := s.chooseCtx (.plate n) x.last x.ctx
      let s := s.updPlate n fun x => { x with
        ctx := c, last := c.getD x.last, due := false, arrays := x.arrays.map fun _ => .idle, stipples := x.stipples.map fun _ => .empty }
      match c with
      | some k => s.countPlateStroke k
      | none => s

/-- Give a drained router to its context for this stroke (R103, R140 action 7). -/
def State.giveRouter (s : State) (t : Nat) : State :=
  match Kv.get t s.routers with
  | none => s
  | some x =>
    if ¬ (x.due ∧ x.drained) ∨ x.hung then s
    else
      let c := s.chooseCtx (.router t) x.last x.ctx
      s.updRouter t fun x => { x with ctx := c, last := c.getD x.last, due := false }

/-- Action 9: the first units of a stroke on a place (R140, R143). -/
def State.firstUnits (s : State) (r : UnitRef) : State := s.issue r true (s.cmds.length + 1)

/-- A place is given to its context and takes its first units, where its handover is still to come. -/
def State.handOver (s : State) (r : UnitRef) : State :=
  match r with
  | .plate n => if (Kv.get n s.plates).any fun x => x.due && x.drained && !x.hung then (s.givePlate n).firstUnits r else s
  | .router t => if (Kv.get t s.routers).any fun x => x.due && x.drained && !x.hung then (s.giveRouter t).firstUnits r else s

/-- A router that drains late is given on at once; a plate waits for PLATE_HANDOVER. -/
def State.lateRouter (s : State) (r : UnitRef) : State :=
  match r with
  | .router _ => s.handOver r
  | .plate _ => s

/-- PLATE_HANDOVER: action 6 of a plate that has drained in the grace, and its first units (R12, R140, R141, R145). The plates that have drained
by the boundary are handed over there. -/
def execPlateHandover (plate : Nat) (s : State) : Host.Outcome State Fault Refusal := .next (s.handOver (.plate plate))

/-- Is this stroke's handover of a place still to come. -/
def State.isDue (s : State) (r : UnitRef) : Bool :=
  match r with
  | .plate n => ((Kv.get n s.plates).map (·.due)).getD false
  | .router t => ((Kv.get t s.routers).map (·.due)).getD false

/-! ### The end of a unit -/

/-- Count busy ACLK of a plate (R400, set 1). -/
def State.countBusy (s : State) (r : UnitRef) (run : Nat) : State :=
  match r with
  | .plate n => s.updPlate n fun x => { x with counts := x.counts.set 0 ((x.counts.getD 0 0 + run) % 2 ^ 64) }
  | .router _ => s

/-- The unit of a STIPPLE command that has come to the end of its stroke budget before its goal (R73). -/
def State.spentUnit (s : State) (u : UnitRef) (run : Nat) : Option Cmd :=
  (s.unitsOf u).findSome? fun x => (s.findCmd x.queue x.seq).filter fun c =>
    decide (c.pkt.opcode = 0x0302) && decide (c.phase = .running) && decide (c.budget * 64 ≤ run * s.strk.duty)

/-- A unit ends with work of its command left: the full budget is restored, and a cancelled command stops at the boundary that has come
(R143, R147, R184). -/
def State.unitEnds (s : State) (u : UnitRef) (c : Cmd) : State :=
  let s := s.removeUnit c
  let s := s.updCmd c.queue c.seq fun y => { y with budget := s.fullBudget c, overruns := 0 }
  if c.cancel ∧ s.isDue u then (s.preempt c (s.stopEnding c)).lateRouter u
  else (s.lateRouter u).issueAt u

/-- DISPATCH_UNIT_END: the first unit that has come to its end leaves; its command completes its work, or its next unit waits its turn. Where
none has, a unit of a STIPPLE command whose budget has run out ends: the tiles that the Stipple units hold of it are discarded, and run again
(R73, R143). -/
def execDispatchUnitEnd (u : UnitRef) (run : Nat) (s : State) : Host.Outcome State Fault Refusal :=
  .next (match (s.unitsOf u).find? (s.unitOver u) with
    | some x =>
      let s := s.countBusy u run
      (match s.findCmd x.queue x.seq with
       | none => s.setUnits u ((s.unitsOf u).filter fun y => !(decide (y = x)))
       | some c =>
         if s.workDone c then
           let (s, e) := s.endWork c
           (s.endOnPlate c e).lateRouter u
         else s.unitEnds u c)
    | none =>
      match u, s.spentUnit u run with
      | .plate n, some c => ((s.countBusy u run).emptyUnits n [] fun t => decide (t.queue = c.queue ∧ t.seq = c.seq)).unitEnds u c
      | _, _ => s)

/-! ### Overruns (R145 to R147) -/

/-- A place's number and engine index. -/
def placeIndex : UnitRef → Nat
  | .plate n => n
  | .router t => t

/-- ACLK that a unit has run when its drain is forced at the end of the grace: from its issue in the stroke before (R146). -/
def State.overrunRun (s : State) (u : DispatchUnit) : Nat := (1100 * s.strk.period - u.issued) * 7 / 10

/-- The record, the log entry and the counts of one overrun unit, and what becomes of its command: a budget
halved here is held to the unit floor when the command resumes (R146, R147). -/
def State.overrunUnit (s : State) (r : UnitRef) (u : DispatchUnit) : State :=
  match s.findCmd u.queue u.seq with
  | none => s
  | some c =>
    let run := s.overrunRun u
    let s := s.updCmd c.queue c.seq Cmd.leaveUnit
    let n := (c.view s).ctx
    let (eng, idx) := c.engine
    let s := s.faultRecord n { mkFault .strokeOverrun 0 eng idx {} c.queue c.seq c.cursor with estimate := u.estimate, run := run, isOpen := false }
    let s := s.logEvent 0x0401 eng (placeIndex r) n c.queue c.seq
    let s := s.updCtx n fun x => { x with counts := x.counts.set 2 (satAdd (x.counts.getD 2 0) 1 (2 ^ 32 - 1)) }
    let s : State := { s with power := { s.power with counts := s.power.counts.set 1 ((s.power.counts.getD 1 0 + 1) % 2 ^ 64) } }
    if c.cancel then s.preempt c (s.stopEnding c)
    else if 3 ≤ c.overruns + 1 then
      s.finish c { status := .strokeOverrun, detail := 20, r0 := run % 2 ^ 32, r1 := c.cursor % 2 ^ 32 }
    else s.updCmd c.queue c.seq fun y => { y with overruns := y.overruns + 1, budget := y.budget / 2 }

/-- STROKE_OVERRUN: a unit still running at the end of the grace; the plate or router is drained by force, its units are gone, and their commands
keep their cursors (R61, R73, R104, R136, R145). `run` is the place's busy time; each unit's own run follows from its issue. -/
def execStrokeOverrun (u : UnitRef) (run : Nat) (s : State) : Host.Outcome State Fault Refusal :=
  .next (
    let us := s.unitsOf u
    if ¬ s.isDue u ∨ us.isEmpty then s
    else
      let s := match u with
        | .plate n => (s.stopArrays n).drainTray n
        | .router _ => s
      let s := (s.setUnits u []).countBusy u run
      let s := match u with
        | .plate n => s.updPlate n fun x => { x with drained := true, late := true }
        | .router t => s.updRouter t fun x => { x with drained := true, late := true }
      (us.foldl (fun (s : State) x => s.overrunUnit u x) s).lateRouter u)

/-! ### Hangs (R148) -/

/-- A group ends with INTERNAL: its running commands do; those not started end behind them when they complete (R148, R177). -/
def State.endGroupInternal (s : State) (c : Cmd) : State :=
  let mine := s.cmds.filter fun d => decide (d.queue = c.queue ∧ d.group = c.group ∧ d.phase = .running)
  let s := mine.foldl (fun (s : State) d => s.unhook d) s
  { s with cmds := s.cmds.map fun d =>
      if mine.any fun m => decide (m.queue = d.queue ∧ m.seq = d.seq) then
        { d with phase := .finished { status := .internal }, quiet := true, work := .none, fault := none, hostWait := none }
      else d }

/-- ENGINE_HUNG: a place that has not drained by twice the grace is reset, and given out again at the next boundary (R148, R353). -/
def execEngineHung (u : UnitRef) (s : State) : Host.Outcome State Fault Refusal :=
  .next (
    let us := s.unitsOf u
    if ¬ s.isDue u ∨ us.isEmpty then s
    else
      let first := (us.head?).bind fun x => s.findCmd x.queue x.seq
      let s := us.foldl (fun (s : State) x => match s.findCmd x.queue x.seq with
        | some c => s.endGroupInternal c
        | none => s) s
      let s := match u with
        | .plate n => s.updPlate n fun x => { x with
            units := [], drained := true, hung := true, tray := []
            arrays := x.arrays.map fun _ => .idle, stipples := x.stipples.map fun _ => .empty }
        | .router t => s.updRouter t fun x => { x with units := [], drained := true, hung := true }
      let (eng, ctx, q, seq) : Nat × Nat × Nat × Nat := match first with
        | some c => (c.engine.1, (c.view s).ctx, c.queue, c.seq)
        | none => (10, noContext, 0, 0)
      let s : State := { s with power := { s.power with counts := s.power.counts.set 2 ((s.power.counts.getD 2 0 + 1) % 2 ^ 64) } }
      (s.logEvent 0x0402 eng (placeIndex u) ctx q seq).failEvent s.selfNode 4)

end Sys2Proof.Machine
end

