-- ==== Sys2Proof/Machine/Easel.lean ====
section
/-! DEFINITION. Easel (21_easel_ingest.md): streams, feeds, the values of frames, batches and their release, and the rows of class 0x0B with
Easel's own events. -/

namespace Sys2Proof.Machine

/-! ### Checks (R199, R360 to R363) -/

/-- Change a stream. -/
def State.updStream (s : State) (k : Nat) (f : EStream → EStream) : State := { s with streams := Kv.upd k f s.streams }

/-- The width and height that a codec takes (R361). -/
def frameSizeOk (codec w h : Nat) : Bool :=
  let within := decide (64 ≤ w) && decide (w ≤ 8192) && decide (64 ≤ h) && decide (h ≤ 8192)
  if codec ≤ 2 then within && decide (w % 8 = 0 ∧ h % 8 = 0 ∧ w * h ≤ 8912896)
  else if codec = 3 then within && decide (w * h ≤ 8912896)
  else if codec = 4 then within && decide (w % 2 = 0 ∧ h % 2 = 0 ∧ w * h ≤ 16777216)
  else if codec = 5 then within && decide (w * h ≤ 16777216)
  else decide (1 ≤ w * h ∧ w * h ≤ 1048576)

/-- A codec's per-stream limit in pixels or points per second (R361). -/
def codecLimit (codec : Nat) : Nat := if codec ≤ 3 then 534773760 else if codec ≤ 5 then 1006632960 else 251658240

/-- The shape of OUTPUT (R365). -/
def outputShape (mode w h n : Nat) : List Nat :=
  match mode with
  | 0 => [n, 3, h, w]
  | 1 => [n, 1, h, w]
  | _ => [n, w * h, 4]

/-- The formats of OUTPUT (R365). -/
def outputFormats (mode codec : Nat) : List Fmt :=
  if mode = 2 ∨ codec = 5 then [.fp32] else [.bf16, .fp16, .fp32]

/-- Declared rate in hundredths of a pixel per second (R360). -/
def EStream.rate100 (x : EStream) : Nat := x.width * x.height * x.rate

/-- Check STREAM_OPEN (R199, R361, R362, R365). -/
def State.checkStreamOpen (s : State) (n : Nat) (p : Packet) : Check := do
  let codec := p.par 1 1
  let w := p.par 2 2
  let h := p.par 4 2
  let rate := p.par 6 2
  let batch := p.par 24 1
  let slots := p.par 25 1
  let group := p.par 26 1
  let mode := p.par 27 1
  let live := s.streams.filter fun e => !e.2.closed
  ensure (decide (p.par 0 1 ≤ 31)) (badField 64)
  ensure (((Kv.get (p.par 0 1) s.streams).map fun x => decide (x.owner = n)).getD true) (.fail .accessDenied 64)
  ensure (!Kv.has (p.par 0 1) s.streams) (conflict scStreamBusy)
  ensure (decide (codec ≤ 6)) (badField 65)
  ensure (decide (codec = 6) || decide (64 ≤ w ∧ w ≤ 8192)) (badField 66)
  ensure (frameSizeOk codec w h) (badField 68)
  ensure (decide (1 ≤ rate ∧ rate ≤ 24000) && decide (w * h * rate ≤ codecLimit codec * 100)) (badField 70)
  ensure (decide ((live.map fun e => e.2.rate100).foldl (· + ·) (w * h * rate) ≤ 597196800000)) (.fail .noResource 66)
  let out ← s.needDesc n (p.par 8 4) 72 true
  ensure (decide (out.shape = outputShape mode w h (slots * batch) ∧ out.fmt ∈ outputFormats mode codec ∧ out.layout ≠ 1)) (badField 72)
  let md ← s.needDesc n (p.par 12 4) 76 true
  ensure (decide (md.layout = 0 ∧ md.fmt = .int8 ∧ md.shape = [slots * batch, 32])) (badField 76)
  ensure (decide (inkKind (p.par 16 8) = 3 ∧ inkOperand (p.par 16 8) = 1) && s.inkFieldOk n (p.par 16 8) true &&
    (match s.pinnedInkPa n (inkWord (p.par 16 8)) with
     | some pa => decide ((s.inkAt pa).lower = 0 ∧ slots ≤ (s.inkAt pa).upper)
     | none => false)) (badField 80)
  let mates := live.filter fun e => decide (group ≠ 0xFF ∧ e.2.group = some group)
  ensure (decide (1 ≤ batch ∧ batch ≤ 64) && mates.all fun e => decide (e.2.batch = batch)) (badField 88)
  ensure (decide (2 ≤ slots)) (badField 89)
  ensure (decide (group ≤ 15 ∨ group = 0xFF) && mates.all fun e => decide (e.2.owner = n)) (badField 90)
  ensure (if codec ≤ 3 then decide (mode ≤ 1) else if codec ≤ 5 then decide (mode = 1) else decide (mode = 2)) (badField 91)
  zeroBytes p 92 95

/-- A stream that a feed or a close names: open, and of the issuing context (R199, R360, R368). -/
def State.checkStream (s : State) (n : Nat) (p : Packet) : Check := do
  ensure (decide (p.par 0 1 ≤ 31)) (badField 64)
  match Kv.get (p.par 0 1) s.streams with
  | none => .error (badField 64)
  | some x => do
    ensure (!x.closed) (badField 64)
    ensure (decide (x.owner = n)) (.fail .accessDenied 64)

/-- Do a descriptor's bytes lie in a bounce buffer: a PINNED allocation in host memory (R237). -/
def State.bounce (s : State) (v : View) (x : Ctx) (d : Desc) : Bool :=
  d.ranges.all fun r =>
    (x.allocs.any fun a => a.pinned && decide (a.base ≤ r.1) && decide (r.1 + r.2 ≤ a.base + a.size)) &&
    (pagesOf r.1 r.2).all fun a => match s.paOf v.ctx v.bound a with
      | some p => decide (s.region p = .host)
      | none => true

/-- Check STREAM_FEED (R199, R363, R368). -/
def State.checkStreamFeed (s : State) (v : View) (x : Ctx) (p : Packet) : Check := do
  s.checkStream v.ctx p
  ensure (((Kv.get (p.par 0 1) s.streams).map (·.closing.isNone)).getD false) (badField 64)
  zeroBytes p 65 67
  let d ← s.needDesc v.ctx (p.par 4 4) 68 false
  ensure (s.bounce v x d) (badField 68)
  ensure (decide (p.par 8 4 ≤ d.extent)) (badField 72)
  zeroBytes p 76 79

/-- Check STREAM_CLOSE (R199). -/
def State.checkStreamClose (s : State) (n : Nat) (p : Packet) : Check := do
  s.checkStream n p
  ensure (((Kv.get (p.par 0 1) s.streams).map (·.closing.isNone)).getD false) (badField 64)
  zeroBytes p 65 79

/-- Admission fixes the order of a stream's feeds, and a close stops further ones (R363, R368). -/
def State.noteStream (s : State) (c : Cmd) : State :=
  let k := c.pkt.par 0 1
  let add (x : EStream) : EStream :=
    if x.closing.isSome then x
    else if c.pkt.opcode = 0x0B03 then { x with closing := some (c.queue, c.seq) }
    else { x with feeds := x.feeds ++ [{ queue := c.queue, seq := c.seq, first := none, dropped := 0, since := none }] }
  if c.pkt.opcode = 0x0B02 ∨ c.pkt.opcode = 0x0B03 then s.updStream k add else s

/-- STREAM_OPEN (R362). -/
def execStreamOpen (p : Packet) (s : State) : Host.Outcome State Fault Refusal :=
  .next (s.forOp p 0x0B01 (s.runNow p fun s c _ => do
    let n := (c.view s).ctx
    s.checkStreamOpen n p
    let x : EStream :=
      { owner := n, codec := p.par 1 1, width := p.par 2 2, height := p.par 4 2, rate := p.par 6 2, output := p.par 8 4, metaH := p.par 12 4,
        signal := p.par 16 8, batch := p.par 24 1, slots := p.par 25 1, group := if p.par 26 1 = 0xFF then none else some (p.par 26 1),
        mode := p.par 27 1, units := [], next := 0, released := 0, started := none, frames := [], complete := [], feeds := [], good := 0,
        closing := none, closed := false, refused := 0 }
    return ({ s with streams := Kv.set (p.par 0 1) x s.streams }, Ending.ok 0 0)))

/-! ### Feed records (R363) -/

/-- A feed record: its CAPTURE_NS and its payload. -/
structure FeedRecord where
  capture : Nat
  payload : List Byte
deriving DecidableEq, Repr

/-- The good records at the start of a feed's bytes, and whether nothing but they is there. -/
def feedRecords : Nat → List Byte → List FeedRecord × Bool
  | 0, bs => ([], bs.isEmpty)
  | k + 1, bs =>
    if bs.isEmpty then ([], true)
    else
      let n := leNat (bs.take 4)
      if bs.length < 16 ∨ n = 0 ∨ 2 ^ 26 < n ∨ leNat ((bs.drop 4).take 4) ≠ 0 ∨ bs.length < 16 + n then ([], false)
      else
        let (rest, whole) := feedRecords k (bs.drop (roundUp (16 + n) 16))
        ({ capture := leNat ((bs.drop 8).take 8), payload := (bs.drop 16).take n } :: rest, whole)

/-- The bytes of a feed. -/
def State.feedBytes (s : State) (c : Cmd) : List Byte :=
  match s.desc (c.view s).ctx (c.pkt.par 4 4) with
  | some d => s.vread (c.view s).ctx c.bound d.base (c.pkt.par 8 4)
  | none => []

/-! ### Values (R364, R365) -/

/-- The numerators over 10,000 of Kr and Kb of the matrices of ITU-T H.273 (assumption 70). -/
def matrixOf : Nat → Option (Nat × Nat)
  | 1 | 2 => some (2126, 722)
  | 4 => some (3000, 1100)
  | 5 | 6 => some (2990, 1140)
  | 7 => some (2120, 870)
  | 9 => some (2627, 593)
  | _ => none

/-- An exact ratio of integers rounded once to FP32 and clamped to 0 to 1 (R365; assumption 69). -/
def unitRatio (num den : Int) : FV :=
  let x := roundTo .fp32 .rne (fvDiv (FV.ofInt num) (FV.ofInt den)).1
  if x.neg then FV.zero else if FV.cmp x (FV.ofInt 1) = 1 then FV.ofInt 1 else x

/-- R', G' and B' of a pixel, by channel 0, 1 or 2 (R365). -/
def rgbValue (matrix depth : Nat) (full chroma : Bool) (y u v ch : Nat) : FV :=
  let full := full && decide (matrix ≠ 2)
  let k : Nat := 2 ^ (depth - 8)
  let yn : Int := if full then y else (y : Int) - 16 * k
  let yd : Int := if full then 2 ^ depth - 1 else 219 * k
  let cd : Int := if full then 2 ^ depth - 1 else 224 * k
  let cb : Int := (u : Int) - 2 ^ (depth - 1)
  let cr : Int := (v : Int) - 2 ^ (depth - 1)
  if ¬ chroma then unitRatio yn yd
  else if matrix = 0 then
    let x := [v, y, u].getD ch 0
    unitRatio (if full then (x : Int) else (x : Int) - 16 * k) yd
  else match matrixOf matrix with
    | some (kr, kb) =>
      let a : Int := 2 * (10000 - kr)
      let b : Int := 2 * (10000 - kb)
      let kg : Int := 10000 - kr - kb
      if ch = 0 then unitRatio (yn * 10000 * cd + a * cr * yd) (yd * 10000 * cd)
      else if ch = 2 then unitRatio (yn * 10000 * cd + b * cb * yd) (yd * 10000 * cd)
      else unitRatio (yn * 10000 * kg * cd - (kr * a * cr + kb * b * cb) * yd) (yd * 10000 * kg * cd)
    | none =>
      let (r, g, bl) := Config.colour matrix depth full y u v
      let x := decodeIeee .fp32 (if ch = 0 then r.toNat else if ch = 1 then g.toNat else bl.toNat)
      if x.neg then FV.zero else if FV.cmp x (FV.ofInt 1) = 1 then FV.ofInt 1 else x

/-- What a record decodes to: the element at an index of a frame's part of OUTPUT, and its point count; none for a DROPPED one (R364). -/
def EStream.picture (x : EStream) (units : List (List Byte)) (n : Nat) (payload : List Byte) : Option ((List Nat → FV) × Nat) :=
  let px := x.width * x.height
  let le (o k : Nat) : Nat := leNat ((payload.drop o).take k)
  let ratio (a b : Nat) : FV := (fvDiv (FV.ofInt a) (FV.ofInt b)).1
  let pos (i : List Nat) : Nat := i.getD 1 0 * x.width + i.getD 2 0
  if x.codec ≤ 3 then
    (Config.decodePicture x.codec (if x.codec = 3 then [payload] else units) x.width x.height (if x.codec = 3 then 0 else n)).map fun d =>
      let (depth, chroma, matrix, full, ys, us, vs) := d
      (fun i =>
        let y := ys.getD (pos i) 0
        if x.mode = 1 then ratio y (2 ^ depth - 1)
        else rgbValue (if x.codec = 3 then 5 else matrix) depth (full || decide (x.codec = 3)) chroma y (us.getD (pos i) 0) (vs.getD (pos i) 0) (i.getD 0 0), 0)
  else if x.codec = 4 then
    if payload.length ≠ px * 3 / 2 then none
    else some (fun i => ratio (le (pos i / 2 * 3) 3 / 2 ^ (12 * (pos i % 2)) % 4096) 4095, 0)
  else if x.codec = 5 then
    if payload.length ≠ px * 2 then none else some (fun i => FV.ofInt (le (pos i * 2) 2), 0)
  else
    let pts := payload.length / 16
    if payload.length % 16 ≠ 0 ∨ px < pts then none
    else some (fun i =>
      if pts ≤ i.getD 0 0 then FV.zero
      else if i.getD 1 0 < 3 then decodeIeee .fp32 (le (16 * i.getD 0 0 + 4 * i.getD 1 0) 4)
      else decodeIeee .fp16 (le (16 * i.getD 0 0 + 12) 2), pts)

/-! ### Slots (R365, R366) -/

/-- Dimension-0 index of frame f. -/
def EStream.slotOf (x : EStream) (f : Nat) : Nat := f / x.batch % x.slots * x.batch + f % x.batch

/-- The flat positions of a frame in OUTPUT. -/
def EStream.frameFlats (x : EStream) (d : Desc) (f : Nat) : List Nat :=
  let n := prodN (d.shape.drop 1)
  (List.range n).map fun i => x.slotOf f * n + i

/-- The bytes of a frame in OUTPUT and of its META record. -/
def EStream.frameIO (x : EStream) (out md : Desc) (f : Nat) : List (Nat × Nat) × List (Nat × Nat) :=
  (out.rangesOf (x.frameFlats out f), [((md.locate [x.slotOf f, 0]).1 / 8, 32)])

/-- A META record (R365). -/
def metaBytes (frame capture stroke status points : Nat) : List Byte :=
  leBytes 8 frame ++ leBytes 8 capture ++ leBytes 6 stroke ++ leBytes 1 status ++ [0] ++ leBytes 4 points ++ zeros 4

/-- Write frame f of a stream: its values, its META record, and the list of frames that wait for release. -/
def State.putFrame (s : State) (k : Nat) (x : EStream) (out md : Desc) (f capture status points : Nat) (val : List Nat → FV) : State :=
  let v : View := { ctx := x.owner, bound := [] }
  let m : Modes := { rounding := .rne, noclip := false, wrap := false }
  let s := (x.frameFlats out f).foldl (fun (s : State) i =>
    (s.putBlock v out m 0 [{ flat := i, val := val (unflat out.shape i).tail, draw := 0, fromInt := false }]).1) s
  let s := s.vwrite x.owner [] ((md.locate [x.slotOf f, 0]).1 / 8) (metaBytes f capture 0 status points)
  let b := f / x.batch
  let now := s.strk.now
  s.updStream k fun y =>
    let y := { y with frames := y.frames ++ [{ frame := f, capture := capture, status := status, points := points }], started := some b }
    if (y.frames.filter fun e => decide (e.frame / y.batch = b)).length = y.batch then { y with complete := y.complete ++ [(b, now)] } else y

/-- COUNT of the stream's signal word. -/
def State.streamCount (s : State) (x : EStream) : Nat :=
  match s.pinnedInkPa x.owner (inkWord x.signal) with
  | some pa => (s.inkAt pa).value
  | none => x.slots

/-- May the first frame of batch b be written (R366). -/
def State.hasRoom (s : State) (x : EStream) (b : Nat) : Bool := decide (s.streamCount x + (b - x.released) + 1 ≤ x.slots)

/-- Is batch b complete or released. -/
def EStream.batchDone (x : EStream) (b : Nat) : Bool := decide (b < x.released) || x.complete.any fun e => decide (e.1 = b)

/-! ### Closing (R368) -/

/-- A stream is closed. Its number is free; where batches still wait for their release, what is left of it stays under a number of its own
beyond the streams' (R360, R368). -/
def State.closeStream (s : State) (k : Nat) (x : EStream) : State :=
  let rest := Kv.del k s.streams
  if x.complete.isEmpty then { s with streams := rest }
  else
    let k' := (((List.range (rest.length + 1)).map (32 + ·)).find? fun i => !Kv.has i rest).getD 32
    { s with streams := Kv.set k' { x with closed := true, closing := none } rest }

/-- A close whose earlier feeds have ended: the partial last batch is filled with PAD frames, and the close completes. -/
def State.padFrames (s : State) (k : Nat) (c : Cmd) : Nat → State
  | 0 => s
  | n + 1 =>
    match Kv.get k s.streams with
    | none => s
    | some x =>
      let b := x.next / x.batch
      if x.next % x.batch = 0 ∨ x.batchDone b then
        (s.closeStream k x).finish c (Ending.ok x.good 0)
      else
        match s.desc x.owner x.output, s.desc x.owner x.metaH with
        | some out, some md =>
          let (o, m) := x.frameIO out md x.next
          (match s.touchAll { ctx := x.owner, bound := [] } (o ++ m) accW true with
           | .error (kind, va) => s.engineFault c kind va 6 k accW 64
           | .ok s =>
             if s.hostBlocked { ctx := x.owner, bound := [] } (o ++ m) then s.waitHost c 64
             else ((s.putFrame k x out md x.next 0 3 0 fun _ => FV.zero).updStream k fun y => { y with next := y.next + 1 }).padFrames k c n)
        | _, _ => s.finish c { status := .internal }

/-- Try to end a stream's close. -/
def State.tryClose (s : State) (k : Nat) : State :=
  match Kv.get k s.streams with
  | none => s
  | some x =>
    match x.closing with
    | none => s
    | some (q, seq) =>
      match s.findCmd q seq with
      | none => s
      | some c => if x.feeds.isEmpty ∧ c.phase = .running ∧ c.fault = none ∧ c.hostWait = none then s.padFrames k c 66 else s

/-- STREAM_CLOSE: it waits for the earlier feeds; presented again, it goes on after a fault (R368). -/
def execStreamClose (p : Packet) (s : State) : Host.Outcome State Fault Refusal :=
  .next (s.forOp p 0x0B03 (match s.startable p with
    | some c =>
      (match Kv.get (p.par 0 1) s.streams with
       | some x => if x.closing = some (c.queue, c.seq) ∧ x.owner = (c.view s).ctx then (s.begin c .none).tryClose (p.par 0 1) else s.finish c (badField 64)
       | none => s.finish c (badField 64))
    | none => match s.resumable p with
      | some _ => s.tryClose (p.par 0 1)
      | none => s))

/-! ### Decoding (R363, R364, R366) -/

/-- A feed ends. -/
def State.endFeed (s : State) (k : Nat) (c : Cmd) (e : Ending) : State :=
  ((s.updStream k fun y => y.drop c.queue c.seq).finish c e).tryClose k

/-- The first feed of a stream, when its command is running. -/
def State.headFeed (s : State) (x : EStream) : Option (EFeed × Cmd) :=
  (x.feeds.head?).bind fun f => ((s.findCmd f.queue f.seq).filter fun c =>
    decide (c.phase = .running ∧ c.fault = none ∧ c.hostWait = none)).map fun c => (f, c)

/-- A frame that is not written because its batch is complete or released already (R367), or that has been written; `unit`: the payload that it
adds to those on which later pictures may depend. -/
def State.countFrame (s : State) (k : Nat) (c : Cmd) (first : Nat) (good : Bool) (unit : List (List Byte)) : State :=
  (s.updStream k fun y => { y with
    next := y.next + 1, good := y.good + b2n good, units := y.units ++ unit
    feeds := y.feeds.map fun f => if f.queue = c.queue ∧ f.seq = c.seq then { f with first := some first, dropped := f.dropped + b2n (!good), since := none } else f
    }).updCmd c.queue c.seq fun d => { d with cursor := d.cursor + 1 }

/-- A feed waits for a free slot. -/
def State.waitSlot (s : State) (k : Nat) (first : Nat) : State :=
  let now := s.strk.now
  s.updStream k fun y => { y with feeds := match y.feeds with
    | f :: t => { f with first := some first, since := some (f.since.getD now) } :: t
    | [] => [] }

/-- The next frame of a stream's first feed. -/
def State.decodeFrame (s : State) (k : Nat) (x : EStream) (f : EFeed) (c : Cmd) : State :=
  let v := c.view s
  let buf := s.desc v.ctx (c.pkt.par 4 4)
  let rd := match buf with
    | some d => [(d.base, c.pkt.par 8 4)]
    | none => []
  match s.touchUnit v { reads := [(68, rd)], writes := [] } with
  | .error (e, s) => stop s e
  | .ok s =>
    let bs := s.feedBytes c
    let (recs, whole) := feedRecords (bs.length / 16 + 1) bs
    let keep := decide (x.codec ≤ 2)
    let first := f.first.getD x.next
    let j := x.next - first
    let units := if keep then x.units ++ (recs.drop j).map (·.payload) else []
    match recs[j]? with
    | none => s.endFeed k c (if whole then Ending.ok (c.cursor - f.dropped) f.dropped
        else { status := .mediaError, detail := 72, r0 := c.cursor - f.dropped, r1 := f.dropped })
    | some r0 =>
      let r := if keep then (recs[Config.outputOrder x.codec units x.next + j - x.units.length]?).getD r0 else r0
      let unit := if keep then [r0.payload] else []
      let b := x.next / x.batch
      if x.batchDone b then s.countFrame k c first false unit
      else if x.started ≠ some b ∧ x.next % x.batch = 0 ∧ (f.since.isSome ∨ ¬ s.hasRoom x b) then s.waitSlot k first
      else
        match s.desc x.owner x.output, s.desc x.owner x.metaH with
        | some out, some md =>
          let (o, m) := x.frameIO out md x.next
          (match s.touchUnit v { reads := [], writes := [(64, o), (64, m)] } with
           | .error (e, s) => stop s e
           | .ok s =>
             match x.picture units x.next r.payload with
             | some (val, pts) => (s.putFrame k x out md x.next r.capture 0 pts val).countFrame k c first true unit
             | none => (s.putFrame k x out md x.next r.capture 1 0 fun _ => FV.zero).countFrame k c first false unit)
        | _, _ => s.endFeed k c { status := .internal }
where
  /-- an access that cannot go on: the feed waits, or ends and leaves the stream open (R368) -/
  stop (s : State) (e : UnitStop) : State :=
    match e with
    | .fault kind va acc d =>
      let s := s.engineFault c kind va 6 k acc d
      if kind = .notPresent then s else (s.updStream k fun y => y.drop c.queue c.seq).tryClose k
    | .media va pa d => ((s.mediaFault c va pa 6 k d).updStream k fun y => y.drop c.queue c.seq).tryClose k
    | .host d => s.waitHost c d

/-- STREAM_FEED begins; its frames come by EASEL_FRAME_DECODED, in the order of admission (R363). -/
def execStreamFeed (p : Packet) (s : State) : Host.Outcome State Fault Refusal :=
  .next (s.forOp p 0x0B02 (match s.startable p with
    | none => s
    | some c =>
      match Kv.get (p.par 0 1) s.streams with
      | some x => if x.owner = (c.view s).ctx ∧ (x.feeds.any fun f => decide (f.queue = c.queue ∧ f.seq = c.seq)) then s.begin c .none else s.finish c (badField 64)
      | none => s.finish c (badField 64)))

/-- EASEL_FRAME_DECODED (R364). -/
def execEaselFrameDecoded (stream : Nat) (s : State) : Host.Outcome State Fault Refusal :=
  .next (match Kv.get stream s.streams with
    | none => s
    | some x => match s.headFeed x with
      | some (f, c) => s.decodeFrame stream x f c
      | none => s)

/-- EASEL_BATCH_START: the waiting stream may write the first frame of its next batch (R366). -/
def execEaselBatchStart (stream : Nat) (s : State) : Host.Outcome State Fault Refusal :=
  .next (match Kv.get stream s.streams with
    | none => s
    | some x =>
      let b := x.next / x.batch
      if (x.feeds.head?.bind (·.since)).isSome ∧ s.hasRoom x b then
        s.updStream stream fun y => { y with started := some b, feeds := match y.feeds with
          | f :: t => { f with since := none } :: t
          | [] => [] }
      else s)

/-- FEED_TIMEOUT: the first feed has waited WAIT_LIMIT strokes of its queue for a slot (R363). -/
def execFeedTimeout (stream : Nat) (s : State) : Host.Outcome State Fault Refusal :=
  .next (match Kv.get stream s.streams with
    | none => s
    | some x => match s.headFeed x with
      | none => s
      | some (f, c) =>
        match f.since, Kv.get f.queue s.queues with
        | some t, some q => if s.strk.now < t + q.waitLimit then s
            else s.endFeed stream c { status := .timeout, detail := 64, r0 := c.cursor - f.dropped, r1 := f.dropped }
        | _, _ => s)

/-! ### Groups and release (R367) -/

/-- The open streams of a stream's group, itself among them; a closed stream stands alone. -/
def State.streamMates (s : State) (k : Nat) (x : EStream) : List (Nat × EStream) :=
  match x.group with
  | none => [(k, x)]
  | some g => if x.closed then [(k, x)] else s.streams.filter fun e => decide (e.2.group = some g) && !e.2.closed

/-- Write the missing frames of batch b of a stream (R367). -/
def State.fillMissing (s : State) (k b : Nat) (x : EStream) (out md : Desc) : State :=
  let fs := ((List.range x.batch).map (b * x.batch + ·)).filter fun f => !(x.frames.any fun e => decide (e.frame = f))
  fs.foldl (fun (s : State) f =>
    match Kv.get k s.streams with
    | some y => s.putFrame k y out md f 0 2 0 fun _ => FV.zero
    | none => s) s

/-- BATCH_MISSING_TIMEOUT: the member's batch has been complete on another for ceil(10^6 / P) strokes (R367). It waits for a slot and for its
pages as any batch does. -/
def execBatchMissingTimeout (stream : Nat) (s : State) : Host.Outcome State Fault Refusal :=
  .next (match Kv.get stream s.streams with
    | none => s
    | some x =>
      let b := ((List.range (x.complete.length + 1)).map (x.released + ·)).find? fun b => !x.batchDone b
      match b, s.desc x.owner x.output, s.desc x.owner x.metaH with
      | some b, some out, some md =>
        let late := (s.streamMates stream x).any fun e => e.2.complete.any fun d => decide (d.1 = b ∧ d.2 + ceilDiv 1000000 s.strk.period ≤ s.strk.now)
        let begun := x.frames.any fun e => decide (e.frame / x.batch = b)
        if ¬ late ∨ x.closed ∨ ¬ (begun ∨ s.hasRoom x b) then s
        else
          let io := ((List.range x.batch).map (b * x.batch + ·)).map fun f => x.frameIO out md f
          (match s.touchAll { ctx := x.owner, bound := [] } (io.flatMap fun p => p.1 ++ p.2) accW false with
           | .error _ => s
           | .ok s => s.fillMissing stream b x out md)
      | _, _, _ => s)

/-- The batches of a stream that a boundary releases: in order, each complete on every member (R367). -/
def State.releasable (s : State) (k : Nat) (x : EStream) : Nat :=
  let mates := s.streamMates k x
  let ok (b : Nat) : Bool := mates.all fun e => e.2.batchDone b
  (((List.range (x.complete.length + 1)).find? fun i => !ok (x.released + i)).getD 0)

/-- Release batch b of a stream: STROKE into its META records, then its signal. -/
def State.releaseBatch (s : State) (k : Nat) : State :=
  match Kv.get k s.streams with
  | none => s
  | some x =>
    let b := x.released
    match s.desc x.owner x.metaH with
    | none => s
    | some md =>
      let mine := x.frames.filter fun e => decide (e.frame / x.batch = b)
      let s := mine.foldl (fun (s : State) e => s.vwrite x.owner [] ((md.locate [x.slotOf e.frame, 0]).1 / 8 + 16) (leBytes 6 s.strk.now)) s
      let upd (bad : Nat) (y : EStream) : EStream :=
        { y with
          frames := y.frames.filter fun e => !decide (e.frame / y.batch = b), complete := y.complete.filter fun e => e.1 ≠ b
          released := y.released + 1, refused := y.refused + bad, started := y.started.filter fun n => n ≠ b }
      match s.inkSignal x.owner x.signal 0 0 with
      | .ok s => s.updStream k (upd 0)
      | .error (_, s) => s.updStream k (upd 1)

/-- Action 5 of a boundary for Easel (R367, R368). -/
def State.releaseBatches (s : State) : State :=
  let plan := s.streams.map fun e => (e.1, s.releasable e.1 e.2)
  let s := plan.foldl (fun (s : State) e => (List.range e.2).foldl (fun (s : State) _ => s.releaseBatch e.1) s) s
  { s with streams := s.streams.filter fun e => !(e.2.closed && e.2.complete.isEmpty) }

end Sys2Proof.Machine
end

