-- ==== Sys2Proof/Machine/Store.lean ====
section
/-! DEFINITION. The boot flash, the configuration store and the firmware slots (22_boot_identity_store.md), with the rows of class 0x0C
that use them, attestation and key exchange. -/

namespace Sys2Proof.Machine

/-! ### Flash (R369, R370) -/

/-- n bytes of the flash from offset o; an erased byte reads 0xFF. -/
def State.flashRead (s : State) (o n : Nat) : List Byte := (List.range n).map fun i => (Kv.get (o + i) s.boot.flash).getD 0xFF

/-- The flash with bytes at offset o; erased bytes are not listed. -/
def flashPut (f : List (Nat × Byte)) (o : Nat) (bs : List Byte) : List (Nat × Byte) :=
  (f.filter fun c => decide (c.1 < o)) ++ (bs.zipIdx.filterMap fun x => if x.1 = 0xFF then none else some (o + x.2, x.1)) ++
    f.filter fun c => decide (o + bs.length ≤ c.1)

/-- Program bytes. -/
def State.flashWrite (s : State) (o : Nat) (bs : List Byte) : State := { s with boot := { s.boot with flash := flashPut s.boot.flash o bs } }

/-- Erase n bytes from offset o. -/
def State.flashErase (s : State) (o n : Nat) : State :=
  { s with boot := { s.boot with flash := s.boot.flash.filter fun c => !(decide (o ≤ c.1) && decide (c.1 < o + n)) } }

/-- Flash offset of a store bank. -/
def bankBase (b : Nat) : Nat := 0x10000 * (b + 1)
/-- Flash offset of a firmware slot's header. -/
def slotHeader (k : Nat) : Nat := 0x30000 + 0x10000 * k
/-- Flash offset of a firmware slot's image. -/
def slotImage (k : Nat) : Nat := 0x100_0000 * (k + 1)

/-! ### Device keys (R372) -/

/-- The device key pair's secret triple. -/
def State.deviceSecret (s : State) : Option (List Byte) := s.boot.seed.map fun x => hkdf [] x (ascii "KVDEV-SIGN") 48
/-- The device public key. -/
def State.devicePublic (s : State) : List Byte := ((s.deviceSecret).map Config.slhPublic).getD (zeros 32)
/-- The device MAC key. -/
def State.deviceMac (s : State) : Option (List Byte) := s.boot.seed.map fun x => hkdf [] x (ascii "KVDEV-MAC") 32

/-! ### The configuration store (R374 to R377) -/

/-- A value's length is one that R375 gives its key. -/
def keyLengthOk (k : Nat) (v : List Byte) : Bool :=
  let n := v.length
  if k = 1 ∨ k = 2 ∨ k = 3 then decide (n = 4)
  else if k = 4 then decide (n = 2)
  else if k = 5 then decide (n = 8)
  else if k = 6 then decide (n = 16)
  else if k = 0x10 then decide (n = 400)
  else if k = 0x11 then decide (n = 112)
  else if k = 0x12 ∨ k = 0x13 then decide (n = 192)
  else if k = 0x14 then decide (n = 16 + 224 * fieldAt v 4 2) && decide (n ≤ 14352)
  else if 0x20 ≤ k ∧ k ≤ 0x2F then decide (n = 32)
  else false

/-- Is a key defined. -/
def keyDefined (k : Nat) : Bool := (decide (1 ≤ k) && decide (k ≤ 6)) || (decide (0x10 ≤ k) && decide (k ≤ 0x14)) || (decide (0x20 ≤ k) && decide (k ≤ 0x2F))

/-- The entries of a payload, when every one obeys R374 and R375. -/
def parseStore : Nat → Nat → List Byte → Option (List (Nat × List Byte))
  | 0, _, _ => none
  | k + 1, last, bs =>
    if bs.isEmpty then some []
    else
      let key := fieldAt bs 0 2
      let n := fieldAt bs 2 2
      let whole := roundUp (4 + n) 8
      let v := (bs.drop 4).take n
      if bs.length < whole ∨ key ≤ last ∨ ¬ keyLengthOk key v ∨ ¬ ((bs.take whole).drop (4 + n)).all (fun b => decide (b = 0)) then none
      else (parseStore k key (bs.drop whole)).map fun t => (key, v) :: t

/-- The payload of a store's entries. -/
def storePayload (es : List (Nat × List Byte)) : List Byte :=
  es.flatMap fun e => leBytes 2 e.1 ++ leBytes 2 e.2.length ++ e.2 ++ zeros (roundUp (4 + e.2.length) 8 - (4 + e.2.length))

/-- The check of R376 on a bank: its SEQ and entries, or the first check that failed: 0 MAGIC, 1 LENGTH, 2 CRC, 3 TAG, 4 entries. -/
def State.bankCheck (s : State) (b : Nat) : Except Nat (Nat × List (Nat × List Byte)) :=
  let h := s.flashRead (bankBase b) 64
  let n := fieldAt h 8 4
  if h.take 4 ≠ ascii "KVCS" then .error 0
  else if n < 8 ∨ 65472 < n ∨ n % 8 ≠ 0 then .error 1
  else
    let pl := s.flashRead (bankBase b + 64) n
    if crc32c pl ≠ fieldAt h 12 4 then .error 2
    else match s.deviceMac with
      | none => .error 3
      | some k =>
        if hmacSha256 k (h.take 16 ++ pl) ≠ (h.drop 16).take 32 then .error 3
        else match parseStore (n / 8 + 1) 0 pl with
          | none => .error 4
          | some es => .ok (fieldAt h 4 4, es)

/-- An invalid bank enters the trouble log (R376). -/
def State.logBank (s : State) (b : Nat) : State :=
  match s.bankCheck b with
  | .error k => s.logEvent 0x0101 11 b noContext 0 k
  | .ok _ => s

/-- The selection of R376. -/
def State.selectStore (s : State) : State :=
  let s := (s.logBank 0).logBank 1
  let put (b : Option Nat) (seq : Nat) (es : List (Nat × List Byte)) : State :=
    { s with boot := { s.boot with bank := b, storeSeq := seq, store := es, inForce := es } }
  match s.bankCheck 0, s.bankCheck 1 with
  | .ok x, .ok y => if serialNewer 32 y.1 x.1 then put (some 1) y.1 y.2 else put (some 0) x.1 x.2
  | .ok x, .error _ => put (some 0) x.1 x.2
  | .error _, .ok y => put (some 1) y.1 y.2
  | .error _, .error _ => put none 0 []

/-- The bank that a store write uses: the one that is not selected. -/
def State.spareBank (s : State) : Nat := match s.boot.bank with
  | some b => 1 - b
  | none => 0

/-- Steps 1 and 3 to 6 of R377: the store with one key changed, read back and selected; none where the read-back fails. -/
def State.commitStore (s : State) (k : Nat) (v : List Byte) : Option State :=
  match s.deviceMac with
  | none => none
  | some mac =>
    let es := if v.isEmpty then Kv.del k s.boot.store else Kv.set k v s.boot.store
    let pl := storePayload es
    let b := s.spareBank
    let hd := ascii "KVCS" ++ leBytes 4 ((s.boot.storeSeq + 1) % 2 ^ 32) ++ leBytes 4 pl.length ++ leBytes 4 (crc32c pl)
    let s := s.flashWrite (bankBase b) (hd ++ hmacSha256 mac (hd ++ pl) ++ zeros 16 ++ pl)
    match s.bankCheck b with
    | .ok (seq, es) => some { s with boot := { s.boot with bank := some b, storeSeq := seq, store := es } }
    | .error _ => none

/-- A store write of the part's own, whole (R339, R352, R378, R383; DESIGN CHOICE, assumption 169). -/
def State.ownStore (s : State) (k : Nat) (v : List Byte) : State :=
  (((s.flashErase (bankBase s.spareBank) 65536).commitStore k v)).getD s

/-- A 4-byte key's value; its default is 0. -/
def State.storeNat (s : State) (k : Nat) : Nat := leNat ((s.storeKey k).getD [])

/-- The checks of CONFIG_WRITE on a key, its LENGTH and its value, with the details of KEY, LENGTH and value (R375). -/
def State.checkKey (s : State) (k len : Nat) (v : List Byte) (dk dl dv : Nat) : Check := do
  ensure (keyDefined k) (badField dk)
  ensure (decide (k ≠ 1) && (decide (k ≠ 5) || decide (len = 0))) (.fail .accessDenied dk)
  ensure (decide (len = 0) || (decide (v.length = len) && keyLengthOk k v)) (badField dl)
  if k = 2 then do
    ensure (decide (s.storeNat 2 ≤ leNat v)) (.fail .epochStale dv)
    ensure (decide (leNat v ≤ s.boot.svn)) (badField dv)
  if k = 3 then do
    ensure (decide (leNat v < 16)) (badField dv)
    ensure ((List.range 4).all fun i => !bitOf (s.storeNat 3) i || bitOf (leNat v) i) (.fail .epochStale dv)
    ensure (!bitOf (leNat v) s.boot.keyIndex) (badField dv)
  if k = 6 ∧ len ≠ 0 then
    ensure (decide (fieldAt v 2 1 < 2) && decide (fieldAt v 3 1 = 0) && decide (fieldAt v 10 6 = 0)) (badField dv)

/-- The value that CONFIG_READ returns: SB_KEY reads as zeros (R375). -/
def State.shownKey (s : State) (k : Nat) : List Byte :=
  let v := (s.storeKey k).getD []
  if k = 0x11 then zeros (min 32 v.length) ++ v.drop 32 else v

/-- LENGTH of a CONFIG_READ: the key's length, or that of the identity table as it is. -/
def State.readLengthOk (s : State) (k len : Nat) : Bool :=
  if k = 0x14 then decide (len = match s.storeKey k with
    | some v => v.length
    | none => 16)
  else keyLengthOk k (zeros len)

/-! ### Flash writes in progress (R370) -/

/-- Who a flash write belongs to. -/
def State.flashMine (s : State) (who : Option (Nat × Nat)) : Bool := decide (s.boot.flashOp = some { cmd := who })

/-- A further flash command while one is writing: BUSY_RETRY with the remaining time, which is open (R370; assumption 1). -/
def State.flashBusy (s : State) : State × Ending :=
  let (v, s) := s.draw 32
  (s, { status := .busyRetry, r0 := v })

/-- A flash write begins for a command. -/
def State.flashBegin (s : State) (c : Cmd) : State :=
  ({ s with boot := { s.boot with flashOp := some { cmd := some (c.queue, c.seq) } } } : State).begin c .none

/-- A flash write is over. -/
def State.flashEnd (s : State) : State := { s with boot := { s.boot with flashOp := none } }

/-- A flash command in its two phases: the erase, after which the row is presented again, and the programming. -/
def State.flashTwice (s : State) (c : Cmd) (erase : State → State) (prog : State → State × Ending) : State × Option Ending :=
  if s.flashMine (some (c.queue, c.seq)) then
    let (s, e) := prog s
    (s.flashEnd, some e)
  else if s.boot.flashOp.isSome then
    let (s, e) := s.flashBusy
    (s, some e)
  else ((erase s).flashBegin c, none)

/-! ### Store commands (R200, R375) -/

/-- Check CONFIG_READ. -/
def State.checkConfigRead (s : State) (n : Nat) (p : Packet) : Check := do
  ensure (keyDefined (p.at 64 2)) (badField 64)
  ensure (s.readLengthOk (p.at 64 2) (p.at 66 2)) (badField 66)
  let d ← s.needDesc n (p.at 68 4) 68 true
  ensure (decide (p.at 66 2 ≤ d.extent)) (badField 68)
  zeroBytes p 72 79

/-- CONFIG_READ (R370, R375). -/
def execConfigRead (p : Packet) (s : State) : Host.Outcome State Fault Refusal :=
  .next (s.forOp p 0x0C05 (s.runMgmt p clsMaintenance 10 (fun s c _ => s.checkConfigRead (c.view s).ctx p) (fun s c => [s.ioOf c 68 true]) fun s c _ =>
    let v := s.shownKey (p.at 64 2)
    .ok (s.mgmtWrite c 68 v, some (Ending.ok v.length s.boot.storeSeq))))

/-- The value of a CONFIG_WRITE. -/
def State.configValue (s : State) (c : Cmd) : List Byte := s.mgmtBytes c 68 (c.pkt.at 66 2)

/-- Check CONFIG_WRITE. -/
def State.checkConfigWrite (s : State) (c : Cmd) (full : Bool) : Check := do
  let p := c.pkt
  let len := p.at 66 2
  if p.at 68 4 = inlineHandle then ensure (decide (p.inlineLen = len)) (badField 66)
  else if len ≠ 0 then do
    let d ← s.needDesc (c.view s).ctx (p.at 68 4) 68 false
    ensure (decide (len ≤ d.extent)) (badField 68)
  if full then s.checkKey (p.at 64 2) len (s.configValue c) 64 66 68
  else do
    ensure (keyDefined (p.at 64 2)) (badField 64)
    ensure (decide (p.at 64 2 ≠ 1) && (decide (p.at 64 2 ≠ 5) || decide (len = 0))) (.fail .accessDenied 64)
  zeroBytes p 72 79

/-- CONFIG_WRITE: the store with one key changed; a part without identity never writes its store (R376, R377). -/
def execConfigWrite (p : Packet) (s : State) : Host.Outcome State Fault Refusal :=
  .next (s.forOp p 0x0C06 (s.runMgmt p clsMaintenance 10 (fun s c _ => s.checkConfigWrite c true) (fun s c => [s.ioOf c 68 false]) fun s c _ =>
    if s.boot.seed.isNone then .error (.fail .noResource 0)
    else .ok (s.flashTwice c (fun s => s.flashErase (bankBase s.spareBank) 65536) fun s =>
      match s.commitStore (p.at 64 2) (s.configValue c) with
      | some s => (s, Ending.ok s.boot.storeSeq 0)
      | none => (s, .fail .mediaError 64))))

/-! ### Firmware (R379 to R383) -/

/-- The descriptor checks of R379 after the signature: the failing ending. -/
def State.checkImage (s : State) (img : List Byte) : Check := do
  ensure (decide (img.take 4 = ascii "KVIM") && decide (fieldAt img 4 4 = img.length)) (badField 64)
  ensure (decide (fieldAt img 12 4 = 0)) (badField 64)
  ensure (!bitOf (leNat ((s.forceKey 3).getD [])) (fieldAt img 24 1)) (.fail .signatureInvalid 64)
  ensure (decide (fieldAt img 25 1 < 2) && decide (fieldAt img 26 1 = 0xA1) && zerosIn img 27 64) (badField 64)

/-- Does an image's signature verify under the ROM key that its descriptor names. -/
def imageSigned (img sig : List Byte) : Bool := decide (fieldAt img 24 1 < 4) && Config.slhVerify (Config.firmwareKey (fieldAt img 24 1)) img sig

/-- A slot header (R380). -/
def slotBytes (seq : Nat) (img sig : List Byte) (activate : Nat) : List Byte :=
  let a := ascii "KVFS" ++ leBytes 4 seq ++ leBytes 4 img.length
  let b := sha256 img ++ zeros 16 ++ sig
  a ++ leBytes 4 activate ++ b ++ leBytes 4 (crc32c (a ++ b))

/-- Does a slot header pass MAGIC and CRC. -/
def slotHeaderOk (h : List Byte) : Bool := decide (h.take 4 = ascii "KVFS") && decide (crc32c (h.take 12 ++ (h.drop 16).take 7904) = fieldAt h 7920 4)

/-- Is slot k staged: a valid header with ACTIVATE erased, and not the running slot (R381). -/
def State.staged (s : State) (k : Nat) : Bool :=
  let h := s.flashRead (slotHeader k) 7924
  slotHeaderOk h && decide (fieldAt h 12 4 = 0xFFFF_FFFF) && decide (s.boot.slot ≠ some k)

/-- The slot that FW_STAGE writes: the one that the part does not run from. -/
def State.otherSlot (s : State) : Nat := match s.boot.slot with
  | some k => 1 - k
  | none => 0

/-- SEQ of a slot's header. -/
def State.slotSeq (s : State) (k : Nat) : Nat := fieldAt (s.flashRead (slotHeader k) 8) 4 4

/-- Check FW_STAGE's handles. -/
def State.checkFwStage (s : State) (n : Nat) (p : Packet) : Check := do
  let d ← s.needDesc n (p.at 64 4) 64 false
  ensure (decide (65536 ≤ d.extent) && decide (d.extent ≤ 2 ^ 24)) (badField 64)
  let g ← s.needDesc n (p.at 68 4) 68 false
  ensure (decide (g.extent = 7856)) (badField 68)
  zeroBytes p 72 79

/-- FW_STAGE (R200, R379, R381); an image below the floor is not staged (R383; DEDUCED, assumption 72). -/
def execFwStage (p : Packet) (s : State) : Host.Outcome State Fault Refusal :=
  .next (s.forOp p 0x0C03 (s.runMgmt p clsVerify 10 (fun s c _ => s.checkFwStage (c.view s).ctx p) (fun s c => [s.ioOf c 64 false, s.ioOf c 68 false]) fun s c _ => do
    let v := c.view s
    let d ← s.needDesc v.ctx (p.at 64 4) 64 false
    let g ← s.needDesc v.ctx (p.at 68 4) 68 false
    let img := s.descBytes v d
    let sig := s.descBytes v g
    ensure (imageSigned img sig) (.fail .signatureInvalid 68)
    s.checkImage img
    ensure (decide (s.storeNat 2 ≤ fieldAt img 8 4)) (.fail .epochStale 64)
    let k := s.otherSlot
    return s.flashTwice c (fun s => (s.flashErase (slotHeader k) 65536).flashErase (slotImage k) (2 ^ 24)) fun s =>
      let s := s.flashWrite (slotImage k) img
      if sha256 (s.flashRead (slotImage k) img.length) ≠ sha256 img then (s, .fail .mediaError 64)
      else
        let seq := (((s.boot.slot.map s.slotSeq).getD 0) + 1) % 2 ^ 32
        (s.flashWrite (slotHeader k) (slotBytes seq img sig 0xFFFF_FFFF), Ending.ok (fieldAt img 8 4) k)))

/-- Check FW_ACTIVATE. -/
def State.checkFwActivate (s : State) (p : Packet) : Check := do
  let k := p.at 64 1
  ensure (decide (k ≤ 1)) (badField 64)
  ensure (s.staged k) (conflict scSlotEmpty)
  ensure (decide (s.storeNat 2 ≤ fieldAt (s.flashRead (slotImage k) 12) 8 4)) (.fail .epochStale 64)
  zeroBytes p 65 79

/-- FW_ACTIVATE (R200, R381). -/
def execFwActivate (p : Packet) (s : State) : Host.Outcome State Fault Refusal :=
  .next (s.forOp p 0x0C04 (s.runMgmt p clsMaintenance 10 (fun s _ _ => s.checkFwActivate p) (fun _ _ => []) fun s c _ =>
    .ok (s.flashTwice c id fun s => (s.flashWrite (slotHeader (p.at 64 1) + 12) (zeros 4), Ending.ok 0 0))))

/-- The check of a candidate slot (R382 step 3): its header and image, or the first check that failed: 0 digest, 1 signature, 2 revoked
key, 3 SVN (the numbers: DEDUCED, assumption 73). -/
def State.slotCheck (s : State) (k : Nat) : Except Nat (List Byte × List Byte) :=
  let h := s.flashRead (slotHeader k) 7924
  let img := s.flashRead (slotImage k) (min (fieldAt h 8 4) (2 ^ 24))
  if sha256 img ≠ (h.drop 16).take 32 then .error 0
  else if ¬ imageSigned img ((h.drop 64).take 7856) then .error 1
  else if bitOf (leNat ((s.forceKey 3).getD [])) (fieldAt img 24 1) then .error 2
  else if fieldAt img 8 4 < s.storeNat 2 then .error 3
  else .ok (h, img)

/-- Is a slot a candidate: MAGIC, CRC, activated (R382 step 1). -/
def State.candidate (s : State) (k : Nat) : Bool :=
  let h := s.flashRead (slotHeader k) 7924
  slotHeaderOk h && decide (fieldAt h 12 4 ≠ 0xFFFF_FFFF)

/-- The selection of R382 among some slots: the part with the image that runs, or in recovery. -/
def State.selectFw (s : State) : Nat → List Nat → State
  | 0, _ => { s with boot := { s.boot with recovery := true, slot := none } }
  | n + 1, ks =>
    let cs := ks.filter s.candidate
    let pick : Option Nat := match cs with
      | [a, b] => some (if serialNewer 32 (s.slotSeq b) (s.slotSeq a) then b else a)
      | [a] => some a
      | _ => none
    match pick with
    | none => { s with boot := { s.boot with recovery := true, slot := none } }
    | some k =>
      match s.slotCheck k with
      | .ok (h, img) => { s with boot := { s.boot with
          slot := some k, svn := fieldAt img 8 4, version := fieldAt img 16 8, keyIndex := fieldAt img 24 1 % 4, raiseFloor := bitOf (fieldAt img 25 1) 0
          slotDigest := sha256 (h.take 7920) } }
      | .error e =>
        let svn := fieldAt (s.flashRead (slotImage k) 12) 8 4
        (s.logEvent 0x0102 11 k noContext 0 (e + svn * 2 ^ 32)).selectFw n (ks.filter (· ≠ k))

/-! ### Attestation (R387, R388) -/

/-- Report bytes with n epochs. -/
def reportSize (n : Nat) : Nat := 25456 + 40 * n

/-- The installed and retiring epochs from the oldest (R387). -/
def State.epochsInOrder (s : State) : List (Nat × Epoch) :=
  let first := s.newest.getD 0 + 1
  s.epochs.mergeSort fun a b => decide ((a.1 + 2 ^ 16 - first % 2 ^ 16) % 2 ^ 16 ≤ (b.1 + 2 ^ 16 - first % 2 ^ 16) % 2 ^ 16)

/-- The report before its signature. -/
def State.reportBody (s : State) (nonce : List Byte) : List Byte :=
  let es := s.epochsInOrder
  let entry (e : Nat × Epoch) : List Byte :=
    let m := Kv.get e.2.manifest s.manifests
    leBytes 2 e.1 ++ leBytes 1 ((m.map (·.publisher)).getD 0) ++ leBytes 1 (b2n e.2.retiring) ++ zeros 4 ++ (m.map (·.digest)).getD (zeros 32)
  let pubs := (List.range 16).flatMap fun k => (s.storeKey (0x20 + k)).getD (zeros 32)
  ascii "KVAT" ++ leBytes 2 1 ++ leBytes 2 es.length ++ leBytes 8 s.boot.serial ++ s.devicePublic ++ nonce ++ zeros (64 - nonce.length) ++
    leBytes 1 nonce.length ++ leBytes 1 (s.boot.slot.getD 0) ++ leBytes 1 ((s.boot.causes.min?).getD 0) ++
    leBytes 1 (2 * s.boot.endorseKey + b2n s.boot.endorsed) ++ leBytes 4 s.boot.svn ++ leBytes 8 s.boot.version ++ leBytes 4 (s.storeNat 2) ++
    leBytes 4 s.boot.storeSeq ++ leBytes 4 (s.storeNat 1) ++ leBytes 6 s.strk.now ++ leBytes 2 s.selfNode ++ leBytes 4 (s.storeNat 3) ++
    Config.romDigest.take 32 ++ s.boot.slotDigest ++ sha256 pubs ++ zeros 264 ++ es.flatMap entry ++
    (if s.boot.endorsed then s.boot.endorsement else zeros 7856)

/-- Check ATTEST (R200, R387). -/
def State.checkAttest (s : State) (n : Nat) (p : Packet) : Check := do
  let d ← s.needDesc n (p.at 64 4) 64 true
  ensure (decide (35696 ≤ d.extent)) (badField 64)
  let len := p.at 72 4
  if p.at 68 4 = inlineHandle then .ok ()
  else do
    let g ← s.needDesc n (p.at 68 4) 68 false
    ensure (decide (len ≤ g.extent)) (badField 72)
  ensure (decide (16 ≤ len) && decide (len ≤ 64) && (decide (p.at 68 4 ≠ inlineHandle) || decide (p.inlineLen = len))) (badField 72)
  zeroBytes p 76 79

/-- ATTEST (R387, R388). -/
def execAttest (p : Packet) (s : State) : Host.Outcome State Fault Refusal :=
  .next (s.forOp p 0x0C01 (s.runMgmt p clsSign 10 (fun s c _ => s.checkAttest (c.view s).ctx p) (fun s c => [s.ioOf c 68 false, s.ioOf c 64 true]) fun s c _ =>
    match s.deviceSecret with
    | none => .error (.fail .noResource 0)
    | some k =>
      let body := s.reportBody (s.mgmtBytes c 68 (p.at 72 4))
      let bs := body ++ Config.slhSign k body
      .ok (s.mgmtWrite c 64 bs, some (Ending.ok (reportSize s.epochs.length) 0))))

/-! ### Key exchange (R289) -/

/-- A message header: the sending part's node and queue pair, then the receiving part's. The places of its fields are the model's
(DESIGN CHOICE, assumption 71). -/
def kxHeader (stage node qp toNode toQp : Nat) : List Byte :=
  ascii "KVKX" ++ leBytes 1 stage ++ zeros 3 ++ leBytes 2 node ++ leBytes 2 qp ++ leBytes 2 toNode ++ leBytes 2 toQp ++ zeros 48

/-- Bytes of the peer's message that each stage takes, and of the one that it gives. -/
def kxSizes (stage : Nat) : Nat × Nat := if stage = 0 then (0, 18336) else if stage = 1 then (18336, 18240) else (18240, 0)

/-- The request in EXCHANGE, and the REPLY that its stage gives; FINISH gives none (R179, R289). -/
def State.checkExchange (s : State) (n : Nat) (c : Cmd) (q : Qp) (d : Desc) : Check := do
  let p := c.pkt
  let x := s.mgmtBytes c 68 64
  let st := fieldAt x 4 1
  ensure (decide (x.take 4 = ascii "KVKX") && decide (st ≤ 2) && zerosIn x 5 8 && zerosIn x 12 32) (badField 68)
  ensure (decide (64 + (kxSizes st).1 ≤ d.extent)) (badField 68)
  ensure (if st = 2 then q.initiated.isSome && q.key.isNone else decide (q.state = .reset) && q.key.isNone) (badField 68)
  if st = 2 then ensure (decide (p.at 72 4 = 0)) (badField 72)
  else do
    let r ← s.needDesc n (p.at 72 4) 72 true
    ensure (decide ((kxSizes st).2 ≤ r.extent)) (badField 72)

/-- Check SESSION_KEY (R200, R289); `full`: what EXCHANGE holds too, which is read when the command runs (assumption 96). -/
def State.checkSessionKey (s : State) (n : Nat) (c : Cmd) (full : Bool) : Check := do
  let p := c.pkt
  let q ← s.needQp n (p.at 64 4) 64
  ensure q.encrypt (badField 64)
  let d ← s.needDesc n (p.at 68 4) 68 false
  ensure (decide (64 ≤ d.extent)) (badField 68)
  if full then s.checkExchange n c q d
  zeroBytes p 76 79

/-- The keys of both directions: initiator to responder, and back (R289). -/
def kxKeys (shared m1 m2 : List Byte) (iNode iQp rNode rQp : Nat) : List Byte × List Byte :=
  let k := hkdf (sha256 (m1 ++ m2)) shared (ascii "KVSTYLUS" ++ leBytes 2 iNode ++ leBytes 2 iQp ++ leBytes 2 rNode ++ leBytes 2 rQp) 64
  (k.take 32, k.drop 32)

/-- Install a queue pair's keys under a new number: KEYED. -/
def State.installKey (s : State) (k : Nat) (send recv : List Byte) : State × Nat :=
  let num := s.stylus.keySerial + 1
  let s : State := { s with stylus := { s.stylus with keySerial := num } }
  (s.updQp k fun q => { q with key := some { number := num, send := send, recv := recv }, state := .keyed, initiated := none }, num)

/-- One stage of the exchange. -/
def State.exchange (s : State) (c : Cmd) (secret : List Byte) : Except Ending (State × Option Ending) :=
  let p := c.pkt
  let k := p.at 64 4
  let x := s.mgmtBytes c 68 18400
  let st := fieldAt x 4 1
  let peer := fieldAt x 8 2
  let peerQp := fieldAt x 10 2
  let me := s.selfNode
  let key := (x.drop 32).take 32
  if st = 0 then
    let (d, s) := s.drawRandom
    let m1 := kxHeader 0 me k peer peerQp ++ Config.kemEncapKey d
    let s := s.updQp k fun q => { q with initiated := some (d, m1) }
    .ok (s.mgmtWrite c 72 (m1 ++ Config.slhSign secret m1), some (Ending.ok 0 0))
  else
    let n := if st = 1 then 1248 else 1152
    let m := (x.drop 64).take n
    let sig := (x.drop (64 + n)).take 17088
    if m.take 64 ≠ kxHeader (st - 1) peer peerQp me k then .error (.fail .checkMismatch 68)
    else if ¬ Config.slhVerify key m sig then .error (.fail .signatureInvalid 68)
    else if st = 1 then
      let ek := m.drop 64
      let (d, s) := s.drawRandom
      let m2 := kxHeader 1 me k peer peerQp ++ Config.kemCipher ek d
      let shared := Config.kemShared ek d
      let (a, b) := kxKeys shared m m2 peer peerQp me k
      let (s, num) := s.installKey k b a
      .ok (s.mgmtWrite c 72 (m2 ++ Config.slhSign secret m2), some (Ending.ok num 0))
    else match (s.qp k).bind (·.initiated) with
      | none => .error (badField 68)
      | some (d, m1) =>
        let (a, b) := kxKeys (Config.kemDecap d (m.drop 64)) m1 m me k peer peerQp
        let (s, num) := s.installKey k a b
        .ok (s, some (Ending.ok num 0))

/-- The class of a SESSION_KEY: SIGN, or VERIFY for FINISH (R392). -/
def State.kxClass (s : State) (p : Packet) : Nat :=
  match s.findCmd p.queue p.seq with
  | some c => if fieldAt (s.mgmtBytes c 68 5) 4 1 = 2 then clsVerify else clsSign
  | none => clsSign

/-- SESSION_KEY (R289, R388). -/
def execSessionKey (p : Packet) (s : State) : Host.Outcome State Fault Refusal :=
  .next (s.forOp p 0x0C02 (s.runMgmt p (s.kxClass p) 10 (fun s c _ => s.checkSessionKey (c.view s).ctx c true) (fun s c => [s.ioOf c 68 false, s.ioOf c 72 true]) fun s c _ =>
    match s.deviceSecret with
    | none => .error (.fail .noResource 0)
    | some k => s.exchange c k))

end Sys2Proof.Machine
end

