-- ==== Sys2Proof/Machine/Align.lean ====
section
/-! DEFINITION. The stroke timer's settings and its alignment (09_strokes.md, R138 to R140, R153 to R155): STROKE_SET, STROKE_QUERY, the PTP
servo, the alignment states, and action 1 of a boundary. -/

namespace Sys2Proof.Machine

/-! ### Alignment states (R153) -/

/-- The code of an alignment state in STROKE_QUERY and ALIGN_STATUS (R182, R441). -/
def Align.code : Align → Nat
  | .localTime => 0 | .acquiring => 1 | .aligned => 2 | .unaligned => 3

/-- Enter an alignment state: a change of state writes an entry (R153, R399). -/
def State.setAlign (s : State) (a : Align) : State :=
  let s' : State := { s with strk := { s.strk with align := a, within := 0, beyond := 0 } }
  if s.strk.align = a then s' else s'.logEvent 0x0403 11 0 noContext a.code (twos 64 s.strk.offset)

/-- ALIGNED is lost: UNALIGNED, and the alignment-lost bit (R153). -/
def State.loseAlignment (s : State) : State :=
  if s.strk.align = .aligned then
    let s := s.setAlign .unaligned
    { s with host := { s.host with alignLost := true } }
  else s

/-- ALIGNMENT_ACQUIRED: eight boundaries in a row within ±100 ns (R153). -/
def execAlignmentAcquired (s : State) : Host.Outcome State Fault Refusal :=
  .next (if (s.strk.align = .acquiring ∨ s.strk.align = .unaligned) ∧ 8 ≤ s.strk.within then s.setAlign .aligned else s)

/-- ALIGNMENT_LOST: three boundaries in a row beyond ±500 ns (R153). -/
def execAlignmentLost (s : State) : Host.Outcome State Fault Refusal :=
  .next (if s.strk.align = .aligned ∧ 3 ≤ s.strk.beyond then s.loseAlignment else s)

/-- SYNC_TIMEOUT: no Sync for eight sync intervals under a PTP source makes the offset unbounded (R153). -/
def execSyncTimeout (s : State) : Host.Outcome State Fault Refusal :=
  .next (if s.strk.source = 0 then s else { s with strk := { s.strk with unbounded := true } })

/-- The correction of one stroke's length for an offset: towards zero, at most 250 ns, none within ±50 ns (R155). A positive offset is a
boundary that came late, so that strokes are shortened (DEDUCED, assumption 21). -/
def correctionFor (x : Int) : Int := if x.natAbs ≤ 50 then 0 else - clampI x (-250) 250

/-- A Sync that left at `sent` and arrived at `arrival` is complete: the servo corrects the stroke's length by the last boundary's offset less
the clock's error, and a delay request leaves at `departure` (R139, R155; assumption 161). -/
def State.syncDone (s : State) (sent arrival departure : Int) : State :=
  let d := arrival - sent
  let x := s.strk.offset - (d - s.strk.ptpDelay)
  { s with strk := { s.strk with
      ptpSync := none, ptpDiff := some d, ptpRequest := some (s.strk.ptpNext, departure), ptpNext := (s.strk.ptpNext + 1) % 65536
      correction := if s.strk.period * 250 < x.natAbs then s.strk.correction else correctionFor x } }

/-- The answer to delay request n, which arrived at `received`: half the sum of both ways is the mean path delay (R139; assumption 161). -/
def State.delayDone (s : State) (n : Nat) (received : Int) : State :=
  match s.strk.ptpRequest, s.strk.ptpDiff with
  | some (k, left), some d =>
    if k = n then { s with strk := { s.strk with ptpRequest := none, ptpDelay := (d + (received - left)) / 2 } } else s
  | _, _ => s

/-- PTP_SYNC: a message of the named source (R139, R155): a Sync bounds the offset again; a one-step Sync, or the Follow_Up of a two-step one, tells
the departure; the answer to a delay request gives the path's delay. A message of another source or port is nothing to the part. -/
def execPtpSync (m : PtpMessage) (s : State) : Host.Outcome State Fault Refusal :=
  .next (if s.strk.source = 0 ∨ m.source ≠ s.strk.source ∨ m.port ≠ s.strk.port then s
    else match m.body with
    | .sync n t =>
      let s : State := { s with strk := { s.strk with unbounded := false, ptpSync := some (n, m.arrival) } }
      (match t with
       | some t => s.syncDone t m.arrival m.departure
       | none => s)
    | .followUp n t =>
      (match s.strk.ptpSync with
       | some (k, a) => if k = n then s.syncDone t a m.departure else s
       | none => s)
    | .delayAnswer n t => s.delayDone n t)

/-! ### STROKE_SET (R139, R201) -/

/-- Is the port of a time source configured and up (R139). -/
def State.timePortOk (s : State) (source port : Nat) : Bool :=
  if source = 0 then true
  else if source = 1 then s.portUp port
  else match Kv.get port s.bus.ports with
    | some q => decide (q.mode ≠ 0) && decide (q.phase ≠ .off)
    | none => false

/-- Does a shorter period meet nothing in use: no plate or Stencil command admitted, no default budget above its window (R139). -/
def State.periodFree (s : State) (period : Nat) : Bool :=
  decide (s.leastPeriod ≤ period) ||
    (!(s.cmds.any fun c => c.unitRef.isSome && decide (c.phase ≠ .visible)) &&
      s.ctxs.all fun e => decide (e.2.budget ≤ 700 * period - 1400))

/-- STROKE_SET's fields in the order of R139's table. -/
def State.checkStrokeSet (s : State) (p : Packet) : Check := do
  let period := p.at 64 2
  let source := p.at 66 1
  let sync := sext 8 (p.at 68 1)
  ensure (decide (50 ≤ period) && decide (period ≤ 2000) && decide (period % 10 = 0)) (badField 64)
  ensure (decide (s.strk.now + 2 ≤ p.at 72 6)) (badField 72)
  ensure (decide (source ≤ 2)) (badField 66)
  ensure (if source = 0 then decide (p.at 67 1 = 0) else s.timePortOk source (p.at 67 1)) (badField 67)
  ensure (decide (source = 0) || (decide (-7 ≤ sync) && decide (sync ≤ 0))) (badField 68)
  ensure (s.strk.origin.isNone || decide (p.at 80 6 = 0)) (badField 80)
  ensure (if s.strk.origin.isNone then decide (p.at 88 4 < 10 ^ 9) else decide (p.at 88 4 = 0)) (badField 88)
  zeroBytes p 69 71
  zeroBytes p 78 79
  zeroBytes p 86 87
  zeroBytes p 92 95
  ensure (s.fabric.banks.all fun b => decide (schedEnd b.2.schedule ≤ period * 1000)) (conflict scScheduleLong)
  ensure (s.periodFree period) (conflict scPeriodInUse)

/-- The change that a STROKE_SET asks for. -/
def strokeChange (p : Packet) : StrokeChange :=
  { effective := p.at 72 6, period := p.at 64 2, source := p.at 66 1, port := p.at 67 1, syncLog2 := sext 8 (p.at 68 1) }

/-- The origin that a STROKE_SET records while none is set: an all-zero one counts as given only under a PTP source (assumption 76). -/
def State.originFrom (s : State) (p : Packet) : Option (Nat × Nat) :=
  match s.strk.origin with
  | some o => some o
  | none => if p.at 80 6 = 0 ∧ p.at 88 4 = 0 ∧ p.at 66 1 = 0 then none else some (p.at 80 6, p.at 88 4)

/-- STROKE_SET: the change waits for its stroke, and pending changes at or after it are dropped (R139). -/
def execStrokeSet (p : Packet) (s : State) : Host.Outcome State Fault Refusal :=
  .next (s.forOp p 0x0D01 (s.runNow p fun s _ _ => do
    s.checkStrokeSet p
    let x := strokeChange p
    return ({ s with strk := { s.strk with
      origin := s.originFrom p
      changes := (s.strk.changes.filter fun y => decide (y.effective < x.effective)) ++ [x] } }, Ending.ok 0 0)))

/-- STROKE_QUERY: the stroke number and the alignment state (R182). -/
def execStrokeQuery (p : Packet) (s : State) : Host.Outcome State Fault Refusal :=
  .next (s.forOp p 0x0D04 (s.runNow p fun s _ _ => do
    zeroBytes p 64 79
    return (s, Ending.ok (s.strk.now % 2 ^ 32) (s.strk.align.code * 2 ^ 16 + bitsOf s.strk.now 47 32))))

/-! ### Action 1 of a boundary (R140, R155) -/

/-- Take one pending change: the period, and the state that its source gives (R139, R153). -/
def State.applyChange (s : State) (x : StrokeChange) : State :=
  let k := { s.strk with period := x.period, source := x.source, port := x.port, syncLog2 := x.syncLog2, unbounded := false }
  let s : State := { s with strk := { k with ptpSync := none, ptpDiff := none, ptpRequest := none, ptpDelay := 0 } }
  s.setAlign (if x.source = 0 then .localTime else .acquiring)

/-- Does the offset of the last boundary call for a step: beyond a quarter of the period, and bounded (R155). -/
def State.stepDue (s : State) : Bool :=
  decide (s.strk.source ≠ 0) && !s.strk.unbounded && decide (s.strk.period * 250 < s.strk.offset.natAbs)

/-- The counter of the stroke that begins: a step behind PTP time skips the numbers that it has missed (R155). -/
def State.nextStroke (s : State) : Nat :=
  if s.stepDue ∧ 0 < s.strk.offset then s.strk.now + 1 + ceilDiv s.strk.offset.natAbs (s.strk.period * 1000) else s.strk.now + 1

/-- The length in ns of the stroke that ends. -/
def State.strokeLength (s : State) : Nat :=
  let p := s.strk.period * 1000
  let x := s.strk.offset.natAbs
  if s.stepDue then (if 0 < s.strk.offset then (1 + ceilDiv x p) * p - x else p + x)
  else ((p : Int) + s.strk.correction).toNat

/-- Action 1: the counter, the latched instant, and the changes whose stroke has come (R139, R140). -/
def State.nextBoundary (s : State) : State :=
  let s : State := { s with strk := { s.strk with now := s.nextStroke % 2 ^ 48, elapsed := s.strk.elapsed + s.strokeLength } }
  let due := s.strk.changes.filter fun x => decide (x.effective ≤ s.strk.now)
  let s : State := { s with strk := { s.strk with changes := s.strk.changes.filter fun x => decide (s.strk.now < x.effective) } }
  due.foldl State.applyChange s

/-- Action 4, first part: the offset is evaluated under a PTP source; one that is not known counts as unbounded (R153, R155). -/
def State.evaluateOffset (s : State) (x : Option Int) : State :=
  if s.strk.source = 0 then { s with strk := { s.strk with offset := 0, within := 0, beyond := 0, correction := 0 } }
  else
    let known := x.filter fun _ => !s.strk.unbounded
    let near := known.any fun o => decide (o.natAbs ≤ 100)
    let far := !(known.any fun o => decide (o.natAbs ≤ 500))
    { s with strk := { s.strk with
      offset := x.getD s.strk.offset, unbounded := s.strk.unbounded || x.isNone
      within := if near then min 8 (s.strk.within + 1) else 0
      beyond := if far then min 3 (s.strk.beyond + 1) else 0
      correction := match known with
        | some o => if s.strk.period * 250 < o.natAbs then 0 else correctionFor o
        | none => 0 } }

end Sys2Proof.Machine
end

