-- ==== Sys2Proof/Machine/Power.lean ====
section
/-! DEFINITION. Power, sensors, core voltage and profiles (24_power_clocks_reset.md, 25_limits_and_timeouts.md). -/

namespace Sys2Proof.Machine

/-! ### SENSOR entries (R419) -/

/-- Write a SENSOR entry: the sensor's number, its raw reading, the event (R399, R419). -/
def State.sensorEntry (s : State) (sensor : Nat) (raw : Int) (event : Nat) : State :=
  s.logEvent 0x0902 11 sensor noContext 0 (twos 16 raw + event * 65536)

/-- A SENSOR entry whose raw reading the manual leaves to the monitors: a free value (assumption 78). -/
def State.openReading (s : State) (sensor event : Nat) : State :=
  let (v, s) := s.draw 16
  s.sensorEntry sensor v event

/-! ### Stopping the part (R405, R409, R424) -/

/-- What the core domains hold is gone: contexts, queues, commands, engines, keys, epochs, manifests, banks, HBM4 and plate memory (R411). The
DDR tier keeps its enciphered bytes, host memory is not the part's. -/
def State.clearCore (s : State) : State :=
  let m := s.mem
  { s with
    mem := { m with
      cells := m.cells.filter fun c => decide (ddrBase ≤ c.1)
      badLines := m.badLines.filter fun l => decide (ddrBase ≤ l)
      inked := [], owners := [], filling := [], tlb := [], keys := [], hostLines := [], directory := [], snooped := [], inkUnit := [] }
    ctxs := [], queues := [], dbUnused := [], cmds := [], preds := [], buckets := [], epochs := [], manifests := [], newest := none, streams := []
    nextPlacement := none, placement := 0
    plates := s.plates.map fun e => (e.1, { e.2 with
      ctx := none, tray := [], arrays := e.2.arrays.map fun _ => .idle
      stipples := e.2.stipples.map fun _ => .empty, units := [], begun := [], late := false, closed := false, drained := true, due := false, hung := false })
    routers := s.routers.map fun e => (e.1, { e.2 with ctx := none, units := [], late := false, closed := false, drained := true, due := false, hung := false })
    stylus := { s.stylus with qps := [], chip := [], miss := [] }
    fabric := { s.fabric with
      banks := [], active := none, switch := none, announce := 0, ports := s.fabric.ports.map fun x => (x.1, { x.2 with waiting := [] }) }
    proof := { s.proof with refusals := List.replicate 5 0, overload := false }
    host := { s.host with heldWrites := [], waiting := [], faultSummary := [], admqState := 0, enable := false }
    spare := { s.spare with arming := false, promoting := none, identity := none, fill := none, cursor := none, serve := none } }

/-- Every engine stops, and every domain but the auxiliary one is held in reset: links are down (R405, R409, R424). -/
def State.holdCore (s : State) : State :=
  let s := s.clearCore
  { s with
    power := { s.power with stopped := true, busy := [], gated := [] }
    boot := { s.boot with stage := min s.boot.stage 5, flashOp := none }
    host := { s.host with up := false }
    fabric := { s.fabric with ports := s.fabric.ports.map fun e => (e.1, { e.2 with up := false, slot := none }) } }

/-! ### Temperatures (R420, R423, R424) -/

/-- The first reading that a sensor has had. -/
def newSensor : Sensor := { vals := [], bad := 0, good := 0, failed := false, raw := 0 }

/-- Is a reading in 1/16 °C plausible: in the range of its kind, and within 10 °C of the last plausible one (R420). -/
def Sensor.plausible (x : Sensor) (item : Nat) (raw : Int) : Bool :=
  decide (-320 ≤ raw) && decide (raw ≤ if item ≤ 4 then 2240 else 2000) &&
    (match x.vals.head? with
     | some v => decide ((raw - v).natAbs ≤ 160)
     | none => true)

/-- Take a reading: an implausible one is discarded (R420). -/
def Sensor.take (x : Sensor) (item : Nat) (raw : Int) : Sensor :=
  if x.plausible item raw then { x with vals := (raw :: x.vals).take 3, bad := 0, good := min 1000 (x.good + 1), raw := raw }
  else { x with bad := min 3 (x.bad + 1), good := 0, raw := raw }

/-- The filtered value: the median of the last three plausible readings, the larger of two, the only one (R420; assumption 75). -/
def Sensor.filtered (x : Sensor) : Option Int :=
  match x.vals with
  | [a, b, c] => some (max (min a b) (min (max a b) c))
  | [a, b] => some (max a b)
  | [a] => some a
  | _ => none

/-- Throttle start, critical and trip temperature of an item in 1/16 °C: dies 0 to 4, stacks 5 to 16 (R423). -/
def thermalLimits (item : Nat) : Int × Int × Int := if item ≤ 4 then (1520, 1680, 1760) else (1360, 1520, 1600)

/-- An item's temperature: the largest filtered value of its sensors that have not failed, its critical temperature when all have (R420). -/
def State.itemTemp (s : State) (item : Nat) : Option Int :=
  let mine := s.power.sensors.filter fun e => decide (e.1 / 4 = item)
  if mine.isEmpty then none
  else
    let live := mine.filter fun e => !e.2.failed
    if live.isEmpty then some (thermalLimits item).2.1
    else (live.filterMap fun e => e.2.filtered).max?

/-- The items of R423: compute tiles T0 to T3, the I/O tile, stacks 0 to 11. -/
def thermalItems : List Nat := List.range 17

/-- Items whose temperature passes a limit. -/
def State.itemsAbove (s : State) (limit : Nat → Int) : List Nat :=
  thermalItems.filter fun i => (s.itemTemp i).any fun t => decide (limit i < t)

/-- The critical temperature has been passed: one entry per excursion; the samples in a row above the trip temperature (R423, R424). -/
def State.watchHeat (s : State) : State :=
  let hot := s.itemsAbove fun i => (thermalLimits i).2.1
  let trip := s.itemsAbove fun i => (thermalLimits i).2.2
  let fresh := hot.filter fun i => decide (i ∉ s.power.hot)
  let run := trip.map fun i => (i, min 10 ((Kv.get i s.power.tripRun).getD 0 + 1))
  let s : State := { s with power := { s.power with hot := hot, tripRun := run } }
  fresh.foldl (fun (s : State) i => s.sensorEntry i ((s.itemTemp i).getD 0) 0) s

/-- A round of temperature readings (R420). -/
def State.takeTemps (s : State) (ts : List (Nat × Int)) : State :=
  ts.foldl (fun (s : State) e =>
    let x := (Kv.get e.1 s.power.sensors).getD newSensor
    let lost := if x.plausible (e.1 / 4) e.2 then 0 else 1
    { s with power := { s.power with
      sensors := Kv.set e.1 (x.take (e.1 / 4) e.2) s.power.sensors
      discarded := s.power.discarded.set 0 (s.power.discarded.getD 0 0 + lost) } }) s

/-- SENSOR_FAILED: three implausible readings in a row (R420). -/
def execSensorFailed (sensor : Nat) (s : State) : Host.Outcome State Fault Refusal :=
  .next (match Kv.get sensor s.power.sensors with
    | some x =>
      if x.failed ∨ x.bad < 3 then s
      else ({ s with power := { s.power with sensors := Kv.upd sensor (fun y => { y with failed := true }) s.power.sensors } } :
        State).sensorEntry (sensor / 4) x.raw 2
    | none => s)

/-- SENSOR_RECOVERED: 1,000 plausible readings in a row (R420). -/
def execSensorRecovered (sensor : Nat) (s : State) : Host.Outcome State Fault Refusal :=
  .next (match Kv.get sensor s.power.sensors with
    | some x =>
      if ¬ x.failed ∨ x.good < 1000 then s
      else ({ s with power := { s.power with sensors := Kv.upd sensor (fun y => { y with failed := false }) s.power.sensors } } :
        State).sensorEntry (sensor / 4) x.raw 3
    | none => s)

/-- THERMAL_TRIP: an item above its trip temperature for 1 ms stops the part; only PORST_N clears the latch (R424). -/
def execThermalTrip (s : State) : Host.Outcome State Fault Refusal :=
  .next (match s.power.tripRun.find? fun e => decide (10 ≤ e.2) with
    | none => s
    | some e =>
      if s.power.tripped then s
      else
        let t := (s.itemTemp e.1).getD 0
        let s := s.holdCore
        ({ s with power := { s.power with tripped := true, reqCore := false, reqIo := false, waking := false } } : State).sensorEntry e.1 t 4)

/-! ### Package power (R402, R413, R417, R421) -/

/-- Peak currents in mA of the rails of steps 2 to 6, rails 1 to 12 of R402's order. -/
def railPeaks : List Nat :=
  [3000, 30000, 44000, 14000, 2000, 160000, 600000, 600000, 600000, 600000, 130000, 8000]

/-- Is a mean current of a rail implausible (R421). -/
def currentBad (rail : Nat) (c : Int) : Bool :=
  decide (c < 0) || decide (5 * (railPeaks.getD (rail - 1) 0) < 4 * c.natAbs)

/-- Power of a rail in µW: its level times its mean current, or its peak current (R421). -/
def railPower (x : SensorInput) (rail : Nat) : Nat :=
  let c := (Kv.get rail x.currents).getD 0
  (if currentBad rail c then railPeaks.getD (rail - 1) 0 else c.natAbs) * (Kv.get rail x.levels).getD 0

/-- The package power of a sample in mW; above 2,500 W it is replaced by 1,800 W (R421). -/
def packagePower (x : SensorInput) : Nat :=
  let w := (((List.range 12).map fun i => railPower x (i + 1)).foldl (· + ·) 0) / 1000
  if 2500000 < w then 1800000 else w

/-- The limit L in mW: the profile's, or a lower LIMIT_W (R413). -/
def State.limitMw (s : State) : Nat :=
  let l := [1500, 950, 600].getD s.power.profile 1500
  1000 * (if s.power.limitW = 0 then l else min l s.power.limitW)

/-- Samples in a row above L that reach 80 % of the excursion allowance (R413, R415, R417). -/
def State.excursionRun (s : State) : Nat :=
  if ¬ s.power.peakAllowed then 1 else if s.power.profile = 0 then 80 else 16

/-- The profile's duty cap (R413). -/
def profileCap (p : Nat) : Nat := [64, 40, 16].getD p 64

/-- A power sample: above the peak of 1.2 × L, or at the end of the run, the clamp fires (R417). -/
def State.takePower (s : State) (w : Nat) : State :=
  let l := s.limitMw
  let n := if l < w then min 80 (s.power.above + 1) else 0
  let fire := decide (6 * l < 5 * w) || decide (0 < n ∧ s.excursionRun ≤ n)
  { s with power := { s.power with samples := w :: s.power.samples, above := n, clamp := s.power.clamp || fire, powerMw := w } }

/-- SENSOR_SAMPLE: the 100 µs round of temperatures, levels, currents and package power (R390, R417, R420, R421). -/
def execSensorSample (x : SensorInput) (s : State) : Host.Outcome State Fault Refusal :=
  .next (
    let bad := ((List.range 12).filter fun i => currentBad (i + 1) ((Kv.get (i + 1) x.currents).getD 0)).length
    let s := s.takeTemps x.temps
    let s : State := { s with power := { s.power with
      sramMv := (Kv.get 6 x.levels).getD s.power.sramMv, discarded := s.power.discarded.set 1 (s.power.discarded.getD 1 0 + bad) } }
    (s.takePower (packagePower x)).watchHeat)

/-! ### Board throttle (R422) -/

/-- BRD_THROT_ASSERT: a filtered low clamps every plate to 16/64 for as long as it lasts (R422). -/
def execBrdThrotAssert (s : State) : Host.Outcome State Fault Refusal := .next { s with power := { s.power with board := true } }

/-- BRD_THROT_RELEASE: the duty follows R416 from 16/64 at the next boundary (R422). -/
def execBrdThrotRelease (s : State) : Host.Outcome State Fault Refusal :=
  .next (if s.power.board then { s with power := { s.power with board := false, boardOver := true } } else s)

/-! ### Core voltage (R407) -/

/-- The level in 0.1 mV that a tile's monitors call for at a duty: free values (assumption 8). -/
def State.avsWant (s : State) (tile duty : Nat) : Nat × State :=
  (clampN (Config.avsWanted tile duty s.free) 5500 8000, { s with free := s.free + 1 })

/-- The highest level that the part may ask for: 0.80 V, and VDD_SRAM_0V75 plus 20 mV (R407). -/
def State.avsCeiling (s : State) : Nat := min 8000 (s.power.sramMv * 10 + 200)

/-- May the part write a tile's regulator (R407). -/
def State.avsRuns (s : State) (tile : Nat) : Bool :=
  decide (tile < 4) && decide (5 ≤ s.boot.stage) && !s.power.stopped && decide (tile ∉ s.power.avsFailed)

/-- AVS_STEP: one step of at most 10 mV towards what the duty in force, or a higher one that waits, calls for (R407). -/
def execAvsStep (tile : Nat) (s : State) : Host.Outcome State Fault Refusal :=
  .next (if s.avsRuns tile then
      let (w, s) := s.avsWant tile (max s.strk.duty s.power.sought)
      let goal := max 5500 (min w s.avsCeiling)
      let v := s.power.avs.getD tile 7000
      let v' := if v ≤ goal then min goal (v + 100) else max goal (v - 100)
      { s with power := { s.power with avs := s.power.avs.set tile v' } }
    else s)

/-- AVS_TIMEOUT: a regulator is declared failed, and the duty is capped at 32/64 until a cold reset (R407). -/
def execAvsTimeout (tile : Nat) (s : State) : Host.Outcome State Fault Refusal :=
  .next (if s.avsRuns tile then
      ({ s with power := { s.power with avsFailed := tile :: s.power.avsFailed } } : State).openReading (52 + tile) 6
    else s)

/-- The tiles whose regulators the part writes, with what each calls for at a duty. -/
def State.avsWants (s : State) (duty : Nat) : List (Nat × Nat) × State :=
  (List.range 4).foldl (fun (x : List (Nat × Nat) × State) t =>
    if x.2.avsRuns t then
      let (w, s) := x.2.avsWant t duty
      (x.1 ++ [(t, w)], s)
    else x) ([], s)

/-- The cap of R407: down while the ceiling holds a tile below what it needs, up again with 10 mV of room, 32 with a failed regulator. -/
def State.stepAvsCap (s : State) : State :=
  let (ws, s) := s.avsWants s.strk.duty
  let short := ws.any fun w => decide (s.avsCeiling < w.2)
  let room := ws.all fun w => decide (w.2 ≤ s.power.avs.getD w.1 7000) && decide (s.power.avs.getD w.1 7000 + 100 ≤ s.avsCeiling)
  let c := s.power.avsCap
  { s with power := { s.power with avsCap := if short then max 32 (c - 4) else if room then min 64 (c + 4) else c } }

/-! ### Profiles and duty (R413 to R416, R423) -/

/-- PROFILE_SET takes effect at the second boundary after its admission (R200, R414). -/
def State.checkProfileSet (p : Packet) : Check := do
  ensure (decide (p.at 64 1 ≤ 2)) (badField 64)
  zeroBytes p 65 79

/-- PROFILE_SET, through class MAINTENANCE (R392, R414). -/
def execProfileSet (p : Packet) (s : State) : Host.Outcome State Fault Refusal :=
  .next (s.forOp p 0x0C09 (s.runProof p clsMaintenance fun s c _ => do
    State.checkProfileSet p
    return ({ s with power := { s.power with changes := s.power.changes ++ [(c.admitted + 2, p.at 64 1)] } },
      Ending.ok (c.admitted + 2) 0)))

/-- A profile comes into force; the one before QUIET is remembered (R414, R415). -/
def State.setProfile (s : State) (p : Nat) : State :=
  { s with power := { s.power with profile := p, before := if p = 2 ∧ s.power.profile ≠ 2 then s.power.profile else s.power.before } }

/-- The profile that a wake match in QUIET names (R414, R415). -/
def State.wakeProfileOf (s : State) : Nat := if s.power.wakeProfile = 0xFF then s.power.before else s.power.wakeProfile

/-- The profile changes whose boundary has come, in order of their boundaries, later ones last (R414). -/
def State.applyProfiles (s : State) : State :=
  let due := (s.power.changes.filter fun e => decide (e.1 ≤ s.strk.now)).mergeSort fun a b => decide (a.1 ≤ b.1)
  let s : State := { s with power := { s.power with changes := s.power.changes.filter fun e => decide (s.strk.now < e.1) } }
  due.foldl (fun (s : State) e => s.setProfile e.2) s

/-- The control value of R416 over the samples of the stroke just ended; without a sample it stays (assumption 77). -/
def State.stepControl (s : State) : State :=
  let d := if s.power.boardOver then min 16 s.power.control else s.power.control
  let l := s.limitMw
  let n := s.power.samples.length
  let sum := s.power.samples.foldl (· + ·) 0
  let (d', low) : Nat × Nat :=
    if n = 0 then (d, s.power.low)
    else if s.power.clamp then (max 4 (d * l / max 1 (s.power.samples.foldl max 0)), 0)
    else if l * n < sum then (max 4 (d * l * n / sum), 0)
    else if 100 * sum < 95 * l * n then (if s.power.low = 7 then (min 64 (d + 1), 0) else (d, s.power.low + 1))
    else (d, 0)
  { s with power := { s.power with control := d', low := low, clamp := false, boardOver := false, samples := [] } }

/-- The thermal cap (R423). -/
def State.stepThermal (s : State) : State :=
  let want := (thermalItems.map fun i => match s.itemTemp i with
    | some t =>
      let ts := (thermalLimits i).1
      if t ≤ ts then 64 else max 4 (64 - 6 * ((t - ts).toNat / 16))
    | none => 64).foldl min 64
  { s with power := { s.power with thermal := if s.power.thermal < want then min want (s.power.thermal + 2) else want } }

/-- The smallest of the profile's cap, the control value, the thermal cap, the cap of R407, and 16/64 under BRD_THROT_N (R414, R422). -/
def State.dutyCalled (s : State) : Nat :=
  let p := s.power
  let d := min (min (profileCap p.profile) p.control) (min p.thermal (if p.avsFailed.isEmpty then p.avsCap else 32))
  if p.board then min 16 d else d

/-- Latch the duty that is called for; a rise waits until every tile's target has reached what it needs (R144, R407). -/
def State.latchDuty (s : State) : State :=
  let d := s.dutyCalled
  let (ws, s) := s.avsWants d
  let reached := ws.all fun w => decide (min w.2 s.avsCeiling ≤ s.power.avs.getD w.1 7000)
  let d' := if d ≤ s.strk.duty ∨ reached then d else s.strk.duty
  let old := s.strk.duty
  let s : State := { s with strk := { s.strk with duty := d' }, power := { s.power with sought := d } }
  if d' = old then s else s.logEvent 0x0901 11 0 noContext 0 (d' % 64)

/-- Did the stroke just ended run below its profile's cap (R416). -/
def State.wasThrottled (s : State) : Bool :=
  let cap := profileCap s.power.profile
  decide (s.strk.duty < cap) || (decide (16 < cap) && (s.power.clamp || s.power.board))

/-- Action 4, second part: profile, control value, caps, duty, and the plates to be gated (R140, R413, R414, R416). -/
def State.boundaryDuty (s : State) : State :=
  let n := if s.wasThrottled then (s.power.counts.getD 0 0 + 1) % 2 ^ 64 else s.power.counts.getD 0 0
  let s : State := { s with power := { s.power with counts := s.power.counts.set 0 n } }
  let s := (((s.applyProfiles).stepControl).stepThermal).stepAvsCap.latchDuty
  { s with power := { s.power with
    busy := []
    gated := if s.power.profile = 0 then [] else (s.plates.map (·.1)).filter fun p => decide (p ∉ s.power.busy) } }

/-! ### Rails (R405, R406) -/

/-- RAIL_FAULT: a rail of steps 2 to 6 leaves its window; a trip decides over it (R405, R424). A rail that the part has asked to be off is no
fault (R406). -/
def execRailFault (rail : Nat) (s : State) : Host.Outcome State Fault Refusal :=
  .next (if rail = 0 ∨ 12 < rail ∨ s.side.porst then s
    else if s.power.tripped then s.openReading (32 + rail) 0
    else if s.power.rail ≠ .normal ∨ s.power.waking ∨ ¬ (if rail ≤ 6 then s.power.reqIo else s.power.reqCore) then s
    else
      let s := (s.holdCore).openReading (32 + rail) 0
      { s with power := { s.power with rail := .down, tries := 0, reqCore := false, reqIo := false }, boot := { s.boot with retrain := true } })

/-- RAIL_RELEASE: every rail has read below 10 % for 10 ms, or 1 s has passed: the outputs are released (R405). -/
def execRailRelease (s : State) : Host.Outcome State Fault Refusal :=
  .next (if s.power.rail = .down ∧ ¬ s.power.tripped then
      { s with power := { s.power with rail := .rising, reqCore := true, reqIo := true } }
    else s)

/-- RAIL_RECOVERY_TIMEOUT: the rails are not back within 1 s: the cycle repeats, three times at most (R405). Which rail the entry names is a
free value (assumption 78). -/
def execRailRecoveryTimeout (s : State) : Host.Outcome State Fault Refusal :=
  .next (if s.power.rail = .rising ∧ ¬ s.power.tripped then
      let (v, s) := s.draw 16
      let s := s.openReading (33 + v % 12) 0
      { s with power := { s.power with
        reqCore := false, reqIo := false, tries := min 3 (s.power.tries + 1)
        rail := if 3 ≤ s.power.tries then .dead else .down } }
    else s)

/-- WAKE_RAIL_TIMEOUT: the rails are not in their windows within 1 s of a wake: the spare stays in STANDBY (R406). -/
def execWakeRailTimeout (s : State) : Host.Outcome State Fault Refusal :=
  .next (if s.power.waking then
      let (v, s) := s.draw 16
      let s := s.openReading (33 + v % 12) 0
      { s with power := { s.power with waking := false, reqCore := false, reqIo := false } }
    else s)

/-- FABCLK_LOST: every engine stops; the stroke timer runs on from AUXCLK_25, and ALIGNED is lost (R409). -/
def execFabclkLost (s : State) : Host.Outcome State Fault Refusal :=
  .next (if s.power.fabLost then s
    else
      let s := s.holdCore
      ({ s with power := { s.power with fabLost := true } } : State).loseAlignment)

end Sys2Proof.Machine
end

