-- ==== Sys2Proof/Machine/Telemetry.lean ====
section
/-! DEFINITION. What the part shows of itself: the global status register (R441), the trouble log's copies (R398), the telemetry sets (R400,
R401), LOG_READ, TELEMETRY_READ, the restart of the service partition (R391), and ROUTEMAP_LOAD (R265). -/

namespace Sys2Proof.Machine

/-! ### Global status (R441) -/

/-- GLOBAL_STATUS (R441). -/
def State.globalStatus (s : State) : Nat :=
  let stage := if s.boot.recovery then 0xE else if s.boot.halted then 0xF else s.boot.stage
  stage + (s.boot.causes.min?.getD 0) * 2 ^ 4 + (s.boot.failedStack.getD 0xF) * 2 ^ 8 + b2n s.host.coherent * 2 ^ 12 +
    s.host.width * 2 ^ 13 + s.strk.align.code * 2 ^ 16 + b2n s.host.alignLost * 2 ^ 18 + b2n s.proof.overload * 2 ^ 19 +
    b2n s.host.logError * 2 ^ 20 + b2n (decide (s.strk.duty < profileCap s.power.profile)) * 2 ^ 21 + s.power.profile * 2 ^ 22 +
    s.strk.duty * 2 ^ 24

/-! ### The trouble log's copies (R398) -/

/-- Entries copied from a slot onward, wrapping. -/
def TroubleLog.copy (l : TroubleLog) (first count : Nat) : List Byte := (List.range count).flatMap fun i => l.read (first + i)

/-- The slot of the newest entry; 0 while none is written (assumption 82). -/
def TroubleLog.newest (l : TroubleLog) : Nat := if l.slots.isEmpty then 0 else (l.nextSeq + 2 ^ 32 - 2) % 8192

/-- Check LOG_READ (R200). -/
def State.checkLogRead (s : State) (n : Nat) (p : Packet) : Check := do
  let d ← s.needDesc n (p.at 64 4) 64 true
  ensure (decide (p.at 68 2 < 8192)) (badField 68)
  ensure (decide (1 ≤ p.at 70 2) && decide (p.at 70 2 ≤ 8192)) (badField 70)
  ensure (decide (32 * p.at 70 2 ≤ d.extent)) (badField 64)
  zeroBytes p 72 79

/-- LOG_READ, through class MAINTENANCE (R392, R398). -/
def execLogRead (p : Packet) (s : State) : Host.Outcome State Fault Refusal :=
  .next (s.forOp p 0x0C07 (s.runMgmt p clsMaintenance 10 (fun s c _ => s.checkLogRead (c.view s).ctx p) (fun s c => [s.ioOf c 64 true]) fun s c _ =>
    .ok (s.mgmtWrite c 64 (s.log.copy (p.at 68 2) (p.at 70 2)), some (Ending.ok (p.at 70 2) s.log.newest))))

/-! ### Telemetry (R400, R401) -/

/-- A signed temperature in 1/16 °C; 0 for an item not yet read (assumption 75). -/
def State.tempField (s : State) (i : Nat) : List Byte := leBytes 2 (twos 16 ((s.itemTemp i).getD 0))

/-- The layouts of set 0 to 4 after the header. -/
def State.setBody (s : State) (k : Nat) : List Byte :=
  let cnt (l : List Nat) (i : Nat) : Nat := l.getD i 0
  match k with
  | 0 => leBytes 1 s.power.profile ++ leBytes 1 s.strk.duty ++ zeros 2 ++ leBytes 4 s.power.powerMw ++ thermalItems.flatMap s.tempField ++ zeros 6 ++
      leBytes 8 (cnt s.power.counts 0) ++ leBytes 8 (cnt s.power.counts 1) ++ leBytes 8 (cnt s.power.counts 2) ++ zeros 8
  | 1 => (List.range 16).flatMap fun n => match Kv.get n s.plates with
      | some x => leBytes 8 (cnt x.counts 0) ++ leBytes 8 (cnt x.counts 1) ++ leBytes 4 (cnt x.counts 2) ++ leBytes 4 (cnt x.counts 3)
      | none => zeros 24
  | 2 => (List.range 24).flatMap fun i =>
      if 12 ≤ i ∧ ¬ bitOf s.ddrChannels (i - 12) then List.replicate 8 0xFF
      else leBytes 4 (cnt s.eccCounts (2 * i)) ++ leBytes 4 (cnt s.eccCounts (2 * i + 1))
  | 3 => (List.range 8).flatMap fun p => match s.port p with
      | some q =>
        if q.mode = 0 then zeros 48
        else leBytes 8 (cnt q.counts 0) ++ leBytes 8 (cnt q.counts 1) ++ leBytes 4 (cnt q.counts 2) ++ leBytes 4 (cnt q.counts 3) ++
          leBytes 8 (cnt q.counts 4) ++ leBytes 4 (cnt q.counts 5) ++ leBytes 4 (cnt q.counts 6) ++ leBytes 8 (cnt q.counts 7)
      | none => zeros 48
  | _ => (List.range 5).flatMap (fun c => leBytes 1 ((s.holders c).length + s.innerHolders c)) ++ leBytes 1 (b2n s.proof.overload) ++ zeros 2 ++
      leBytes 8 s.proof.refused ++ leBytes 8 s.log.droppedAll ++ leBytes 8 s.proof.restarts ++ zeros 16

/-- Set 5: the counts of one context. -/
def State.contextSet (s : State) (n : Nat) : List Byte :=
  let c := ((Kv.get n s.ctxs).map (·.counts)).getD []
  leBytes 8 (c.getD 0 0) ++ leBytes 8 (c.getD 1 0) ++ leBytes 4 (c.getD 2 0) ++ leBytes 4 (c.getD 3 0) ++ leBytes 8 (c.getD 4 0) ++
    leBytes 8 (c.getD 5 0) ++ zeros 8

/-- A whole set: the 16-byte header, then its layout (R400). -/
def State.telemetry (s : State) (k n : Nat) : List Byte :=
  let body := if k = 5 then s.contextSet n else s.setBody k
  leBytes 1 k ++ [0x01] ++ leBytes 2 (16 + body.length) ++ leBytes 6 s.strk.now ++ zeros 6 ++ body

/-- Bytes of a set. -/
def setBytes (k : Nat) : Nat := [96, 400, 208, 400, 64, 64].getD k 0

/-- Check TELEMETRY_READ: without ADMIN only set 5 (R200, R400). -/
def State.checkTelemetry (s : State) (n : Nat) (c : Ctx) (p : Packet) : Check := do
  let d ← s.needDesc n (p.at 64 4) 64 true
  ensure (decide (p.at 68 1 ≤ 5)) (badField 68)
  ensure (c.admin || decide (p.at 68 1 = 5)) (.fail .accessDenied 68)
  ensure (decide (setBytes (p.at 68 1) ≤ d.extent)) (badField 64)
  zeroBytes p 69 79

/-- TELEMETRY_READ, through class MAINTENANCE (R392, R400). -/
def execTelemetryRead (p : Packet) (s : State) : Host.Outcome State Fault Refusal :=
  .next (s.forOp p 0x0C08 (s.runMgmt p clsMaintenance 10 (fun s c x => s.checkTelemetry (c.view s).ctx x p) (fun s c => [s.ioOf c 64 true]) fun s c _ =>
    let bs := s.telemetry (p.at 68 1) (c.view s).ctx
    .ok (s.mgmtWrite c 64 bs, some (Ending.ok bs.length 0))))

/-! ### The service partition's restart (R391) -/

/-- A mailbox response: OP, LENGTH, TAG, status, detail, results and body (R449). -/
def mboxResponse (req : List Byte) (e : Ending) (body : List Byte) : List Byte :=
  leBytes 2 (fieldAt req 0 2) ++ leBytes 2 body.length ++ leBytes 4 (fieldAt req 4 4) ++ [BitVec.ofNat 8 e.status.code] ++ [0] ++
    leBytes 2 e.detail ++ leBytes 4 e.r0 ++ leBytes 4 e.r1 ++ zeros 12 ++ body

/-- The response is written whole, BUSY clears, DONE is set, and MBOX_VEC is raised; the sideband fetches its own (R436, R449). -/
def State.answerMbox (s : State) (r : MboxRequest) (e : Ending) (body : List Byte) : State :=
  let out := mboxResponse r.bytes e body
  let s := { s with mbox := { s.mbox with busy := none } }
  if r.sideband then { s with mbox := { s.mbox with sideband := out } }.proofLoad
  else
    let s := ({ s with mbox := { s.mbox with response := out, done := true } } : State).proofLoad
    if s.host.mboxEn then s.raise s.host.mboxVec else s

/-- SERVICE_RESTART: every admitted or queued service request ends with INTERNAL, and a flash write in progress leaves its region
invalid (R391). -/
def execServiceRestart (s : State) : Host.Outcome State Fault Refusal :=
  .next (
    let mine (c : Cmd) : Bool := c.slot.isSome && (decide (c.phase = .running) || decide (c.phase = .admitted))
    let n := (s.cmds.filter mine).length + b2n s.mbox.busy.isSome
    let s : State := { s with
      cmds := s.cmds.map fun c => if mine c then { c with phase := .finished { status := .internal }, work := .none } else c
      boot := { s.boot with flashOp := none }
      proof := { s.proof with restarts := (s.proof.restarts + 1) % 2 ^ 64 } }
    let s := match s.mbox.busy with
      | some r => s.answerMbox r { status := .internal } []
      | none => s
    s.logEvent 0x0003 11 0 noContext 0 n)

/-! ### ROUTEMAP_LOAD (R201, R265) -/

/-- Is a bank active, pending, or still used by an open bucket (R201, R266). -/
def State.bankInUse (s : State) (b : Nat) : Bool :=
  decide (s.fabric.active = some b) || s.fabric.switch.any (fun w => decide (w.1 = b)) || s.buckets.any fun x => decide (x.bank = b)

/-- Check ROUTEMAP_LOAD but for the contents of the map and the schedule. -/
def State.checkRoutemapLoad (s : State) (n : Nat) (p : Packet) : Check := do
  ensure (decide (p.at 64 1 ≤ 3)) (badField 64)
  ensure (!s.bankInUse (p.at 64 1)) (conflict scBankActive)
  zeroBytes p 65 67
  let _ ← s.needDesc n (p.at 68 4) 68 false
  let d ← s.needDesc n (p.at 72 4) 72 false
  ensure (decide (8 ≤ d.extent) && decide (d.extent ≤ 512) && decide (d.extent % 8 = 0)) (badField 72)
  zeroBytes p 76 79

/-- Bytes of a map from its own header. -/
def mapBytes (m : List Byte) : Nat := 192 + 32 * fieldAt m 8 2 + fieldAt m 12 4

/-- ROUTEMAP_LOAD: the map and the schedule are checked, and the bank is loaded (R150, R265). A refused map enters the trouble log with the
field's offset (assumption 23). -/
def execRoutemapLoad (p : Packet) (s : State) : Host.Outcome State Fault Refusal :=
  .next (s.forOp p 0x0D02 (match (s.startable p).orElse (fun _ => s.resumable p) with
    | none => s
    | some c =>
      match s.checkRoutemapLoad (c.view s).ctx p with
      | .error e => s.finish c e
      | .ok _ =>
        match s.mgmtTouch c 7 [s.ioOf c 68 false, s.ioOf c 72 false] with
        | .error (s, some e) => s.finish c e
        | .error (s, none) => s
        | .ok s =>
          let v := c.view s
          let bytes (off : Nat) : List Byte := ((s.desc v.ctx (p.at off 4)).map (s.descBytes v)).getD []
          let m := bytes 68
          let sch := bytes 72
          match s.checkMap m m.length with
          | some o => (s.logEvent 0x0501 13 0 v.ctx 0 (2 + o % 256 * 256)).finish c (badField 68)
          | none => match checkSchedule sch s.strk.period with
            | some o => s.finish c (badField o)
            | none => ({ s with fabric := { s.fabric with
                banks := Kv.set (p.at 64 1) { map := m.take (mapBytes m), schedule := sch } s.fabric.banks } } : State).finish c (Ending.ok 0 0)))

end Sys2Proof.Machine
end

