-- ==== Sys2Proof/Machine/Bus.lean ====
section
/-! DEFINITION. The service bus (20_service_bus.md): discovery and PLCA, sending, receiving, relaying, TAKEOVER, failure rates, debug requests,
log export and wake patterns. -/

namespace Sys2Proof.Machine

/-! ### Ports (R343 to R347) -/

/-- A service-bus port. -/
def State.sb (s : State) (p : Nat) : Option SbPort := Kv.get p s.bus.ports

/-- Change a service-bus port. -/
def State.updSb (s : State) (p : Nat) (f : SbPort → SbPort) : State := { s with bus := { s.bus with ports := Kv.upd p f s.bus.ports } }

/-- Add one to a port's count i. -/
def State.sbCount (s : State) (p i : Nat) : State := s.updSb p fun q => { q with counts := q.counts.set i (q.counts.getD i 0 + 1) }

/-- A SERVICE_BUS entry (R399). -/
def State.sbEvent (s : State) (p e : Nat) : State := s.logEvent 0x0801 14 p noContext 0 e

/-- May a port send: not stopped, and not without an ID (R345). -/
def SbPort.sends (q : SbPort) : Bool := decide (q.phase ≠ .off) && !q.mute

/-- A frame with its FCS. -/
def withFcs (bs : List Byte) : List Byte := bs ++ leBytes 4 (crc32 bs)

/-- Try to send the frame at the head of a port's queue: under PLCA it goes; under CSMA/CD it may collide, which is a free value, and then waits
for its back-off, itself a free value within R347's range (assumption 83). -/
def State.sbTry (s : State) (p : Nat) : Nat → State
  | 0 => s
  | n + 1 =>
    match s.sb p with
    | none => s
    | some q =>
      match q.queue with
      | [] => s
      | f :: t =>
        let gone (q : SbPort) : SbPort := { q with queue := t, sent := withFcs f :: q.sent, attempts := 0, backoff := 0 }
        if ¬ q.sends then s
        else if q.phase = .plca then (s.updSb p gone).sbTry p n
        else
          let (hit, s) := s.draw 1
          if hit = 0 then (s.updSb p gone).sbTry p n
          else
            let k := q.attempts + 1
            if 16 ≤ k then
              ((s.sbCount p 3).updSb p fun q => { q with queue := t, attempts := 0, backoff := 0 }).sbTry p n
            else
              let (r, s) := s.draw 10
              s.updSb p fun q => { q with attempts := k, backoff := r % 2 ^ min k 10 }

/-- Queue a frame at a port; it goes at once unless a frame before it waits for its back-off. -/
def State.sbPut (s : State) (p : Nat) (f : List Byte) : State :=
  match s.sb p with
  | none => s
  | some q =>
    if ¬ q.sends then s
    else
      let s := s.updSb p fun q => { q with queue := q.queue ++ [f] }
      if q.attempts = 0 then s.sbTry p (q.queue.length + 1) else s

/-- COLLISION_BACKOFF: a back-off delay expires: the frame is sent again, or dropped after 16 attempts (R347). -/
def execCollisionBackoff (port : Nat) (s : State) : Host.Outcome State Fault Refusal :=
  .next (match s.sb port with
    | some q => if q.attempts = 0 then s else s.sbTry port q.queue.length
    | none => s)

/-! ### Frames (R348, R349, R352) -/

/-- Types that are relayed (R349). -/
def relayedType (t : Nat) : Bool := decide (3 ≤ t) && decide (t ≤ 8)
/-- Types whose TAG is required when SB_KEY is set; 6 and 7 always (R349). -/
def taggedType (t : Nat) : Bool := decide (t = 3) || decide (t = 4) || decide (6 ≤ t ∧ t ≤ 8)

/-- The TAG over a header, with RELAYED and HOPS_LEFT as zero, and a body (R352). -/
def frameTag (key hd body : List Byte) : List Byte :=
  (hmacSha256 key (hd.take 2 ++ [BitVec.ofNat 8 (fieldAt hd 2 1 / 128 * 128)] ++ (hd.drop 3).take 29 ++ body)).take 16

/-- The body lengths that a type allows (R349, R353, R355, R356). -/
def bodyOk (t : Nat) (body : List Byte) : Bool :=
  let n := body.length
  match t with
  | 1 | 4 | 5 => decide (n = 16)
  | 2 | 6 => decide (n = 8)
  | 3 => decide (fieldAt body 8 2 ≤ 8) && decide (n = 16 + 16 * fieldAt body 8 2)
  | 7 => decide (n % 8 = 0) && decide (8 ≤ n) && decide (n ≤ 488)
  | 8 => decide (1 ≤ fieldAt body 0 2) && decide (fieldAt body 0 2 ≤ 15) && decide (n = 8 + 32 * fieldAt body 0 2)
  | _ => false

/-- Zeros up to the shortest Ethernet frame, FCS left out (R359; DEDUCED, assumption 79). -/
def padFrame (bs : List Byte) : List Byte := bs ++ zeros (60 - bs.length)

/-- The state of the part as DISCOVER and HELLO give it (R349). -/
def State.sbState (s : State) : Nat :=
  if s.mgmtOnly ∨ s.boot.recovery then 4
  else match s.spare.state with
    | .active => 0 | .standby => 1 | .awake => 2 | .taken => 3

/-- The next FRAME_SEQ; when the counter wraps, the boot count is raised (R348, R352, R378). -/
def State.nextFrameSeq (s : State) : Nat × State :=
  let seq := s.storeNat 1 % 4096 * 2 ^ 20 + s.bus.counter
  let c := s.bus.counter + 1
  let s' : State := { s with bus := { s.bus with counter := c % 2 ^ 20 } }
  (seq, if c = 2 ^ 20 then s'.ownStore 1 (leBytes 4 (s.storeNat 1 + 1)) else s')

/-- A frame of the part's own, without padding and FCS. -/
def State.sbFrame (s : State) (p dmac t seq target : Nat) (body : List Byte) : List Byte :=
  let auth := taggedType t && s.bus.key.isSome
  let hd : List Byte := [0x10] ++ leBytes 1 t ++ leBytes 1 (b2n auth * 128 + s.bus.hops) ++ [0] ++ leBytes 2 body.length ++ leBytes 2 s.fabric.node ++
    leBytes 8 s.boot.serial ++ leBytes 8 target ++ leBytes 4 seq ++ zeros 4
  beBytes 6 dmac ++ beBytes 6 (((s.sb p).map (·.mac)).getD 0) ++ [0x88, 0xB5] ++ hd ++ body ++
    (if auth then frameTag (s.bus.key.getD []) hd body else [])

/-- The broadcast address. -/
def broadcast : Nat := 0xFFFF_FFFF_FFFF

/-- Send one service frame on some ports under one FRAME_SEQ; none with AUTH before the boot count is written (R348, R378). -/
def State.sendService (s : State) (ports : List Nat) (dmac t target : Nat) (body : List Byte) : State :=
  if taggedType t ∧ s.bus.key.isSome ∧ ¬ s.boot.counted then s
  else
    let (seq, s) := s.nextFrameSeq
    ports.foldl (fun (s : State) p => s.sbPut p (padFrame (s.sbFrame p dmac t seq target body))) s

/-! ### Discovery and PLCA (R345, R347) -/

/-- A port begins in its mode: AUTO runs discovery, CSMA_ONLY does not, DISABLED is off (R344, R345). -/
def SbPort.begin (q : SbPort) : SbPort :=
  { q with
    phase := if q.mode = 0 then .off else if q.mode = 1 then .discovery else .csma
    heard := [], id := none, count := 0, beacon := false, mute := false, queue := [], attempts := 0, backoff := 0 }

/-- DISCOVER_SEND: on its discovery timer an AUTO port that is in CSMA/CD sends DISCOVER (R345, R386). -/
def execDiscoverSend (port : Nat) (s : State) : Host.Outcome State Fault Refusal :=
  .next (match s.sb port with
    | some q =>
      if q.mode = 1 ∧ (q.phase = .discovery ∨ q.phase = .csma) then
        s.sendService [port] broadcast 1 0 (leBytes 1 q.wanted ++ leBytes 1 s.sbState ++ leBytes 1 port ++ [0] ++
          leBytes 4 s.boot.version ++ zeros 8)
      else s
    | none => s)

/-- Hear a DISCOVER: serial number and wanted ID; a change ends the waiting for a clash to be mended (R345). -/
def SbPort.hear (q : SbPort) (serial wanted : Nat) : SbPort :=
  let known := Kv.get serial q.heard
  let q' := { q with heard := Kv.set serial wanted q.heard }
  if q.phase = .discovery then q'
  else if q.mode = 1 ∧ q.phase = .csma ∧ known ≠ some wanted then { q' with phase := .discovery }
  else q

/-- IDs given at the window's close: configured ones, then the automatic ones in ascending serial number, lowest free ID first (R345). -/
def assignIds (parts : List (Nat × Nat)) (reserved : Nat) : List (Nat × Nat) :=
  let fixed := parts.filter fun e => decide (e.2 ≠ 0xFF)
  let autos := (parts.filter fun e => decide (e.2 = 0xFF)).mergeSort fun a b => decide (a.1 ≤ b.1)
  let free := (List.range 16).filter fun i => !bitOf reserved i && !(fixed.any fun e => decide (e.2 = i))
  fixed ++ (autos.zip free).map fun e => (e.1.1, e.2)

/-- DISCOVERY_WINDOW_CLOSE: IDs are assigned; a clash, no ID, or no holder of ID 0 keeps the port in CSMA/CD (R345). -/
def execDiscoveryWindowClose (port : Nat) (s : State) : Host.Outcome State Fault Refusal :=
  .next (match s.sb port with
    | none => s
    | some q =>
      if q.phase ≠ .discovery ∨ s.boot.recovery then s
      else
        let me := s.boot.serial
        let parts := Kv.set me q.wanted q.heard
        let ids := assignIds parts q.reserved
        let zeroHeld := bitOf q.reserved 0 || ids.any fun e => decide (e.2 = 0)
        let top := (((List.range 16).filter fun i => bitOf q.reserved i || ids.any fun e => decide (e.2 = i)).max?).getD 0
        if q.wanted ≠ 0xFF ∧ (q.heard.any fun e => decide (e.1 ≠ me ∧ e.2 = q.wanted)) then
          (s.updSb port fun q => { q with phase := .csma }).sbEvent port 2
        else if ¬ zeroHeld then (s.updSb port fun q => { q with heard := [] }).sbEvent port 5
        else
          let n := if q.nodeCount = 0 then top + 1 else q.nodeCount
          match Kv.get me ids with
          | none => (s.updSb port fun q => { q with phase := .wait, id := none, count := n, beacon := false, mute := true }).sbEvent port 3
          | some i =>
            let lead := decide (i = 0)
            let s := s.updSb port fun q => { q with phase := if lead then .plca else .wait, id := some i, count := n, beacon := lead, attempts := 0, backoff := 0 }
            if lead then (s.sbEvent port 0).sbTry port q.queue.length else s)

/-- PLCA_BEACON_HEARD: a port that waits for the beacon follows it (R345). -/
def execPlcaBeaconHeard (port : Nat) (s : State) : Host.Outcome State Fault Refusal :=
  .next (match s.sb port with
    | some q =>
      if q.phase = .wait then
        ((s.updSb port fun q => { q with phase := .plca, attempts := 0, backoff := 0 }).sbEvent port 0).sbTry port q.queue.length
      else s
    | none => s)

/-- PLCA_FALLBACK: back to CSMA/CD and discovery; the beacon role is dropped, queued frames stay (R347). -/
def execPlcaFallback (port : Nat) (s : State) : Host.Outcome State Fault Refusal :=
  .next (match s.sb port with
    | some q =>
      if q.phase = .plca then
        (s.updSb port fun q => { q with phase := .discovery, heard := [], id := none, beacon := false, mute := false }).sbEvent port 1
      else s
    | none => s)

/-- HELLO_SEND: every second in PLCA (R349). -/
def execHelloSend (port : Nat) (s : State) : Host.Outcome State Fault Refusal :=
  .next (match s.sb port with
    | some q =>
      if q.phase = .plca ∧ ¬ q.mute then
        s.sendService [port] broadcast 2 0 (leBytes 1 (q.id.getD 0) ++ leBytes 1 s.sbState ++ leBytes 1 s.strk.align.code ++ zeros 5)
      else s
    | none => s)

/-- AUXCLK_LOST: the internal oscillator takes over, and both service-bus ports stop (R409). -/
def execAuxclkLost (s : State) : Host.Outcome State Fault Refusal :=
  .next (if s.power.auxLost then s
    else
      let stop (q : SbPort) : SbPort := { q.begin with phase := .off }
      ({ s with
        power := { s.power with auxLost := true }
        bus := { s.bus with ports := s.bus.ports.map fun e => (e.1, stop e.2) } } : State).openReading 50 5)

/-- AUXCLK_RESTORED: the clock is taken back, and the ports begin again (R409). -/
def execAuxclkRestored (s : State) : Host.Outcome State Fault Refusal :=
  .next (if s.power.auxLost then
      { s with
        power := { s.power with auxLost := false }
        bus := { s.bus with ports := s.bus.ports.map fun e => (e.1, e.2.begin) } }
    else s)

/-! ### TAKEOVER (R339, R349) -/

/-- Both ports. -/
def bothPorts : List Nat := [0, 1]

/-- TAKEOVER_REPEAT: the second and third sending, 10 ms apart (R349). -/
def execTakeoverRepeat (s : State) : Host.Outcome State Fault Refusal :=
  .next (if s.bus.takeover.1 = 0 then s
    else ({ s with bus := { s.bus with takeover := (s.bus.takeover.1 - 1, s.bus.takeover.2) } } : State).sendService
      bothPorts broadcast 4 0 s.bus.takeover.2)

/-- A management-only cause holds, and is written to the trouble log (R18, R385). -/
def State.addCause (s : State) (cause index : Nat) : State :=
  ({ s with mgmtOnly := true, boot := { s.boot with causes := if cause ∈ s.boot.causes then s.boot.causes else cause :: s.boot.causes } } :
    State).logEvent 0x0103 11 index noContext 0 cause

/-- The part fences itself: every fabric port disabled, FENCE written, the cause FENCED (R339, R353, R385). -/
def State.fence (s : State) (stroke : Nat) : State :=
  let off (q : Port) : Port := { q with mode := 0, up := false, slot := none }
  let s : State := { s with fabric := { s.fabric with ports := s.fabric.ports.map fun e => (e.1, off e.2) } }
  ((s.ownStore 5 (leBytes 8 stroke)).addCause 2 0).failEvent s.fabric.node 2

/-- A received TAKEOVER: queue pairs to that node enter ERROR; a part that holds the node by an earlier identity fences itself (R339). -/
def State.takeTakeover (s : State) (body : List Byte) : State :=
  let node := fieldAt body 0 2
  let stroke := fieldAt body 2 6
  let mine := (s.stylus.qps.filter fun e => decide (e.2.state = .connected) && decide (e.2.peerNode = node)).map (·.1)
  let s := mine.foldl (fun (s : State) k => s.qpError k Status.peerLost.code 0) s
  let earlier : Bool := match s.spare.identity with
    | some t => decide (t < stroke)
    | none => true
  if s.fabric.node = node ∧ earlier ∧ 2 ∉ s.boot.causes then s.fence stroke else s

/-! ### Failure rates (R353, R354) -/

/-- Keep a serial number's newest exposure; the oldest is dropped from a full table, with an entry (R354). -/
def State.keepExposure (s : State) (port serial v : Nat) : State :=
  let rest := s.bus.exposures.filter fun e => e.1 ≠ serial
  let full := decide (256 ≤ rest.length)
  let s : State := { s with bus := { s.bus with exposures := (serial, v) :: (if full then rest.dropLast else rest) } }
  if full then s.sbEvent port 4 else s

/-- A received FAILURE_RATE (R354). -/
def State.takeRates (s : State) (port serial : Nat) (body : List Byte) : State :=
  let evs := (List.range (fieldAt body 8 2)).map fun i =>
    ({ node := fieldAt body (16 + 16 * i) 2, stroke := fieldAt body (18 + 16 * i) 6, cause := fieldAt body (24 + 16 * i) 1 } : FailEvent)
  evs.foldl (fun (s : State) e => s.keepEvent e) (s.keepExposure port serial (fieldAt body 0 8))

/-- Events older than 90 days of strokes at the current period are dropped (R354). -/
def State.ageEvents (s : State) : State :=
  let span := 90 * 86400 * 10 ^ 6 / max 1 s.strk.period
  { s with bus := { s.bus with events := s.bus.events.filter fun e => decide (s.strk.now ≤ e.stroke + span) } }

/-- FAILURE_RATE_SEND: the exposure, which the part counts in seconds of its own, is a free value (R353; assumption 84); the last 8 events. -/
def execFailureRateSend (s : State) : Host.Outcome State Fault Refusal :=
  .next (
    let (v, s) := s.draw 64
    let rec8 (e : FailEvent) : List Byte := leBytes 2 e.node ++ leBytes 6 e.stroke ++ leBytes 1 e.cause ++ zeros 7
    let body := leBytes 8 v ++ leBytes 2 s.bus.own.length ++ zeros 6 ++ s.bus.own.flatMap rec8
    (s.keepExposure 0 s.boot.serial v).sendService bothPorts broadcast 3 0 body)

/-! ### Debug and log export (R355, R356) -/

/-- The answer to a request: status, COUNT and data (R355). -/
def State.debugAnswer (s : State) (body : List Byte) : Status × Nat × List Byte :=
  let op := fieldAt body 0 1
  let set := fieldAt body 1 1
  let first := fieldAt body 2 2
  let count := fieldAt body 4 2
  let ok := decide (op ≤ 3) && decide (fieldAt body 6 2 = 0) &&
    (if op = 1 then decide (first < 8192) && decide (1 ≤ count) && decide (count ≤ 15) else decide (first = 0) && decide (count = 0)) &&
    (if op = 2 then decide (set ≤ 5) else decide (set = 0))
  if ¬ bitOf s.bus.flags 2 then (.accessDenied, 0, [])
  else if ¬ ok then (.badField, 0, [])
  else match op with
    | 0 => (.done, 0, leBytes 8 s.globalStatus)
    | 1 => (.done, count, s.log.copy first count)
    | 2 => (.done, 0, s.telemetry set 0)
    | _ => (.done, 0, [])

/-- A received DEBUG_REQUEST: the entry, and the answer to the requester; BUSY_RETRY when MAINTENANCE has no slot (R355, R393). -/
def State.takeDebug (s : State) (port serial : Nat) (body : List Byte) : State :=
  let s := s.logEvent 0x0802 14 port noContext 0 serial
  let free := s.classAdmits clsMaintenance 4096
  let s : State := if free then s else { s with proof := { s.proof with
    refusals := s.proof.refusals.set clsMaintenance (s.proof.refusals.getD clsMaintenance 0 + 1), refused := (s.proof.refused + 1) % 2 ^ 64 } }
  let (st, n, data) : Status × Nat × List Byte := if free then s.debugAnswer body else (.busyRetry, 0, [])
  let s := s.sendService [port] broadcast 7 serial (leBytes 1 (fieldAt body 0 1) ++ [BitVec.ofNat 8 st.code] ++ leBytes 2 n ++ zeros 4 ++ data)
  if st = .done ∧ fieldAt body 0 1 = 3 then { s with boot := { s.boot with warmDue := true } } else s

/-- LOG_EXPORT_SEND: up to 15 entries not yet sent to the collector; what the ring no longer holds is skipped (R356). -/
def execLogExportSend (s : State) : Host.Outcome State Fault Refusal :=
  .next (
    let behind := (s.log.nextSeq + 2 ^ 32 - s.bus.cursor) % 2 ^ 32
    if ¬ bitOf s.bus.flags 0 ∨ behind = 0 then s
    else
      let skipped := behind - min behind 8192
      let n := min 15 (behind - skipped)
      let first := (s.bus.cursor + skipped) % 2 ^ 32
      let slot := (first + 2 ^ 32 - 1) % 2 ^ 32 % 8192
      let s' : State := { s with bus := { s.bus with cursor := (first + n) % 2 ^ 32 } }
      s'.sendService bothPorts broadcast 8 s.bus.exportTo
        (leBytes 2 n ++ leBytes 2 (min skipped 65535) ++ leBytes 4 slot ++ s.log.copy slot n))

/-! ### Receiving (R348, R350 to R352, R359) -/

/-- A received frame, taken apart. -/
structure RxService where
  hd : List Byte
  body : List Byte
  tag : List Byte
  type : Nat
  auth : Bool
  hops : Nat
  serial : Nat
  target : Nat
  seq : Nat
deriving DecidableEq, Repr

/-- Take a frame apart from its destination MAC through its FCS. -/
def rxService (f : List Byte) : RxService :=
  let hd := (f.drop 14).take 32
  let n := fieldAt hd 4 2
  let auth := bitOf (fieldAt hd 2 1) 7
  { hd := hd, body := (f.drop 46).take n, tag := if auth then (f.drop (46 + n)).take 16 else [], type := fieldAt hd 1 1, auth := auth,
    hops := fieldAt hd 2 1 % 8, serial := fieldAt hd 8 8, target := fieldAt hd 16 8, seq := fieldAt hd 24 4 }

/-- Is a frame a service frame: its EtherType (R348). -/
def isService (f : List Byte) : Bool := decide ((f.drop 12).take 2 = [0x88, 0xB5])

/-- Is the FCS good. -/
def fcsOk (f : List Byte) : Bool := decide (4 ≤ f.length) && decide (f.drop (f.length - 4) = leBytes 4 (crc32 (f.take (f.length - 4))))

/-- The header checks of R348. -/
def headerGood (f : List Byte) (x : RxService) : Bool :=
  let n := 46 + fieldAt x.hd 4 2 + (if x.auth then 16 else 0)
  decide (50 ≤ f.length) && decide (fieldAt x.hd 0 1 = 0x10) && decide (1 ≤ x.type) && decide (x.type ≤ 8) &&
    decide (bitsOf (fieldAt x.hd 2 1) 5 3 = 0) && decide (fieldAt x.hd 3 1 = 0) && decide (x.serial ≠ 0) && decide (fieldAt x.hd 28 4 = 0) &&
    decide (f.length = max 60 n + 4) && (((f.drop n).take (f.length - 4 - n)).all fun b => decide (b = 0)) && bodyOk x.type x.body

/-- Is the TAG refused (R352). -/
def State.tagRefused (s : State) (x : RxService) : Bool :=
  match s.bus.key with
  | none => decide (x.type = 6) || decide (x.type = 7)
  | some k => if x.auth then decide (x.tag ≠ frameTag k x.hd x.body) else taggedType x.type

/-- Is the FRAME_SEQ refused: an AUTH frame not newer than the newest accepted from its sender (R352). -/
def State.seqRefused (s : State) (x : RxService) : Bool :=
  s.bus.key.isSome && x.auth && (match Kv.get x.serial s.bus.seqs with
    | some k => !serialNewer 32 x.seq k
    | none => false)

/-- The error flags of R359; a collision shows in the FCS. -/
def State.rxErrors (s : State) (f : List Byte) (x : RxService) : Nat :=
  let bad := !fcsOk f
  let short := decide (f.length < 64)
  let long := decide (576 < f.length)
  let hdr := !bad && !short && !long && isService f && !headerGood f x
  let clean := !bad && !short && !long && isService f && !hdr
  let tag := clean && s.tagRefused x
  b2n bad + 2 * b2n short + 4 * b2n long + 8 * b2n hdr + 16 * b2n tag + 32 * b2n (clean && !tag && s.seqRefused x)

/-- A frame goes to the host's service receive ring, or is dropped and counted when it is full (R448). -/
def State.toHostRing (s : State) (port errors : Nat) (f : List Byte) : State :=
  let m := s.mbox
  if 32 ≤ (m.rxTail + 2 ^ 32 - m.rxHead) % 2 ^ 32 then { s with mbox := { m with rxDropped := (m.rxDropped + 1) % 2 ^ 32 } }
  else
    let slot := leBytes 2 f.length ++ leBytes 1 errors ++ leBytes 1 port ++ leBytes 4 m.rxTail ++ f
    { s with mbox := { m with rxSlots := Kv.set (m.rxTail % 32) slot m.rxSlots, rxTail := (m.rxTail + 1) % 2 ^ 32 } }

/-- The newest FRAME_SEQs of the last 128 senders (R352). -/
def State.noteSeq (s : State) (x : RxService) : State :=
  if x.auth ∧ s.bus.key.isSome then
    { s with bus := { s.bus with seqs := ((x.serial, x.seq) :: s.bus.seqs.filter fun e => e.1 ≠ x.serial).take 128 } }
  else s

/-- Relay a frame out of the other port (R350, R351). -/
def State.relay (s : State) (port : Nat) (f : List Byte) (x : RxService) : State :=
  let key := (x.serial, x.type, x.seq)
  let up := bothPorts.all fun p => (s.sb p).any fun q => decide (q.phase ≠ .off)
  if bitOf s.bus.flags 1 ∧ up ∧ relayedType x.type ∧ 0 < x.hops ∧ x.serial ≠ s.boot.serial ∧ key ∉ s.bus.relayed then
    let g := f.take 16 ++ leBytes 1 (b2n x.auth * 128 + 64 + (x.hops - 1)) ++ (f.drop 17).take (f.length - 21)
    ({ s with bus := { s.bus with relayed := (key :: s.bus.relayed).take 256 } } : State).sbPut (1 - port) g
  else s

/-- The part acts on a frame, or hands it to the host (R348, R349). -/
def State.actOn (s : State) (port : Nat) (f : List Byte) (x : RxService) : State :=
  match x.type with
  | 1 => s.updSb port fun q => q.hear x.serial (fieldAt x.body 0 1)
  | 2 => s
  | 3 => s.takeRates port x.serial x.body
  | 4 => s.takeTakeover x.body
  | 6 => s.takeDebug port x.serial x.body
  | _ => s.toHostRing port 0 f

/-- A frame arrives at a service-bus port: checked, noted, relayed, and acted on when it is for this part (R348 to R352, R359). A frame that is no
service frame meets the link's checks alone, and goes no further (R351). -/
def State.serviceFrame (s : State) (port : Nat) (f : List Byte) : State :=
  match s.sb port with
  | none => s
  | some q =>
    if q.phase = .off ∨ s.boot.recovery ∨ s.boot.factory then s
    else
      let x := rxService f
      let e := s.rxErrors f x
      if e ≠ 0 then
        let s := if 16 ≤ e then s.sbCount port 1 else s
        if q.deliver then s.toHostRing port e (f.take 512) else s.sbCount port 0
      else if ¬ isService f then s
      else
        let s := (s.noteSeq x).relay port f x
        if x.target = 0 ∨ x.target = s.boot.serial then s.actOn port f x else s

/-- SERVICE_FRAME_RECEIVED (R348, R359). -/
def execServiceFrameReceived (port : Nat) (frame : List Byte) (s : State) : Host.Outcome State Fault Refusal := .next (s.serviceFrame port frame)

/-- A received frame whose row names its type. -/
def State.serviceFrameOf (s : State) (t port : Nat) (f : List Byte) : State := if (rxService f).type = t then s.serviceFrame port f else s

/-- DISCOVER (R345). -/
def execDiscover (port : Nat) (frame : List Byte) (s : State) : Host.Outcome State Fault Refusal := .next (s.serviceFrameOf 1 port frame)

/-- FAILURE_RATE (R354). -/
def execFailureRate (port : Nat) (frame : List Byte) (s : State) : Host.Outcome State Fault Refusal := .next (s.serviceFrameOf 3 port frame)

/-- TAKEOVER (R339). -/
def execTakeover (port : Nat) (frame : List Byte) (s : State) : Host.Outcome State Fault Refusal := .next (s.serviceFrameOf 4 port frame)

/-- DEBUG_REQUEST (R355). -/
def execDebugRequest (port : Nat) (frame : List Byte) (s : State) : Host.Outcome State Fault Refusal := .next (s.serviceFrameOf 6 port frame)

/-! ### Wake patterns (R358) -/

/-- Does a frame match entry i of a wake-pattern key: long enough for its highest selected byte, and the CRC of the selected bytes equal. -/
def wakeMatches (key : List Byte) (i : Nat) (f : List Byte) : Bool :=
  let e := (key.drop (24 * i)).take 24
  let sel := (List.range 128).filter fun j => bitOf (fieldAt e 0 16) j
  wakeValid key i && (sel.all fun j => decide (j < f.length)) && decide (crc32 (sel.map fun j => f.getD j 0) = fieldAt e 16 4)

/-- WAKE_MATCH: a spare in STANDBY releases its power requests, a part in QUIET returns to its wake profile, any other match is counted
(R337, R358, R406, R414). A trip keeps the part stopped (R424). -/
def execWakeMatch (port : Nat) (frame : List Byte) (s : State) : Host.Outcome State Fault Refusal :=
  .next (
    let key := s.wakeKey port
    let hits := (List.range 8).filter fun i => fcsOk frame && wakeMatches key i frame
    let quietHit := hits.any fun i => bitOf (fieldAt key (24 * i + 20) 1) 1
    if hits.isEmpty then s
    else if s.spare.state = .standby ∧ port = s.spare.port ∧ s.spare.pattern ∈ hits ∧ ¬ s.power.tripped ∧ ¬ s.power.waking then
      { s with power := { s.power with waking := true, reqCore := true, reqIo := true } }
    else if s.power.profile = 2 ∧ quietHit then
      { s with power := { s.power with changes := s.power.changes ++ [(s.strk.now + 2, s.wakeProfileOf)] } }
    else s.sbCount port 2)

end Sys2Proof.Machine
end

