-- ==== Sys2Proof/Machine/Host.lean ====
section
/-! DEFINITION. The host interface (13_host_coupling.md, 27_host_register_map.md): registers and windows, the administrative queue, inbound
requests, coherence with the host, and the host link. -/

namespace Sys2Proof.Machine

/-! ### Entries of R232 -/

/-- A HOST_INBOUND entry with the offset (R232, R399). -/
def State.inbound (s : State) (off : Nat) : State := s.logEvent 0x0A01 12 0 noContext 0 off

/-! ### The administrative queue (R443, R444) -/

/-- Bytes of the submission ring that the registers describe. -/
def HostPort.sqBytes (h : HostPort) : Nat := 64 * 2 ^ h.sqLog2
/-- Bytes of the completion ring that the registers describe. -/
def HostPort.cqBytes (h : HostPort) : Nat := 32 * 2 ^ h.cqLog2

/-- May a range be a ring of queue 0: every page walks from the root to a present, writable page that context 0 may use, and no allocation
or window of the context lies over it (R156, R206, R444). -/
def State.admRingOk (s : State) (root base bytes : Nat) : Bool :=
  match Kv.get 0 s.ctxs with
  | none => false
  | some c =>
    !(rangesOverlap [(base, bytes)] (c.allocs.map fun a => (a.base, a.size))) &&
      !(rangesOverlap [(base, bytes)] ((c.windows.filter (·.valid)).map fun w => (w.va, w.sizeGib * 2 ^ 30))) &&
      ((pageStarts base bytes).all fun v => match s.walk root v with
        | .ok l => l.write && !l.ink && (!s.framed l.pa || !s.frameDenied 0 false l.pa) && (match s.region l.pa with
            | .plate _ => false
            | _ => true)
        | .error _ => false)

/-- The first register whose check fails, by its page offset, in offset order; a ring is walked with a legal size only (assumption 85). -/
def State.admqFault (s : State) : Option Nat :=
  let h := s.host
  let sqOk := decide (6 ≤ h.sqLog2) && decide (h.sqLog2 ≤ 16)
  let cqOk := decide (6 ≤ h.cqLog2) && decide (h.cqLog2 ≤ 16)
  if ¬ (decide (h.ctx0Root % 4096 = 0) && inTablePool h.ctx0Root) then some 0x00
  else if sqOk ∧ ¬ s.admRingOk h.ctx0Root h.sqBase h.sqBytes then some 0x08
  else if cqOk ∧ (¬ s.admRingOk h.ctx0Root h.cqBase h.cqBytes ∨ (sqOk ∧ rangesOverlap [(h.sqBase, h.sqBytes)] [(h.cqBase, h.cqBytes)])) then some 0x10
  else if sqOk ∧ cqOk then none else some 0x18

/-- Does the Proof core's firmware run, boot being complete (R384). -/
def State.ready (s : State) : Bool := decide (s.boot.stage = 9) && !s.boot.recovery && !s.power.stopped

/-- ENABLE is written to 1: the registers are checked, and queue 0 starts or is refused (R444). -/
def State.enableAdmq (s : State) : State :=
  let h := s.host
  if ¬ s.ready ∨ h.admqState = 1 then s
  else match s.admqFault with
    | some o => { s with host := { h with admqState := 2, reason := o, enable := false } }
    | none =>
      let ring (b n : Nat) : Alloc := { base := b, size := n, write := true, pinned := true, ink := false, pins := [] }
      let s := (s.claimRange 0 h.ctx0Root h.sqBase h.sqBytes).claimRange 0 h.ctx0Root h.cqBase h.cqBytes
      let s := s.updMem fun m => { m with tlb := m.tlb.filter fun t => t.context ≠ 0 }
      let s := s.updCtx 0 fun c => { c with root := h.ctx0Root, allocs := c.allocs ++ [ring h.sqBase h.sqBytes, ring h.cqBase h.cqBytes] }
      let q := newQueue 0 h.sqBase h.sqLog2 h.cqBase h.cqLog2 50000 (if h.vecEn then some h.vector else none)
      { s with queues := Kv.set 0 q s.queues, host := { s.host with admqState := 1, reason := 0, enable := true } }

/-- ENABLE is written to 0: dropped while queue 0 has an admitted command; otherwise queue 0 closes, which releases both rings once its last
record is written (R174, R443, R444; assumption 156). -/
def State.disableAdmq (s : State) : State :=
  if s.host.admqState ≠ 1 then s
  else if s.cmds.any fun c => decide (c.queue = 0) && c.wasAdmitted then s.inbound 0x401020
  else ({ s with host := { s.host with enable := false } } : State).closeQueue 0 none

/-- ADMQ_ENABLE (R444). -/
def execAdmqEnable (s : State) : Host.Outcome State Fault Refusal := .next s.enableAdmq

/-- ADMQ_DISABLE (R444). -/
def execAdmqDisable (s : State) : Host.Outcome State Fault Refusal := .next s.disableAdmq

/-! ### Reading registers and windows (R439 to R441, R445, R448) -/

/-- PORT_STATUS of the eight ports (R441). -/
def State.portStatus (s : State) : Nat :=
  leNat ((List.range 8).map fun p => BitVec.ofNat 8 (match s.port p with
    | some q => q.mode + 4 * b2n q.up + 8 * b2n q.refused
    | none => 0))

/-- A word of FAULT_SUMMARY (R441). -/
def State.summaryWord (s : State) (w : Nat) : Nat :=
  ((List.range 64).filter fun b => decide (64 * w + b ∈ s.host.faultSummary)).foldl (fun n b => n + 2 ^ b) 0

/-- The registers of the global page (R441). -/
def State.globalReg (s : State) (o : Nat) : Option Nat :=
  let h := s.host
  if o = 0x00 then some s.globalStatus
  else if o = 0x08 then some s.boot.serial
  else if o = 0x10 then some s.strk.now
  else if o = 0x18 then some (twos 32 (clampI s.strk.offset (-(2 ^ 31 - 1)) (2 ^ 31 - 1)))
  else if o = 0x20 then some ((s.sites.zipIdx.map fun x => x.1 * 16 ^ x.2).foldl (· + ·) 0)
  else if o = 0x28 then some (s.plateCount + (s.sites.map fun x => 2 ^ (16 + x)).foldl (· + ·) 0)
  else if o = 0x30 then some s.portStatus
  else if o = 0x38 then some (s.ddrChannels + s.ddrGib * 2 ^ 16 + s.ddrRate * 2 ^ 32)
  else if o = 0x40 then some (h.faultVec + b2n h.faultEn * 2 ^ 15)
  else if o = 0x48 then some (h.mboxVec + b2n h.mboxEn * 2 ^ 15)
  else if o = 0x50 then some h.qpBacking
  else if 0x100 ≤ o ∧ o < 0x300 then some (s.summaryWord ((o - 0x100) / 8))
  else none

/-- The registers of the administrative-queue page (R443). -/
def State.admqReg (s : State) (o : Nat) : Option Nat :=
  let h := s.host
  if o = 0x00 then some h.ctx0Root
  else if o = 0x08 then some h.sqBase
  else if o = 0x10 then some h.cqBase
  else if o = 0x18 then some (h.sqLog2 + h.cqLog2 * 2 ^ 8 + h.vector * 2 ^ 16 + b2n h.vecEn * 2 ^ 27)
  else if o = 0x20 then some (b2n h.enable)
  else if o = 0x28 then some (h.admqState + h.reason * 2 ^ 8)
  else none

/-- The registers of a doorbell page; SQ_TAIL and CQ_HEAD read as zero (R7, R162). -/
def State.doorbellReg (s : State) (q o : Nat) : Option Nat :=
  let x := Kv.get q s.queues
  if o = 0x00 ∨ o = 0x18 then some 0
  else if o = 0x08 then some ((x.map (·.sqHead)).getD 0)
  else if o = 0x10 then
    some (((x.map (·.dbErrors)).getD ((Kv.get q s.dbUnused).getD 0)) * 2 ^ 16 + ((x.map fun y => y.state.code).getD 0))
  else none

/-- The registers of the mailbox; the doorbell and SB_RX_HEAD read as zero (R448). -/
def State.mboxReg (s : State) (o : Nat) : Option Nat :=
  let m := s.mbox
  if o = 0x2000 ∨ o = 0x2018 then some 0
  else if o = 0x2008 then some (b2n (m.busy.any fun r => !r.sideband) + 2 * b2n m.done + m.ignored * 2 ^ 16)
  else if o = 0x2010 then some m.rxTail
  else if o = 0x2020 then some m.rxDropped
  else none

/-- The value of the 8-byte register at an aligned offset of BAR0. -/
def State.reg (s : State) (off : Nat) : Option Nat :=
  if off < 0x400000 then s.doorbellReg (off / 4096) (off % 4096)
  else if off < 0x401000 then s.globalReg (off - 0x400000)
  else if off < 0x402000 then s.admqReg (off - 0x401000)
  else if 0x420000 ≤ off ∧ off < 0x430000 then s.mboxReg (off - 0x420000)
  else none

/-- A context's entry as the context-table window shows it (R212, R213). -/
def State.contextEntry (s : State) (n : Nat) : List Byte :=
  match Kv.get n s.ctxs with
  | none => zeros 128
  | some c =>
    leBytes 2 n ++ leBytes 1 (if c.slot.isSome then 2 else 1) ++ leBytes 1 (b2n c.admin + 2 * b2n c.debug) ++ leBytes 2 c.plateMask ++
      leBytes 2 c.layers ++ leBytes 8 c.root ++ leBytes 8 c.seed ++ leBytes 4 c.budget ++ leBytes 4 c.faultLimit ++
      leBytes 1 (c.slot.getD 0xFF) ++ zeros 3 ++ leBytes 4 c.allocs.length ++ leBytes 6 c.lastActive ++ zeros 18 ++
      c.windows.flatMap fun w => leBytes 6 w.va ++ leBytes 2 w.epoch ++ leBytes 2 w.manifest ++ leBytes 2 w.sizeGib ++ leBytes 1 (b2n w.valid) ++ zeros 3

/-- A byte of the MSI-X table: a masked entry of zeros until it is written (R442; assumption 13). -/
def HostPort.msixByte (h : HostPort) (o : Nat) : Byte := (Kv.get o h.msixTable).getD (if o % 16 = 12 then 1 else 0)

/-- A window of BAR0 that holds an offset: its bytes from the start of the block that holds the offset, and the place in it. -/
def State.window (s : State) (off : Nat) : Option (List Byte × Nat) :=
  if 0x410000 ≤ off ∧ off < 0x418000 then
    some ((List.range 16).map fun i => s.host.msixByte ((off - 0x410000) / 16 * 16 + i), off % 16)
  else if 0x418000 ≤ off ∧ off < 0x418100 then
    some (leBytes 8 (((List.range 64).filter fun b => decide ((off - 0x418000) / 8 * 64 + b ∈ s.host.msixPending)).foldl (fun n b => n + 2 ^ b) 0), off % 8)
  else if 0x420000 ≤ off ∧ off < 0x421000 then
    some ((List.range 8).map fun i => (Kv.get ((off - 0x420000) / 8 * 8 + i) s.mbox.request).getD 0, off % 8)
  else if 0x421000 ≤ off ∧ off < 0x422000 then some (s.mbox.response ++ zeros (4096 - s.mbox.response.length), off - 0x421000)
  else if 0x428000 ≤ off ∧ off < 0x430000 then
    some (((Kv.get ((off - 0x428000) / 1024) s.mbox.rxSlots).getD []) ++ zeros 1024, off % 1024)
  else if 0x440000 ≤ off ∧ off < 0x480000 then some (s.log.read ((off - 0x440000) / 32), off % 32)
  else if 0x480000 ≤ off ∧ off < 0x500000 then some (s.contextEntry ((off - 0x480000) / 128), off % 128)
  else if 0x1000000 ≤ off ∧ off < 0x2000000 then
    some (((Kv.get ((off - 0x1000000) / 4096) s.ctxs).map (·.ring.page)).getD (zeros 4096), off % 4096)
  else none

/-- Bits of FAULT_SUMMARY that a read of word w clears. -/
def State.clearSummary (s : State) (w : Nat) : State :=
  { s with host := { s.host with faultSummary := s.host.faultSummary.filter fun c => c / 64 ≠ w } }

/-- What a read does beside returning its value: an RCL word is cleared (R7, R441). -/
def State.readEffect (s : State) (off : Nat) : State :=
  if 0x400100 ≤ off ∧ off < 0x400300 then s.clearSummary ((off - 0x400100) / 8) else s

/-- A read of a register: 8 bytes whole, the low half with the high half latched, or the high half, latched if it was (R440). -/
def State.readReg (s : State) (off size : Nat) : Option (Nat × State) :=
  let base := off / 8 * 8
  match s.reg base with
  | none => none
  | some v =>
    if size = 8 then some (v, s.readEffect base)
    else if off % 8 = 0 then
      some (v % 2 ^ 32, ({ s with host := { s.host with latch := some (off, v / 2 ^ 32) } } : State).readEffect base)
    else match s.host.latch with
      | some (o, h) => if o = base then some (h, { s with host := { s.host with latch := none } }) else some (v / 2 ^ 32, s.readEffect base)
      | none => some (v / 2 ^ 32, s.readEffect base)

/-- A read of BAR0: an aligned access of 4 or 8 bytes, up to 32 in the trouble-log window; anything else reads zero with an entry (R232, R440,
R445). -/
def State.read0 (s : State) (off len : Nat) : State :=
  let give (s : State) (bs : List Byte) : State := { s with host := { s.host with answer := .data bs } }
  let wide := decide (0x440000 ≤ off ∧ off < 0x480000) && (decide (len = 16) || decide (len = 32))
  if (¬ wide ∧ len ≠ 4 ∧ len ≠ 8) ∨ off % len ≠ 0 then give (s.inbound off) (zeros len)
  else match s.window off with
    | some (bs, i) => give s ((bs.drop i).take len)
    | none =>
      match s.readReg off len with
      | some (v, s) => give s (leBytes len v)
      | none => give (s.inbound off) (zeros len)

/-- FAULT_SUMMARY_READ (R441). -/
def execFaultSummaryRead (word : Nat) (s : State) : Host.Outcome State Fault Refusal :=
  .next (if word < 64 then s.read0 (0x400100 + 8 * word) 8 else s)

/-- HALF_READ_LATCH: a 4-byte read of the low half of a register (R440). -/
def execHalfReadLatch (offset : Nat) (s : State) : Host.Outcome State Fault Refusal :=
  .next (if offset % 8 = 0 then s.read0 offset 4 else s)

/-! ### Writing registers (R7, R440 to R443, R448) -/

/-- The bytes of a request in the mailbox: its header and as many as LENGTH says (R449). -/
def State.mboxRequest (s : State) : List Byte :=
  let byte (i : Nat) : Byte := (Kv.get i s.mbox.request).getD 0
  let n := leNat [byte 2, byte 3]
  (List.range (16 + min n 4080)).map byte

/-- Operations of the mailbox: those of recovery, and the others (R450). -/
def mboxOpOk (op : Nat) (recovery : Bool) : Bool :=
  if recovery then decide (0x10 ≤ op) && decide (op ≤ 0x12) else decide (1 ≤ op) && decide (op ≤ 6)

/-- The header of a request fails: its ending (R449, R450). -/
def State.mboxHeader (s : State) (r : List Byte) : Option Ending :=
  if ¬ mboxOpOk (fieldAt r 0 2) s.boot.recovery then some (.fail .badOpcode 0)
  else if 4080 < fieldAt r 2 2 then some (.fail .badLength 2)
  else match (List.range 8).find? fun i => fieldAt r (8 + i) 1 ≠ 0 with
    | some i => some (badField (8 + i))
    | none => none

/-- A request reaches the Proof core over one path; the other path's request in service turns it away (R449). -/
def State.submitMbox (s : State) (r : MboxRequest) : State :=
  let s := ({ s with mbox := { s.mbox with busy := some r } } : State).proofLoad
  match s.mboxHeader r.bytes with
  | some e => s.answerMbox r e []
  | none => s

/-- BUSY_RETRY for a request whose slot the other path holds (R393, R449). -/
def State.turnAwayMbox (s : State) (r : MboxRequest) : State :=
  let other := s.mbox.busy
  let m := s.proof.refusals.getD clsMaintenance 0 + 1
  let s : State := { s with proof := { s.proof with refusals := s.proof.refusals.set clsMaintenance m, refused := (s.proof.refused + 1) % 2 ^ 64 } }
  let s := s.answerMbox r { status := .busyRetry, r0 := s.retryAfter clsMaintenance m } []
  { s with mbox := { s.mbox with busy := other } }

/-- MBOX_DOORBELL (R448, R449). -/
def State.mboxDoorbell (s : State) : State :=
  let r : MboxRequest := { sideband := false, bytes := s.mboxRequest }
  if s.boot.factory then s
  else match s.mbox.busy with
    | none => s.submitMbox r
    | some b =>
      if b.sideband then s.turnAwayMbox r
      else { s with mbox := { s.mbox with ignored := satAdd s.mbox.ignored 1 65535 } }

/-- A write of SB_RX_HEAD: at most SB_RX_TAIL in serial arithmetic, or ignored (R448). -/
def State.writeRxHead (s : State) (v : Nat) : State :=
  let m := s.mbox
  if (v % 2 ^ 32 + 2 ^ 32 - m.rxHead) % 2 ^ 32 ≤ (m.rxTail + 2 ^ 32 - m.rxHead) % 2 ^ 32 then
    { s with mbox := { m with rxHead := v % 2 ^ 32 } }
  else s

/-- SB_RX_HEAD_WRITE (R448). -/
def execSbRxHeadWrite (value : Nat) (s : State) : Host.Outcome State Fault Refusal := .next (s.writeRxHead value)

/-- A write to the global page: v is the register with the written bytes in place, w the written bits alone (R441). -/
def State.writeGlobal (s : State) (o v w : Nat) : State :=
  let h := s.host
  if o = 0x00 then { s with host := { h with logError := h.logError && !bitOf w 20, alignLost := h.alignLost && !bitOf w 18 } }
  else if o = 0x40 then { s with host := { h with faultVec := bitsOf v 10 0, faultEn := bitOf v 15 } }
  else if o = 0x48 then { s with host := { h with mboxVec := bitsOf v 10 0, mboxEn := bitOf v 15 } }
  else if o = 0x50 then
    (let b := bitsOf v 47 12 * 4096
     if ¬ s.stylus.qps.isEmpty ∨ b = 0 ∨ 2 ^ 48 < b + 2 ^ 24 then s.inbound (0x400000 + o) else { s with host := { h with qpBacking := b } })
  else s

/-- A write to the administrative-queue page (R443). -/
def State.writeAdmq (s : State) (o v : Nat) : State :=
  let h := s.host
  if o = 0x20 then (if bitOf v 0 then s.enableAdmq else s.disableAdmq)
  else if 0x20 < o then s
  else if h.admqState = 1 then s.inbound (0x401000 + o)
  else if o = 0x00 then { s with host := { h with ctx0Root := bitsOf v 48 12 * 4096 } }
  else if o = 0x08 then { s with host := { h with sqBase := bitsOf v 47 12 * 4096 } }
  else if o = 0x10 then { s with host := { h with cqBase := bitsOf v 47 12 * 4096 } }
  else { s with host := { h with vecEn := bitOf v 27, vector := bitsOf v 26 16, cqLog2 := bitsOf v 12 8, sqLog2 := bitsOf v 4 0 } }

/-- A write to the mailbox's registers (R448). -/
def State.writeMbox (s : State) (o v w : Nat) : State :=
  if o = 0x2000 then s.mboxDoorbell
  else if o = 0x2008 then (if bitOf w 1 then { s with mbox := { s.mbox with done := false } } else s)
  else if o = 0x2018 then s.writeRxHead v
  else s

/-- A write of bytes into a window that takes them: the MSI-X table and REQUEST (R439, R448). -/
def State.writeWindow (s : State) (off : Nat) (bs : List Byte) : Option State :=
  if 0x410000 ≤ off ∧ off < 0x418000 then
    let t := bs.zipIdx.foldl (fun t x => Kv.set (off - 0x410000 + x.2) x.1 t) s.host.msixTable
    some (({ s with host := { s.host with msixTable := t } } : State).flushMsi)
  else if 0x420000 ≤ off ∧ off < 0x421000 then
    some { s with mbox := { s.mbox with request := bs.zipIdx.foldl (fun t x => Kv.set (off - 0x420000 + x.2) x.1 t) s.mbox.request } }
  else if (s.window off).isSome then some s
  else none

/-- A write to BAR0: an aligned access of 4 or 8 bytes to something defined; otherwise dropped with an entry (R7, R232, R440). The reserved halves
of ENABLE and MBOX_DOORBELL ignore it (R6). -/
def State.write0 (s : State) (off size value : Nat) : State :=
  if (size ≠ 4 ∧ size ≠ 8) ∨ off % size ≠ 0 then s.inbound off
  else if size = 4 ∧ (off = 0x401024 ∨ off = 0x422004) then s
  else match s.writeWindow off (leBytes size value) with
    | some s => s
    | none =>
      let base := off / 8 * 8
      match s.reg base with
      | none => s.inbound off
      | some old =>
        let sh := 8 * (off - base)
        let w := value % 2 ^ (8 * size) * 2 ^ sh
        let v := setBits old (sh + 8 * size - 1) sh (value % 2 ^ (8 * size))
        if off < 0x400000 then
          (if off % 4096 = 0 then s.writeSqTail (off / 4096) w
           else if off % 4096 = 0x18 then s.writeCqHead (off / 4096) w else s)
        else if off < 0x401000 then s.writeGlobal (base - 0x400000) v w
        else if off < 0x402000 then s.writeAdmq (base - 0x401000) v
        else s.writeMbox (base - 0x420000) v w

/-- REGISTER_WRITE (R7). -/
def execRegisterWrite (offset size value : Nat) (s : State) : Host.Outcome State Fault Refusal := .next (s.write0 offset size value)

/-! ### The table window (R447) -/

/-- The physical address behind an offset of BAR2; none in a reserved area. -/
def tablePa (off : Nat) : Option Nat :=
  if off < 4 * reservedSize ∧ off % reservedSize < poolSize then
    some ((off / reservedSize + 1) * tileHbm - reservedSize + off % reservedSize)
  else none

/-- Is an access of the table window one that it accepts: aligned, 4 to 64 bytes, within a line (R447). -/
def tableAccessOk (off len : Nat) : Bool :=
  decide (off % 4 = 0) && decide (len % 4 = 0) && decide (4 ≤ len) && decide (off % 64 + len ≤ 64)

/-- A write through the table window: visible to every walk at once (R447). -/
def State.writeTable (s : State) (off : Nat) (bs : List Byte) : State :=
  match tablePa off with
  | some pa => if tableAccessOk off bs.length then s.updMem fun m => m.writeBytes pa bs else s.inbound off
  | none => s.inbound off

/-- TABLE_WINDOW_WRITE (R447). -/
def execTableWindowWrite (offset : Nat) (data : List Byte) (s : State) : Host.Outcome State Fault Refusal := .next (s.writeTable offset data)

/-! ### The device-memory window (R230, R232) -/

/-- Answer a host request. -/
def State.answerHost (s : State) (a : HostAnswer) : State := { s with host := { s.host with answer := a } }

/-- The physical address behind an offset of the device-memory window; none beyond it or in a reserved area (R230). -/
def State.windowPa (s : State) (off : Nat) : Option Nat :=
  if off < hbmSize then (match s.region off with
    | .hbm _ => some off
    | _ => none)
  else if off < hbmSize + s.ddrGib * 2 ^ 30 then some (ddrBase + (off - hbmSize))
  else none

/-- An access meets an uncorrectable line: a poisoned completion and a MEDIA entry (R232). -/
def State.poison (s : State) (pa : Nat) : State :=
  let (k, i) : Nat × Nat := if pa < hbmSize then (15, stackOf pa) else (15, s.channelOf pa)
  ((s.countError pa 1).logEvent 0x0201 k i noContext 0 pa).answerHost .poisoned

/-- An Unsupported Request: the answer, and bit 20 of the uncorrectable error status (R227, R232; PCIe, assumption 165). -/
def State.unsupported (s : State) : State :=
  ({ s with host := { s.host with aer := setBits s.host.aer 20 20 1 } } : State).answerHost .unsupported

/-- Does the part use a feature of the link (R227). -/
def State.usesFeature (s : State) : LinkFeature → Bool
  | .flitMode | .msix | .errorReporting | .functionReset | .cxlSwitch => true
  | .cxlCache | .cxlMem => s.host.coherent
  | .srIov | .pasid | .ats | .pri | .peerToPeer | .linkEncryption | .multiLogical | .pooling | .dynamicCapacity | .portRouting => false

/-- A byte of the configuration space: the error status, what the host has written, or what PCIe and CXL lay down (R232; assumption 165). -/
def State.configAt (s : State) (off : Nat) : Byte :=
  if Config.aerStatus.val ≤ off ∧ off < Config.aerStatus.val + 4 then BitVec.ofNat 8 (s.host.aer / 256 ^ (off - Config.aerStatus.val))
  else (Kv.get off s.host.config).getD (Config.configByte off)

/-- A byte written to the configuration space: a one clears its bit of the error status. -/
def State.configPut (s : State) (off : Nat) (b : Byte) : State :=
  if Config.aerStatus.val ≤ off ∧ off < Config.aerStatus.val + 4 then
    { s with host := { s.host with aer := s.host.aer - Nat.land s.host.aer (b.toNat * 256 ^ (off - Config.aerStatus.val)) } }
  else { s with host := { s.host with config := Kv.set off b s.host.config } }

/-- A request to configuration space follows PCIe (R232). -/
def State.configAccess (s : State) (r : HostRequest) : State :=
  if r.write then ((r.data.zipIdx).foldl (fun (s : State) x => s.configPut (r.offset + x.2) x.1) s).answerHost .written
  else s.answerHost (.data ((List.range r.length).map fun i => s.configAt (r.offset + i)))

/-- Must the host's request for a line wait: the directory is full and its oldest entry has not answered (R230). -/
def Memory.directoryFull (m : Memory) (l : Nat) : Bool := decide (l ∉ m.directory) && decide (524288 ≤ m.directory.length)

/-- Snoop the oldest line of a full directory (R230). -/
def Memory.snoopOldest (m : Memory) : Memory :=
  match m.directory with
  | [] => m
  | l :: _ => if Kv.has l m.snooped then m else { m with snooped := Kv.set l [] m.snooped }

/-- The host takes a line into its cache: the directory notes it (R230). -/
def Memory.hostTakes (m : Memory) (l : Nat) : Memory := if l ∈ m.directory then m else { m with directory := m.directory ++ [l] }

/-- The bytes that the host reads: those of a DDR frame without an owner have no key, and are a free value (R222, R223, R230; assumption 2). -/
def State.windowRead (s : State) (pa n : Nat) : State :=
  if s.region pa = .ddr ∧ s.ownerOf pa = none then
    let (v, s) := s.draw (8 * n)
    s.answerHost (.data (leBytes n v))
  else s.answerHost (.data (s.mem.readBytes pa n))

/-- The host writes device memory: a DDR frame without an owner has no key, so that no later owner reads what stands there (R222, R223). -/
def State.windowWrite (s : State) (pa : Nat) (bs : List Byte) : State :=
  let t := s.updMem fun m => m.writeBytes pa bs
  if s.region pa = .ddr ∧ s.ownerOf pa = none then t.updMem fun m => { m with ddrLast := Kv.set (pa / 65536) noKey m.ddrLast } else t

/-- An access through the device-memory window: `err` is the answer to one that is refused (R230, R232). A request for a line that the host
will hold waits while the directory is full. -/
def State.windowAccess (s : State) (r : HostRequest) (err : HostAnswer) : State :=
  let n := if r.write then r.data.length else r.length
  match s.windowPa r.offset with
  | none => (s.inbound r.offset).answerHost err
  | some pa =>
    let whole := r.write && decide (pa % 64 = 0) && decide (n % 64 = 0)
    if s.mem.bad pa n ∧ ¬ whole then s.poison pa
    else if r.cached ∧ s.host.coherent ∧ s.mem.directoryFull (lineOf pa) = true then
      let s := s.updMem Memory.snoopOldest
      { s with host := { s.host with waiting := s.host.waiting ++ [r] } }
    else
      let s := if r.cached ∧ s.host.coherent then s.updMem fun m => m.hostTakes (lineOf pa) else s
      if r.write then ((s.windowWrite pa r.data).sampleTriggers).answerHost .written
      else s.windowRead pa n

/-- HOST_INBOUND_REQUEST (R227, R232, R438, R446). -/
def execHostInboundRequest (r : HostRequest) (s : State) : Host.Outcome State Fault Refusal :=
  .next (
    let n := if r.write then r.data.length else r.length
    if ¬ s.host.up then s
    else match r.target with
      | .config => s.configAccess r
      | .feature f => if s.usesFeature f then s else s.unsupported
      | t =>
        if ¬ r.trusted then (s.inbound r.offset).unsupported
        else match t with
        | .bar0 => if r.write then (s.write0 r.offset n (leNat r.data)).answerHost .written else s.read0 r.offset n
        | .bar2 =>
          if r.write then (s.writeTable r.offset r.data).answerHost .written
          else match tablePa r.offset with
            | some pa => if tableAccessOk r.offset n then s.answerHost (.data (s.mem.readBytes pa n)) else (s.inbound r.offset).answerHost (.data (zeros n))
            | none => (s.inbound r.offset).answerHost (.data (zeros n))
        | .bar4 =>
          if s.host.coherent ∨ n = 0 ∨ 64 < r.offset % 64 + n then s.unsupported
          else s.windowAccess r (if r.write then .written else .data (zeros n))
        | .hdm => if s.host.coherent then s.windowAccess r .unsupported else s.unsupported
        | _ => s)

/-- CXL_SNOOP: the line leaves the host-line cache; it is always answered (R229, R232). -/
def execCxlSnoop (line : Nat) (s : State) : Host.Outcome State Fault Refusal :=
  .next (s.updMem fun m => { m with hostLines := m.hostLines.filter (· ≠ lineOf line) })

/-- The requests that waited for room in the directory are served, as far as there is room (R230). -/
def State.serveWaiting (s : State) : State :=
  let rs := s.host.waiting
  rs.foldl (fun (s : State) r => s.windowAccess r .unsupported) { s with host := { s.host with waiting := [] } }

/-- BACK_INVALIDATION_RESPONSE: the host's write-back lands before the engine's write that needed it, and the line leaves the directory
(R230, R231). -/
def execBackInvalidationResponse (line : Nat) (writeBack : List Byte) (s : State) : Host.Outcome State Fault Refusal :=
  .next (
    let l := lineOf line
    match Kv.get l s.mem.snooped with
    | none => s
    | some mine => (s.updMem fun m =>
      let m := if writeBack.length = 64 then m.writeBytes l writeBack else m
      let m := mine.foldl (fun (m : Memory) e => m.write e.1 e.2) m
      { m with snooped := Kv.del l m.snooped, directory := m.directory.filter (· ≠ l) }).serveWaiting)

/-! ### The host link (R226, R239) -/

/-- HOST_WIDTH's code of a number of lanes (R441). -/
def widthCode (lanes : Nat) : Nat := if lanes = 16 then 3 else if lanes = 8 then 2 else if lanes = 4 then 1 else 0

/-- A PORT entry for the host link (R226, R239, R399). -/
def State.linkEntry (s : State) (event : Nat) : State := s.logEvent 0x0501 12 0 noContext 0 event

/-- What the link held goes out: host writes in their order, then interrupts; waiting commands go on (R239). -/
def State.releaseHost (s : State) : State :=
  let held := s.host.heldWrites
  let s := s.updMem fun m => held.foldl (fun (m : Memory) w => m.writeBytes w.1 w.2) m
  ({ s with
    host := { s.host with heldWrites := [] }
    cmds := s.cmds.map fun c => { c with hostWait := none } } : State).flushMsi

/-- HOST_LINK_UP: the mode is settled once; a retrain that would change it leaves the link held down (R226). -/
def execHostLinkUp (cxl : Bool) (width : Nat) (s : State) : Host.Outcome State Fault Refusal :=
  .next (
    let h := s.host
    if h.up ∨ h.heldDown ∨ widthCode width = 0 ∨ s.power.stopped ∨ s.side.porst ∨ s.boot.factory then s
    else if h.settled ∧ h.coherent ≠ cxl then
      (({ s with host := { h with heldDown := true } } : State).linkEntry 0)
    else
      let s : State := { s with host := { h with up := true, settled := true, coherent := cxl, width := widthCode width, lost := false } }
      let s := if width < 16 ∨ ¬ cxl then s.linkEntry 1 else s
      s.releaseHost)

/-- The link goes down: host writes are held, the cache and the directory are dropped (R239). -/
def State.linkDown (s : State) : State :=
  if ¬ s.host.up then s
  else
    (({ s with host := { s.host with up := false, lost := false, waiting := [] } } : State).updMem fun m =>
      { m with hostLines := [], directory := [], snooped := [] }).linkEntry 0

/-- HOST_LINK_DOWN (R239). -/
def execHostLinkDown (s : State) : Host.Outcome State Fault Refusal := .next s.linkDown

/-- REFCLK_LOST: the host link goes down under R239 (R408). -/
def execRefclkLost (s : State) : Host.Outcome State Fault Refusal := .next s.linkDown

/-- Does a queue's submission ring lie in host memory with slots posted. -/
def State.awaitsHost (s : State) (x : Queue) : Bool :=
  decide (x.state = .active) && decide (0 < x.posted) && (match s.paOf x.owner [] (x.recordAddr 0) with
    | some p => decide (s.region p = .host)
    | none => false)

/-- HOST_LINK_LOSS_TIMEOUT: commands with an outstanding host access end with TIMEOUT, and queues whose rings lie in host memory are
STALLED (R164, R239). -/
def execHostLinkLossTimeout (s : State) : Host.Outcome State Fault Refusal :=
  .next (if s.host.up ∨ s.host.lost then s
    else
      let s : State := { s with
        host := { s.host with lost := true }
        cmds := s.cmds.map fun c => match c.hostWait with
          | some d => { c with phase := .finished (.fail .timeout d), hostWait := none, work := .none }
          | none => c }
      (s.queues.filter fun e => s.awaitsHost e.2).foldl (fun (s : State) e =>
        (s.updQueue e.1 fun y => { y with state := .stalled, rereads := 8 }).logEvent 0x0301 10 0 e.2.owner e.1 e.2.expSeq) s)

end Sys2Proof.Machine
end

