-- ==== Sys2Proof/Machine/Side.lean ====
section
/-! DEFINITION. The Proof core mailbox's operations (27_host_register_map.md, R449 to R451), flash timeouts (R370), the SMBus sideband (R436) and
the TAP (R437). -/

namespace Sys2Proof.Machine

/-! ### Serving a mailbox request (R449, R450) -/

/-- Bytes of a request's body. -/
def MboxBody (r : MboxRequest) : List Byte := r.bytes.drop 16

/-- Does something serve the mailbox: the Proof core's firmware, or the ROM in recovery (R384, R386). -/
def State.mboxServed (s : State) : Bool := s.boot.recovery || (decide (5 ≤ s.boot.stage) && !s.boot.halted)

/-- Serve the request in service when it is r and names op: LENGTH, then the operation, which answers or goes on when its row comes again. -/
def State.serveMbox (s : State) (r : MboxRequest) (op : Nat) (lenOk : Nat → Bool) (act : State → Except Ending (State × Option (Ending × List Byte))) :
    State :=
  if s.mbox.busy ≠ some r ∨ fieldAt r.bytes 0 2 ≠ op ∨ ¬ s.mboxServed then s
  else if ¬ lenOk (fieldAt r.bytes 2 2) then s.answerMbox r (.fail .badLength 2) []
  else match act s with
    | .error e => s.answerMbox r e []
    | .ok (s, some (e, body)) => s.answerMbox r e body
    | .ok (s, none) => s

/-- MBOX_NOP (R450). -/
def execMboxNop (r : MboxRequest) (s : State) : Host.Outcome State Fault Refusal :=
  .next (s.serveMbox r 1 (fun n => decide (n = 0)) fun s => .ok (s, some (Ending.ok 0 0, [])))

/-- The header of a frame to send, with what the part fills in (R348, R450). -/
def State.fillFrame (s : State) (f : List Byte) (seq : Nat) : List Byte :=
  let t := fieldAt f 15 1
  let auth := taggedType t && s.bus.key.isSome
  let hd := (f.drop 14).take 2 ++ leBytes 1 (fieldAt f 16 1 % 128 + b2n auth * 128) ++ (f.drop 17).take 3 ++ leBytes 2 s.fabric.node ++
    leBytes 8 s.boot.serial ++ (f.drop 30).take 8 ++ leBytes 4 seq ++ (f.drop 42).take 4
  f.take 14 ++ hd ++ f.drop 46 ++ (if auth then frameTag (s.bus.key.getD []) hd (f.drop 46) else [])

/-- Reserved bytes [lo, hi) of a record that begins at a request offset must be zero: BAD_FIELD at the lowest that is not (R6). -/
def zeroField (bs : List Byte) (base lo hi : Nat) : Check :=
  match firstNonzero bs lo hi with
  | some i => .error (badField (base + i))
  | none => .ok ()

/-- Check SB_SEND: ports, the reserved bytes, the type, and the header fields that the host gives; details are request offsets (R348, R450). -/
def State.checkSbSend (s : State) (r : MboxRequest) : Check := do
  let b := MboxBody r
  let f := b.drop 8
  let t := fieldAt f 15 1
  ensure (decide (1 ≤ fieldAt b 0 1) && decide (fieldAt b 0 1 ≤ 3)) (badField 16)
  zeroField b 16 1 8
  ensure (isService f) (badField 36)
  ensure (decide (fieldAt f 14 1 = 0x10)) (badField 38)
  ensure (decide (t = 5) || (decide (t = 6) && s.bus.key.isSome)) (badField 39)
  ensure (decide (bitsOf (fieldAt f 16 1) 5 3 = 0)) (badField 40)
  ensure (decide (fieldAt f 17 1 = 0)) (badField 41)
  ensure (decide (46 + fieldAt f 18 2 = f.length) && bodyOk t (f.drop 46)) (badField 42)
  zeroField f 24 42 46

/-- SB_SEND (R450). A frame that needs its TAG before the boot count is written is not sent (R378). -/
def execSbSend (r : MboxRequest) (s : State) : Host.Outcome State Fault Refusal :=
  .next (s.serveMbox r 2 (fun n => decide (54 ≤ n)) fun s => do
    s.checkSbSend r
    let f := (MboxBody r).drop 8
    let ports := bothPorts.filter fun p => bitOf (fieldAt (MboxBody r) 0 1) p
    if fieldAt f 15 1 = 6 ∧ ¬ s.boot.counted then .ok (s, some (Ending.ok 0 0, []))
    else
      let (seq, s) := s.nextFrameSeq
      let g := padFrame (s.fillFrame f seq)
      .ok (ports.foldl (fun (s : State) p => s.sbPut p g) s, some (Ending.ok 0 0, [])))

/-- MBOX_TELEMETRY: set 5 is that of context 0, as which the path acts (R400, R450; DEDUCED, assumption 87). -/
def execMboxTelemetry (r : MboxRequest) (s : State) : Host.Outcome State Fault Refusal :=
  .next (s.serveMbox r 3 (fun n => decide (n = 1)) fun s => do
    let k := fieldAt r.bytes 16 1
    ensure (decide (k ≤ 5)) (badField 16)
    .ok (s, some (Ending.ok (setBytes k) 0, s.telemetry k 0)))

/-- MBOX_CONFIG_READ (R375, R450). -/
def execMboxConfigRead (r : MboxRequest) (s : State) : Host.Outcome State Fault Refusal :=
  .next (s.serveMbox r 4 (fun n => decide (n = 4)) fun s => do
    let k := fieldAt r.bytes 16 2
    ensure (keyDefined k) (badField 16)
    ensure (s.readLengthOk k (fieldAt r.bytes 18 2)) (badField 18)
    let v := s.shownKey k
    .ok (s, some (Ending.ok v.length s.boot.storeSeq, v)))

/-- A flash write of the mailbox in its two phases (R370). -/
def State.mboxFlash (s : State) (erase : State → State) (prog : State → State × Ending × List Byte) : State × Option (Ending × List Byte) :=
  if s.flashMine none then
    let (s, e, body) := prog s
    (s.flashEnd, some (e, body))
  else if s.boot.flashOp.isSome then
    let (s, e) := s.flashBusy
    (s, some (e, []))
  else ({ (erase s) with boot := { (erase s).boot with flashOp := some { cmd := none } } }, none)

/-- MBOX_CONFIG_WRITE, as ADMIN (R375, R377, R450). -/
def execMboxConfigWrite (r : MboxRequest) (s : State) : Host.Outcome State Fault Refusal :=
  .next (s.serveMbox r 5 (fun n => decide (4 ≤ n)) fun s => do
    let k := fieldAt r.bytes 16 2
    let len := fieldAt r.bytes 18 2
    let v := (MboxBody r).drop 4
    ensure (decide (v.length = len)) (badField 18)
    s.checkKey k len v 16 18 20
    if s.boot.seed.isNone then .error (.fail .noResource 0)
    else .ok (s.mboxFlash (fun s => s.flashErase (bankBase s.spareBank) 65536) fun s =>
      match s.commitStore k v with
      | some s => (s, Ending.ok s.boot.storeSeq 0, [])
      | none => (s, .fail .mediaError 16, [])))

/-- MBOX_PROFILE_SET (R200, R414, R450). -/
def execMboxProfileSet (r : MboxRequest) (s : State) : Host.Outcome State Fault Refusal :=
  .next (s.serveMbox r 6 (fun n => decide (n = 1)) fun s => do
    let p := fieldAt r.bytes 16 1
    ensure (decide (p ≤ 2)) (badField 16)
    .ok ({ s with power := { s.power with changes := s.power.changes ++ [(s.strk.now + 2, p)] } }, some (Ending.ok (s.strk.now + 2) 0, [])))

/-! ### Recovery (R386, R451) -/

/-- The length of the signature. -/
def sigLength : Nat := 7856

/-- A flash that did not answer the probe is not reached: the operation ends as one that exceeds its limit (R370, R384; DEDUCED, assumption
88). -/
def State.needFlash (s : State) : Check := ensure s.boot.flashOk (.fail .timeout 0)

/-- RECOVERY_BEGIN erases slot 0 and starts a transfer (R450, R451). -/
def execRecoveryBegin (r : MboxRequest) (s : State) : Host.Outcome State Fault Refusal :=
  .next (s.serveMbox r 0x10 (fun n => decide (n = 8)) fun s => do
    let n := fieldAt r.bytes 16 4
    ensure (decide (65536 ≤ n) && decide (n ≤ 2 ^ 24)) (badField 16)
    ensure (decide (fieldAt r.bytes 20 4 = sigLength)) (badField 20)
    s.needFlash
    .ok (s.mboxFlash (fun s => (s.flashErase (slotHeader 0) 65536).flashErase (slotImage 0) (2 ^ 24)) fun s =>
      ({ s with boot := { s.boot with recv := some { length := n, received := [] } } }, Ending.ok 0 0, [])))

/-- RECOVERY_DATA writes bytes of the image, or of the signature behind it; a byte written twice keeps its last value (R450, R451). -/
def execRecoveryData (r : MboxRequest) (s : State) : Host.Outcome State Fault Refusal :=
  .next (s.serveMbox r 0x11 (fun n => decide (8 < n)) fun s => do
    let o := fieldAt r.bytes 16 4
    let bs := (MboxBody r).drop 8
    match s.boot.recv with
    | none => .error (badField 0)
    | some t =>
      ensure (decide (o + bs.length ≤ t.length + sigLength)) (badField 16)
      zeroField r.bytes 0 20 24
      s.needFlash
      .ok (s.mboxFlash id fun s =>
        let s := s.flashWrite (slotImage 0 + o) (bs.take (t.length - o))
        let got := (t.received.filter fun c => decide (c.1 < o)) ++ (bs.zipIdx.map fun x => (o + x.2, x.1)) ++
          t.received.filter fun c => decide (o + bs.length ≤ c.1)
        ({ s with boot := { s.boot with recv := some { t with received := got } } }, Ending.ok 0 0, [])))

/-- RECOVERY_COMMIT checks the image and writes slot 0's header, activated; a warm reset follows (R451). -/
def execRecoveryCommit (r : MboxRequest) (s : State) : Host.Outcome State Fault Refusal :=
  .next (s.serveMbox r 0x12 (fun n => decide (n = 0)) fun s => do
    match s.boot.recv with
    | none => .error (badField 0)
    | some t =>
      ensure (decide (t.received.length = t.length + sigLength)) (badField 0)
      let img := (t.received.take t.length).map (·.2)
      let sig := (t.received.drop t.length).map (·.2)
      ensure (imageSigned img sig) (.fail .signatureInvalid 0)
      s.checkImage img
      ensure (decide (s.storeNat 2 ≤ fieldAt img 8 4)) (badField 0)
      s.needFlash
      .ok (s.mboxFlash (fun s => s.flashErase (slotHeader 0) 65536) fun s =>
        let seq := if slotHeaderOk (s.flashRead (slotHeader 1) 7924) then (s.slotSeq 1 + 1) % 2 ^ 32 else 1
        let s := s.flashWrite (slotHeader 0) (slotBytes seq img sig 0)
        ({ s with boot := { s.boot with warmDue := true } }, Ending.ok 0 0, [])))

/-! ### Flash timeouts (R370) -/

/-- A store bank is left invalid, with its entry. -/
def State.loseBank (s : State) : State := (s.flashErase (bankBase s.spareBank) 65536).logEvent 0x0101 11 s.spareBank noContext 0 0

/-- A firmware slot is left invalid, with its entry. -/
def State.loseSlot (s : State) (k : Nat) : State := (s.flashErase (slotHeader k) 65536).logEvent 0x0102 11 k noContext 0 0

/-- FLASH_TIMEOUT: an erase or a page program does not end in time: the operation ends with TIMEOUT, and its region stays invalid
(R370, R451). -/
def execFlashTimeout (s : State) : Host.Outcome State Fault Refusal :=
  .next (match s.boot.flashOp with
    | none => s
    | some op =>
      let s := s.flashEnd
      match op.cmd with
      | some w =>
        (match s.findCmd w.1 w.2 with
         | none => s
         | some c =>
           let s := s.finish c (.fail .timeout 64)
           if c.pkt.opcode = 0x0C06 then s.loseBank else s.loseSlot (if c.pkt.opcode = 0x0C03 then s.otherSlot else c.pkt.at 64 1))
      | none =>
        (match s.mbox.busy with
         | none => s
         | some r =>
           let s := if fieldAt r.bytes 0 2 = 5 then s.loseBank else s.loseSlot 0
           s.answerMbox r (.fail .timeout 0) []))

/-! ### The SMBus sideband (R436) -/

/-- Does an endpoint identifier reach the part: its own, or 0, or broadcast (DSP0236; PRESUMED, assumption 26). -/
def State.eidMatches (s : State) (e : Nat) : Bool := decide (e = s.side.eid) || decide (e = 0) || decide (e = 0xFF)

/-- An answer on its way to the sideband master: a transaction of the bus. -/
def State.sideAnswer (s : State) (t : Nat) (bs : List Byte) : State := { s with side := { s.side with answer := some (t, bs), busy := true } }

/-- The numeric sensors of PLDM: the 17 temperatures of telemetry set 0, then package power (R436). -/
def State.pldmReading (s : State) (id : Nat) : Option Int :=
  if id < 17 then some ((s.itemTemp id).getD 0) else if id = 17 then some (s.power.powerMw / 1000) else none

/-- MCTP control messages, type 0: the header byte with the request bit, the command code, its data (DSP0236; PRESUMED, assumption 26). -/
def State.mctpControl (s : State) (b : List Byte) : State :=
  let hd : List Byte := [BitVec.ofNat 8 (fieldAt b 0 1 % 32), BitVec.ofNat 8 (fieldAt b 1 1)]
  let ok : List Byte := [0]
  match fieldAt b 1 1 with
  | 1 =>
    let e := fieldAt b 3 1
    if b.length < 4 ∨ e = 0 ∨ e = 0xFF ∨ 1 < fieldAt b 2 1 % 4 then s.sideAnswer 0 (hd ++ [2])
    else ({ s with side := { s.side with eid := e } } : State).sideAnswer 0 (hd ++ ok ++ [0] ++ leBytes 1 e ++ [0])
  | 2 => s.sideAnswer 0 (hd ++ ok ++ leBytes 1 s.side.eid ++ [0, 0])
  | 4 => s.sideAnswer 0 (hd ++ (if fieldAt b 2 1 ∈ [0xFF, 0x00, 0x01, 0x7E] then ok ++ [1, 0xF1, 0xF3, 0xF1, 0x00] else [0x80]))
  | 5 => s.sideAnswer 0 (hd ++ ok ++ [3, 0x00, 0x01, 0x7E])
  | 6 =>
    let (v, s) := s.draw 32
    s.sideAnswer 0 (hd ++ (if fieldAt b 2 1 = 0 then ok ++ [0xFF] ++ leBytes 4 v else [2]))
  | _ => s.sideAnswer 0 (hd ++ [5])

/-- PLDM for platform monitoring, message type 1: GetSensorReading of a numeric sensor (DSP0248; PRESUMED, assumption 26). -/
def State.pldm (s : State) (b : List Byte) : State :=
  let hd : List Byte := [BitVec.ofNat 8 (fieldAt b 0 1 % 32), BitVec.ofNat 8 (fieldAt b 1 1), BitVec.ofNat 8 (fieldAt b 2 1)]
  if fieldAt b 1 1 % 64 ≠ 2 ∨ fieldAt b 2 1 ≠ 0x11 then s.sideAnswer 1 (hd ++ [5])
  else match s.pldmReading (fieldAt b 3 2) with
    | some v => s.sideAnswer 1 (hd ++ [0, 3, 0, 0, 0, 0, 0] ++ leBytes 2 (twos 16 v))
    | none => s.sideAnswer 1 (hd ++ [0x80])

/-- "Not ready" in the completion codes of MCTP control and PLDM, and a BUSY_RETRY response in the vendor-defined type (R436). -/
def State.sideBusy (s : State) (m : MctpMessage) : State :=
  if m.mtype = 0x7E then s.turnAwayMbox { sideband := true, bytes := m.body }
  else s.sideAnswer m.mtype (m.body.take (if m.mtype = 0 then 2 else 3) ++ [4])

/-- MCTP_REQUEST: control messages, PLDM sensors, and the mailbox's requests, each a MAINTENANCE request in the reserved slot (R392, R436,
R449). A malformed or misdirected message is dropped and counted (R418). -/
def execMctpRequest (m : MctpMessage) (s : State) : Host.Outcome State Fault Refusal :=
  .next (
    if s.boot.factory ∨ ¬ s.mboxServed ∨ (s.spare.state = .standby ∧ ¬ s.power.reqIo) then s
    else if ¬ s.eidMatches m.destEid ∨ m.mtype ∉ [0, 1, 0x7E] ∨ m.body.length < 2 then
      { s with power := { s.power with discarded := s.power.discarded.set 2 (s.power.discarded.getD 2 0 + 1) } }
    else
      let s : State := { s with side := { s.side with busy := false, answer := none } }
      if s.mbox.busy.isSome then s.sideBusy m
      else if m.mtype = 0 then s.mctpControl m.body
      else if m.mtype = 1 then s.pldm m.body
      else s.submitMbox { sideband := true, bytes := m.body })

/-- SMBUS_CLOCK_TIMEOUT: the transaction is abandoned, with the answer that it was carrying, and the bus released (R418). -/
def execSmbusClockTimeout (s : State) : Host.Outcome State Fault Refusal :=
  .next { s with side := { s.side with busy := false, answer := if s.side.busy then none else s.side.answer } }

/-! ### The TAP (R437) -/

/-- TAP_INSTRUCTION: EXTEST, CLAMP and HIGHZ act while PORST_N is low only, and as BYPASS otherwise; so does an instruction that the TAP does not
offer (IEEE 1149.1). -/
def execTapInstruction (code : Nat) (s : State) : Host.Outcome State Fault Refusal :=
  .next { s with side := { s.side with tap := if code ≤ 2 then code else if code ≤ 5 ∧ s.side.porst then code else 0 } }

end Sys2Proof.Machine
end

