-- ==== Sys2Proof/Machine/Boot.lean ====
section
/-! DEFINITION. Boot (22_boot_identity_store.md, R371, R384 to R386) and its stages: identity, flash, store, firmware, HBM4, DDR5, the
settings that the store gives the part, READY. -/

namespace Sys2Proof.Machine

/-! ### Stage 1: identity (R371 to R373) -/

/-- A copy of the manufacturing record. -/
def State.recordCopy (s : State) (k : Nat) : List Byte := s.flashRead (0x8000 * k) 12004

/-- The part accepts a copy whose MAGIC and CRC are correct (R371). -/
def recordGood (r : List Byte) : Bool := decide (r.take 4 = ascii "KVMR") && decide (crc32c (r.take 12000) = fieldAt r 12000 4)

/-- The seed that a copy and the PUF array give, when its PUF_CHECK matches (R371). -/
def seedOf (puf r : List Byte) : Option (List Byte) :=
  let x := Config.fuzzyExtract puf ((r.drop 16).take 4096)
  if sha256 (ascii "KVPUFCHK" ++ x) = (r.drop 4112).take 32 then some x else none

/-- A part without identity: cause IDENTITY (R371, R385). -/
def State.noIdentity (s : State) : State :=
  ({ s with boot := { s.boot with seed := none, endorsed := false } } : State).addCause 3 0

/-- Stage 1: the first accepted copy gives SERIAL and the endorsement, the first copy whose seed passes gives the identity; late says that 5 ms
have passed without a seed (R371, R384). -/
def State.identify (s : State) (puf : List Byte) (late : Bool) : State :=
  let rs := if s.boot.flashOk then ([0, 1].map s.recordCopy).filter recordGood else []
  let s := match rs with
    | [] => s
    | r :: _ => { s with boot := { s.boot with serial := fieldAt r 4 8, endorseKey := fieldAt r 12 1 % 2, endorsement := (r.drop 4144).take 7856 } }
  match if late then none else rs.findSome? (seedOf puf) with
  | none => s.noIdentity
  | some x =>
    let s : State := { s with boot := { s.boot with seed := some x } }
    { s with boot := { s.boot with
      endorsed := Config.slhVerify (Config.endorseKey s.boot.endorseKey) (leBytes 8 s.boot.serial ++ s.devicePublic) s.boot.endorsement } }

/-! ### Recovery (R386) -/

/-- In recovery both service-bus ports run discovery under CSMA/CD on their default settings. -/
def State.enterRecovery (s : State) : State :=
  { s with
    boot := { s.boot with recovery := true, slot := none }
    bus := { s.bus with ports := s.bus.ports.map fun e => (e.1, ({ SbPort.initial with counts := e.2.counts, sent := e.2.sent } : SbPort).begin) } }

/-! ### Stage 5: firmware start, POWER, FENCE, context 0 (R157, R384, R385, R415) -/

/-- The fields of the POWER key that fail their checks, by byte offset (R415); LIMIT_W is held against the boot profile's L. -/
def powerFaults (v : List Byte) : List Nat :=
  let l := [1500, 950, 600].getD (fieldAt v 0 1) 950
  let w := fieldAt v 4 2
  let avs := (List.range 4).map fun i => fieldAt v (6 + i) 1
  ([(0, decide (fieldAt v 0 1 ≤ 2)), (1, decide (fieldAt v 1 1 ≤ 1) || decide (fieldAt v 1 1 = 0xFF)), (2, decide (fieldAt v 2 1 < 2)),
    (3, decide (fieldAt v 3 1 = 0)), (4, decide (w = 0) || (decide (300 ≤ w) && decide (w ≤ l))),
    (6, (avs.all fun a => decide (a < 16)) && decide avs.Nodup), ((firstNonzero v 10 16).getD 10, zerosIn v 10 16)].filter fun e => !e.2).map (·.1)

/-- The POWER key is read at cold and warm reset; the boot profile is in force (R411, R415). The profile before QUIET is AIR when the part
boots into QUIET (assumption 89). -/
def State.readPower (s : State) : State :=
  let v := (s.forceKey 6).getD ([1, 0xFF, 1, 0, 0, 0, 0, 1, 2, 3] ++ zeros 6)
  let bad := powerFaults v
  let ok (o : Nat) : Bool := decide (o ∉ bad)
  let boot := if ok 0 then fieldAt v 0 1 else 1
  let s : State := { s with power := { s.power with
    bootProfile := boot, profile := boot, before := if boot = 2 then 1 else boot
    wakeProfile := if ok 1 then fieldAt v 1 1 else 0xFF
    peakAllowed := if ok 2 then bitOf (fieldAt v 2 1) 0 else true
    limitW := if ok 4 then fieldAt v 4 2 else 0
    avsAddr := if ok 6 then (List.range 4).map fun i => fieldAt v (6 + i) 1 else [0, 1, 2, 3] } }
  bad.foldl (fun (s : State) (o : Nat) => s.sensorEntry 60 o 7) s

/-- Queue 0 at boot. -/
def bootQueue : Queue := newQueue 0 0 0 0 0 50000 none

/-- The Proof core creates context 0 and queue 0 at boot (R157, R223). -/
def State.createAdmin (s : State) : State :=
  let c : Ctx := { newCtx true false (2 ^ s.plateCount - 1) 4096 0 0 0 5000 with slot := some 0 }
  ({ s with ctxs := Kv.set 0 c s.ctxs, queues := Kv.set 0 bootQueue s.queues } : State).newKey 0

/-- Stage 5 as it succeeds. -/
def State.startFirmware (s : State) : State :=
  let s := s.readPower
  (if (s.forceKey 5).isSome then s.addCause 2 0 else s).createAdmin

/-! ### Stage 6: HBM4 (R18) -/

/-- A stack failed its self-test or its training: cause HBM, with the failing stack (R18). -/
def State.stackFails (s : State) (k : Nat) : State :=
  ({ s with boot := { s.boot with failedStack := some k } } : State).addCause 1 k

/-! ### Stage 7: DDR5 (R19, R20) -/

/-- The modules by ascending channel. -/
def dimmOrder (ds : List DimmInput) : List DimmInput := (List.range 12).filterMap fun c => ds.find? fun d => decide (d.channel = c)

/-- Passes the type and capacity checks of R19. -/
def dimmOk (d : DimmInput) : Bool := (decide (d.kind = 1) || decide (d.kind = 2)) && decide (d.gib ≤ 128)

/-- The failing item of a module's checks against the reference module: 0 type, 1 capacity, 2 equality, 3 training (R19, whose items carry no
numbers: DESIGN CHOICE, assumption 131). -/
def dimmFault (ref d : DimmInput) : Option Nat :=
  if d.kind ≠ 1 ∧ d.kind ≠ 2 then some 0
  else if 128 < d.gib ∨ d.gib ≠ ref.gib then some 1
  else if d.kind ≠ ref.kind ∨ d.organisation ≠ ref.organisation then some 2
  else if d.trains then none else some 3

/-- The highest rate of a module, capped by its type (R20). -/
def dimmRate (d : DimmInput) : Nat := min d.rate (if d.kind = 2 then 8800 else 6400)

/-- Stage 7: the channels that pass are included; their sum is the DDR tier, and their lowest rate its rate (R19, R20). -/
def State.includeDdr (s : State) (ds : List DimmInput) : State :=
  let all := dimmOrder ds
  let ref : DimmInput := (all.find? dimmOk).getD { channel := 0, kind := 0, gib := 0, organisation := 0, rate := 0, trains := false }
  let good := all.filter fun d => (dimmFault ref d).isNone
  let s := all.foldl (fun (s : State) d => match dimmFault ref d with
    | some k => s.logEvent 0x0203 15 d.channel noContext 0 k
    | none => s) s
  { s with
    ddrChannels := (good.map fun d => 2 ^ d.channel).foldl (· + ·) 0
    ddrGib := (good.map (·.gib)).foldl (· + ·) 0
    ddrRate := ((good.map dimmRate).min?).getD 0
    boot := { s.boot with retrain := false } }

/-! ### Stage 8: fabric ports and service bus (R253, R265, R344) -/

/-- A failing part-wide field of the port-settings key (R253). -/
def partFault (v : List Byte) : Option Nat :=
  if fieldAt v 0 2 < 1024 then some 0
  else if 63 < fieldAt v 2 1 then some 2
  else if 63 < fieldAt v 3 1 then some 3
  else if 63 < fieldAt v 4 1 then some 4
  else firstNonzero v 5 16

/-- A failing field of port p's settings, as an offset in the key; a port of MODE 0 is checked no further (R253; assumption 92). -/
def portFault (v : List Byte) (p : Nat) : Option Nat :=
  let at' (q : Nat) : List Byte := (v.drop (16 + 48 * q)).take 48
  let b := at' p
  let mac (q : Nat) : Nat := beNat (((at' q).drop 4).take 6)
  let ip4 := beNat ((b.drop 12).take 4)
  let ip6 := beNat ((b.drop 16).take 16)
  let off := 16 + 48 * p
  if fieldAt b 0 1 = 0 then none
  else if 3 < fieldAt b 0 1 then some off
  else if fieldAt b 1 1 ≠ 0 then some (off + 1)
  else if fieldAt b 2 2 < 1518 ∨ 9216 < fieldAt b 2 2 then some (off + 2)
  else if bitOf (mac p / 2 ^ 40) 0 ∨ mac p = 0 ∨ (List.range 8).any (fun q => decide (q ≠ p) && decide (fieldAt (at' q) 0 1 ≠ 0) && decide (mac q = mac p)) then
    some (off + 4)
  else if 4094 < fieldAt b 10 2 then some (off + 10)
  else if (0xE000_0000 ≤ ip4 ∧ ip4 < 0xF000_0000) ∨ ip4 = 0xFFFF_FFFF then some (off + 12)
  else if ip6 / 2 ^ 120 = 0xFF ∨ (ip4 = 0 ∧ ip6 = 0) then some (off + 16)
  else if bitOf (beNat ((b.drop 32).take 6) / 2 ^ 40) 0 then some (off + 32)
  else (firstNonzero b 38 48).map (off + ·)

/-- A port with the settings of the key; its counts and its echo budget stay (R253). -/
def Port.configure (q : Port) (v : List Byte) (p : Nat) (refused fenced : Bool) : Port :=
  let b := (v.drop (16 + 48 * p)).take 48
  { mode := if refused || fenced then 0 else fieldAt b 0 1, maxFrame := fieldAt b 2 2, mac := beNat ((b.drop 4).take 6), vlan := fieldAt b 10 2
    ipv4 := beNat ((b.drop 12).take 4), ipv6 := beNat ((b.drop 16).take 16), gateway := beNat ((b.drop 32).take 6), refused := refused
    up := false, echoes := q.echoes, slot := none, waiting := [], counts := q.counts }

/-- The PORT entry of a refused setting (R253, R399). -/
def State.portRefused (s : State) (p off : Nat) : State := s.logEvent 0x0501 13 p noContext 0 (2 + off % 256 * 256)

/-- The fabric settings (R253); a fenced part keeps every port disabled (R385). Without the key every port is of MODE 0. -/
def State.readPorts (s : State) : State :=
  let v := (s.forceKey 0x10).getD (leBytes 2 46520 ++ [34, 26, 0] ++ zeros 395)
  let wide := partFault v
  let fenced := decide (2 ∈ s.boot.causes)
  let bad (p : Nat) : Bool := wide.isSome || (portFault v p).isSome
  let s : State := { s with fabric := { s.fabric with
    udpPort := if wide.isSome then 46520 else fieldAt v 0 2
    dscp := if wide.isSome then [34, 26, 0] else (List.range 3).map fun i => fieldAt v (2 + i) 1
    ports := (List.range 8).map fun p => (p, ((Kv.get p s.fabric.ports).getD Port.initial).configure v p (bad p) fenced)
    node := if s.spare.state = .awake then s.spare.node else ((s.forceKey 4).map leNat).getD 0xFFFF } }
  match wide with
  | some o => s.portRefused 0 o
  | none => (List.range 8).foldl (fun (s : State) p => match portFault v p with
    | some o => s.portRefused p o
    | none => s) s

/-- The default settings of the service bus (R344). -/
def sbDefaults (serial : Nat) : List Byte :=
  let port (first : Nat) : List Byte := [1, 0xFF, 0, 0, 32, 128, 0, 0] ++ beBytes 6 (first * 2 ^ 40 + serial % 2 ^ 40) ++ zeros 18
  zeros 33 ++ [7] ++ zeros 14 ++ port 0x06 ++ port 0x0A

/-- Does a part-wide field of the service-bus key fail (R344). -/
def sbWideOk (v : List Byte) : Bool :=
  decide (fieldAt v 32 1 < 8) && decide (1 ≤ fieldAt v 33 1) && decide (fieldAt v 33 1 ≤ 7) && zerosIn v 34 40 &&
    (!bitOf (fieldAt v 32 1) 0 || decide (fieldAt v 40 8 ≠ 0))

/-- Do the fields of a service-bus port pass (R344). -/
def sbPortOk (v : List Byte) (p : Nat) : Bool :=
  let b := (v.drop (48 + 32 * p)).take 32
  let mac (q : Nat) : Nat := beNat ((v.drop (48 + 32 * q + 8)).take 6)
  let id := fieldAt b 1 1
  let n := fieldAt b 2 1
  let held := fieldAt b 6 2
  decide (fieldAt b 0 1 ≤ 2) && (decide (id ≤ 15) || decide (id = 0xFF)) &&
    (decide (n = 0) || (decide (n ≤ 16) && ((List.range 16).all fun i => !(bitOf held i || decide (id = i)) || decide (i < n)))) &&
    decide (fieldAt b 3 1 ≤ 7) && decide (32 ≤ fieldAt b 4 1) && decide (128 ≤ fieldAt b 5 1) && !(decide (id ≤ 15) && bitOf held id) &&
    !bitOf (mac p / 2 ^ 40) 0 && decide (mac 0 ≠ mac 1) && decide (fieldAt b 14 1 < 2) && zerosIn b 15 32

/-- A service-bus port with the settings of the key, its medium access as it was. -/
def SbPort.configure (q : SbPort) (v : List Byte) (p : Nat) (refused : Bool) : SbPort :=
  let b := (v.drop (48 + 32 * p)).take 32
  { q with
    refused := refused, mode := if refused then 0 else fieldAt b 0 1, wanted := fieldAt b 1 1, nodeCount := fieldAt b 2 1, maxBc := fieldAt b 3 1
    toTimer := fieldAt b 4 1, burst := fieldAt b 5 1, reserved := fieldAt b 6 2, mac := beNat ((b.drop 8).take 6), deliver := bitOf (fieldAt b 14 1) 0 }

/-- The service-bus settings. After a warm reset a port whose settings are as they were goes on; any other begins; a cold
reset has left both off (R344, R411). A port that
AUXCLK_25 has stopped stays so (R409). The DATA of the entry for a refused setting is open (assumption 93). -/
def State.readBus (s : State) : State :=
  let v := (s.forceKey 0x11).getD (sbDefaults s.boot.serial)
  let bad (p : Nat) : Bool := !(sbWideOk v && sbPortOk v p)
  let port (p : Nat) : SbPort :=
    let old := (Kv.get p s.bus.ports).getD SbPort.initial
    let new := old.configure v p (bad p)
    if s.power.auxLost then { new.begin with phase := .off } else if new ≠ old ∨ old.phase = .off then new.begin else new
  let wide := sbWideOk v
  let s : State := { s with bus := { s.bus with
    key := if v.take 32 = zeros 32 then none else some (v.take 32)
    flags := if wide then fieldAt v 32 1 else 0, hops := if wide then fieldAt v 33 1 else 7, exportTo := fieldAt v 40 8
    ports := bothPorts.map fun p => (p, port p) } }
  (bothPorts.filter bad).foldl (fun (s : State) p =>
    let (d, s) := s.draw 64
    s.sbEvent p d) s

/-! ### Stage 9: READY (R378, R383) -/

/-- The boot count of a cold reset, and the rollback floor. -/
def State.reachReady (s : State) : State :=
  let s := if s.boot.counted then s
    else
      let s := s.ownStore 1 (leBytes 4 (s.storeNat 1 + 1))
      { s with boot := { s.boot with counted := s.boot.seed.isSome } }
  if s.boot.raiseFloor ∧ s.storeNat 2 < s.boot.svn then s.ownStore 2 (leBytes 4 s.boot.svn) else s

/-! ### The stages in order (R384) -/

/-- A stage as it runs within its limit. Of several failing stacks the lowest enters the trouble log, as R441 has it for the register: R18 does
not say (DESIGN CHOICE, assumption 123). -/
def State.runStage (s : State) (e : BootInput) (k : Nat) : State :=
  match k with
  | 1 => s.identify e.puf false
  | 2 => if s.boot.flashOk then s else s.enterRecovery
  | 3 => s.selectStore
  | 4 =>
    let s := s.selectFw 3 [0, 1]
    if s.boot.recovery then s.enterRecovery else s
  | 5 => s.startFirmware
  | 6 => match e.badStacks.min? with
    | some b => s.stackFails (b % 12)
    | none => s
  | 7 => if s.boot.retrain then s.includeDdr e.dimms else s
  | 8 => s.readPorts.readBus
  | _ => s.reachReady

/-- A stage as it fails on its limit (R384). The stack that stage 6 waits for, and the code of stage 5's entry, are open (assumption 93). -/
def State.failStage (s : State) (e : BootInput) (k : Nat) : State :=
  match k with
  | 1 => s.identify e.puf true
  | 2 => s.enterRecovery
  | 3 => { s with boot := { s.boot with bank := none, storeSeq := 0, store := [], inForce := [] } }
  | 4 => s.enterRecovery
  | 5 =>
    let (code, s) := s.draw 16
    ({ s with boot := { s.boot with halted := true } } : State).logEvent code 11 0 noContext 0 5
  | 6 =>
    let (v, s) := s.draw 8
    s.stackFails (v % 12)
  | _ => s.includeDdr e.dimms

/-- Has boot come to its end before READY: recovery, or a part that waits for reset. -/
def State.bootStopped (s : State) : Bool := s.boot.recovery || s.boot.halted || s.boot.factory

/-- Stages in order, until one does not end within its limit or boot stops; no limit runs in stages 8 and 9. -/
def State.bootFrom (e : BootInput) : List Nat → State → State
  | [], s => { s with boot := { s.boot with running := false } }
  | k :: ks, s =>
    if e.late = some k ∧ k ≤ 7 then { s with boot := { s.boot with running := true } }
    else
      let s := s.runStage e k
      if s.bootStopped then { s with boot := { s.boot with running := false } }
      else ({ s with boot := { s.boot with stage := k } } : State).bootFrom e ks

/-- The stages from k on. -/
def stagesFrom (k : Nat) : List Nat := (List.range 10).filter fun i => decide (k ≤ i)

/-- What the flash holds as boot finds it: something other than the part may have written it (R369). -/
def State.meetFlash (s : State) (e : BootInput) : State :=
  { s with boot := { s.boot with
    flash := e.flash.foldl (fun f x => flashPut f x.1 [x.2]) s.boot.flash, flashOk := e.flashOk, drbg := (s.boot.drbg.1 + 1, 0) } }

/-- BOOT_STAGE_TIMEOUT: the stage that runs exceeds its limit, and boot goes on, degrades or enters recovery (R384). -/
def execBootStageTimeout (e : BootInput) (s : State) : Host.Outcome State Fault Refusal :=
  .next (if ¬ s.boot.running then s
    else
      let k := s.boot.stage + 1
      let s := s.failStage e k
      if s.bootStopped then { s with boot := { s.boot with running := false } }
      else ({ s with boot := { s.boot with stage := k } } : State).bootFrom e (stagesFrom (k + 1)))

end Sys2Proof.Machine
end

