-- ==== Sys2Proof/Machine/Resets.lean ====
section
/-! DEFINITION. Resets (24_power_clocks_reset.md, R402 to R412): cold, warm, PERST#, watchdog and delayed warm resets, recovery of rails and of
FABCLK_156M25, the wake of a spare, Function Level Reset, and VAUX_3V3. -/

namespace Sys2Proof.Machine

/-- The RESET entry (R399, R410): cause 0 cold, 1 warm, 2 PERST#, 3 FLR, 4 watchdog, and the boot stage reached before it (assumption 90). -/
def State.resetEntry (s : State) (cause stage : Nat) : State := s.logEvent 0x0001 11 0 noContext 0 (cause + 256 * stage)

/-! ### Cold reset (R404, R410, R411) -/

/-- What PORST_N leaves: the state of reset, with what a cold reset keeps: the trouble log, the flash, the enciphered DDR tier and host memory,
and the fused sites. -/
def State.coldState (s : State) : State :=
  let r := State.reset
  { r with
    pending := s.pending, free := s.free, sites := s.sites, log := s.log
    plates := (List.range s.sites.length).map fun i => (i, Plate.initial)
    mem := { r.mem with
      cells := s.mem.cells.filter fun c => decide (ddrBase ≤ c.1)
      badLines := s.mem.badLines.filter fun l => decide (ddrBase ≤ l)
      stale := s.mem.stale, ddrLast := s.mem.ddrLast, claims := s.mem.claims }
    stylus := { r.stylus with keySerial := s.stylus.keySerial }
    boot := { r.boot with flash := s.boot.flash, drbg := s.boot.drbg }
    power := { r.power with alert := s.power.alert, board := s.power.board }
    side := { r.side with tap := s.side.tap } }

/-- COLD_RESET: PORST_N has been low, and rises: boot runs every stage, or none with TEST_EN high (R384, R411, R433). It clears what waits for
PORST_N: a trip, a rail that was given up, a failed regulator (R405, R407, R424). -/
def execColdReset (e : BootInput) (s : State) : Host.Outcome State Fault Refusal :=
  .next (
    let stage := s.boot.stage
    let s := (s.coldState.resetEntry 0 stage).meetFlash e
    if e.testEn then { s with boot := { s.boot with factory := true } } else s.bootFrom e (stagesFrom 1))

/-! ### Warm reset (R410, R411) -/

/-- May a warm reset run: the part is not held by PORST_N, a trip, a rail or clock fault, factory test, or STANDBY (assumption 91). -/
def State.warmable (s : State) : Bool :=
  !s.side.porst && !s.boot.factory && !s.power.tripped && decide (s.power.rail = .normal) && !s.power.fabLost && decide (s.spare.state ≠ .standby)

/-- What a warm reset leaves. A part that has no seed keeps the cause IDENTITY, FENCED is found again at stage 5, HBM is left by a cold reset
only (R385, R411). -/
def State.warmState (s : State) : State :=
  let s := s.clearCore
  let causes := s.boot.causes.filter fun k => decide (k ≠ 2)
  { s with
    mgmtOnly := !causes.isEmpty
    power := { s.power with stopped := false, waking := false, reqCore := true, reqIo := true, changes := [], busy := [], gated := [] }
    boot := { s.boot with
      stage := 2, running := false, recovery := false, halted := false, causes := causes, flashOp := none, recv := none, warmDue := false, slot := none }
    mbox := { s.mbox with busy := none }
    host := { s.host with up := false, latch := none }
    fabric := { s.fabric with ports := s.fabric.ports.map fun x => (x.1, { x.2 with up := false, slot := none }) }
    bus := { s.bus with takeover := (0, []) }
    spare := { s.spare with state := .active } }

/-- A warm reset: the state it leaves, the entry, and boot from stage 3; a part without a seed, whose boot had not come to that, has the cause
IDENTITY (R384). -/
def State.warmReset (s : State) (e : BootInput) (cause : Nat) : State :=
  let stage := s.boot.stage
  let s := (s.warmState.resetEntry cause stage).meetFlash { e with flashOk := s.boot.flashOk }
  let s := if s.boot.seed.isNone ∧ 3 ∉ s.boot.causes then s.noIdentity else s
  s.bootFrom e (stagesFrom 3)

/-- WARM_RESET: WARM_N low for 10 µs (R410). -/
def execWarmReset (e : BootInput) (s : State) : Host.Outcome State Fault Refusal := .next (if s.warmable then s.warmReset e 1 else s)

/-- PERST_RESET: a warm reset, and the host link is settled again; configuration space and MSI-X are reset as PCIe has it (R410, R411). -/
def execPerstReset (e : BootInput) (s : State) : Host.Outcome State Fault Refusal :=
  .next (if s.warmable then
      let s := s.warmReset e 2
      { s with host := { s.host with settled := false, heldDown := false, lost := false, msixTable := [], msixPending := [] } }
    else s)

/-- WATCHDOG_RESET: eight boundaries missed, once boot stage 5 is complete (R391, R410). -/
def execWatchdogReset (e : BootInput) (s : State) : Host.Outcome State Fault Refusal :=
  .next (if s.warmable ∧ 5 ≤ s.boot.stage then s.warmReset e 4 else s)

/-- DELAYED_WARM_RESET: 10 ms after a debug WARM_RESET or a recovery commit (R355, R451). -/
def execDelayedWarmReset (e : BootInput) (s : State) : Host.Outcome State Fault Refusal :=
  .next (if s.warmable ∧ s.boot.warmDue then s.warmReset e 1 else s)

/-! ### Recovery of rails and clocks (R405, R409) -/

/-- RAIL_RECOVERED: every rail has been back in its window for 10 ms: a warm reset with new training; one that FABCLK_156M25 holds up runs once
that clock is back (R405, R409). -/
def execRailRecovered (e : BootInput) (s : State) : Host.Outcome State Fault Refusal :=
  .next (if s.power.rail ≠ .rising ∨ s.power.tripped then s
    else
      let s : State := { s with power := { s.power with rail := .normal, tries := 0 } }
      if s.warmable then s.warmReset e 1 else s)

/-- FABCLK_RESTORED: the clock has been stable for 10 ms: a warm reset, which a rail that is still down holds up (R405, R409). -/
def execFabclkRestored (e : BootInput) (s : State) : Host.Outcome State Fault Refusal :=
  .next (if ¬ s.power.fabLost then s
    else
      let s : State := { s with power := { s.power with fabLost := false } }
      if s.warmable then s.warmReset e 1 else s)

/-! ### The wake of a spare (R337, R406) -/

/-- WAKE_RAILS_IN_WINDOW: boot from stage 3 with full training; the spare is AWAKE and its node number is STANDBY_NODE. Its route-map banks,
loaded before it slept, are kept, since the promotion bank is one of them (R268, R269; DEDUCED, assumption 95). -/
def execWakeRailsInWindow (e : BootInput) (s : State) : Host.Outcome State Fault Refusal :=
  .next (if ¬ s.power.waking ∨ s.power.tripped ∨ s.power.fabLost ∨ s.power.rail ≠ .normal then s
    else
      let w := s.warmState
      let w : State := { w with
        boot := { w.boot with retrain := true }
        fabric := { w.fabric with banks := s.fabric.banks, active := s.fabric.active }
        spare := { w.spare with state := .awake } }
      (w.meetFlash { e with flashOk := s.boot.flashOk }).bootFrom e (stagesFrom 3))

/-! ### Function Level Reset (R412) -/

/-- A queue is gone: its commands, whatever they had begun, leave without a record. -/
def State.silence (s : State) (gone : Cmd → Bool) : State :=
  let cs := s.cmds.filter gone
  let s := cs.foldl (fun (s : State) c => s.unhook c) s
  { s with cmds := s.cmds.filter fun c => !gone c }

/-- FUNCTION_LEVEL_RESET (R412): every context but 0 is stopped and destroyed with its queues, queue pairs, streams and manifests; of context
0 only queue 0 is left, as at boot; MSI-X is reset. Route maps, epochs, strokes and the fabric are untouched. -/
def execFunctionLevelReset (s : State) : Host.Outcome State Fault Refusal :=
  .next (if ¬ s.ready then s
    else
      let s := s.resetEntry 3 s.boot.stage
      let s := s.silence fun _ => true
      let mine (k : Nat) : Bool := ((s.qp k).map fun q => decide (q.owner ≠ 0)).getD false
      let s := if s.host.admqState = 1 then s.closeAdmq else s
      let s : State := { s with
        queues := [(0, bootQueue)], preds := []
        stylus := { s.stylus with
          qps := s.stylus.qps.filter fun x => decide (x.2.owner = 0), chip := s.stylus.chip.filter fun k => !mine k
          miss := s.stylus.miss.filter fun m => !mine m.1 }
        streams := s.streams.filter fun x => decide (x.2.owner = 0)
        spare := { s.spare with fill := none, serve := s.spare.serve.filter fun f => !mine f.qp, promoting := none }
        host := { s.host with
          admqState := 0, enable := false, msixTable := [], msixPending := [], latch := none, faultSummary := s.host.faultSummary.filter fun n => decide (n = 0) } }
      let others := (s.ctxs.map (·.1)).filter fun n => decide (n ≠ 0)
      others.foldl (fun (s : State) n => (s.destroyCtx n).1) s)

/-! ### VAUX_3V3 (R398, R402, R404) -/

/-- The auxiliary domain is reset: nothing is left but the flash and what lies outside the part; PORST_N is low (R402, R404). -/
def State.auxReset (s : State) : State :=
  let c := s.coldState
  { c with
    log := { slots := [], nextSeq := 1, thisStroke := 0, dropped := 0, droppedAll := 0 }
    boot := { c.boot with seed := none }
    power := { c.power with stopped := true, alert := none }
    side := { c.side with porst := true } }

/-- VAUX_3V3_LOSS: the trouble log and the identity seed are lost (R371, R402). -/
def execVaux3v3Loss (s : State) : Host.Outcome State Fault Refusal := .next s.auxReset

/-- VAUX_3V3_POWER_ON: the log is zeros and SEQ restarts; the part waits under PORST_N (R398, R404). -/
def execVaux3v3PowerOn (s : State) : Host.Outcome State Fault Refusal := .next s.auxReset

end Sys2Proof.Machine
end

