-- ==== Sys2Proof/Machine/Admit.lean ====
section
/-! DEFINITION. Admission (R165): the checks that a group must pass, the admission pass of a dispatcher, and the completion of a command whose
last effect is done (R170, R236). -/

namespace Sys2Proof.Machine

/-! ### Checks of one command (R159, R165, R182) -/

/-- Opcodes that only a context with ADMIN may use (R182). -/
def adminOps : List Nat :=
  [0x0101, 0x0102, 0x0904, 0x0905, 0x0906, 0x0A07, 0x0A08, 0x0A09, 0x0C03, 0x0C04, 0x0C05, 0x0C06, 0x0C07, 0x0C09, 0x0D01, 0x0D02, 0x0D03]

/-- Opcodes that the management-only state leaves legal: class 0x0C and the queries (R178, R182). -/
def mgmtOp (op : Nat) : Bool := decide (op / 256 = 0x0C) || decide (op ∈ [0x0103, 0x0108, 0x0D04])

/-- BUDGET, WAIT, SIGNAL, COMPLETION TAG and the reserved bytes, in the order of R159's table. -/
def State.checkTail (s : State) (n : Nat) (c : Cmd) : Check := do
  let p := c.pkt
  ensure (decide (p.budget = 0) || (decide (1024 ≤ p.budget) && decide (p.budget ≤ s.leastWindow))) (badField 20)
  ensure (decide (c.seq = c.group) || decide (p.wait = 0)) (badField 24)
  ensure (s.inkFieldBad n p.wait).isNone (.fail .mediaError 24)
  ensure (s.inkFieldOk n p.wait false) (if s.inkFieldPin n p.wait then .fail .descRange 24 else badField 24)
  ensure (s.inkFieldBad n p.signal).isNone (.fail .mediaError 32)
  ensure (s.inkFieldOk n p.signal true) (if s.inkFieldPin n p.signal then .fail .descRange 32 else badField 32)
  ensure (decide (p.tag = 0) || s.tagOk n p.tag) (badField 40)
  zeroBytes p 48 59

/-- The privilege of R182 and the management-only state of R18; a CONTEXT_DESTROY of context 0 fails as R185 says, whatever issues it. -/
def State.checkPrivilege (s : State) (x : Ctx) (p : Packet) : Check := do
  let op := p.opcode
  ensure (decide (op ≠ 0x0102) || decide (p.at 64 2 ≠ 0)) (.fail .accessDenied 64)
  ensure (x.admin || decide (op ∉ adminOps)) (.fail .accessDenied 0)
  ensure (x.debug || decide (op ≠ 0x0604)) (.fail .accessDenied 0)
  ensure (!s.mgmtOnly || mgmtOp op) (conflict scManagementOnly)

/-- The parameter fields of a command, by its opcode (R183 to R201). INK_OVERRIDE is checked when it runs, since every admitted one is
logged (R194, R251). -/
def State.fieldCheck (s : State) (c : Cmd) (x : Ctx) : Check :=
  let p := c.pkt
  let v := c.view s
  let n := v.ctx
  match p.opcode with
  | 0x0101 => s.checkContextCreate p
  | 0x0102 => s.checkContextDestroy n x p
  | 0x0103 => do s.checkTarget n x p false; zeroBytes p 66 79
  | 0x0104 => s.checkQueueCreate n x p
  | 0x0105 => s.checkQueueDestroy n x p
  | 0x0106 => s.checkQueueDrain n x p
  | 0x0107 => s.checkQueueStart n x p
  | 0x0108 => do s.checkTarget n x p true; zeroBytes p 66 79
  | 0x0201 => s.checkMemRegister n x p
  | 0x0202 => s.checkMemRelease n x p
  | 0x0203 => s.checkMemPin n x p
  | 0x0204 => s.checkMemUnpin n x p
  | 0x0205 => checkDescCreate x p
  | 0x0206 => s.checkDescRelease n x p
  | 0x0207 => checkDmaCopy x p
  | 0x0208 => s.checkFaultResume n p
  | 0x0209 => checkRange x p
  | 0x0301 => s.checkLinear x v p (s.earlierPred c)
  | 0x0302 => s.checkStipple x v p (s.earlierPred c)
  | 0x0303 | 0x0304 | 0x0305 => s.checkAttn x v p
  | 0x0306 => s.checkGradPolicy v x p false
  | 0x0401 => s.checkTracer x v p
  | 0x0501 => s.checkRoute c v p
  | 0x0502 => s.checkExit v p
  | 0x0503 => s.checkMask v p
  | 0x0601 => s.checkInkInit n p
  | 0x0602 => s.checkInkRead n p
  | 0x0701 => s.checkQpCreate p
  | 0x0702 => s.checkQpConnect n p
  | 0x0703 | 0x0707 => do let _ ← s.needQp n (p.at 64 4) 64; zeroBytes p 68 79
  | 0x0704 => s.checkPostRecv n x p
  | 0x0705 | 0x0706 => s.checkPost n x p
  | 0x0801 => s.checkXhGroup n x p false
  | 0x0802 => s.checkXhReduce n x p
  | 0x0803 => s.checkXhAbort n x p
  | 0x0804 => s.checkPrefetchHint n x p
  | 0x0901 => s.checkManifestLoad n p
  | 0x0902 => s.checkShardSend n p
  | 0x0903 => s.checkShardReceive n x p
  | 0x0904 => s.checkBaseInstall n x p
  | 0x0905 => s.checkBaseMap p
  | 0x0906 => s.checkBaseRetire p
  | 0x0A01 => s.checkTensorClass n x p
  | 0x0A02 | 0x0A04 => s.checkSave n x p
  | 0x0A03 => s.checkRestore n x p
  | 0x0A05 => s.checkLedgerSet n x p
  | 0x0A06 => s.checkReplay n x p false
  | 0x0A07 => s.checkSpareArm p
  | 0x0A08 => s.checkSparePromote n p
  | 0x0A09 => s.checkPlacementSet p
  | 0x0B01 => s.checkStreamOpen n p
  | 0x0B02 => s.checkStreamFeed v x p
  | 0x0B03 => s.checkStreamClose n p
  | 0x0C01 => s.checkAttest n p
  | 0x0C02 => s.checkSessionKey n c false
  | 0x0C03 => s.checkFwStage n p
  | 0x0C04 => s.checkFwActivate p
  | 0x0C05 => s.checkConfigRead n p
  | 0x0C06 => s.checkConfigWrite c false
  | 0x0C07 => s.checkLogRead n p
  | 0x0C08 => s.checkTelemetry n x p
  | 0x0C09 => State.checkProfileSet p
  | 0x0D01 => s.checkStrokeSet p
  | 0x0D02 => s.checkRoutemapLoad n p
  | 0x0D03 => s.checkRoutemapSwitch p
  | 0x0D04 => zeroBytes p 64 79
  | _ => .ok ()

/-- Does a failing field check refuse the group (R165): every check of a field does; a refusal by a present state is left to the command's own run,
but for the commands that admission itself records (DEDUCED, assumption 96). -/
def refusesGroup (c : Cmd) (e : Ending) : Bool :=
  decide (c.pkt.opcode ∈ [0x0802, 0x0804, 0x0903]) ||
    decide (e.status ∈ [Status.badField, .badLength, .badOpcode, .accessDenied, .descRange, .noResource, .epochStale, .mediaError])

/-- Does a range over a base window lie within the window's current size; an invalid window's addresses fault when they are used (R321). -/
def Ctx.windowOk (x : Ctx) (r : Nat × Nat) : Bool :=
  (x.allocAt r.1).isSome ||
  match (x.windows.filter fun w => decide (w.va ≤ r.1)).mergeSort (fun a b => decide (b.va ≤ a.va)) with
  | [] => true
  | w :: _ => !w.valid || decide (r.1 + r.2 ≤ w.va + w.sizeGib * 2 ^ 30)

/-- The first handle field whose descriptor leaves its window (R321). -/
def State.windowBreach (s : State) (x : Ctx) (n : Nat) (p : Packet) : Option Nat :=
  (p.handleFields.find? fun f => match s.desc n (p.at f.1 4) with
    | some d => !d.ranges.all x.windowOk
    | none => false).map (·.1)

/-- The dW extents that a command binds: step, base, bytes, layer, tensor (R122). -/
def State.dwExtents (s : State) (n : Nat) (p : Packet) : List (Nat × Nat × Nat × Nat × Nat) :=
  if p.opcode = 0x0301 ∧ p.formsDw then
    match s.desc n (p.at 104 4) with
    | some d => d.ranges.map fun r => (p.par 0 5, r.1, r.2, p.par 6 2, p.par 8 2)
    | none => []
  else []

/-- Do two bindings of one step name one place for different tensors (R122). -/
def dwClash (a b : Nat × Nat × Nat × Nat × Nat) : Bool :=
  decide (a.1 = b.1) && rangesOverlap [(a.2.1, a.2.2.1)] [(b.2.1, b.2.2.1)] && decide (a.2.2.2 ≠ b.2.2.2)

/-- Does a COPY's padding meet another descriptor with WRITE that a command of the group names; "another" is judged by the handle
(R97; assumption 48). -/
def State.padBreach (s : State) (c : Cmd) (group : List Cmd) : Bool :=
  let v := c.view s
  let pads := if c.pkt.opcode = 0x0401 then s.padBytes v c.pkt else []
  !pads.isEmpty && group.any fun d => d.pkt.handleFields.any fun f =>
    decide (d.pkt.at f.1 4 ≠ c.pkt.par 24 4) && match s.desc v.ctx (d.pkt.at f.1 4) with
      | some x => x.canWrite && rangesOverlap pads x.ranges
      | none => false

/-- What R142 asks of a plate or Stencil command beyond its budget's range: its unit floor, and the tray-drain bound. -/
def State.checkBudget (s : State) (c : Cmd) : Check := do
  let p := c.pkt
  ensure (c.unitRef.isNone || decide (s.unitFloor (c.view s) p ≤ min (s.fullBudget c) s.leastWindow)) (badField 20)
  ensure (decide (p.opcode ≠ 0x0301) || decide (max (384 * p.listCost) 384 ≤ 70 * s.leastPeriod)) (badField (p.epiOffset 0))

/-- Every check of one command of a group (R165): the earlier and all commands of its group. -/
def State.admissionCheck (s : State) (x : Ctx) (earlier group : List Cmd) (c : Cmd) : Check := do
  let p := c.pkt
  let n := (c.view s).ctx
  match c.failed with
  | some e => .error e
  | none =>
    s.checkTail n c
    s.checkPrivilege x p
    match s.fieldCheck c x with
    | .error e => ensure (!refusesGroup c e) e
    | .ok _ => s.checkBudget c
    match s.windowBreach x n p with
    | some off => .error (.fail .descRange off)
    | none => .ok ()
    ensure (!(s.dwExtents n p).any fun a => (x.dwBound ++ earlier.flatMap fun d => s.dwExtents n d.pkt).any (dwClash a)) (conflict scParamBound)
    ensure (!s.padBreach c group) (badField 82)

/-- The failures of a group, command by command. -/
def State.groupFailures (s : State) (x : Ctx) (group : List Cmd) : List (Option Ending) :=
  group.zipIdx.map fun g => (s.admissionCheck x (group.take g.2) group g.1).fails

/-! ### Admitting a group (R165) -/

/-- The step that a command carries under R4: the numbering block's, or that of XH_ABORT, a save or REPLAY. -/
def carriedStep (p : Packet) : Option Nat :=
  if numbered p.opcode ∨ p.opcode ∈ [0x0803, 0x0A02, 0x0A04, 0x0A06] then some (p.par 0 5) else none

/-- A context after a command with a step has been admitted: a higher step becomes the step in progress (R4, R122). -/
def Ctx.atStep (x : Ctx) (step : Nat) : Ctx :=
  if x.step < step then { x with step := step, stepSeen := true, overridden := false, dwBound := [] }
  else { x with stepSeen := x.stepSeen || decide (step = x.step) }

/-- What an admission binds a command to: the context's valid windows, and no others (R321). -/
def Ctx.binding (x : Ctx) : List Bound := .admitted :: (x.windows.filter (·.valid)).map .window

/-- One command of a group is admitted. -/
def State.admitCmd (s : State) (n : Nat) (c : Cmd) : State :=
  let p := c.pkt
  let s := if numbered p.opcode then (s.noteAdmission n p).noteWrites n p else s
  let s := match carriedStep p with
    | some k => s.updCtx n fun x => x.atStep k
    | none => s
  let s := s.updCtx n fun x => { x with dwBound := x.dwBound ++ s.dwExtents n p }
  let s := if p.opcode = 0x0802 then s.admitBucket n p else s
  ((s.noteShard p).noteRound n p).noteStream c

/-- The commands of a group become admitted, bound to the epochs of the moment, each with its full budget (R142, R321). -/
def State.admitGroup (s : State) (n : Nat) (x : Ctx) (group : List Cmd) : State :=
  let take (d : Cmd) : Cmd :=
    if (group.any fun c => decide (c.queue = d.queue ∧ c.seq = d.seq)) then
      { d with phase := .admitted, admitted := s.strk.now, place := s.admissions, budget := s.fullBudget d, bound := x.binding }
    else d
  let s : State := { s with cmds := s.cmds.map take, admissions := s.admissions + 1 }
  group.foldl (fun (s : State) c => s.admitCmd n c) s

/-- A group that a check refuses: its failing commands end with their own status, the others with GROUP_ENDED, and none runs (R165). -/
def State.refuseGroup (s : State) (group : List Cmd) (fails : List (Option Ending)) : State :=
  (group.zip fails).foldl (fun (s : State) g =>
    let s := match g.2 with
      | some e => (s.notePin (g.1.view s).ctx g.1 e).noteWalk (g.1.view s).ctx g.1 e
      | none => s
    s.updCmd g.1.queue g.1.seq fun d => { d with phase := .finished (g.2.getD (conflict scGroupEnded)) }) s

/-- The oldest group of a queue that is wholly visible and not admitted (R161). -/
def State.visibleGroup (s : State) (q : Nat) : List Cmd := ((s.visibleGroups q).head?).getD []

/-- Do the present conditions of R165 hold beyond the checks: the wait, residence, the decisions of R126. -/
def State.groupReady (s : State) (n : Nat) (x : Ctx) (group : List Cmd) : Bool :=
  decide (s.inkWaitHolds n ((group.head?.map (·.pkt.wait)).getD 0) = some true) && x.slot.isSome &&
    group.all fun c => !s.decisionPending n c.pkt

/-- One queue in an admission pass: the state, and whether a group was admitted. -/
def State.passQueue (s : State) (q : Nat) : State × Bool :=
  match Kv.get q s.queues with
  | none => (s, false)
  | some k =>
    match Kv.get k.owner s.ctxs, s.visibleGroup q with
    | none, _ => (s, false)
    | _, [] => (s, false)
    | some x, f :: t =>
      if k.state = .stopped ∨ 64 ≤ k.held.length then (s, false)
      else
        let group := f :: t
        let view := group.map fun c => { c with bound := x.binding }
        let fails := s.groupFailures x view
        let s := s.inkSample k.owner f.pkt.wait
        if fails.any (·.isSome) then (s.refuseGroup group fails, false)
        else if s.groupReady k.owner x group then (s.admitGroup k.owner x view, true)
        else (s, false)

/-- The queues of a dispatcher in the order of a pass: ascending, after the one served last (R165). -/
def passOrder (d last : Nat) : List Nat :=
  (List.range 256).map fun i => 256 * d + (last + 1 + i) % 256

/-- A pass is the first one of every whole group that it meets for the first time (R169). -/
def State.markPass (s : State) (d : Nat) : State :=
  { s with cmds := s.cmds.map fun c =>
    if c.queue / 256 = d ∧ s.inWhole c then { c with firstPass := some (c.firstPass.getD s.strk.now) } else c }

/-- An admission pass of dispatcher d (R165). -/
def State.pass (s : State) (d : Nat) : State :=
  match s.dispatchers[d]? with
  | none => s
  | some k =>
    (passOrder d k.last).foldl (fun (s : State) q =>
      let r := s.passQueue q
      if r.2 then { r.1 with dispatchers := r.1.dispatchers.set d { last := q } } else r.1) (s.markPass d)

/-- ADMISSION_PASS: a further pass within the stroke (R165). -/
def execAdmissionPass (dispatcher : Nat) (s : State) : Host.Outcome State Fault Refusal :=
  .next (if s.power.stopped then s else s.pass dispatcher)

/-! ### Completion (R170, R236) -/

/-- A command that ends PREEMPTED counts for the drain that cancelled it (R182, R184). -/
def State.countCancelled (s : State) (q : Nat) (e : Ending) : State :=
  if e.status = .preempted then
    s.updQueue q fun x => { x with drain := x.drain.map fun d => if d.cancel then { d with cancelled := d.cancelled + 1 } else d }
  else s

/-- What a command leaves behind in the engines when it completes (R125, R304, R333, R334, R363, R368). -/
def State.settle (s : State) (c : Cmd) (e : Ending) : State :=
  let n := (c.view s).ctx
  let p := c.pkt
  let bad := decide (e.status ≠ .done)
  let s := (s.extendRound n p (!bad)).countCancelled c.queue e
  let s : State := if p.opcode = 0x0802 then
      { s with buckets := s.buckets.filter fun b => ¬ (b.queue = c.queue ∧ b.seq = c.seq) } else s
  let s := if p.opcode = 0x0B02 ∨ p.opcode = 0x0B03 then s.updStream (p.par 0 1) fun x => x.drop c.queue c.seq else s
  let s := if p.opcode = 0x0B02 then s.tryClose (p.par 0 1) else s
  let s := if bad ∧ numbered p.opcode ∧ c.wasAdmitted then s.ledgerFlag n (p.par 0 5) 0x40 else s
  if e.status = .mediaError ∧ numbered p.opcode ∧ p.opcode ≠ 0x0802 then s.mediaAbort n (p.par 0 5) else s

/-- Steps 2 to 5 of R170, and the commands behind a cancelled one, which may now end (R184). -/
def State.completeNow (s : State) (c : Cmd) (e : Ending) : State :=
  let r := s.applySignal c e
  ((r.1.settle c r.2).complete c r.2).cancelNow

/-- Does a QP_DESTROY wait: posts of its queue pair complete first (R185, R275). -/
def State.behindPosts (s : State) (c : Cmd) : Bool :=
  decide (c.pkt.opcode = 0x0703) && s.cmds.any fun d =>
    decide (d.pkt.opcode ∈ [0x0704, 0x0705, 0x0706]) && decide (d.pkt.at 64 4 = c.pkt.at 64 4) && decide ((d.view s).ctx = (c.view s).ctx) &&
      (match d.phase with
       | .finished _ | .flushing _ => true
       | _ => false)

/-- COMMAND_COMPLETE: a command whose last effect is done completes; under GLOBAL it first waits for its writes (R170, R236). -/
def execCommandComplete (queue seq : Nat) (s : State) : Host.Outcome State Fault Refusal :=
  .next (match s.findCmd queue seq with
    | none => s
    | some c =>
      match c.phase with
      | .finished e =>
        if s.behindPosts c then s
        else if c.pkt.global then s.updCmd queue seq fun d => { d with phase := .flushing e }
        else s.completeNow c e
      | _ => s)

/-- GLOBAL_FLUSH_DONE: every back-invalidation is answered and the flushing read has returned behind every host write (R236). -/
def execGlobalFlushDone (queue seq : Nat) (s : State) : Host.Outcome State Fault Refusal :=
  .next (match s.findCmd queue seq with
    | none => s
    | some c =>
      match c.phase with
      | .flushing e => if s.mem.snooped.isEmpty ∧ s.host.heldWrites.isEmpty then s.completeNow c e else s
      | _ => s)

end Sys2Proof.Machine
end

