-- ==== Sys2Proof/Machine/Boundary.lean ====
section
/-! DEFINITION. STROKE_BOUNDARY: the actions of R140 in their order, and what other rules do at a boundary before the admission pass (R18,
R103, R126, R184, R214, R220, R303, R337, R339, R342, R354, R397). -/

namespace Sys2Proof.Machine

/-! ### The trouble log (R397) -/

/-- One entry for what was dropped in the stroke that has ended, and a new allowance (R397). -/
def State.logDropped (s : State) : State :=
  let d := s.log.dropped
  let s : State := { s with log := { s.log with thisStroke := 0, dropped := 0 } }
  if d = 0 then s else s.logEvent 0x0002 11 0 noContext 0 d

/-! ### Deadlines and faults (R220, R303) -/

/-- Action 3: the deadlines that have fallen, in admission order (R303). -/
def State.checkDeadlines (s : State) : State :=
  (s.buckets.map Bucket.key).foldl (fun (s : State) k => (s.expireDeadline k).expireVerdict k) s

/-- Open faults at their limit close before the admission pass (R220). -/
def State.expireFaults (s : State) : State :=
  (s.ctxs.flatMap fun e => e.2.ring.opened.map fun f => (e.1, f.fseq)).foldl (fun (s : State) f => s.expireFault f.1 f.2) s

/-! ### Commands that stop (R184, R342) -/

/-- Cancelled plate and Stencil commands without a unit in progress stop at the boundary (R184). -/
def State.stopParked (s : State) : State :=
  (s.cmds.filter fun c => c.cancel && c.onPlate && decide (c.phase = .running) && !s.inUnit c).foldl
    (fun (s : State) c => s.preempt c (s.stopEnding c)) s

/-- Has a command an older placement epoch. -/
def State.isStale (s : State) (c : Cmd) : Bool :=
  numbered c.pkt.opcode && decide (c.pkt.par 12 2 ≠ s.placement) && decide (c.phase = .admitted ∨ c.phase = .running)

/-- A reduction that the placement epoch ends is remembered, so that its segments are discarded and counted (R342). -/
def State.noteStale (s : State) (b : Bucket) : State :=
  s.updCtx b.context fun x =>
    let k := x.xhStep b.step
    x.setXhStep { k with stale := if (b.group, b.bucket) ∈ k.stale then k.stale else (b.group, b.bucket) :: k.stale }

/-- A new placement epoch takes effect: every ledger header of the part carries it, and older numbered commands are to stop (R342). -/
def State.applyPlacement (s : State) : State :=
  match s.nextPlacement with
  | none => s
  | some e =>
    let s : State := { s with placement := e, nextPlacement := none }
    let s := (s.ctxs.filterMap fun x => x.2.ledger.map fun l => (x.1, l.base)).foldl
      (fun (s : State) l => s.vput l.1 (l.2 + 128) (leBytes 2 e)) s
    let gone := s.buckets.filter fun b => (s.findCmd b.queue b.seq).any s.isStale
    let s := gone.foldl (fun (s : State) b => s.noteStale b) s
    { s with cmds := s.cmds.map fun c => if s.isStale c then { c with cancel := true } else c }

/-! ### Hot spares (R337, R339) -/

/-- Ports of the active bank whose role is PASS (R268). -/
def State.passPorts (s : State) : List Nat :=
  match s.activeMap with
  | some m => (List.range 8).filter fun p => decide ((mapPort m p).1 = 6)
  | none => []

/-- An armed spare enters STANDBY: only the Proof core, the auxiliary domain and the PASS ports run on; the route-map banks stay (R268, R337,
R406). -/
def State.enterStandby (s : State) : State :=
  let pass := s.passPorts
  let old := s.fabric
  let node := s.spare
  let s := s.holdCore
  let keep (e : Nat × Port) : Nat × Port :=
    (e.1, if e.1 ∈ pass then { e.2 with up := ((Kv.get e.1 old.ports).map (·.up)).getD false } else e.2)
  { s with
    power := { s.power with reqCore := false, reqIo := !pass.isEmpty }
    fabric := { s.fabric with banks := old.banks, active := old.active, ports := s.fabric.ports.map keep }
    spare := { s.spare with state := .standby, node := node.node, pattern := node.pattern, port := node.port } }

/-- The bank that carries an assumed node, the lowest (R269). -/
def State.bankOf (s : State) (node : Nat) : Option Nat :=
  (s.fabric.banks.find? fun b => decide (fieldAt b.2.map 4 2 = node)).map (·.1)

/-- A port takes the addresses of an identity (R339). -/
def Port.assumeId (q : Port) (a : Nat × Nat × Nat) : Port := { q with mac := a.1, ipv4 := a.2.1, ipv6 := a.2.2 }

/-- The spare takes a node's identity: addresses, node number and identity stroke; pass-through gives way to the promotion bank; TAKEOVER and
the announcements go out; the command completes (R269, R339, R353). -/
def State.takeIdentity (s : State) : State :=
  match s.spare.promoting with
  | none => s
  | some (q, seq, node) =>
    match s.identityOf node with
    | none => s
    | some ids =>
      let body := leBytes 2 node ++ leBytes 6 s.strk.now ++ zeros 8
      let active := (s.bankOf node).orElse fun _ => if s.passPorts.isEmpty then s.fabric.active else none
      let s : State := { s with
        fabric := { s.fabric with
          node := node, active := active, announce := 3
          ports := s.fabric.ports.map fun e => (e.1, e.2.assumeId (ids.getD e.1 (0, 0, 0))) }
        spare := { s.spare with state := .taken, promoting := none, identity := some s.strk.now }
        bus := { s.bus with takeover := (2, body) } }
      let s := (s.sendService bothPorts broadcast 4 0 body).failEvent node 1
      s.updCmd q seq fun x => { x with phase := .finished (Ending.ok 0 0) }

/-! ### Plates and routers (R12, R103, R140) -/

/-- Every unit whose command waits on an open fault is parked with its cursor (R101, R220). -/
def State.parkFaulted (s : State) : State :=
  (s.cmds.filter fun c => c.fault.isSome && s.inUnit c).foldl (fun (s : State) c => s.removeUnit c) s

/-- Every plate and router is due for its handover; one without a unit in progress has drained, and a new stroke's units may be issued to it
(R12, R140, R143). -/
def State.callDue (s : State) : State :=
  { s with
    plates := s.plates.map fun e => (e.1, { e.2 with due := true, drained := e.2.units.isEmpty, hung := false, late := false, closed := false })
    routers := s.routers.map fun e => (e.1, { e.2 with due := true, drained := e.2.units.isEmpty, hung := false, late := false, closed := false }) }

/-- Action 6: the plates that have drained are given to contexts (R12, R141). -/
def State.givePlates (s : State) : State := (s.plates.map (·.1)).foldl (fun (s : State) n => s.givePlate n) s

/-- Action 7: the routers that have drained are given to contexts (R103). -/
def State.giveRouters (s : State) : State := (s.routers.map (·.1)).foldl (fun (s : State) t => s.giveRouter t) s

/-- Action 9: the first units of the stroke on every plate and router that has been given to a context. -/
def State.issueFirst (s : State) : State :=
  (s.plates.map (fun e => UnitRef.plate e.1) ++ s.routers.map fun e => UnitRef.router e.1).foldl (fun (s : State) r => s.firstUnits r) s

/-! ### The boundary (R140) -/

/-- Action 2, noted in the entries of the steps that are open (R266, R334). -/
def State.switchBank (s : State) : State :=
  let t := s.bankSwitch
  if t.fabric.active = s.fabric.active then t
  else
    let note (c : Ctx) : Ctx := { c with ledger := c.ledger.map fun l => (t.activeMap.toList).foldl Ledger.addMap l }
    { t with ctxs := t.ctxs.map fun e => (e.1, note e.2) }

/-- What holds on the auxiliary domain alone: the stroke timer, the trouble log, the Proof core's alignment (R402, R409). -/
def State.auxBoundary (s : State) (b : BoundaryInput) : State :=
  (((s.nextBoundary).logDropped).evaluateOffset b.offset).ageEvents

/-- Actions 1 to 5. -/
def State.boundaryHead (s : State) (b : BoundaryInput) : State :=
  (((((((s.nextBoundary).logDropped).switchBank).checkDeadlines).evaluateOffset b.offset).ageEvents).boundaryDuty).releaseBatches

/-- What a boundary does between action 5 and the admission pass. -/
def State.boundaryMiddle (s : State) : State :=
  let s := ((s.takeIdentity).applyPlacement).parkFaulted
  let s := ((s.stopParked).cancelNow).expireFaults
  let s := s.residence
  let s := (s.ctxs.map (·.1)).foldl (fun (s : State) n => s.decideLayers n) s
  s.callDue

/-- Action 8: the first admission pass of the stroke on every dispatcher. -/
def State.boundaryPass (s : State) : State := (List.range 4).foldl (fun (s : State) d => s.pass d) s

/-- Actions 6 to 9: plates and routers are given to contexts, groups are admitted, and the first units are issued. A plate that drains later is
handed over by PLATE_HANDOVER (R140, R145). -/
def State.boundaryEnd (s : State) : State := (((s.givePlates).giveRouters).boundaryPass).issueFirst

/-- Does the spare sleep at this boundary: SPARE_ARM has taken effect and has completed (R337). -/
def State.sleeps (s : State) : Bool := s.spare.arming && !(s.cmds.any fun c => decide (c.pkt.opcode = 0x0A07))

/-- STROKE_BOUNDARY (R140). PORST_N holds the stroke timer; a part whose core is held in reset keeps its stroke count (R409, R411). -/
def execStrokeBoundary (b : BoundaryInput) (s : State) : Host.Outcome State Fault Refusal :=
  .next (
    if s.side.porst then s
    else if s.power.stopped then s.auxBoundary b
    else
      let s := s.boundaryHead b
      if s.sleeps then s.enterStandby else s.boundaryMiddle.boundaryEnd)

end Sys2Proof.Machine
end

