-- ==== Sys2Proof/Machine/Dispatch.lean ====
section
/-! DEFINITION. exec: the effect of each command on everything but the queue, one arm per constructor. -/

namespace Sys2Proof.Machine

/-- The effect of a command on everything but the queue of waiting commands. -/
def exec (i : Instr) (s : State) : Host.Outcome State Fault Refusal :=
  match i with
  | .contextCreate p => Sys2Proof.Machine.execContextCreate p s
  | .contextDestroy p => Sys2Proof.Machine.execContextDestroy p s
  | .contextQuery p => Sys2Proof.Machine.execContextQuery p s
  | .queueCreate p => Sys2Proof.Machine.execQueueCreate p s
  | .queueDestroy p => Sys2Proof.Machine.execQueueDestroy p s
  | .queueDrain p => Sys2Proof.Machine.execQueueDrain p s
  | .queueStart p => Sys2Proof.Machine.execQueueStart p s
  | .queueQuery p => Sys2Proof.Machine.execQueueQuery p s
  | .memRegister p => Sys2Proof.Machine.execMemRegister p s
  | .memRelease p => Sys2Proof.Machine.execMemRelease p s
  | .memPin p => Sys2Proof.Machine.execMemPin p s
  | .memUnpin p => Sys2Proof.Machine.execMemUnpin p s
  | .descCreate p => Sys2Proof.Machine.execDescCreate p s
  | .descRelease p => Sys2Proof.Machine.execDescRelease p s
  | .dmaCopy p => Sys2Proof.Machine.execDmaCopy p s
  | .faultResume p => Sys2Proof.Machine.execFaultResume p s
  | .tlbInvalidate p => Sys2Proof.Machine.execTlbInvalidate p s
  | .linear p => Sys2Proof.Machine.execLinear p s
  | .stipple p => Sys2Proof.Machine.execStipple p s
  | .attnFwd p => Sys2Proof.Machine.execAttnFwd p s
  | .attnPrep p => Sys2Proof.Machine.execAttnPrep p s
  | .attnBwd p => Sys2Proof.Machine.execAttnBwd p s
  | .gradPolicy p => Sys2Proof.Machine.execGradPolicy p s
  | .tracer p => Sys2Proof.Machine.execTracer p s
  | .route p => Sys2Proof.Machine.execRoute p s
  | .exit p => Sys2Proof.Machine.execExit p s
  | .mask p => Sys2Proof.Machine.execMask p s
  | .inkInit p => Sys2Proof.Machine.execInkInit p s
  | .inkRead p => Sys2Proof.Machine.execInkRead p s
  | .nop p => Sys2Proof.Machine.execNop p s
  | .inkOverride p => Sys2Proof.Machine.execInkOverride p s
  | .qpCreate p => Sys2Proof.Machine.execQpCreate p s
  | .qpConnect p => Sys2Proof.Machine.execQpConnect p s
  | .qpDestroy p => Sys2Proof.Machine.execQpDestroy p s
  | .postRecv p => Sys2Proof.Machine.execPostRecv p s
  | .postSend p => Sys2Proof.Machine.execPostSend p s
  | .postInk p => Sys2Proof.Machine.execPostInk p s
  | .qpQuery p => Sys2Proof.Machine.execQpQuery p s
  | .xhGroup p => Sys2Proof.Machine.execXhGroup p s
  | .xhReduce p => Sys2Proof.Machine.execXhReduce p s
  | .xhAbort p => Sys2Proof.Machine.execXhAbort p s
  | .prefetchHint p => Sys2Proof.Machine.execPrefetchHint p s
  | .manifestLoad p => Sys2Proof.Machine.execManifestLoad p s
  | .shardSend p => Sys2Proof.Machine.execShardSend p s
  | .shardReceive p => Sys2Proof.Machine.execShardReceive p s
  | .baseInstall p => Sys2Proof.Machine.execBaseInstall p s
  | .baseMap p => Sys2Proof.Machine.execBaseMap p s
  | .baseRetire p => Sys2Proof.Machine.execBaseRetire p s
  | .tensorClass p => Sys2Proof.Machine.execTensorClass p s
  | .snapshot p => Sys2Proof.Machine.execSnapshot p s
  | .restore p => Sys2Proof.Machine.execRestore p s
  | .mirror p => Sys2Proof.Machine.execMirror p s
  | .ledgerSet p => Sys2Proof.Machine.execLedgerSet p s
  | .replay p => Sys2Proof.Machine.execReplay p s
  | .spareArm p => Sys2Proof.Machine.execSpareArm p s
  | .sparePromote p => Sys2Proof.Machine.execSparePromote p s
  | .placementSet p => Sys2Proof.Machine.execPlacementSet p s
  | .streamOpen p => Sys2Proof.Machine.execStreamOpen p s
  | .streamFeed p => Sys2Proof.Machine.execStreamFeed p s
  | .streamClose p => Sys2Proof.Machine.execStreamClose p s
  | .attest p => Sys2Proof.Machine.execAttest p s
  | .sessionKey p => Sys2Proof.Machine.execSessionKey p s
  | .fwStage p => Sys2Proof.Machine.execFwStage p s
  | .fwActivate p => Sys2Proof.Machine.execFwActivate p s
  | .configRead p => Sys2Proof.Machine.execConfigRead p s
  | .configWrite p => Sys2Proof.Machine.execConfigWrite p s
  | .logRead p => Sys2Proof.Machine.execLogRead p s
  | .telemetryRead p => Sys2Proof.Machine.execTelemetryRead p s
  | .profileSet p => Sys2Proof.Machine.execProfileSet p s
  | .strokeSet p => Sys2Proof.Machine.execStrokeSet p s
  | .routemapLoad p => Sys2Proof.Machine.execRoutemapLoad p s
  | .routemapSwitch p => Sys2Proof.Machine.execRoutemapSwitch p s
  | .strokeQuery p => Sys2Proof.Machine.execStrokeQuery p s
  | .mboxNop r => Sys2Proof.Machine.execMboxNop r s
  | .sbSend r => Sys2Proof.Machine.execSbSend r s
  | .mboxTelemetry r => Sys2Proof.Machine.execMboxTelemetry r s
  | .mboxConfigRead r => Sys2Proof.Machine.execMboxConfigRead r s
  | .mboxConfigWrite r => Sys2Proof.Machine.execMboxConfigWrite r s
  | .mboxProfileSet r => Sys2Proof.Machine.execMboxProfileSet r s
  | .recoveryBegin r => Sys2Proof.Machine.execRecoveryBegin r s
  | .recoveryData r => Sys2Proof.Machine.execRecoveryData r s
  | .recoveryCommit r => Sys2Proof.Machine.execRecoveryCommit r s
  | .mctpRequest m => Sys2Proof.Machine.execMctpRequest m s
  | .smbusClockTimeout => Sys2Proof.Machine.execSmbusClockTimeout s
  | .sqTailWrite queue value => Sys2Proof.Machine.execSqTailWrite queue value s
  | .cqHeadWrite queue value => Sys2Proof.Machine.execCqHeadWrite queue value s
  | .admqEnable => Sys2Proof.Machine.execAdmqEnable s
  | .admqDisable => Sys2Proof.Machine.execAdmqDisable s
  | .sbRxHeadWrite value => Sys2Proof.Machine.execSbRxHeadWrite value s
  | .faultSummaryRead word => Sys2Proof.Machine.execFaultSummaryRead word s
  | .halfReadLatch offset => Sys2Proof.Machine.execHalfReadLatch offset s
  | .tableWindowWrite offset data => Sys2Proof.Machine.execTableWindowWrite offset data s
  | .registerWrite offset size value => Sys2Proof.Machine.execRegisterWrite offset size value s
  | .hostInboundRequest r => Sys2Proof.Machine.execHostInboundRequest r s
  | .cxlSnoop line => Sys2Proof.Machine.execCxlSnoop line s
  | .backInvalidationResponse line writeBack => Sys2Proof.Machine.execBackInvalidationResponse line writeBack s
  | .hostLinkUp cxl width => Sys2Proof.Machine.execHostLinkUp cxl width s
  | .hostLinkDown => Sys2Proof.Machine.execHostLinkDown s
  | .hostLinkLossTimeout => Sys2Proof.Machine.execHostLinkLossTimeout s
  | .recordFetch queue => Sys2Proof.Machine.execRecordFetch queue s
  | .recordReread queue => Sys2Proof.Machine.execRecordReread queue s
  | .stalledReread queue => Sys2Proof.Machine.execStalledReread queue s
  | .admissionPass dispatcher => Sys2Proof.Machine.execAdmissionPass dispatcher s
  | .dispatchUnitEnd u run => Sys2Proof.Machine.execDispatchUnitEnd u run s
  | .commandSkip queue seq => Sys2Proof.Machine.execCommandSkip queue seq s
  | .commandComplete queue seq => Sys2Proof.Machine.execCommandComplete queue seq s
  | .globalFlushDone queue seq => Sys2Proof.Machine.execGlobalFlushDone queue seq s
  | .pinRetry queue => Sys2Proof.Machine.execPinRetry queue s
  | .waitTimeout queue => Sys2Proof.Machine.execWaitTimeout queue s
  | .residenceWait context => Sys2Proof.Machine.execResidenceWait context s
  | .residenceTimeout queue => Sys2Proof.Machine.execResidenceTimeout queue s
  | .faultLimit context fseq => Sys2Proof.Machine.execFaultLimit context fseq s
  | .strokeBoundary b => Sys2Proof.Machine.execStrokeBoundary b s
  | .plateHandover plate => Sys2Proof.Machine.execPlateHandover plate s
  | .strokeOverrun u run => Sys2Proof.Machine.execStrokeOverrun u run s
  | .engineHung u => Sys2Proof.Machine.execEngineHung u s
  | .ptpSync m => Sys2Proof.Machine.execPtpSync m s
  | .syncTimeout => Sys2Proof.Machine.execSyncTimeout s
  | .alignmentAcquired => Sys2Proof.Machine.execAlignmentAcquired s
  | .alignmentLost => Sys2Proof.Machine.execAlignmentLost s
  | .slotOpen port slot => Sys2Proof.Machine.execSlotOpen port slot s
  | .burinBankLoaded plate array => Sys2Proof.Machine.execBurinBankLoaded plate array s
  | .burinTileDelivery plate array => Sys2Proof.Machine.execBurinTileDelivery plate array s
  | .traySlotFree plate => Sys2Proof.Machine.execTraySlotFree plate s
  | .stippleTileTaken plate unit => Sys2Proof.Machine.execStippleTileTaken plate unit s
  | .stippleTileWritten plate unit => Sys2Proof.Machine.execStippleTileWritten plate unit s
  | .tracerUnit plate => Sys2Proof.Machine.execTracerUnit plate s
  | .stencilToken tile => Sys2Proof.Machine.execStencilToken tile s
  | .aquatintPairCommit plate => Sys2Proof.Machine.execAquatintPairCommit plate s
  | .inkWordEvict word => Sys2Proof.Machine.execInkWordEvict word s
  | .frameReceived port frame => Sys2Proof.Machine.execFrameReceived port frame s
  | .linkDown port => Sys2Proof.Machine.execLinkDown port s
  | .linkUp port => Sys2Proof.Machine.execLinkUp port s
  | .transitForward port packet => Sys2Proof.Machine.execTransitForward port packet s
  | .passThroughFrame port frame => Sys2Proof.Machine.execPassThroughFrame port frame s
  | .promotionAnnouncement => Sys2Proof.Machine.execPromotionAnnouncement s
  | .packetSend qp now => Sys2Proof.Machine.execPacketSend qp now s
  | .dataPacketReceived port checksumOk packet => Sys2Proof.Machine.execDataPacketReceived port checksumOk packet s
  | .inkPacketReceived port checksumOk packet => Sys2Proof.Machine.execInkPacketReceived port checksumOk packet s
  | .ackReceived port checksumOk packet now => Sys2Proof.Machine.execAckReceived port checksumOk packet now s
  | .ackTimer qp => Sys2Proof.Machine.execAckTimer qp s
  | .retransmitTimeout qp => Sys2Proof.Machine.execRetransmitTimeout qp s
  | .rnrResend qp => Sys2Proof.Machine.execRnrResend qp s
  | .rnrTimeout qp => Sys2Proof.Machine.execRnrTimeout qp s
  | .qpStateFetched qp => Sys2Proof.Machine.execQpStateFetched qp s
  | .triggerFire qp => Sys2Proof.Machine.execTriggerFire qp s
  | .triggerTimeout qp => Sys2Proof.Machine.execTriggerTimeout qp s
  | .bucketStart context group => Sys2Proof.Machine.execBucketStart context group s
  | .xhSegmentReceived m => Sys2Proof.Machine.execXhSegmentReceived m s
  | .verdictRecordReceived m => Sys2Proof.Machine.execVerdictRecordReceived m s
  | .deadlineExpiry k => Sys2Proof.Machine.execDeadlineExpiry k s
  | .verdictTimeout k => Sys2Proof.Machine.execVerdictTimeout k s
  | .shardPieceReceived qp piece => Sys2Proof.Machine.execShardPieceReceived qp piece s
  | .shardPieceHashed queue seq => Sys2Proof.Machine.execShardPieceHashed queue seq s
  | .shardTrailerReceived qp trailer => Sys2Proof.Machine.execShardTrailerReceived qp trailer s
  | .shardTimeout queue seq => Sys2Proof.Machine.execShardTimeout queue seq s
  | .epochRelease epoch => Sys2Proof.Machine.execEpochRelease epoch s
  | .keepPieceReceived qp piece => Sys2Proof.Machine.execKeepPieceReceived qp piece s
  | .keepDigestReceived qp record => Sys2Proof.Machine.execKeepDigestReceived qp record s
  | .restoreRequestReceived qp request => Sys2Proof.Machine.execRestoreRequestReceived qp request s
  | .fillRequestReceived qp request => Sys2Proof.Machine.execFillRequestReceived qp request s
  | .fillChunkReceived qp chunk => Sys2Proof.Machine.execFillChunkReceived qp chunk s
  | .easelFrameDecoded stream => Sys2Proof.Machine.execEaselFrameDecoded stream s
  | .easelBatchStart stream => Sys2Proof.Machine.execEaselBatchStart stream s
  | .batchMissingTimeout stream => Sys2Proof.Machine.execBatchMissingTimeout stream s
  | .feedTimeout stream => Sys2Proof.Machine.execFeedTimeout stream s
  | .discoverSend port => Sys2Proof.Machine.execDiscoverSend port s
  | .discover port frame => Sys2Proof.Machine.execDiscover port frame s
  | .discoveryWindowClose port => Sys2Proof.Machine.execDiscoveryWindowClose port s
  | .helloSend port => Sys2Proof.Machine.execHelloSend port s
  | .plcaFallback port => Sys2Proof.Machine.execPlcaFallback port s
  | .collisionBackoff port => Sys2Proof.Machine.execCollisionBackoff port s
  | .serviceFrameReceived port frame => Sys2Proof.Machine.execServiceFrameReceived port frame s
  | .takeover port frame => Sys2Proof.Machine.execTakeover port frame s
  | .takeoverRepeat => Sys2Proof.Machine.execTakeoverRepeat s
  | .failureRate port frame => Sys2Proof.Machine.execFailureRate port frame s
  | .failureRateSend => Sys2Proof.Machine.execFailureRateSend s
  | .debugRequest port frame => Sys2Proof.Machine.execDebugRequest port frame s
  | .delayedWarmReset e => Sys2Proof.Machine.execDelayedWarmReset e s
  | .logExportSend => Sys2Proof.Machine.execLogExportSend s
  | .wakeMatch port frame => Sys2Proof.Machine.execWakeMatch port frame s
  | .wakeRailTimeout => Sys2Proof.Machine.execWakeRailTimeout s
  | .sensorSample x => Sys2Proof.Machine.execSensorSample x s
  | .sensorFailed sensor => Sys2Proof.Machine.execSensorFailed sensor s
  | .sensorRecovered sensor => Sys2Proof.Machine.execSensorRecovered sensor s
  | .thermalTrip => Sys2Proof.Machine.execThermalTrip s
  | .brdThrotAssert => Sys2Proof.Machine.execBrdThrotAssert s
  | .brdThrotRelease => Sys2Proof.Machine.execBrdThrotRelease s
  | .avsStep tile => Sys2Proof.Machine.execAvsStep tile s
  | .avsTimeout tile => Sys2Proof.Machine.execAvsTimeout tile s
  | .railFault rail => Sys2Proof.Machine.execRailFault rail s
  | .railRelease => Sys2Proof.Machine.execRailRelease s
  | .railRecovered e => Sys2Proof.Machine.execRailRecovered e s
  | .railRecoveryTimeout => Sys2Proof.Machine.execRailRecoveryTimeout s
  | .fabclkLost => Sys2Proof.Machine.execFabclkLost s
  | .fabclkRestored e => Sys2Proof.Machine.execFabclkRestored e s
  | .auxclkLost => Sys2Proof.Machine.execAuxclkLost s
  | .auxclkRestored => Sys2Proof.Machine.execAuxclkRestored s
  | .refclkLost => Sys2Proof.Machine.execRefclkLost s
  | .coldReset e => Sys2Proof.Machine.execColdReset e s
  | .warmReset e => Sys2Proof.Machine.execWarmReset e s
  | .perstReset e => Sys2Proof.Machine.execPerstReset e s
  | .functionLevelReset => Sys2Proof.Machine.execFunctionLevelReset s
  | .bootStageTimeout e => Sys2Proof.Machine.execBootStageTimeout e s
  | .flashTimeout => Sys2Proof.Machine.execFlashTimeout s
  | .watchdogReset e => Sys2Proof.Machine.execWatchdogReset e s
  | .serviceRestart => Sys2Proof.Machine.execServiceRestart s
  | .patrolRead line finding => Sys2Proof.Machine.execPatrolRead line finding s
  | .vaux3v3Loss => Sys2Proof.Machine.execVaux3v3Loss s
  | .vaux3v3PowerOn => Sys2Proof.Machine.execVaux3v3PowerOn s
  | .wakeRailsInWindow e => Sys2Proof.Machine.execWakeRailsInWindow e s
  | .restoreChunkReceived qp chunk => Sys2Proof.Machine.execRestoreChunkReceived qp chunk s
  | .frameZeroFillDone frame => Sys2Proof.Machine.execFrameZeroFillDone frame s
  | .tapInstruction code => Sys2Proof.Machine.execTapInstruction code s
  | .plcaBeaconHeard port => Sys2Proof.Machine.execPlcaBeaconHeard port s

end Sys2Proof.Machine
end

