-- ==== Sys2Proof/Machine/Step.lean ====
section
/-! DEFINITION. The step of the block: it takes the command at the front of its queue and runs it; with nothing waiting it idles. -/

namespace Sys2Proof.Machine

/-- The command at the front of the queue, run with the queue's rest; an empty queue leaves the block as it is (DESIGN CHOICE,
assumption 97). -/
def step (s : State) : Host.Outcome State Fault Refusal :=
  match s.pending with
  | [] => .next s
  | c :: rest => exec c { s with pending := rest }

/-- s with the command that a word of the opcode table spells at the front of its queue; the table gives no row a word, so that s stays as
it is. -/
def State.withFetchWord (s : State) (nbits w : Nat) : State :=
  match decodeTableWord nbits w with
  | some c => { s with pending := c :: s.pending }
  | none => s

end Sys2Proof.Machine
end

