-- ==== Sys2Proof/Safety.lean ====
section
/-! DEFINITION. Safety: what every state of the part should keep to, whatever commands it takes. -/

namespace Sys2Proof.Machine

/-- The logical plates of R2: one for each enabled site, numbered from 0. -/
def State.platesOk (s : State) : Prop := s.plates.map (·.1) = List.range s.sites.length

/-- The tables of R3 and R4: contexts 0 to 4,095 and queues 0 to 1,023, each number at most once. -/
def State.tablesOk (s : State) : Prop :=
  Kv.sorted s.ctxs = true ∧ (∀ e ∈ s.ctxs, e.1 < 4096) ∧ Kv.sorted s.queues = true ∧ ∀ e ∈ s.queues, e.1 < 1024

/-- A safe state: memory in canonical form, the logical plates of the enabled sites, and the context and queue tables within their bounds. -/
def State.Safe (s : State) : Prop := s.mem.wf = true ∧ s.platesOk ∧ s.tablesOk

/-- The row with opcode op is presented with the packet p of the admitted command c, whose turn it is; x is its context (R165, R166, R182). -/
structure Ready (s : State) (p : Packet) (op : Nat) (c : Cmd) (x : Ctx) : Prop where
  opcode : p.opcode = op
  start : s.startable p = some c
  ctx : s.ctxOf c = some x

/-- The row with opcode op is presented again for the running command c, which holds its slot of the Proof core (R392). -/
structure Again (s : State) (p : Packet) (op : Nat) (c : Cmd) (x : Ctx) : Prop where
  opcode : p.opcode = op
  started : s.startable p = none
  resume : s.resumable p = some c
  ctx : s.ctxOf c = some x
  slot : c.slot.isSome = true

/-- The bytes of the physical memory are those of s (R203): a frame condition. -/
def SameBytes (s t : State) : Prop := ∀ a, t.mem.read a = s.mem.read a

/-- A Stylus packet for queue pair k, on chip with no packet of it in the miss buffer and connected, that passes every check before its PSN is
judged, on an unencrypted queue pair (R272, R275, R285, R286). -/
structure RxPasses (s : State) (port k : Nat) (q : Qp) (pkt : List Byte) : Prop where
  up : s.portUp port = true
  long : 40 ≤ pkt.length
  version : fieldAt pkt 0 1 / 16 = 1
  known : fieldAt pkt 0 1 % 16 ≤ 2
  self : fieldAt pkt 4 2 = s.selfNode
  class_ : bitsOf (fieldAt pkt 1 1) 3 2 ≠ 3
  reserved : fieldAt pkt 1 1 % 4 = 0
  size : fieldAt pkt 2 2 < 4096
  dest : fieldAt pkt 8 2 = k
  pair : s.qp k = some q
  chip : s.onChip k = true
  none : s.missBytes (some k) = 0
  state : q.state = .connected
  plain : q.encrypt = false
  flag : bitOf (fieldAt pkt 1 1) 6 = false
  node : fieldAt pkt 6 2 = q.peerNode
  peer : fieldAt pkt 10 2 = q.peerQp

end Sys2Proof.Machine
end

