-- ==== Sys2Proof/Certificates/Slice0/Obligations.lean ====
section
/-! DEFINITION. The statements for the provers: what each command of the block does, and what every step keeps. -/

open Sys2Proof Sys2Proof.Machine

/-- Whose turn it is and whose checks pass, and for which class KEY of the Proof core has a slot, CONTEXT_CREATE ends DONE with the number in
RESULT0; the new context has the packet's ADMIN, DEBUG, PLATE_MASK, LAYERS, ROOT, SEED, BUDGET and FAULT_LIMIT (5,000 for 0), no slot, no
descriptors and no allocations; every other context, every queue and every byte is as before. CONTEXT_DESTROY removes the context, takes every
frame of it out of the frame map, leaves every other context and every queue as they are, and waits for the zero-fill of those frames that lie
outside the DDR tier; where there are none, it ends DONE at once. CONTEXT_QUERY ends with ATTR, residence and live queues in RESULT0 and the open
faults in RESULT1, and changes nothing else. -/
def Obligations.ContextCommandsComplete : Prop :=
  (∀ (s : State) (p : Packet) (c : Cmd) (x : Ctx) (k : Nat), Ready s p 0x0101 c x → s.classAdmits clsKey (c.view s).ctx = true →
    s.checkContextCreate p = .ok () → k = (if p.at 64 2 = 0xFFFF then (Kv.lowestFree 1 4095 s.ctxs).getD 0 else p.at 64 2) →
    ∃ (t : State) (d : Ctx), exec (.contextCreate p) s = .next (t.finish c (Ending.ok k 0)) ∧
      Kv.get k t.ctxs = some d ∧ (∀ j, j ≠ k → Kv.get j t.ctxs = Kv.get j s.ctxs) ∧ t.queues = s.queues ∧ SameBytes s t ∧
      d.admin = bitOf (p.at 70 1) 0 ∧ d.debug = bitOf (p.at 70 1) 1 ∧ d.plateMask = p.at 68 2 ∧ d.layers = p.at 66 2 ∧
      d.root = p.at 72 8 ∧ d.seed = p.at 80 8 ∧ d.budget = p.at 88 4 ∧ d.faultLimit = (if p.at 92 4 = 0 then 5000 else p.at 92 4) ∧
      d.slot = none ∧ d.descs = [] ∧ d.allocs = []) ∧
  (∀ (s : State) (p : Packet) (c : Cmd) (x : Ctx), Ready s p 0x0102 c x → s.checkContextDestroy (c.view s).ctx x p = .ok () →
    ∃ (t : State) (fs : List Nat), exec (.contextDestroy p) s = .next (t.awaitFill c fs (Ending.ok 0 0)) ∧
      Kv.get (p.at 64 2) t.ctxs = none ∧ (∀ j, j ≠ p.at 64 2 → Kv.get j t.ctxs = Kv.get j s.ctxs) ∧ t.queues = s.queues ∧
      fs = ((s.framesOf (p.at 64 2)).filter fun f => decide (s.region (f * 65536) ≠ .ddr)) ∧
      (∀ f ∈ s.framesOf (p.at 64 2), Kv.get f t.mem.owners = none) ∧
      (fs = [] → exec (.contextDestroy p) s = .next (t.finish c (Ending.ok 0 0)))) ∧
  (∀ (s : State) (p : Packet) (c : Cmd) (x y : Ctx), Ready s p 0x0103 c x → s.checkTarget (c.view s).ctx x p false = .ok () →
    zeroBytes p 66 79 = .ok () → Kv.get (p.at 64 2) s.ctxs = some y →
    exec (.contextQuery p) s = .next (s.finish c (Ending.ok
      ((s.queues.filter fun e => decide (e.2.owner = p.at 64 2)).length * 65536 + 4 * b2n y.debug + 2 * b2n y.admin + b2n y.slot.isSome)
      y.ring.opened.length)))

/-- Whose turn it is and whose checks pass: QUEUE_CREATE ends DONE with the number in RESULT0 and an empty ACTIVE queue that expects SEQ 1, with the
packet's owner, rings, WAIT_LIMIT (50,000 for 0) and vector, and leaves everything else as it is. QUEUE_DESTROY closes its target, and where no
command and no held record of it is left, the queue and its predicates are gone at once and the command ends DONE. QUEUE_DRAIN stops its target,
and where nothing of the target is admitted it ends DONE at once. QUEUE_START makes a STOPPED queue that is not closed ACTIVE, leaves any other
as it is, and retries its held records. QUEUE_QUERY returns SQ_HEAD, STATE and the number of held records, and changes nothing. -/
def Obligations.QueueCommandsComplete : Prop :=
  (∀ (s : State) (p : Packet) (c : Cmd) (x : Ctx) (k : Nat), Ready s p 0x0104 c x → s.checkQueueCreate (c.view s).ctx x p = .ok () →
    k = (if p.at 64 2 = 0xFFFF then (Kv.lowestFree 1 1023 s.queues).getD 0 else p.at 64 2) →
    ∃ (t : State) (q : Queue), exec (.queueCreate p) s = .next (t.finish c (Ending.ok k 0)) ∧
      t = { s with queues := Kv.set k q s.queues, dbUnused := Kv.del k s.dbUnused } ∧ q.state = .active ∧ q.owner = p.at 66 2 ∧
      q.sqBase = p.at 72 8 ∧ q.cqBase = p.at 80 8 ∧ q.sqSlots = 2 ^ p.at 68 1 ∧ q.cqSlots = 2 ^ p.at 69 1 ∧
      q.waitLimit = (if p.at 88 4 = 0 then 50000 else p.at 88 4) ∧ q.vector = (if p.at 70 2 = 0xFFFF then none else some (p.at 70 2)) ∧
      q.expSeq = 1 ∧ q.sqTail = 0 ∧ q.sqHead = 0 ∧ q.cqHead = 0 ∧ q.cqWritten = 0 ∧ q.held = []) ∧
  (∀ (s : State) (p : Packet) (c : Cmd) (x : Ctx), Ready s p 0x0105 c x → s.checkQueueDestroy (c.view s).ctx x p = .ok () →
    exec (.queueDestroy p) s = .next ((s.begin c .none).closeQueue (p.at 64 2) (some (c.queue, c.seq))) ∧
    ((∀ d ∈ s.cmds, d.queue ≠ p.at 64 2) → (Kv.get (p.at 64 2) s.queues).map (·.held) = some [] →
      ∃ t : State, exec (.queueDestroy p) s = .next t ∧ Kv.get (p.at 64 2) t.queues = none ∧
        (∀ j, j ≠ p.at 64 2 → Kv.get j t.queues = Kv.get j s.queues) ∧ (∀ r ∈ t.preds, r.queue ≠ p.at 64 2) ∧
        (t.findCmd c.queue c.seq).map (·.phase) = some (.finished (Ending.ok 0 0)) ∧
        { t with cmds := s.cmds, queues := s.queues, preds := s.preds } = s)) ∧
  (∀ (s : State) (p : Packet) (c : Cmd) (x : Ctx), Ready s p 0x0106 c x → s.checkQueueDrain (c.view s).ctx x p = .ok () →
    (∀ d ∈ s.cmds, d.queue = p.at 64 2 → d.phase = .visible) → p.at 66 1 = 0 → (Kv.get (p.at 64 2) s.queues).isSome →
    ∃ t : State, exec (.queueDrain p) s = .next t ∧
      (t.findCmd c.queue c.seq).map (·.phase) = some (.finished (Ending.ok 0 0)) ∧
      (Kv.get (p.at 64 2) t.queues).map (·.state) = some .stopped ∧ (Kv.get (p.at 64 2) t.queues).map (·.drain) = some none ∧
      { t with cmds := s.cmds, queues := s.queues } = s) ∧
  (∀ (s : State) (p : Packet) (c : Cmd) (x : Ctx) (q : Queue), Ready s p 0x0107 c x → s.checkQueueStart (c.view s).ctx x p = .ok () →
    Kv.get (p.at 64 2) s.queues = some q →
    (q.state = .stopped → q.drain.any (·.destroy) = false → exec (.queueStart p) s = .next (State.finish
      ((s.updQueue (p.at 64 2) fun q => { q with state := .active, rereads := 0 }).flush (p.at 64 2)) c (Ending.ok 0 0))) ∧
    (q.state ≠ .stopped ∨ q.drain.any (·.destroy) = true →
      exec (.queueStart p) s = .next (State.finish (s.flush (p.at 64 2)) c (Ending.ok 0 0)))) ∧
  (∀ (s : State) (p : Packet) (c : Cmd) (x : Ctx) (q : Queue), Ready s p 0x0108 c x → s.checkTarget (c.view s).ctx x p true = .ok () →
    zeroBytes p 66 79 = .ok () → Kv.get (p.at 64 2) s.queues = some q →
    exec (.queueQuery p) s = .next (s.finish c (Ending.ok q.sqHead (q.state.code * 65536 + q.held.length))))

/-- Whose turn it is and whose checks pass: MEM_REGISTER adds the allocation with the packet's BASE, SIZE and ATTR and pin counts of zero;
MEM_RELEASE removes the allocation of that base and no other, and ends at once where no frame needs a zero-fill; MEM_PIN ends with the pages that
were not pinned in RESULT0, and MEM_UNPIN with the pages it leaves unpinned, and both change nothing but the pin counts of the pages of the
range, by one each; TLB_INVALIDATE drops exactly the cached translations of the context over the range and changes no byte and no command, but
that a command with a unit in progress on a plate may keep, for itself alone, the translations dropped. -/
def Obligations.AllocationCommandsComplete : Prop :=
  (∀ (s : State) (p : Packet) (c : Cmd) (x : Ctx), Ready s p 0x0201 c x → s.checkMemRegister (c.view s).ctx x p = .ok () →
    ∃ (t : State) (a : Alloc), exec (.memRegister p) s = .next (t.finish c (Ending.ok 0 0)) ∧
      (Kv.get (c.view s).ctx t.ctxs).map (·.allocs) = some (x.allocs ++ [a]) ∧ a.base = p.at 64 8 ∧ a.size = p.at 72 8 ∧
      a.write = bitOf (p.at 80 1) 0 ∧ a.pinned = bitOf (p.at 80 1) 1 ∧ a.ink = bitOf (p.at 80 1) 2 ∧ a.pins = [] ∧
      (∀ j, j ≠ (c.view s).ctx → Kv.get j t.ctxs = Kv.get j s.ctxs) ∧ t.queues = s.queues) ∧
  (∀ (s : State) (p : Packet) (c : Cmd) (x : Ctx) (a : Alloc), Ready s p 0x0202 c x → s.checkMemRelease (c.view s).ctx x p = .ok () →
    x.allocs.find? (fun a => decide (a.base = p.at 64 8)) = some a →
    ∃ t : State, exec (.memRelease p) s = .next (t.awaitFill c ((s.releasedFrames (c.view s).ctx x a).filter fun f =>
        decide (s.region (f * 65536) ≠ .ddr)) (Ending.ok 0 0)) ∧
      (Kv.get (c.view s).ctx t.ctxs).map (·.allocs) = some (x.allocs.filter fun b => b.base ≠ p.at 64 8) ∧
      (∀ j, j ≠ (c.view s).ctx → Kv.get j t.ctxs = Kv.get j s.ctxs) ∧ t.queues = s.queues ∧ t.mem.cells = s.mem.cells) ∧
  (∀ (s : State) (p : Packet) (c : Cmd) (x : Ctx) (a : Alloc), Ready s p 0x0203 c x → s.checkMemPin (c.view s).ctx x p = .ok () →
    x.allocAt (p.at 64 8) = some a →
    ∃ f : Alloc → Alloc, exec (.memPin p) s = .next (State.finish (s.updAlloc (c.view s).ctx (p.at 64 8) f) c
        (Ending.ok ((a.pageIndices (p.at 64 8) (p.at 72 8)).filter fun i => !a.pinned && decide (a.pinCount i = 0)).length 0)) ∧
      ∀ b, { f b with pins := b.pins } = b ∧
        ∀ i, (f b).pinCount i = b.pinCount i + (if i ∈ a.pageIndices (p.at 64 8) (p.at 72 8) then 1 else 0)) ∧
  (∀ (s : State) (p : Packet) (c : Cmd) (x : Ctx) (a : Alloc), Ready s p 0x0204 c x → s.checkMemUnpin (c.view s).ctx x p = .ok () →
    x.allocAt (p.at 64 8) = some a →
    ∃ pins : List (Nat × Nat), exec (.memUnpin p) s = .next (State.finish
        (s.updAlloc (c.view s).ctx (p.at 64 8) fun b => { b with pins := pins }) c
        (Ending.ok ((a.pageIndices (p.at 64 8) (p.at 72 8)).filter fun i => !a.pinned && decide (a.pinCount i ≤ 1)).length 0)) ∧
      ∀ i, (Kv.get i pins).getD 0 = a.pinCount i - (if i ∈ a.pageIndices (p.at 64 8) (p.at 72 8) then 1 else 0)) ∧
  (∀ (s : State) (p : Packet) (c : Cmd) (x : Ctx) (hit : TlbEntry → Bool), Ready s p 0x0209 c x → checkRange x p = .ok () →
    (∀ e, hit e = (decide (e.context = (c.view s).ctx) && rangesOverlap [(e.page * 4096, 4096)] [(p.at 64 8, p.at 72 8)])) →
    ∃ cs : List Cmd, exec (.tlbInvalidate p) s =
        .next (State.finish { s with cmds := cs, mem := { s.mem with tlb := s.mem.tlb.filter fun e => !hit e } } c (Ending.ok 0 0)) ∧
      cs.length = s.cmds.length ∧ ∀ (j : Nat) (d d' : Cmd), s.cmds[j]? = some d → cs[j]? = some d' →
        (d' = d ∨ d' = { d with bound := d.bound ++ (s.mem.tlb.filter hit).map Bound.page }) ∧
        ((∀ pl ∈ s.plates, ∀ u ∈ pl.2.units, ¬ (u.queue = d.queue ∧ u.seq = d.seq)) → d' = d))

/-- Whose turn it is and whose checks pass, DESC_CREATE ends with a handle in RESULT0 that is neither null nor the inline handle, was live in no
context, and names the packet's record; a record that fails a check ends the command with that check's ending and creates nothing. DESC_RELEASE
removes the handle and no other. FAULT_RESUME of an open fault that a command waits on closes the fault, and with RETRY lets the command go on;
nothing but the context's fault ring and that command changes. -/
def Obligations.DescriptorAndFaultCommandsComplete : Prop :=
  (∀ (s : State) (p : Packet) (c : Cmd) (x : Ctx), Ready s p 0x0205 c x → checkDescCreate x p = .ok () →
    (∃ h, 1 ≤ h ∧ h < min inlineHandle (s.ctxs.length * 65536 + 2) ∧ s.handleTaken h = false) →
    ∃ h, s.handleTaken h = false ∧ exec (.descCreate p) s = .next (State.finish
      ({ s with free := s.free + 1 }.updCtx (c.view s).ctx fun y => { y with descs := Kv.set h { record := p.params 64 } y.descs }) c (Ending.ok h 0))) ∧
  (∀ (s : State) (p : Packet) (c : Cmd) (x : Ctx) (e : Ending), Ready s p 0x0205 c x → checkDescCreate x p = .error e →
    exec (.descCreate p) s = .next (s.finish c e)) ∧
  (∀ (s : State) (p : Packet) (c : Cmd) (x : Ctx), Ready s p 0x0206 c x → s.checkDescRelease (c.view s).ctx x p = .ok () →
    exec (.descRelease p) s = .next (State.finish
      (s.updCtx (c.view s).ctx fun y => { y with descs := Kv.del (p.at 64 4) y.descs }) c (Ending.ok 0 0))) ∧
  (∀ (s : State) (p : Packet) (c d : Cmd) (x : Ctx), Ready s p 0x0208 c x → s.checkFaultResume (c.view s).ctx p = .ok () →
    p.at 72 1 = 0 → s.faultedCmd (c.view s).ctx (p.at 64 8) = some d →
    exec (.faultResume p) s = .next (State.finish ((s.updCmd d.queue d.seq fun y => { y with fault := none }).updCtx (c.view s).ctx
      fun y => { y with ring := y.ring.close (p.at 64 8) }) c (Ending.ok 0 0))) ∧
  (∀ (s : State) (p : Packet) (c d : Cmd) (x : Ctx), Ready s p 0x0208 c x → s.checkFaultResume (c.view s).ctx p = .ok () →
    p.at 72 1 = 1 → s.faultedCmd (c.view s).ctx (p.at 64 8) = some d →
    exec (.faultResume p) s = .next (State.finish ((State.finish (s.updCmd d.queue d.seq fun y => { y with fault := none }) d
      { status := .faultPending, detail := d.faultAt, r1 := d.cursor }).updCtx (c.view s).ctx
      fun y => { y with ring := y.ring.close (p.at 64 8) }) c (Ending.ok 0 0)))

/-- A DMA_COPY whose turn it is and whose fields pass, with an inline payload (of at most 448 bytes, so of one unit) and a destination that
translates for writing, ends DONE; its effect on memory is the write of the first LENGTH bytes of the payload at DEST in the state in which the
destination's pages have been translated, and nothing else. -/
def Obligations.DmaCopyOfInlinePayloadCompletes : Prop :=
  ∀ (s s1 : State) (p : Packet) (c : Cmd) (x : Ctx), Ready s p 0x0207 c x → c.cursor = 0 → c.cancel = false → checkDmaCopy x p = .ok () →
    p.at 64 8 = 2 ^ 64 - 1 → p.at 80 8 ≤ 448 →
    (s.begin c .none).touch (c.view s).ctx c.bound (p.at 72 8) (p.at 80 8) accW true = .ok s1 →
    exec (.dmaCopy p) s = .next (State.finish
      ((s1.vwrite (c.view s).ctx c.bound (p.at 72 8) ((p.payload 32).take (p.at 80 8))).updCmd c.queue c.seq fun y =>
        { y with cursor := y.cursor + 1 }) c (Ending.ok 0 0))

/-- Whose turn it is, NOP ends DONE and does nothing. On a word of a pinned ink page, in the state in which the page's frame, where it was FREE, has
been claimed (R206), INK_INIT writes a value word with the packet's tag or a counter word with the packet's COUNT, LOWER and UPPER, whose tag is
set exactly when COUNT is above LOWER, and ends DONE; INK_READ of a well-formed word returns its mode, tag and value and changes no byte and no
tag; INK_OVERRIDE whose fields pass and whose action the word takes replaces the word of the target context, marks that context overridden where
the word changed or was malformed, writes its log entry and ends DONE with the word's prior state. INK_WORD_EVICT takes the word out of the ink
unit and changes nothing else. -/
def Obligations.InkCommandsComplete : Prop :=
  (∀ (s : State) (p : Packet) (c : Cmd) (x : Ctx), Ready s p 0x0603 c x → exec (.nop p) s = .next (s.finish c (Ending.ok 0 0))) ∧
  (∀ (s s1 : State) (p : Packet) (c : Cmd) (x : Ctx) (pa : Nat), Ready s p 0x0601 c x → s.pinnedInkPa (c.view s).ctx (p.at 64 8) = some pa →
    s1 = s.claimPage (c.view s).ctx (p.at 64 8) →
    ∃ w : InkWord, exec (.inkInit p) s = .next (State.finish (s1.inkPut pa w) c (Ending.ok 0 0)) ∧ w.malformed = false ∧
      (p.at 72 1 = 0 → w.counter = false ∧ w.value = 0 ∧ w.tag = bitOf (p.at 73 1) 0) ∧
      (p.at 72 1 ≠ 0 → w.counter = true ∧ w.value = p.at 74 2 ∧ w.lower = p.at 76 2 ∧ w.upper = p.at 78 2 ∧
        (w.tag = true ↔ p.at 76 2 < p.at 74 2))) ∧
  (∀ (s s1 : State) (p : Packet) (c : Cmd) (x : Ctx) (pa : Nat), Ready s p 0x0602 c x → s.pinnedInkPa (c.view s).ctx (p.at 64 8) = some pa →
    s1 = s.claimPage (c.view s).ctx (p.at 64 8) → s1.mem.bad pa 8 = false → (s1.inkAt pa).malformed = false →
    ∃ t : State, exec (.inkRead p) s = .next (t.finish c
        (Ending.ok (2 * b2n (s1.inkAt pa).counter + b2n (s1.inkAt pa).tag) (s1.inkAt pa).value)) ∧
      t = { s1 with mem := { s1.mem with inkUnit := t.mem.inkUnit } }) ∧
  (∀ (s s1 : State) (p : Packet) (c : Cmd) (x : Ctx) (pa : Nat) (w : InkWord), Ready s p 0x0604 c x → s.checkInkOverride p = .ok () →
    s.inkPa (p.at 64 2) (p.at 72 8) = some pa → s1 = s.claimPage (p.at 64 2) (p.at 72 8) → s1.mem.bad pa 8 = false →
    overrideWord (s1.inkAt pa) (p.at 80 1) (p.at 82 2) = some w →
    (w.bits ≠ (s1.inkAt pa).bits ∨ w.tag ≠ (s1.inkAt pa).tag ∨ (s1.inkAt pa).malformed = true →
      exec (.inkOverride p) s = .next (State.finish (((s1.inkPut pa w).updCtx (p.at 64 2) fun y =>
          { y with overridden := true }).logOverride (c.view s).ctx p .done) c
        (Ending.ok (2 * b2n (s1.inkAt pa).counter + b2n (s1.inkAt pa).tag) (s1.inkAt pa).value))) ∧
    (w.bits = (s1.inkAt pa).bits → w.tag = (s1.inkAt pa).tag → (s1.inkAt pa).malformed = false →
      exec (.inkOverride p) s = .next (State.finish ((s1.inkPut pa w).logOverride (c.view s).ctx p .done) c
        (Ending.ok (2 * b2n (s1.inkAt pa).counter + b2n (s1.inkAt pa).tag) (s1.inkAt pa).value)))) ∧
  (∀ (s : State) (word : Nat), exec (.inkWordEvict word) s = .next { s with mem := { s.mem with inkUnit := s.mem.inkUnit.filter (· ≠ word) } })

/-- A value word or counter word that is not malformed, with 16-bit fields and for a counter LOWER <= COUNT <= UPPER, is what the word's 64 bits and
tag read as. A signal on such a word answers a word that is again not malformed and, for a counter, stays within its bounds; a raise above UPPER
is refused with INK_OVERFLOW and a lowering below LOWER with INK_UNDERFLOW, exactly then. -/
def Obligations.InkWordsKeepTheirBounds : Prop :=
  (∀ w : InkWord, w.malformed = false → w.value < 2 ^ 16 →
    (if w.counter then w.lower ≤ w.value ∧ w.value ≤ w.upper ∧ w.upper < 2 ^ 16 else w.lower = 0 ∧ w.upper = 0) →
    InkWord.ofBits w.bits w.tag = w) ∧
  (∀ (w w' : InkWord) (k v : Nat), w.malformed = false → (w.counter = true → w.lower ≤ w.value ∧ w.value ≤ w.upper) →
    inkStep w k v = .ok w' → w'.malformed = false ∧ w'.counter = w.counter ∧ w'.lower = w.lower ∧ w'.upper = w.upper ∧
      (w.counter = true → w'.lower ≤ w'.value ∧ w'.value ≤ w'.upper ∧ (w'.tag = true ↔ w'.lower < w'.value))) ∧
  (∀ (w : InkWord) (v : Nat), w.malformed = false → w.counter = true →
    (inkStep w 3 v = .error .inkOverflow ↔ w.upper < w.value + v) ∧ (inkStep w 4 v = .error .inkUnderflow ↔ w.value < w.lower + v))

/-- FRAME_ZERO_FILL_DONE of a frame being filled leaves every byte of the frame zero and every other byte as it was, and the frame is no longer being
filled. FAULT_LIMIT of an open fault whose limit has passed closes the fault and ends the command that waited on it with FAULT_PENDING, its
cursor in RESULT1. PATROL_READ that finds a line of a framed memory corrected counts it and changes nothing else; one that finds it uncorrectable
marks that line and no other, but for a line of a copy of the frame map or the context table, which is written again from the other copy, and
counts and reports it as a MEDIA error without a context; a clean one, or one of an address in no frame, changes nothing. -/
def Obligations.MemoryEventsComplete : Prop :=
  (∀ (s : State) (f : Nat), f ∈ s.mem.filling →
    ∃ t : State, exec (.frameZeroFillDone f) s = .next t ∧ (∀ a, a / 65536 = f → t.mem.read a = 0) ∧
      (∀ a, a / 65536 ≠ f → t.mem.read a = s.mem.read a) ∧ f ∉ t.mem.filling ∧ t.ctxs = s.ctxs ∧ t.queues = s.queues) ∧
  (∀ (s : State) (n fseq : Nat) (x : Ctx) (f : FaultRecord) (c : Cmd), Kv.get n s.ctxs = some x →
    x.ring.opened.find? (fun g => decide (g.fseq = fseq)) = some f → f.stroke + x.faultLimit ≤ s.strk.now →
    s.faultedCmd n fseq = some c →
    ∃ t : State, exec (.faultLimit n fseq) s = .next t ∧
      (t.findCmd c.queue c.seq).map (·.phase) = some (.finished { status := .faultPending, detail := c.faultAt, r1 := c.cursor }) ∧
      t.faultOpen n fseq = false ∧ t.mem = s.mem ∧ t.queues = s.queues) ∧
  (∀ (s : State) (line : Nat), exec (.patrolRead line .clean) s = .next s) ∧
  (∀ (s : State) (line : Nat), s.framed (lineOf line) = true →
    exec (.patrolRead line .corrected) s = .next (s.countError (lineOf line) 0) ∧
      s.countError (lineOf line) 0 = { s with
        plates := (s.countError (lineOf line) 0).plates, eccCounts := (s.countError (lineOf line) 0).eccCounts }) ∧
  (∀ (s : State) (line : Nat), s.framed (lineOf line) = true →
    ∃ t : State, exec (.patrolRead line .uncorrectable) s = .next (t.logMedia noContext (lineOf line)) ∧
      t = { s with mem := { s.mem with badLines := t.mem.badLines } } ∧
      (∀ l, l ∈ t.mem.badLines ↔ l ∈ s.mem.badLines ∨ (l = lineOf line ∧ inTableCopy l = false))) ∧
  (∀ (s : State) (line : Nat) (finding : PatrolFinding), s.framed (lineOf line) = false → exec (.patrolRead line finding) s = .next s)

/-- LINEAR, STIPPLE, TRACER, ATTN_FWD, ATTN_PREP, ATTN_BWD, ROUTE, EXIT and MASK, each whose turn it is, whose predicate is not awaited and whose
checks pass, start: the command is running with its empty work, on the plate or router that its packet names, and the dispatcher issues there
what fits. One whose check fails ends with that check's ending and starts nothing. -/
def Obligations.PlateCommandsStart : Prop :=
  (∀ (s : State) (p : Packet) (c : Cmd) (x : Ctx), Ready s p 0x0301 c x → c.awaitsSkip = false →
    (s.checkLinear x (c.view s) p (s.earlierPred c) = .ok () → exec (.linear p) s = .next ((s.begin c newTiles).issueAt (.plate (p.at 81 1)))) ∧
    ∀ e, s.checkLinear x (c.view s) p (s.earlierPred c) = .error e → exec (.linear p) s = .next (s.finish c e)) ∧
  (∀ (s : State) (p : Packet) (c : Cmd) (x : Ctx), Ready s p 0x0302 c x → c.awaitsSkip = false →
    (s.checkStipple x (c.view s) p (s.earlierPred c) = .ok () → exec (.stipple p) s = .next ((s.begin c newTiles).issueAt (.plate (p.at 80 1)))) ∧
    ∀ e, s.checkStipple x (c.view s) p (s.earlierPred c) = .error e → exec (.stipple p) s = .next (s.finish c e)) ∧
  (∀ (s : State) (p : Packet) (c : Cmd) (x : Ctx), Ready s p 0x0401 c x →
    (s.checkTracer x (c.view s) p = .ok () → exec (.tracer p) s =
      .next ((s.begin c (if p.trOp = 1 then .gather 0 [] else .counts [])).issueAt (.plate (p.at 81 1)))) ∧
    ∀ e, s.checkTracer x (c.view s) p = .error e → exec (.tracer p) s = .next (s.finish c e)) ∧
  (∀ (s : State) (p : Packet) (c : Cmd) (x : Ctx), Ready s p 0x0303 c x →
    (s.checkAttn x (c.view s) p = .ok () → exec (.attnFwd p) s = .next ((s.begin c newAttn).issueAt (.plate (p.at 80 1)))) ∧
    ∀ e, s.checkAttn x (c.view s) p = .error e → exec (.attnFwd p) s = .next (s.finish c e)) ∧
  (∀ (s : State) (p : Packet) (c : Cmd) (x : Ctx), Ready s p 0x0304 c x →
    (s.checkAttn x (c.view s) p = .ok () → exec (.attnPrep p) s = .next ((s.begin c newAttn).issueAt (.plate (p.at 80 1)))) ∧
    ∀ e, s.checkAttn x (c.view s) p = .error e → exec (.attnPrep p) s = .next (s.finish c e)) ∧
  (∀ (s : State) (p : Packet) (c : Cmd) (x : Ctx), Ready s p 0x0305 c x →
    (s.checkAttn x (c.view s) p = .ok () → exec (.attnBwd p) s = .next ((s.begin c newAttn).issueAt (.plate (p.at 80 1)))) ∧
    ∀ e, s.checkAttn x (c.view s) p = .error e → exec (.attnBwd p) s = .next (s.finish c e)) ∧
  (∀ (s : State) (p : Packet) (c : Cmd) (x : Ctx), Ready s p 0x0501 c x →
    (s.checkRoute c (c.view s) p = .ok () → exec (.route p) s = .next ((s.begin c (.counts [])).issueAt (.router (p.at 64 1)))) ∧
    ∀ e, s.checkRoute c (c.view s) p = .error e → exec (.route p) s = .next (s.finish c e)) ∧
  (∀ (s : State) (p : Packet) (c : Cmd) (x : Ctx), Ready s p 0x0502 c x →
    (s.checkExit (c.view s) p = .ok () → exec (.exit p) s = .next ((s.begin c (.counts [])).issueAt (.router (p.at 64 1)))) ∧
    ∀ e, s.checkExit (c.view s) p = .error e → exec (.exit p) s = .next (s.finish c e)) ∧
  (∀ (s : State) (p : Packet) (c : Cmd) (x : Ctx), Ready s p 0x0503 c x →
    (s.checkMask (c.view s) p = .ok () → exec (.mask p) s = .next ((s.begin c (.counts [])).issueAt (.router (p.at 64 1)))) ∧
    ∀ e, s.checkMask (c.view s) p = .error e → exec (.mask p) s = .next (s.finish c e))

/-- The first unit of a place that is over counts its busy time and leaves. Where its command's work is done, the command ends on its place with the
ending of its kind: a TRACER, attention or Stencil command with its counted result words and no further effect, LINEAR and STIPPLE with what
their epilogue leaves. Where work is left, the unit is taken off, the command has its full budget again and no overruns, and the next unit that
fits is issued; a cancelled command whose boundary has come stops there instead. Where no unit is over, a unit of a STIPPLE command whose budget
has run out ends: the tile that a Stipple unit holds of it is discarded and the command keeps its place. -/
def Obligations.UnitsEnd : Prop :=
  (∀ (s : State) (u : UnitRef) (run : Nat) (x : DispatchUnit) (c : Cmd), (s.unitsOf u).find? (s.unitOver u) = some x →
    (s.countBusy u run).findCmd x.queue x.seq = some c →
    ((s.countBusy u run).workDone c = true →
      (c.pkt.opcode = 0x0401 → exec (.dispatchUnitEnd u run) s = .next (((s.countBusy u run).endOnPlate c (tracerEnding c)).lateRouter u)) ∧
      (0x0303 ≤ c.pkt.opcode → c.pkt.opcode ≤ 0x0305 →
        exec (.dispatchUnitEnd u run) s = .next (((s.countBusy u run).endOnPlate c (aquatintEnding c)).lateRouter u)) ∧
      (0x0501 ≤ c.pkt.opcode → c.pkt.opcode ≤ 0x0503 →
        exec (.dispatchUnitEnd u run) s = .next (((s.countBusy u run).endOnPlate c (Ending.ok (c.countAt 0) (c.countAt 1))).lateRouter u)) ∧
      (c.pkt.opcode = 0x0301 ∨ c.pkt.opcode = 0x0302 → ∃ (t : State) (e : Ending), (s.countBusy u run).finishTiles c = (t, e) ∧
        exec (.dispatchUnitEnd u run) s = .next ((t.endOnPlate c e).lateRouter u))) ∧
    ((s.countBusy u run).workDone c = false →
      ∃ t : State, t = (((s.countBusy u run).removeUnit c).updCmd c.queue c.seq fun y =>
          { y with budget := ((s.countBusy u run).removeUnit c).fullBudget c, overruns := 0 }) ∧
        (c.cancel = false ∨ t.isDue u = false → exec (.dispatchUnitEnd u run) s = .next ((t.lateRouter u).issueAt u)) ∧
        (c.cancel = true → t.isDue u = true → exec (.dispatchUnitEnd u run) s = .next ((t.preempt c (t.stopEnding c)).lateRouter u)))) ∧
  (∀ (s : State) (n run : Nat) (c : Cmd), (s.unitsOf (.plate n)).find? (s.unitOver (.plate n)) = none →
    s.spentUnit (.plate n) run = some c → c.cancel = false →
    ∃ t t' : State, exec (.dispatchUnitEnd (.plate n) run) s = .next (t'.issueAt (.plate n)) ∧
      t = (s.countBusy (.plate n) run).emptyUnits n [] (fun y => decide (y.queue = c.queue ∧ y.seq = c.seq)) ∧
      t' = (t.removeUnit c).updCmd c.queue c.seq fun y => { y with budget := (t.removeUnit c).fullBudget c, overruns := 0 })

/-- On a plate that can: BURIN_BANK_LOADED loads the next bank of the array's item behind at most one older bank, or gives an idle array its next
item with the first bank of it that the array does not hold, unless the bank's metadata is broken; BURIN_TILE_DELIVERY of an item whose passes
are done puts the item's next tile last in the tray, or stalls the array where the tray is full, and an item with tiles left stays on the array;
TRAY_SLOT_FREE takes the spent slots out, or where none is spent the oldest whose tile is read for the last time, and starts the stalled arrays;
STIPPLE_TILE_TAKEN gives a free unit the oldest untaken tile of the tray, unit 1 only while unit 0 is busy; STIPPLE_TILE_WRITTEN runs the write
stage of the unit's tile, spends its slot and frees the unit, whose registers keep what the list left. No event of the arrays and slots changes a
byte of memory. -/
def Obligations.PlateEventsComplete : Prop :=
  (∀ (s : State) (n k pass : Nat) (a : BurinArray) (i : ArrayItem) (c : Cmd), (Kv.get n s.plates).bind (fun x => x.arrays[k]?) = some a →
    a.item = some i → s.itemCmd n i = some c → i.passes[a.loaded]? = some pass → s.itemBroken c i pass = false →
    ∃ b : BurinArray, exec (.burinBankLoaded n k) s = .next (s.updArray n k b) ∧ b.item = some i ∧ b.loaded = a.loaded + 1 ∧
      ∃ bank : WeightBank, b.banks = (if 2 ≤ a.banks.length then a.banks.drop 1 else a.banks) ++ [bank] ∧ bank.queue = i.queue ∧ bank.seq = i.seq ∧
        bank.stage = i.stage ∧ bank.block = i.block ∧ bank.pass = pass) ∧
  (∀ (s : State) (n k pass : Nat) (a : BurinArray) (i : ArrayItem) (c : Cmd),
    (Kv.get n s.plates).bind (fun x => x.arrays[k]?) = some a → a.item = none → s.nextItem n a = some (c, i) →
    i.passes[(a.begin i).loaded]? = some pass → s.itemBroken c i pass = false →
    ∃ b : BurinArray, exec (.burinBankLoaded n k) s =
        .next ((s.updCmd c.queue c.seq fun y => y.giveTiles (s.itemTiles c i)).updArray n k b) ∧ b.item = some i ∧
      b.loaded = (a.begin i).loaded + 1 ∧ b.banks.map (·.pass) = (a.begin i).banks.map (·.pass) ++ [pass]) ∧
  (∀ (s : State) (n k : Nat) (x : Plate) (a : BurinArray) (i : ArrayItem) (c : Cmd), Kv.get n s.plates = some x → x.arrays[k]? = some a →
    a.item = some i → s.itemCmd n i = some c → i.passes.length ≤ a.loaded →
    (x.tray.length < 24 → ∃ (t : State) (tile : Tile), exec (.burinTileDelivery n k) s = .next t ∧
      (Kv.get n t.plates).map (·.tray) = some (x.tray ++ [{ tile := tile, taken := false, spent := false }]) ∧
      tile.queue = i.queue ∧ tile.seq = i.seq ∧ tile.stage = i.stage ∧ tile.index = (s.itemTiles c i).getD a.delivered 0 ∧ t.mem = s.mem ∧
      (a.delivered + 1 < (s.itemTiles c i).length → ∃ b : BurinArray, ((Kv.get n t.plates).bind fun y => y.arrays[k]?) = some b ∧
        b.item = some i ∧ b.delivered = a.delivered + 1 ∧ b.stalled = false)) ∧
    (24 ≤ x.tray.length → ∃ b : BurinArray, exec (.burinTileDelivery n k) s = .next (s.updArray n k b) ∧ b.item = some i ∧ b.stalled = true)) ∧
  (∀ (s : State) (n : Nat) (x : Plate), Kv.get n s.plates = some x →
    (x.tray.any (·.spent) = true → ∃ t : State, exec (.traySlotFree n) s = .next t ∧ (Kv.get n t.plates).map (·.tray) = some (x.tray.filter fun y => !y.spent) ∧
      (Kv.get n t.plates).map (·.arrays) = some (x.arrays.map fun a => { a with stalled := false }) ∧ t.mem = s.mem ∧ t.cmds = s.cmds) ∧
    (∀ slot, x.tray.any (·.spent) = false → x.tray.find? s.slotDone = some slot →
      ∃ t : State, exec (.traySlotFree n) s = .next t ∧ (Kv.get n t.plates).map (·.tray) = some (x.tray.erase slot) ∧
        (Kv.get n t.plates).map (·.arrays) = some (x.arrays.map fun a => { a with stalled := false }) ∧ t.mem = s.mem ∧ t.cmds = s.cmds)) ∧
  (∀ (s : State) (n k : Nat) (x : Plate) (tile : Tile) (tray : List TraySlot), Kv.get n s.plates = some x → k < x.stipples.length →
    (x.stipples.getD k .empty).tile = none → (k = 1 → (x.stipples.getD 0 .empty).tile ≠ none) → takeOldest x.tray = some (tile, tray) →
    exec (.stippleTileTaken n k) s = .next (s.updPlate n fun y =>
      { y with tray := tray, stipples := y.stipples.set k { tile := some tile, regs := [] } })) ∧
  (∀ (s : State) (n k : Nat) (x : Plate) (u : StippleUnit) (tile : Tile), Kv.get n s.plates = some x → x.stipples[k]? = some u → u.tile = some tile →
    exec (.stippleTileWritten n k) s = .next ((s.writeOne tile).1.updPlate n fun y =>
      { y with tray := spendSlot tile y.tray, stipples := y.stipples.set k { tile := none, regs := (s.writeOne tile).2 } }))

/-- Where every page of the unit translates, TRACER_UNIT of a COPY or RESIZE writes the bytes of the unit's window and no other byte, and advances
the command's cursor by one; AQUATINT_PAIR_COMMIT of an ATTN_PREP writes D of the query block's rows and commits the block; STENCIL_TOKEN of a
MASK row that is not the last writes the row, each field of which is the code of R115 of its block pair, and advances the cursor by one. -/
def Obligations.UnitEventsComplete : Prop :=
  (∀ (s s1 : State) (n : Nat) (c : Cmd) (x : Ctx) (src dst : Desc),
    (s.working (.plate n)).find? (fun c => decide (c.pkt.opcode = 0x0401 ∧ c.cursor < s.tracerTotal (c.view s) c.pkt) && s.clearOn n c) = some c →
    s.desc (c.view s).ctx (c.pkt.par 20 4) = some src → s.desc (c.view s).ctx (c.pkt.par 24 4) = some dst → s.ctxOf c = some x →
    c.pkt.trOp ≠ 1 → c.pkt.trOp ≠ 2 →
    s.touchUnit (c.view s) (UnitIO.mk [(84, copySources c.pkt src dst (dst.unitFlats (dst.unitWindow c.cursor)))]
      [(88, [dst.unitWindow c.cursor])]) = .ok s1 →
    ∃ (t : State) (bs : List Byte) (f : Cmd → Cmd), exec (.tracerUnit n) s = .next (t.updCmd c.queue c.seq f) ∧
      (∀ y, f y = { y with cursor := y.cursor + 1, work := (f y).work }) ∧ bs.length = (dst.unitWindow c.cursor).2 ∧
      t = { s1.vwrite (c.view s).ctx c.bound (dst.unitWindow c.cursor).1 bs with free := t.free }) ∧
  (∀ (s s1 : State) (n h i r : Nat) (c : Cmd) (x : Ctx),
    (s.working (.plate n)).find? (fun c => decide (0x0303 ≤ c.pkt.opcode ∧ c.pkt.opcode ≤ 0x0305 ∧ c.cursor < aquatintTotal c.pkt) && s.clearOn n c) = some c →
    s.ctxOf c = some x → c.pkt.opcode = 0x0304 → h = c.pkt.aqH0 + c.cursor / c.pkt.aqNq → i = c.pkt.aqQ0 + c.cursor % c.pkt.aqNq →
    r = aqRowsOf c.pkt.aqLq c.pkt.aqBq i →
    s.touchUnit (c.view s) (UnitIO.mk [s.aqRows (c.view s) c.pkt 164 h (i * c.pkt.aqBq) r, s.aqRows (c.view s) c.pkt 156 h (i * c.pkt.aqBq) r]
      [s.aqOut (c.view s) c.pkt 168 h (i * c.pkt.aqBq) r, s.fieldAll (c.view s) c.pkt 196]) = .ok s1 →
    ∃ ds : List FV, ds.length = r ∧ exec (.aquatintPairCommit n) s =
      .next ((s1.writeVec (c.view s) c.pkt 168 h (i * c.pkt.aqBq) ds).commitPair c (c.cursor + 1) [] (0, 0) [])) ∧
  (∀ (s s1 : State) (tile bq rb : Nat) (c : Cmd) (out : Desc) (ov : List (Nat × Nat)),
    (s.working (.router tile)).find? (fun c => decide (c.cursor < s.stencilTotal (c.view s) c.pkt)) = some c → c.pkt.opcode = 0x0503 →
    s.desc (c.view s).ctx (c.pkt.at 96 4) = some out → bq = blockSize (c.pkt.at 66 1) → rb = maskRowBytes (c.pkt.at 72 4) (blockSize (c.pkt.at 67 1)) →
    ov = ((s.desc (c.view s).ctx (c.pkt.at 92 4)).map fun d => [(d.base + c.cursor * rb, rb)]).getD [] →
    c.cursor + 1 ≠ ceilDiv (c.pkt.at 68 4) bq →
    s.touchUnit (c.view s) (UnitIO.mk [s.fieldElems (c.view s) c.pkt 84 (c.cursor * bq) (min bq (c.pkt.at 68 4 - c.cursor * bq)),
      s.fieldAll (c.view s) c.pkt 88, (92, ov)] [(96, [(out.base + c.cursor * rb, rb)])]) = .ok s1 →
    ∃ (w : Nat) (f : Cmd → Cmd), exec (.stencilToken tile) s = .next ((s1.vwrite (c.view s).ctx c.bound (out.base + c.cursor * rb) (leBytes rb w)).updCmd
        c.queue c.seq f) ∧
      (∀ b, b < ceilDiv (c.pkt.at 72 4) (blockSize (c.pkt.at 67 1)) → w / 4 ^ b % 4 = s1.maskCode (c.view s) c.pkt c.cursor b) ∧
      ∀ y, f y = { y with cursor := y.cursor + 1, work := (f y).work })

/-- PLATE_HANDOVER of a drained plate whose handover is due gives it the context that R141 chooses, with its arrays and Stipple units empty, and
issues that context's first units. STROKE_OVERRUN of a plate that is still due drains it by force and takes its units away; a lone unit's command
that is not cancelled ends with STROKE_OVERRUN, detail 20 and the ACLK its unit has run at its third consecutive overrun, and counts one more
overrun before that. ENGINE_HUNG resets such a plate, empties its arrays, tray and units, and marks it hung. COMMAND_SKIP of a command whose
predicate held ends it DONE with bit 1 of RESULT1 set, and a predicate that the command itself carries does not hold; where it did not hold, the
command may run. -/
def Obligations.StrokeEventsOfPlatesComplete : Prop :=
  (∀ (s : State) (n : Nat) (x : Plate), Kv.get n s.plates = some x → x.due = true → x.drained = true → x.hung = false →
    ∃ t : State, exec (.plateHandover n) s = .next (t.issue (.plate n) true (s.cmds.length + 1)) ∧
      (Kv.get n t.plates).map (fun y => (y.ctx, y.due)) = some (s.chooseCtx (.plate n) x.last x.ctx, false) ∧
      (Kv.get n t.plates).map (fun y => (y.arrays, y.stipples)) = some (x.arrays.map fun _ => .idle, x.stipples.map fun _ => .empty) ∧
      (∀ j, j ≠ n → Kv.get j t.plates = Kv.get j s.plates) ∧ t.mem = s.mem ∧ t.cmds = s.cmds) ∧
  (∀ (s : State) (n run : Nat) (x : Plate) (u : DispatchUnit) (c : Cmd), Kv.get n s.plates = some x → x.due = true → x.units = [u] →
    s.findCmd u.queue u.seq = some c → c.cancel = false →
    ∃ t : State, exec (.strokeOverrun (.plate n) run) s = .next t ∧
      (Kv.get n t.plates).map (fun y => (y.units, y.tray, y.drained)) = some ([], [], true) ∧
      (c.overruns < 2 → (t.findCmd c.queue c.seq).map (·.overruns) = some (c.overruns + 1)) ∧
      (2 ≤ c.overruns → ∃ k, (t.findCmd c.queue c.seq).map (·.phase) =
        some (.finished { status := .strokeOverrun, detail := 20, r0 := (1100 * s.strk.period - u.issued) * 7 / 10 % 2 ^ 32, r1 := k }))) ∧
  (∀ (s : State) (n : Nat) (x : Plate), Kv.get n s.plates = some x → x.due = true → x.units ≠ [] →
    ∃ t : State, exec (.engineHung (.plate n)) s = .next t ∧
      (Kv.get n t.plates).map (fun y => (y.units, y.tray, y.hung, y.drained)) = some ([], [], true, true) ∧
      (Kv.get n t.plates).map (fun y => (y.arrays, y.stipples)) = some (x.arrays.map fun _ => .idle, x.stipples.map fun _ => .empty) ∧ t.mem = s.mem) ∧
  (∀ (s : State) (q k : Nat) (c : Cmd) (r : PredResult), s.findCmd q k = some c → c.awaitsSkip = true → s.mayStart c = true →
    (s.preds.filter fun r => decide (r.queue = q) && decide (r.group = c.group) && decide (r.seq < k)) = [r] →
    (∀ d ∈ s.cmds, ¬ (d.queue = q ∧ d.group = c.group ∧ r.seq < d.seq ∧ d.seq < k)) → (∀ d ∈ s.cmds, ¬ (d.queue = q ∧ d.seq = r.seq)) →
    (r.held = true → ∃ t : State, t = (s.ledgerFlag (c.view s).ctx (c.pkt.par 0 5) 0x08).finish c (Ending.ok 0 2) ∧
      (c.pkt.epi 2 1 = 0 → exec (.commandSkip q k) s = .next t) ∧
      (c.pkt.epi 2 1 ≠ 0 → exec (.commandSkip q k) s =
        .next { t with preds := { queue := q, group := c.group, seq := k, held := false } :: t.preds })) ∧
    (r.held = false → exec (.commandSkip q k) s = .next (s.updCmd q k fun y => { y with skipSettled := true })))

/-- Whose turn it is and whose checks pass: QP_CREATE ends with the number in RESULT0 and leaves a queue pair in RESET with the packet's class,
encryption, spray and window, owned by the command's context, and on chip, and changes nothing but Stylus's state while fewer than 2,048 others
are on chip; QP_CONNECT leaves it CONNECTED to the packet's node, queue pair and starting PSN, through class KEY, where that has a slot, for an
encrypted one; QP_DESTROY ends every running request of it with PEER_LOST and removes the queue pair, its packets and its place on chip; QP_QUERY
returns the state's code and the retransmissions. Every other queue pair is as before. -/
def Obligations.QueuePairCommandsComplete : Prop :=
  (∀ (s : State) (p : Packet) (c : Cmd) (x : Ctx) (k : Nat), Ready s p 0x0701 c x → s.checkQpCreate p = .ok () →
    k = (if p.at 64 4 = 0xFFFF_FFFF then (Kv.lowestFree 0 65536 s.stylus.qps).getD 0 else p.at 64 4) →
    ∃ (t : State) (q : Qp), exec (.qpCreate p) s = .next (t.finish c (Ending.ok k 0)) ∧ t.qp k = some q ∧
      (∀ j, j ≠ k → t.qp j = s.qp j) ∧ t.onChip k = true ∧ t.cmds = s.cmds ∧ t.queues = s.queues ∧ t.ctxs = s.ctxs ∧ q.owner = (c.view s).ctx ∧ q.cls = p.at 68 1 ∧ q.encrypt = bitOf (p.at 69 1) 1 ∧
      q.spray = bitOf (p.at 69 1) 0 ∧ q.window = p.at 70 2 ∧ q.state = .reset ∧ q.recvs = [] ∧ q.sends = [] ∧ q.armed = [] ∧
      ((s.stylus.chip.filter (· ≠ k)).length < 2048 → t = { s with stylus := t.stylus })) ∧
  (∀ (s : State) (p : Packet) (c : Cmd) (x : Ctx) (q : Qp), Ready s p 0x0702 c x → s.qp (p.at 64 4) = some q → q.encrypt = false →
    s.checkQpConnect (c.view s).ctx p = .ok () →
    exec (.qpConnect p) s = .next ((s.updQp (p.at 64 4) fun q =>
      { q with state := .connected, peerNode := p.at 68 2, peerQp := p.at 72 4, startPsn := p.at 76 4 }).finish c (Ending.ok 0 0))) ∧
  (∀ (s : State) (p : Packet) (c : Cmd) (x : Ctx) (q : Qp), Ready s p 0x0702 c x → s.qp (p.at 64 4) = some q → q.encrypt = true →
    s.classAdmits clsKey (c.view s).ctx = true → s.checkQpConnect (c.view s).ctx p = .ok () →
    ∃ t : State, exec (.qpConnect p) s = .next (t.finish c (Ending.ok 0 0)) ∧
      t.qp (p.at 64 4) = some { q with state := .connected, peerNode := p.at 68 2, peerQp := p.at 72 4, startPsn := p.at 76 4 } ∧
      (∀ j, j ≠ p.at 64 4 → t.qp j = s.qp j) ∧ t.ctxs = s.ctxs ∧ t.queues = s.queues ∧ t.mem = s.mem) ∧
  (∀ (s : State) (p : Packet) (c : Cmd) (x : Ctx) (q : Qp), Ready s p 0x0703 c x → s.needQp (c.view s).ctx (p.at 64 4) 64 = .ok q →
    zeroBytes p 68 79 = .ok () →
    ∃ t : State, exec (.qpDestroy p) s = .next (t.finish c (Ending.ok 0 0)) ∧ t.qp (p.at 64 4) = none ∧
      (∀ j, j ≠ p.at 64 4 → t.qp j = s.qp j) ∧ t.onChip (p.at 64 4) = false ∧ (∀ m ∈ t.stylus.miss, m.1 ≠ p.at 64 4) ∧
      t = { s with stylus := t.stylus, cmds := t.cmds } ∧
      t.cmds = ((s.posts (p.at 64 4) q).foldl (fun s w => s.finishPost w (.fail .peerLost 64)) s).cmds) ∧
  (∀ (s : State) (p : Packet) (c : Cmd) (x : Ctx) (q : Qp), Ready s p 0x0707 c x → s.needQp (c.view s).ctx (p.at 64 4) 64 = .ok q →
    zeroBytes p 68 79 = .ok () → exec (.qpQuery p) s = .next (s.finish c (Ending.ok q.state.code q.retrans)))

/-- Whose turn it is, whose checks pass, whose queue pair is on chip and whose earlier posts to that queue pair have all started: POST_RECV is
running and last among the posted receives; POST_SEND and POST_INK without a trigger are running and last among the accepted requests, with the
next MSN, and the queue pair's next MSN is one more. TRIGGER_FIRE accepts the oldest fired request of the queue pair as a post without a trigger
does; TRIGGER_TIMEOUT ends the first armed request whose WAIT_LIMIT has passed with TIMEOUT, detail 80. No byte of memory changes, but that
TRIGGER_FIRE may bring the queue pair's state on chip. -/
def Obligations.PostsTakeTheirPlace : Prop :=
  (∀ (s : State) (p : Packet) (c : Cmd) (x : Ctx) (q : Qp), Ready s p 0x0704 c x → s.checkPostRecv (c.view s).ctx x p = .ok () →
    s.onChip (p.at 64 4) = true → s.stylus.chip.length ≤ 2048 →
    s.postWaits c = false → s.postFetching (p.at 64 4) = false → s.qp (p.at 64 4) = some q →
    ∃ t : State, exec (.postRecv p) s = .next t ∧ t.cmds = (s.begin c .none).cmds ∧
      t.qp (p.at 64 4) = some { q with recvs := q.recvs ++ [(c.queue, c.seq)] } ∧ t.mem = s.mem ∧ t.ctxs = s.ctxs) ∧
  (∀ (s : State) (p : Packet) (c : Cmd) (x : Ctx) (q : Qp), Ready s p 0x0705 c x → s.checkPost (c.view s).ctx x p = .ok () →
    p.at 80 1 = 0 → s.onChip (p.at 64 4) = true → s.stylus.chip.length ≤ 2048 →
    s.postWaits c = false → s.postFetching (p.at 64 4) = false → s.qp (p.at 64 4) = some q →
    ∃ (t : State) (r : SendReq), exec (.postSend p) s = .next t ∧ t.cmds = (s.begin c .none).cmds ∧
      t.qp (p.at 64 4) = some { q with sends := q.sends ++ [r], nextMsn := (q.nextMsn + 1) % 2 ^ 32 } ∧
      r.cmd = some (p.queue, p.seq) ∧ r.ink = false ∧ r.tag = p.at 72 8 ∧ r.msn = q.nextMsn ∧ r.packets = 0 ∧ t.mem = s.mem ∧ t.ctxs = s.ctxs) ∧
  (∀ (s : State) (p : Packet) (c : Cmd) (x : Ctx) (q : Qp), Ready s p 0x0706 c x → s.checkPost (c.view s).ctx x p = .ok () →
    p.at 80 1 = 0 → s.onChip (p.at 64 4) = true → s.stylus.chip.length ≤ 2048 →
    s.postWaits c = false → s.postFetching (p.at 64 4) = false → s.qp (p.at 64 4) = some q →
    ∃ (t : State) (r : SendReq), exec (.postInk p) s = .next t ∧ t.cmds = (s.begin c .none).cmds ∧
      t.qp (p.at 64 4) = some { q with sends := q.sends ++ [r], nextMsn := (q.nextMsn + 1) % 2 ^ 32 } ∧
      r.cmd = some (p.queue, p.seq) ∧ r.ink = true ∧ r.len = 0 ∧ r.tag = p.at 72 8 ∧ r.msn = q.nextMsn ∧ t.mem = s.mem ∧ t.ctxs = s.ctxs) ∧
  (∀ (s : State) (k : Nat) (q : Qp) (a : Armed) (c : Cmd), s.qp k = some q → q.armed.find? (·.fired) = some a →
    s.findCmd a.queue a.seq = some c →
    ∃ (t : State) (r : SendReq), exec (.triggerFire k) s = .next t ∧ t.qp k = some { q with
        armed := q.armed.filter (· ≠ a), sends := q.sends ++ [r], nextMsn := (q.nextMsn + 1) % 2 ^ 32 } ∧
      r.cmd = some (c.pkt.queue, c.pkt.seq) ∧ r.msn = q.nextMsn ∧ t.cmds = s.cmds ∧ t.ctxs = s.ctxs ∧
      (s.onChip k = true → s.stylus.chip.length ≤ 2048 → t.mem = s.mem)) ∧
  (∀ (s : State) (k : Nat) (q : Qp) (a : Armed), s.qp k = some q →
    q.armed.find? (fun a => !a.fired && decide (a.since + (((Kv.get a.queue s.queues).map (·.waitLimit)).getD 0) ≤ s.strk.now)) = some a →
    ∃ t : State, exec (.triggerTimeout k) s = .next t ∧ t.qp k = some { q with armed := q.armed.filter (· ≠ a) } ∧
      t.cmds = (s.finishPost (a.queue, a.seq) (.fail .timeout 80)).cmds ∧ t.mem = s.mem)

/-- A DATA or INK packet that passes the checks, new and inside the window, is taken by its queue pair; one below the cumulative PSN only makes an
ACK due that echoes it; one that fails its checksum is counted as dropped on its port and changes nothing else but the free-value counter; an ACK
is taken by the sender. ACK_TIMER makes an ACK due; RETRANSMIT_TIMEOUT below its sixteenth expiry doubles the timeout up to 64,000 ns and asks
for the oldest packet again, and at the sixteenth puts the queue pair into ERROR; RNR_RESEND asks for the oldest packet again; RNR_TIMEOUT ends a
send with TIMEOUT, detail 72; QP_STATE_FETCHED brings the state of a queue pair for which nothing waits on chip; PACKET_SEND with an ACK due
sends it when its class may begin, and behind it the transit packets that may begin then. -/
def Obligations.StylusEventsComplete : Prop :=
  (∀ (s : State) (port k c : Nat) (q : Qp) (pkt : List Byte), RxPasses s port k q pkt → packetType pkt 0 = true → fieldAt pkt 0 1 % 16 = 0 →
    q.extCount q.cum (fieldAt pkt 12 3) = some c →
    (q.cum ≤ c → c ∉ q.received → c < q.cum + q.window →
      exec (.dataPacketReceived port true pkt) s = .next (((({ s with free := s.free + 1 }.useQp k).updQp k fun q =>
        { q with authFails := 0 }).takeData k port q c pkt (pkt.drop 40)))) ∧
    (c < q.cum → exec (.dataPacketReceived port true pkt) s = .next (((({ s with free := s.free + 1 }.useQp k).updQp k fun q =>
        { q with authFails := 0 }).updQp k fun q => { q with echo := c }.ackNow 0 0 0)))) ∧
  (∀ (s : State) (port : Nat) (pkt : List Byte), s.portUp port = true → packetType pkt 0 = true →
    exec (.dataPacketReceived port false pkt) s = .next ({ s with free := s.free + 1 }.portCount port 2 1)) ∧
  (∀ (s : State) (port k c : Nat) (q : Qp) (pkt : List Byte), RxPasses s port k q pkt → fieldAt pkt 0 1 % 16 = 1 →
    q.extCount q.cum (fieldAt pkt 12 3) = some c → q.cum ≤ c → c ∉ q.received → c < q.cum + q.window →
    exec (.inkPacketReceived port true pkt) s = .next (((({ s with free := s.free + 1 }.useQp k).updQp k fun q =>
      { q with authFails := 0 }).takeInk k port q c pkt))) ∧
  (∀ (s : State) (port k now : Nat) (q : Qp) (pkt : List Byte), RxPasses s port k q pkt → fieldAt pkt 0 1 % 16 = 2 →
    exec (.ackReceived port true pkt now) s = .next (((s.useQp k).updQp k fun q => { q with authFails := 0 }).takeAck k port q pkt
      (s.strk.elapsed + now))) ∧
  (∀ (s : State) (k : Nat) (q : Qp), s.qp k = some q → 0 < q.sinceAck →
    exec (.ackTimer k) s = .next (s.updQp k fun q => q.ackNow 0 0 0)) ∧
  (∀ (s : State) (k : Nat) (q : Qp), s.qp k = some q → q.unacked.all (·.acked) = false → ((q.oldestReq).map (·.rnr)).getD false = false →
    (q.expiries + 1 ≠ 16 → exec (.retransmitTimeout k) s = .next ((s.bringQp k).updQp k fun q =>
      { q with expiries := q.expiries + 1, rto := min (2 * q.rto) 64000 }.resendOldest)) ∧
    (q.expiries + 1 = 16 → q.state ≠ .error → ∃ t : State, exec (.retransmitTimeout k) s = .next t ∧
      (t.qp k).map (·.state) = some .error)) ∧
  (∀ (s : State) (k : Nat) (q : Qp) (r : SendReq), s.qp k = some q → q.oldestReq = some r → r.rnr = true →
    exec (.rnrResend k) s = .next (s.updQp k fun q => (q.setReq { r with rnr := false }).resendOldest)) ∧
  (∀ (s : State) (k since : Nat) (q : Qp) (r : SendReq) (w : Nat × Nat) (c : Cmd) (x : Queue), s.qp k = some q →
    q.sends.find? (·.rnr) = some r → r.cmd = some w → s.findCmd w.1 w.2 = some c → rnrSince c r = some since →
    Kv.get c.queue s.queues = some x → since + x.waitLimit ≤ s.strk.now → c.pkt.opcode ≠ 0x0903 →
    ∃ t : State, exec (.rnrTimeout k) s = .next (t.finish c (.fail .timeout 72)) ∧ t.cmds = s.cmds ∧ t.mem = s.mem) ∧
  (∀ (s : State) (k : Nat) (q : Qp), s.qp k = some q → s.onChip k = false → (s.stylus.miss.filter fun m => decide (m.1 = k)) = [] →
    (∀ c ∈ s.cmds, ¬ (c.phase = .running ∧ c.work = .counts [1] ∧ c.postsTo k = true)) →
    ∃ t : State, exec (.qpStateFetched k) s = .next t ∧ t.onChip k = true ∧ t.stylus.qps = s.stylus.qps ∧ t.cmds = s.cmds ∧
      t = { s.bringQp k with stylus := t.stylus }) ∧
  (∀ (s : State) (k now flags sp st : Nat) (q : Qp) (e : NodeEntry) (port : Nat × Bool) (rest : List (Nat × Nat × Nat)), s.qp k = some q →
    s.onChip k = true → q.nextTx = some .ack → s.nodeOf q.peerNode = some e → s.txPort k q .ack = some port → port.2 = false →
    q.acks = (flags, sp, st) :: rest →
    ∀ pkt, pkt = sealPacket q k true q.ackSeq (ackHeader q s.selfNode k flags sp st) [] →
      s.mayBegin port.1 q.cls (s.frameBytes port.1 e pkt) now (s.queuedAt k port.1) = true →
      exec (.packetSend k now) s = .next ((((s.useQp k).sendPacket port.1 e q.cls pkt).updQp k fun q =>
        { q with acks := rest, ackSeq := (q.ackSeq + 1) % 2 ^ 64 }).portLane port.1 (now + s.frameTime port.1 (s.frameBytes port.1 e pkt))))

/-- Whose turn it is and whose checks pass: GRAD_POLICY, whose entries can be read and are well formed, installs one policy per layer as its entries
say, keeps what has been decided and clears the layers' statistics; XH_GROUP, whose staging area can be read and written and holds a right
header, zero-fills the area behind its header, stores the group under its number with the packet's mode, topology, ring, contributors, margin and
deadline and the header's ring neighbours and plate, and ends with DONE; XH_REDUCE is running, its bucket waiting in its group's queue (entered
now where its admission did not enter it); XH_ABORT aborts the step on this part and ends with DONE; PREFETCH_HINT, with no hint and no DMA_COPY
before it, copies page by page: DONE with the bytes copied once all pages are copied or at the first page that is not present. -/
def Obligations.CrosshatchCommandsComplete : Prop :=
  (∀ (s s2 : State) (p : Packet) (c : Cmd) (x : Ctx) (d : Desc) (ps : List LayerPolicy), Ready s p 0x0306 c x →
    s.checkGradPolicy (c.view s) x p false = .ok () → s.mgmtTouch c 10 [s.ioOf c 64 false] = .ok s2 →
    s2.checkGradPolicy (c.view s2) x p true = .ok () → s2.needDesc (c.view s2).ctx (p.at 64 4) 64 false = .ok d → s2.policies (c.view s2) d = .ok ps →
    exec (.gradPolicy p) s = .next ((s2.updCtx (c.view s2).ctx fun y =>
      { y with policy := ps.zipIdx.map fun e => (e.2, { e.1 with decided := (y.policyOf e.2).decided }), stats := [] }).finish c (Ending.ok 0 0))) ∧
  (∀ (s s2 : State) (p : Packet) (c : Cmd) (x : Ctx) (d : Desc) (h : List Byte), Ready s p 0x0801 c x → s.checkXhGroup (c.view s).ctx x p false = .ok () →
    s.desc (c.view s).ctx (p.at 76 4) = some d →
    s.mgmtTouch c 8 [{ detail := 76, write := false, ranges := [(d.base, 128)] }, { detail := 76, write := true, ranges := [(d.base, stagingMin)] }] = .ok s2 →
    s2.checkXhGroup (c.view s2).ctx x p true = .ok () → s2.needDesc (c.view s2).ctx (p.at 76 4) 76 true = .ok d →
    h = s2.stagingHeader (c.view s2).ctx (p.at 76 4) →
    ∃ g : XhGroup, exec (.xhGroup p) s = .next (((s2.vput (c.view s2).ctx (d.base + 128) (zeros (stagingMin - 128))).updCtx (c.view s2).ctx fun y =>
        { y with groups := Kv.set (p.at 64 1) g y.groups }).finish c (Ending.ok 0 0)) ∧
      g.mode = p.at 65 1 ∧ g.topology = p.at 66 1 ∧ g.ring = p.at 67 1 ∧ g.contributors = p.at 68 2 ∧ g.margin = p.at 70 1 ∧
      g.deadline = p.at 72 4 ∧ g.handle = p.at 76 4 ∧ g.staging = d.base ∧ g.stagingBytes = d.extent ∧ g.ituskPlate = fieldAt h 72 1 ∧
      g.prev = (if fieldAt h 0 4 = 0xFFFF_FFFF then none else some (fieldAt h 0 4)) ∧
      g.next = (if fieldAt h 4 4 = 0xFFFF_FFFF then none else some (fieldAt h 4 4))) ∧
  (∀ (s : State) (p : Packet) (c : Cmd) (x : Ctx), Ready s p 0x0802 c x → s.checkXhReduce (c.view s).ctx x p = .ok () →
    ((∃ b ∈ s.buckets, b.queue = c.queue ∧ b.seq = c.seq) → exec (.xhReduce p) s = .next (s.begin c .none)) ∧
    ((∀ b ∈ s.buckets, ¬ (b.queue = c.queue ∧ b.seq = c.seq)) →
      exec (.xhReduce p) s = .next ((s.admitBucket (c.view s).ctx p).begin c .none))) ∧
  (∀ (s : State) (p : Packet) (c : Cmd) (x : Ctx), Ready s p 0x0803 c x → s.checkXhAbort (c.view s).ctx x p = .ok () →
    exec (.xhAbort p) s = .next ((s.stepAbort (c.view s).ctx (p.at 64 5) (.fail .stepAborted 0) (s.ownRecord 3) (p.at 69 1) none).finish c
      (Ending.ok 0 0))) ∧
  (∀ (s : State) (p : Packet) (c : Cmd) (x : Ctx), Ready s p 0x0804 c x → s.checkPrefetchHint (c.view s).ctx x p = .ok () →
    s.hostBlocked (c.view s) [(p.at 64 8, p.at 80 4)] = false → s.copyAhead = false →
    (∀ d ∈ s.hints (c.view s).ctx, s.mayStart d = true → ¬ d.pkt.at 84 1 < p.at 84 1 ∧ (d.pkt.at 84 1 = p.at 84 1 → d.before c = false)) →
    exec (.prefetchHint p) s = .next (s.prefetchRun c (p.at 64 8) (p.at 72 8) (p.at 80 4 / 4096) 0)) ∧
  (∀ (s s1 s2 : State) (c : Cmd) (src dst k done : Nat), s.touch (c.view s).ctx (c.view s).bound (src + done) 4096 accR true = .ok s1 →
    s1.touch (c.view s).ctx (c.view s).bound (dst + done) 4096 accW true = .ok s2 →
    s2.badRange (c.view s).ctx (c.view s).bound (src + done) 4096 = none →
    s.prefetchRun c src dst 0 done = s.finish c (Ending.ok done 0) ∧
    s.prefetchRun c src dst (k + 1) done = (s2.vwrite (c.view s).ctx (c.view s).bound (dst + done)
      (s2.vread (c.view s).ctx (c.view s).bound (src + done) 4096)).prefetchRun c src dst k (done + 4096)) ∧
  (∀ (s : State) (c : Cmd) (src dst k done va : Nat), s.touch (c.view s).ctx (c.view s).bound (src + done) 4096 accR true = .error (.notPresent, va) →
    s.prefetchRun c src dst (k + 1) done = s.finish c (Ending.ok done 0))

/-- BUCKET_START starts the oldest waiting bucket of a group with fewer than eight started: its exponent agreed, its own largest exponent noted, its
own contribution sent. A segment at the head of its held queue pair whose key is over is taken and counted as stale, one whose bucket is not
ready is answered with RNR, and one that its bucket takes goes to the sum of the ring, the sum of the tree or the final write, by its phase. A
record with another code than PASS aborts the step here; a COLLECT record joins its bucket's records; a distributed PASS in time is sent on and
ends the bucket. A judge without a decision at its deadline decides LATE; a member without a verdict a DEADLINE later takes PEER_LOST; before
that both rows change nothing. -/
def Obligations.CrosshatchEventsComplete : Prop :=
  (∀ (s s1 : State) (n g : Nat) (b : Bucket) (j : XhJob), (s.buckets.filter fun b => decide (b.context = n) && decide (b.group = g)).find?
      (fun b => !b.started) = some b → ((s.buckets.filter fun b => decide (b.context = n) && decide (b.group = g)).filter (·.started)).length < 8 →
    s.job b = some j → j.c.phase = .running → j.c.hostWait = none → s.hostBlocked j.v j.src.ranges = false → s.xhTouch j false b.body = .ok s1 →
    (j.g.mode ≠ 1 → ∀ b', b' = { b with started := true, xp := s1.agreedXp j.v b.step g b.bucket, amax := s1.ownAmax j } →
      exec (.bucketStart n g) s = .next (((s1.recordXp n b.step g b.bucket b'.xp).setBucket b').sendOwn { j with b := b' })) ∧
    (j.g.mode = 1 → ∀ b', b' = { b with started := true, xp := 0, amax := 0 } →
      ∃ u : State, exec (.bucketStart n g) s = .next ((u.setBucket b').sendOwn { j with b := b' }) ∧ u.buckets = s1.buckets ∧ u.cmds = s1.cmds)) ∧
  (∀ (s : State) (m : HeldMessage) (q : Qp), s.qp m.qp = some q → s.isHead m = true → (s.groupOf q.owner m.qp).isSome = true → bitsOf m.tag 7 6 < 2 →
    (s.fileKey q.owner m.tag = .discard → exec (.xhSegmentReceived m) s = .next ((s.takeMsg m.qp 0).staleResult q.owner
      (((Kv.get q.owner s.ctxs).map fun c => c.fullStep (bitsOf m.tag 63 40)).getD 0))) ∧
    (s.fileKey q.owner m.tag = .notReady → exec (.xhSegmentReceived m) s = .next (s.rnrMsg m.qp)) ∧
    (∀ (j : XhJob) (first count chunk idx : Nat) (body : List Byte) (key : Nat × Nat × Nat × Nat), s.fileKey q.owner m.tag = .bucket j →
      first = fieldAt m.bytes 0 4 → count = fieldAt m.bytes 4 2 → idx = fieldAt m.bytes 6 1 → chunk = bitsOf m.tag 19 8 → body = m.bytes.drop 64 →
      key = (bitsOf m.tag 7 6, chunk, first, m.qp) → j.g.mode = 0 → bitOf m.tag 5 = j.b.pass2 → key ∉ j.b.taken →
      first + count ≤ j.b.body.length → body.length = 132 * count →
      (j.g.topology = 0 → bitsOf m.tag 7 6 = 0 →
        exec (.xhSegmentReceived m) s = .next ((s.takeMsg m.qp 0).takeScatter j chunk idx first count body key)) ∧
      (j.g.topology = 0 → bitsOf m.tag 7 6 = 1 →
        exec (.xhSegmentReceived m) s = .next ((s.takeMsg m.qp 0).takeFinal j chunk idx first count body key
          (if chunk = ((s.takeMsg m.qp 0).posIn j.b + 2) % j.b.members.length then [] else j.g.next.toList))) ∧
      (j.g.topology = 1 → bitsOf m.tag 7 6 = 0 → (j.b.up.map fun x => x.2.2.length).sum + body.length ≤ 1081344 →
        exec (.xhSegmentReceived m) s = .next ((s.takeMsg m.qp 0).takeUp j idx first count m.qp body key)) ∧
      (j.g.topology = 1 → bitsOf m.tag 7 6 = 1 →
        exec (.xhSegmentReceived m) s = .next ((s.takeMsg m.qp 0).takeFinal j chunk idx first count body key j.g.children)))) ∧
  (∀ (s : State) (m : HeldMessage) (q : Qp) (r : Verdict), s.qp m.qp = some q → s.isHead m = true → (s.groupOf q.owner m.qp).isSome = true →
    2 ≤ bitsOf m.tag 7 6 → r = Verdict.ofBytes (m.bytes.drop 64) →
    (r.code ≠ 0 → exec (.verdictRecordReceived m) s = .next ((s.takeMsg m.qp 0).takeAbort q.owner m.qp m.tag r)) ∧
    (∀ j : XhJob, r.code = 0 → s.fileKey q.owner m.tag = .bucket j →
      (bitsOf m.tag 7 6 = 2 → ∀ b, b = { j.b with collects := j.b.collects ++ [(m.qp, m.bytes.drop 64)] } →
        exec (.verdictRecordReceived m) s = .next (((s.takeMsg m.qp 0).setBucket b).tryVerdict { j with b := b })) ∧
      (bitsOf m.tag 7 6 = 3 → j.b.joined = true → s.strk.now < j.deadline + j.g.deadline →
        exec (.verdictRecordReceived m) s = .next (((s.takeMsg m.qp 0).sendVerdict j true r).verified j r.amax)))) ∧
  (∀ (s : State) (k : BucketKey) (b : Bucket) (j : XhJob), s.bucketAt k = some b → s.job b = some j →
    (s.isJudge j = true → j.deadline ≤ s.strk.now → exec (.deadlineExpiry k) s = .next (s.stepAbort j.b.context j.b.step (.fail .stepAborted 0)
      (s.ownRecord 2) j.b.group none)) ∧
    (s.strk.now < j.deadline → exec (.deadlineExpiry k) s = .next s) ∧
    (j.deadline + j.g.deadline ≤ s.strk.now → exec (.verdictTimeout k) s = .next (s.stepAbort k.context k.step (.fail .peerLost 76)
      (s.ownRecord 4) k.group none)) ∧
    (s.strk.now < j.deadline + j.g.deadline → exec (.verdictTimeout k) s = .next s))

/-- Whose turn it is, whose checks pass and whose memory can be reached: MANIFEST_LOAD, with a slot, ends with SIGNATURE_INVALID, detail 68, where
the signature does not hold. Where it does, a manifest that the context has loaded ends with its number and shard count, and a new one ends with
BAD_FIELD, detail 64, where its structure is wrong and else is copied into claimed frames and ends with a number that no manifest has. SHARD_SEND
and SHARD_RECEIVE are running once they have a lane; BASE_INSTALL, every shard's digest right, makes the epoch with a slot that no epoch has and
takes the DEST allocations from the context; BASE_MAP sets the window that starts at VA, or else the lowest free one, and no other; BASE_RETIRE
marks the epoch retiring, takes it out of every window and returns the number of commands bound to it. -/
def Obligations.DistributionCommandsComplete : Prop :=
  (∀ (s s1 s2 : State) (p : Packet) (c : Cmd) (x : Ctx) (d sg : Desc) (bs : List Byte), Ready s p 0x0901 c x → c.slot = none →
    s.takeSlot c clsVerify = .ok s1 → s1.checkManifestLoad (c.view s1).ctx p = .ok () →
    s1.mgmtTouch c 9 [s1.ioOf c 64 false, s1.ioOf c 68 false] = .ok s2 →
    s2.needDesc (c.view s2).ctx (p.at 64 4) 64 false = .ok d → s2.needDesc (c.view s2).ctx (p.at 68 4) 68 false = .ok sg →
    bs = s2.descBytes (c.view s2) d →
    ∀ signed : Bool, Config.slhVerify ((s2.storeKey (0x20 + p.at 72 1)).getD []) bs (s2.descBytes (c.view s2) sg) = signed →
    (∀ e, s2.manifests.find? (fun e => decide (e.2.owner = some (c.view s2).ctx) && decide (e.2.digest = sha256 bs)) = some e →
      (signed = true → exec (.manifestLoad p) s = .next (s2.finish c (Ending.ok e.1 e.2.shards))) ∧
      (signed = false → exec (.manifestLoad p) s = .next (s2.finish c (.fail .signatureInvalid 68)))) ∧
    (∀ (fs : List Nat) (s3 : State) (m : Manifest), (∀ e ∈ s2.manifests, ¬ (e.2.owner = some (c.view s2).ctx ∧ (e.2.digest = sha256 bs ∨ e.2.low = m.low))) →
      s2.manifests.length < 256 → (∃ k < 256, Kv.has k s3.manifests = false) → s2.claimStore (ceilDiv bs.length 65536) = some (fs, s3) →
      m = { owner := some (c.view s2).ctx, publisher := p.at 72 1, bytes := bs, digest := sha256 bs, frames := fs, verified := [], receives := [], discards := 0 } →
      (signed = false → exec (.manifestLoad p) s = .next (s2.finish c (.fail .signatureInvalid 68))) ∧
      (signed = true → manifestOk bs d.extent = false → exec (.manifestLoad p) s = .next (s2.finish c (badField 64))) ∧
      (signed = true → manifestOk bs d.extent = true →
        ∃ (k : Nat) (s4 : State), k < 256 ∧ Kv.has k s3.manifests = false ∧ s4 = { s3 with free := s3.free + 1 } ∧ exec (.manifestLoad p) s =
          .next (({ (s4.fillFrames fs bs) with manifests := Kv.set k m s4.manifests } : State).finish c (Ending.ok k m.shards))))) ∧
  (∀ (s : State) (p : Packet) (c : Cmd) (x : Ctx), Ready s p 0x0902 c x → s.hasLane c = true → s.checkShardSend (c.view s).ctx p = .ok () →
    exec (.shardSend p) s = .next (s.begin c (.shard s.newShard))) ∧
  (∀ (s : State) (p : Packet) (c : Cmd) (x : Ctx), Ready s p 0x0903 c x → s.hasLane c = true → s.checkShardReceive (c.view s).ctx x p = .ok () →
    exec (.shardReceive p) s = .next (s.begin c (.shard s.newShard))) ∧
  (∀ (s s1 s2 s3 : State) (p : Packet) (c : Cmd) (x : Ctx) (n : Nat) (m : Manifest) (z : List Nat), Ready s p 0x0904 c x →
    s.checkBaseInstall (c.view s).ctx x p = .ok () → Kv.get (p.at 64 2) s.manifests = some m →
    s.mgmtTouch c 9 [{ detail := 64, write := false, ranges := (List.range m.shards).map fun i => ((m.dest i).getD 0, m.length i) }] = .ok s1 →
    n = (c.view s1).ctx → s1.needManifest n (p.at 64 2) = .ok m →
    (∀ i < m.shards, sha256 (s1.vread n [] ((m.dest i).getD 0) (m.length i)) = m.shardDigest i) →
    s2 = (x.destAllocs m).foldl (fun s a => s.dropTlb n a.base a.size) s1 → (∃ k < 256, ∀ e ∈ s2.epochs, e.2.slot ≠ k) →
    s2.claimStore 1 = some (z, s3) →
    ∃ slot : Nat, slot < 256 ∧ (∀ e ∈ s2.epochs, e.2.slot ≠ slot) ∧ exec (.baseInstall p) s =
      .next (((s3.installEpoch n m (p.at 66 2) (p.at 64 2) slot (z.headD 0)).updCtx n fun y =>
        { y with allocs := y.allocs.filter fun a => a ∉ x.destAllocs m }).finish c (Ending.ok 0 0))) ∧
  (∀ (s : State) (p : Packet) (c : Cmd) (x y : Ctx) (e : Epoch) (i : Nat), Ready s p 0x0905 c x → s.checkBaseMap p = .ok () →
    Kv.get (p.at 64 2) s.ctxs = some y → Kv.get (p.at 66 2) s.epochs = some e →
    (y.windowIs (p.at 72 8) = some i ∨ (y.windowIs (p.at 72 8) = none ∧ y.windows.findIdx? (fun w => !w.valid) = some i)) →
    ∀ w : Window, w = { va := p.at 72 8, epoch := p.at 66 2, manifest := e.manifest, sizeGib := ceilDiv e.bytes (2 ^ 30), valid := true } →
    exec (.baseMap p) s = .next ((s.updCtx (p.at 64 2) fun y => { y with windows := y.windows.set i w }).finish c (Ending.ok 0 0))) ∧
  (∀ (s : State) (p : Packet) (c : Cmd) (x : Ctx), Ready s p 0x0906 c x → s.checkBaseRetire p = .ok () →
    ∀ off : Window → Window, (off = fun w => if w.epoch = p.at 64 2 then { w with valid := false } else w) →
    ∀ cs, cs = s.ctxs.map (fun e => (e.1, { e.2 with windows := e.2.windows.map off })) →
    exec (.baseRetire p) s = .next (({ s with epochs := Kv.upd (p.at 64 2) (fun e => { e with retiring := true }) s.epochs, ctxs := cs } : State).finish
      c (Ending.ok (s.boundTo (p.at 64 2)) 0)))

/-- SHARD_PIECE_HASHED reads the next piece along the contiguous prefix and gives it to the lane; SHARD_PIECE_RECEIVED at the head of the queue pair,
for an open SHARD_RECEIVE, writes the piece at its place in DEST, notes it as present, counts its bytes where it is new and sends it on;
SHARD_TRAILER_RECEIVED notes the upstream verdict and settles the shard; a message that no open command takes is discarded and counted where its
shard is verified and answered with RNR where it is not; SHARD_TIMEOUT ends a SHARD_RECEIVE that has waited WAIT_LIMIT strokes for a piece or a
trailer with TIMEOUT, detail 76, and the results of R317, and before that changes nothing; EPOCH_RELEASE releases a retiring epoch that no
command is bound to, and changes nothing while one is. -/
def Obligations.DistributionEventsComplete : Prop :=
  (∀ (s s1 : State) (q k va n : Nat) (c : Cmd) (j : ShardJob), s.findCmd q k = some c → s.shardJob c = some j → j.w.hashed < j.pieces →
    (c.pkt.opcode = 0x0903 → j.isLocal = true ∨ j.w.hashed ∈ j.w.present) → va = j.d.base + pieceSize * j.w.hashed → n = j.pieceLen j.w.hashed →
    s.hostBlocked j.v [(va, n)] = false → s.touch j.v.ctx j.v.bound va n accR false = .ok s1 → s1.badRange j.v.ctx j.v.bound va n = none →
    exec (.shardPieceHashed q k) s = .next (s1.hashPiece j (s1.vread j.v.ctx j.v.bound va n))) ∧
  (∀ (s : State) (k tag : Nat) (q : Qp) (bs : List Byte) (trailer : Bool), s.shardHead k bs trailer = some tag → s.shardFor k tag = none →
    s.qp k = some q → ∀ t, t = (if s.shardKnown q.owner tag then (s.takeMsg k 0).countDiscard q.owner tag else s.rnrMsg k) →
    (trailer = false → exec (.shardPieceReceived k bs) s = .next t) ∧ (trailer = true → exec (.shardTrailerReceived k bs) s = .next t)) ∧
  (∀ (s s1 : State) (k tag i va : Nat) (j : ShardJob) (piece : List Byte) (w : ShardWork), s.shardHead k piece false = some tag →
    s.shardFor k tag = some j → i = bitsOf tag 43 36 → i < j.pieces → piece.length = j.pieceLen i → va = j.d.base + pieceSize * i →
    (s.takeMsg k 0).touch j.v.ctx j.v.bound va piece.length accW false = .ok s1 →
    w = (if i ∈ j.w.present then { j.w with since := s1.strk.now } else
      { j.w with present := i :: j.w.present, stored := j.w.stored + piece.length, since := s1.strk.now }) →
    exec (.shardPieceReceived k piece) s = .next (((s1.vwrite j.v.ctx j.v.bound va piece).setShard j.c w).shardSend { j with w := w } i false piece)) ∧
  (∀ (s : State) (k tag : Nat) (j : ShardJob) (bs : List Byte) (w : ShardWork), s.shardHead k bs true = some tag → s.shardFor k tag = some j →
    w = { j.w with upstream := some (decide (fieldAt bs 0 1 = 0)), since := (s.takeMsg k 0).strk.now } →
    exec (.shardTrailerReceived k bs) s = .next (((s.takeMsg k 0).setShard j.c w).settleShard { j with w := w })) ∧
  (∀ (s : State) (q k : Nat) (c : Cmd) (j : ShardJob) (x : Queue), s.findCmd q k = some c → s.shardJob c = some j → Kv.get q s.queues = some x →
    j.c.pkt.opcode = 0x0903 → j.isLocal = false → (j.w.upstream = none ∨ j.w.present.length < j.pieces) →
    (j.w.since + x.waitLimit ≤ s.strk.now → exec (.shardTimeout q k) s = .next (s.endShard j.c (s.shardResults j.c (.fail .timeout 76)))) ∧
    (s.strk.now < j.w.since + x.waitLimit → exec (.shardTimeout q k) s = .next s)) ∧
  (∀ (s : State) (k : Nat) (e : Epoch), Kv.get k s.epochs = some e → e.retiring = true →
    (s.boundTo k = 0 → exec (.epochRelease k) s = .next (s.releaseEpoch k e)) ∧ (0 < s.boundTo k → exec (.epochRelease k) s = .next s))

/-- Whose turn it is, whose checks pass and whose memory can be reached: LEDGER_SET, its header right, clears what the part writes and gives the
context its ledger; TENSOR_CLASS enters the tensor in order, applies the classes and returns the class applied; REPLAY, its entry right, closes
the open entries, clears the step's record and notes the entry to replay; PLACEMENT_SET sets the placement of the next boundary; SPARE_ARM notes
node, pattern and port and arms the spare; SPARE_PROMOTE in AWAKE notes the promotion of the next boundary and runs, and in TAKEN either begins a
fill by asking the queue pair's peer for the chunk at its cursor, or, with no queue pair, ends without one in ACTIVE. -/
def Obligations.SurvivalCommandsComplete : Prop :=
  (∀ (s s1 : State) (p : Packet) (c : Cmd) (x : Ctx) (d : Desc) (n : Nat) (h : List Byte) (l : Ledger) (keep : Option (Nat × Nat)),
    Ready s p 0x0A05 c x → n = (c.view s).ctx → s.checkLedgerSet n x p = .ok () → s.desc n (p.at 64 4) = some d →
    s.mgmtTouch c 9 [{ detail := 64, write := false, ranges := [(d.base, 1024)] }, s.ioOf c 64 true] = .ok s1 → n = (c.view s1).ctx →
    s1.needDesc n (p.at 64 4) 64 true = .ok d → h = s1.vread n [] d.base 1024 → (∀ f ∈ s1.ledgerChecks n x h, f.1 = true) →
    keep = (s1.desc n (fieldAt h 16 4)).map (fun k => (k.base, k.extent)) → l = ledgerOf d.base (p.at 64 4) keep h →
    1024 + 32 * l.tensorMax + (l.entryCount + 1) * l.entryBytes ≤ d.extent → (∀ k, keep = some k → s1.keepOk n k.1 k.2 = true) →
    exec (.ledgerSet p) s = .next ((((s1.vput n (d.base + 128) (leBytes 2 s1.placement ++ zeros 30 ++ leBytes 4 l.snapMin ++ zeros 10)).vput n
      (d.base + 1024) (zeros (32 * l.tensorMax + (l.entryCount + 1) * l.entryBytes))).updCtx n fun c => { c with ledger := some l }).finish c
      (Ending.ok 0 0))) ∧
  (∀ (s : State) (p : Packet) (c : Cmd) (x : Ctx) (d : Desc) (n : Nat) (l : Ledger), Ready s p 0x0A01 c x → n = (c.view s).ctx →
    s.checkTensorClass n x p = .ok () → s.needDesc n (p.at 72 4) 72 false = .ok d → s.ledger n = some l →
    ∀ ts : List TensorEntry, ts = s.applyClasses n l (putTensor (TensorEntry.mk (p.at 64 2) (p.at 66 2) (p.at 68 1) 0 (p.at 70 2) (p.at 72 4) 0 d.base d.extent) (s.tensors n l)) →
    exec (.tensorClass p) s = .next ((s.putTensors n l ts).finish c (Ending.ok
      (((ts.find? fun t => decide (t.layer = p.at 64 2) && decide (t.tensor = p.at 66 2)).map (·.applied)).getD 0) 0))) ∧
  (∀ (s s1 s2 : State) (p : Packet) (c : Cmd) (x : Ctx) (d : Desc) (n : Nat) (l : Ledger), Ready s p 0x0A06 c x → n = (c.view s).ctx →
    s.checkReplay n x p false = .ok () → s.desc n (p.at 72 4) = some d → s.ledger n = some l →
    s.mgmtTouch c 9 [{ detail := 72, write := false, ranges := [(d.base, l.entryBytes)] }] = .ok s1 → n = (c.view s1).ctx →
    s1.checkReplay n x p true = .ok () → s1.needDesc n (p.at 72 4) 72 false = .ok d → s1.ledger n = some l → s2 = l.opened.foldl (fun s k => s.closeEntry n k) s1 →
    ∀ e, e = s1.vread n [] d.base l.entryBytes →
    exec (.replay p) s = .next (((s2.updCtx n fun c =>
      { c.setXhStep { step := p.at 64 5, attempts := 0, verified := [], aborted := false, stale := [] } with stepSeen := false }).updLedger n fun l =>
        { l with replay := some { step := p.at 64 5, entry := e } }).finish c (Ending.ok 0 0))) ∧
  (∀ (s : State) (p : Packet) (c : Cmd) (x : Ctx), Ready s p 0x0A09 c x → s.checkPlacementSet p = .ok () →
    exec (.placementSet p) s = .next (({ s with nextPlacement := some (p.at 64 2) } : State).finish c (Ending.ok 0 0))) ∧
  (∀ (s s1 : State) (p : Packet) (c : Cmd) (x : Ctx), Ready s p 0x0A07 c x → s.takeSlot c clsSurvival = .ok s1 → s1.checkSpareArm p = .ok () →
    exec (.spareArm p) s = .next (({ s1 with spare := { s1.spare with node := p.at 64 2, pattern := p.at 66 1, port := p.at 67 1, arming := true } } :
      State).finish c (Ending.ok 0 0))) ∧
  (∀ (s s1 : State) (p : Packet) (c : Cmd) (x : Ctx), Ready s p 0x0A08 c x → s.takeSlot c clsSurvival = .ok s1 →
    s1.checkSparePromote (c.view s1).ctx p = .ok () →
    (s1.spare.state = .awake → exec (.sparePromote p) s =
      .next (({ s1 with spare := { s1.spare with promoting := some (c.queue, c.seq, p.at 64 2) } } : State).begin c .none)) ∧
    (s1.spare.state = .taken → p.at 68 4 = 0xFFFF_FFFF → s1.spare.fill = none → exec (.sparePromote p) s =
      .next (({ s1 with spare := { s1.spare with state := .active, fill := none, cursor := none } } : State).finish c (Ending.ok 0 0))) ∧
    (s1.spare.state = .taken → p.at 68 4 ≠ 0xFFFF_FFFF → exec (.sparePromote p) s =
      .next ((({ s1 with spare := { s1.spare with fill := some (Fill.mk c.queue c.seq (p.at 68 4) (c.view s1).ctx none false) } } : State).begin c .none).postHeld (p.at 68 4) none keepTag
        (fillRequest ((s1.spare.cursor.map (·.1)).getD 0)))))

/-- Whose turn it is and whose checks pass: SNAPSHOT and MIRROR run the save of their tensor from its first chunk. A chunk of a save that can be read
is hashed to a leaf and either written to the bounce buffer or sent to the buddy behind its piece header, and the cursor moves on by one; past
the last chunk a SNAPSHOT's record of all leaves is written to DIGEST and, for a save to the host, the command ends with the number of leaves, or
else the record is sent and the command waits for its sendings; a MIRROR's record is sent, and its result is to be the tensor's bytes. A RESTORE
from the host, its record right, runs its chunks; one from a buddy sends the request with the record's layer, tensor and step. A chunk of a
restore is written to DEST, and where it is not the one of its leaf the command ends with CHECK_MISMATCH, RESULT1 the chunk; past the last chunk
the restore ends with the number of chunks. -/
def Obligations.SavesAndRestoresComplete : Prop :=
  (∀ (s : State) (p : Packet) (c : Cmd) (x : Ctx) (j : SaveJob) (op : Nat), op = 0x0A02 ∨ op = 0x0A04 → Ready s p op c x →
    s.checkSave (c.view s).ctx x p = .ok () → s.saveJob c = some j →
    ∀ t, t = (s.begin c (.counts [])).saveRun { c with phase := .running, work := .counts [] } j (j.d.extent / chunkSize + 2) →
    (op = 0x0A02 → exec (.snapshot p) s = .next t) ∧ (op = 0x0A04 → exec (.mirror p) s = .next t)) ∧
  (∀ (s s1 s2 : State) (c : Cmd) (j : SaveJob) (leaves : List Nat) (o len k : Nat) (bs : List Byte) (v : View), v = c.view s → c.work = .counts leaves →
    c.cancel = false → o = chunkSize * c.cursor → o < j.d.extent → len = min chunkSize (j.d.extent - o) → s.hostBlocked v [(j.d.base + o, len)] = false →
    s.touch v.ctx v.bound (j.d.base + o) len accR false = .ok s1 →
    (∀ b, j.bounce = some b → s.hostBlocked v [(b.base + o, len)] = false → s1.touch v.ctx v.bound (b.base + o) len accW false = .ok s2 →
      s2.badRange v.ctx v.bound (j.d.base + o) len = none → bs = s2.vread v.ctx v.bound (j.d.base + o) len →
      s.saveRun c j (k + 1) = (((s2.vwrite v.ctx v.bound (b.base + o) bs).updCmd c.queue c.seq fun x =>
        { x with cursor := x.cursor + 1, work := .counts (leaves ++ [leNat (chunkLeaf bs)]) }).saveRun
        { c with cursor := c.cursor + 1, work := .counts (leaves ++ [leNat (chunkLeaf bs)]) } j k)) ∧
    (j.bounce = none → s1.badRange v.ctx v.bound (j.d.base + o) len = none → bs = s1.vread v.ctx v.bound (j.d.base + o) len →
      s.saveRun c j (k + 1) = (((s1.postHeld (c.pkt.at 76 4) (some (c.queue, c.seq)) keepTag (pieceHeader j.t.layer j.t.tensor (c.pkt.at 64 5)
        (saveKind c.pkt) c.cursor j.d.extent [] ++ bs)).updCmd c.queue c.seq fun x =>
        { x with cursor := x.cursor + 1, work := .counts (leaves ++ [leNat (chunkLeaf bs)]) }).saveRun
        { c with cursor := c.cursor + 1, work := .counts (leaves ++ [leNat (chunkLeaf bs)]) } j k))) ∧
  (∀ (s s1 : State) (c : Cmd) (j : SaveJob) (g : Desc) (leaves : List Nat) (r : List Byte) (k n : Nat), n = (c.view s).ctx → c.work = .counts leaves →
    j.d.extent ≤ chunkSize * c.cursor → j.digest = some g → c.pkt.opcode = 0x0A02 →
    r = digestRecord j.t.layer j.t.tensor (c.pkt.at 64 5) j.t.applied s.selfNode j.d.extent (leaves.map (leBytes 32)) →
    s.hostBlocked { ctx := n, bound := c.bound } [(g.base, r.length)] = false → s.touch n c.bound g.base r.length accW false = .ok s1 →
    (hostTarget c.pkt = true → s.saveRun c j (k + 1) = (s1.vwrite n c.bound g.base r).finish c (Ending.ok leaves.length 0)) ∧
    (hostTarget c.pkt = false → s.saveRun c j (k + 1) = ((s1.vwrite n c.bound g.base r).postHeld (c.pkt.at 76 4) (some (c.queue, c.seq)) keepTag r).updCmd
      c.queue c.seq fun x => { x with work := .sending (Ending.ok leaves.length 0) })) ∧
  (∀ (s : State) (c : Cmd) (j : SaveJob) (leaves : List Nat) (k : Nat), c.work = .counts leaves → j.d.extent ≤ chunkSize * c.cursor → j.digest = none →
    c.pkt.opcode = 0x0A04 → s.saveRun c j (k + 1) = (s.postHeld (c.pkt.at 76 4) (some (c.queue, c.seq)) keepTag (digestRecord j.t.layer j.t.tensor
      (c.pkt.at 64 5) j.t.applied s.selfNode j.d.extent (leaves.map (leBytes 32)))).updCmd c.queue c.seq fun x =>
      { x with work := .sending (Ending.ok j.d.extent 0) }) ∧
  (∀ (s s1 : State) (p : Packet) (c : Cmd) (x : Ctx) (d g : Desc) (need : Nat) (r : List Byte) (v : View), Ready s p 0x0A03 c x → v = c.view s →
    s.checkRestore v.ctx x p = .ok () → s.desc v.ctx (p.at 64 4) = some d → s.desc v.ctx (p.at 72 4) = some g →
    need = (if p.at 76 1 = 1 then 64 + 32 * ceilDiv d.extent chunkSize else 64) → s.hostBlocked v [(g.base, need)] = false →
    s.touch v.ctx v.bound g.base need accR false = .ok s1 → s1.badRange v.ctx v.bound g.base need = none → r = s1.vread v.ctx v.bound g.base need →
    (∀ h, p.at 76 1 = 1 → s1.desc v.ctx (p.at 68 4) = some h → recordOk r d.extent = true →
      exec (.restore p) s = .next ((s1.begin c .none).restoreRun { c with phase := .running } d h g (d.extent / chunkSize + 2))) ∧
    (p.at 76 1 = 0 → r.take 4 = ascii "KVSD" → exec (.restore p) s = .next ((s1.begin c (.counts [])).postHeld (p.at 68 4) (some (c.queue, c.seq))
      keepTag (pieceHeader (fieldAt r 4 2) (fieldAt r 6 2) (fieldAt r 8 5) 2 0 (fieldAt r 16 8) [] ++ r)))) ∧
  (∀ (s s1 : State) (c : Cmd) (d : Desc) (va : Nat) (bs leaf : List Byte) (next : State → Cmd → State) (v : View), v = c.view s →
    va = d.base + chunkSize * c.cursor → s.hostBlocked v [(va, bs.length)] = false → s.touch v.ctx v.bound va bs.length accW false = .ok s1 →
    (chunkLeaf bs ≠ leaf → s.restoreChunk c d bs leaf next = (s1.vwrite v.ctx v.bound va bs).endShard c { status := .checkMismatch, detail := 72, r1 := c.cursor }) ∧
    (chunkLeaf bs = leaf → s.restoreChunk c d bs leaf next = next ((s1.vwrite v.ctx v.bound va bs).updCmd c.queue c.seq fun x =>
      { x with cursor := x.cursor + 1 }) { c with cursor := c.cursor + 1 })) ∧
  (∀ (s : State) (c : Cmd) (d h g : Desc) (k : Nat), d.extent ≤ chunkSize * c.cursor → s.restoreRun c d h g (k + 1) =
    (s.noteRestore (c.view s).ctx d (fieldAt (s.vread (c.view s).ctx (c.view s).bound g.base 64) 8 5)).finish c (Ending.ok c.cursor 0))

/-- At the head of their queue pair: a keep piece that fits its entry is written at its chunk of the half being saved, which the first piece of a
save chooses, hashed, and acknowledged; one whose tensor has no entry is refused with DESC_RANGE, and with NO_RESOURCE by a part without a DDR
tier; a digest that agrees with what was hashed commits record, STEP and HALF, in that order, and one that does not is refused with
CHECK_MISMATCH and commits nothing; a restore request is answered with the record and then the chunks, or refused with CHECK_MISMATCH; the first
message of a restore leaves the command with the record's step and leaves, or ends it with CHECK_MISMATCH and RESULT1 all ones; its next chunk is
written and checked; a fill request is answered with RNR while the part is TAKEN or serves another fill, and else, where the plan is empty, with
the plan; a fill's plan goes to the plan's handling, and its next chunk with the right leaf is written and moves the cursor on by one. -/
def Obligations.KeepAndFillEventsComplete : Prop :=
  (∀ (s s1 : State) (k n base va len chunk : Nat) (e : KeepEntry) (l : Ledger) (piece : List Byte) (r : KeepRx), s.headIs k piece = true →
    piece.take 4 ≠ ascii "KVSD" → fieldAt piece 9 1 ≤ 1 → s.keeperOf k (fieldAt piece 0 2) (fieldAt piece 2 2) = some (n, base, some e) →
    len = fieldAt piece 16 8 → chunk = fieldAt piece 12 4 → len ≤ e.capacity → chunk < ceilDiv len chunkSize →
    (piece.drop 64).length = min chunkSize (len - chunkSize * chunk) → s.ledger n = some l →
    r = ((l.keepRx k).filter fun r => decide (r.layer = fieldAt piece 0 2) && decide (r.tensor = fieldAt piece 2 2) &&
      decide (r.step = fieldAt piece 4 5) && decide (r.length = len)).getD
      { qp := k, layer := fieldAt piece 0 2, tensor := fieldAt piece 2 2, step := fieldAt piece 4 5, index := e.index, half := e.saveHalf, length := len, leaves := [] } →
    va = base + e.offsets.getD r.half 0 + chunkSize * chunk → s.touch n [] va (piece.drop 64).length accW false = .ok s1 →
    exec (.keepPieceReceived k piece) s = .next (((s1.vwrite n [] va (piece.drop 64)).updLedger n fun l => l.setKeepRx k
      (some { r with leaves := Kv.set chunk (chunkLeaf (piece.drop 64)) r.leaves })).takeMsg k 0)) ∧
  (∀ (s : State) (k n base : Nat) (piece : List Byte), s.headIs k piece = true → piece.take 4 ≠ ascii "KVSD" → fieldAt piece 9 1 ≤ 1 →
    s.keeperOf k (fieldAt piece 0 2) (fieldAt piece 2 2) = some (n, base, none) →
    exec (.keepPieceReceived k piece) s = .next (s.takeMsg k Status.descRange.code)) ∧
  (∀ (s : State) (k : Nat) (piece : List Byte), s.headIs k piece = true → piece.take 4 ≠ ascii "KVSD" → fieldAt piece 9 1 ≤ 1 →
    s.keeperOf k (fieldAt piece 0 2) (fieldAt piece 2 2) = none → s.ddrGib = 0 → s.qpHeld k = false → (s.headMsg k).map (·.tag) = some keepTag →
    exec (.keepPieceReceived k piece) s = .next (s.takeMsg k Status.noResource.code)) ∧
  (∀ (s s1 : State) (k n base at' : Nat) (e : KeepEntry) (l : Ledger) (r : KeepRx) (bs : List Byte), s.headIs k bs = true → bs.take 4 = ascii "KVSD" →
    s.keeperOf k (fieldAt bs 4 2) (fieldAt bs 6 2) = some (n, base, some e) → s.ledger n = some l → l.keepRx k = some r →
    (r.agrees bs = false → exec (.keepDigestReceived k bs) s = .next ((s.updLedger n fun l => l.setKeepRx k none).takeMsg k Status.checkMismatch.code)) ∧
    (r.agrees bs = true → at' = base + e.offsets.getD r.half 0 + e.capacity →
      (s.updLedger n fun l => l.setKeepRx k none).touch n [] at' bs.length accW false = .ok s1 →
      exec (.keepDigestReceived k bs) s = .next ((((s1.vput n at' bs).vput n (base + 64 + 64 * e.index + 32 + 8 * r.half) (leBytes 5 r.step)).vput n
        (base + 64 + 64 * e.index + 6) (leBytes 1 (2 + r.half))).takeMsg k 0))) ∧
  (∀ (s : State) (k n base : Nat) (e : KeepEntry) (q : List Byte), s.headIs k q = true → q.take 4 ≠ ascii "KVSD" → fieldAt q 9 1 = 2 →
    s.keeperOf k (fieldAt q 0 2) (fieldAt q 2 2) = some (n, base, some e) →
    (s.restoreHalf n base e (fieldAt q 4 5) = none →
      exec (.restoreRequestReceived k q) s = .next (s.takeMsg k Status.checkMismatch.code)) ∧
    (∀ bs r, s.restoreHalf n base e (fieldAt q 4 5) = some (bs, r) → exec (.restoreRequestReceived k q) s =
      .next (((chunksOf chunkSize (bs.length / chunkSize + 1) bs).zipIdx).foldl (fun s x => s.postHeld k none keepTag
        (pieceHeader (fieldAt q 0 2) (fieldAt q 2 2) (fieldAt r 8 5) 2 x.2 bs.length [] ++ x.1)) ((s.takeMsg k 0).postHeld k none keepTag r)))) ∧
  (∀ (s : State) (k : Nat) (c : Cmd) (d g : Desc) (bs root : List Byte) (v : View), s.headIs k bs = true → s.restoring k = some c → v = c.view s →
    c.work = .counts [] → s.desc v.ctx (c.pkt.at 64 4) = some d → s.desc v.ctx (c.pkt.at 72 4) = some g →
    root = (((s.takeMsg k 0).vread v.ctx v.bound g.base 64).drop 32).take 32 →
    (bs.take 4 = ascii "KVSD" ∧ fieldAt bs 16 8 = d.extent ∧ recordOk bs d.extent = true ∧ (root = zeros 32 ∨ root = merkleRoot 64 (recordLeaves bs)) →
      exec (.restoreChunkReceived k bs) s = .next ((s.takeMsg k 0).updCmd c.queue c.seq fun x =>
        { x with work := .counts (fieldAt bs 8 5 :: (recordLeaves bs).map leNat) })) ∧
    (¬ (bs.take 4 = ascii "KVSD" ∧ fieldAt bs 16 8 = d.extent ∧ recordOk bs d.extent = true ∧ (root = zeros 32 ∨ root = merkleRoot 64 (recordLeaves bs))) →
      exec (.restoreChunkReceived k bs) s = .next ((s.takeMsg k 0).endShard c { status := .checkMismatch, detail := 72, r1 := 0xFFFF_FFFF }))) ∧
  (∀ (s : State) (k : Nat) (c : Cmd) (d g : Desc) (bs : List Byte) (step : Nat) (leaves : List Nat) (v : View), s.headIs k bs = true →
    s.restoring k = some c → v = c.view s → c.work = .counts (step :: leaves) → s.desc v.ctx (c.pkt.at 64 4) = some d →
    s.desc v.ctx (c.pkt.at 72 4) = some g → fieldAt bs 9 1 = 2 → fieldAt bs 12 4 = c.cursor →
    (bs.drop 64).length = min chunkSize (d.extent - chunkSize * c.cursor) →
    exec (.restoreChunkReceived k bs) s = .next ((s.takeMsg k 0).restoreChunk c d (bs.drop 64) (leBytes 32 (leaves.getD c.cursor 0)) fun s c =>
      if c.cursor = leaves.length then (s.noteRestore v.ctx d step).finish c (Ending.ok c.cursor 0) else s)) ∧
  (∀ (s : State) (k : Nat) (q : Qp) (bs : List Byte), s.headIs k bs = true → bs.length = 64 → bs.take 4 ≠ ascii "KVSD" → fieldAt bs 9 1 = 3 →
    s.qp k = some q → s.keepQp q.owner k = true →
    (s.spare.state = .taken ∨ s.servesOther k = true → exec (.fillRequestReceived k bs) s = .next (s.rnrMsg k)) ∧
    (s.spare.state ≠ .taken → s.servesOther k = false → s.planBytes q.owner = [] →
      ∀ t, t = (s.takeMsg k 0).postHeld k none keepTag (pieceHeader 0 0 0 3 0xFFFF_FFFF 0 []) →
      exec (.fillRequestReceived k bs) s = .next { t with spare := { t.spare with serve := some { qp := k, sent := 0 } } })) ∧
  (∀ (s : State) (f : Fill) (bs : List Byte), s.spare.fill = some f → s.headIs f.qp bs = true → fieldAt bs 9 1 = 3 → fieldAt bs 12 4 = 0xFFFF_FFFF →
    exec (.fillChunkReceived f.qp bs) s = .next ((s.takeMsg f.qp 0).fillPlan f (bs.drop 64))) ∧
  (∀ (s s1 : State) (f : Fill) (c : Ctx) (al : Alloc) (bs digest : List Byte) (entries : List (Nat × Nat)) (cursor va len : Nat), s.spare.fill = some f →
    s.headIs f.qp bs = true → fieldAt bs 9 1 = 3 → fieldAt bs 12 4 = cursor → cursor ≠ 0xFFFF_FFFF → f.plan = some entries →
    s.spare.cursor = some (cursor, digest) → (entries.flatMap fun e => (List.range (ceilDiv e.2 chunkSize)).map fun j =>
      (e.1 + chunkSize * j, min chunkSize (e.2 - chunkSize * j)))[cursor]? = some (va, len) → (bs.drop 64).length = len →
    (entries.flatMap fun e => List.range (ceilDiv e.2 chunkSize)).length ≠ cursor + 1 → Kv.get f.context s.ctxs = some c → al ∈ c.allocs →
    al.write = true → al.base ≤ va → va + len ≤ al.base + al.size → (s.takeMsg f.qp 0).touch f.context [] va len accW false = .ok s1 →
    chunkLeaf (bs.drop 64) = (bs.drop 32).take 32 → ∀ t, t = s1.vwrite f.context [] va (bs.drop 64) →
    exec (.fillChunkReceived f.qp bs) s = .next (({ t with spare :=
      { t.spare with fill := some { f with again := false }, cursor := some (cursor + 1, digest) } } : State).updCmd f.queue f.seq fun x => { x with cursor := cursor + 1 }))

/-- Whose turn it is, with a slot of its class, checks that pass and memory that can be reached: ATTEST writes the report and its signature and
returns the report's size; SESSION_KEY at stage 0 writes its signed first message and notes what it began, and at every stage ends as its
exchange says; CONFIG_READ writes the key's value as it is shown and returns its length and the store's sequence number; while no flash command
is writing, FW_STAGE (its image's signature right), FW_ACTIVATE and CONFIG_WRITE erase what they will write and run, and presented again they
program it and end: FW_STAGE with the image's SVN and slot where the image reads back right and MEDIA_ERROR where not, FW_ACTIVATE with the
slot's ACTIVATE word zero, CONFIG_WRITE with the store's new sequence number, or MEDIA_ERROR where the store cannot be written. A wrong signature
ends FW_STAGE with SIGNATURE_INVALID, detail 68. -/
def Obligations.ProofCommandsComplete : Prop :=
  (∀ (s s1 s2 : State) (p : Packet) (c : Cmd) (x : Ctx) (k bs : List Byte), Ready s p 0x0C01 c x → c.slot = none → s.takeSlot c clsSign = .ok s1 →
    s1.checkAttest (c.view s1).ctx p = .ok () → s1.mgmtTouch c 10 [s1.ioOf c 68 false, s1.ioOf c 64 true] = .ok s2 → s2.deviceSecret = some k →
    bs = s2.reportBody (s2.mgmtBytes c 68 (p.at 72 4)) →
    exec (.attest p) s = .next ((s2.mgmtWrite c 64 (bs ++ Config.slhSign k bs)).finish c (Ending.ok (reportSize s2.epochs.length) 0))) ∧
  (∀ (s s1 s2 : State) (p : Packet) (c : Cmd) (x : Ctx) (k : List Byte), Ready s p 0x0C02 c x → c.slot = none → s.takeSlot c (s.kxClass p) = .ok s1 →
    s1.checkSessionKey (c.view s1).ctx c true = .ok () → s1.mgmtTouch c 10 [s1.ioOf c 68 false, s1.ioOf c 72 true] = .ok s2 → s2.deviceSecret = some k →
    (∀ m1, fieldAt (s2.mgmtBytes c 68 18400) 4 1 = 0 → m1 = kxHeader 0 s2.selfNode (p.at 64 4) (fieldAt (s2.mgmtBytes c 68 18400) 8 2)
        (fieldAt (s2.mgmtBytes c 68 18400) 10 2) ++ Config.kemEncapKey s2.drawRandom.1 →
      exec (.sessionKey p) s = .next (((s2.drawRandom.2.updQp (p.at 64 4) fun q =>
        { q with initiated := some (s2.drawRandom.1, m1) }).mgmtWrite c 72 (m1 ++ Config.slhSign k m1)).finish c (Ending.ok 0 0))) ∧
    (∀ t e, s2.exchange c k = .ok (t, some e) → exec (.sessionKey p) s = .next (t.finish c e)) ∧
    (∀ e, s2.exchange c k = .error e → exec (.sessionKey p) s = .next (s2.finish c e))) ∧
  (∀ (s s1 s2 : State) (p : Packet) (c : Cmd) (x : Ctx) (d g : Desc) (img sig : List Byte), Ready s p 0x0C03 c x → c.slot = none →
    s.takeSlot c clsVerify = .ok s1 → s1.checkFwStage (c.view s1).ctx p = .ok () →
    s1.mgmtTouch c 10 [s1.ioOf c 64 false, s1.ioOf c 68 false] = .ok s2 → s2.needDesc (c.view s2).ctx (p.at 64 4) 64 false = .ok d →
    s2.needDesc (c.view s2).ctx (p.at 68 4) 68 false = .ok g → img = s2.descBytes (c.view s2) d → sig = s2.descBytes (c.view s2) g →
    (imageSigned img sig = false → exec (.fwStage p) s = .next (s2.finish c (.fail .signatureInvalid 68))) ∧
    (imageSigned img sig = true → s2.checkImage img = .ok () → s2.storeNat 2 ≤ fieldAt img 8 4 → s2.boot.flashOp = none →
      exec (.fwStage p) s = .next (((s2.flashErase (slotHeader s2.otherSlot) 65536).flashErase (slotImage s2.otherSlot) (2 ^ 24)).flashBegin c))) ∧
  (∀ (s s2 t : State) (p : Packet) (c : Cmd) (x : Ctx) (d g : Desc) (img sig : List Byte), Again s p 0x0C03 c x →
    s.checkFwStage (c.view s).ctx p = .ok () → s.mgmtTouch c 10 [s.ioOf c 64 false, s.ioOf c 68 false] = .ok s2 →
    s2.needDesc (c.view s2).ctx (p.at 64 4) 64 false = .ok d → s2.needDesc (c.view s2).ctx (p.at 68 4) 68 false = .ok g →
    img = s2.descBytes (c.view s2) d → sig = s2.descBytes (c.view s2) g → imageSigned img sig = true → s2.checkImage img = .ok () →
    s2.storeNat 2 ≤ fieldAt img 8 4 → s2.boot.flashOp = some { cmd := some (c.queue, c.seq) } → t = s2.flashWrite (slotImage s2.otherSlot) img →
    (sha256 (t.flashRead (slotImage s2.otherSlot) img.length) = sha256 img → exec (.fwStage p) s = .next (((t.flashWrite (slotHeader s2.otherSlot)
      (slotBytes ((((t.boot.slot.map t.slotSeq).getD 0) + 1) % 2 ^ 32) img sig 0xFFFF_FFFF)).flashEnd).finish c
        (Ending.ok (fieldAt img 8 4) s2.otherSlot))) ∧
    (sha256 (t.flashRead (slotImage s2.otherSlot) img.length) ≠ sha256 img →
      exec (.fwStage p) s = .next (t.flashEnd.finish c (.fail .mediaError 64)))) ∧
  (∀ (s s1 : State) (p : Packet) (c : Cmd) (x : Ctx), s1.checkFwActivate p = .ok () →
    (Ready s p 0x0C04 c x → c.slot = none → s.takeSlot c clsMaintenance = .ok s1 → s1.boot.flashOp = none →
      exec (.fwActivate p) s = .next (s1.flashBegin c)) ∧
    (Again s1 p 0x0C04 c x → s1.boot.flashOp = some { cmd := some (c.queue, c.seq) } →
      exec (.fwActivate p) s1 = .next ((s1.flashWrite (slotHeader (p.at 64 1) + 12) (zeros 4)).flashEnd.finish c (Ending.ok 0 0)))) ∧
  (∀ (s s1 s2 : State) (p : Packet) (c : Cmd) (x : Ctx) (v : List Byte), Ready s p 0x0C05 c x → c.slot = none →
    s.takeSlot c clsMaintenance = .ok s1 → s1.checkConfigRead (c.view s1).ctx p = .ok () → s1.mgmtTouch c 10 [s1.ioOf c 68 true] = .ok s2 →
    v = s2.shownKey (p.at 64 2) → exec (.configRead p) s = .next ((s2.mgmtWrite c 68 v).finish c (Ending.ok v.length s2.boot.storeSeq))) ∧
  (∀ (s s1 s2 : State) (p : Packet) (c : Cmd) (x : Ctx), s1.checkConfigWrite c true = .ok () → s1.mgmtTouch c 10 [s1.ioOf c 68 false] = .ok s2 →
    s2.boot.seed.isSome = true →
    (Ready s p 0x0C06 c x → c.slot = none → s.takeSlot c clsMaintenance = .ok s1 → s2.boot.flashOp = none →
      exec (.configWrite p) s = .next ((s2.flashErase (bankBase s2.spareBank) 65536).flashBegin c)) ∧
    (Again s1 p 0x0C06 c x → s2.boot.flashOp = some { cmd := some (c.queue, c.seq) } →
      (∀ t, s2.commitStore (p.at 64 2) (s2.configValue c) = some t → exec (.configWrite p) s1 = .next (t.flashEnd.finish c (Ending.ok t.boot.storeSeq 0))) ∧
      (s2.commitStore (p.at 64 2) (s2.configValue c) = none → exec (.configWrite p) s1 = .next (s2.flashEnd.finish c (.fail .mediaError 64)))))

/-- Whose turn it is and whose checks pass: LOG_READ writes the entries asked for and returns their count and the newest slot; TELEMETRY_READ writes
the set and returns its bytes; PROFILE_SET notes its change for the second boundary after its admission and returns that stroke; STROKE_SET
records the origin and puts its change behind those before it, dropping those at or after it; STROKE_QUERY returns the stroke number and the
alignment state; ROUTEMAP_LOAD, its map and schedule right, fills the bank, and a wrong map is logged and refused; ROUTEMAP_SWITCH schedules its
bank for its stroke. -/
def Obligations.ManagementCommandsComplete : Prop :=
  (∀ (s s1 s2 : State) (p : Packet) (c : Cmd) (x : Ctx), Ready s p 0x0C07 c x → c.slot = none → s.takeSlot c clsMaintenance = .ok s1 →
    s1.checkLogRead (c.view s1).ctx p = .ok () → s1.mgmtTouch c 10 [s1.ioOf c 64 true] = .ok s2 →
    exec (.logRead p) s = .next ((s2.mgmtWrite c 64 (s2.log.copy (p.at 68 2) (p.at 70 2))).finish c (Ending.ok (p.at 70 2) s2.log.newest))) ∧
  (∀ (s s1 s2 : State) (p : Packet) (c : Cmd) (x : Ctx) (bs : List Byte), Ready s p 0x0C08 c x → c.slot = none →
    s.takeSlot c clsMaintenance = .ok s1 → s1.checkTelemetry (c.view s1).ctx x p = .ok () → s1.mgmtTouch c 10 [s1.ioOf c 64 true] = .ok s2 →
    bs = s2.telemetry (p.at 68 1) (c.view s2).ctx →
    exec (.telemetryRead p) s = .next ((s2.mgmtWrite c 64 bs).finish c (Ending.ok bs.length 0))) ∧
  (∀ (s s1 : State) (p : Packet) (c : Cmd) (x : Ctx), Ready s p 0x0C09 c x → s.takeSlot c clsMaintenance = .ok s1 → State.checkProfileSet p = .ok () →
    exec (.profileSet p) s = .next (({ s1 with power := { s1.power with changes := s1.power.changes ++ [(c.admitted + 2, p.at 64 1)] } } :
      State).finish c (Ending.ok (c.admitted + 2) 0))) ∧
  (∀ (s : State) (p : Packet) (c : Cmd) (x : Ctx), Ready s p 0x0D01 c x → s.checkStrokeSet p = .ok () →
    exec (.strokeSet p) s = .next (({ s with strk := { s.strk with origin := s.originFrom p, changes := (s.strk.changes.filter fun y =>
      decide (y.effective < p.at 72 6)) ++ [strokeChange p] } } : State).finish c (Ending.ok 0 0))) ∧
  (∀ (s : State) (p : Packet) (c : Cmd) (x : Ctx), Ready s p 0x0D04 c x → zeroBytes p 64 79 = .ok () →
    exec (.strokeQuery p) s = .next (s.finish c (Ending.ok (s.strk.now % 2 ^ 32) (s.strk.align.code * 2 ^ 16 + bitsOf s.strk.now 47 32)))) ∧
  (∀ (s s2 : State) (p : Packet) (c : Cmd) (x : Ctx) (a b : Desc) (m sch : List Byte), Ready s p 0x0D02 c x →
    s.checkRoutemapLoad (c.view s).ctx p = .ok () → s.mgmtTouch c 7 [s.ioOf c 68 false, s.ioOf c 72 false] = .ok s2 →
    s2.desc (c.view s2).ctx (p.at 68 4) = some a → s2.desc (c.view s2).ctx (p.at 72 4) = some b → m = s2.descBytes (c.view s2) a →
    sch = s2.descBytes (c.view s2) b →
    (∀ o, s2.checkMap m m.length = some o →
      exec (.routemapLoad p) s = .next ((s2.logEvent 0x0501 13 0 (c.view s2).ctx 0 (2 + o % 256 * 256)).finish c (badField 68))) ∧
    (∀ bank : Bank, s2.checkMap m m.length = none → checkSchedule sch s2.strk.period = none → bank = { map := m.take (mapBytes m), schedule := sch } →
      exec (.routemapLoad p) s = .next (({ s2 with fabric := { s2.fabric with banks := Kv.set (p.at 64 1) bank s2.fabric.banks } } : State).finish c
        (Ending.ok 0 0)))) ∧
  (∀ (s : State) (p : Packet) (c : Cmd) (x : Ctx), Ready s p 0x0D03 c x → s.checkRoutemapSwitch p = .ok () →
    exec (.routemapSwitch p) s = .next (({ s with fabric := { s.fabric with switch := some (p.at 64 1, p.at 72 6) } } : State).finish c
      (Ending.ok 0 0)))

/-- Whose turn it is: STREAM_OPEN, its checks passing, opens the stream with the packet's codec, size, rate and form and nothing decoded; STREAM_FEED
and STREAM_CLOSE of a stream whose order they stand in run, and a close with no feed before it and no partial batch ends with the good frames and
the stream's number free: the stream is gone, or stays closed under a number beyond the streams' while batches still wait for release.
EASEL_FRAME_DECODED writes the next frame of a self-contained codec into its slot with its META record and counts it as good, or as dropped where
it does not decode, and ends a feed whose records are used up; EASEL_BATCH_START lets the waiting stream begin its batch once there is room;
FEED_TIMEOUT ends a feed that has waited WAIT_LIMIT strokes with TIMEOUT, detail 64; BATCH_MISSING_TIMEOUT fills the missing frames of a batch
complete on another stream of its group for ceil(10^6 / P) strokes. -/
def Obligations.EaselCommandsAndEventsComplete : Prop :=
  (∀ (s : State) (p : Packet) (c : Cmd) (x : Ctx), Ready s p 0x0B01 c x → s.checkStreamOpen (c.view s).ctx p = .ok () →
    ∃ y : EStream, exec (.streamOpen p) s = .next (({ s with streams := Kv.set (p.par 0 1) y s.streams } : State).finish c (Ending.ok 0 0)) ∧
      y.owner = (c.view s).ctx ∧ y.codec = p.par 1 1 ∧ y.width = p.par 2 2 ∧ y.height = p.par 4 2 ∧ y.rate = p.par 6 2 ∧ y.batch = p.par 24 1 ∧
      y.slots = p.par 25 1 ∧ y.mode = p.par 27 1 ∧ y.next = 0 ∧ y.released = 0 ∧ y.frames = [] ∧ y.feeds = [] ∧ y.closing = none) ∧
  (∀ (s : State) (p : Packet) (c : Cmd) (x : Ctx) (y : EStream) (f : EFeed), Ready s p 0x0B02 c x → Kv.get (p.par 0 1) s.streams = some y →
    y.owner = (c.view s).ctx → f ∈ y.feeds → f.queue = c.queue → f.seq = c.seq → exec (.streamFeed p) s = .next (s.begin c .none)) ∧
  (∀ (s : State) (p : Packet) (c : Cmd) (x : Ctx) (y : EStream), Ready s p 0x0B03 c x → Kv.get (p.par 0 1) s.streams = some y →
    y.owner = (c.view s).ctx → y.closing = some (c.queue, c.seq) → c.fault = none → c.hostWait = none →
    (y.feeds ≠ [] → exec (.streamClose p) s = .next (s.begin c .none)) ∧
    (y.feeds = [] → y.next % y.batch = 0 → y.complete = [] → exec (.streamClose p) s =
      .next (({ s.begin c .none with streams := Kv.del (p.par 0 1) s.streams } : State).finish c (Ending.ok y.good 0))) ∧
    (y.feeds = [] → y.next % y.batch = 0 → y.complete ≠ [] → ∃ k, 32 ≤ k ∧ Kv.has k (Kv.del (p.par 0 1) s.streams) = false ∧
      exec (.streamClose p) s = .next ((State.finish { s.begin c .none with
        streams := Kv.set k { y with closed := true, closing := none } (Kv.del (p.par 0 1) s.streams) }) c (Ending.ok y.good 0)))) ∧
  (∀ (s s1 : State) (k first : Nat) (x : EStream) (f : EFeed) (c : Cmd) (d : Desc) (recs : List FeedRecord) (whole : Bool), Kv.get k s.streams = some x →
    s.headFeed x = some (f, c) → 2 < x.codec → s.desc (c.view s).ctx (c.pkt.par 4 4) = some d →
    s.touchUnit (c.view s) (UnitIO.mk [(68, [(d.base, c.pkt.par 8 4)])] []) = .ok s1 →
    feedRecords ((s1.feedBytes c).length / 16 + 1) (s1.feedBytes c) = (recs, whole) → first = f.first.getD x.next →
    (recs[x.next - first]? = none → exec (.easelFrameDecoded k) s = .next (s1.endFeed k c (if whole then Ending.ok (c.cursor - f.dropped) f.dropped
      else { status := .mediaError, detail := 72, r0 := c.cursor - f.dropped, r1 := f.dropped }))) ∧
    (∀ (r : FeedRecord) (out md : Desc) (s2 : State), recs[x.next - first]? = some r → x.batchDone (x.next / x.batch) = false →
      (x.started = some (x.next / x.batch) ∨ x.next % x.batch ≠ 0) → s1.desc x.owner x.output = some out → s1.desc x.owner x.metaH = some md →
      s1.touchUnit (c.view s) (UnitIO.mk [] [(64, (x.frameIO out md x.next).1), (64, (x.frameIO out md x.next).2)]) = .ok s2 →
      (∀ val pts, x.picture [] x.next r.payload = some (val, pts) →
        exec (.easelFrameDecoded k) s = .next ((s2.putFrame k x out md x.next r.capture 0 pts val).countFrame k c first true [])) ∧
      (x.picture [] x.next r.payload = none →
        exec (.easelFrameDecoded k) s = .next ((s2.putFrame k x out md x.next r.capture 1 0 fun _ => FV.zero).countFrame k c first false [])))) ∧
  (∀ (s : State) (k t : Nat) (x : EStream) (f : EFeed) (fs : List EFeed), Kv.get k s.streams = some x → x.feeds = f :: fs → f.since = some t →
    (s.hasRoom x (x.next / x.batch) = true → ∃ g : EStream → EStream, exec (.easelBatchStart k) s = .next (s.updStream k g) ∧
      g x = { x with started := some (x.next / x.batch), feeds := { f with since := none } :: fs }) ∧
    (s.hasRoom x (x.next / x.batch) = false → exec (.easelBatchStart k) s = .next s)) ∧
  (∀ (s : State) (k t : Nat) (x : EStream) (f : EFeed) (c : Cmd) (q : Queue), Kv.get k s.streams = some x → s.headFeed x = some (f, c) →
    f.since = some t → Kv.get f.queue s.queues = some q →
    (t + q.waitLimit ≤ s.strk.now → exec (.feedTimeout k) s =
      .next (s.endFeed k c { status := .timeout, detail := 64, r0 := c.cursor - f.dropped, r1 := f.dropped })) ∧
    (s.strk.now < t + q.waitLimit → exec (.feedTimeout k) s = .next s)) ∧
  (∀ (s s1 : State) (k b : Nat) (x y : EStream) (j since : Nat) (out md : Desc), Kv.get k s.streams = some x → x.closed = false →
    ((List.range (x.complete.length + 1)).map (x.released + ·)).find? (fun b => !x.batchDone b) = some b → s.desc x.owner x.output = some out →
    s.desc x.owner x.metaH = some md → (j, y) ∈ s.streamMates k x → (b, since) ∈ y.complete →
    since + ceilDiv 1000000 s.strk.period ≤ s.strk.now → (∃ e ∈ x.frames, e.frame / x.batch = b) →
    s.touchAll { ctx := x.owner, bound := [] } (((List.range x.batch).map fun i => x.frameIO out md (b * x.batch + i)).flatMap fun p => p.1 ++ p.2)
      accW false = .ok s1 → exec (.batchMissingTimeout k) s = .next (s1.fillMissing k b x out md))

/-- For the request in service, which names the operation and whose LENGTH it takes, while the firmware or the recovery ROM serves: MBOX_NOP answers
DONE; SB_SEND, its frame right, sends it on the ports named; MBOX_TELEMETRY answers the set; MBOX_CONFIG_READ answers the key's value;
MBOX_PROFILE_SET notes its change two strokes on; MBOX_CONFIG_WRITE, RECOVERY_BEGIN, RECOVERY_DATA and RECOVERY_COMMIT, while nothing writes the
flash, erase what they will write, and when the row comes again program it and answer: the store's new sequence number or MEDIA_ERROR, a fresh
transfer, the bytes written and noted as received, and slot 0's header with a warm reset due. RECOVERY_COMMIT of an image whose signature is
wrong answers SIGNATURE_INVALID. -/
def Obligations.MailboxOperationsComplete : Prop :=
  ∀ (s : State) (r : MboxRequest) (len : Nat), s.mbox.busy = some r → s.mboxServed = true → len = fieldAt r.bytes 2 2 →
    (fieldAt r.bytes 0 2 = 1 → len = 0 → exec (.mboxNop r) s = .next (s.answerMbox r (Ending.ok 0 0) [])) ∧
    (∀ g seq t, fieldAt r.bytes 0 2 = 2 → 54 ≤ len → s.checkSbSend r = .ok () → (fieldAt ((MboxBody r).drop 8) 15 1 ≠ 6 ∨ s.boot.counted = true) →
      s.nextFrameSeq = (seq, t) → g = padFrame (t.fillFrame ((MboxBody r).drop 8) seq) →
      exec (.sbSend r) s = .next (((bothPorts.filter fun p => bitOf (fieldAt (MboxBody r) 0 1) p).foldl (fun s p => s.sbPut p g) t).answerMbox r
        (Ending.ok 0 0) [])) ∧
    (fieldAt r.bytes 0 2 = 3 → len = 1 → fieldAt r.bytes 16 1 ≤ 5 → exec (.mboxTelemetry r) s =
      .next (s.answerMbox r (Ending.ok (setBytes (fieldAt r.bytes 16 1)) 0) (s.telemetry (fieldAt r.bytes 16 1) 0))) ∧
    (∀ k v, fieldAt r.bytes 0 2 = 4 → len = 4 → k = fieldAt r.bytes 16 2 → keyDefined k = true → s.readLengthOk k (fieldAt r.bytes 18 2) = true →
      v = s.shownKey k → exec (.mboxConfigRead r) s = .next (s.answerMbox r (Ending.ok v.length s.boot.storeSeq) v)) ∧
    (∀ k v, fieldAt r.bytes 0 2 = 5 → 4 ≤ len → k = fieldAt r.bytes 16 2 → v = (MboxBody r).drop 4 → v.length = fieldAt r.bytes 18 2 →
      s.checkKey k v.length v 16 18 20 = .ok () → s.boot.seed.isSome = true →
      (∀ t, s.boot.flashOp = none → t = s.flashErase (bankBase s.spareBank) 65536 →
        exec (.mboxConfigWrite r) s = .next { t with boot := { t.boot with flashOp := some { cmd := none } } }) ∧
      (s.boot.flashOp = some { cmd := none } → (∀ t, s.commitStore k v = some t → exec (.mboxConfigWrite r) s =
          .next (t.flashEnd.answerMbox r (Ending.ok t.boot.storeSeq 0) [])) ∧
        (s.commitStore k v = none → exec (.mboxConfigWrite r) s = .next (s.flashEnd.answerMbox r (.fail .mediaError 16) [])))) ∧
    (fieldAt r.bytes 0 2 = 6 → len = 1 → fieldAt r.bytes 16 1 ≤ 2 → exec (.mboxProfileSet r) s =
      .next (({ s with power := { s.power with changes := s.power.changes ++ [(s.strk.now + 2, fieldAt r.bytes 16 1)] } } : State).answerMbox r
        (Ending.ok (s.strk.now + 2) 0) [])) ∧
    (fieldAt r.bytes 0 2 = 0x10 → len = 8 → 65536 ≤ fieldAt r.bytes 16 4 → fieldAt r.bytes 16 4 ≤ 2 ^ 24 → fieldAt r.bytes 20 4 = 7856 →
      s.boot.flashOk = true →
      (∀ t, s.boot.flashOp = none → t = (s.flashErase (slotHeader 0) 65536).flashErase (slotImage 0) (2 ^ 24) →
        exec (.recoveryBegin r) s = .next { t with boot := { t.boot with flashOp := some { cmd := none } } }) ∧
      (s.boot.flashOp = some { cmd := none } → exec (.recoveryBegin r) s =
        .next (({ s with boot := { s.boot with recv := some { length := fieldAt r.bytes 16 4, received := [] } } } : State).flashEnd.answerMbox r
          (Ending.ok 0 0) []))) ∧
    (∀ o bs rt, fieldAt r.bytes 0 2 = 0x11 → 8 < len → o = fieldAt r.bytes 16 4 → bs = (MboxBody r).drop 8 → s.boot.recv = some rt →
      o + bs.length ≤ rt.length + 7856 → fieldAt r.bytes 20 4 = 0 → s.boot.flashOk = true →
      (s.boot.flashOp = none → exec (.recoveryData r) s = .next { s with boot := { s.boot with flashOp := some { cmd := none } } }) ∧
      (∀ t got, s.boot.flashOp = some { cmd := none } → t = s.flashWrite (slotImage 0 + o) (bs.take (rt.length - o)) →
        got = (rt.received.filter fun c => decide (c.1 < o)) ++ (bs.zipIdx.map fun x => (o + x.2, x.1)) ++
          (rt.received.filter fun c => decide (o + bs.length ≤ c.1)) →
        exec (.recoveryData r) s = .next (({ t with boot := { t.boot with recv := some { rt with received := got } } } : State).flashEnd.answerMbox r
          (Ending.ok 0 0) []))) ∧
    (∀ img sig rt, fieldAt r.bytes 0 2 = 0x12 → len = 0 → s.boot.recv = some rt → rt.received.length = rt.length + 7856 →
      img = (rt.received.take rt.length).map (·.2) → sig = (rt.received.drop rt.length).map (·.2) →
      (imageSigned img sig = false → exec (.recoveryCommit r) s = .next (s.answerMbox r (.fail .signatureInvalid 0) [])) ∧
      (imageSigned img sig = true → s.checkImage img = .ok () → s.storeNat 2 ≤ fieldAt img 8 4 → s.boot.flashOk = true →
        (∀ t, s.boot.flashOp = none → t = s.flashErase (slotHeader 0) 65536 →
          exec (.recoveryCommit r) s = .next { t with boot := { t.boot with flashOp := some { cmd := none } } }) ∧
        (∀ t, s.boot.flashOp = some { cmd := none } → t = s.flashWrite (slotHeader 0) (slotBytes
            (if slotHeaderOk (s.flashRead (slotHeader 1) 7924) then (s.slotSeq 1 + 1) % 2 ^ 32 else 1) img sig 0) →
          exec (.recoveryCommit r) s = .next (({ t with boot := { t.boot with warmDue := true } } : State).flashEnd.answerMbox r (Ending.ok 0 0) []))))

/-- While the firmware or the recovery ROM serves and the part is not in factory mode nor an asleep spare: a message for another endpoint, of another
type or too short is dropped and counted; one that finds the mailbox busy is answered not ready; a vendor-defined message with the mailbox free
is submitted as a request of the sideband; a control or sensor message is answered. SMBUS_CLOCK_TIMEOUT frees the bus and drops the answer that
it was carrying. FLASH_TIMEOUT ends the flash operation of a command with TIMEOUT, detail 64, loses its region and logs it. SERVICE_RESTART ends
every command in a slot with INTERNAL and counts the restart. TAP_INSTRUCTION selects IDCODE, BYPASS and the always-allowed instructions by their
code, and EXTEST, CLAMP and HIGHZ only while PORST_N is low, BYPASS otherwise. -/
def Obligations.SideCommandsComplete : Prop :=
  (∀ (s : State) (m : MctpMessage), s.boot.factory = false → s.mboxServed = true → (s.spare.state ≠ .standby ∨ s.power.reqIo = true) →
    (s.eidMatches m.destEid = false ∨ m.mtype ∉ [0, 1, 0x7E] ∨ m.body.length < 2 → exec (.mctpRequest m) s =
      .next { s with power := { s.power with discarded := s.power.discarded.set 2 (s.power.discarded.getD 2 0 + 1) } }) ∧
    (∀ t : State, t = { s with side := { s.side with busy := false, answer := none } } → s.eidMatches m.destEid = true → 2 ≤ m.body.length →
      (m.mtype ∈ [0, 1, 0x7E] → s.mbox.busy.isSome = true → exec (.mctpRequest m) s = .next (t.sideBusy m)) ∧
      (s.mbox.busy = none → (m.mtype = 0x7E → exec (.mctpRequest m) s = .next (t.submitMbox { sideband := true, bytes := m.body })) ∧
        (m.mtype = 0 → fieldAt m.body 1 1 = 2 → exec (.mctpRequest m) s = .next (t.sideAnswer 0
          ([BitVec.ofNat 8 (fieldAt m.body 0 1 % 32), 2] ++ [0] ++ leBytes 1 s.side.eid ++ [0, 0]))) ∧
        (m.mtype = 1 → exec (.mctpRequest m) s = .next (t.pldm m.body))))) ∧
  (∀ s : State, exec .smbusClockTimeout s = .next { s with side := { s.side with busy := false, answer := if s.side.busy then none else s.side.answer } }) ∧
  (∀ (s : State) (op : FlashOp) (w : Nat × Nat) (c : Cmd), s.boot.flashOp = some op → op.cmd = some w → s.findCmd w.1 w.2 = some c →
    exec .flashTimeout s = .next (if c.pkt.opcode = 0x0C06 then (s.flashEnd.finish c (.fail .timeout 64)).loseBank
      else (s.flashEnd.finish c (.fail .timeout 64)).loseSlot
        (if c.pkt.opcode = 0x0C03 then (s.flashEnd.finish c (.fail .timeout 64)).otherSlot else c.pkt.at 64 1))) ∧
  (∀ s : State, s.boot.flashOp = none → exec .flashTimeout s = .next s) ∧
  (∀ s : State, ∃ t : State, exec .serviceRestart s = .next t ∧ t.proof.restarts = (s.proof.restarts + 1) % 2 ^ 64 ∧ t.boot.flashOp = none ∧
    t.mbox.busy = none ∧ t.cmds.map (·.phase) = s.cmds.map fun c =>
      if c.slot.isSome ∧ (c.phase = .running ∨ c.phase = .admitted) then .finished { status := .internal } else c.phase) ∧
  (∀ (s : State) (code : Nat), ∃ t : State, exec (.tapInstruction code) s = .next t ∧ t = { s with side := t.side } ∧ t.side = { s.side with tap := t.side.tap } ∧
    (code ≤ 2 → t.side.tap = code) ∧ (3 ≤ code → code ≤ 5 → t.side.tap = if s.side.porst then code else 0) ∧ (5 < code → t.side.tap = 0))

/-- A write of SQ_TAIL that its queue takes sets the pointer and resets the re-reads; one beyond the ring or behind the tail, or of queue 0 while it
is not running or its completion ring is misplaced, is counted as a doorbell error with an entry. A write of CQ_HEAD up to the records written
sets the pointer and lets held records follow, and one beyond them is counted. For a queue that is not in use a zero changes nothing and any
other value is counted, for SQ_TAIL with an entry. REGISTER_WRITE to a doorbell does as the doorbell's row does, and to ENABLE as the enable rows
do. ADMQ_ENABLE, in READY, with registers that pass their checks makes queue 0 and enables it, and with a failing one notes the register.
ADMQ_DISABLE with no admitted command of queue 0 clears ENABLE, ends what was read and not admitted, and disables the queue at once where nothing
of it is left; it is dropped with an entry while there is an admitted command. -/
def Obligations.DoorbellRowsComplete : Prop :=
  (∀ (s : State) (k v : Nat) (x : Queue) (bad : State), k < 1024 → Kv.get k s.queues = some x → v < 2 ^ 32 →
    bad = (s.updQueue k fun y => { y with dbErrors := satAdd y.dbErrors 1 65535 }) →
    ((k = 0 → s.host.admqState = 1 ∧ s.ring0Misplaced x = false) → (v + 2 ^ 32 - x.sqHead) % 2 ^ 32 ≤ x.sqSlots → (v + 2 ^ 32 - x.sqTail) % 2 ^ 32 < 2 ^ 31 →
      exec (.sqTailWrite k v) s = .next (s.updQueue k fun y => { y with sqTail := v, rereads := 0 })) ∧
    (x.sqSlots < (v + 2 ^ 32 - x.sqHead) % 2 ^ 32 ∨ 2 ^ 31 ≤ (v + 2 ^ 32 - x.sqTail) % 2 ^ 32 ∨ (k = 0 ∧ (s.host.admqState ≠ 1 ∨ s.ring0Misplaced x = true)) →
      exec (.sqTailWrite k v) s = .next (bad.logEvent 0x0302 10 0 x.owner k v)) ∧
    ((v + 2 ^ 32 - x.cqHead) % 2 ^ 32 ≤ (x.cqWritten + 2 ^ 32 - x.cqHead) % 2 ^ 32 →
      exec (.cqHeadWrite k v) s = .next ((s.updQueue k fun y => { y with cqHead := v }).flush k) ∧
      (x.held = [] → x.drain = none → exec (.cqHeadWrite k v) s = .next (s.updQueue k fun y => { y with cqHead := v }))) ∧
    ((x.cqWritten + 2 ^ 32 - x.cqHead) % 2 ^ 32 < (v + 2 ^ 32 - x.cqHead) % 2 ^ 32 → exec (.cqHeadWrite k v) s = .next bad)) ∧
  (∀ (s : State) (k v : Nat) (bad : State), k < 1024 → Kv.get k s.queues = none → v < 2 ^ 32 →
    bad = { s with dbUnused := Kv.set k (satAdd ((Kv.get k s.dbUnused).getD 0) 1 65535) s.dbUnused } →
    (v = 0 → exec (.sqTailWrite k v) s = .next s ∧ exec (.cqHeadWrite k v) s = .next s) ∧
    (v ≠ 0 → exec (.sqTailWrite k v) s = .next (bad.logEvent 0x0302 10 0 noContext k v) ∧ exec (.cqHeadWrite k v) s = .next bad)) ∧
  (∀ (s : State) (k v : Nat), k < 1024 → exec (.registerWrite (4096 * k) 4 v) s = exec (.sqTailWrite k (v % 2 ^ 32)) s ∧
    exec (.registerWrite (4096 * k + 0x18) 4 v) s = exec (.cqHeadWrite k (v % 2 ^ 32)) s) ∧
  (∀ (s : State) (v : Nat), exec (.registerWrite 0x401020 8 (2 * v + 1)) s = exec .admqEnable s ∧
    exec (.registerWrite 0x401020 8 (2 * v)) s = exec .admqDisable s) ∧
  (∀ s : State, s.ready = true → s.host.admqState ≠ 1 →
    (∀ o, s.admqFault = some o → exec .admqEnable s =
      .next { s with host := { s.host with admqState := 2, reason := o, enable := false } }) ∧
    (s.admqFault = none → ∃ t : State, exec .admqEnable s = .next t ∧ t.host.admqState = 1 ∧ t.host.reason = 0 ∧ t.host.enable = true ∧
      (∀ k, k ≠ 0 → Kv.get k t.queues = Kv.get k s.queues ∧ Kv.get k t.ctxs = Kv.get k s.ctxs) ∧
      Kv.get 0 t.queues = some (newQueue 0 s.host.sqBase s.host.sqLog2 s.host.cqBase s.host.cqLog2 50000
        (if s.host.vecEn then some s.host.vector else none)) ∧ ∀ c, Kv.get 0 t.ctxs = some c → c.root = s.host.ctx0Root)) ∧
  (∀ s : State, s.host.admqState = 1 →
    ((∀ c ∈ s.cmds, c.queue = 0 → c.wasAdmitted = false) → ∃ t : State, exec .admqDisable s = .next t ∧ t.host.enable = false ∧
      (∀ k, k ≠ 0 → Kv.get k t.queues = Kv.get k s.queues) ∧ t.cmds = s.cmds.map (fun c => if c.queue = 0 ∧ c.phase = .visible then
        { c with phase := .finished (c.failed.getD (conflict scGroupEnded)) } else c) ∧
      (∀ x, Kv.get 0 s.queues = some x → x.held = [] → (∀ c ∈ s.cmds, c.queue ≠ 0) → t.host.admqState = 0)) ∧
    ((∃ c ∈ s.cmds, c.queue = 0 ∧ c.wasAdmitted = true) → exec .admqDisable s = .next (s.inbound 0x401020)))

/-- SB_RX_HEAD takes a head up to the tail and ignores any other. A read of a FAULT_SUMMARY word answers it and clears it; a read of the low half of
a register latches its high half. A table-window write lands at its physical address, or enters the log where there is none. REGISTER_WRITE to a
read-only register or to the reserved half of ENABLE or MBOX_DOORBELL changes nothing; to FAULT_VEC it sets vector and enable; a misaligned one
enters the log. -/
def Obligations.HostRegisterRowsComplete : Prop :=
  (∀ (s : State) (v : Nat), ((v % 2 ^ 32 + 2 ^ 32 - s.mbox.rxHead) % 2 ^ 32 ≤ (s.mbox.rxTail + 2 ^ 32 - s.mbox.rxHead) % 2 ^ 32 →
      exec (.sbRxHeadWrite v) s = .next { s with mbox := { s.mbox with rxHead := v % 2 ^ 32 } }) ∧
    ((s.mbox.rxTail + 2 ^ 32 - s.mbox.rxHead) % 2 ^ 32 < (v % 2 ^ 32 + 2 ^ 32 - s.mbox.rxHead) % 2 ^ 32 → exec (.sbRxHeadWrite v) s = .next s)) ∧
  (∀ (s : State) (w : Nat), w < 64 → exec (.faultSummaryRead w) s = .next { s with host := { s.host with
    answer := .data (leBytes 8 (s.summaryWord w)), faultSummary := s.host.faultSummary.filter fun c => c / 64 ≠ w } }) ∧
  (∀ (s : State) (o v : Nat), o % 8 = 0 → s.window o = none → s.reg o = some v → ¬ (0x400100 ≤ o ∧ o < 0x400300) →
    exec (.halfReadLatch o) s = .next { s with host := { s.host with latch := some (o, v / 2 ^ 32), answer := .data (leBytes 4 (v % 2 ^ 32)) } }) ∧
  (∀ (s : State) (o pa : Nat) (bs : List Byte), tableAccessOk o bs.length = true →
    (tablePa o = some pa → exec (.tableWindowWrite o bs) s = .next { s with mem := s.mem.writeBytes pa bs }) ∧
    (tablePa o = none → exec (.tableWindowWrite o bs) s = .next (s.inbound o))) ∧
  (∀ (s : State) (v : Nat), exec (.registerWrite 0x400008 8 v) s = .next s ∧ exec (.registerWrite 0x401024 4 v) s = .next s ∧
    exec (.registerWrite 0x422004 4 v) s = .next s ∧
    exec (.registerWrite 0x400040 8 v) s = .next { s with host := { s.host with faultVec := v % 2 ^ 11, faultEn := v.testBit 15 } }) ∧
  (∀ (s : State) (o v : Nat), o % 4 ≠ 0 → exec (.registerWrite o 4 v) s = .next (s.logEvent 0x0A01 12 0 noContext 0 o))

/-- While the link is up: a read of configuration space answers its bytes; a request for a feature that the part declines is answered as unsupported
with its error bit; an untrusted request is logged and answered so; a BAR0 request does as the register's row does; a write through the
device-memory window lands in device memory, noted as keyless in a DDR frame without an owner, and a read answers what stands there, or an open
value in such a frame; a request for a line that finds the directory full snoops the oldest line and waits. CXL_SNOOP takes the line out of the
host-line cache; a BACK_INVALIDATION_RESPONSE lands the host's write-back and then the engines' bytes that waited for it, forgets the line and
serves the requests that waited. HOST_LINK_UP with a legal width settles the mode and lets what was held go out, and holds the link down where
the mode would change; HOST_LINK_DOWN and REFCLK_LOST take the link down, drop the cache, the directory and the waiting requests, and enter the
log; HOST_LINK_LOSS_TIMEOUT ends every command that waits for the host with TIMEOUT and its field, and stalls the queues that lie in host memory. -/
def Obligations.HostRequestsAndLinkComplete : Prop :=
  (∀ (s : State) (r : HostRequest), s.host.up = true →
    (r.target = .config → r.write = false → exec (.hostInboundRequest r) s =
      .next (s.answerHost (.data ((List.range r.length).map fun i => s.configAt (r.offset + i))))) ∧
    (∀ f, r.target = .feature f → (s.usesFeature f = true → exec (.hostInboundRequest r) s = .next s) ∧
      (s.usesFeature f = false → exec (.hostInboundRequest r) s =
        .next (({ s with host := { s.host with aer := setBits s.host.aer 20 20 1 } } : State).answerHost .unsupported))) ∧
    (r.trusted = false → (r.target = .bar0 ∨ r.target = .bar2 ∨ r.target = .bar4 ∨ r.target = .hdm) → exec (.hostInboundRequest r) s =
      .next (s.inbound r.offset).unsupported) ∧
    (r.trusted = true → r.target = .bar0 → r.write = true → exec (.hostInboundRequest r) s =
      .next ((s.write0 r.offset r.data.length (leNat r.data)).answerHost .written)) ∧
    (r.trusted = true → r.target = .bar0 → r.write = false → exec (.hostInboundRequest r) s = .next (s.read0 r.offset r.length)) ∧
    (r.trusted = true → r.target = .bar2 → r.write = true → exec (.hostInboundRequest r) s = .next ((s.writeTable r.offset r.data).answerHost .written)) ∧
    (r.trusted = true → r.target = .hdm → s.host.coherent = false → exec (.hostInboundRequest r) s = .next s.unsupported)) ∧
  (∀ (s : State) (r : HostRequest) (n pa : Nat) (keyless : Prop), s.host.up = true → r.trusted = true → n = (if r.write then r.data.length else r.length) →
    (r.target = .bar4 ∧ s.host.coherent = false ∧ 0 < n ∧ r.offset % 64 + n ≤ 64) ∨ (r.target = .hdm ∧ s.host.coherent = true ∧ r.cached = false) →
    s.windowPa r.offset = some pa → s.mem.bad pa n = false → (keyless ↔ s.region pa = .ddr ∧ s.ownerOf pa = none) →
    (r.write = true → ¬ keyless → exec (.hostInboundRequest r) s =
      .next ((({ s with mem := s.mem.writeBytes pa r.data } : State).sampleTriggers).answerHost .written)) ∧
    (∀ m, r.write = true → keyless → m = s.mem.writeBytes pa r.data → exec (.hostInboundRequest r) s =
      .next ((({ s with mem := { m with ddrLast := Kv.set (pa / 65536) noKey m.ddrLast } } : State).sampleTriggers).answerHost .written)) ∧
    (r.write = false → ¬ keyless → exec (.hostInboundRequest r) s = .next (s.answerHost (.data (s.mem.readBytes pa n)))) ∧
    (r.write = false → keyless → ∃ bs, exec (.hostInboundRequest r) s = .next (({ s with free := s.free + 1 } : State).answerHost (.data bs)) ∧ bs.length = n)) ∧
  (∀ (s : State) (r : HostRequest) (pa : Nat), s.host.up = true → r.trusted = true → r.target = .hdm → s.host.coherent = true → r.cached = true →
    s.windowPa r.offset = some pa → s.mem.bad pa (if r.write then r.data.length else r.length) = false → s.mem.directoryFull (lineOf pa) = true →
    exec (.hostInboundRequest r) s = .next { s with mem := s.mem.snoopOldest, host := { s.host with waiting := s.host.waiting ++ [r] } }) ∧
  (∀ (s : State) (l : Nat), exec (.cxlSnoop l) s = .next { s with mem := { s.mem with hostLines := s.mem.hostLines.filter (· ≠ lineOf l) } }) ∧
  (∀ (s : State) (l : Nat) (bs : List Byte) (mine : List (Nat × Byte)), Kv.get (lineOf l) s.mem.snooped = some mine →
    ∃ m : Memory, exec (.backInvalidationResponse l bs) s = .next ({ s with mem := m } : State).serveWaiting ∧ Kv.get (lineOf l) m.snooped = none ∧
      lineOf l ∉ m.directory ∧ ∀ a, m.read a = (mine.foldl (fun (m : Memory) e => m.write e.1 e.2)
        (if bs.length = 64 then s.mem.writeBytes (lineOf l) bs else s.mem)).read a) ∧
  (∀ (s : State) (cxl : Bool) (w : Nat), s.host.up = false → s.host.heldDown = false → w ∈ [4, 8, 16] → s.power.stopped = false →
    s.side.porst = false → s.boot.factory = false →
    (s.host.settled = true → s.host.coherent ≠ cxl → exec (.hostLinkUp cxl w) s =
      .next (({ s with host := { s.host with heldDown := true } } : State).logEvent 0x0501 12 0 noContext 0 0)) ∧
    (∀ t : State, (s.host.settled = false ∨ s.host.coherent = cxl) →
      t = { s with host := { s.host with up := true, settled := true, coherent := cxl, width := widthCode w, lost := false } } →
      (w = 16 → cxl = true → exec (.hostLinkUp cxl w) s = .next t.releaseHost) ∧
      (w < 16 ∨ cxl = false → exec (.hostLinkUp cxl w) s = .next (t.logEvent 0x0501 12 0 noContext 0 1).releaseHost))) ∧
  (∀ s : State, s.host.up = true → ∀ t, t = (({ s with host := { s.host with up := false, lost := false, waiting := [] }, mem :=
      { s.mem with hostLines := [], directory := [], snooped := [] } } : State).logEvent 0x0501 12 0 noContext 0 0) →
    exec .hostLinkDown s = .next t ∧ exec .refclkLost s = .next t) ∧
  (∀ s : State, s.host.up = false → s.host.lost = false → ∃ t : State, exec .hostLinkLossTimeout s = .next t ∧ t.host.lost = true ∧
    t.cmds = s.cmds.map (fun c => match c.hostWait with
      | some d => { c with phase := .finished (.fail .timeout d), hostWait := none, work := .none }
      | none => c) ∧
    ∀ k x, Kv.get k s.queues = some x → s.awaitsHost x = true → (Kv.get k t.queues).map (·.state) = some .stalled)

/-- RECORD_FETCH, RECORD_REREAD and STALLED_REREAD of a queue that may be read stop it where its ring's page cannot be read; else they claim the
page, read the record's lines, consume a visible record, and mend the ring's mark where none is visible: a re-read counts, and the eighth stalls
an active queue with its entry. COMMAND_COMPLETE completes a finished command that no post of its queue pair holds back, and makes a GLOBAL one
wait first; GLOBAL_FLUSH_DONE completes it once no line is snooped and no host write is held. PIN_RETRY lets the held items of a broken queue try
again. WAIT_TIMEOUT ends the first whole group of its queue whose wait has not held for WAIT_LIMIT strokes, its first command with TIMEOUT,
detail 24, and the others with GROUP_ENDED, with an entry. RESIDENCE_TIMEOUT ends the first whole group that has waited so long for the residence
of its context in the same way with detail 16. Where there is no such group, neither changes anything. RESIDENCE_WAIT logs a context that has
waited 1,000 strokes once. -/
def Obligations.QueueRowsComplete : Prop :=
  (∀ (s u : State) (k len n : Nat) (x : Queue), Kv.get k s.queues = some x → s.mayRead k x = true →
    (∀ a, s.recordBroken x 64 = some a → ∀ t, t = s.breakPin k x a x.expSeq accR x.sqBroken → exec (.recordFetch k) s = .next t ∧
      (x.rereads < 8 → exec (.recordReread k) s = .next t) ∧ (x.state = .stalled → x.rereads = 8 → exec (.stalledReread k) s = .next t)) ∧
    (s.recordBroken x 64 = none → len = leNat ((((s.claimPage x.owner (x.recordAddr 0)).recordBytes x 64).drop 4).take 2) →
      n = (if len ≤ 512 ∧ ceilDiv len 64 ≤ x.posted then len else 64) →
      u = (s.claimPage x.owner (x.recordAddr 0)).cacheRing x (max 1 (ceilDiv n 64)) → u.recordBroken x n = none →
      (∀ bs, u.visibleRecord x = some bs → exec (.recordFetch k) s = .next (u.consume k x bs) ∧
        (x.rereads < 8 → exec (.recordReread k) s = .next (u.consume k x bs)) ∧
        (x.state = .stalled → x.rereads = 8 → exec (.stalledReread k) s = .next (u.consume k x bs))) ∧
      (u.visibleRecord x = none → exec (.recordFetch k) s = .next (u.updQueue k fun y => { y with sqBroken := false }) ∧
        (x.state = .stalled → x.rereads = 8 → exec (.stalledReread k) s = .next (u.updQueue k fun y => { y with sqBroken := false })) ∧
        (x.rereads < 8 → (x.rereads + 1 ≠ 8 ∨ x.state ≠ .active) →
          exec (.recordReread k) s = .next (u.updQueue k fun y => { y with sqBroken := false, rereads := y.rereads + 1 })) ∧
        (x.rereads + 1 = 8 → x.state = .active → exec (.recordReread k) s = .next ((u.updQueue k fun y =>
          { y with sqBroken := false, rereads := y.rereads + 1, state := .stalled }).logEvent 0x0301 10 0 x.owner k x.expSeq))))) ∧
  (∀ (s : State) (k n : Nat) (c : Cmd) (e : Ending), s.findCmd k n = some c →
    (c.phase = .finished e → s.behindPosts c = false →
      (c.pkt.global = false → exec (.commandComplete k n) s = .next (s.completeNow c e)) ∧
      (c.pkt.global = true → exec (.commandComplete k n) s = .next (s.updCmd k n fun d => { d with phase := .flushing e }))) ∧
    (c.phase = .flushing e → (s.mem.snooped = [] → s.host.heldWrites = [] → exec (.globalFlushDone k n) s = .next (s.completeNow c e)) ∧
      (s.mem.snooped ≠ [] ∨ s.host.heldWrites ≠ [] → exec (.globalFlushDone k n) s = .next s))) ∧
  (∀ (s : State) (k : Nat) (x : Queue), Kv.get k s.queues = some x →
    (x.pinBroken = true → exec (.pinRetry k) s = .next (s.flush k)) ∧ (x.pinBroken = false → exec (.pinRetry k) s = .next s)) ∧
  (∀ (s : State) (k : Nat) (x : Queue) (waited resided : Cmd → Bool), Kv.get k s.queues = some x →
    (waited = fun c => (c.firstPass.any fun f => decide (f + x.waitLimit ≤ s.strk.now)) && decide (s.inkWaitHolds x.owner c.pkt.wait ≠ some true)) →
    (resided = fun c => c.firstBoundary.any fun f => decide (f + x.waitLimit ≤ s.strk.now)) →
    (∀ c t, (s.visibleGroups k).find? (fun g => g.head?.any waited) = some (c :: t) →
      exec (.waitTimeout k) s = .next ((s.expireGroup (c :: t) (.fail .timeout 24)).logEvent 0x0303 10 0 x.owner k c.seq)) ∧
    ((s.visibleGroups k).find? (fun g => g.head?.any waited) = none → exec (.waitTimeout k) s = .next s) ∧
    (∀ g o, (s.visibleGroups k).find? (fun g => g.head?.any resided) = some g → Kv.get x.owner s.ctxs = some o →
      (o.slot = none → exec (.residenceTimeout k) s = .next (s.expireGroup g (.fail .timeout 16))) ∧
      (o.slot.isSome = true → exec (.residenceTimeout k) s = .next s)) ∧
    ((s.visibleGroups k).find? (fun g => g.head?.any resided) = none → exec (.residenceTimeout k) s = .next s)) ∧
  (∀ (s : State) (g : List Cmd) (e : Ending) (i : Nat) (c : Cmd), (g.map fun c => (c.queue, c.seq)).Nodup → g[i]? = some c →
    (s.findCmd c.queue c.seq).isSome = true →
    ((s.expireGroup g e).findCmd c.queue c.seq).map (·.phase) = some (.finished (if i = 0 then e else conflict scGroupEnded))) ∧
  (∀ (s : State) (n since : Nat) (c : Ctx), Kv.get n s.ctxs = some c → c.waitingSince = some since → c.slot = none → c.waitLogged = false →
    (since + 1000 ≤ s.strk.now → exec (.residenceWait n) s = .next ((s.updCtx n fun c => { c with waitLogged := true }).logEvent 0x0304 10 0 n
      (((s.cmds.find? fun d => decide ((d.view s).ctx = n) && s.inWhole d).map (·.queue)).getD 0) (s.strk.now - since))) ∧
    (s.strk.now < since + 1000 → exec (.residenceWait n) s = .next s))

/-- ADMISSION_PASS runs one pass of its dispatcher while the part is not stopped. In a pass, a queue that is not STOPPED, that holds fewer than 64
records back, and whose oldest visible group is whole, serves that group: the word of its wait is sampled; where every check of every command
passes and wait, residence and decisions allow it, every command of the group and no other becomes admitted, with the present stroke, its full
budget and the windows of its context, and the queues stay as they are, as does memory where no command of the group carries a step or saves;
where a check fails, none of them is admitted: each failing one ends with its own status and the others with GROUP_ENDED; where only wait,
residence or a decision is missing, nothing changes but the sample. Any other queue is passed over. -/
def Obligations.AdmissionServesGroupsWhole : Prop :=
  (∀ (s : State) (d : Nat), (s.power.stopped = false → exec (.admissionPass d) s = .next (s.pass d)) ∧
    (s.power.stopped = true → exec (.admissionPass d) s = .next s)) ∧
  (∀ (s t : State) (q : Nat) (k : Queue) (x : Ctx) (f : Cmd) (g : List Cmd) (fails : List (Option Ending)), Kv.get q s.queues = some k →
    Kv.get k.owner s.ctxs = some x → s.visibleGroup q = f :: g → k.state ≠ .stopped → k.held.length < 64 →
    t = s.inkSample k.owner f.pkt.wait → fails = s.groupFailures x ((f :: g).map fun c => { c with bound := x.binding }) →
    ((∀ e ∈ fails, e = none) → t.groupReady k.owner x (f :: g) = true →
      ∃ u : State, s.passQueue q = (u, true) ∧ u.queues = t.queues ∧
        ((∀ c ∈ f :: g, numbered c.pkt.opcode = false ∧ c.pkt.opcode ≠ 0x0A02) → u.mem = t.mem) ∧
        u.cmds = t.cmds.map fun d => if ∃ c ∈ f :: g, c.queue = d.queue ∧ c.seq = d.seq then
          { d with phase := .admitted, admitted := t.strk.now, place := t.admissions, budget := t.fullBudget d, bound := x.binding } else d) ∧
    ((∃ e ∈ fails, e ≠ none) → ∃ u : State, s.passQueue q = (u, false) ∧ u.cmds.map (·.seq) = s.cmds.map (·.seq) ∧
      (∀ c ∈ u.cmds, c.phase = .admitted → ∃ d ∈ s.cmds, d.queue = c.queue ∧ d.seq = c.seq ∧ d.phase = .admitted) ∧
      (((f :: g).map fun c => (c.queue, c.seq)).Nodup → ∀ i c, (f :: g)[i]? = some c → (u.findCmd c.queue c.seq).map (·.phase) =
        some (.finished ((fails.getD i none).getD (conflict scGroupEnded))))) ∧
    ((∀ e ∈ fails, e = none) → t.groupReady k.owner x (f :: g) = false → s.passQueue q = (t, false))) ∧
  (∀ (s : State) (q : Nat) (k : Queue), Kv.get q s.queues = some k → (k.state = .stopped ∨ 64 ≤ k.held.length ∨ s.visibleGroup q = []) →
    s.passQueue q = (s, false))

/-- STROKE_BOUNDARY runs actions 1 to 5, then what comes before the plates are given, then actions 6 to 9 (plates and routers given, the admission
pass of every dispatcher, the first units), or the spare's sleep where it is armed and SPARE_ARM has completed; of a part whose core is held it
runs what the auxiliary domain holds, the stroke number moving on; under PORST_N nothing. A Sync of the named source and port bounds the offset;
with its departure, from itself or from its Follow_Up, it corrects the stroke's length towards a small offset, the offset being the last
boundary's less what the Sync's travel differs from the path delay, and a delay request leaves; the answer to that request gives the path delay,
half of both ways. Another source's or port's message, or one without a match, changes nothing. SYNC_TIMEOUT under a PTP source makes the offset
unbounded. Eight boundaries within ±100 ns bring ALIGNED, three beyond ±500 ns lose it and set the alignment-lost bit; fewer change nothing.
SLOT_OPEN opens the slot on a port that it governs, and the transit packets that wait there begin. How the path delay enters is the model's
reading of PTP (assumption 161). -/
def Obligations.StrokeRowsComplete : Prop :=
  (∀ (s : State) (b : BoundaryInput), (s.side.porst = true → exec (.strokeBoundary b) s = .next s) ∧
    (s.side.porst = false → s.power.stopped = true → exec (.strokeBoundary b) s = .next (s.auxBoundary b) ∧
      (s.auxBoundary b).strk.now = s.nextStroke % 2 ^ 48) ∧
    (s.side.porst = false → s.power.stopped = false → (s.boundaryHead b).sleeps = false →
      exec (.strokeBoundary b) s = .next ((((s.boundaryHead b).boundaryMiddle.givePlates).giveRouters).boundaryPass).issueFirst) ∧
    (s.side.porst = false → s.power.stopped = false → (s.boundaryHead b).sleeps = true → ∃ t : State,
      exec (.strokeBoundary b) s = .next t ∧ t.spare.state = .standby ∧ t.power.reqCore = false)) ∧
  (∀ (s : State) (m : PtpMessage), s.strk.source ≠ 0 → m.source = s.strk.source → m.port = s.strk.port →
    (∀ n, m.body = .sync n none →
      exec (.ptpSync m) s = .next { s with strk := { s.strk with unbounded := false, ptpSync := some (n, m.arrival) } }) ∧
    (∀ n sent x, m.body = .sync n (some sent) → x = s.strk.offset - (m.arrival - sent - s.strk.ptpDelay) →
      exec (.ptpSync m) s = .next { s with strk := { s.strk with
        unbounded := false, ptpSync := none, ptpDiff := some (m.arrival - sent), ptpRequest := some (s.strk.ptpNext, m.departure)
        ptpNext := (s.strk.ptpNext + 1) % 65536
        correction := if s.strk.period * 250 < x.natAbs then s.strk.correction else if x.natAbs ≤ 50 then 0 else -(max (-250) (min x 250)) } }) ∧
    (∀ n sent a x, m.body = .followUp n sent → s.strk.ptpSync = some (n, a) → x = s.strk.offset - (a - sent - s.strk.ptpDelay) →
      exec (.ptpSync m) s = .next { s with strk := { s.strk with
        ptpSync := none, ptpDiff := some (a - sent), ptpRequest := some (s.strk.ptpNext, m.departure), ptpNext := (s.strk.ptpNext + 1) % 65536
        correction := if s.strk.period * 250 < x.natAbs then s.strk.correction else if x.natAbs ≤ 50 then 0 else -(max (-250) (min x 250)) } }) ∧
    (∀ n sent, m.body = .followUp n sent → s.strk.ptpSync.map (·.1) ≠ some n → exec (.ptpSync m) s = .next s) ∧
    (∀ n received left d, m.body = .delayAnswer n received → s.strk.ptpRequest = some (n, left) → s.strk.ptpDiff = some d →
      exec (.ptpSync m) s = .next { s with strk := { s.strk with ptpRequest := none, ptpDelay := (d + (received - left)) / 2 } }) ∧
    (∀ n received, m.body = .delayAnswer n received → s.strk.ptpRequest.map (·.1) ≠ some n → exec (.ptpSync m) s = .next s)) ∧
  (∀ (s : State) (m : PtpMessage), s.strk.source = 0 ∨ m.source ≠ s.strk.source ∨ m.port ≠ s.strk.port → exec (.ptpSync m) s = .next s) ∧
  (∀ s : State, (s.strk.source ≠ 0 → exec .syncTimeout s = .next { s with strk := { s.strk with unbounded := true } }) ∧
    (s.strk.source = 0 → exec .syncTimeout s = .next s)) ∧
  (∀ s : State, (s.strk.align = .acquiring ∨ s.strk.align = .unaligned) → (8 ≤ s.strk.within → exec .alignmentAcquired s = .next (({ s with strk :=
      { s.strk with align := .aligned, within := 0, beyond := 0 } } : State).logEvent 0x0403 11 0 noContext 2 (twos 64 s.strk.offset))) ∧
    (s.strk.within < 8 → exec .alignmentAcquired s = .next s)) ∧
  (∀ s : State, s.strk.align = .aligned → (3 ≤ s.strk.beyond → ∃ t : State, exec .alignmentLost s = .next t ∧ t.strk.align = .unaligned ∧
      t.host.alignLost = true ∧ t.cmds = s.cmds ∧ t.mem = s.mem) ∧ (s.strk.beyond < 3 → exec .alignmentLost s = .next s)) ∧
  (∀ (s : State) (p i : Nat) (es : List (Nat × Nat × Nat × Nat)) (e : Nat × Nat × Nat × Nat), s.schedule = some es → es[i]? = some e →
    (bitOf e.2.2.2 p = true →
      exec (.slotOpen p i) s = .next ((s.updPort p fun q => { q with slot := some i }).portLane p (e.1 + 100))) ∧
    (bitOf e.2.2.2 p = false → exec (.slotOpen p i) s = .next s))

/-- A frame with a wrong FCS, one above the port's largest frame, and one for another address that is neither a broadcast nor an IPv6 multicast are
counted as received and as dropped and do nothing else; one for the port's UDP service is counted; an ARP request for the port's address is
answered. LINK_UP of a configured port brings it up with its entry, LINK_DOWN takes it down, counts it and enters the log. In a DIRECT topology a
packet for another node is queued with one hop more, in the class that it carries, on the first other port that is up towards the node, marked as
wrapped on the way back where none is up, on the ring's other port where it is wrapped already, and what waits there begins where its class may;
it is dropped after 4,095 hops. A frame on a PASS port of a spare in STANDBY or AWAKE leaves unchanged on the partner; PROMOTION_ANNOUNCEMENT
sends one round while any is left and changes nothing else. -/
def Obligations.FabricRowsComplete : Prop :=
  (∀ (s : State) (p : Nat) (q : Port) (f : List Byte), s.port p = some q → q.mode ≠ 0 → q.up = true →
    (crc32 (f.take (f.length - 4)) ≠ leNat (f.drop (f.length - 4)) ∨ q.maxFrame < f.length ∨
      (beNat (f.take 6) ≠ q.mac ∧ beNat (f.take 6) ≠ 2 ^ 48 - 1 ∧ beNat (f.take 6) / 2 ^ 32 ≠ 0x3333) →
        exec (.frameReceived p f) s = .next ((s.portCount p 1 1).portCount p 2 1)) ∧
    (∀ ty b, crc32 (f.take (f.length - 4)) = leNat (f.drop (f.length - 4)) → f.length ≤ q.maxFrame → beNat (f.take 6) = q.mac ∨ beNat (f.take 6) = 2 ^ 48 - 1 →
      etherBody q (f.take (f.length - 4)) = some (ty, b) →
      (∀ r, ty = 0x0806 → arpReply q b = some r → exec (.frameReceived p f) s = .next ((s.portCount p 1 1).transmit p r)) ∧
      (ty ≠ 0x0806 → udpDport q ty b = some s.fabric.udpPort → exec (.frameReceived p f) s = .next (s.portCount p 1 1)))) ∧
  (∀ (s : State) (p : Nat) (q : Port), s.port p = some q →
    (q.mode ≠ 0 → q.up = false → s.power.stopped = false →
      exec (.linkUp p) s = .next ((s.updPort p fun q => { q with up := true }).logEvent 0x0501 13 p noContext 0 1)) ∧
    (q.up = true → exec (.linkUp p) s = .next s ∧
      exec (.linkDown p) s = .next (((s.updPort p fun q => { q with up := false }).portCount p 3 1).logEvent 0x0501 13 p noContext 0 0)) ∧
    (q.up = false → exec (.linkDown p) s = .next s)) ∧
  (∀ (s : State) (p dest hops cls now : Nat) (m pkt : List Byte), s.activeMap = some m → fieldAt m 6 1 = 1 → dest = fieldAt pkt 4 2 →
    dest ≠ s.selfNode → s.portUp p = true → 40 ≤ pkt.length → hops = fieldAt pkt 2 2 % 4096 → cls = bitsOf (fieldAt pkt 1 1) 3 2 →
    (hops = 4095 → exec (.transitForward p { bytes := pkt, now := now }) s = .next (s.portCount p 2 1)) ∧
    (∀ o f t, hops ≠ 4095 → bitOf (fieldAt pkt 1 1) 7 = true → s.ringMate p = some o → s.portUp o = true →
      s.frameFor o (s.entryVia o dest) cls (packetWith pkt true (hops + 1)) = (f, t) →
        exec (.transitForward p { bytes := pkt, now := now }) s = .next ((t.updPort o fun q => { q with waiting := q.waiting ++ [(cls, f)] }).portLane o now)) ∧
    (∀ e o os f t, hops ≠ 4095 → bitOf (fieldAt pkt 1 1) 7 = false → s.nodeOf dest = some e → (s.upPorts e.mask).filter (· ≠ p) = o :: os →
      s.frameFor o e cls (packetWith pkt false (hops + 1)) = (f, t) →
        exec (.transitForward p { bytes := pkt, now := now }) s = .next ((t.updPort o fun q => { q with waiting := q.waiting ++ [(cls, f)] }).portLane o now)) ∧
    (∀ e f t, hops ≠ 4095 → bitOf (fieldAt pkt 1 1) 7 = false → s.nodeOf dest = some e → s.upPorts e.mask = [] →
      s.frameFor p (s.entryVia p dest) cls (packetWith pkt true (hops + 1)) = (f, t) →
        exec (.transitForward p { bytes := pkt, now := now }) s = .next ((t.updPort p fun q => { q with waiting := q.waiting ++ [(cls, f)] }).portLane p now))) ∧
  (∀ (s : State) (p : Nat) (m f : List Byte), s.activeMap = some m → (mapPort m p).1 = 6 → s.portUp p = true → s.portUp (mapPort m p).2.2.1 = true →
    (s.spare.state = .standby ∨ s.spare.state = .awake) →
    (crc32 (f.take (f.length - 4)) = leNat (f.drop (f.length - 4)) →
      exec (.passThroughFrame p f) s = .next ((s.portCount p 1 1).transmit (mapPort m p).2.2.1 (f.take (f.length - 4)))) ∧
    (crc32 (f.take (f.length - 4)) ≠ leNat (f.drop (f.length - 4)) →
      exec (.passThroughFrame p f) s = .next ((s.portCount p 1 1).portCount p 2 1))) ∧
  (∀ s : State, (s.fabric.announce = 0 → exec .promotionAnnouncement s = .next s) ∧ (0 < s.fabric.announce → ∃ t : State,
    exec .promotionAnnouncement s = .next t ∧ t.fabric.announce = s.fabric.announce - 1 ∧ t = { s with fabric := t.fabric }))

/-- DISCOVER_SEND on an AUTO port in CSMA/CD, HELLO_SEND on a port in PLCA that is not muted, TAKEOVER_REPEAT while one is left, FAILURE_RATE_SEND,
and LOG_EXPORT_SEND with export on and entries not yet sent, each send their frame, and otherwise change nothing. DISCOVERY_WINDOW_CLOSE of a
port in discovery: a clash keeps it in CSMA/CD, no holder of ID 0 keeps discovery going, no ID mutes it, ID 0 makes it the beacon in PLCA, and
any other ID makes it wait for the beacon, whose hearing brings it to PLCA. PLCA_FALLBACK returns a port in PLCA to discovery. COLLISION_BACKOFF
tries the waiting frame again, and changes nothing while none waits. -/
def Obligations.ServiceBusSendingCompletes : Prop :=
  (∀ (s : State) (p : Nat) (q : SbPort), s.sb p = some q →
    (q.mode = 1 → q.phase = .discovery ∨ q.phase = .csma → exec (.discoverSend p) s = .next (s.sendService [p] broadcast 1 0
      (leBytes 1 q.wanted ++ leBytes 1 s.sbState ++ leBytes 1 p ++ [0] ++ leBytes 4 s.boot.version ++ zeros 8))) ∧
    (q.phase = .plca → q.mute = false → exec (.helloSend p) s = .next (s.sendService [p] broadcast 2 0
      (leBytes 1 (q.id.getD 0) ++ leBytes 1 s.sbState ++ leBytes 1 s.strk.align.code ++ zeros 5))) ∧
    (q.phase = .plca → exec (.plcaFallback p) s = .next ((s.updSb p fun q =>
      { q with phase := .discovery, heard := [], id := none, beacon := false, mute := false }).sbEvent p 1)) ∧
    (q.phase = .wait → exec (.plcaBeaconHeard p) s = .next (((s.updSb p fun q =>
      { q with phase := .plca, attempts := 0, backoff := 0 }).sbEvent p 0).sbTry p q.queue.length)) ∧
    (q.phase ≠ .plca → exec (.helloSend p) s = .next s ∧ exec (.plcaFallback p) s = .next s) ∧
    (q.attempts ≠ 0 → exec (.collisionBackoff p) s = .next (s.sbTry p q.queue.length)) ∧
    (q.attempts = 0 → exec (.collisionBackoff p) s = .next s)) ∧
  (∀ s : State, (s.bus.takeover.1 = 0 → exec .takeoverRepeat s = .next s) ∧ (0 < s.bus.takeover.1 → exec .takeoverRepeat s =
    .next (({ s with bus := { s.bus with takeover := (s.bus.takeover.1 - 1, s.bus.takeover.2) } } : State).sendService bothPorts broadcast 4 0
      s.bus.takeover.2))) ∧
  (∀ s : State, ∃ (v : Nat) (t : State), t = ({ s with free := s.free + 1 } : State).keepExposure 0 s.boot.serial v ∧
    exec .failureRateSend s = .next (t.sendService bothPorts broadcast 3 0 (leBytes 8 v ++ leBytes 2 s.bus.own.length ++ zeros 6 ++
      s.bus.own.flatMap fun e => leBytes 2 e.node ++ leBytes 6 e.stroke ++ leBytes 1 e.cause ++ zeros 7))) ∧
  (∀ (s : State) (behind : Nat), behind = (s.log.nextSeq + 2 ^ 32 - s.bus.cursor) % 2 ^ 32 →
    (bitOf s.bus.flags 0 = false ∨ behind = 0 → exec .logExportSend s = .next s) ∧
    (∀ t : State, bitOf s.bus.flags 0 = true → 0 < behind → behind ≤ 8192 →
      t = { s with bus := { s.bus with cursor := (s.bus.cursor + min 15 behind) % 2 ^ 32 } } → s.bus.cursor < 2 ^ 32 →
      exec .logExportSend s = .next (t.sendService bothPorts broadcast 8 s.bus.exportTo (leBytes 2 (min 15 behind) ++ leBytes 2 0 ++
        leBytes 4 ((s.bus.cursor + 2 ^ 32 - 1) % 2 ^ 32 % 8192) ++ s.log.copy ((s.bus.cursor + 2 ^ 32 - 1) % 2 ^ 32 % 8192) (min 15 behind))))) ∧
  (∀ (s : State) (p : Nat) (q : SbPort) (ids : List (Nat × Nat)), s.sb p = some q → s.boot.recovery = false →
    ids = assignIds (Kv.set s.boot.serial q.wanted q.heard) q.reserved →
    (q.phase ≠ .discovery → exec (.discoveryWindowClose p) s = .next s) ∧
    (q.phase = .discovery → q.wanted ≠ 0xFF → (∃ e ∈ q.heard, e.1 ≠ s.boot.serial ∧ e.2 = q.wanted) →
      exec (.discoveryWindowClose p) s = .next ((s.updSb p fun q => { q with phase := .csma }).sbEvent p 2)) ∧
    (q.phase = .discovery → (q.wanted = 0xFF ∨ ∀ e ∈ q.heard, ¬ (e.1 ≠ s.boot.serial ∧ e.2 = q.wanted)) →
      (bitOf q.reserved 0 = false → (∀ e ∈ ids, e.2 ≠ 0) →
        exec (.discoveryWindowClose p) s = .next ((s.updSb p fun q => { q with heard := [] }).sbEvent p 5)) ∧
      (bitOf q.reserved 0 = true ∨ (∃ e ∈ ids, e.2 = 0) → ∃ n : Nat,
        (q.nodeCount ≠ 0 → n = q.nodeCount) ∧
        (Kv.get s.boot.serial ids = none → exec (.discoveryWindowClose p) s = .next ((s.updSb p fun q =>
          { q with phase := .wait, id := none, count := n, beacon := false, mute := true }).sbEvent p 3)) ∧
        (Kv.get s.boot.serial ids = some 0 → exec (.discoveryWindowClose p) s = .next (((s.updSb p fun q =>
          { q with phase := .plca, id := some 0, count := n, beacon := true, attempts := 0, backoff := 0 }).sbEvent p 0).sbTry p q.queue.length)) ∧
        ∀ i, 0 < i → Kv.get s.boot.serial ids = some i → exec (.discoveryWindowClose p) s = .next (s.updSb p fun q =>
          { q with phase := .wait, id := some i, count := n, beacon := false, attempts := 0, backoff := 0 }))))

/-- At a port that is not off, in a part that is neither in recovery nor in factory mode: a service frame with an error goes to the host ring where
the port delivers errors and is else counted, a refused TAG or FRAME_SEQ being counted in either case; a good one for this part, after its
FRAME_SEQ is noted and it is relayed, is acted on by its type: DISCOVER is heard, FAILURE_RATE keeps exposure and events, TAKEOVER puts the queue
pairs to its node into ERROR and may fence the part, DEBUG_REQUEST is answered, HELLO is taken, and any other goes to the host ring; a good one
for another part is noted and relayed and not acted on. Their rows do so for a frame of their own type and nothing for another. WAKE_MATCH of the
armed pattern on the armed port wakes an untripped spare in STANDBY, a match with the QUIET bit in QUIET brings the wake profile two strokes on,
any other match is counted, and no match changes nothing. -/
def Obligations.ServiceBusReceivingCompletes : Prop :=
  (∀ (s : State) (p : Nat) (q : SbPort) (f : List Byte) (x : RxService) (e : Nat), s.sb p = some q → q.phase ≠ .off → isService f = true →
    s.boot.recovery = false → s.boot.factory = false → x = rxService f → e = s.rxErrors f x →
    (e ≠ 0 → e < 16 → q.deliver = true → exec (.serviceFrameReceived p f) s = .next (s.toHostRing p e (f.take 512))) ∧
    (e ≠ 0 → e < 16 → q.deliver = false → exec (.serviceFrameReceived p f) s = .next (s.sbCount p 0)) ∧
    (16 ≤ e → q.deliver = false → exec (.serviceFrameReceived p f) s = .next ((s.sbCount p 1).sbCount p 0)) ∧
    (16 ≤ e → q.deliver = true → exec (.serviceFrameReceived p f) s = .next ((s.sbCount p 1).toHostRing p e (f.take 512))) ∧
    (∀ t : State, e = 0 → t = (s.noteSeq x).relay p f x → x.target ≠ 0 → x.target ≠ t.boot.serial →
      exec (.serviceFrameReceived p f) s = .next t) ∧
    (∀ t : State, e = 0 → t = (s.noteSeq x).relay p f x → x.target = 0 ∨ x.target = t.boot.serial →
      exec (.serviceFrameReceived p f) s = .next (t.actOn p f x) ∧
      (x.type = 1 → exec (.discover p f) s = .next (t.updSb p fun q => q.hear x.serial (fieldAt x.body 0 1))) ∧
      (x.type = 2 → exec (.serviceFrameReceived p f) s = .next t) ∧
      (x.type = 3 → exec (.failureRate p f) s = .next (t.takeRates p x.serial x.body)) ∧
      (x.type = 4 → exec (.takeover p f) s = .next (t.takeTakeover x.body)) ∧
      (x.type = 6 → exec (.debugRequest p f) s = .next (t.takeDebug p x.serial x.body)) ∧
      (x.type ∈ [5, 7, 8] → exec (.serviceFrameReceived p f) s = .next (t.toHostRing p 0 f)))) ∧
  (∀ (s : State) (p : Nat) (f : List Byte), (rxService f).type = 5 → exec (.discover p f) s = .next s ∧ exec (.failureRate p f) s = .next s ∧
    exec (.takeover p f) s = .next s ∧ exec (.debugRequest p f) s = .next s) ∧
  (∀ (s : State) (p : Nat) (f : List Byte) (hits : List Nat), hits = (List.range 8).filter (fun i => fcsOk f && wakeMatches (s.wakeKey p) i f) →
    (hits = [] → exec (.wakeMatch p f) s = .next s) ∧
    (s.spare.state = .standby → p = s.spare.port → s.spare.pattern ∈ hits → s.power.tripped = false → s.power.waking = false →
      exec (.wakeMatch p f) s = .next { s with power := { s.power with waking := true, reqCore := true, reqIo := true } }) ∧
    (s.spare.state ≠ .standby → s.power.profile = 2 → (∃ i ∈ hits, bitOf (fieldAt (s.wakeKey p) (24 * i + 20) 1) 1 = true) →
      exec (.wakeMatch p f) s = .next { s with power := { s.power with changes := s.power.changes ++ [(s.strk.now + 2, s.wakeProfileOf)] } }) ∧
    (s.spare.state ≠ .standby → s.power.profile ≠ 2 → hits ≠ [] → exec (.wakeMatch p f) s = .next (s.sbCount p 2)))

/-- SENSOR_FAILED of a sensor with three implausible readings in a row fails it with a SENSOR entry, event 2; SENSOR_RECOVERED of a failed one with
1,000 plausible readings takes it back, event 3. THERMAL_TRIP of an untripped part with an item ten samples above its trip temperature holds the
core, latches the trip, pulls both power requests low and writes a SENSOR entry, event 4. BRD_THROT_ASSERT and BRD_THROT_RELEASE set and release
the board's clamp. RAIL_FAULT of a rail of steps 2 to 6 that the part asks for holds the core, writes its entry, asks for the rails to go down
and has the next boot train again; RAIL_RELEASE asks for them again; RAIL_RECOVERY_TIMEOUT repeats three times and then gives up;
WAKE_RAIL_TIMEOUT ends a wake. FABCLK_LOST holds the core and loses ALIGNED; AUXCLK_LOST stops both service-bus ports, and AUXCLK_RESTORED begins
them again. Rows whose condition does not hold change nothing. AVS_TIMEOUT declares a regulator failed. The raw reading of an entry for a rail, a
clock or a regulator is the model's free value (assumption 78). -/
def Obligations.PowerEventsComplete : Prop :=
  (∀ (s : State) (k : Nat) (x : Sensor), Kv.get k s.power.sensors = some x →
    (x.failed = false → 3 ≤ x.bad → exec (.sensorFailed k) s = .next (({ s with power := { s.power with
      sensors := Kv.upd k (fun y => { y with failed := true }) s.power.sensors } } : State).logEvent 0x0902 11 (k / 4) noContext 0
        (twos 16 x.raw + 2 * 65536))) ∧
    (x.failed = true → 1000 ≤ x.good → exec (.sensorRecovered k) s = .next (({ s with power := { s.power with
      sensors := Kv.upd k (fun y => { y with failed := false }) s.power.sensors } } : State).logEvent 0x0902 11 (k / 4) noContext 0
        (twos 16 x.raw + 3 * 65536))) ∧
    (x.failed = true ∨ x.bad < 3 → exec (.sensorFailed k) s = .next s) ∧
    (x.failed = false ∨ x.good < 1000 → exec (.sensorRecovered k) s = .next s)) ∧
  (∀ s : State, (s.power.tripped = true ∨ (∀ e ∈ s.power.tripRun, e.2 < 10) → exec .thermalTrip s = .next s) ∧
    ((∃ e ∈ s.power.tripRun, 10 ≤ e.2) → s.power.tripped = false → ∃ e ∈ s.power.tripRun, 10 ≤ e.2 ∧ exec .thermalTrip s = .next (({ s.holdCore with
      power := { s.holdCore.power with tripped := true, reqCore := false, reqIo := false, waking := false } } : State).logEvent 0x0902 11 e.1
        noContext 0 (twos 16 ((s.itemTemp e.1).getD 0) + 4 * 65536)))) ∧
  (∀ s : State, exec .brdThrotAssert s = .next { s with power := { s.power with board := true } } ∧
    (s.power.board = true → exec .brdThrotRelease s = .next { s with power := { s.power with board := false, boardOver := true } }) ∧
    (s.power.board = false → exec .brdThrotRelease s = .next s)) ∧
  (∀ (s : State) (r : Nat), (r = 0 ∨ 12 < r ∨ s.side.porst = true → exec (.railFault r) s = .next s) ∧
    (0 < r → r ≤ 12 → s.side.porst = false →
      (s.power.tripped = true → exec (.railFault r) s = .next (s.openReading (32 + r) 0)) ∧
      (s.power.tripped = false → s.power.rail = .normal → s.power.waking = false → (if r ≤ 6 then s.power.reqIo else s.power.reqCore) = true →
        ∀ t : State, t = s.holdCore.openReading (32 + r) 0 → exec (.railFault r) s = .next { t with
          power := { t.power with rail := .down, tries := 0, reqCore := false, reqIo := false }, boot := { t.boot with retrain := true } }) ∧
      (s.power.tripped = false → s.power.rail ≠ .normal ∨ s.power.waking = true ∨ (if r ≤ 6 then s.power.reqIo else s.power.reqCore) = false →
        exec (.railFault r) s = .next s))) ∧
  (∀ s : State, (s.power.tripped = true → exec .railRelease s = .next s ∧ exec .railRecoveryTimeout s = .next s) ∧
    (s.power.tripped = false →
      (s.power.rail = .down → exec .railRelease s = .next { s with power := { s.power with rail := .rising, reqCore := true, reqIo := true } }) ∧
      (s.power.rail ≠ .down → exec .railRelease s = .next s) ∧
      (s.power.rail ≠ .rising → exec .railRecoveryTimeout s = .next s) ∧
      (s.power.rail = .rising → ∃ v t, t = ({ s with free := s.free + 1 } : State).openReading (33 + v % 12) 0 ∧
        exec .railRecoveryTimeout s = .next { t with power := { t.power with
          reqCore := false, reqIo := false, tries := min 3 (t.power.tries + 1), rail := if t.power.tries < 3 then .down else .dead } }))) ∧
  (∀ s : State, (s.power.waking = false → exec .wakeRailTimeout s = .next s) ∧
    (s.power.waking = true → ∃ v t, t = ({ s with free := s.free + 1 } : State).openReading (33 + v % 12) 0 ∧
      exec .wakeRailTimeout s = .next { t with power := { t.power with waking := false, reqCore := false, reqIo := false } })) ∧
  (∀ s : State, (s.power.fabLost = true → exec .fabclkLost s = .next s) ∧ (s.power.fabLost = false → exec .fabclkLost s =
    .next ({ s.holdCore with power := { s.holdCore.power with fabLost := true } } : State).loseAlignment)) ∧
  (∀ s : State, (s.power.auxLost = true → exec .auxclkLost s = .next s ∧ exec .auxclkRestored s = .next { s with
      power := { s.power with auxLost := false }, bus := { s.bus with ports := s.bus.ports.map fun e => (e.1, e.2.begin) } }) ∧
    (s.power.auxLost = false → exec .auxclkRestored s = .next s ∧ exec .auxclkLost s = .next (({ s with
      power := { s.power with auxLost := true }
      bus := { s.bus with ports := s.bus.ports.map fun e => (e.1, { e.2.begin with phase := .off }) } } : State).openReading 50 5))) ∧
  ∀ (s : State) (k : Nat),
    (s.avsRuns k = true → exec (.avsTimeout k) s = .next (({ s with power := { s.power with avsFailed := k :: s.power.avsFailed } } :
      State).openReading (52 + k) 6)) ∧
    (s.avsRuns k = false → exec (.avsTimeout k) s = .next s ∧ exec (.avsStep k) s = .next s)

/-- AVS_STEP of a tile whose regulator the part writes completes: it changes that tile's target alone, by at most 10 mV; from a target at 0.55 V or
above it stays there; and where it rises, the new target is at or below 0.80 V and at or below the reading of VDD_SRAM_0V75 plus 20 mV, or at the
lowest level 0.55 V. Levels are in 0.1 mV. What the tile's monitors call for is a free value of the model (assumption 8), over which the
statement ranges. -/
def Obligations.CoreVoltageMovesInSteps : Prop :=
  ∀ (s : State) (k v : Nat), s.avsRuns k = true → s.power.avs[k]? = some v →
    ∃ v' : Nat, exec (.avsStep k) s = .next { s with free := s.free + 1, power := { s.power with avs := s.power.avs.set k v' } } ∧
      v' ≤ v + 100 ∧ v ≤ v' + 100 ∧ (5500 ≤ v → 5500 ≤ v') ∧
      (v < v' → v' ≤ 8000 ∧ (v' ≤ s.power.sramMv * 10 + 200 ∨ v' ≤ 5500))

/-- SENSOR_SAMPLE completes. Its package power is the plausible sum of the rails, never above 2,500 W. A sample above 1.2 times the limit L fires the
clamp, and a clamp that has fired stays. An implausible temperature leaves a sensor's plausible readings as they are; a plausible one joins them.
The last statement is of one sensor's reading: within the range of its kind and 10 °C of the last plausible one. Temperatures are in 1/16 °C and
powers in mW. -/
def Obligations.SampleIsTaken : Prop :=
  (∀ (s : State) (x : SensorInput), ∃ t : State, exec (.sensorSample x) s = .next t ∧
    t.power.powerMw = packagePower x ∧ packagePower x ≤ 2500000 ∧ t.power.samples = packagePower x :: s.power.samples ∧
    (s.power.clamp = true → t.power.clamp = true) ∧ (6 * s.limitMw < 5 * packagePower x → t.power.clamp = true) ∧
    t.power.above = (if s.limitMw < packagePower x then min 80 (s.power.above + 1) else 0) ∧
    (x.temps = [] → t.power.sensors = s.power.sensors) ∧
    (∀ k raw, x.temps = [(k, raw)] → ∀ y : Sensor, Kv.get k s.power.sensors = some y →
      t.power.sensors = Kv.set k (y.take (k / 4) raw) s.power.sensors)) ∧
  ∀ (y : Sensor) (item : Nat) (raw v : Int), y.vals.head? = some v →
    (-320 ≤ raw → (item ≤ 4 → raw ≤ 2240) → (4 < item → raw ≤ 2000) → v - 160 ≤ raw → raw ≤ v + 160 →
      (y.take item raw).vals = (raw :: y.vals).take 3 ∧ (y.take item raw).bad = 0) ∧
    (raw < -320 ∨ (item ≤ 4 ∧ 2240 < raw) ∨ (4 < item ∧ 2000 < raw) ∨ raw < v - 160 ∨ v + 160 < raw →
      (y.take item raw).vals = y.vals ∧ (y.take item raw).good = 0)

/-- COLD_RESET leaves the reset state with what PORST_N keeps, writes the RESET entry with cause 0 and boots every stage, or none with TEST_EN high.
On a part that a warm reset reaches, WARM_RESET runs it with cause 1, PERST_RESET with cause 2 and the host link to be settled again,
WATCHDOG_RESET with cause 4 from boot stage 5 on, DELAYED_WARM_RESET with cause 1 when one is due; on any other they change nothing.
RAIL_RECOVERED with the rails rising, and FABCLK_RESTORED with the clock lost, take the rail or the clock back and run a warm reset where one may
run. WAKE_RAILS_IN_WINDOW of a waking part boots it from stage 3, AWAKE and trained anew. VAUX_3V3_LOSS and VAUX_3V3_POWER_ON leave an empty
trouble log whose next SEQ is 1, no identity seed, and PORST_N low. BOOT_STAGE_TIMEOUT of a boot that waits in a stage fails that stage and goes
on, or ends where boot stops; no boot that runs, no change. That a warm reset is ignored in STANDBY is the model's choice (assumption 91), and
that a wake keeps the route-map banks is its reading (assumption 95). -/
def Obligations.ResetsComplete : Prop :=
  (∀ (s : State) (e : BootInput) (t : State), t = (s.coldState.resetEntry 0 s.boot.stage).meetFlash e →
    (e.testEn = true → exec (.coldReset e) s = .next { t with boot := { t.boot with factory := true } }) ∧
    (e.testEn = false → exec (.coldReset e) s = .next (t.bootFrom e [1, 2, 3, 4, 5, 6, 7, 8, 9]))) ∧
  (∀ (s : State) (e : BootInput), (s.warmable = false → exec (.warmReset e) s = .next s ∧ exec (.perstReset e) s = .next s ∧
      exec (.watchdogReset e) s = .next s ∧ exec (.delayedWarmReset e) s = .next s) ∧
    (s.warmable = true → exec (.warmReset e) s = .next (s.warmReset e 1) ∧
      (∀ t : State, t = s.warmReset e 2 → exec (.perstReset e) s = .next { t with host := { t.host with
        settled := false, heldDown := false, lost := false, msixTable := [], msixPending := [] } }) ∧
      (5 ≤ s.boot.stage → exec (.watchdogReset e) s = .next (s.warmReset e 4)) ∧
      (s.boot.stage < 5 → exec (.watchdogReset e) s = .next s) ∧
      (s.boot.warmDue = true → exec (.delayedWarmReset e) s = .next (s.warmReset e 1)) ∧
      (s.boot.warmDue = false → exec (.delayedWarmReset e) s = .next s))) ∧
  (∀ (s : State) (e : BootInput) (t : State), t = { s with power := { s.power with rail := .normal, tries := 0 } } →
    (s.power.rail ≠ .rising ∨ s.power.tripped = true → exec (.railRecovered e) s = .next s) ∧
    (s.power.rail = .rising → s.power.tripped = false →
      (t.warmable = true → exec (.railRecovered e) s = .next (t.warmReset e 1)) ∧
      (t.warmable = false → exec (.railRecovered e) s = .next t))) ∧
  (∀ (s : State) (e : BootInput) (t : State), t = { s with power := { s.power with fabLost := false } } →
    (s.power.fabLost = false → exec (.fabclkRestored e) s = .next s) ∧
    (s.power.fabLost = true →
      (t.warmable = true → exec (.fabclkRestored e) s = .next (t.warmReset e 1)) ∧
      (t.warmable = false → exec (.fabclkRestored e) s = .next t))) ∧
  (∀ (s : State) (e : BootInput) (w t : State), w = s.warmState →
    t = { w with boot := { w.boot with retrain := true }, fabric := { w.fabric with banks := s.fabric.banks, active := s.fabric.active }
                 spare := { w.spare with state := .awake } } →
    (s.power.waking = false ∨ s.power.tripped = true ∨ s.power.fabLost = true ∨ s.power.rail ≠ .normal →
      exec (.wakeRailsInWindow e) s = .next s) ∧
    (s.power.waking = true → s.power.tripped = false → s.power.fabLost = false → s.power.rail = .normal → exec (.wakeRailsInWindow e) s =
      .next ((t.meetFlash { e with flashOk := s.boot.flashOk }).bootFrom e [3, 4, 5, 6, 7, 8, 9]))) ∧
  (∀ (s : State), ∃ t : State, exec .vaux3v3Loss s = .next t ∧ exec .vaux3v3PowerOn s = .next t ∧
    t.log.slots = [] ∧ t.log.nextSeq = 1 ∧ t.log.dropped = 0 ∧ t.boot.seed = none ∧ t.side.porst = true ∧ t.boot.flash = s.boot.flash ∧
    t.ctxs = [] ∧ t.queues = [] ∧ t.cmds = []) ∧
  (∀ (s : State) (e : BootInput), s.boot.running = false → exec (.bootStageTimeout e) s = .next s) ∧
  ∀ (s : State) (e : BootInput) (t : State), t = s.failStage e (s.boot.stage + 1) → s.boot.running = true →
    (t.bootStopped = true → exec (.bootStageTimeout e) s = .next { t with boot := { t.boot with running := false } }) ∧
    (t.bootStopped = false → exec (.bootStageTimeout e) s = .next (({ t with boot := { t.boot with stage := s.boot.stage + 1 } } :
      State).bootFrom e (stagesFrom (s.boot.stage + 2))))

/-- On a part that a warm reset reaches, WARM_RESET completes: contexts other than context 0, queues other than queue 0, queue pairs, streams,
commands in flight, epochs and manifests are gone; stroke number, period, origin, time source and alignment are kept; the identity seed of a part
that has one is kept; the fused sites stay; route-map banks are cleared and the spare state is ACTIVE; and every byte below the DDR tier reads as
one that nothing has written. -/
def Obligations.WarmResetKeepsAndClears : Prop :=
  ∀ (s : State) (e : BootInput), s.warmable = true → ∃ t : State, exec (.warmReset e) s = .next t ∧
    (∀ x ∈ t.ctxs, x.1 = 0) ∧ (∀ x ∈ t.queues, x.1 = 0) ∧ t.cmds = [] ∧ t.streams = [] ∧ t.stylus.qps = [] ∧ t.epochs = [] ∧ t.manifests = [] ∧
    t.fabric.banks = [] ∧ t.fabric.active = none ∧ t.spare.state = .active ∧ t.sites = s.sites ∧
    t.strk.now = s.strk.now ∧ t.strk.period = s.strk.period ∧ t.strk.origin = s.strk.origin ∧ t.strk.source = s.strk.source ∧
    t.strk.align = s.strk.align ∧ (∀ x, s.boot.seed = some x → t.boot.seed = some x) ∧
    (∀ a, a < ddrBase → t.mem.read a = t.mem.unlisted a)

/-- On a part that is ready, FUNCTION_LEVEL_RESET completes: no context but 0, no queue but queue 0, which is as at boot, no command in flight, no
queue pair or stream of another context, no MSI-X vector, and the administrative queue disabled; strokes, alignment, route-map banks, installed
epochs, boot and power settings are untouched. On any other part it changes nothing. -/
def Obligations.FunctionLevelResetLeaves : Prop :=
  ∀ s : State, (s.ready = false → exec .functionLevelReset s = .next s) ∧
    (s.ready = true → ∃ t : State, exec .functionLevelReset s = .next t ∧
      (∀ x ∈ t.ctxs, x.1 = 0) ∧ t.queues = [(0, bootQueue)] ∧ t.cmds = [] ∧ (∀ x ∈ t.stylus.qps, x.2.owner = 0) ∧
      (∀ x ∈ t.streams, x.2.owner = 0) ∧ t.host.msixTable = [] ∧ t.host.enable = false ∧ t.host.admqState = 0 ∧
      t.strk = s.strk ∧ t.epochs = s.epochs ∧ t.fabric.banks = s.fabric.banks ∧ t.fabric.active = s.fabric.active ∧ t.boot = s.boot)

/-- For every command c and state s, the step of s with c at the front of its queue is exec of c on s with the queue's rest. With an empty queue the
step answers the state itself; that idling is the model's choice (assumption 97), as is the queue itself, which is no part of the hardware. -/
def Obligations.StepTakesFront : Prop :=
  (∀ (c : Instr) (rest : List Instr) (s : State), step { s with pending := c :: rest } = exec c { s with pending := rest }) ∧
  ∀ s : State, s.pending = [] → step s = .next s

/-- For every command c and every state s, exec of c on s answers a next state, in which the waiting commands and the enabled plate sites are those
of s. That the sites cannot be changed is R1's; the queue is the model's own. -/
def Obligations.CommandsLeaveQueueAndSites : Prop :=
  ∀ (c : Instr) (s : State), ∃ t : State, exec c s = .next t ∧ t.pending = s.pending ∧ t.sites = s.sites

/-- From every safe state, a step leads to a safe state. Safe says: the memory keeps its canonical form (addresses strictly rising, no byte listed
that reads the same unlisted), the logical plates are those of the enabled sites numbered from 0, and the context and queue tables hold each
number at most once, contexts below 4,096 and queues below 1,024. The canonical form of the memory is the model's own (assumption 10 says what an
unlisted address reads as). -/
def Obligations.EveryStepKeepsSafe : Prop := ∀ s t : State, s.Safe → step s = .next t → t.Safe

/-- The state of reset meets the invariant that every step keeps: memory in canonical form, sixteen logical plates, and the context and queue tables
within their bounds. -/
def Obligations.ResetIsSafe : Prop := State.reset.Safe

/-- After reset: stroke 0, the default period of 200 µs, no origin, time source LOCAL, the alignment state LOCAL; no context, queue, command in
flight, queue pair, stream, epoch, manifest or route-map bank; the defaults of the fabric and service-bus keys; a spare state of ACTIVE; every
counter of telemetry zero; the trouble log empty with SEQ 1 next; and every byte of HBM4 and plate memory zero. That the reset state has all 16
sites enabled is the model's choice (assumption 14). -/
def Obligations.ResetLeaves : Prop :=
  let s := State.reset
  (s.strk.now = 0 ∧ s.strk.period = 200 ∧ s.strk.origin = none ∧ s.strk.source = 0 ∧ s.strk.align = .localTime ∧ s.strk.changes = []) ∧
  (s.ctxs = [] ∧ s.queues = [] ∧ s.cmds = [] ∧ s.stylus.qps = [] ∧ s.streams = [] ∧ s.epochs = [] ∧ s.manifests = [] ∧ s.buckets = [] ∧
    s.fabric.banks = [] ∧ s.fabric.active = none ∧ s.pending = []) ∧
  (s.fabric.udpPort = 46520 ∧ s.fabric.dscp = [34, 26, 0] ∧ s.bus.hops = 7 ∧ s.bus.flags = 0 ∧ s.bus.exportTo = 0 ∧ s.bus.key = none) ∧
  (s.spare.state = .active ∧ s.mgmtOnly = false ∧ s.boot.causes = []) ∧
  (s.power.counts = [0, 0, 0] ∧ s.power.discarded = [0, 0, 0] ∧ (∀ n ∈ s.eccCounts, n = 0) ∧ s.proof.refused = 0 ∧ s.proof.restarts = 0 ∧
    s.log.droppedAll = 0 ∧ (∀ e ∈ s.fabric.ports, ∀ n ∈ e.2.counts, n = 0)) ∧
  (s.log.slots = [] ∧ s.log.nextSeq = 1) ∧ ∀ a, a < ddrBase → s.mem.read a = 0

/-- When a command ends, the command of its queue and sequence number is finished with that ending, every other command in flight is as before, and
no other part of the state changes: no byte of memory, no register, no context. -/
def Obligations.EndingEndsOneCommand : Prop :=
  ∀ (s : State) (c : Cmd) (e : Ending), s.finish c e = { s with cmds := (s.finish c e).cmds } ∧
    (∀ d, s.findCmd c.queue c.seq = some d → (s.finish c e).findCmd c.queue c.seq = some { d with phase := .finished e }) ∧
    ∀ q k, ¬ (q = c.queue ∧ k = c.seq) → (s.finish c e).findCmd q k = s.findCmd q k

/-- After a write of bytes from a physical address on, each of those addresses reads the byte written there and every other address reads what it
read before; the memory keeps its canonical form; a line that the write covers whole is no longer uncorrectable, and no other line changes in
that. -/
def Obligations.EngineWriteStoresItsBytes : Prop :=
  ∀ (m : Memory) (a : Nat) (bs : List Byte),
    (∀ i b, bs[i]? = some b → (m.engineWrite a bs).read (a + i) = b) ∧
    (∀ x, x < a ∨ a + bs.length ≤ x → (m.engineWrite a bs).read x = m.read x) ∧
    (m.wf = true → (m.engineWrite a bs).wf = true) ∧
    ∀ l, l ∈ (m.engineWrite a bs).badLines ↔ l ∈ m.badLines ∧ ¬ (a ≤ l ∧ l + 64 ≤ a + bs.length)

/-- When an access of context n to the page of a virtual address is granted, and the page lies in a frame, that frame is then owned by context n, or
by a base slot with the address inside one of n's windows. A frame that another context owns is never reached: the access fails. Granting claims
at most that one frame, from FREE; the owner of every other frame and every context are as before. -/
def Obligations.AccessesStayInOwnFrames : Prop :=
  ∀ (s : State) (n va : Nat) (bound : List Bound) (acc : Acc) (demand : Bool) (l : Leaf), s.translate n bound va = .ok l →
    s.framed l.pa = true →
    (∀ t : State, s.touchPage n bound acc demand va = .ok t →
      (t.ownerOf l.pa = some (.context n) ∨
        ∃ b c w, t.ownerOf l.pa = some (.base b) ∧ Kv.get n s.ctxs = some c ∧ c.windowAt bound va = some w) ∧
      (∀ f, f ≠ l.pa / 65536 → Kv.get f t.mem.owners = Kv.get f s.mem.owners) ∧ t.ctxs = s.ctxs) ∧
    ∀ k, k ≠ n → s.ownerOf l.pa = some (.context k) → ∃ e, s.touchPage n bound acc demand va = .error e

/-- When a unit of a command is tried on a plate or router that a context holds, it takes at least one indivisible unit of the command, and more only
as far as their estimate divided by the latched duty stays within the command's budget, which after an overrun is no lower than the unit floor.
It is issued exactly where its estimate divided by the latched duty is no greater than the ACLK that remain before the reserve at an instant,
which at a boundary whose place is not late is the boundary's, or where it is the first of a stroke at its boundary and is larger than the whole
dispatch window: it then joins that place's units behind those already issued, with the command's numbers, its estimate and the instant.
Otherwise the place is closed for the stroke and nothing else changes. The units of every other place are as before, and no byte of memory
changes. The instant between boundaries is a free value of the model (assumption 47), over which the statement ranges. -/
def Obligations.UnitsAreIssuedWhereTheyFit : Prop :=
  ∀ (s t : State) (r : UnitRef) (c c' : Cmd) (boundary : Bool) (n est : Nat), s.unitHost r ≠ none → t = s.issueUnit r c boundary →
    c' = { c with budget := if 0 < c.overruns then max (s.unitFloor (c.view s) c.pkt) c.budget else c.budget } →
    n = s.unitsFit c' (s.unitsLeft c') 1 → est = s.spanTime c' n →
    1 ≤ n ∧ (n = 1 ∨ est * 64 ≤ c'.budget * s.strk.duty) ∧ (∀ r', r' ≠ r → t.unitsOf r' = s.unitsOf r') ∧ SameBytes s t ∧
    ∃ ns : Nat, (boundary = true → (s.placeFlags r).1 = false → ns = 0) ∧
      (est * 64 ≤ s.remaining ns * s.strk.duty ∨ (boundary = true ∧ s.unitsOf r = [] ∧ s.dispatchWindow * s.strk.duty < est * 64) →
        t.unitsOf r = s.unitsOf r ++
          [{ queue := c.queue, seq := c.seq, estimate := est, start := c.progress, goal := s.unitGoal c' n, issued := ns }]) ∧
      (s.remaining ns * s.strk.duty < est * 64 →
        ¬ (boundary = true ∧ s.unitsOf r = [] ∧ s.dispatchWindow * s.strk.duty < est * 64) →
          t = ({ s with free := t.free } : State).closePlace r)

/-- An event whose severity is ERROR or FATAL, or that comes before 64 entries of lower severity in its stroke, is written whole into slot (SEQ − 1)
mod 8,192, with its code, source, index, context and data and with the stroke in progress, and SEQ goes on; every other slot is as before. An
event of severity INFO or WARNING beyond the 64 is dropped and counted, and no slot changes. No byte of memory changes either way. -/
def Obligations.LogTakesOrDrops : Prop :=
  ∀ (s : State) (ns code source index context aux data : Nat) (t : State), t = s.logAt ns code source index context aux data →
    (2 ≤ logSeverity code ∨ s.log.thisStroke < 64 →
      (∃ e : LogEntry, Kv.get ((s.log.nextSeq - 1) % 8192) t.log.slots = some e ∧ e.code = code ∧ e.source = source ∧ e.index = index % 256 ∧
        e.context = context ∧ e.data = data % 2 ^ 64 ∧ e.stroke = s.strk.now ∧ e.seq = s.log.nextSeq) ∧
      (∀ k, k ≠ (s.log.nextSeq - 1) % 8192 → Kv.get k t.log.slots = Kv.get k s.log.slots) ∧
      t.log.nextSeq = (s.log.nextSeq + 1) % 2 ^ 32 ∧ t.log.dropped = s.log.dropped) ∧
    (logSeverity code < 2 → 64 ≤ s.log.thisStroke →
      t.log.slots = s.log.slots ∧ t.log.nextSeq = s.log.nextSeq ∧ t.log.dropped = s.log.dropped + 1) ∧
    SameBytes s t

/-- For every round of readings: each rail of steps 2 to 6 enters the package power with its level times its mean current, or times its peak current
of R402 where the mean is below zero or above 1.25 times that peak, and each such replacement is counted; package power above 2,500 W in the
sample is replaced by 1,800 W. Levels are in mV, currents in mA, rail powers in µW and the package power in mW. -/
def Obligations.ImplausiblePowerIsReplaced : Prop :=
  ∀ (s : State) (x : SensorInput) (peak : Nat → Nat) (mean : Nat → Int) (bad : Nat → Prop) (w : Nat),
    (∀ r, peak r = [3000, 30000, 44000, 14000, 2000, 160000, 600000, 600000, 600000, 600000, 130000, 8000].getD (r - 1) 0) →
    (∀ r, mean r = (Kv.get r x.currents).getD 0) → (∀ r, bad r ↔ mean r < 0 ∨ (peak r : Int) * 5 < mean r * 4) →
    w = ([1, 2, 3, 4, 5, 6, 7, 8, 9, 10, 11, 12].map (railPower x)).sum / 1000 →
    (∀ r, 1 ≤ r → r ≤ 12 → (bad r → railPower x r = peak r * (Kv.get r x.levels).getD 0) ∧
      (¬ bad r → railPower x r = (mean r).toNat * (Kv.get r x.levels).getD 0)) ∧
    ∃ t : State, exec (.sensorSample x) s = .next t ∧ (2500000 < w → t.power.powerMw = 1800000) ∧ (w ≤ 2500000 → t.power.powerMw = w) ∧
      ∃ l : List Nat, l.Nodup ∧ (∀ r, r ∈ l ↔ 1 ≤ r ∧ r ≤ 12 ∧ bad r) ∧
        ∀ a b c, s.power.discarded = [a, b, c] → ∃ a', t.power.discarded = [a', b + l.length, c]

/-- Under a scale of 1, the sixteen E2M1 codes have the values +0, 0.5, 1, 1.5, 2, 3, 4, 6 and, with the sign bit set, −0, −0.5, −1, −1.5, −2, −3,
−4, −6; each value is written as its sign, an integer and a power of two. -/
def Obligations.E2m1HasSixteenValues : Prop :=
  (List.range 16).map (decodeElem .e2m1 127) =
    [.num false 0 (-1), .num false 1 (-1), .num false 2 (-1), .num false 3 (-1), .num false 2 0, .num false 3 0, .num false 2 1, .num false 3 1,
     .num true 0 (-1), .num true 1 (-1), .num true 2 (-1), .num true 3 (-1), .num true 2 0, .num true 3 0, .num true 2 1, .num true 3 1]

/-- In FP64, FP32, BF16 and FP16, decoding any code that is no NaN and encoding the value again gives that code, whatever the rounding mode and its
draw, and counts no value that became zero: representable values, infinities, subnormals and both zeros are exact. -/
def Obligations.IeeeCodesReadBack : Prop :=
  ∀ (f : Fmt) (mode : RMode) (r code : Nat), f.isIeee = true → code < 2 ^ f.width → (decodeIeee f code).isNan = false →
    encodeIeee f mode r (decodeIeee f code) = (code, false)

/-- For every block element format and code: under scale code c from 0x00 to 0xFE a finite element has its value times 2^(c − 127), an infinity stays
that infinity and a NaN the canonical NaN; under 0xFF every element is the canonical NaN. -/
def Obligations.ScalesMultiply : Prop :=
  ∀ (f : Fmt) (c code : Nat), f.isBlock = true → c < 0xFF →
    (∀ g m e, decodeElem f 127 code = .num g m e → decodeElem f c code = .num g m (e + ((c : Int) - 127))) ∧
    (∀ g, decodeElem f 127 code = .inf g → decodeElem f c code = .inf g) ∧
    ((decodeElem f 127 code).isNan = true → decodeElem f c code = .qnan) ∧ decodeElem f 0xFF code = .qnan

/-- With samples taken in the stroke just ended, mean P and highest Pmax, and the limit L: after a clamp the control value is d × L / Pmax, else
above L it is d × L / P, both rounded down and never below 4; below 95 % of L at the eighth boundary in a row it rises by 1 to at most 64, and
otherwise stays. The thermal cap is no greater than what any item above its throttle start calls for, is never below 4 once it was not, and rises
by at most 2; where every item lies at or below its throttle start it is 64 or 2 above the cap before. What happens without a sample, and the
start from 16/64 after the board's clamp, are left out of this statement. -/
def Obligations.ControlAndThermalCap : Prop :=
  (∀ (s : State) (sum top d : Nat), s.power.boardOver = false → s.power.samples ≠ [] → sum = s.power.samples.sum → top = s.power.samples.foldl max 0 →
    d = s.power.control → ∀ t : State, t = s.stepControl → t.power.samples = [] ∧ t.power.clamp = false ∧
      (s.power.clamp = true → 0 < top → t.power.control = max 4 (d * s.limitMw / top)) ∧
      (s.power.clamp = false → s.limitMw * s.power.samples.length < sum →
        t.power.control = max 4 (d * s.limitMw * s.power.samples.length / sum)) ∧
      (s.power.clamp = false → sum ≤ s.limitMw * s.power.samples.length → 95 * s.limitMw * s.power.samples.length ≤ 100 * sum →
        t.power.control = d ∧ t.power.low = 0) ∧
      (s.power.clamp = false → 0 < s.limitMw → 100 * sum < 95 * s.limitMw * s.power.samples.length →
        (s.power.low = 7 → t.power.control = min 64 (d + 1) ∧ t.power.low = 0) ∧
        (s.power.low ≠ 7 → t.power.control = d ∧ t.power.low = s.power.low + 1))) ∧
  ∀ (s t : State), t = s.stepThermal → t.power.thermal ≤ s.power.thermal + 2 ∧ t.power.thermal ≤ 64 ∧
    (∀ i temp, i < 17 → s.itemTemp i = some temp → (thermalLimits i).1 < temp →
      t.power.thermal ≤ max 4 (64 - 6 * ((temp - (thermalLimits i).1).toNat / 16))) ∧
    (4 ≤ s.power.thermal → 4 ≤ t.power.thermal) ∧
    ((∀ i temp, i < 17 → s.itemTemp i = some temp → temp ≤ (thermalLimits i).1) →
      t.power.thermal = if s.power.thermal < 64 then min 64 (s.power.thermal + 2) else 64)
end

