-- ==== Sys2Proof/Laws/Kv.lean ====
section
/-! SUPPORT. Laws of the tables of Machine/Kv.lean: what an update reads back as, and that it keeps the keys rising. -/

namespace Sys2Proof.Kv

variable {α : Type}

@[simp] theorem get_nil (k : Nat) : get k ([] : List (Nat × α)) = none := rfl

theorem get_cons (k j : Nat) (a : α) (t : List (Nat × α)) : get k ((j, a) :: t) = if j = k then some a else get k t := rfl

@[simp] theorem get_set_self (k : Nat) (a : α) (t : List (Nat × α)) : get k (set k a t) = some a := by
  induction t with
  | nil => simp [set, get]
  | cons e t ih => rcases e with ⟨j, b⟩; simp only [set]; split_ifs <;> simp_all [get] ; omega

theorem get_set_ne {k j : Nat} (h : j ≠ k) (a : α) (t : List (Nat × α)) : get j (set k a t) = get j t := by
  induction t with
  | nil => simp [set, get, Ne.symm h]
  | cons e t ih =>
    rcases e with ⟨i, b⟩
    simp only [set]
    split_ifs with h1 h2
    · simp [get, Ne.symm h]
    · simp [get, Ne.symm h, ← h2]
    · simp [get, ih]

@[simp] theorem get_del_self (k : Nat) (t : List (Nat × α)) : get k (del k t) = none := by
  induction t with
  | nil => rfl
  | cons e t ih =>
    rcases e with ⟨j, b⟩
    by_cases h : j = k
    · simpa [del, h] using ih
    · simpa [del, h, get] using ih

theorem get_del_ne {k j : Nat} (h : j ≠ k) (t : List (Nat × α)) : get j (del k t) = get j t := by
  induction t with
  | nil => rfl
  | cons e t ih =>
    rcases e with ⟨i, b⟩
    by_cases hi : i = k
    · have hij : ¬ i = j := by omega
      simpa [del, hi, get, hij, Ne.symm h] using ih
    · simp only [del, ne_eq, decide_not] at ih
      simp [del, hi, get, ih]

@[simp] theorem keys_upd (k : Nat) (f : α → α) (t : List (Nat × α)) : (upd k f t).map (·.1) = t.map (·.1) := by
  simp only [upd, List.map_map]
  apply List.map_congr_left
  intro e _
  simp only [Function.comp]
  split <;> rfl

theorem get_upd_self (k : Nat) (f : α → α) (t : List (Nat × α)) : get k (upd k f t) = (get k t).map f := by
  induction t with
  | nil => rfl
  | cons e t ih =>
    rcases e with ⟨j, b⟩
    by_cases h : j = k
    · simp [upd, get, h]
    · simpa [upd, get, h] using ih

theorem get_upd_ne {k j : Nat} (h : j ≠ k) (f : α → α) (t : List (Nat × α)) : get j (upd k f t) = get j t := by
  induction t with
  | nil => rfl
  | cons e t ih =>
    rcases e with ⟨i, b⟩
    by_cases hi : i = k
    · have hij : ¬ k = j := fun x => h x.symm
      simpa [upd, get, hi, hij] using ih
    · simp only [upd] at ih
      simp [upd, get, hi, ih]

/-- Rising keys, as a relation on the list. -/
theorem sorted_iff (t : List (Nat × α)) : sorted t = true ↔ (t.map (·.1)).Pairwise (· < ·) := by
  induction t with
  | nil => simp [sorted]
  | cons a t ih =>
    cases t with
    | nil => simp [sorted]
    | cons b t =>
      simp only [sorted, Bool.and_eq_true, decide_eq_true_eq, ih, List.map_cons, List.pairwise_cons, List.mem_cons, forall_eq_or_imp]
      constructor
      · rintro ⟨h, h1, h2⟩
        exact ⟨⟨h, fun x hx => Nat.lt_trans h (h1 x hx)⟩, h1, h2⟩
      · rintro ⟨⟨h, -⟩, h1, h2⟩
        exact ⟨h, h1, h2⟩

theorem sorted_filter (p : Nat × α → Bool) {t : List (Nat × α)} (h : sorted t = true) : sorted (t.filter p) = true := by
  rw [sorted_iff] at *
  exact h.sublist (List.filter_sublist.map _)

theorem sorted_del (k : Nat) {t : List (Nat × α)} (h : sorted t = true) : sorted (del k t) = true := sorted_filter _ h

/-- The keys after a set. -/
theorem mem_set {k : Nat} {a : α} {t : List (Nat × α)} {e : Nat × α} (h : e ∈ set k a t) : e = (k, a) ∨ e ∈ t := by
  induction t with
  | nil => exact .inl (by simpa [set] using h)
  | cons x t ih =>
    rcases x with ⟨j, b⟩
    simp only [set] at h
    split_ifs at h <;> simp only [List.mem_cons] at h ⊢
    · exact h
    · rcases h with h | h
      · exact .inl h
      · exact .inr (.inr h)
    · rcases h with h | h
      · exact .inr (.inl h)
      · rcases ih h with h | h
        · exact .inl h
        · exact .inr (.inr h)

theorem sorted_set (k : Nat) (a : α) {t : List (Nat × α)} (h : sorted t = true) : sorted (set k a t) = true := by
  rw [sorted_iff] at *
  induction t with
  | nil => simp [set]
  | cons x t ih =>
    rcases x with ⟨j, b⟩
    simp only [List.map_cons, List.pairwise_cons] at h
    simp only [set]
    split_ifs with h1 h2
    · simp only [List.map_cons, List.pairwise_cons, List.mem_cons, forall_eq_or_imp]
      exact ⟨⟨h1, fun x hx => Nat.lt_trans h1 (h.1 x hx)⟩, h.1, h.2⟩
    · subst h2
      simpa using h
    · simp only [List.map_cons, List.pairwise_cons]
      refine ⟨fun x hx => ?_, ih h.2⟩
      obtain ⟨e, he, rfl⟩ := List.mem_map.1 hx
      rcases mem_set he with rfl | h'
      · show j < k; omega
      · exact h.1 _ (List.mem_map_of_mem h')

end Sys2Proof.Kv
end

