-- ==== Sys2Proof/Laws/Memory.lean ====
section
/-! SUPPORT. Laws of the memory: every operation keeps the canonical form, a write reads back, and it leaves every other byte alone. -/

namespace Sys2Proof.Machine

open Sys2Proof

theorem Memory.wf_iff (m : Memory) : m.wf = true ↔ Kv.sorted m.cells = true ∧ ∀ c ∈ m.cells, c.2 ≠ m.unlisted c.1 := by
  simp [Memory.wf]

/-- The canonical form rests on the cells and on the re-claimed frames alone. -/
theorem Memory.wf_of_cells {m n : Memory} (hc : n.cells = m.cells) (hs : n.stale = m.stale) (h : m.wf = true) : n.wf = true := by
  have hu : ∀ x, n.unlisted x = m.unlisted x := fun x => by simp [Memory.unlisted, hs]
  rw [Memory.wf_iff] at *
  simpa only [hc, hu] using h

theorem Memory.wf_same {m n : Memory} (h : m.wf = true) (hc : n.cells = m.cells) (hs : n.stale = m.stale) : n.wf = true :=
  Memory.wf_of_cells hc hs h

theorem Memory.write_wf {m : Memory} (h : m.wf = true) (a : Nat) (b : Byte) : (m.write a b).wf = true := by
  rw [Memory.wf_iff] at h
  unfold Memory.write
  split
  · exact (Memory.wf_iff _).2 ⟨Kv.sorted_del _ h.1, fun c hc => h.2 c (List.mem_filter.1 hc).1⟩
  · rename_i hb
    refine (Memory.wf_iff _).2 ⟨Kv.sorted_set _ _ h.1, fun c hc => ?_⟩
    rcases Kv.mem_set hc with rfl | hc
    · exact hb
    · exact h.2 c hc

@[simp] theorem Memory.write_stale (m : Memory) (a : Nat) (b : Byte) : (m.write a b).stale = m.stale := by
  unfold Memory.write; split <;> rfl

@[simp] theorem Memory.write_unlisted (m : Memory) (a : Nat) (b : Byte) (x : Nat) : (m.write a b).unlisted x = m.unlisted x := by
  simp [Memory.unlisted]

@[simp] theorem Memory.read_write_self (m : Memory) (a : Nat) (b : Byte) : (m.write a b).read a = b := by
  unfold Memory.read
  rw [Memory.write_unlisted]
  by_cases h : b = m.unlisted a <;> simp [Memory.write, h]

theorem Memory.read_write_ne (m : Memory) {a x : Nat} (h : x ≠ a) (b : Byte) : (m.write a b).read x = m.read x := by
  unfold Memory.read
  rw [Memory.write_unlisted]
  by_cases hb : b = m.unlisted a <;> simp [Memory.write, hb, Kv.get_del_ne h, Kv.get_set_ne h]

theorem Memory.putBytes_wf {m : Memory} (h : m.wf = true) (a : Nat) (bs : List Byte) : (m.putBytes a bs).wf = true := by
  induction bs generalizing m a with
  | nil => exact h
  | cons b bs ih => exact ih (Memory.write_wf h a b) (a + 1)

theorem Memory.read_putBytes_out (m : Memory) (a : Nat) (bs : List Byte) (x : Nat) (h : x < a ∨ a + bs.length ≤ x) :
    (m.putBytes a bs).read x = m.read x := by
  induction bs generalizing m a with
  | nil => rfl
  | cons b bs ih =>
    simp only [List.length_cons] at h
    rw [Memory.putBytes, ih _ _ (by omega), Memory.read_write_ne _ (by omega)]

theorem Memory.read_putBytes_in (m : Memory) (a : Nat) (bs : List Byte) (i : Nat) (h : i < bs.length) :
    (m.putBytes a bs).read (a + i) = bs.getD i 0 := by
  induction bs generalizing m a i with
  | nil => simp at h
  | cons b bs ih =>
    cases i with
    | zero => rw [Memory.putBytes, Memory.read_putBytes_out _ _ _ _ (by omega)]; simp
    | succ i =>
      have := ih (m.write a b) (a + 1) i (by simpa using h)
      rw [Memory.putBytes, show a + (i + 1) = a + 1 + i by omega, this]
      simp

@[simp] theorem Memory.read_badLines (m : Memory) (l : List Nat) (x : Nat) : ({ m with badLines := l } : Memory).read x = m.read x := rfl

theorem Memory.writeBytes_wf {m : Memory} (h : m.wf = true) (a : Nat) (bs : List Byte) : (m.writeBytes a bs).wf = true :=
  Memory.wf_of_cells (m := m.putBytes a bs) rfl rfl (Memory.putBytes_wf h a bs)

theorem Memory.read_writeBytes_out (m : Memory) (a : Nat) (bs : List Byte) (x : Nat) (h : x < a ∨ a + bs.length ≤ x) :
    (m.writeBytes a bs).read x = m.read x := Memory.read_putBytes_out m a bs x h

theorem Memory.read_writeBytes_in (m : Memory) (a : Nat) (bs : List Byte) (i : Nat) (h : i < bs.length) :
    (m.writeBytes a bs).read (a + i) = bs.getD i 0 := Memory.read_putBytes_in m a bs i h

theorem Memory.snoop_cells (m : Memory) (a : Nat) (b : Byte) : (m.snoop a b).cells = m.cells ∧ (m.snoop a b).stale = m.stale := by
  unfold Memory.snoop
  dsimp only
  split <;> exact ⟨rfl, rfl⟩

theorem Memory.snoops_cells (l : List (Byte × Nat)) (a : Nat) (m : Memory) :
    (l.foldl (fun m x => m.snoop (a + x.2) x.1) m).cells = m.cells ∧ (l.foldl (fun m x => m.snoop (a + x.2) x.1) m).stale = m.stale := by
  induction l generalizing m with
  | nil => exact ⟨rfl, rfl⟩
  | cons x l ih =>
    have h := ih (m.snoop (a + x.2) x.1)
    have h' := m.snoop_cells (a + x.2) x.1
    exact ⟨h.1.trans h'.1, h.2.trans h'.2⟩

theorem Memory.read_of_cells {m n : Memory} (hc : n.cells = m.cells) (hs : n.stale = m.stale) (x : Nat) : n.read x = m.read x := by
  simp [Memory.read, Memory.unlisted, hc, hs]

theorem Memory.engineWrite_wf {m : Memory} (h : m.wf = true) (a : Nat) (bs : List Byte) : (m.engineWrite a bs).wf = true :=
  Memory.wf_of_cells (m.writeBytes a bs |>.snoops_cells _ a).1 ((m.writeBytes a bs).snoops_cells _ a).2 (Memory.writeBytes_wf h a bs)

theorem Memory.read_engineWrite (m : Memory) (a : Nat) (bs : List Byte) (x : Nat) :
    (m.engineWrite a bs).read x = (m.writeBytes a bs).read x :=
  Memory.read_of_cells ((m.writeBytes a bs).snoops_cells _ a).1 ((m.writeBytes a bs).snoops_cells _ a).2 x

theorem Memory.setTag_wf {m : Memory} (h : m.wf = true) (a : Nat) (on : Bool) : (m.setTag a on).wf = true := by
  unfold Memory.setTag
  split_ifs
  · exact h
  · exact Memory.wf_of_cells rfl rfl h
  · exact Memory.wf_of_cells rfl rfl h

@[simp] theorem Memory.read_setTag (m : Memory) (a : Nat) (on : Bool) (x : Nat) : (m.setTag a on).read x = m.read x := by
  unfold Memory.setTag; split_ifs <;> rfl

@[simp] theorem Memory.tag_setTag_self (m : Memory) (a : Nat) (on : Bool) : (m.setTag a on).tag a = on := by
  unfold Memory.setTag Memory.tag
  by_cases h : a ∈ m.inked <;> cases on <;> simp [h]

theorem Memory.tag_setTag_ne (m : Memory) {a x : Nat} (h : x ≠ a) (on : Bool) : (m.setTag a on).tag x = m.tag x := by
  unfold Memory.setTag Memory.tag
  by_cases ha : a ∈ m.inked <;> cases on <;> simp [h, ha]

/-- Cells that stay, under unlisted values that stay for them: the canonical form stays. -/
theorem Memory.wf_of_filter {m n : Memory} (p : Host.Cell → Bool) (hc : n.cells = m.cells.filter p)
    (hs : ∀ c ∈ m.cells, p c = true → n.unlisted c.1 = m.unlisted c.1) (h : m.wf = true) : n.wf = true := by
  rw [Memory.wf_iff] at *
  rw [hc]
  refine ⟨Kv.sorted_filter p h.1, fun c hx => ?_⟩
  obtain ⟨h1, h2⟩ := List.mem_filter.1 hx
  rw [hs c h1 h2]
  exact h.2 c h1

theorem Memory.zeroFrame_wf {m : Memory} (h : m.wf = true) (f : Nat) : (m.zeroFrame f).wf = true := by
  refine Memory.wf_of_filter (m := m) (fun c => decide (c.1 / 65536 ≠ f)) rfl (fun c _ hp => ?_) h
  simp only [decide_eq_true_eq] at hp
  simp [Memory.unlisted, Memory.zeroFrame, Kv.get_del_ne hp]

theorem Memory.read_zeroFrame (m : Memory) (f x : Nat) : (m.zeroFrame f).read x = if x / 65536 = f then 0 else m.read x := by
  have hg : ∀ l : List Host.Cell, Kv.get x (l.filter fun c => decide (c.1 / 65536 ≠ f)) = if x / 65536 = f then none else Kv.get x l := by
    intro l
    induction l with
    | nil => simp
    | cons c l ih =>
      rcases c with ⟨j, b⟩
      by_cases hj : j / 65536 = f
      · by_cases hjx : j = x
        · subst hjx; simp_all
        · simp_all [Kv.get]
      · by_cases hjx : j = x
        · subst hjx; simp_all [Kv.get]
        · simp_all [Kv.get]
  simp only [Memory.read, Memory.unlisted, Memory.zeroFrame, hg]
  split_ifs with hx
  · subst hx; simp
  · simp [Kv.get_del_ne hx]

end Sys2Proof.Machine
end

