-- ==== Sys2Proof/Laws/Keeps.lean ====
section
/-! SUPPORT. What every operation of the model keeps: the queue of waiting commands, the enabled sites, and the parts of a safe state. -/

namespace Sys2Proof.Machine

open Sys2Proof

/-- t keeps what s has: the waiting commands and the enabled sites as they are, and a safe memory, plates and tables safe. -/
structure Keeps (s t : State) : Prop where
  pending : t.pending = s.pending
  sites : t.sites = s.sites
  plates : s.platesOk → t.platesOk
  tables : s.tablesOk → t.tablesOk
  mem : s.mem.wf = true → t.mem.wf = true

theorem Keeps.refl (s : State) : Keeps s s := ⟨rfl, rfl, id, id, id⟩

theorem Keeps.trans {s t u : State} (h : Keeps s t) (h' : Keeps t u) : Keeps s u :=
  ⟨h'.pending.trans h.pending, h'.sites.trans h.sites, h'.plates ∘ h.plates, h'.tables ∘ h.tables, h'.mem ∘ h.mem⟩

/-- A change of other fields only. -/
theorem Keeps.of_fields {s t : State} (h1 : t.pending = s.pending) (h2 : t.sites = s.sites) (h3 : t.plates = s.plates) (h4 : t.ctxs = s.ctxs)
    (h5 : t.queues = s.queues) (h6 : t.mem = s.mem) : Keeps s t :=
  ⟨h1, h2, by simp [State.platesOk, h2, h3], by simp [State.tablesOk, h4, h5], by simp [h6]⟩

/-- A change of memory alone, which keeps the canonical form. -/
theorem Keeps.of_mem {s : State} {m : Memory} (h : s.mem.wf = true → m.wf = true) : Keeps s { s with mem := m } := ⟨rfl, rfl, id, id, h⟩

/-- Plates that keep their numbers. -/
theorem State.platesOk_of {s t : State} (hs : t.sites = s.sites) (hp : t.plates.map (·.1) = s.plates.map (·.1)) (h : s.platesOk) : t.platesOk := by
  simpa [State.platesOk, hs, hp] using h

/-- Tables that keep their numbers. -/
theorem State.tablesOk_of {s t : State} (hc : t.ctxs.map (·.1) = s.ctxs.map (·.1)) (hq : t.queues.map (·.1) = s.queues.map (·.1))
    (h : s.tablesOk) : t.tablesOk := by
  have mem : ∀ {α : Type} {l l' : List (Nat × α)} (n : Nat), l'.map (·.1) = l.map (·.1) → (∀ e ∈ l, e.1 < n) → ∀ e ∈ l', e.1 < n := by
    intro α l l' n hl h e he
    have : e.1 ∈ l.map (·.1) := hl ▸ List.mem_map_of_mem he
    obtain ⟨x, hx, hxe⟩ := List.mem_map.1 this
    exact hxe ▸ h x hx
  obtain ⟨h1, h2, h3, h4⟩ := h
  refine ⟨?_, mem 4096 hc h2, ?_, mem 1024 hq h4⟩
  · rw [Kv.sorted_iff] at *; rwa [hc]
  · rw [Kv.sorted_iff] at *; rwa [hq]

/-- A change that leaves the numbers of plates, contexts and queues as they are. -/
theorem Keeps.of_keys {s t : State} (h1 : t.pending = s.pending) (h2 : t.sites = s.sites) (h3 : t.plates.map (·.1) = s.plates.map (·.1))
    (h4 : t.ctxs.map (·.1) = s.ctxs.map (·.1)) (h5 : t.queues.map (·.1) = s.queues.map (·.1)) (h6 : s.mem.wf = true → t.mem.wf = true) :
    Keeps s t := ⟨h1, h2, State.platesOk_of h2 h3, State.tablesOk_of h4 h5, h6⟩

/-- A table with rising numbers below n. -/
def Bounded {α : Type} (n : Nat) (l : List (Nat × α)) : Prop := Kv.sorted l = true ∧ ∀ e ∈ l, e.1 < n

theorem Bounded.nil {α : Type} (n : Nat) : Bounded n ([] : List (Nat × α)) := ⟨rfl, by simp⟩

theorem Bounded.set {α : Type} {n k : Nat} {a : α} {l : List (Nat × α)} (hk : k < n) (h : Bounded n l) : Bounded n (Kv.set k a l) :=
  ⟨Kv.sorted_set k a h.1, fun e he => by
    rcases Kv.mem_set he with rfl | he
    · exact hk
    · exact h.2 e he⟩

theorem Bounded.del {α : Type} {n k : Nat} {l : List (Nat × α)} (h : Bounded n l) : Bounded n (Kv.del k l) :=
  ⟨Kv.sorted_del k h.1, fun e he => h.2 e (List.mem_filter.1 he).1⟩

/-- A change of plates, tables and memory, part by part. -/
theorem Keeps.of_parts {s t : State} (h1 : t.pending = s.pending) (h2 : t.sites = s.sites) (h3 : s.platesOk → t.platesOk)
    (h4 : Bounded 4096 s.ctxs → Bounded 4096 t.ctxs) (h5 : Bounded 1024 s.queues → Bounded 1024 t.queues)
    (h6 : s.mem.wf = true → t.mem.wf = true) : Keeps s t :=
  ⟨h1, h2, h3, fun h => ⟨(h4 ⟨h.1, h.2.1⟩).1, (h4 ⟨h.1, h.2.1⟩).2, (h5 ⟨h.2.2.1, h.2.2.2⟩).1, (h5 ⟨h.2.2.1, h.2.2.2⟩).2⟩, h6⟩

/-- Plates whose list is mapped under its numbers. -/
theorem State.platesOk_map {s t : State} {f : Nat × Plate → Plate} (hs : t.sites = s.sites) (hp : t.plates = s.plates.map fun e => (e.1, f e)) :
    s.platesOk → t.platesOk := State.platesOk_of hs (by simp [hp, List.map_map, Function.comp_def])

theorem lowestFree_lt {α : Type} {lo n k : Nat} {l : List (Nat × α)} (h : Kv.lowestFree lo n l = some k) : k < lo + n := by
  obtain ⟨i, hi, rfl⟩ := List.mem_map.1 (List.mem_of_find?_eq_some h)
  have := List.mem_range.1 hi
  omega

/-- Keys under a map that leaves them. -/
theorem keys_map {α β : Type} (l : List (Nat × α)) (f : Nat × α → β) : (l.map fun e => (e.1, f e)).map (·.1) = l.map (·.1) := by
  simp [List.map_map, Function.comp_def]

/-- Keep, in each element of an optional result. -/
def OptAll {α : Type} (P : α → Prop) : Option α → Prop
  | none => True
  | some a => P a

/-- Keep, in a result or in an error. -/
def ExAll {ε α : Type} (E : ε → Prop) (P : α → Prop) : Except ε α → Prop
  | .ok a => P a
  | .error e => E e

/-- Keep, in a next state. -/
def OutAll (P : State → Prop) : Host.Outcome State Fault Refusal → Prop
  | .next t => P t
  | _ => True

theorem OptAll.intro {α : Type} {P : α → Prop} {a : α} (h : P a) : OptAll P (some a) := h

theorem OptAll.mono {α : Type} {P Q : α → Prop} {o : Option α} (h : ∀ a, Q a → P a) (ho : OptAll Q o) : OptAll P o := by
  cases o with
  | none => trivial
  | some a => exact h a ho

theorem OptAll.map {α β : Type} {P : β → Prop} {Q : α → Prop} {f : α → β} {o : Option α} (ho : OptAll Q o) (h : ∀ a, Q a → P (f a)) :
    OptAll P (o.map f) := by
  cases o with
  | none => trivial
  | some a => exact h a ho

theorem OptAll.getD {α : Type} {P : α → Prop} {o : Option α} {d : α} (ho : OptAll P o) (h : P d) : P (o.getD d) := by
  cases o with
  | none => exact h
  | some a => exact ho

theorem ExAll.intro {ε α : Type} {E : ε → Prop} {P : α → Prop} {a : α} (h : P a) : ExAll E P (.ok a) := h

theorem ExAll.of_pure {ε α : Type} {E : ε → Prop} {P : α → Prop} {a : α} (h : P a) : ExAll E P (pure a) := h

theorem ExAll.intro_error {ε α : Type} {E : ε → Prop} {P : α → Prop} {e : ε} (h : E e) : ExAll E P (.error e) := h

theorem ExAll.mono {ε α : Type} {E F : ε → Prop} {P Q : α → Prop} {o : Except ε α} (he : ∀ e, F e → E e) (h : ∀ a, Q a → P a)
    (ho : ExAll F Q o) : ExAll E P o := by
  cases o with
  | ok a => exact h a ho
  | error e => exact he e ho

theorem OutAll.intro {P : State → Prop} {t : State} (h : P t) : OutAll P (.next t) := h

theorem Keeps.fst {α : Type} {b s : State} {a : α} (h : Keeps b s) : Keeps b (s, a).1 := h

theorem Keeps.snd {α : Type} {b s : State} {a : α} (h : Keeps b s) : Keeps b (a, s).2 := h

theorem Keeps.of_id {b s : State} (h : Keeps b s) : Keeps b (id s) := h

theorem Keeps.of_eq {b s t : State} (e : t = s) (h : Keeps b t) : Keeps b s := e ▸ h

theorem Keeps.of_fst {α : Type} {b s : State} {a : α} {r : State × α} (h : Keeps b r.1) (e : r = (s, a)) : Keeps b s := by subst e; exact h

theorem Keeps.of_snd {α : Type} {b s : State} {a : α} {r : α × State} (h : Keeps b r.2) (e : r = (a, s)) : Keeps b s := by subst e; exact h

theorem OptAll.of {α : Type} {P : α → Prop} {o : Option α} {a : α} (h : OptAll P o) (e : o = some a) : P a := by subst e; exact h

theorem ExAll.of {ε α : Type} {E : ε → Prop} {P : α → Prop} {o : Except ε α} {a : α} (h : ExAll E P o) (e : o = .ok a) : P a := by
  subst e; exact h

theorem ExAll.of_error {ε α : Type} {E : ε → Prop} {P : α → Prop} {o : Except ε α} {a : ε} (h : ExAll E P o) (e : o = .error a) : E a := by
  subst e; exact h

theorem ExAll.bind {ε α β : Type} {E : ε → Prop} {Q : α → Prop} {P : β → Prop} {x : Except ε α} {f : α → Except ε β} (h : ExAll E Q x)
    (hf : ∀ a, Q a → ExAll E P (f a)) : ExAll E P (x >>= f) := by
  cases x with
  | ok a => exact hf a h
  | error e => exact h

theorem ExAll.bind' {ε α β : Type} {E : ε → Prop} {Q : α → Prop} {P : β → Prop} {x : Except ε α} {f : α → Except ε β} (h : ExAll E Q x)
    (hf : ∀ a, Q a → ExAll E P (f a)) : ExAll E P (x.bind f) := ExAll.bind h hf

/-- A step that carries no state in its result: whatever it answers, what follows keeps. -/
theorem ExAll.bind_any {ε α β : Type} {E : ε → Prop} {P : β → Prop} {x : Except ε α} {f : α → Except ε β} (he : ∀ e, E e)
    (hf : ∀ a, ExAll E P (f a)) : ExAll E P (x >>= f) := by
  cases x with
  | ok a => exact hf a
  | error e => exact he e

theorem Keeps.foldl {α : Type} {b : State} {f : State → α → State} (l : List α) {s : State} (h : Keeps b s) (hf : ∀ s a, Keeps s (f s a)) :
    Keeps b (l.foldl f s) := by
  induction l generalizing s with
  | nil => exact h
  | cons a l ih => exact ih (h.trans (hf s a))

theorem Keeps.foldl_fst {α β : Type} {b : State} {f : State × β → α → State × β} (l : List α) {r : State × β} (h : Keeps b r.1)
    (hf : ∀ r a, Keeps r.1 (f r a).1) : Keeps b (l.foldl f r).1 := by
  induction l generalizing r with
  | nil => exact h
  | cons a l ih => exact ih (h.trans (hf r a))

theorem Keeps.foldl_snd {α β : Type} {b : State} {f : β × State → α → β × State} (l : List α) {r : β × State} (h : Keeps b r.2)
    (hf : ∀ r a, Keeps r.2 (f r a).2) : Keeps b (l.foldl f r).2 := by
  induction l generalizing r with
  | nil => exact h
  | cons a l ih => exact ih (h.trans (hf r a))

theorem ExAll.foldlM {ε α : Type} {b : State} {f : State → α → Except ε State} (l : List α) {s : State} (h : Keeps b s)
    (hf : ∀ s a, ExAll (fun _ => True) (fun r => Keeps s r) (f s a)) : ExAll (fun _ => True) (fun r => Keeps b r) (l.foldlM f s) := by
  induction l generalizing s with
  | nil => exact h
  | cons a l ih =>
    rw [List.foldlM_cons]
    exact ExAll.bind (hf s a) fun t ht => ih (h.trans ht)

/-- As `ExAll.foldlM`, where an error carries a state too. -/
theorem ExAll.foldlM_snd {ε α : Type} {b : State} {f : State → α → Except (ε × State) State} (l : List α) {s : State} (h : Keeps b s)
    (hf : ∀ s a, ExAll (fun r => Keeps s r.2) (fun r => Keeps s r) (f s a)) :
    ExAll (fun r => Keeps b r.2) (fun r => Keeps b r) (l.foldlM f s) := by
  induction l generalizing s with
  | nil => exact h
  | cons a l ih =>
    rw [List.foldlM_cons]
    exact ExAll.bind ((hf s a).mono (fun e he => h.trans he) fun _ ht => ht) fun t ht => ih (h.trans ht)

/-- What a check that passes has found. -/
theorem ExAll.ensure {c : Bool} {e : Ending} : ExAll (fun _ => True) (fun _ => c = true) (ensure c e) := by
  unfold Sys2Proof.Machine.ensure
  split
  · assumption
  · trivial

theorem ExAll.const {ε α : Type} {P : Prop} {x : Except ε α} (h : P) : ExAll (fun _ => True) (fun _ => P) x := by
  cases x
  · trivial
  · exact h

end Sys2Proof.Machine
end

