-- ==== Sys2Proof/Laws/KeepsOps.lean ====
section
/-! SUPPORT. What the shared operations, the datapath operands, ink and the Proof core keep: one lemma for each operation that answers a state. -/

namespace Sys2Proof.Machine

open Sys2Proof

theorem Keeps.set_mbox {b s : State} {v_mbox} (h : Keeps b s) :
    Keeps b { s with mbox := v_mbox } :=
  h.trans (Keeps.of_fields rfl rfl rfl rfl rfl rfl)

theorem Keeps.set_host {b s : State} {v_host} (h : Keeps b s) :
    Keeps b { s with host := v_host } :=
  h.trans (Keeps.of_fields rfl rfl rfl rfl rfl rfl)

theorem Keeps.set_fabric {b s : State} {v_fabric} (h : Keeps b s) :
    Keeps b { s with fabric := v_fabric } :=
  h.trans (Keeps.of_fields rfl rfl rfl rfl rfl rfl)

theorem Keeps.set_cmds {b s : State} {v_cmds} (h : Keeps b s) :
    Keeps b { s with cmds := v_cmds } :=
  h.trans (Keeps.of_fields rfl rfl rfl rfl rfl rfl)

theorem Keeps.set_boot {b s : State} {v_boot} (h : Keeps b s) :
    Keeps b { s with boot := v_boot } :=
  h.trans (Keeps.of_fields rfl rfl rfl rfl rfl rfl)

theorem Keeps.set_epochs_newest {b s : State} {v_epochs} {v_newest} (h : Keeps b s) :
    Keeps b { s with epochs := v_epochs, newest := v_newest } :=
  h.trans (Keeps.of_fields rfl rfl rfl rfl rfl rfl)

theorem Keeps.set_ctxs {b s : State} {v_ctxs} (h : Keeps b s) (hc : v_ctxs.map (·.1) = s.ctxs.map (·.1)) :
    Keeps b { s with ctxs := v_ctxs } :=
  h.trans (Keeps.of_keys rfl rfl rfl hc rfl id)

theorem Keeps.set_power {b s : State} {v_power} (h : Keeps b s) :
    Keeps b { s with power := v_power } :=
  h.trans (Keeps.of_fields rfl rfl rfl rfl rfl rfl)

theorem Keeps.set_log {b s : State} {v_log} (h : Keeps b s) :
    Keeps b { s with log := v_log } :=
  h.trans (Keeps.of_fields rfl rfl rfl rfl rfl rfl)

theorem Keeps.set_routers {b s : State} {v_routers} (h : Keeps b s) :
    Keeps b { s with routers := v_routers } :=
  h.trans (Keeps.of_fields rfl rfl rfl rfl rfl rfl)

theorem Keeps.set_stylus {b s : State} {v_stylus} (h : Keeps b s) :
    Keeps b { s with stylus := v_stylus } :=
  h.trans (Keeps.of_fields rfl rfl rfl rfl rfl rfl)

theorem Keeps.set_nextPlacement_placement {b s : State} {v_nextPlacement} {v_placement} (h : Keeps b s) :
    Keeps b { s with nextPlacement := v_nextPlacement, placement := v_placement } :=
  h.trans (Keeps.of_fields rfl rfl rfl rfl rfl rfl)

theorem Keeps.set_mem {b s : State} {v_mem} (h : Keeps b s) (hm : s.mem.wf = true → v_mem.wf = true) :
    Keeps b { s with mem := v_mem } :=
  h.trans (Keeps.of_keys rfl rfl rfl rfl rfl hm)

theorem Keeps.set_bus {b s : State} {v_bus} (h : Keeps b s) :
    Keeps b { s with bus := v_bus } :=
  h.trans (Keeps.of_fields rfl rfl rfl rfl rfl rfl)

theorem Keeps.set_ctxs_queues {b s : State} {v_ctxs} {v_queues} (h : Keeps b s) (hc : v_ctxs.map (·.1) = s.ctxs.map (·.1)) (hq : v_queues.map (·.1) = s.queues.map (·.1)) :
    Keeps b { s with ctxs := v_ctxs, queues := v_queues } :=
  h.trans (Keeps.of_keys rfl rfl rfl hc hq id)

theorem Keeps.set_spare {b s : State} {v_spare} (h : Keeps b s) :
    Keeps b { s with spare := v_spare } :=
  h.trans (Keeps.of_fields rfl rfl rfl rfl rfl rfl)

theorem Keeps.set_manifests {b s : State} {v_manifests} (h : Keeps b s) :
    Keeps b { s with manifests := v_manifests } :=
  h.trans (Keeps.of_fields rfl rfl rfl rfl rfl rfl)

theorem Keeps.set_mem_ctxs_queues_dbUnused_cmds_plates_routers_preds_host_fabric_stylus_proof_epochs_manifests_newest_buckets_spare_streams_nextPlacement_placement {b s : State} {v_mem} {v_ctxs} {v_queues} {v_dbUnused} {v_cmds} {v_plates} {v_routers} {v_preds} {v_host} {v_fabric} {v_stylus} {v_proof} {v_epochs} {v_manifests} {v_newest} {v_buckets} {v_spare} {v_streams} {v_nextPlacement} {v_placement} (h : Keeps b s) (hp : v_plates.map (·.1) = s.plates.map (·.1)) (hc : v_ctxs.map (·.1) = s.ctxs.map (·.1)) (hq : v_queues.map (·.1) = s.queues.map (·.1)) (hm : s.mem.wf = true → v_mem.wf = true) :
    Keeps b { s with mem := v_mem, ctxs := v_ctxs, queues := v_queues, dbUnused := v_dbUnused, cmds := v_cmds, plates := v_plates, routers := v_routers, preds := v_preds, host := v_host, fabric := v_fabric, stylus := v_stylus, proof := v_proof, epochs := v_epochs, manifests := v_manifests, newest := v_newest, buckets := v_buckets, spare := v_spare, streams := v_streams, nextPlacement := v_nextPlacement, placement := v_placement } :=
  h.trans (Keeps.of_keys rfl rfl hp hc hq hm)

theorem Keeps.set_host_fabric_boot_power {b s : State} {v_host} {v_fabric} {v_boot} {v_power} (h : Keeps b s) :
    Keeps b { s with host := v_host, fabric := v_fabric, boot := v_boot, power := v_power } :=
  h.trans (Keeps.of_fields rfl rfl rfl rfl rfl rfl)

theorem Keeps.set_queues_cmds_preds {b s : State} {v_queues} {v_cmds} {v_preds} (h : Keeps b s) (hq : v_queues.map (·.1) = s.queues.map (·.1)) :
    Keeps b { s with queues := v_queues, cmds := v_cmds, preds := v_preds } :=
  h.trans (Keeps.of_keys rfl rfl rfl rfl hq id)

theorem Keeps.set_streams {b s : State} {v_streams} (h : Keeps b s) :
    Keeps b { s with streams := v_streams } :=
  h.trans (Keeps.of_fields rfl rfl rfl rfl rfl rfl)

theorem Keeps.set_buckets {b s : State} {v_buckets} (h : Keeps b s) :
    Keeps b { s with buckets := v_buckets } :=
  h.trans (Keeps.of_fields rfl rfl rfl rfl rfl rfl)

theorem Keeps.set_side {b s : State} {v_side} (h : Keeps b s) :
    Keeps b { s with side := v_side } :=
  h.trans (Keeps.of_fields rfl rfl rfl rfl rfl rfl)

theorem Keeps.set_plates {b s : State} {v_plates} (h : Keeps b s) (hp : v_plates.map (·.1) = s.plates.map (·.1)) :
    Keeps b { s with plates := v_plates } :=
  h.trans (Keeps.of_keys rfl rfl hp rfl rfl id)

theorem Keeps.set_strk {b s : State} {v_strk} (h : Keeps b s) :
    Keeps b { s with strk := v_strk } :=
  h.trans (Keeps.of_fields rfl rfl rfl rfl rfl rfl)

theorem Keeps.set_queues_dbUnused {b s : State} {v_queues} {v_dbUnused} (h : Keeps b s) (hq : v_queues.map (·.1) = s.queues.map (·.1)) :
    Keeps b { s with queues := v_queues, dbUnused := v_dbUnused } :=
  h.trans (Keeps.of_keys rfl rfl rfl rfl hq id)

theorem Keeps.set_proof {b s : State} {v_proof} (h : Keeps b s) :
    Keeps b { s with proof := v_proof } :=
  h.trans (Keeps.of_fields rfl rfl rfl rfl rfl rfl)

theorem Keeps.set_free {b s : State} {v_free} (h : Keeps b s) :
    Keeps b { s with free := v_free } :=
  h.trans (Keeps.of_fields rfl rfl rfl rfl rfl rfl)

theorem Keeps.set_fabric_bus_spare {b s : State} {v_fabric} {v_bus} {v_spare} (h : Keeps b s) :
    Keeps b { s with fabric := v_fabric, bus := v_bus, spare := v_spare } :=
  h.trans (Keeps.of_fields rfl rfl rfl rfl rfl rfl)

theorem Keeps.set_ctxs_epochs {b s : State} {v_ctxs} {v_epochs} (h : Keeps b s) (hc : v_ctxs.map (·.1) = s.ctxs.map (·.1)) :
    Keeps b { s with ctxs := v_ctxs, epochs := v_epochs } :=
  h.trans (Keeps.of_keys rfl rfl rfl hc rfl id)

theorem Keeps.set_plates_routers_stylus_buckets_spare_streams {b s : State} {v_plates} {v_routers} {v_stylus} {v_buckets} {v_spare} {v_streams} (h : Keeps b s) (hp : v_plates.map (·.1) = s.plates.map (·.1)) :
    Keeps b { s with plates := v_plates, routers := v_routers, stylus := v_stylus, buckets := v_buckets, spare := v_spare, streams := v_streams } :=
  h.trans (Keeps.of_keys rfl rfl hp rfl rfl id)

theorem Keeps.set_mem_plates_stylus_boot_power_side {b s : State} {v_mem} {v_plates} {v_stylus} {v_boot} {v_power} {v_side} (h : Keeps b s) (hp : v_plates.map (·.1) = s.plates.map (·.1)) (hm : s.mem.wf = true → v_mem.wf = true) :
    Keeps b { s with mem := v_mem, plates := v_plates, stylus := v_stylus, boot := v_boot, power := v_power, side := v_side } :=
  h.trans (Keeps.of_keys rfl rfl hp rfl rfl hm)

theorem Keeps.set_bus_power {b s : State} {v_bus} {v_power} (h : Keeps b s) :
    Keeps b { s with bus := v_bus, power := v_power } :=
  h.trans (Keeps.of_fields rfl rfl rfl rfl rfl rfl)

theorem Keeps.set_epochs {b s : State} {v_epochs} (h : Keeps b s) :
    Keeps b { s with epochs := v_epochs } :=
  h.trans (Keeps.of_fields rfl rfl rfl rfl rfl rfl)

theorem Keeps.set_log_boot_power_side {b s : State} {v_log} {v_boot} {v_power} {v_side} (h : Keeps b s) :
    Keeps b { s with log := v_log, boot := v_boot, power := v_power, side := v_side } :=
  h.trans (Keeps.of_fields rfl rfl rfl rfl rfl rfl)

theorem Keeps.set_fabric_boot_spare {b s : State} {v_fabric} {v_boot} {v_spare} (h : Keeps b s) :
    Keeps b { s with fabric := v_fabric, boot := v_boot, spare := v_spare } :=
  h.trans (Keeps.of_fields rfl rfl rfl rfl rfl rfl)

theorem Keeps.set_nextPlacement {b s : State} {v_nextPlacement} (h : Keeps b s) :
    Keeps b { s with nextPlacement := v_nextPlacement } :=
  h.trans (Keeps.of_fields rfl rfl rfl rfl rfl rfl)

theorem Keeps.set_log_host_power {b s : State} {v_log} {v_host} {v_power} (h : Keeps b s) :
    Keeps b { s with log := v_log, host := v_host, power := v_power } :=
  h.trans (Keeps.of_fields rfl rfl rfl rfl rfl rfl)

theorem Keeps.set_plates_routers {b s : State} {v_plates} {v_routers} (h : Keeps b s) (hp : v_plates.map (·.1) = s.plates.map (·.1)) :
    Keeps b { s with plates := v_plates, routers := v_routers } :=
  h.trans (Keeps.of_keys rfl rfl hp rfl rfl id)

theorem Keeps.set_cmds_host {b s : State} {v_cmds} {v_host} (h : Keeps b s) :
    Keeps b { s with cmds := v_cmds, host := v_host } :=
  h.trans (Keeps.of_fields rfl rfl rfl rfl rfl rfl)

theorem Keeps.set_preds {b s : State} {v_preds} (h : Keeps b s) :
    Keeps b { s with preds := v_preds } :=
  h.trans (Keeps.of_fields rfl rfl rfl rfl rfl rfl)

theorem Keeps.set_queues_preds_host_stylus_spare_streams {b s : State} {v_queues} {v_preds} {v_host} {v_stylus} {v_spare} {v_streams} (h : Keeps b s) (hq : v_queues.map (·.1) = s.queues.map (·.1)) :
    Keeps b { s with queues := v_queues, preds := v_preds, host := v_host, stylus := v_stylus, spare := v_spare, streams := v_streams } :=
  h.trans (Keeps.of_keys rfl rfl rfl rfl hq id)

theorem Keeps.set_queues_host {b s : State} {v_queues} {v_host} (h : Keeps b s) (hq : v_queues.map (·.1) = s.queues.map (·.1)) :
    Keeps b { s with queues := v_queues, host := v_host } :=
  h.trans (Keeps.of_keys rfl rfl rfl rfl hq id)

theorem Keeps.set_ctxs_bus {b s : State} {v_ctxs} {v_bus} (h : Keeps b s) (hc : v_ctxs.map (·.1) = s.ctxs.map (·.1)) :
    Keeps b { s with ctxs := v_ctxs, bus := v_bus } :=
  h.trans (Keeps.of_keys rfl rfl rfl hc rfl id)

theorem Keeps.set_ctxs_plates_routers_buckets {b s : State} {v_ctxs} {v_plates} {v_routers} {v_buckets} (h : Keeps b s) (hp : v_plates.map (·.1) = s.plates.map (·.1)) (hc : v_ctxs.map (·.1) = s.ctxs.map (·.1)) :
    Keeps b { s with ctxs := v_ctxs, plates := v_plates, routers := v_routers, buckets := v_buckets } :=
  h.trans (Keeps.of_keys rfl rfl hp hc rfl id)

theorem Keeps.set_boot_bus {b s : State} {v_boot} {v_bus} (h : Keeps b s) :
    Keeps b { s with boot := v_boot, bus := v_bus } :=
  h.trans (Keeps.of_fields rfl rfl rfl rfl rfl rfl)

theorem Keeps.set_queues_cmds_host {b s : State} {v_queues} {v_cmds} {v_host} (h : Keeps b s) (hq : v_queues.map (·.1) = s.queues.map (·.1)) :
    Keeps b { s with queues := v_queues, cmds := v_cmds, host := v_host } :=
  h.trans (Keeps.of_keys rfl rfl rfl rfl hq id)

theorem Keeps.set_eccCounts {b s : State} {v_eccCounts} (h : Keeps b s) :
    Keeps b { s with eccCounts := v_eccCounts } :=
  h.trans (Keeps.of_fields rfl rfl rfl rfl rfl rfl)

theorem Keeps.set_strk_power {b s : State} {v_strk} {v_power} (h : Keeps b s) :
    Keeps b { s with strk := v_strk, power := v_power } :=
  h.trans (Keeps.of_fields rfl rfl rfl rfl rfl rfl)

theorem Keeps.set_boot_power {b s : State} {v_boot} {v_power} (h : Keeps b s) :
    Keeps b { s with boot := v_boot, power := v_power } :=
  h.trans (Keeps.of_fields rfl rfl rfl rfl rfl rfl)

theorem Keeps.set_dbUnused {b s : State} {v_dbUnused} (h : Keeps b s) :
    Keeps b { s with dbUnused := v_dbUnused } :=
  h.trans (Keeps.of_fields rfl rfl rfl rfl rfl rfl)

theorem Keeps.set_fabric_power_spare {b s : State} {v_fabric} {v_power} {v_spare} (h : Keeps b s) :
    Keeps b { s with fabric := v_fabric, power := v_power, spare := v_spare } :=
  h.trans (Keeps.of_fields rfl rfl rfl rfl rfl rfl)

theorem Keeps.set_cmds_proof_boot {b s : State} {v_cmds} {v_proof} {v_boot} (h : Keeps b s) :
    Keeps b { s with cmds := v_cmds, proof := v_proof, boot := v_boot } :=
  h.trans (Keeps.of_fields rfl rfl rfl rfl rfl rfl)

theorem Keeps.set_dispatchers {b s : State} {v_dispatchers} (h : Keeps b s) :
    Keeps b { s with dispatchers := v_dispatchers } :=
  h.trans (Keeps.of_fields rfl rfl rfl rfl rfl rfl)

theorem Keeps.set_queues {b s : State} {v_queues} (h : Keeps b s) (hq : v_queues.map (·.1) = s.queues.map (·.1)) :
    Keeps b { s with queues := v_queues } :=
  h.trans (Keeps.of_keys rfl rfl rfl rfl hq id)

theorem Keeps.set_host_mbox_fabric_mgmtOnly_boot_bus_power_spare {b s : State} {v_host} {v_mbox} {v_fabric} {v_mgmtOnly} {v_boot} {v_bus} {v_power} {v_spare} (h : Keeps b s) :
    Keeps b { s with host := v_host, mbox := v_mbox, fabric := v_fabric, mgmtOnly := v_mgmtOnly, boot := v_boot, bus := v_bus, power := v_power, spare := v_spare } :=
  h.trans (Keeps.of_fields rfl rfl rfl rfl rfl rfl)

theorem Keeps.set_mgmtOnly_boot {b s : State} {v_mgmtOnly} {v_boot} (h : Keeps b s) :
    Keeps b { s with mgmtOnly := v_mgmtOnly, boot := v_boot } :=
  h.trans (Keeps.of_fields rfl rfl rfl rfl rfl rfl)

theorem Keeps.set_ddrChannels_ddrGib_ddrRate_boot {b s : State} {v_ddrChannels} {v_ddrGib} {v_ddrRate} {v_boot} (h : Keeps b s) :
    Keeps b { s with ddrChannels := v_ddrChannels, ddrGib := v_ddrGib, ddrRate := v_ddrRate, boot := v_boot } :=
  h.trans (Keeps.of_fields rfl rfl rfl rfl rfl rfl)

theorem Keeps.set_plates_routers_stylus {b s : State} {v_plates} {v_routers} {v_stylus} (h : Keeps b s) (hp : v_plates.map (·.1) = s.plates.map (·.1)) :
    Keeps b { s with plates := v_plates, routers := v_routers, stylus := v_stylus } :=
  h.trans (Keeps.of_keys rfl rfl hp rfl rfl id)

theorem State.updCtx_keeps (s) (n : Nat) (f : Ctx → Ctx) : Keeps s (State.updCtx s n f) := Keeps.of_keys rfl rfl rfl (Kv.keys_upd _ _ _) rfl id

theorem State.updQueue_keeps (s) (q : Nat) (f : Queue → Queue) : Keeps s (State.updQueue s q f) := Keeps.of_keys rfl rfl rfl rfl (Kv.keys_upd _ _ _) id

theorem State.updPlate_keeps (s) (n : Nat) (f : Plate → Plate) : Keeps s (State.updPlate s n f) := Keeps.of_keys rfl rfl (Kv.keys_upd _ _ _) rfl rfl id

theorem State.updRouter_keeps (s) (n) (f) : Keeps s (State.updRouter s n f) := by
  unfold State.updRouter
  refine Keeps.set_routers ?_
  exact Keeps.refl _

theorem State.updCmd_keeps (s) (q) (seq) (f) : Keeps s (State.updCmd s q seq f) := by
  unfold State.updCmd
  refine Keeps.set_cmds ?_
  exact Keeps.refl _

theorem State.updMem_keeps (s) (f : Memory → Memory) (hf : s.mem.wf = true → (f s.mem).wf = true) : Keeps s (State.updMem s f) := Keeps.of_mem hf

theorem State.draw_keeps (s) (w) : Keeps s ((State.draw s w).2) := by
  unfold State.draw
  refine Keeps.snd ?_
  refine Keeps.set_free ?_
  exact Keeps.refl _

theorem State.drawNs_keeps (s) : Keeps s ((State.drawNs s).2) := by
  unfold State.drawNs
  split
  · rename_i y0 y1 y2 y3
    have k4 : Keeps _ y2 := Keeps.of_snd (State.draw_keeps _ _) y3
    refine Keeps.snd ?_
    exact k4

theorem freshNumber_keeps (s) (w) (lo) (n) (used) : Keeps s ((freshNumber s w lo n used).2) := by
  unfold freshNumber
  split
  · rename_i y0 y1 y2 y3
    have k4 : Keeps _ y2 := Keeps.of_snd (State.draw_keeps _ _) y3
    split
    · rename_i y5
      refine Keeps.snd ?_
      exact k4
    · rename_i y6
      refine Keeps.snd ?_
      exact k4

theorem State.logAt_keeps (s) (ns) (code) (source) (index) (context) (aux) (data) : Keeps s (State.logAt s ns code source index context aux data) := by
  unfold State.logAt
  extract_lets x0 x1 x2 x3 x4
  clear_value x0
  clear_value x1
  clear_value x2
  clear_value x3
  clear_value x4
  split
  · rename_i y5
    refine Keeps.set_log ?_
    exact Keeps.refl _
  · rename_i y6
    refine Keeps.set_log_host_power ?_
    exact Keeps.refl _

theorem State.logEvent_keeps (s) (code) (source) (index) (context) (aux) (data) : Keeps s (State.logEvent s code source index context aux data) := by
  unfold State.logEvent
  split
  · rename_i y0 y1 y2 y3
    have k4 : Keeps _ y2 := Keeps.of_snd (State.drawNs_keeps _) y3
    refine Keeps.trans ?_ (State.logAt_keeps _ _ _ _ _ _ _ _)
    exact k4

theorem State.raise_keeps (s) (v) : Keeps s (State.raise s v) := by
  unfold State.raise
  extract_lets x0
  clear_value x0
  split
  · rename_i y1
    refine Keeps.set_host ?_
    exact Keeps.refl _
  · rename_i y2
    split
    · rename_i y3
      exact Keeps.refl _
    · rename_i y4
      refine Keeps.set_host ?_
      exact Keeps.refl _

theorem State.flushMsi_keeps (s) : Keeps s (State.flushMsi s) := by
  unfold State.flushMsi
  extract_lets x0 x1
  clear_value x0
  clear_value x1
  refine Keeps.set_host ?_
  exact Keeps.refl _

theorem State.claim_keeps (s) (f : Nat) (o : FrameOwner) : Keeps s (State.claim s f o) := by
  unfold State.claim
  extract_lets m m1 k
  split
  · split
    · exact Keeps.of_mem (Memory.wf_of_cells rfl rfl)
    · split
      · exact Keeps.of_mem (Memory.wf_of_cells rfl rfl)
      · refine Keeps.of_mem fun h => ?_
        refine Memory.wf_of_filter (m := m) (fun c => decide (c.1 / 65536 ≠ f)) rfl (fun c _ hp => ?_) h
        simp only [decide_eq_true_eq] at hp
        simp only [Memory.unlisted, Kv.get_set_ne hp]
  · exact Keeps.of_mem (Memory.wf_of_cells rfl rfl)

theorem State.freeFrame_keeps (s) (f : Nat) : Keeps s (State.freeFrame s f) := by
  unfold State.freeFrame
  refine Keeps.of_mem fun h => ?_
  split
  · exact Memory.wf_of_cells rfl rfl h
  · exact Memory.zeroFrame_wf (Memory.wf_of_cells rfl rfl h) f

theorem State.drawRandom_keeps (s) : Keeps s (State.drawRandom s).2 := by
  unfold State.drawRandom
  extract_lets x0 x1
  clear_value x0
  clear_value x1
  refine Keeps.snd ?_
  refine Keeps.set_boot ?_
  exact Keeps.refl _

theorem State.newKey_keeps (s) (i) : Keeps s (State.newKey s i) := by
  unfold State.newKey
  split
  · rename_i y0 y1 y2 y3
    have k5 := Keeps.of_snd (State.drawRandom_keeps _) y3
    refine Keeps.trans ?_ (State.updMem_keeps _ _ ?_)
    · exact k5
    · intro a6
      assumption

theorem State.dropKey_keeps (s) (i) : Keeps s (State.dropKey s i) := by
  unfold State.dropKey
  refine Keeps.trans ?_ (State.updMem_keeps _ _ ?_)
  · exact Keeps.refl _
  · intro h0
    exact Memory.wf_same h0 rfl rfl

theorem State.cache_keeps (s) (n) (bound) (page) (l) : Keeps s (State.cache s n bound page l) := by
  unfold State.cache
  split
  · rename_i y0
    exact Keeps.refl _
  · rename_i y1
    refine Keeps.trans ?_ (State.updMem_keeps _ _ ?_)
    · exact Keeps.refl _
    · intro a2
      assumption

theorem State.touchPage_keeps (s) (n) (bound) (acc) (demand) (va) : ExAll (fun _ => True) (fun r => Keeps s r) (State.touchPage s n bound acc demand va) := by
  unfold State.touchPage
  split
  · rename_i y0 y1 y2
    refine ExAll.intro_error ?_
    trivial
  · rename_i y3 y4 y5
    split
    · rename_i y6 y7 y8
      refine ExAll.intro_error ?_
      trivial
    · rename_i y9 y10
      extract_lets x11
      have k12 : Keeps s x11 := by
        subst x11
        split
        · rename_i y13
          refine Keeps.trans ?_ (State.claim_keeps _ _ _)
          exact Keeps.refl _
        · rename_i y14
          exact Keeps.refl _
      clear_value x11
      refine ExAll.intro ?_
      refine Keeps.trans ?_ (State.cache_keeps _ _ _ _ _)
      exact k12

theorem State.claimPage_keeps (s) (n) (va) : Keeps s (State.claimPage s n va) := by
  unfold State.claimPage
  split
  · rename_i y0 y1 y2
    split
    · rename_i y3
      refine Keeps.trans ?_ (State.claim_keeps _ _ _)
      exact Keeps.refl _
    · rename_i y4
      exact Keeps.refl _
  · rename_i y5 y6 y7
    exact Keeps.refl _

theorem State.touch_keeps (s) (n) (bound) (va) (len) (acc) (demand) : ExAll (fun _ => True) (fun r => Keeps s (r)) (State.touch s n bound va len acc demand) := by
  unfold State.touch
  refine ExAll.foldlM _ ?_ ?_
  · exact Keeps.refl _
  · intro a0 a1
    refine (State.touchPage_keeps _ _ _ _ _ _)

theorem State.physWrite_keeps (s) (pa) (bs) : Keeps s (State.physWrite s pa bs) := by
  unfold State.physWrite
  extract_lets x0
  clear_value x0
  split
  · rename_i y1
    refine Keeps.set_host ?_
    exact Keeps.refl _
  · rename_i y2
    refine Keeps.trans ?_ (State.updMem_keeps _ _ ?_)
    · exact Keeps.refl _
    · intro h3
      refine Memory.engineWrite_wf ?_ _ _
      exact Memory.wf_same h3 rfl rfl

theorem State.vwrite_keeps (s) (c) (bound) (va) (bs) : Keeps s (State.vwrite s c bound va bs) := by
  unfold State.vwrite
  refine Keeps.foldl _ ?_ ?_
  · exact Keeps.refl _
  · intro a0 a1
    split
    · rename_i y2 y3 y4
      refine Keeps.trans ?_ (State.physWrite_keeps _ _ _)
      exact Keeps.refl _
    · rename_i y5 y6
      exact Keeps.refl _

theorem State.keepEvent_keeps (s) (e) : Keeps s (State.keepEvent s e) := by
  unfold State.keepEvent
  extract_lets x0 x1 x2
  clear_value x0
  clear_value x1
  have k3 : Keeps s (x2) := by
    subst x2
    refine Keeps.set_ctxs_bus ?_ ?_
    · exact Keeps.refl _
    · exact keys_map _ _
  clear_value x2
  split
  · rename_i y4
    exact Keeps.refl _
  · rename_i y5
    split
    · rename_i y6
      refine Keeps.trans ?_ (State.logEvent_keeps _ _ _ _ _ _ _)
      exact k3
    · rename_i y7
      exact k3

theorem State.failEvent_keeps (s) (node) (cause) : Keeps s (State.failEvent s node cause) := by
  unfold State.failEvent
  extract_lets x0 x1
  clear_value x0
  clear_value x1
  refine Keeps.trans ?_ (State.keepEvent_keeps _ _)
  refine Keeps.set_bus ?_
  exact Keeps.refl _

theorem State.countError.bump_keeps (s) (i) : Keeps s (State.countError.bump s i) := by
  unfold State.countError.bump
  refine Keeps.set_eccCounts ?_
  exact Keeps.refl _

theorem State.countError_keeps (s) (pa) (k) : Keeps s (State.countError s pa k) := by
  unfold State.countError
  split
  · rename_i y0 y1 y2
    extract_lets x3
    clear_value x3
    refine Keeps.trans ?_ (State.updPlate_keeps _ _ _)
    exact Keeps.refl _
  · rename_i y4 y5
    refine Keeps.trans ?_ (State.countError.bump_keeps _ _)
    exact Keeps.refl _
  · rename_i y6 y7 y8
    refine Keeps.trans ?_ (State.countError.bump_keeps _ _)
    exact Keeps.refl _
  · rename_i y9 y10 y11
    refine Keeps.trans ?_ (State.countError.bump_keeps _ _)
    exact Keeps.refl _
  · rename_i y12 y13 y14 y15 y16
    exact Keeps.refl _

theorem State.logMedia_keeps (s) (n) (pa) : Keeps s (State.logMedia s n pa) := by
  unfold State.logMedia
  extract_lets x0
  clear_value x0
  refine Keeps.trans ?_ (State.failEvent_keeps _ _ _)
  refine Keeps.trans ?_ (State.logEvent_keeps _ _ _ _ _ _ _)
  refine Keeps.trans ?_ (State.countError_keeps _ _ _)
  exact Keeps.refl _

theorem State.faultRecord_keeps (s) (n) (f) : Keeps s (State.faultRecord s n f) := by
  unfold State.faultRecord
  split
  · rename_i y0 y1 y2 y3
    have k5 := Keeps.of_snd (State.drawNs_keeps _) y3
    extract_lets x6 x7 x8 x9 x10 x11 x12
    clear_value x6
    clear_value x7
    have k13 : Keeps s x8 := by
      subst x8
      refine Keeps.trans ?_ (State.updCtx_keeps _ _ _)
      exact k5
    clear_value x8
    clear_value x9
    have k14 : Keeps s x10 := by
      subst x10
      refine Keeps.set_host ?_
      exact k13
    clear_value x10
    have k15 : Keeps s x11 := by
      subst x11
      split
      · rename_i y16
        refine Keeps.trans ?_ (State.logEvent_keeps _ _ _ _ _ _ _)
        exact k14
      · rename_i y17
        exact k14
    clear_value x11
    have k18 : Keeps s x12 := by
      subst x12
      split
      · rename_i y19
        refine Keeps.trans ?_ (State.raise_keeps _ _)
        exact k15
      · rename_i y20
        exact k15
    clear_value x12
    split
    · rename_i y21 y22 y23
      split
      · rename_i y24
        refine Keeps.trans ?_ (State.logMedia_keeps _ _ _)
        exact k18
      · rename_i y25
        exact k18
    · rename_i y26 y27
      exact k18

theorem State.putBits_keeps (s) (v) (bit) (w) (code) : Keeps s (State.putBits s v bit w code) := by
  unfold State.putBits
  extract_lets x0 x1 x2
  clear_value x0
  clear_value x1
  clear_value x2
  refine Keeps.trans ?_ (State.vwrite_keeps _ _ _ _ _)
  exact Keeps.refl _

theorem State.fillEdge_keeps (s) (v) (d) (flat) : Keeps s (State.fillEdge s v d flat) := by
  unfold State.fillEdge
  extract_lets x0
  have k1 : Keeps s x0 := by
    subst x0
    refine Keeps.foldl _ ?_ ?_
    · exact Keeps.refl _
    · intro a2 a3
      refine Keeps.trans ?_ (State.putBits_keeps _ _ _ _ _)
      exact Keeps.refl _
  clear_value x0
  refine Keeps.foldl _ ?_ ?_
  · exact k1
  · intro a4 a5
    refine Keeps.trans ?_ (State.vwrite_keeps _ _ _ _ _)
    exact Keeps.refl _

theorem State.putBlock_keeps (s) (v) (d) (m) (xp) (ps) : Keeps s (State.putBlock s v d m xp ps).1 := by
  unfold State.putBlock
  split
  · rename_i y0
    refine Keeps.fst ?_
    exact Keeps.refl _
  · rename_i y1 y2 y3
    split
    · rename_i y4
      extract_lets x5
      clear_value x5
      refine Keeps.fst ?_
      refine Keeps.trans ?_ (State.fillEdge_keeps _ _ _ _)
      refine Keeps.trans ?_ (State.vwrite_keeps _ _ _ _ _)
      exact Keeps.refl _
    · rename_i y6
      split
      · rename_i y7
        split
        · rename_i y8 y9 y10 y11 y12
          extract_lets x13
          have k14 : Keeps s x13 := by
            subst x13
            split
            · rename_i y15 y16 y17
              refine Keeps.trans ?_ (State.vwrite_keeps _ _ _ _ _)
              exact Keeps.refl _
            · rename_i y18 y19
              exact Keeps.refl _
          clear_value x13
          refine Keeps.fst ?_
          refine Keeps.foldl _ ?_ ?_
          · exact k14
          · intro a20 a21
            refine Keeps.trans ?_ (State.fillEdge_keeps _ _ _ _)
            refine Keeps.trans ?_ (State.putBits_keeps _ _ _ _ _)
            exact Keeps.refl _
      · rename_i y22
        split
        · rename_i y23 y24 y25 y26
          refine Keeps.fst ?_
          refine Keeps.trans ?_ (State.fillEdge_keeps _ _ _ _)
          refine Keeps.trans ?_ (State.putBits_keeps _ _ _ _ _)
          exact Keeps.refl _

theorem State.putElems_keeps (s) (v) (d) (m) (xp) (ps) : Keeps s ((State.putElems s v d m xp ps).1) := by
  unfold State.putElems
  extract_lets x0
  clear_value x0
  refine Keeps.foldl_fst _ ?_ ?_
  · refine Keeps.fst ?_
    exact Keeps.refl _
  · intro a1 a2
    extract_lets x3 x4 x5
    clear_value x3
    clear_value x4
    clear_value x5
    split
    · rename_i y6
      split
      · rename_i y7 y8 y9 y10
        have k11 : Keeps _ y8 := Keeps.of_fst (State.putBlock_keeps _ _ _ _ _ _) y10
        refine Keeps.fst ?_
        exact k11
    · rename_i y12
      refine Keeps.fst ?_
      exact Keeps.refl _

theorem State.touchAll_keeps (s) (v) (rs) (acc) (demand) : ExAll (fun _ => True) (fun r => Keeps s (r)) (State.touchAll s v rs acc demand) := by
  unfold State.touchAll
  extract_lets x0
  clear_value x0
  refine ExAll.foldlM _ ?_ ?_
  · exact Keeps.refl _
  · intro a1 a2
    refine (State.touchPage_keeps _ _ _ _ _ _)

theorem State.setBitmapBit_keeps (s) (v) (base) (k) (h) (b) (on) : Keeps s (State.setBitmapBit s v base k h b on) := by
  unfold State.setBitmapBit
  extract_lets x0 x1
  clear_value x0
  clear_value x1
  refine Keeps.trans ?_ (State.vwrite_keeps _ _ _ _ _)
  exact Keeps.refl _

theorem State.markBlock_keeps (s) (v) (base) (k) (h) (b) (on) : Keeps s (State.markBlock s v base k h b on) := by
  unfold State.markBlock
  extract_lets x0 x1
  clear_value x0
  have k2 : Keeps s (x1) := by
    subst x1
    refine Keeps.trans ?_ (State.setBitmapBit_keeps _ _ _ _ _ _ _)
    exact Keeps.refl _
  clear_value x1
  split
  · rename_i y3
    refine Keeps.foldl _ ?_ ?_
    · exact k2
    · intro a4 a5
      refine Keeps.trans ?_ (State.setBitmapBit_keeps _ _ _ _ _ _ _)
      exact Keeps.refl _
  · rename_i y6
    exact k2

theorem State.tileBitmap_keeps (s) (v) (d) (bm) (box) (transposed) : Keeps s ((State.tileBitmap s v d bm box transposed).1) := by
  unfold State.tileBitmap
  split
  · rename_i y0 y1 y2 y3
    refine Keeps.foldl_fst _ ?_ ?_
    · refine Keeps.fst ?_
      exact Keeps.refl _
    · intro a4 a5
      extract_lets x6
      have k7 : Keeps a4.1 (x6) := by
        subst x6
        exact Keeps.refl _
      clear_value x6
      split
      · rename_i y8 y9 y10 y11 y12 y13 y14
        extract_lets x15
        clear_value x15
        split
        · rename_i y16
          split
          · rename_i y17
            exact Keeps.refl _
          · rename_i y18
            refine Keeps.fst ?_
            refine Keeps.trans ?_ (State.markBlock_keeps _ _ _ _ _ _ _)
            exact k7
        · rename_i y19
          split
          · rename_i y20
            exact Keeps.refl _
          · rename_i y21
            refine Keeps.fst ?_
            refine Keeps.trans ?_ (State.markBlock_keeps _ _ _ _ _ _ _)
            exact k7

theorem State.markTiles_keeps (s) (v) (d) (bm) (transposed) (rows) (cols) (tiles) : Keeps s (State.markTiles s v d bm transposed rows cols tiles).1 := by
  unfold State.markTiles
  refine Keeps.foldl_fst _ ?_ ?_
  · refine Keeps.fst ?_
    exact Keeps.refl _
  · intro a0 a1
    split
    · rename_i y2 y3 y4 y5
      have k6 := Keeps.of_fst (State.tileBitmap_keeps _ _ _ _ _ _) y5
      refine Keeps.fst ?_
      exact k6

theorem State.writeTile_keeps (s) (v) (t) (index) (w) : Keeps s (State.writeTile s v t index w).1 := by
  unfold State.writeTile
  extract_lets x0 x1 x2 x3 x4 x5 x6 x7 x8 x9 x10 x11 x12 x13
  clear_value x0
  clear_value x1
  clear_value x2
  clear_value x3
  clear_value x4
  clear_value x5
  clear_value x6
  clear_value x7
  clear_value x8
  clear_value x9
  clear_value x10
  clear_value x11
  clear_value x12
  clear_value x13
  split
  · rename_i y14
    refine Keeps.fst ?_
    exact Keeps.refl _
  · rename_i y15
    split
    · rename_i y16 y17
      refine Keeps.fst ?_
      exact Keeps.refl _
    · rename_i y18 y19 y20
      extract_lets x21 x22 x23
      clear_value x21
      clear_value x22
      clear_value x23
      split
      · rename_i y24 y25 y26 y27 y28
        have k29 := Keeps.of_fst (State.putElems_keeps _ _ _ _ _ _) y28
        extract_lets x30 x31 x32 x33
        clear_value x30
        clear_value x31
        clear_value x32
        clear_value x33
        split
        · rename_i y34 y35 y36 y37
          split
          · rename_i y38 y39 y40 y41
            have k42 : Keeps s y39 := by
              refine Keeps.of_eq (congrArg Prod.fst y41) ?_
              split
              · rename_i y43 y44 y45
                refine Keeps.trans ?_ (State.markTiles_keeps _ _ _ _ _ _ _ _)
                exact k29
              · rename_i y46 y47
                refine Keeps.fst ?_
                exact k29
            refine Keeps.fst ?_
            exact k42

theorem State.layerStat_keeps (s) (n) (step) (layer) (w) : Keeps s (State.layerStat s n step layer w) := by
  unfold State.layerStat
  extract_lets x0
  clear_value x0
  refine Keeps.trans ?_ (State.updCtx_keeps _ _ _)
  exact Keeps.refl _

theorem State.finishEpilogue_keeps (s) (v) (p) (key) (rows) (cols) (group) (w) : Keeps s (State.finishEpilogue s v p key rows cols group w).1 := by
  unfold State.finishEpilogue
  extract_lets x0 x1
  clear_value x0
  clear_value x1
  split
  · rename_i y2 y3 y4 y5
    have k6 : Keeps s y3 := by
      refine Keeps.of_eq (congrArg Prod.fst y5) ?_
      split
      · rename_i y7 y8 y9 y10 y11 y12
        split
        · rename_i y13
          extract_lets x14 x15 x16 x17 x18 x19
          clear_value x14
          clear_value x15
          have k20 : Keeps s x16 := by
            subst x16
            refine Keeps.foldl _ ?_ ?_
            · exact Keeps.refl _
            · intro a21 a22
              refine Keeps.trans ?_ (State.fillEdge_keeps _ _ _ _)
              refine Keeps.trans ?_ (State.putBits_keeps _ _ _ _ _)
              exact Keeps.refl _
          clear_value x16
          clear_value x17
          clear_value x18
          clear_value x19
          split
          · rename_i y23 y24 y25 y26
            have k27 : Keeps s y24 := by
              refine Keeps.of_eq (congrArg Prod.fst y26) ?_
              split
              · rename_i y28 y29 y30
                refine Keeps.trans ?_ (State.markTiles_keeps _ _ _ _ _ _ _ _)
                exact k20
              · rename_i y31 y32
                refine Keeps.fst ?_
                exact k20
            refine Keeps.fst ?_
            exact k27
        · rename_i y33
          refine Keeps.fst ?_
          exact Keeps.refl _
      · rename_i y34 y35 y36
        refine Keeps.fst ?_
        exact Keeps.refl _
    extract_lets x37 x38 x39 x40
    clear_value x37
    have k41 : Keeps s x38 := by
      subst x38
      split
      · rename_i y42 y43 y44
        refine Keeps.trans ?_ (State.vwrite_keeps _ _ _ _ _)
        exact k6
      · rename_i y45 y46
        exact k6
    clear_value x38
    have k47 : Keeps s x39 := by
      subst x39
      split
      · rename_i y48
        refine Keeps.trans ?_ (State.layerStat_keeps _ _ _ _ _)
        exact k41
      · rename_i y49
        exact k41
    clear_value x39
    have k50 : Keeps s x40 := by
      subst x40
      split
      · rename_i y51
        exact k47
      · rename_i y52
        refine Keeps.set_preds ?_
        exact k47
    clear_value x40
    refine Keeps.fst ?_
    exact k50

theorem State.writeRaw_keeps (s) (v) (p) (key) (st) (n) (codes) : Keeps s (State.writeRaw s v p key st n codes) := by
  unfold State.writeRaw
  extract_lets x0 x1
  clear_value x0
  clear_value x1
  split
  · rename_i y2 y3 y4 y5
    extract_lets x6
    clear_value x6
    split
    · rename_i y7 y8
      exact Keeps.refl _
    · rename_i y9 y10 y11
      refine Keeps.foldl _ ?_ ?_
      · exact Keeps.refl _
      · intro a12 a13
        extract_lets x14 x15
        clear_value x14
        clear_value x15
        refine Keeps.trans ?_ (State.fillEdge_keeps _ _ _ _)
        refine Keeps.trans ?_ (State.putBits_keeps _ _ _ _ _)
        exact Keeps.refl _

theorem State.forOp_keeps (s) (p) (op) (b3) (hk0 : Keeps s b3) : Keeps s (State.forOp s p op b3) := by
  unfold State.forOp
  split
  · rename_i y0
    exact hk0
  · rename_i y1
    exact Keeps.refl _

theorem State.finish_keeps (s) (c) (e) : Keeps s (State.finish s c e) := by
  unfold State.finish
  refine Keeps.trans ?_ (State.updCmd_keeps _ _ _ _)
  exact Keeps.refl _

theorem State.runNow_keeps (s) (p) (act) (hk0 : ∀ z0 z1 z2, ExAll (fun _ => True) (fun r => Keeps z0 ((r).1)) (act z0 z1 z2)) : Keeps s (State.runNow s p act) := by
  unfold State.runNow
  split
  · rename_i y0 y1
    exact Keeps.refl _
  · rename_i y2 y3 y4
    split
    · rename_i y5 y6
      exact Keeps.refl _
    · rename_i y7 y8 y9
      split
      · rename_i y10 y11 y12 y13
        have k14 := ExAll.of (hk0 _ _ _) y13
        refine Keeps.trans ?_ (State.finish_keeps _ _ _)
        refine Keeps.trans ?_ k14
        exact Keeps.refl _
      · rename_i y15 y16 y17
        refine Keeps.trans ?_ (State.finish_keeps _ _ _)
        exact Keeps.refl _

theorem State.begin_keeps (s) (c) (w) : Keeps s (State.begin s c w) := by
  unfold State.begin
  refine Keeps.trans ?_ (State.updCmd_keeps _ _ _ _)
  exact Keeps.refl _

theorem State.inkPinFault_keeps (s) (n) (va) (queue) (seq) : Keeps s (State.inkPinFault s n va queue seq) := by
  unfold State.inkPinFault
  refine Keeps.trans ?_ (State.faultRecord_keeps _ _ _)
  exact Keeps.refl _

theorem State.inkTouch_keeps (s) (pa) : Keeps s (State.inkTouch s pa) := by
  unfold State.inkTouch
  split
  · rename_i y0
    refine Keeps.trans ?_ (State.updMem_keeps _ _ ?_)
    · exact Keeps.refl _
    · intro h1
      exact Memory.wf_same h1 rfl rfl
  · rename_i y2
    exact Keeps.refl _

theorem State.sampleTriggers_keeps (s) : Keeps s (State.sampleTriggers s) := by
  unfold State.sampleTriggers
  extract_lets x0 x1
  clear_value x0
  clear_value x1
  refine Keeps.set_stylus ?_
  exact Keeps.refl _

theorem State.inkPut_keeps (s) (pa) (w) : Keeps s (State.inkPut s pa w) := by
  unfold State.inkPut
  refine Keeps.trans ?_ (State.sampleTriggers_keeps _)
  refine Keeps.trans ?_ (State.inkTouch_keeps _ _)
  refine Keeps.trans ?_ (State.updMem_keeps _ _ ?_)
  · exact Keeps.refl _
  · intro h0
    refine Memory.setTag_wf ?_ _ _
    refine Memory.engineWrite_wf ?_ _ _
    exact Memory.wf_same h0 rfl rfl

theorem State.inkMedia_keeps (s) (n) (va) (pa) (queue) (seq) : Keeps s (State.inkMedia s n va pa queue seq) := by
  unfold State.inkMedia
  refine Keeps.trans ?_ (State.logMedia_keeps _ _ _)
  refine Keeps.trans ?_ (State.faultRecord_keeps _ _ _)
  exact Keeps.refl _

theorem State.inkSample_keeps (s) (n) (f) : Keeps s (State.inkSample s n f) := by
  unfold State.inkSample
  split
  · rename_i y0
    exact Keeps.refl _
  · rename_i y1
    split
    · rename_i y2 y3 y4
      refine Keeps.trans ?_ (State.inkTouch_keeps _ _)
      refine Keeps.trans ?_ (State.claimPage_keeps _ _ _)
      exact Keeps.refl _
    · rename_i y5 y6
      exact Keeps.refl _

theorem State.inkSignal_keeps (s) (n) (f) (queue) (seq) : ExAll (fun r => Keeps s (r).2) (fun r => Keeps s r) (State.inkSignal s n f queue seq) := by
  unfold State.inkSignal
  split
  · rename_i y0
    refine ExAll.intro ?_
    exact Keeps.refl _
  · rename_i y1
    split
    · rename_i y2 y3
      split
      · rename_i y4
        refine ExAll.intro_error ?_
        refine Keeps.snd ?_
        refine Keeps.trans ?_ (State.inkPinFault_keeps _ _ _ _ _)
        exact Keeps.refl _
      · rename_i y5
        refine ExAll.intro_error ?_
        refine Keeps.snd ?_
        exact Keeps.refl _
    · rename_i y6 y7 y8
      extract_lets x9
      have k10 : Keeps s x9 := by
        subst x9
        refine Keeps.trans ?_ (State.claimPage_keeps _ _ _)
        exact Keeps.refl _
      clear_value x9
      split
      · rename_i y11
        refine ExAll.intro_error ?_
        refine Keeps.snd ?_
        refine Keeps.trans ?_ (State.inkMedia_keeps _ _ _ _ _ _)
        exact k10
      · rename_i y12
        split
        · rename_i y13 y14 y15
          refine ExAll.intro ?_
          refine Keeps.trans ?_ (State.inkPut_keeps _ _ _)
          exact k10
        · rename_i y16 y17 y18
          refine ExAll.intro_error ?_
          refine Keeps.snd ?_
          split
          · rename_i y19
            exact k10
          · rename_i y20
            refine Keeps.trans ?_ (State.logEvent_keeps _ _ _ _ _ _ _)
            refine Keeps.trans ?_ (State.inkTouch_keeps _ _)
            exact k10

theorem State.notePin_keeps (s) (n) (c) (e) : Keeps s (State.notePin s n c e) := by
  unfold State.notePin
  split
  · rename_i y0 y1 y2
    split
    · rename_i y3
      refine Keeps.trans ?_ (State.inkPinFault_keeps _ _ _ _ _)
      exact Keeps.refl _
    · rename_i y4
      split
      · rename_i y5
        split
        · rename_i y6 y7 y8
          refine Keeps.trans ?_ (State.inkMedia_keeps _ _ _ _ _ _)
          exact Keeps.refl _
        · rename_i y9 y10
          exact Keeps.refl _
      · rename_i y11
        exact Keeps.refl _
  · rename_i y12 y13
    exact Keeps.refl _

theorem State.inkRefusal_keeps (s) (c) (n) (va) : Keeps s ((State.inkRefusal s c n va).1) := by
  unfold State.inkRefusal
  split
  · rename_i y0
    refine Keeps.fst ?_
    refine Keeps.trans ?_ (State.inkPinFault_keeps _ _ _ _ _)
    exact Keeps.refl _
  · rename_i y1
    refine Keeps.fst ?_
    exact Keeps.refl _

theorem execInkInit_keeps (p) (s) : OutAll (Keeps s) (execInkInit p s) := by
  unfold execInkInit
  refine OutAll.intro ?_
  refine Keeps.trans ?_ (State.forOp_keeps _ _ _ _ ?_)
  · exact Keeps.refl _
  · refine Keeps.trans ?_ (State.runNow_keeps _ _ _ ?_)
    · exact Keeps.refl _
    · intro a0 a1 a2
      extract_lets x3 x4 x5
      clear_value x3
      have k6 : Keeps a0 x4 := by
        subst x4
        refine Keeps.trans ?_ (State.claimPage_keeps _ _ _)
        exact Keeps.refl _
      clear_value x4
      clear_value x5
      split
      · rename_i y7 y8
        refine ExAll.intro ?_
        refine Keeps.trans ?_ (State.inkRefusal_keeps _ _ _ _)
        exact Keeps.refl _
      · rename_i y9 y10 y11
        refine ExAll.intro ?_
        refine Keeps.fst ?_
        refine Keeps.trans ?_ (State.inkPut_keeps _ _ _)
        exact k6

theorem execInkRead_keeps (p) (s) : OutAll (Keeps s) (execInkRead p s) := by
  unfold execInkRead
  refine OutAll.intro ?_
  refine Keeps.trans ?_ (State.forOp_keeps _ _ _ _ ?_)
  · exact Keeps.refl _
  · refine Keeps.trans ?_ (State.runNow_keeps _ _ _ ?_)
    · exact Keeps.refl _
    · intro a0 a1 a2
      split
      · rename_i y3 y4
        refine ExAll.intro ?_
        refine Keeps.trans ?_ (State.inkRefusal_keeps _ _ _ _)
        exact Keeps.refl _
      · rename_i y5 y6 y7
        extract_lets x8 x9
        have k10 : Keeps a0 x8 := by
          subst x8
          refine Keeps.trans ?_ (State.claimPage_keeps _ _ _)
          exact Keeps.refl _
        clear_value x8
        clear_value x9
        split
        · rename_i y11
          refine ExAll.intro ?_
          refine Keeps.fst ?_
          refine Keeps.trans ?_ (State.inkMedia_keeps _ _ _ _ _ _)
          exact k10
        · rename_i y12
          split
          · rename_i y13
            refine ExAll.intro_error ?_
            trivial
          · rename_i y14
            refine ExAll.intro ?_
            refine Keeps.fst ?_
            refine Keeps.trans ?_ (State.inkTouch_keeps _ _)
            exact k10

theorem execNop_keeps (p) (s) : OutAll (Keeps s) (execNop p s) := by
  unfold execNop
  refine OutAll.intro ?_
  refine Keeps.trans ?_ (State.forOp_keeps _ _ _ _ ?_)
  · exact Keeps.refl _
  · refine Keeps.trans ?_ (State.runNow_keeps _ _ _ ?_)
    · exact Keeps.refl _
    · intro a0 a1 a2
      refine ExAll.intro ?_
      refine Keeps.fst ?_
      exact Keeps.refl _

theorem State.logOverride_keeps (s) (n) (p) (st) : Keeps s (State.logOverride s n p st) := by
  unfold State.logOverride
  refine Keeps.trans ?_ (State.logEvent_keeps _ _ _ _ _ _ _)
  exact Keeps.refl _

theorem State.override_keeps (s) (c) (p) : Keeps s (State.override s c p).1 := by
  unfold State.override
  extract_lets x0 x1 x2
  clear_value x0
  clear_value x1
  have k3 : Keeps s x2 := by
    subst x2
    refine Keeps.trans ?_ (State.claimPage_keeps _ _ _)
    exact Keeps.refl _
  clear_value x2
  split
  · rename_i y4 y5
    refine Keeps.fst ?_
    exact Keeps.refl _
  · rename_i y6 y7 y8
    extract_lets x9
    clear_value x9
    split
    · rename_i y10
      refine Keeps.fst ?_
      refine Keeps.trans ?_ (State.inkMedia_keeps _ _ _ _ _ _)
      exact k3
    · rename_i y11
      split
      · rename_i y12 y13
        refine Keeps.fst ?_
        refine Keeps.trans ?_ (State.inkTouch_keeps _ _)
        exact k3
      · rename_i y14 y15 y16
        extract_lets x17
        have k18 : Keeps s x17 := by
          subst x17
          refine Keeps.trans ?_ (State.inkPut_keeps _ _ _)
          exact k3
        clear_value x17
        refine Keeps.fst ?_
        split
        · rename_i y19
          exact k18
        · rename_i y20
          refine Keeps.trans ?_ (State.updCtx_keeps _ _ _)
          exact k18

theorem execInkOverride_keeps (p) (s) : OutAll (Keeps s) (execInkOverride p s) := by
  unfold execInkOverride
  refine OutAll.intro ?_
  refine Keeps.trans ?_ (State.forOp_keeps _ _ _ _ ?_)
  · exact Keeps.refl _
  · refine Keeps.trans ?_ (State.runNow_keeps _ _ _ ?_)
    · exact Keeps.refl _
    · intro a0 a1 a2
      extract_lets x3
      have k4 : Keeps a0 (x3).1 := by
        subst x3
        split
        · rename_i y5 y6 y7
          refine Keeps.trans ?_ (State.override_keeps _ _ _)
          exact Keeps.refl _
        · rename_i y8 y9 y10
          refine Keeps.fst ?_
          exact Keeps.refl _
      clear_value x3
      refine ExAll.intro ?_
      refine Keeps.fst ?_
      refine Keeps.trans ?_ (State.logOverride_keeps _ _ _ _)
      exact k4

theorem execInkWordEvict_keeps (word) (s) : OutAll (Keeps s) (execInkWordEvict word s) := by
  unfold execInkWordEvict
  refine OutAll.intro ?_
  refine Keeps.trans ?_ (State.updMem_keeps _ _ ?_)
  · exact Keeps.refl _
  · intro h0
    exact Memory.wf_same h0 rfl rfl

theorem State.proofLoad_keeps (s) : Keeps s (State.proofLoad s) := by
  unfold State.proofLoad
  extract_lets x0 x1
  clear_value x0
  clear_value x1
  split
  · rename_i y2
    refine Keeps.trans ?_ (State.logEvent_keeps _ _ _ _ _ _ _)
    refine Keeps.set_proof ?_
    exact Keeps.refl _
  · rename_i y3
    split
    · rename_i y4
      refine Keeps.trans ?_ (State.logEvent_keeps _ _ _ _ _ _ _)
      refine Keeps.set_proof ?_
      exact Keeps.refl _
    · rename_i y5
      exact Keeps.refl _

theorem State.takeSlot_keeps (s) (c) (k) : ExAll (fun r => Keeps s ((r).2)) (fun r => Keeps s (r)) (State.takeSlot s c k) := by
  unfold State.takeSlot
  extract_lets x0 x1 x2 x3
  clear_value x0
  clear_value x1
  clear_value x2
  have k4 : Keeps s (x3) := by
    subst x3
    refine Keeps.trans ?_ (State.updCtx_keeps _ _ _)
    refine Keeps.set_proof ?_
    exact Keeps.refl _
  clear_value x3
  split
  · rename_i y5
    refine ExAll.intro ?_
    refine Keeps.trans ?_ (State.proofLoad_keeps _)
    refine Keeps.trans ?_ (State.updCmd_keeps _ _ _ _)
    refine Keeps.set_proof ?_
    exact Keeps.refl _
  · rename_i y6
    refine ExAll.intro_error ?_
    refine Keeps.snd ?_
    exact k4

theorem State.runProof_keeps (s) (p) (k) (act) (hk0 : ∀ z0 z1 z2, ExAll (fun _ => True) (fun r => Keeps z0 ((r).1)) (act z0 z1 z2)) : Keeps s (State.runProof s p k act) := by
  unfold State.runProof
  split
  · rename_i y0 y1
    exact Keeps.refl _
  · rename_i y2 y3 y4
    split
    · rename_i y5 y6 y7
      exact Keeps.refl _
    · rename_i y8 y9 y10 y11 y12 y13 y14
      have k15 := ExAll.of_error (State.takeSlot_keeps _ _ _) y14
      refine Keeps.trans ?_ (State.finish_keeps _ _ _)
      refine Keeps.trans ?_ k15
      exact Keeps.refl _
    · rename_i y16 y17 y18 y19 y20 y21
      have k22 := ExAll.of (State.takeSlot_keeps _ _ _) y21
      split
      · rename_i y23 y24 y25 y26
        have k27 := ExAll.of (hk0 _ _ _) y26
        refine Keeps.trans ?_ (State.finish_keeps _ _ _)
        refine Keeps.trans ?_ k27
        exact k22
      · rename_i y28 y29 y30
        refine Keeps.trans ?_ (State.finish_keeps _ _ _)
        exact k22

end Sys2Proof.Machine
end

