-- ==== Sys2Proof/Laws/KeepsQueues.lean ====
section
/-! SUPPORT. What queues, memory commands, completion and management keep: one lemma for each operation that answers a state. -/

namespace Sys2Proof.Machine

open Sys2Proof

theorem State.consume_keeps (s) (q) (x) (bs) : Keeps s (State.consume s q x bs) := by
  unfold State.consume
  extract_lets x0 x1 x2 x3 x4
  clear_value x0
  clear_value x1
  clear_value x2
  clear_value x3
  have k5 : Keeps s (x4) := by
    subst x4
    refine Keeps.trans ?_ (State.updQueue_keeps _ _ _)
    exact Keeps.refl _
  clear_value x4
  refine Keeps.set_cmds ?_
  exact k5

theorem State.breakPin_keeps (s) (q) (x) (f) (seq) (acc) (logged) : Keeps s (State.breakPin s q x f seq acc logged) := by
  unfold State.breakPin
  extract_lets x0
  have k1 : Keeps s x0 := by
    subst x0
    split
    · rename_i y2
      exact Keeps.refl _
    · rename_i y3
      refine Keeps.trans ?_ (State.faultRecord_keeps _ _ _)
      exact Keeps.refl _
  clear_value x0
  refine Keeps.trans ?_ (State.updQueue_keeps _ _ _)
  exact k1

theorem State.hostLine_keeps (s) (pa) : Keeps s (State.hostLine s pa) := by
  unfold State.hostLine
  split
  · rename_i y0
    refine Keeps.trans ?_ (State.updMem_keeps _ _ ?_)
    · exact Keeps.refl _
    · intro h1
      exact Memory.wf_same h1 rfl rfl
  · rename_i y2
    exact Keeps.refl _

theorem State.cacheRing_keeps (s) (q) (slots) : Keeps s (State.cacheRing s q slots) := by
  unfold State.cacheRing
  refine Keeps.foldl _ ?_ ?_
  · exact Keeps.refl _
  · intro a0 a1
    split
    · rename_i y2 y3 y4
      refine Keeps.trans ?_ (State.hostLine_keeps _ _)
      exact Keeps.refl _
    · rename_i y5 y6
      exact Keeps.refl _

theorem State.fetch_keeps (s) (q) (x) (miss) (hk0 : ∀ z0, Keeps z0 (miss z0)) : Keeps s (State.fetch s q x miss) := by
  unfold State.fetch
  split
  · rename_i y0 y1 y2
    refine Keeps.trans ?_ (State.breakPin_keeps _ _ _ _ _ _ _)
    exact Keeps.refl _
  · rename_i y3 y4
    extract_lets x5 x6 x7
    have k8 : Keeps s x5 := by
      subst x5
      refine Keeps.trans ?_ (State.claimPage_keeps _ _ _)
      exact Keeps.refl _
    clear_value x5
    clear_value x6
    have k9 : Keeps s x7 := by
      subst x7
      refine Keeps.trans ?_ (State.cacheRing_keeps _ _ _)
      exact k8
    clear_value x7
    split
    · rename_i y10 y11 y12
      refine Keeps.trans ?_ (State.breakPin_keeps _ _ _ _ _ _ _)
      exact k9
    · rename_i y13 y14
      split
      · rename_i y15 y16 y17
        refine Keeps.trans ?_ (State.consume_keeps _ _ _ _)
        exact k9
      · rename_i y18 y19
        refine Keeps.trans ?_ (hk0 _)
        refine Keeps.trans ?_ (State.updQueue_keeps _ _ _)
        exact k9

theorem execRecordFetch_keeps (queue) (s) : OutAll (Keeps s) (execRecordFetch queue s) := by
  unfold execRecordFetch
  refine OutAll.intro ?_
  split
  · rename_i y0 y1 y2
    split
    · rename_i y3
      refine Keeps.trans ?_ (State.fetch_keeps _ _ _ _ ?_)
      · exact Keeps.refl _
      · intro a4
        refine Keeps.of_id ?_
        exact Keeps.refl _
    · rename_i y5
      exact Keeps.refl _
  · rename_i y6 y7
    exact Keeps.refl _

theorem execRecordReread_keeps (queue) (s) : OutAll (Keeps s) (execRecordReread queue s) := by
  unfold execRecordReread
  refine OutAll.intro ?_
  split
  · rename_i y0 y1 y2
    split
    · rename_i y3
      refine Keeps.trans ?_ (State.fetch_keeps _ _ _ _ ?_)
      · exact Keeps.refl _
      · intro a4
        extract_lets x5
        have k6 : Keeps a4 (x5) := by
          subst x5
          refine Keeps.trans ?_ (State.updQueue_keeps _ _ _)
          exact Keeps.refl _
        clear_value x5
        split
        · rename_i y7
          refine Keeps.trans ?_ (State.logEvent_keeps _ _ _ _ _ _ _)
          refine Keeps.trans ?_ (State.updQueue_keeps _ _ _)
          exact k6
        · rename_i y8
          exact k6
    · rename_i y9
      exact Keeps.refl _
  · rename_i y10 y11
    exact Keeps.refl _

theorem execStalledReread_keeps (queue) (s) : OutAll (Keeps s) (execStalledReread queue s) := by
  unfold execStalledReread
  refine OutAll.intro ?_
  split
  · rename_i y0 y1 y2
    split
    · rename_i y3
      refine Keeps.trans ?_ (State.fetch_keeps _ _ _ _ ?_)
      · exact Keeps.refl _
      · intro a4
        refine Keeps.of_id ?_
        exact Keeps.refl _
    · rename_i y5
      exact Keeps.refl _
  · rename_i y6 y7
    exact Keeps.refl _

theorem State.badDoorbell_keeps (s) (q) (value) (log) : Keeps s (State.badDoorbell s q value log) := by
  unfold State.badDoorbell
  extract_lets x0
  have k1 : Keeps s (x0) := by
    subst x0
    split
    · rename_i y2 y3 y4
      refine Keeps.trans ?_ (State.updQueue_keeps _ _ _)
      exact Keeps.refl _
    · rename_i y5 y6
      refine Keeps.set_dbUnused ?_
      exact Keeps.refl _
  clear_value x0
  split
  · rename_i y7
    refine Keeps.trans ?_ (State.logEvent_keeps _ _ _ _ _ _ _)
    exact k1
  · rename_i y8
    exact k1

theorem State.writeSqTail_keeps (s) (queue) (value) : Keeps s (State.writeSqTail s queue value) := by
  unfold State.writeSqTail
  extract_lets x0
  clear_value x0
  split
  · rename_i y1
    exact Keeps.refl _
  · rename_i y2
    split
    · rename_i y3 y4
      split
      · rename_i y5
        exact Keeps.refl _
      · rename_i y6
        refine Keeps.trans ?_ (State.badDoorbell_keeps _ _ _ _)
        exact Keeps.refl _
    · rename_i y7 y8 y9
      split
      · rename_i y10
        refine Keeps.trans ?_ (State.badDoorbell_keeps _ _ _ _)
        exact Keeps.refl _
      · rename_i y11
        split
        · rename_i y12
          refine Keeps.trans ?_ (State.updQueue_keeps _ _ _)
          exact Keeps.refl _
        · rename_i y13
          refine Keeps.trans ?_ (State.badDoorbell_keeps _ _ _ _)
          exact Keeps.refl _

theorem execSqTailWrite_keeps (queue) (value) (s) : OutAll (Keeps s) (execSqTailWrite queue value s) := by
  unfold execSqTailWrite
  refine OutAll.intro ?_
  refine Keeps.trans ?_ (State.writeSqTail_keeps _ _ _)
  exact Keeps.refl _

theorem State.expireGroup_keeps (s) (g) (e) : Keeps s (State.expireGroup s g e) := by
  unfold State.expireGroup
  refine Keeps.foldl _ ?_ ?_
  · exact Keeps.refl _
  · intro a0 a1
    refine Keeps.trans ?_ (State.updCmd_keeps _ _ _ _)
    exact Keeps.refl _

theorem State.engineFault_keeps (s) (c) (kind) (va) (engine) (index) (acc) (detail) : Keeps s (State.engineFault s c kind va engine index acc detail) := by
  unfold State.engineFault
  extract_lets x0 x1 x2
  clear_value x0
  clear_value x1
  have k3 : Keeps s (x2) := by
    subst x2
    refine Keeps.trans ?_ (State.faultRecord_keeps _ _ _)
    exact Keeps.refl _
  clear_value x2
  split
  · rename_i y4
    refine Keeps.trans ?_ (State.updCmd_keeps _ _ _ _)
    exact k3
  · rename_i y5
    refine Keeps.trans ?_ (State.finish_keeps _ _ _)
    exact k3

theorem State.mediaFault_keeps (s) (c) (va) (pa) (engine) (index) (detail) : Keeps s (State.mediaFault s c va pa engine index detail) := by
  unfold State.mediaFault
  refine Keeps.trans ?_ (State.logMedia_keeps _ _ _)
  refine Keeps.trans ?_ (State.engineFault_keeps _ _ _ _ _ _ _ _)
  exact Keeps.refl _

theorem State.waitHost_keeps (s) (c) (detail) : Keeps s (State.waitHost s c detail) := by
  unfold State.waitHost
  refine Keeps.trans ?_ (State.updCmd_keeps _ _ _ _)
  exact Keeps.refl _

theorem State.claimRange_keeps (s) (n) (root) (base) (size) : Keeps s (State.claimRange s n root base size) := by
  unfold State.claimRange
  refine Keeps.foldl _ ?_ ?_
  · exact Keeps.refl _
  · intro a0 a1
    split
    · rename_i y2 y3 y4
      split
      · rename_i y5
        refine Keeps.trans ?_ (State.claim_keeps _ _ _)
        exact Keeps.refl _
      · rename_i y6
        exact Keeps.refl _
    · rename_i y7 y8 y9
      exact Keeps.refl _

theorem State.noteWalk_keeps (s) (n) (c) (e) : Keeps s (State.noteWalk s n c e) := by
  unfold State.noteWalk
  split
  · rename_i y0 y1 y2 y3
    split
    · rename_i y4
      refine Keeps.trans ?_ (State.faultRecord_keeps _ _ _)
      exact Keeps.refl _
    · rename_i y5
      exact Keeps.refl _
  · rename_i y6 y7
    exact Keeps.refl _

theorem State.runWalk_keeps (s) (p) (act) (hk0 : ∀ z0 z1 z2, ExAll (fun _ => True) (fun r => Keeps z0 (r).1) (act z0 z1 z2)) : Keeps s (State.runWalk s p act) := by
  unfold State.runWalk
  split
  · rename_i y0 y1
    exact Keeps.refl _
  · rename_i y2 y3 y4
    split
    · rename_i y5 y6
      exact Keeps.refl _
    · rename_i y7 y8 y9
      split
      · rename_i y10 y11 y12 y13
        have k17 := ExAll.of (hk0 _ _ _) y13
        refine Keeps.trans ?_ (State.finish_keeps _ _ _)
        exact k17
      · rename_i y18 y19 y20
        have k25 := ExAll.of_error (hk0 _ _ _) y20
        refine Keeps.trans ?_ (State.finish_keeps _ _ _)
        refine Keeps.trans ?_ (State.noteWalk_keeps _ _ _ _)
        exact Keeps.refl _

theorem execMemRegister_keeps (p) (s) : OutAll (Keeps s) (execMemRegister p s) := by
  unfold execMemRegister
  refine OutAll.intro ?_
  refine Keeps.trans ?_ (State.forOp_keeps _ _ _ _ ?_)
  · exact Keeps.refl _
  · refine Keeps.trans ?_ (State.runWalk_keeps _ _ _ ?_)
    · exact Keeps.refl _
    · intro a0 a1 a2
      extract_lets x3 x4 x5
      clear_value x3
      clear_value x4
      clear_value x5
      refine ExAll.bind_any (fun _ => trivial) ?_
      intro a6
      refine ExAll.of_pure ?_
      refine Keeps.fst ?_
      refine Keeps.trans ?_ (State.updCtx_keeps _ _ _)
      refine Keeps.trans ?_ (State.claimRange_keeps _ _ _ _ _)
      exact Keeps.refl _

theorem State.releaseFrames_keeps (s) (fs) : Keeps s ((State.releaseFrames s fs).1) := by
  unfold State.releaseFrames
  extract_lets x0 x1
  clear_value x0
  have k2 : Keeps s (x1) := by
    subst x1
    refine Keeps.foldl _ ?_ ?_
    · exact Keeps.refl _
    · intro a3 a4
      refine Keeps.trans ?_ (State.updMem_keeps _ _ ?_)
      · exact Keeps.refl _
      · intro h5
        exact Memory.wf_same h5 rfl rfl
  clear_value x1
  refine Keeps.fst ?_
  refine Keeps.trans ?_ (State.updMem_keeps _ _ ?_)
  · exact k2
  · intro h6
    exact Memory.wf_same h6 rfl rfl

theorem State.dropTlb_keeps (s) (n) (base) (size) : Keeps s (State.dropTlb s n base size) := by
  unfold State.dropTlb
  refine Keeps.trans ?_ (State.updMem_keeps _ _ ?_)
  · exact Keeps.refl _
  · intro h0
    exact Memory.wf_same h0 rfl rfl

theorem State.keepTranslations_keeps (s) (n) (base) (size) : Keeps s (State.keepTranslations s n base size) := by
  unfold State.keepTranslations
  extract_lets x0 x1
  clear_value x0
  clear_value x1
  refine Keeps.set_cmds ?_
  exact Keeps.refl _

theorem State.awaitFill_keeps (s) (c) (fs) (e) : Keeps s (State.awaitFill s c fs e) := by
  unfold State.awaitFill
  split
  · rename_i y0
    refine Keeps.trans ?_ (State.finish_keeps _ _ _)
    exact Keeps.refl _
  · rename_i y1
    refine Keeps.trans ?_ (State.begin_keeps _ _ _)
    exact Keeps.refl _

theorem execMemRelease_keeps (p) (s) : OutAll (Keeps s) (execMemRelease p s) := by
  unfold execMemRelease
  refine OutAll.intro ?_
  refine Keeps.trans ?_ (State.forOp_keeps _ _ _ _ ?_)
  · exact Keeps.refl _
  · split
    · rename_i y0 y1
      exact Keeps.refl _
    · rename_i y2 y3 y4
      extract_lets x5
      clear_value x5
      split
      · rename_i y6 y7
        exact Keeps.refl _
      · rename_i y8 y9 y10
        split
        · rename_i y11 y12 y13 y14 y15 y16
          extract_lets x17
          clear_value x17
          split
          · rename_i y18 y19 y20 y21
            have k22 := Keeps.of_fst (State.releaseFrames_keeps _ _) y21
            extract_lets x23
            have k24 : Keeps s x23 := by
              subst x23
              refine Keeps.trans ?_ (State.updCtx_keeps _ _ _)
              exact k22
            clear_value x23
            refine Keeps.trans ?_ (State.awaitFill_keeps _ _ _ _)
            refine Keeps.trans ?_ (State.dropTlb_keeps _ _ _ _)
            exact k24
        · rename_i y25 y26 y27 y28
          refine Keeps.trans ?_ (State.finish_keeps _ _ _)
          refine Keeps.trans ?_ (State.noteWalk_keeps _ _ _ _)
          exact Keeps.refl _
        · rename_i y29 y30 y31 y32 y33
          refine Keeps.trans ?_ (State.finish_keeps _ _ _)
          exact Keeps.refl _

theorem execFrameZeroFillDone_keeps (frame) (s) : OutAll (Keeps s) (execFrameZeroFillDone frame s) := by
  unfold execFrameZeroFillDone
  refine OutAll.intro ?_
  split
  · refine Keeps.set_cmds (State.updMem_keeps _ _ fun h => ?_)
    exact Memory.wf_same (Memory.zeroFrame_wf h frame) rfl rfl
  · exact Keeps.refl _

theorem State.updAlloc_keeps (s) (n) (va) (f) : Keeps s (State.updAlloc s n va f) := by
  unfold State.updAlloc
  refine Keeps.trans ?_ (State.updCtx_keeps _ _ _)
  exact Keeps.refl _

theorem execMemPin_keeps (p) (s) : OutAll (Keeps s) (execMemPin p s) := by
  unfold execMemPin
  refine OutAll.intro ?_
  refine Keeps.trans ?_ (State.forOp_keeps _ _ _ _ ?_)
  · exact Keeps.refl _
  · refine Keeps.trans ?_ (State.runWalk_keeps _ _ _ ?_)
    · exact Keeps.refl _
    · intro a0 a1 a2
      extract_lets x3
      clear_value x3
      refine ExAll.bind_any (fun _ => trivial) ?_
      intro a4
      split
      · rename_i y5 y6
        refine ExAll.intro_error ?_
        trivial
      · rename_i y7 y8 y9
        extract_lets x10 x11
        clear_value x10
        clear_value x11
        refine ExAll.of_pure ?_
        refine Keeps.fst ?_
        refine Keeps.trans ?_ (State.updAlloc_keeps _ _ _ _)
        exact Keeps.refl _

theorem execMemUnpin_keeps (p) (s) : OutAll (Keeps s) (execMemUnpin p s) := by
  unfold execMemUnpin
  refine OutAll.intro ?_
  refine Keeps.trans ?_ (State.forOp_keeps _ _ _ _ ?_)
  · exact Keeps.refl _
  · refine Keeps.trans ?_ (State.runNow_keeps _ _ _ ?_)
    · exact Keeps.refl _
    · intro a0 a1 a2
      extract_lets x3
      clear_value x3
      refine ExAll.bind_any (fun _ => trivial) ?_
      intro a4
      split
      · rename_i y5 y6
        refine ExAll.intro_error ?_
        trivial
      · rename_i y7 y8 y9
        extract_lets x10 x11
        clear_value x10
        clear_value x11
        refine ExAll.of_pure ?_
        refine Keeps.fst ?_
        refine Keeps.trans ?_ (State.updAlloc_keeps _ _ _ _)
        exact Keeps.refl _

theorem execTlbInvalidate_keeps (p) (s) : OutAll (Keeps s) (execTlbInvalidate p s) := by
  unfold execTlbInvalidate
  refine OutAll.intro ?_
  refine Keeps.trans ?_ (State.forOp_keeps _ _ _ _ ?_)
  · exact Keeps.refl _
  · refine Keeps.trans ?_ (State.runNow_keeps _ _ _ ?_)
    · exact Keeps.refl _
    · intro a0 a1 a2
      refine ExAll.bind_any (fun _ => trivial) ?_
      intro a3
      refine ExAll.of_pure ?_
      refine Keeps.fst ?_
      refine Keeps.trans ?_ (State.dropTlb_keeps _ _ _ _)
      refine Keeps.trans ?_ (State.keepTranslations_keeps _ _ _ _)
      exact Keeps.refl _

theorem execDescCreate_keeps (p) (s) : OutAll (Keeps s) (execDescCreate p s) := by
  unfold execDescCreate
  refine OutAll.intro ?_
  refine Keeps.trans ?_ (State.forOp_keeps _ _ _ _ ?_)
  · exact Keeps.refl _
  · refine Keeps.trans ?_ (State.runNow_keeps _ _ _ ?_)
    · exact Keeps.refl _
    · intro a0 a1 a2
      refine ExAll.bind_any (fun _ => trivial) ?_
      intro a3
      split
      · rename_i y4 y5 y6 y7
        have k8 : Keeps _ y6 := Keeps.of_snd (freshNumber_keeps _ _ _ _ _) y7
        refine ExAll.of_pure ?_
        refine Keeps.fst ?_
        refine Keeps.trans ?_ (State.updCtx_keeps _ _ _)
        exact k8
      · rename_i y9 y10 y11
        have k12 : Keeps _ y10 := Keeps.of_snd (freshNumber_keeps _ _ _ _ _) y11
        refine ExAll.intro_error ?_
        trivial

theorem execDescRelease_keeps (p) (s) : OutAll (Keeps s) (execDescRelease p s) := by
  unfold execDescRelease
  refine OutAll.intro ?_
  refine Keeps.trans ?_ (State.forOp_keeps _ _ _ _ ?_)
  · exact Keeps.refl _
  · refine Keeps.trans ?_ (State.runNow_keeps _ _ _ ?_)
    · exact Keeps.refl _
    · intro a0 a1 a2
      extract_lets x3
      clear_value x3
      refine ExAll.bind_any (fun _ => trivial) ?_
      intro a4
      refine ExAll.of_pure ?_
      refine Keeps.fst ?_
      refine Keeps.trans ?_ (State.updCtx_keeps _ _ _)
      exact Keeps.refl _

theorem State.dmaRun_keeps (s) (c) (b2) : Keeps s (State.dmaRun s c b2) := by
  induction b2 generalizing s c
  · rw [State.dmaRun]
    exact Keeps.refl _
  · rename_i y0 ih1
    rw [State.dmaRun]
    split
    · rename_i y2
      refine Keeps.trans ?_ (State.finish_keeps _ _ _)
      exact Keeps.refl _
    · rename_i y3
      split
      · rename_i y4
        refine Keeps.trans ?_ (State.finish_keeps _ _ _)
        exact Keeps.refl _
      · rename_i y5
        extract_lets x6 x7 x8 x9
        clear_value x6
        clear_value x7
        clear_value x8
        clear_value x9
        split
        · rename_i y10
          refine Keeps.trans ?_ (State.waitHost_keeps _ _ _)
          exact Keeps.refl _
        · rename_i y11
          split
          · rename_i y12 y13 y14 y15
            refine Keeps.trans ?_ (State.engineFault_keeps _ _ _ _ _ _ _ _)
            exact Keeps.refl _
          · rename_i y16 y17 y18
            have k19 := ExAll.of (E := fun _ => True) (P := fun r => Keeps s r) ?_ y18
            · split
              · rename_i y20 y21 y22 y23
                have k28 := ExAll.of_error (State.touch_keeps _ _ _ _ _ _ _) y23
                refine Keeps.trans ?_ (State.engineFault_keeps _ _ _ _ _ _ _ _)
                exact k19
              · rename_i y29 y30 y31
                have k35 := ExAll.of (State.touch_keeps _ _ _ _ _ _ _) y31
                split
                · rename_i y36 y37 y38
                  refine Keeps.trans ?_ (State.mediaFault_keeps _ _ _ _ _ _ _)
                  refine Keeps.trans ?_ k35
                  exact k19
                · rename_i y39 y40
                  extract_lets x41
                  clear_value x41
                  refine Keeps.trans ?_ (ih1 _ _)
                  refine Keeps.trans ?_ (State.updCmd_keeps _ _ _ _)
                  refine Keeps.trans ?_ (State.vwrite_keeps _ _ _ _ _)
                  refine Keeps.trans ?_ k35
                  exact k19
            split
            · rename_i y42
              refine ExAll.intro ?_
              exact Keeps.refl _
            · rename_i y43
              refine (State.touch_keeps _ _ _ _ _ _ _)

theorem execDmaCopy_keeps (p) (s) : OutAll (Keeps s) (execDmaCopy p s) := by
  unfold execDmaCopy
  refine OutAll.intro ?_
  refine Keeps.trans ?_ (State.forOp_keeps _ _ _ _ ?_)
  · exact Keeps.refl _
  · split
    · rename_i y0 y1 y2
      refine Keeps.trans ?_ (State.dmaRun_keeps _ _ _)
      refine Keeps.trans ?_ (State.begin_keeps _ _ _)
      exact Keeps.refl _
    · rename_i y3 y4
      split
      · rename_i y5 y6 y7
        refine Keeps.trans ?_ (State.dmaRun_keeps _ _ _)
        exact Keeps.refl _
      · rename_i y8 y9
        exact Keeps.refl _

theorem State.closeFault_keeps (s) (n) (fseq) : Keeps s (State.closeFault s n fseq) := by
  unfold State.closeFault
  refine Keeps.trans ?_ (State.updCtx_keeps _ _ _)
  exact Keeps.refl _

theorem State.abandonFault_keeps (s) (n) (fseq) : Keeps s (State.abandonFault s n fseq) := by
  unfold State.abandonFault
  split
  · rename_i y0 y1 y2
    refine Keeps.trans ?_ (State.finish_keeps _ _ _)
    refine Keeps.trans ?_ (State.updCmd_keeps _ _ _ _)
    exact Keeps.refl _
  · rename_i y3 y4
    exact Keeps.refl _

theorem execFaultResume_keeps (p) (s) : OutAll (Keeps s) (execFaultResume p s) := by
  unfold execFaultResume
  extract_lets x0
  clear_value x0
  refine OutAll.intro ?_
  refine Keeps.trans ?_ (State.forOp_keeps _ _ _ _ ?_)
  · exact Keeps.refl _
  · refine Keeps.trans ?_ (State.runNow_keeps _ _ _ ?_)
    · exact Keeps.refl _
    · intro a1 a2 a3
      extract_lets x4
      clear_value x4
      refine ExAll.bind_any (fun _ => trivial) ?_
      intro a5
      split
      · rename_i y6
        split
        · rename_i y7 y8 y9
          refine ExAll.of_pure ?_
          refine Keeps.fst ?_
          refine Keeps.trans ?_ (State.closeFault_keeps _ _ _)
          refine Keeps.trans ?_ (State.updCmd_keeps _ _ _ _)
          exact Keeps.refl _
        · rename_i y10 y11
          refine ExAll.of_pure ?_
          refine Keeps.fst ?_
          refine Keeps.trans ?_ (State.closeFault_keeps _ _ _)
          exact Keeps.refl _
      · rename_i y12
        refine ExAll.of_pure ?_
        refine Keeps.fst ?_
        refine Keeps.trans ?_ (State.closeFault_keeps _ _ _)
        refine Keeps.trans ?_ (State.abandonFault_keeps _ _ _)
        exact Keeps.refl _

theorem State.expireFault_keeps (s) (context) (fseq) : Keeps s (State.expireFault s context fseq) := by
  unfold State.expireFault
  extract_lets x0
  have k1 : Keeps s (x0) := by
    subst x0
    refine Keeps.trans ?_ (State.closeFault_keeps _ _ _)
    refine Keeps.trans ?_ (State.abandonFault_keeps _ _ _)
    exact Keeps.refl _
  clear_value x0
  split
  · rename_i y2 y3
    exact Keeps.refl _
  · rename_i y4 y5 y6
    split
    · rename_i y7 y8
      exact Keeps.refl _
    · rename_i y9 y10 y11
      split
      · rename_i y12
        exact Keeps.refl _
      · rename_i y13
        refine Keeps.trans ?_ (State.faultRecord_keeps _ _ _)
        exact k1

theorem execFaultLimit_keeps (context) (fseq) (s) : OutAll (Keeps s) (execFaultLimit context fseq s) := by
  unfold execFaultLimit
  refine OutAll.intro ?_
  refine Keeps.trans ?_ (State.expireFault_keeps _ _ _)
  exact Keeps.refl _

theorem execPatrolRead_keeps (line) (finding) (s) : OutAll (Keeps s) (execPatrolRead line finding s) := by
  unfold execPatrolRead
  refine OutAll.intro ?_
  split
  · rename_i y0
    exact Keeps.refl _
  · rename_i y1
    split
    · rename_i y2
      refine Keeps.trans ?_ (State.countError_keeps _ _ _)
      exact Keeps.refl _
    · rename_i y3
      exact Keeps.refl _
  · rename_i y4
    split
    · rename_i y5
      extract_lets x6
      have k7 : Keeps s x6 := by
        subst x6
        split
        · rename_i y8
          exact Keeps.refl _
        · rename_i y9
          refine Keeps.trans ?_ (State.updMem_keeps _ _ ?_)
          · exact Keeps.refl _
          · intro a10
            assumption
      clear_value x6
      refine Keeps.trans ?_ (State.logMedia_keeps _ _ _)
      exact k7
    · rename_i y11
      exact Keeps.refl _

theorem State.ringWrite_keeps (s) (n) (va) (bs) : Keeps s (State.ringWrite s n va bs) := by
  unfold State.ringWrite
  refine Keeps.trans ?_ (State.vwrite_keeps _ _ _ _ _)
  refine Keeps.trans ?_ (State.claimPage_keeps _ _ _)
  exact Keeps.refl _

theorem State.writeHeld_keeps (s) (q) (x) (h) : Keeps s (State.writeHeld s q x h) := by
  unfold State.writeHeld
  extract_lets x0 x1
  have k2 : Keeps s x0 := by
    subst x0
    split
    · rename_i y3 y4
      exact Keeps.refl _
    · rename_i y5 y6 y7
      split
      · rename_i y8 y9 y10 y11
        have k13 := Keeps.of_snd (State.drawNs_keeps _) y11
        extract_lets x14
        clear_value x14
        refine Keeps.trans ?_ (State.updQueue_keeps _ _ _)
        refine Keeps.trans ?_ (State.ringWrite_keeps _ _ _ _)
        exact k13
  clear_value x0
  have k15 : Keeps s x1 := by
    subst x1
    split
    · rename_i y16 y17 y18
      refine Keeps.trans ?_ (State.ringWrite_keeps _ _ _ _)
      exact k2
    · rename_i y19 y20
      exact k2
  clear_value x1
  split
  · rename_i y21 y22 y23
    split
    · rename_i y24
      refine Keeps.trans ?_ (State.raise_keeps _ _)
      exact k15
    · rename_i y25
      exact k15
  · rename_i y26 y27
    exact k15

theorem State.flushHeld_keeps (s) (q) (b2) : Keeps s (State.flushHeld s q b2) := by
  induction b2 generalizing s q
  · rw [State.flushHeld]
    exact Keeps.refl _
  · rename_i y0 ih1
    rw [State.flushHeld]
    split
    · rename_i y2 y3
      exact Keeps.refl _
    · rename_i y4 y5 y6
      split
      · rename_i y7 y8
        exact Keeps.refl _
      · rename_i y9 y10 y11 y12
        split
        · rename_i y13
          exact Keeps.refl _
        · rename_i y14
          split
          · rename_i y15 y16 y17
            refine Keeps.trans ?_ (State.breakPin_keeps _ _ _ _ _ _ _)
            exact Keeps.refl _
          · rename_i y18 y19
            refine Keeps.trans ?_ (ih1 _ _)
            refine Keeps.trans ?_ (State.updQueue_keeps _ _ _)
            refine Keeps.trans ?_ (State.writeHeld_keeps _ _ _ _)
            exact Keeps.refl _

theorem State.endGroup_keeps (s) (c) : Keeps s (State.endGroup s c) := by
  unfold State.endGroup
  refine Keeps.set_cmds ?_
  exact Keeps.refl _

theorem State.dropQueue_keeps (s) (q) : Keeps s (State.dropQueue s q) := Keeps.of_parts rfl rfl id id Bounded.del id

theorem State.closeAdmq_keeps (s) : Keeps s (State.closeAdmq s) := by
  unfold State.closeAdmq
  extract_lets x0 x1 x2 x3
  subst x0
  have k4 : Keeps s x1 := by
    subst x1
    beta_reduce
    split
    · rename_i y5 y6
      split
      · rename_i y7 y8
        exact Keeps.refl _
      · rename_i y9 y10 y11 y12
        extract_lets x13
        have k14 : Keeps s x13 := by
          subst x13
          refine Keeps.trans ?_ (State.releaseFrames_keeps _ _)
          exact Keeps.refl _
        clear_value x13
        refine Keeps.trans ?_ (State.dropTlb_keeps _ _ _ _)
        refine Keeps.trans ?_ (State.updCtx_keeps _ _ _)
        exact k14
    · rename_i y15 y16 y17 y18
      extract_lets x19
      have k20 : Keeps s x19 := by
        subst x19
        refine Keeps.trans ?_ (State.releaseFrames_keeps _ _)
        split
        · rename_i y21 y22
          exact Keeps.refl _
        · rename_i y23 y24 y25 y26
          extract_lets x27
          have k28 : Keeps s x27 := by
            subst x27
            refine Keeps.trans ?_ (State.releaseFrames_keeps _ _)
            exact Keeps.refl _
          clear_value x27
          refine Keeps.trans ?_ (State.dropTlb_keeps _ _ _ _)
          refine Keeps.trans ?_ (State.updCtx_keeps _ _ _)
          exact k28
      clear_value x19
      refine Keeps.trans ?_ (State.dropTlb_keeps _ _ _ _)
      refine Keeps.trans ?_ (State.updCtx_keeps _ _ _)
      exact k20
  clear_value x1
  clear_value x2
  clear_value x3
  refine Keeps.set_queues_host ?_ ?_
  · exact k4
  · exact Kv.keys_upd _ _ _

theorem State.drainDone_keeps (s) (q) : Keeps s (State.drainDone s q) := by
  unfold State.drainDone
  split
  · rename_i y0 y1
    exact Keeps.refl _
  · rename_i y2 y3 y4
    split
    · rename_i y5 y6
      exact Keeps.refl _
    · rename_i y7 y8 y9
      split
      · rename_i y10
        exact Keeps.refl _
      · rename_i y11
        extract_lets x12
        have k13 : Keeps s x12 := by
          subst x12
          split
          · rename_i y14
            refine Keeps.trans ?_ (State.updQueue_keeps _ _ _)
            exact Keeps.refl _
          · rename_i y15
            split
            · rename_i y16
              refine Keeps.trans ?_ (State.closeAdmq_keeps _)
              exact Keeps.refl _
            · rename_i y17
              refine Keeps.trans ?_ (State.dropQueue_keeps _ _)
              exact Keeps.refl _
        clear_value x12
        split
        · rename_i y18 y19 y20
          refine Keeps.trans ?_ (State.updCmd_keeps _ _ _ _)
          exact k13
        · rename_i y21 y22
          exact k13

theorem State.closeQueue_keeps (s) (q) (waiter) : Keeps s (State.closeQueue s q waiter) := by
  unfold State.closeQueue
  extract_lets x0
  have k1 : Keeps s x0 := by
    subst x0
    refine Keeps.trans ?_ (State.updQueue_keeps _ _ _)
    exact Keeps.refl _
  clear_value x0
  refine Keeps.trans ?_ (State.drainDone_keeps _ _)
  refine Keeps.set_cmds ?_
  exact k1

theorem State.flush_keeps (s) (q) : Keeps s (State.flush s q) := by
  unfold State.flush
  split
  · rename_i y0 y1 y2
    refine Keeps.trans ?_ (State.drainDone_keeps _ _)
    refine Keeps.trans ?_ (State.flushHeld_keeps _ _ _)
    exact Keeps.refl _
  · rename_i y3 y4
    exact Keeps.refl _

theorem State.applySignal_keeps (s) (c) (e) : Keeps s (State.applySignal s c e).1 := by
  unfold State.applySignal
  split
  · rename_i y0 y1
    refine Keeps.fst ?_
    exact Keeps.refl _
  · rename_i y2 y3 y4
    split
    · rename_i y5
      split
      · rename_i y6 y7 y8
        have k12 := ExAll.of (State.inkSignal_keeps _ _ _ _ _) y8
        refine Keeps.fst ?_
        exact k12
      · rename_i y13 y14 y15 y16
        have k21 := ExAll.of_error (State.inkSignal_keeps _ _ _ _ _) y16
        refine Keeps.fst ?_
        exact k21
    · rename_i y22
      refine Keeps.fst ?_
      exact Keeps.refl _

theorem State.complete_keeps (s) (c) (e) : Keeps s (State.complete s c e) := by
  unfold State.complete
  extract_lets x0 x1 x2 x3 x4
  clear_value x0
  have k5 : Keeps s x1 := by
    subst x1
    split
    · rename_i y6
      exact Keeps.refl _
    · rename_i y7
      refine Keeps.trans ?_ (State.endGroup_keeps _ _)
      exact Keeps.refl _
  clear_value x1
  clear_value x2
  have k8 : Keeps s x3 := by
    subst x3
    refine Keeps.set_cmds ?_
    exact k5
  clear_value x3
  have k9 : Keeps s x4 := by
    subst x4
    split
    · rename_i y10
      exact k8
    · rename_i y11
      refine Keeps.set_preds ?_
      exact k8
  clear_value x4
  split
  · rename_i y12 y13
    refine Keeps.set_cmds ?_
    exact Keeps.refl _
  · rename_i y14 y15 y16
    extract_lets x17 x18 x19
    clear_value x17
    have k20 : Keeps s x18 := by
      subst x18
      refine Keeps.trans ?_ (State.updCtx_keeps _ _ _)
      exact k9
    clear_value x18
    have k21 : Keeps s x19 := by
      subst x19
      refine Keeps.trans ?_ (State.updQueue_keeps _ _ _)
      exact k20
    clear_value x19
    refine Keeps.trans ?_ (State.proofLoad_keeps _)
    refine Keeps.trans ?_ (State.flush_keeps _ _)
    exact k21

theorem State.writeCqHead_keeps (s) (queue) (value) : Keeps s (State.writeCqHead s queue value) := by
  unfold State.writeCqHead
  extract_lets x0
  clear_value x0
  split
  · rename_i y1
    exact Keeps.refl _
  · rename_i y2
    split
    · rename_i y3 y4
      split
      · rename_i y5
        exact Keeps.refl _
      · rename_i y6
        refine Keeps.trans ?_ (State.badDoorbell_keeps _ _ _ _)
        exact Keeps.refl _
    · rename_i y7 y8 y9
      split
      · rename_i y10
        refine Keeps.trans ?_ (State.flush_keeps _ _)
        refine Keeps.trans ?_ (State.updQueue_keeps _ _ _)
        exact Keeps.refl _
      · rename_i y11
        refine Keeps.trans ?_ (State.badDoorbell_keeps _ _ _ _)
        exact Keeps.refl _

theorem execCqHeadWrite_keeps (queue) (value) (s) : OutAll (Keeps s) (execCqHeadWrite queue value s) := by
  unfold execCqHeadWrite
  refine OutAll.intro ?_
  refine Keeps.trans ?_ (State.writeCqHead_keeps _ _ _)
  exact Keeps.refl _

theorem execPinRetry_keeps (queue) (s) : OutAll (Keeps s) (execPinRetry queue s) := by
  unfold execPinRetry
  refine OutAll.intro ?_
  split
  · rename_i y0 y1 y2
    split
    · rename_i y3
      refine Keeps.trans ?_ (State.flush_keeps _ _)
      exact Keeps.refl _
    · rename_i y4
      exact Keeps.refl _
  · rename_i y5 y6
    exact Keeps.refl _

theorem execWaitTimeout_keeps (queue) (s) : OutAll (Keeps s) (execWaitTimeout queue s) := by
  unfold execWaitTimeout
  refine OutAll.intro ?_
  split
  · rename_i y0 y1
    exact Keeps.refl _
  · rename_i y2 y3 y4
    extract_lets x5
    clear_value x5
    split
    · rename_i y6 y7 y8 y9
      refine Keeps.trans ?_ (State.logEvent_keeps _ _ _ _ _ _ _)
      refine Keeps.trans ?_ (State.expireGroup_keeps _ _ _)
      exact Keeps.refl _
    · rename_i y10 y11
      exact Keeps.refl _

theorem State.mgmtTouch_keeps (s) (c) (engine) (l) :
    ExAll (fun r => Keeps s r.1) (fun r => Keeps s r) (State.mgmtTouch s c engine l) := by
  induction l generalizing s with
  | nil => exact Keeps.refl _
  | cons x t ih =>
    rw [State.mgmtTouch]
    split
    · exact State.waitHost_keeps _ _ _
    · split
      · rename_i y
        exact (State.faultRecord_keeps _ _ _)
      · rename_i s1 y
        have k := ExAll.of (State.touchAll_keeps _ _ _ _ _) y
        split
        · exact (k.trans (State.faultRecord_keeps _ _ _)).trans (State.logMedia_keeps _ _ _)
        · exact ExAll.mono (fun _ h => k.trans h) (fun _ h => k.trans h) (ih s1)

theorem State.runMgmt_keeps (s) (p) (k) (engine) (chk) (io) (act) (hk0 : ∀ z0 z1 z2, ExAll (fun _ => True) (fun r => Keeps z0 ((r).1)) (act z0 z1 z2)) : Keeps s (State.runMgmt s p k engine chk io act) := by
  unfold State.runMgmt
  split
  · rename_i y0 y1
    exact Keeps.refl _
  · rename_i y2 y3 y4
    split
    · rename_i y5 y6 y7
      exact Keeps.refl _
    · rename_i y8 y9 y10 y11 y12 y13 y14
      have k15 : Keeps s y12 := by
        refine ExAll.of_error (E := fun r => Keeps s ((r).2)) (P := fun r => Keeps s (r)) ?_ y14
        split
        · rename_i y16
          refine ExAll.intro ?_
          exact Keeps.refl _
        · rename_i y17
          refine (State.takeSlot_keeps _ _ _)
      refine Keeps.trans ?_ (State.finish_keeps _ _ _)
      exact k15
    · rename_i y18 y19 y20 y21 y22 y23
      have k24 : Keeps s y21 := by
        refine ExAll.of (E := fun r => Keeps s ((r).2)) (P := fun r => Keeps s (r)) ?_ y23
        split
        · rename_i y25
          refine ExAll.intro ?_
          exact Keeps.refl _
        · rename_i y26
          refine (State.takeSlot_keeps _ _ _)
      split
      · rename_i y27 y28 y29
        refine Keeps.trans ?_ (State.finish_keeps _ _ _)
        exact k24
      · rename_i y30 y31 y32
        split
        · rename_i y33 y34 y35 y36
          have k37 := ExAll.of_error (State.mgmtTouch_keeps _ _ _ _) y36
          refine Keeps.trans ?_ (State.finish_keeps _ _ _)
          refine Keeps.trans ?_ k37
          exact k24
        · rename_i y38 y39 y40
          have k41 := ExAll.of_error (State.mgmtTouch_keeps _ _ _ _) y40
          refine Keeps.trans ?_ k41
          exact k24
        · rename_i y42 y43 y44
          have k45 := ExAll.of (State.mgmtTouch_keeps _ _ _ _) y44
          split
          · rename_i y46 y47 y48 y49
            have k50 := ExAll.of (hk0 _ _ _) y49
            refine Keeps.trans ?_ (State.finish_keeps _ _ _)
            refine Keeps.trans ?_ k50
            refine Keeps.trans ?_ k45
            exact k24
          · rename_i y51 y52 y53
            have k54 := ExAll.of (hk0 _ _ _) y53
            refine Keeps.trans ?_ k54
            refine Keeps.trans ?_ k45
            exact k24
          · rename_i y55 y56 y57
            refine Keeps.trans ?_ (State.finish_keeps _ _ _)
            refine Keeps.trans ?_ k45
            exact k24

theorem State.runReach_keeps (s) (p) (engine) (chk) (io) (act) (hk0 : ∀ z0 z1 z2, ExAll (fun _ => True) (fun r => Keeps z0 (r).1) (act z0 z1 z2)) : Keeps s (State.runReach s p engine chk io act) := by
  unfold State.runReach
  split
  · rename_i y0 y1
    exact Keeps.refl _
  · rename_i y2 y3 y4
    split
    · rename_i y5 y6
      exact Keeps.refl _
    · rename_i y7 y8 y9
      split
      · rename_i y10 y11 y12
        refine Keeps.trans ?_ (State.finish_keeps _ _ _)
        exact Keeps.refl _
      · rename_i y13 y14 y15
        split
        · rename_i y16 y17 y18 y19
          have k24 := ExAll.of_error (State.mgmtTouch_keeps _ _ _ _) y19
          refine Keeps.trans ?_ (State.finish_keeps _ _ _)
          exact k24
        · rename_i y25 y26 y27
          have k32 := ExAll.of_error (State.mgmtTouch_keeps _ _ _ _) y27
          exact k32
        · rename_i y33 y34 y35
          have k39 := ExAll.of (State.mgmtTouch_keeps _ _ _ _) y35
          split
          · rename_i y40 y41 y42 y43
            have k47 := ExAll.of (hk0 _ _ _) y43
            refine Keeps.trans ?_ (State.finish_keeps _ _ _)
            refine Keeps.trans ?_ k47
            exact k39
          · rename_i y48 y49 y50
            have k55 := ExAll.of_error (hk0 _ _ _) y50
            refine Keeps.trans ?_ (State.finish_keeps _ _ _)
            exact k39

theorem State.mgmtWrite_keeps (s) (c) (off) (bs) : Keeps s (State.mgmtWrite s c off bs) := by
  unfold State.mgmtWrite
  split
  · rename_i y0 y1 y2
    refine Keeps.trans ?_ (State.vwrite_keeps _ _ _ _ _)
    exact Keeps.refl _
  · rename_i y3 y4
    exact Keeps.refl _

end Sys2Proof.Machine
end

