-- ==== Sys2Proof/Laws/KeepsFabric.lean ====
section
/-! SUPPORT. What the fabric, Stylus and the ledger keep: one lemma for each operation that answers a state. -/

namespace Sys2Proof.Machine

open Sys2Proof

theorem State.updPort_keeps (s) (p) (f) : Keeps s (State.updPort s p f) := by
  unfold State.updPort
  extract_lets x0
  clear_value x0
  refine Keeps.set_fabric ?_
  exact Keeps.refl _

theorem State.portCount_keeps (s) (p) (i) (n) : Keeps s (State.portCount s p i n) := by
  unfold State.portCount
  refine Keeps.trans ?_ (State.updPort_keeps _ _ _)
  exact Keeps.refl _

theorem State.transmit_keeps (s) (p) (bs) : Keeps s (State.transmit s p bs) := by
  unfold State.transmit
  extract_lets x0 x1
  have k2 : Keeps s (x0) := by
    subst x0
    refine Keeps.trans ?_ (State.portCount_keeps _ _ _ _)
    refine Keeps.trans ?_ (State.portCount_keeps _ _ _ _)
    exact Keeps.refl _
  clear_value x0
  clear_value x1
  refine Keeps.set_fabric ?_
  exact k2

theorem execLinkUp_keeps (port) (s) : OutAll (Keeps s) (execLinkUp port s) := by
  unfold execLinkUp
  refine OutAll.intro ?_
  split
  · rename_i y0 y1 y2
    split
    · rename_i y3
      exact Keeps.refl _
    · rename_i y4
      refine Keeps.trans ?_ (State.logEvent_keeps _ _ _ _ _ _ _)
      refine Keeps.trans ?_ (State.updPort_keeps _ _ _)
      exact Keeps.refl _
  · rename_i y5 y6
    exact Keeps.refl _

theorem execLinkDown_keeps (port) (s) : OutAll (Keeps s) (execLinkDown port s) := by
  unfold execLinkDown
  refine OutAll.intro ?_
  split
  · rename_i y0 y1 y2
    split
    · rename_i y3
      refine Keeps.trans ?_ (State.logEvent_keeps _ _ _ _ _ _ _)
      refine Keeps.trans ?_ (State.portCount_keeps _ _ _ _)
      refine Keeps.trans ?_ (State.updPort_keeps _ _ _)
      exact Keeps.refl _
    · rename_i y4
      exact Keeps.refl _
  · rename_i y5 y6
    exact Keeps.refl _

theorem State.answerEcho_keeps (s) (p) (f) : Keeps s (State.answerEcho s p f) := by
  unfold State.answerEcho
  extract_lets x0
  clear_value x0
  refine Keeps.trans ?_ (State.transmit_keeps _ _ _)
  refine Keeps.trans ?_ (State.updPort_keeps _ _ _)
  exact Keeps.refl _

theorem execFrameReceived_keeps (port) (frame) (s) : OutAll (Keeps s) (execFrameReceived port frame s) := by
  unfold execFrameReceived
  extract_lets x0 x1 x2 x3 x4
  clear_value x0
  have k5 : Keeps s (x1) := by
    subst x1
    refine Keeps.trans ?_ (State.portCount_keeps _ _ _ _)
    exact Keeps.refl _
  clear_value x1
  have k6 : Keeps s (x2) := by
    subst x2
    refine Keeps.trans ?_ (State.portCount_keeps _ _ _ _)
    exact k5
  clear_value x2
  clear_value x3
  clear_value x4
  refine OutAll.intro ?_
  split
  · rename_i y7 y8
    exact Keeps.refl _
  · rename_i y9 y10 y11
    split
    · rename_i y12
      exact Keeps.refl _
    · rename_i y13
      split
      · rename_i y14
        exact k6
      · rename_i y15
        split
        · rename_i y16
          exact k6
        · rename_i y17
          split
          · rename_i y18 y19
            exact k6
          · rename_i y20 y21 y22 y23
            split
            · rename_i y24
              split
              · rename_i y25 y26 y27
                refine Keeps.trans ?_ (State.transmit_keeps _ _ _)
                exact k5
              · rename_i y28 y29
                exact k6
            · rename_i y30
              split
              · rename_i y31 y32 y33
                split
                · rename_i y34
                  exact k5
                · rename_i y35
                  exact k6
              · rename_i y36 y37
                split
                · rename_i y38 y39 y40
                  split
                  · rename_i y41
                    refine Keeps.trans ?_ (State.answerEcho_keeps _ _ _)
                    exact k5
                  · rename_i y42
                    exact k6
                · rename_i y43 y44 y45
                  refine Keeps.trans ?_ (State.transmit_keeps _ _ _)
                  exact k5
                · rename_i y46 y47
                  exact k6

theorem State.frameFor_keeps (s) (p) (e) (cls) (pkt) : Keeps s (State.frameFor s p e cls pkt).2 := by
  unfold State.frameFor
  split
  · rename_i y0 y1
    refine Keeps.snd ?_
    exact Keeps.refl _
  · rename_i y2 y3 y4
    split
    · rename_i y5 y6 y7 y8
      have k10 := Keeps.of_snd (State.draw_keeps _ _) y8
      extract_lets x11 x12
      clear_value x11
      clear_value x12
      refine Keeps.snd ?_
      exact k10

theorem State.sendPacket_keeps (s) (p) (e) (cls) (pkt) : Keeps s (State.sendPacket s p e cls pkt) := by
  unfold State.sendPacket
  split
  · rename_i y0
    exact Keeps.refl _
  · rename_i y1
    split
    · rename_i y2 y3 y4 y5
      have k7 := Keeps.of_snd (State.frameFor_keeps _ _ _ _ _) y5
      refine Keeps.trans ?_ (State.transmit_keeps _ _ _)
      exact k7

theorem execRoutemapSwitch_keeps (p) (s) : OutAll (Keeps s) (execRoutemapSwitch p s) := by
  unfold execRoutemapSwitch
  refine OutAll.intro ?_
  refine Keeps.trans ?_ (State.forOp_keeps _ _ _ _ ?_)
  · exact Keeps.refl _
  · refine Keeps.trans ?_ (State.runNow_keeps _ _ _ ?_)
    · exact Keeps.refl _
    · intro a0 a1 a2
      extract_lets x3
      clear_value x3
      refine ExAll.bind_any (fun _ => trivial) ?_
      intro a4
      refine ExAll.of_pure ?_
      refine Keeps.fst ?_
      refine Keeps.set_fabric ?_
      exact Keeps.refl _

theorem State.bankSwitch_keeps (s) : Keeps s (State.bankSwitch s) := by
  unfold State.bankSwitch
  extract_lets x0 x1
  clear_value x0
  clear_value x1
  refine Keeps.set_fabric ?_
  exact Keeps.refl _

theorem State.passThrough_keeps (s) (port) (frame) : Keeps s (State.passThrough s port frame) := by
  unfold State.passThrough
  extract_lets x0
  clear_value x0
  split
  · rename_i y1 y2
    exact Keeps.refl _
  · rename_i y3 y4 y5
    split
    · rename_i y6 y7 y8 y9 y10 y11
      split
      · rename_i y12
        exact Keeps.refl _
      · rename_i y13
        split
        · rename_i y14
          refine Keeps.trans ?_ (State.portCount_keeps _ _ _ _)
          refine Keeps.trans ?_ (State.portCount_keeps _ _ _ _)
          exact Keeps.refl _
        · rename_i y15
          refine Keeps.trans ?_ (State.transmit_keeps _ _ _)
          refine Keeps.trans ?_ (State.portCount_keeps _ _ _ _)
          exact Keeps.refl _

theorem execPromotionAnnouncement_keeps (s) : OutAll (Keeps s) (execPromotionAnnouncement s) := by
  unfold execPromotionAnnouncement
  extract_lets x0 x1
  have k2 : Keeps s (x0) := by
    subst x0
    refine Keeps.foldl _ ?_ ?_
    · exact Keeps.refl _
    · intro a3 a4
      split
      · rename_i y5 y6 y7
        split
        · rename_i y8
          refine Keeps.foldl _ ?_ ?_
          · exact Keeps.refl _
          · intro a9 a10
            refine Keeps.trans ?_ (State.transmit_keeps _ _ _)
            exact Keeps.refl _
        · rename_i y11
          exact Keeps.refl _
      · rename_i y12 y13
        exact Keeps.refl _
  clear_value x0
  clear_value x1
  refine OutAll.intro ?_
  split
  · rename_i y14
    exact Keeps.refl _
  · rename_i y15
    refine Keeps.set_fabric ?_
    exact k2

theorem State.updQp_keeps (s) (k) (f) : Keeps s (State.updQp s k f) := by
  unfold State.updQp
  extract_lets x0
  clear_value x0
  refine Keeps.set_stylus ?_
  exact Keeps.refl _

theorem State.backingLines_keeps (s) (k) : Keeps s (State.backingLines s k) := by
  unfold State.backingLines
  refine Keeps.foldl _ ?_ ?_
  · exact Keeps.refl _
  · intro a0 a1
    refine Keeps.trans ?_ (State.hostLine_keeps _ _)
    exact Keeps.refl _

theorem State.storeQp_keeps (s) (k) : Keeps s (State.storeQp s k) := by
  unfold State.storeQp
  split
  · rename_i y0 y1 y2 y3
    have k5 := Keeps.of_snd (State.draw_keeps _ _) y3
    refine Keeps.trans ?_ (State.physWrite_keeps _ _ _)
    refine Keeps.trans ?_ (State.backingLines_keeps _ _)
    exact k5

theorem State.useQp_keeps (s) (k) : Keeps s (State.useQp s k) := by
  unfold State.useQp
  extract_lets x0 x1 x2
  clear_value x0
  clear_value x1
  clear_value x2
  split
  · rename_i y3
    refine Keeps.set_stylus ?_
    exact Keeps.refl _
  · rename_i y4 y5
    refine Keeps.trans ?_ (State.storeQp_keeps _ _)
    refine Keeps.set_stylus ?_
    exact Keeps.refl _

theorem State.bringQp_keeps (s) (k) : Keeps s (State.bringQp s k) := by
  unfold State.bringQp
  split
  · rename_i y0
    refine Keeps.trans ?_ (State.useQp_keeps _ _)
    exact Keeps.refl _
  · rename_i y1
    refine Keeps.trans ?_ (State.backingLines_keeps _ _)
    refine Keeps.trans ?_ (State.useQp_keeps _ _)
    exact Keeps.refl _

theorem execQpCreate_keeps (p) (s) : OutAll (Keeps s) (execQpCreate p s) := by
  unfold execQpCreate
  refine OutAll.intro ?_
  refine Keeps.trans ?_ (State.forOp_keeps _ _ _ _ ?_)
  · exact Keeps.refl _
  · refine Keeps.trans ?_ (State.runNow_keeps _ _ _ ?_)
    · exact Keeps.refl _
    · intro a0 a1 a2
      extract_lets x3 x4 x5
      clear_value x3
      clear_value x4
      clear_value x5
      refine ExAll.bind_any (fun _ => trivial) ?_
      intro a6
      refine ExAll.of_pure ?_
      refine Keeps.fst ?_
      refine Keeps.trans ?_ (State.useQp_keeps _ _)
      refine Keeps.set_stylus ?_
      exact Keeps.refl _

theorem State.connectQp_keeps (s) (c) : ExAll (fun _ => True) (fun r => Keeps s ((r).1)) (State.connectQp s c) := by
  unfold State.connectQp
  extract_lets x0
  clear_value x0
  refine ExAll.bind_any (fun _ => trivial) ?_
  intro a1
  refine ExAll.of_pure ?_
  refine Keeps.fst ?_
  refine Keeps.trans ?_ (State.updQp_keeps _ _ _)
  exact Keeps.refl _

theorem execQpConnect_keeps (p) (s) : OutAll (Keeps s) (execQpConnect p s) := by
  unfold execQpConnect
  refine OutAll.intro ?_
  refine Keeps.trans ?_ (State.forOp_keeps _ _ _ _ ?_)
  · exact Keeps.refl _
  · split
    · rename_i y0
      refine Keeps.trans ?_ (State.runProof_keeps _ _ _ _ ?_)
      · exact Keeps.refl _
      · intro a1 a2 a3
        refine (State.connectQp_keeps _ _)
    · rename_i y4
      refine Keeps.trans ?_ (State.runNow_keeps _ _ _ ?_)
      · exact Keeps.refl _
      · intro a5 a6 a7
        refine (State.connectQp_keeps _ _)

theorem execQpQuery_keeps (p) (s) : OutAll (Keeps s) (execQpQuery p s) := by
  unfold execQpQuery
  refine OutAll.intro ?_
  refine Keeps.trans ?_ (State.forOp_keeps _ _ _ _ ?_)
  · exact Keeps.refl _
  · refine Keeps.trans ?_ (State.runNow_keeps _ _ _ ?_)
    · exact Keeps.refl _
    · intro a0 a1 a2
      refine ExAll.bind_any (fun _ => trivial) ?_
      intro a3
      refine ExAll.bind_any (fun _ => trivial) ?_
      intro a4
      refine ExAll.of_pure ?_
      refine Keeps.fst ?_
      exact Keeps.refl _

theorem State.finishPost_keeps (s) (who) (e) : Keeps s (State.finishPost s who e) := by
  unfold State.finishPost
  refine Keeps.trans ?_ (State.updCmd_keeps _ _ _ _)
  exact Keeps.refl _

theorem execQpDestroy_keeps (p) (s) : OutAll (Keeps s) (execQpDestroy p s) := by
  unfold execQpDestroy
  extract_lets x0
  clear_value x0
  refine OutAll.intro ?_
  refine Keeps.trans ?_ (State.forOp_keeps _ _ _ _ ?_)
  · exact Keeps.refl _
  · refine Keeps.trans ?_ (State.runNow_keeps _ _ _ ?_)
    · exact Keeps.refl _
    · intro a1 a2 a3
      refine ExAll.bind_any (fun _ => trivial) ?_
      intro a4
      extract_lets x5 x6
      have k7 : Keeps a1 (x5) := by
        subst x5
        refine Keeps.foldl _ ?_ ?_
        · exact Keeps.refl _
        · intro a8 a9
          refine Keeps.trans ?_ (State.finishPost_keeps _ _ _)
          exact Keeps.refl _
      clear_value x5
      clear_value x6
      refine ExAll.bind_any (fun _ => trivial) ?_
      intro a10
      refine ExAll.of_pure ?_
      refine Keeps.fst ?_
      refine Keeps.set_stylus ?_
      exact k7

theorem State.acceptSend_keeps (s) (k) (r) : Keeps s (State.acceptSend s k r) := by
  unfold State.acceptSend
  refine Keeps.trans ?_ (State.updQp_keeps _ _ _)
  exact Keeps.refl _

theorem State.postHeld_keeps (s) (k) (cmd) (tag) (data) : Keeps s (State.postHeld s k cmd tag data) := by
  unfold State.postHeld
  refine Keeps.trans ?_ (State.acceptSend_keeps _ _ _)
  exact Keeps.refl _

theorem State.arm_keeps (s) (n) (p) : Keeps s (State.arm s n p) := by
  unfold State.arm
  extract_lets x0 x1 x2 x3 x4 x5
  clear_value x0
  clear_value x2
  clear_value x3
  have k6 : Keeps s (x4) := by
    subst x4
    split
    · rename_i y7
      refine Keeps.trans ?_ (State.updCtx_keeps _ _ _)
      exact Keeps.refl _
    · rename_i y8
      exact Keeps.refl _
  clear_value x4
  clear_value x5
  refine Keeps.trans ?_ (State.updQp_keeps _ _ _)
  exact k6

theorem State.postNow_keeps (s) (c) : Keeps s (State.postNow s c) := by
  unfold State.postNow
  extract_lets x0 x1 x2 x3
  clear_value x0
  clear_value x1
  clear_value x2
  have k4 : Keeps s (x3) := by
    subst x3
    refine Keeps.trans ?_ (State.useQp_keeps _ _)
    refine Keeps.trans ?_ (State.begin_keeps _ _ _)
    exact Keeps.refl _
  clear_value x3
  split
  · rename_i y5
    refine Keeps.trans ?_ (State.updQp_keeps _ _ _)
    exact k4
  · rename_i y6
    split
    · rename_i y7
      refine Keeps.trans ?_ (State.acceptSend_keeps _ _ _)
      exact k4
    · rename_i y8
      refine Keeps.trans ?_ (State.arm_keeps _ _ _)
      exact k4

theorem State.startPost_keeps (s) (c) (chk) : Keeps s (State.startPost s c chk) := by
  unfold State.startPost
  split
  · rename_i y0 y1
    refine Keeps.trans ?_ (State.finish_keeps _ _ _)
    exact Keeps.refl _
  · rename_i y2 y3
    split
    · rename_i y4
      exact Keeps.refl _
    · rename_i y5
      split
      · rename_i y6
        refine Keeps.trans ?_ (State.postNow_keeps _ _)
        exact Keeps.refl _
      · rename_i y7
        refine Keeps.trans ?_ (State.begin_keeps _ _ _)
        exact Keeps.refl _

theorem execPostRecv_keeps (p) (s) : OutAll (Keeps s) (execPostRecv p s) := by
  unfold execPostRecv
  refine OutAll.intro ?_
  refine Keeps.trans ?_ (State.forOp_keeps _ _ _ _ ?_)
  · exact Keeps.refl _
  · split
    · rename_i y0 y1
      exact Keeps.refl _
    · rename_i y2 y3 y4
      split
      · rename_i y5 y6
        exact Keeps.refl _
      · rename_i y7 y8 y9
        refine Keeps.trans ?_ (State.startPost_keeps _ _ _)
        exact Keeps.refl _

theorem execPostSend_keeps (p) (s) : OutAll (Keeps s) (execPostSend p s) := by
  unfold execPostSend
  refine OutAll.intro ?_
  refine Keeps.trans ?_ (State.forOp_keeps _ _ _ _ ?_)
  · exact Keeps.refl _
  · split
    · rename_i y0 y1
      exact Keeps.refl _
    · rename_i y2 y3 y4
      split
      · rename_i y5 y6
        exact Keeps.refl _
      · rename_i y7 y8 y9
        refine Keeps.trans ?_ (State.startPost_keeps _ _ _)
        exact Keeps.refl _

theorem execPostInk_keeps (p) (s) : OutAll (Keeps s) (execPostInk p s) := by
  unfold execPostInk
  refine OutAll.intro ?_
  refine Keeps.trans ?_ (State.forOp_keeps _ _ _ _ ?_)
  · exact Keeps.refl _
  · split
    · rename_i y0 y1
      exact Keeps.refl _
    · rename_i y2 y3 y4
      split
      · rename_i y5 y6
        exact Keeps.refl _
      · rename_i y7 y8 y9
        refine Keeps.trans ?_ (State.startPost_keeps _ _ _)
        exact Keeps.refl _

theorem execTriggerFire_keeps (qp) (s) : OutAll (Keeps s) (execTriggerFire qp s) := by
  unfold execTriggerFire
  refine OutAll.intro ?_
  split
  · rename_i y0 y1
    exact Keeps.refl _
  · rename_i y2 y3 y4
    split
    · rename_i y5 y6
      exact Keeps.refl _
    · rename_i y7 y8 y9
      split
      · rename_i y10 y11
        exact Keeps.refl _
      · rename_i y12 y13 y14
        refine Keeps.trans ?_ (State.acceptSend_keeps _ _ _)
        refine Keeps.trans ?_ (State.bringQp_keeps _ _)
        refine Keeps.trans ?_ (State.updQp_keeps _ _ _)
        exact Keeps.refl _

theorem execTriggerTimeout_keeps (qp) (s) : OutAll (Keeps s) (execTriggerTimeout qp s) := by
  unfold execTriggerTimeout
  refine OutAll.intro ?_
  split
  · rename_i y0 y1
    exact Keeps.refl _
  · rename_i y2 y3 y4
    split
    · rename_i y5 y6
      exact Keeps.refl _
    · rename_i y7 y8 y9
      refine Keeps.trans ?_ (State.logEvent_keeps _ _ _ _ _ _ _)
      refine Keeps.trans ?_ (State.finishPost_keeps _ _ _)
      refine Keeps.trans ?_ (State.updQp_keeps _ _ _)
      exact Keeps.refl _

theorem State.drainTransit_keeps (s) (p) (b2) (b3) : Keeps s (State.drainTransit s p b2 b3) := by
  induction b2 generalizing s p b3
  · rw [State.drainTransit]
    exact Keeps.refl _
  · rename_i y0 y1 ih2
    rw [State.drainTransit]
    split
    · rename_i y3
      extract_lets x4
      clear_value x4
      refine Keeps.trans ?_ (ih2 _ _ _)
      refine Keeps.trans ?_ (State.transmit_keeps _ _ _)
      refine Keeps.trans ?_ (State.updPort_keeps _ _ _)
      exact Keeps.refl _
    · rename_i y5
      refine Keeps.trans ?_ (ih2 _ _ _)
      exact Keeps.refl _

theorem State.portLane_keeps (s) (p) (now) : Keeps s (State.portLane s p now) := by
  unfold State.portLane
  refine Keeps.trans ?_ (State.drainTransit_keeps _ _ _ _)
  exact Keeps.refl _

theorem State.launch_keeps (s) (k) (q) (e) (port) (now) (pkt) (done) (hk0 : ∀ z0, Keeps z0 (done z0)) : Keeps s (State.launch s k q e port now pkt done) := by
  unfold State.launch
  extract_lets x0
  clear_value x0
  split
  · rename_i y1
    refine Keeps.trans ?_ (State.portLane_keeps _ _ _)
    refine Keeps.trans ?_ (hk0 _)
    refine Keeps.trans ?_ (State.sendPacket_keeps _ _ _ _ _)
    refine Keeps.trans ?_ (State.useQp_keeps _ _)
    exact Keeps.refl _
  · rename_i y2
    exact Keeps.refl _

theorem State.readPayload_keeps (s) (n) (r) (off) (len) : ExAll (fun _ => True) (fun r => Keeps s (r).2) (State.readPayload s n r off len) := by
  unfold State.readPayload
  split
  · rename_i y0 y1
    refine ExAll.intro ?_
    refine Keeps.snd ?_
    exact Keeps.refl _
  · rename_i y2 y3 y4
    split
    · rename_i y5 y6 y7 y8
      have k13 := ExAll.of_error (State.touch_keeps _ _ _ _ _ _ _) y8
      refine ExAll.intro_error ?_
      trivial
    · rename_i y14 y15 y16
      have k20 := ExAll.of (State.touch_keeps _ _ _ _ _ _ _) y16
      split
      · rename_i y21 y22 y23
        refine ExAll.intro_error ?_
        trivial
      · rename_i y24 y25
        refine ExAll.intro ?_
        refine Keeps.snd ?_
        exact k20

theorem State.sendFresh_keeps (s) (k) (q) (e) (port) (now) (r0) : Keeps s (State.sendFresh s k q e port now r0) := by
  unfold State.sendFresh
  extract_lets x0 x1 x2 x3 x4 x5
  clear_value x0
  clear_value x1
  clear_value x2
  have k6 : ExAll (fun _ => True) (fun r => Keeps s (r).2) (x3) := by
    subst x3
    split
    · rename_i y7
      refine ExAll.intro ?_
      refine Keeps.snd ?_
      exact Keeps.refl _
    · rename_i y8
      refine (State.readPayload_keeps _ _ _ _ _)
  clear_value x3
  clear_value x4
  have k9 : Keeps s x5 := by
    subst x5
    refine Keeps.trans ?_ (State.updQp_keeps _ _ _)
    exact Keeps.refl _
  clear_value x5
  split
  · rename_i y10
    split
    · rename_i y11 y12 y13
      refine Keeps.trans ?_ (State.updCmd_keeps _ _ _ _)
      exact Keeps.refl _
    · rename_i y14 y15
      exact Keeps.refl _
  · rename_i y16
    split
    · rename_i y17 y18 y19 y20
      split
      · rename_i y21 y22 y23
        split
        · rename_i y24 y25
          refine Keeps.trans ?_ (State.mediaFault_keeps _ _ _ _ _ _ _)
          exact k9
        · rename_i y26
          refine Keeps.trans ?_ (State.engineFault_keeps _ _ _ _ _ _ _ _)
          exact k9
      · rename_i y27 y28
        exact k9
    · rename_i y29 y30 y31
      extract_lets x32 x33
      clear_value x32
      clear_value x33
      refine Keeps.trans ?_ (State.launch_keeps _ _ _ _ _ _ _ _ ?_)
      · exact k6
      · intro a34
        refine Keeps.trans ?_ (State.updQp_keeps _ _ _)
        exact Keeps.refl _

theorem State.sendAgain_keeps (s) (k) (q) (e) (port) (now) (b6) : Keeps s (State.sendAgain s k q e port now b6) := by
  unfold State.sendAgain
  refine Keeps.trans ?_ (State.launch_keeps _ _ _ _ _ _ _ _ ?_)
  · exact Keeps.refl _
  · intro a0
    extract_lets x1
    have k2 : Keeps a0 (x1) := by
      subst x1
      refine Keeps.trans ?_ (State.updQp_keeps _ _ _)
      exact Keeps.refl _
    clear_value x1
    refine Keeps.trans ?_ (State.updCtx_keeps _ _ _)
    refine Keeps.trans ?_ (State.portCount_keeps _ _ _ _)
    exact k2

theorem State.sendAck_keeps (s) (k) (q) (e) (port) (now) : Keeps s (State.sendAck s k q e port now) := by
  unfold State.sendAck
  split
  · rename_i y0 y1
    exact Keeps.refl _
  · rename_i y2 y3 y4 y5 y6 y7
    extract_lets x8
    clear_value x8
    refine Keeps.trans ?_ (State.launch_keeps _ _ _ _ _ _ _ _ ?_)
    · exact Keeps.refl _
    · intro a9
      refine Keeps.trans ?_ (State.updQp_keeps _ _ _)
      exact Keeps.refl _

theorem execPacketSend_keeps (qp) (now) (s) : OutAll (Keeps s) (execPacketSend qp now s) := by
  unfold execPacketSend
  refine OutAll.intro ?_
  split
  · rename_i y0 y1
    exact Keeps.refl _
  · rename_i y2 y3 y4
    split
    · rename_i y5
      exact Keeps.refl _
    · rename_i y6
      split
      · rename_i y7 y8 y9 y10 y11 y12
        split
        · rename_i y13 y14
          exact Keeps.refl _
        · rename_i y15 y16 y17
          split
          · rename_i y18
            refine Keeps.trans ?_ (State.sendAck_keeps _ _ _ _ _ _)
            exact Keeps.refl _
          · rename_i y19 y20
            refine Keeps.trans ?_ (State.sendAgain_keeps _ _ _ _ _ _ _)
            exact Keeps.refl _
          · rename_i y21 y22
            refine Keeps.trans ?_ (State.sendFresh_keeps _ _ _ _ _ _ _)
            exact Keeps.refl _
      · rename_i y23 y24 y25
        exact Keeps.refl _

theorem State.sendTransit_keeps (s) (p) (e) (cls) (pkt) (now) : Keeps s (State.sendTransit s p e cls pkt now) := by
  unfold State.sendTransit
  split
  · rename_i y0 y1 y2 y3
    have k5 := Keeps.of_snd (State.frameFor_keeps _ _ _ _ _) y3
    refine Keeps.trans ?_ (State.portLane_keeps _ _ _)
    refine Keeps.trans ?_ (State.updPort_keeps _ _ _)
    exact k5

theorem State.transit_keeps (s) (port) (packet) (now) : Keeps s (State.transit s port packet now) := by
  unfold State.transit
  split
  · rename_i y0 y1
    exact Keeps.refl _
  · rename_i y2 y3 y4
    extract_lets x5 x6 x7 x8 x9
    clear_value x5
    clear_value x6
    clear_value x7
    clear_value x8
    have k10 : Keeps s x9 := by
      subst x9
      refine Keeps.trans ?_ (State.portCount_keeps _ _ _ _)
      exact Keeps.refl _
    clear_value x9
    split
    · rename_i y11
      exact Keeps.refl _
    · rename_i y12
      split
      · rename_i y13
        exact k10
      · rename_i y14
        split
        · rename_i y15
          split
          · rename_i y16 y17 y18
            split
            · rename_i y19
              refine Keeps.trans ?_ (State.sendTransit_keeps _ _ _ _ _ _)
              exact Keeps.refl _
            · rename_i y20
              exact k10
          · rename_i y21 y22
            exact k10
        · rename_i y23
          split
          · rename_i y24 y25
            exact k10
          · rename_i y26 y27 y28
            split
            · rename_i y29 y30 y31 y32
              refine Keeps.trans ?_ (State.sendTransit_keeps _ _ _ _ _ _)
              exact Keeps.refl _
            · rename_i y33 y34
              split
              · rename_i y35
                refine Keeps.trans ?_ (State.sendTransit_keeps _ _ _ _ _ _)
                exact Keeps.refl _
              · rename_i y36
                exact k10

theorem execTransitForward_keeps (port) (packet) (s) : OutAll (Keeps s) (execTransitForward port packet s) := by
  unfold execTransitForward
  exact OutAll.intro (State.transit_keeps _ _ _ _)

theorem execSlotOpen_keeps (port) (slot) (s) : OutAll (Keeps s) (execSlotOpen port slot s) := by
  unfold execSlotOpen
  refine OutAll.intro ?_
  split
  · rename_i y0 y1
    exact Keeps.refl _
  · rename_i y2 y3 y4
    split
    · rename_i y5 y6 y7
      split
      · rename_i y8
        refine Keeps.trans ?_ (State.portLane_keeps _ _ _)
        refine Keeps.trans ?_ (State.updPort_keeps _ _ _)
        exact Keeps.refl _
      · rename_i y9
        exact Keeps.refl _
    · rename_i y10 y11
      exact Keeps.refl _

theorem State.updLedger_keeps (s) (n) (f) : Keeps s (State.updLedger s n f) := by
  unfold State.updLedger
  refine Keeps.trans ?_ (State.updCtx_keeps _ _ _)
  exact Keeps.refl _

theorem State.vput_keeps (s) (n) (va) (bs) : Keeps s (State.vput s n va bs) := by
  unfold State.vput
  refine Keeps.trans ?_ (State.vwrite_keeps _ _ _ _ _)
  exact Keeps.refl _

theorem State.putTensors_keeps (s) (n) (l) (ts) : Keeps s (State.putTensors s n l ts) := by
  unfold State.putTensors
  refine Keeps.trans ?_ (State.vput_keeps _ _ _ _)
  exact Keeps.refl _

theorem State.interval_keeps (s) (n) (l) : Keeps s (State.interval s n l) := by
  unfold State.interval
  extract_lets x0 x1 x2 x3
  clear_value x0
  clear_value x1
  clear_value x2
  clear_value x3
  split
  · rename_i y4 y5
    refine Keeps.trans ?_ (State.vput_keeps _ _ _ _)
    exact Keeps.refl _
  · rename_i y6 y7 y8 y9 y10
    extract_lets x11 x12 x13 x14
    clear_value x11
    clear_value x12
    clear_value x13
    clear_value x14
    refine Keeps.trans ?_ (State.vput_keeps _ _ _ _)
    exact Keeps.refl _

theorem State.ledgerFlag_keeps (s) (n) (step) (mask) : Keeps s (State.ledgerFlag s n step mask) := by
  unfold State.ledgerFlag
  split
  · rename_i y0 y1 y2
    extract_lets x3
    clear_value x3
    split
    · rename_i y4
      refine Keeps.trans ?_ (State.vput_keeps _ _ _ _)
      exact Keeps.refl _
    · rename_i y5
      exact Keeps.refl _
  · rename_i y6 y7
    exact Keeps.refl _

theorem State.keepChoices_keeps (s) (n) (va) (entry) (layers) : Keeps s (State.keepChoices s n va entry layers) := by
  unfold State.keepChoices
  refine Keeps.foldl _ ?_ ?_
  · exact Keeps.refl _
  · intro a0 a1
    refine Keeps.trans ?_ (State.vput_keeps _ _ _ _)
    exact Keeps.refl _

theorem State.openEntry_keeps (s) (n) (step) (byAdmission) : Keeps s (State.openEntry s n step byAdmission) := by
  unfold State.openEntry
  split
  · rename_i y0 y1
    exact Keeps.refl _
  · rename_i y2 y3 y4
    split
    · rename_i y5 y6
      exact Keeps.refl _
    · rename_i y7 y8 y9
      split
      · rename_i y10
        exact Keeps.refl _
      · rename_i y11
        extract_lets x12 x13 x14 x15 x16 x17 x18 x19
        clear_value x12
        clear_value x13
        have k20 : Keeps s x14 := by
          subst x14
          refine Keeps.trans ?_ (State.vput_keeps _ _ _ _)
          exact Keeps.refl _
        clear_value x14
        clear_value x15
        have k21 : Keeps s x16 := by
          subst x16
          refine Keeps.trans ?_ (State.updLedger_keeps _ _ _)
          exact k20
        clear_value x16
        clear_value x17
        have k22 : Keeps s x18 := by
          subst x18
          refine Keeps.trans ?_ (State.vput_keeps _ _ _ _)
          exact k21
        clear_value x18
        have k23 : Keeps s x19 := by
          subst x19
          split
          · rename_i y24 y25 y26
            split
            · rename_i y27
              refine Keeps.trans ?_ (State.keepChoices_keeps _ _ _ _ _)
              exact k22
            · rename_i y28
              exact k22
          · rename_i y29 y30
            exact k22
        clear_value x19
        split
        · rename_i y31
          refine Keeps.trans ?_ (State.ledgerFlag_keeps _ _ _ _)
          exact k23
        · rename_i y32
          exact k23

theorem State.layerDigests_keeps (s) (n) (l) (va) : Keeps s (State.layerDigests s n l va) := by
  unfold State.layerDigests
  extract_lets x0
  clear_value x0
  refine Keeps.foldl _ ?_ ?_
  · exact Keeps.refl _
  · intro a1 a2
    extract_lets x3
    clear_value x3
    split
    · rename_i y4
      exact Keeps.refl _
    · rename_i y5
      refine Keeps.trans ?_ (State.vput_keeps _ _ _ _)
      exact Keeps.refl _

theorem State.closeVerified_keeps (s) (n) (step) (l) : Keeps s (State.closeVerified s n step l) := by
  unfold State.closeVerified
  split
  · rename_i y0 y1 y2 y3
    have k4 : Keeps _ y2 := Keeps.of_snd (State.drawNs_keeps _) y3
    extract_lets x5 x6 x7 x8 x9 x10
    clear_value x5
    have k11 : Keeps s (x6) := by
      subst x6
      refine Keeps.trans ?_ (State.putTensors_keeps _ _ _ _)
      exact k4
    clear_value x6
    have k12 : Keeps s (x7) := by
      subst x7
      refine Keeps.trans ?_ (State.vput_keeps _ _ _ _)
      exact k11
    clear_value x7
    clear_value x8
    clear_value x9
    have k13 : Keeps s (x10) := by
      subst x10
      split
      · rename_i y14
        refine Keeps.trans ?_ (State.interval_keeps _ _ _)
        exact k12
      · rename_i y15
        refine Keeps.trans ?_ k12
        exact Keeps.refl _
    clear_value x10
    refine Keeps.trans ?_ (State.updLedger_keeps _ _ _)
    exact k13

theorem State.closeEntry_keeps (s) (n) (step) : Keeps s (State.closeEntry s n step) := by
  unfold State.closeEntry
  split
  · rename_i y0 y1
    exact Keeps.refl _
  · rename_i y2 y3 y4
    split
    · rename_i y5 y6
      exact Keeps.refl _
    · rename_i y7 y8 y9
      split
      · rename_i y10
        exact Keeps.refl _
      · rename_i y11
        extract_lets x12 x13 x14 x15 x16 x17 x18 x19 x20 x21 x22 x23 x24
        clear_value x12
        have k25 : Keeps s x13 := by
          subst x13
          split
          · rename_i y26
            refine Keeps.trans ?_ (State.ledgerFlag_keeps _ _ _ _)
            exact Keeps.refl _
          · rename_i y27
            exact Keeps.refl _
        clear_value x13
        clear_value x14
        clear_value x15
        clear_value x16
        have k28 : Keeps s x17 := by
          subst x17
          split
          · rename_i y29
            refine Keeps.trans ?_ (State.layerDigests_keeps _ _ _ _)
            exact k25
          · rename_i y30
            exact k25
        clear_value x17
        have k31 : Keeps s x18 := by
          subst x18
          refine Keeps.trans ?_ (State.vput_keeps _ _ _ _)
          exact k28
        clear_value x18
        have k32 : Keeps s x19 := by
          subst x19
          refine Keeps.trans ?_ (State.vput_keeps _ _ _ _)
          exact k31
        clear_value x19
        clear_value x20
        clear_value x21
        have k33 : Keeps s x22 := by
          subst x22
          refine Keeps.trans ?_ (State.vput_keeps _ _ _ _)
          exact k32
        clear_value x22
        have k34 : Keeps s x23 := by
          subst x23
          split
          · rename_i y35 y36 y37
            split
            · rename_i y38
              refine Keeps.trans ?_ (State.vput_keeps _ _ _ _)
              exact k33
            · rename_i y39
              exact k33
          · rename_i y40 y41
            exact k33
        clear_value x23
        have k42 : Keeps s x24 := by
          subst x24
          split
          · rename_i y43
            refine Keeps.trans ?_ (State.closeVerified_keeps _ _ _ _)
            exact k34
          · rename_i y44
            exact k34
        clear_value x24
        refine Keeps.trans ?_ (State.updLedger_keeps _ _ _)
        exact k42

theorem State.noteWrites_keeps (s) (n) (p) : Keeps s (State.noteWrites s n p) := by
  unfold State.noteWrites
  extract_lets x0
  clear_value x0
  split
  · rename_i y1 y2
    exact Keeps.refl _
  · rename_i y3 y4 y5
    extract_lets x6
    clear_value x6
    refine Keeps.trans ?_ (State.updLedger_keeps _ _ _)
    exact Keeps.refl _

theorem State.noteAdmission_keeps (s) (n) (p) : Keeps s (State.noteAdmission s n p) := by
  unfold State.noteAdmission
  split
  · rename_i y0
    exact Keeps.refl _
  · rename_i y1
    extract_lets x2 x3 x4 x5
    clear_value x2
    have k6 : Keeps s x3 := by
      subst x3
      refine Keeps.foldl _ ?_ ?_
      · exact Keeps.refl _
      · intro a7 a8
        split
        · rename_i y9
          refine Keeps.trans ?_ (State.closeEntry_keeps _ _ _)
          exact Keeps.refl _
        · rename_i y10
          exact Keeps.refl _
    clear_value x3
    have k11 : Keeps s x4 := by
      subst x4
      refine Keeps.trans ?_ (State.openEntry_keeps _ _ _ _)
      exact k6
    clear_value x4
    clear_value x5
    split
    · rename_i y12 y13 y14 y15 y16 y17
      extract_lets x18 x19 x20
      clear_value x18
      clear_value x19
      clear_value x20
      split
      · rename_i y21 y22 y23 y24
        have k26 := Keeps.of_snd (State.drawNs_keeps _) y24
        extract_lets x27 x28 x29 x30 x31 x32
        have k33 : Keeps s x27 := by
          subst x27
          split
          · rename_i y34
            refine Keeps.trans ?_ (State.vput_keeps _ _ _ _)
            refine Keeps.trans ?_ (State.vput_keeps _ _ _ _)
            refine Keeps.trans ?_ (State.updLedger_keeps _ _ _)
            refine Keeps.trans ?_ k26
            exact k11
          · rename_i y35
            refine Keeps.trans ?_ k26
            exact k11
        clear_value x27
        have k36 : Keeps s x28 := by
          subst x28
          refine Keeps.trans ?_ (State.vput_keeps _ _ _ _)
          exact k33
        clear_value x28
        have k37 : Keeps s x29 := by
          subst x29
          refine Keeps.trans ?_ (State.vput_keeps _ _ _ _)
          exact k36
        clear_value x29
        have k38 : Keeps s x30 := by
          subst x30
          split
          · rename_i y39
            refine Keeps.trans ?_ (State.ledgerFlag_keeps _ _ _ _)
            exact k37
          · rename_i y40
            exact k37
        clear_value x30
        have k41 : Keeps s x31 := by
          subst x31
          refine Keeps.trans ?_ (State.updLedger_keeps _ _ _)
          exact k38
        clear_value x31
        have k42 : Keeps s x32 := by
          subst x32
          split
          · rename_i y43
            refine Keeps.trans ?_ (State.ledgerFlag_keeps _ _ _ _)
            exact k41
          · rename_i y44
            exact k41
        clear_value x32
        split
        · rename_i y45
          refine Keeps.trans ?_ (State.ledgerFlag_keeps _ _ _ _)
          exact k42
        · rename_i y46
          exact k42
    · rename_i y47 y48 y49
      exact k11

theorem State.staleResult_keeps (s) (n) (step) : Keeps s (State.staleResult s n step) := by
  unfold State.staleResult
  split
  · rename_i y0 y1 y2
    extract_lets x3
    clear_value x3
    split
    · rename_i y4
      refine Keeps.trans ?_ (State.vput_keeps _ _ _ _)
      exact Keeps.refl _
    · rename_i y5
      exact Keeps.refl _
  · rename_i y6 y7
    exact Keeps.refl _

theorem State.recordXp_keeps (s) (n) (step) (group) (bucket) (xp) : Keeps s (State.recordXp s n step group bucket xp) := by
  unfold State.recordXp
  split
  · rename_i y0 y1 y2
    extract_lets x3 x4
    clear_value x3
    clear_value x4
    split
    · rename_i y5
      exact Keeps.refl _
    · rename_i y6
      split
      · rename_i y7
        exact Keeps.refl _
      · rename_i y8
        split
        · rename_i y9
          refine Keeps.trans ?_ (State.vput_keeps _ _ _ _)
          refine Keeps.trans ?_ (State.vput_keeps _ _ _ _)
          exact Keeps.refl _
        · rename_i y10
          refine Keeps.trans ?_ (State.ledgerFlag_keeps _ _ _ _)
          exact Keeps.refl _
  · rename_i y11 y12
    exact Keeps.refl _

theorem State.writeDecision_keeps (s) (n) (st) (p) : Keeps s (State.writeDecision s n st p) := by
  unfold State.writeDecision
  extract_lets x0
  have k1 : Keeps s (x0) := by
    subst x0
    refine Keeps.trans ?_ (State.openEntry_keeps _ _ _ _)
    exact Keeps.refl _
  clear_value x0
  split
  · rename_i y2 y3 y4
    refine Keeps.trans ?_ (State.vput_keeps _ _ _ _)
    exact k1
  · rename_i y5 y6
    exact k1

theorem State.decideLayer_keeps (s) (n) (st) : Keeps s (State.decideLayer s n st) := by
  unfold State.decideLayer
  split
  · rename_i y0 y1
    exact Keeps.refl _
  · rename_i y2 y3 y4
    extract_lets x5 x6 x7
    clear_value x5
    clear_value x6
    clear_value x7
    split
    · rename_i y8
      exact Keeps.refl _
    · rename_i y9
      refine Keeps.trans ?_ (State.writeDecision_keeps _ _ _ _)
      refine Keeps.trans ?_ (State.updCtx_keeps _ _ _)
      exact Keeps.refl _

theorem State.decideLayers_keeps (s) (n) : Keeps s (State.decideLayers s n) := by
  unfold State.decideLayers
  split
  · rename_i y0 y1
    exact Keeps.refl _
  · rename_i y2 y3 y4
    extract_lets x5 x6
    clear_value x5
    have k7 : Keeps s x6 := by
      subst x6
      refine Keeps.foldl _ ?_ ?_
      · exact Keeps.refl _
      · intro a8 a9
        refine Keeps.trans ?_ (State.decideLayer_keeps _ _ _)
        exact Keeps.refl _
    clear_value x6
    refine Keeps.trans ?_ (State.updCtx_keeps _ _ _)
    exact k7

theorem execGradPolicy_keeps (p) (s) : OutAll (Keeps s) (execGradPolicy p s) := by
  unfold execGradPolicy
  refine OutAll.intro ?_
  refine Keeps.trans ?_ (State.forOp_keeps _ _ _ _ ?_)
  · exact Keeps.refl _
  · refine Keeps.trans ?_ (State.runReach_keeps _ _ _ _ _ _ ?_)
    · exact Keeps.refl _
    · intro a0 a1 a2
      extract_lets x3
      clear_value x3
      refine ExAll.bind_any (fun _ => trivial) ?_
      intro a4
      refine ExAll.bind_any (fun _ => trivial) ?_
      intro a5
      split
      · rename_i y6 y7 y8
        refine ExAll.intro_error ?_
        trivial
      · rename_i y9 y10 y11
        refine ExAll.of_pure ?_
        refine Keeps.fst ?_
        refine Keeps.trans ?_ (State.updCtx_keeps _ _ _)
        exact Keeps.refl _

end Sys2Proof.Machine
end

