-- ==== Sys2Proof/Laws/KeepsCrosshatch.lean ====
section
/-! SUPPORT. What Crosshatch and what arrives at Stylus keep: one lemma for each operation that answers a state. -/

namespace Sys2Proof.Machine

open Sys2Proof

theorem State.takeMsg_keeps (s) (k) (status) : Keeps s (State.takeMsg s k status) := by
  unfold State.takeMsg
  split
  · rename_i y0 y1
    exact Keeps.refl _
  · rename_i y2 y3 y4
    refine Keeps.trans ?_ (State.updQp_keeps _ _ _)
    exact Keeps.refl _

theorem State.rnrMsg_keeps (s) (k) : Keeps s (State.rnrMsg s k) := by
  unfold State.rnrMsg
  split
  · rename_i y0 y1
    exact Keeps.refl _
  · rename_i y2 y3 y4
    extract_lets x5 x6
    clear_value x5
    clear_value x6
    refine Keeps.trans ?_ (State.updQp_keeps _ _ _)
    exact Keeps.refl _

theorem State.setBucket_keeps (s) (b) : Keeps s (State.setBucket s b) := by
  unfold State.setBucket
  refine Keeps.set_buckets ?_
  exact Keeps.refl _

theorem State.dropBucket_keeps (s) (k) : Keeps s (State.dropBucket s k) := by
  unfold State.dropBucket
  refine Keeps.set_buckets ?_
  exact Keeps.refl _

theorem State.xhWrite_keeps (s) (v) (itusk) (d) (i) (bs) : Keeps s (State.xhWrite s v itusk d i bs) := by
  unfold State.xhWrite
  refine Keeps.foldl_fst _ ?_ ?_
  · refine Keeps.fst ?_
    exact Keeps.refl _
  · intro a0 a1
    refine Keeps.fst ?_
    refine Keeps.trans ?_ (State.vwrite_keeps _ _ _ _ _)
    exact Keeps.refl _

theorem State.sendSeg_keeps (s) (j) (qp) (chunk) (phase) (index) (first) (count) (body) : Keeps s (State.sendSeg s j qp chunk phase index first count body) := by
  unfold State.sendSeg
  refine Keeps.trans ?_ (State.postHeld_keeps _ _ _ _ _)
  exact Keeps.refl _

theorem State.sendOwn_keeps (s) (j) : Keeps s (State.sendOwn s j) := by
  unfold State.sendOwn
  extract_lets x0
  clear_value x0
  split
  · rename_i y1
    split
    · rename_i y2 y3 y4 y5 y6
      refine Keeps.foldl _ ?_ ?_
      · exact Keeps.refl _
      · intro a7 a8
        refine Keeps.trans ?_ (State.sendSeg_keeps _ _ _ _ _ _ _ _ _)
        exact Keeps.refl _
    · rename_i y9 y10 y11
      exact Keeps.refl _
  · rename_i y12
    split
    · rename_i y13 y14 y15
      refine Keeps.foldl _ ?_ ?_
      · exact Keeps.refl _
      · intro a16 a17
        refine Keeps.trans ?_ (State.sendSeg_keeps _ _ _ _ _ _ _ _ _)
        exact Keeps.refl _
    · rename_i y18 y19
      exact Keeps.refl _

theorem State.sendAbort_keeps (s) (n) (step) (attempt) (rec) (skip) : Keeps s (State.sendAbort s n step attempt rec skip) := by
  unfold State.sendAbort
  split
  · rename_i y0 y1
    exact Keeps.refl _
  · rename_i y2 y3 y4
    refine Keeps.foldl _ ?_ ?_
    · exact Keeps.refl _
    · intro a5 a6
      refine Keeps.foldl _ ?_ ?_
      · exact Keeps.refl _
      · intro a7 a8
        split
        · rename_i y9
          exact Keeps.refl _
        · rename_i y10
          refine Keeps.trans ?_ (State.postHeld_keeps _ _ _ _ _)
          exact Keeps.refl _

theorem State.abortWaiting_keeps (s) (n) (step) : Keeps s (State.abortWaiting s n step) := by
  unfold State.abortWaiting
  extract_lets x0
  clear_value x0
  refine Keeps.set_cmds ?_
  exact Keeps.refl _

theorem State.stepAbort_keeps (s) (n) (step) (e) (rec) (group) (skip) : Keeps s (State.stepAbort s n step e rec group skip) := by
  unfold State.stepAbort
  extract_lets x0 x1 x2 x3
  clear_value x0
  have k4 : Keeps s (x1) := by
    subst x1
    refine Keeps.foldl _ ?_ ?_
    · exact Keeps.refl _
    · intro a5 a6
      split
      · rename_i y7 y8 y9
        split
        · rename_i y10 y11 y12
          exact Keeps.refl _
        · rename_i y13 y14 y15
          exact Keeps.refl _
        · rename_i y16 y17 y18
          refine Keeps.trans ?_ (State.finish_keeps _ _ _)
          exact Keeps.refl _
      · rename_i y19 y20
        exact Keeps.refl _
  clear_value x1
  have k21 : Keeps s (x2) := by
    subst x2
    refine Keeps.set_buckets ?_
    exact k4
  clear_value x2
  have k22 : Keeps s (x3) := by
    subst x3
    refine Keeps.trans ?_ (State.abortWaiting_keeps _ _ _)
    exact k21
  clear_value x3
  split
  · rename_i y23 y24
    exact Keeps.refl _
  · rename_i y25 y26 y27
    extract_lets x28 x29 x30 x31
    clear_value x28
    have k32 : Keeps s (x29) := by
      subst x29
      refine Keeps.trans ?_ (State.updCtx_keeps _ _ _)
      exact k22
    clear_value x29
    have k33 : Keeps s (x30) := by
      subst x30
      split
      · rename_i y34 y35 y36
        split
        · rename_i y37
          refine Keeps.trans ?_ (State.vput_keeps _ _ _ _)
          exact k32
        · rename_i y38
          refine Keeps.trans ?_ k32
          exact Keeps.refl _
      · rename_i y39 y40
        refine Keeps.trans ?_ k32
        exact Keeps.refl _
    clear_value x30
    have k41 : Keeps s (x31) := by
      subst x31
      refine Keeps.trans ?_ (State.logEvent_keeps _ _ _ _ _ _ _)
      exact k33
    clear_value x31
    refine Keeps.trans ?_ (State.sendAbort_keeps _ _ _ _ _ _)
    exact k41

theorem State.mismatch_keeps (s) (b) : Keeps s (State.mismatch s b) := by
  unfold State.mismatch
  refine Keeps.trans ?_ (State.stepAbort_keeps _ _ _ _ _ _ _)
  exact Keeps.refl _

theorem State.xhPeerLost_keeps (s) (n) (k) : Keeps s (State.xhPeerLost s n k) := by
  unfold State.xhPeerLost
  split
  · rename_i y0 y1
    exact Keeps.refl _
  · rename_i y2 y3 y4
    refine Keeps.foldl _ ?_ ?_
    · exact Keeps.refl _
    · intro a5 a6
      refine Keeps.trans ?_ (State.stepAbort_keeps _ _ _ _ _ _ _)
      exact Keeps.refl _

theorem State.mediaAbort_keeps (s) (n) (step) : Keeps s (State.mediaAbort s n step) := by
  unfold State.mediaAbort
  refine Keeps.trans ?_ (State.stepAbort_keeps _ _ _ _ _ _ _)
  exact Keeps.refl _

theorem State.xhTouch_keeps (s) (j) (write) (idx) : ExAll (fun r => Keeps s r) (fun r => Keeps s r) (State.xhTouch s j write idx) := by
  unfold State.xhTouch
  extract_lets x0 x1 x2
  clear_value x0
  clear_value x1
  subst x2
  split
  · rename_i y3 y4 y5 y6
    have k11 := ExAll.of_error (State.touchAll_keeps _ _ _ _ _) y6
    refine ExAll.intro_error ?_
    refine Keeps.trans ?_ (State.mediaAbort_keeps _ _ _)
    refine Keeps.trans ?_ (State.engineFault_keeps _ _ _ _ _ _ _ _)
    beta_reduce
    refine Keeps.trans ?_ (State.dropBucket_keeps _ _)
    exact Keeps.refl _
  · rename_i y12 y13 y14
    have k18 := ExAll.of (State.touchAll_keeps _ _ _ _ _) y14
    split
    · rename_i y19 y20 y21 y22
      refine ExAll.intro_error ?_
      refine Keeps.trans ?_ (State.mediaAbort_keeps _ _ _)
      refine Keeps.trans ?_ (State.mediaFault_keeps _ _ _ _ _ _ _)
      beta_reduce
      refine Keeps.trans ?_ (State.dropBucket_keeps _ _)
      exact k18
    · rename_i y23 y24
      refine ExAll.intro ?_
      exact k18

theorem State.verified_keeps (s) (j) (amax) : Keeps s (State.verified s j amax) := by
  unfold State.verified
  extract_lets x0 x1 x2 x3 x4 x5 x6 x7 x8
  clear_value x0
  clear_value x1
  clear_value x2
  clear_value x3
  clear_value x4
  have k9 : Keeps s (x5) := by
    subst x5
    split
    · rename_i y10
      exact Keeps.refl _
    · rename_i y11
      refine Keeps.trans ?_ (State.vput_keeps _ _ _ _)
      exact Keeps.refl _
  clear_value x5
  have k12 : Keeps s (x6) := by
    subst x6
    split
    · rename_i y13
      exact Keeps.refl _
    · rename_i y14
      refine Keeps.trans ?_ (State.vput_keeps _ _ _ _)
      exact k9
  clear_value x6
  have k15 : Keeps s (x7) := by
    subst x7
    refine Keeps.trans ?_ (State.finish_keeps _ _ _)
    refine Keeps.trans ?_ (State.dropBucket_keeps _ _)
    exact k12
  clear_value x7
  clear_value x8
  refine Keeps.trans ?_ (State.updCtx_keeps _ _ _)
  exact k15

theorem State.sendVerdict_keeps (s) (j) (down) (rec) : Keeps s (State.sendVerdict s j down rec) := by
  unfold State.sendVerdict
  refine Keeps.foldl _ ?_ ?_
  · exact Keeps.refl _
  · intro a0 a1
    refine Keeps.trans ?_ (State.postHeld_keeps _ _ _ _ _)
    exact Keeps.refl _

theorem State.decideLate_keeps (s) (b) : Keeps s (State.decideLate s b) := by
  unfold State.decideLate
  refine Keeps.trans ?_ (State.stepAbort_keeps _ _ _ _ _ _ _)
  exact Keeps.refl _

theorem State.tryVerdict_keeps (s) (j) : Keeps s (State.tryVerdict s j) := by
  unfold State.tryVerdict
  extract_lets x0 x1 x2 x3 x4 x5 x6
  clear_value x0
  clear_value x1
  clear_value x2
  clear_value x3
  clear_value x4
  clear_value x5
  clear_value x6
  split
  · rename_i y7
    exact Keeps.refl _
  · rename_i y8
    split
    · rename_i y9
      refine Keeps.trans ?_ (State.mismatch_keeps _ _)
      exact Keeps.refl _
    · rename_i y10
      split
      · rename_i y11
        split
        · rename_i y12
          refine Keeps.trans ?_ (State.verified_keeps _ _ _)
          refine Keeps.trans ?_ (State.sendVerdict_keeps _ _ _ _)
          exact Keeps.refl _
        · rename_i y13
          refine Keeps.trans ?_ (State.decideLate_keeps _ _)
          exact Keeps.refl _
      · rename_i y14
        refine Keeps.trans ?_ (State.sendVerdict_keeps _ _ _ _)
        refine Keeps.trans ?_ (State.setBucket_keeps _ _)
        exact Keeps.refl _

theorem State.joinVerdict_keeps (s) (j) : Keeps s (State.joinVerdict s j) := by
  unfold State.joinVerdict
  extract_lets x0 x1
  clear_value x0
  clear_value x1
  refine Keeps.trans ?_ (State.tryVerdict_keeps _ _)
  refine Keeps.trans ?_ (State.setBucket_keeps _ _)
  exact Keeps.refl _

theorem State.logEscapes_keeps (s) (b) : Keeps s (State.logEscapes s b) := by
  unfold State.logEscapes
  refine Keeps.trans ?_ (State.logEvent_keeps _ _ _ _ _ _ _)
  exact Keeps.refl _

theorem State.endPass_keeps (s) (j) : Keeps s (State.endPass s j) := by
  unfold State.endPass
  extract_lets x0 x1 x2
  clear_value x0
  have k3 : Keeps s (x1) := by
    subst x1
    refine Keeps.trans ?_ (State.logEscapes_keeps _ _)
    exact Keeps.refl _
  clear_value x1
  clear_value x2
  split
  · rename_i y4
    refine Keeps.trans ?_ (State.joinVerdict_keeps _ _)
    exact Keeps.refl _
  · rename_i y5
    split
    · rename_i y6
      refine Keeps.trans ?_ (State.joinVerdict_keeps _ _)
      refine Keeps.foldl _ ?_ ?_
      · exact k3
      · intro a7 a8
        refine Keeps.trans ?_ (State.xhWrite_keeps _ _ _ _ _ _)
        exact Keeps.refl _
    · rename_i y9
      refine Keeps.trans ?_ (State.sendOwn_keeps _ _)
      refine Keeps.trans ?_ (State.setBucket_keeps _ _)
      exact k3

theorem State.writeFinal_keeps (s) (j) (first) (count) (bs) : Keeps s ((State.writeFinal s j first count bs).1) := by
  unfold State.writeFinal
  refine Keeps.foldl_fst _ ?_ ?_
  · refine Keeps.fst ?_
    exact Keeps.refl _
  · intro a0 a1
    split
    · rename_i y2 y3 y4
      extract_lets x5 x6 x7 x8 x9 x10 x11 x12 x13
      clear_value x5
      clear_value x6
      clear_value x7
      clear_value x8
      clear_value x9
      clear_value x10
      clear_value x11
      clear_value x12
      clear_value x13
      change Keeps y3 _
      split
      · rename_i y14
        refine Keeps.fst ?_
        refine Keeps.trans ?_ (State.xhWrite_keeps _ _ _ _ _ _)
        exact Keeps.refl _
      · rename_i y15
        split
        · rename_i y16
          refine Keeps.fst ?_
          refine Keeps.trans ?_ (State.xhWrite_keeps _ _ _ _ _ _)
          exact Keeps.refl _
        · rename_i y17
          refine Keeps.fst ?_
          refine Keeps.trans ?_ (State.xhWrite_keeps _ _ _ _ _ _)
          exact Keeps.refl _

theorem State.segmentDone_keeps (s) (j) (key) : Keeps s (State.segmentDone s j key) := by
  unfold State.segmentDone
  extract_lets x0 x1 x2
  clear_value x0
  clear_value x1
  clear_value x2
  split
  · rename_i y3
    refine Keeps.trans ?_ (State.endPass_keeps _ _)
    refine Keeps.trans ?_ (State.setBucket_keeps _ _)
    exact Keeps.refl _
  · rename_i y4
    refine Keeps.trans ?_ (State.setBucket_keeps _ _)
    exact Keeps.refl _

theorem State.takeFinal_keeps (s) (j) (chunk) (index) (first) (count) (body) (key) (on) : Keeps s (State.takeFinal s j chunk index first count body key on) := by
  unfold State.takeFinal
  split
  · rename_i y0
    refine Keeps.trans ?_ (State.mismatch_keeps _ _)
    exact Keeps.refl _
  · rename_i y1
    split
    · rename_i y2 y3 y4
      have k5 := ExAll.of_error (State.xhTouch_keeps _ _ _ _) y4
      exact k5
    · rename_i y6 y7 y8
      have k9 := ExAll.of (State.xhTouch_keeps _ _ _ _) y8
      extract_lets x10
      have k11 : Keeps s (x10) := by
        subst x10
        refine Keeps.foldl _ ?_ ?_
        · exact k9
        · intro a12 a13
          refine Keeps.trans ?_ (State.sendSeg_keeps _ _ _ _ _ _ _ _ _)
          exact Keeps.refl _
      clear_value x10
      split
      · rename_i y14 y15 y16 y17
        have k18 : Keeps _ y15 := Keeps.of_fst (State.writeFinal_keeps _ _ _ _ _) y17
        refine Keeps.trans ?_ (State.segmentDone_keeps _ _ _)
        refine Keeps.trans ?_ k18
        exact k11

theorem State.takeScatter_keeps (s) (j) (chunk) (index) (first) (count) (body) (key) : Keeps s (State.takeScatter s j chunk index first count body key) := by
  unfold State.takeScatter
  split
  · rename_i y0 y1 y2
    have k3 := ExAll.of_error (State.xhTouch_keeps _ _ _ _) y2
    exact k3
  · rename_i y4 y5 y6
    have k7 := ExAll.of (State.xhTouch_keeps _ _ _ _) y6
    split
    · rename_i y8 y9
      refine Keeps.trans ?_ (State.mismatch_keeps _ _)
      exact k7
    · rename_i y10 y11 y12
      split
      · rename_i y13
        refine Keeps.trans ?_ (State.takeFinal_keeps _ _ _ _ _ _ _ _ _)
        exact k7
      · rename_i y14
        refine Keeps.trans ?_ (State.segmentDone_keeps _ _ _)
        refine Keeps.foldl _ ?_ ?_
        · exact k7
        · intro a15 a16
          refine Keeps.trans ?_ (State.sendSeg_keeps _ _ _ _ _ _ _ _ _)
          exact Keeps.refl _

theorem State.takeUp_keeps (s) (j) (index) (first) (count) (qp) (body) (key) : Keeps s (State.takeUp s j index first count qp body key) := by
  unfold State.takeUp
  extract_lets x0 x1 x2 x3 x4
  clear_value x0
  clear_value x1
  clear_value x2
  clear_value x3
  clear_value x4
  split
  · rename_i y5
    refine Keeps.trans ?_ (State.mismatch_keeps _ _)
    exact Keeps.refl _
  · rename_i y6
    split
    · rename_i y7
      refine Keeps.trans ?_ (State.segmentDone_keeps _ _ _)
      exact Keeps.refl _
    · rename_i y8
      split
      · rename_i y9 y10 y11
        have k12 := ExAll.of_error (State.xhTouch_keeps _ _ _ _) y11
        exact k12
      · rename_i y13 y14 y15
        have k16 := ExAll.of (State.xhTouch_keeps _ _ _ _) y15
        split
        · rename_i y17 y18
          refine Keeps.trans ?_ (State.mismatch_keeps _ _)
          exact k16
        · rename_i y19 y20 y21
          split
          · rename_i y22 y23
            refine Keeps.trans ?_ (State.mismatch_keeps _ _)
            exact k16
          · rename_i y24 y25 y26
            split
            · rename_i y27 y28 y29
              refine Keeps.trans ?_ (State.segmentDone_keeps _ _ _)
              refine Keeps.trans ?_ (State.sendSeg_keeps _ _ _ _ _ _ _ _ _)
              exact k16
            · rename_i y30 y31
              refine Keeps.trans ?_ (State.takeFinal_keeps _ _ _ _ _ _ _ _ _)
              exact k16

theorem execXhSegmentReceived_keeps (m) (s) : OutAll (Keeps s) (execXhSegmentReceived m s) := by
  unfold execXhSegmentReceived
  extract_lets x0 x1 x2 x3 x4 x5 x6
  clear_value x0
  clear_value x1
  clear_value x2
  clear_value x3
  clear_value x4
  clear_value x5
  have k7 : Keeps s (x6) := by
    subst x6
    refine Keeps.trans ?_ (State.takeMsg_keeps _ _ _)
    exact Keeps.refl _
  clear_value x6
  refine OutAll.intro ?_
  split
  · rename_i y8 y9
    exact Keeps.refl _
  · rename_i y10 y11 y12
    split
    · rename_i y13
      exact Keeps.refl _
    · rename_i y14
      split
      · rename_i y15 y16
        refine Keeps.trans ?_ (State.staleResult_keeps _ _ _)
        refine Keeps.trans ?_ (State.takeMsg_keeps _ _ _)
        exact Keeps.refl _
      · rename_i y17 y18
        refine Keeps.trans ?_ (State.rnrMsg_keeps _ _)
        exact Keeps.refl _
      · rename_i y19 y20 y21
        extract_lets x22
        clear_value x22
        split
        · rename_i y23
          refine Keeps.trans ?_ (State.rnrMsg_keeps _ _)
          exact Keeps.refl _
        · rename_i y24
          split
          · rename_i y25
            exact k7
          · rename_i y26
            split
            · rename_i y27
              refine Keeps.trans ?_ (State.mismatch_keeps _ _)
              exact k7
            · rename_i y28
              split
              · rename_i y29
                split
                · rename_i y30
                  refine Keeps.trans ?_ (State.takeUp_keeps _ _ _ _ _ _ _ _)
                  exact k7
                · rename_i y31
                  refine Keeps.trans ?_ (State.takeFinal_keeps _ _ _ _ _ _ _ _ _)
                  exact k7
              · rename_i y32
                split
                · rename_i y33
                  refine Keeps.trans ?_ (State.takeScatter_keeps _ _ _ _ _ _ _ _)
                  exact k7
                · rename_i y34
                  refine Keeps.trans ?_ (State.takeFinal_keeps _ _ _ _ _ _ _ _ _)
                  exact k7

theorem State.takeAbort_keeps (s) (n) (qp) (tag) (rec) : Keeps s (State.takeAbort s n qp tag rec) := by
  unfold State.takeAbort
  extract_lets x0
  clear_value x0
  split
  · rename_i y1 y2
    exact Keeps.refl _
  · rename_i y3 y4 y5
    extract_lets x6 x7
    clear_value x6
    clear_value x7
    split
    · rename_i y8
      exact Keeps.refl _
    · rename_i y9
      refine Keeps.trans ?_ (State.stepAbort_keeps _ _ _ _ _ _ _)
      exact Keeps.refl _

theorem execVerdictRecordReceived_keeps (m) (s) : OutAll (Keeps s) (execVerdictRecordReceived m s) := by
  unfold execVerdictRecordReceived
  extract_lets x0 x1
  clear_value x0
  clear_value x1
  refine OutAll.intro ?_
  split
  · rename_i y2 y3
    exact Keeps.refl _
  · rename_i y4 y5 y6
    split
    · rename_i y7
      exact Keeps.refl _
    · rename_i y8
      split
      · rename_i y9
        refine Keeps.trans ?_ (State.takeAbort_keeps _ _ _ _ _)
        refine Keeps.trans ?_ (State.takeMsg_keeps _ _ _)
        exact Keeps.refl _
      · rename_i y10
        split
        · rename_i y11 y12
          refine Keeps.trans ?_ (State.staleResult_keeps _ _ _)
          refine Keeps.trans ?_ (State.takeMsg_keeps _ _ _)
          exact Keeps.refl _
        · rename_i y13 y14
          refine Keeps.trans ?_ (State.rnrMsg_keeps _ _)
          exact Keeps.refl _
        · rename_i y15 y16 y17
          extract_lets x18 x19
          clear_value x18
          clear_value x19
          split
          · rename_i y20
            refine Keeps.trans ?_ (State.tryVerdict_keeps _ _)
            refine Keeps.trans ?_ (State.setBucket_keeps _ _)
            refine Keeps.trans ?_ (State.takeMsg_keeps _ _ _)
            exact Keeps.refl _
          · rename_i y21
            split
            · rename_i y22
              refine Keeps.trans ?_ (State.rnrMsg_keeps _ _)
              exact Keeps.refl _
            · rename_i y23
              split
              · rename_i y24
                refine Keeps.trans ?_ (State.stepAbort_keeps _ _ _ _ _ _ _)
                refine Keeps.trans ?_ (State.takeMsg_keeps _ _ _)
                exact Keeps.refl _
              · rename_i y25
                refine Keeps.trans ?_ (State.verified_keeps _ _ _)
                refine Keeps.trans ?_ (State.sendVerdict_keeps _ _ _ _)
                refine Keeps.trans ?_ (State.takeMsg_keeps _ _ _)
                exact Keeps.refl _

theorem State.expireDeadline_keeps (s) (k) : Keeps s (State.expireDeadline s k) := by
  unfold State.expireDeadline
  split
  · rename_i y0 y1 y2
    split
    · rename_i y3
      refine Keeps.trans ?_ (State.decideLate_keeps _ _)
      exact Keeps.refl _
    · rename_i y4
      exact Keeps.refl _
  · rename_i y5 y6
    exact Keeps.refl _

theorem State.expireVerdict_keeps (s) (k) : Keeps s (State.expireVerdict s k) := by
  unfold State.expireVerdict
  split
  · rename_i y0 y1 y2
    split
    · rename_i y3
      refine Keeps.trans ?_ (State.stepAbort_keeps _ _ _ _ _ _ _)
      exact Keeps.refl _
    · rename_i y4
      exact Keeps.refl _
  · rename_i y5 y6
    exact Keeps.refl _

theorem execDeadlineExpiry_keeps (k) (s) : OutAll (Keeps s) (execDeadlineExpiry k s) := by
  unfold execDeadlineExpiry
  refine OutAll.intro ?_
  refine Keeps.trans ?_ (State.expireDeadline_keeps _ _)
  exact Keeps.refl _

theorem execVerdictTimeout_keeps (k) (s) : OutAll (Keeps s) (execVerdictTimeout k s) := by
  unfold execVerdictTimeout
  refine OutAll.intro ?_
  refine Keeps.trans ?_ (State.expireVerdict_keeps _ _)
  exact Keeps.refl _

theorem execXhGroup_keeps (p) (s) : OutAll (Keeps s) (execXhGroup p s) := by
  unfold execXhGroup
  refine OutAll.intro ?_
  refine Keeps.trans ?_ (State.forOp_keeps _ _ _ _ ?_)
  · exact Keeps.refl _
  · refine Keeps.trans ?_ (State.runReach_keeps _ _ _ _ _ _ ?_)
    · exact Keeps.refl _
    · intro a0 a1 a2
      extract_lets x3 x4 x5
      clear_value x3
      clear_value x4
      clear_value x5
      refine ExAll.bind_any (fun _ => trivial) ?_
      intro a6
      refine ExAll.bind_any (fun _ => trivial) ?_
      intro a7
      extract_lets x8 x9
      clear_value x8
      have k10 : Keeps a0 x9 := by
        subst x9
        refine Keeps.trans ?_ (State.vput_keeps _ _ _ _)
        exact Keeps.refl _
      clear_value x9
      refine ExAll.of_pure ?_
      refine Keeps.fst ?_
      refine Keeps.trans ?_ (State.updCtx_keeps _ _ _)
      exact k10

theorem State.admitBucket_keeps (s) (n) (p) : Keeps s (State.admitBucket s n p) := by
  unfold State.admitBucket
  split
  · rename_i y0 y1
    exact Keeps.refl _
  · rename_i y2 y3 y4 y5
    extract_lets x6 x7 x8 x9 x10
    clear_value x6
    clear_value x7
    clear_value x8
    clear_value x9
    have k11 : Keeps s (x10) := by
      subst x10
      refine Keeps.trans ?_ (State.updCtx_keeps _ _ _)
      exact Keeps.refl _
    clear_value x10
    refine Keeps.set_buckets ?_
    exact k11

theorem execXhReduce_keeps (p) (s) : OutAll (Keeps s) (execXhReduce p s) := by
  unfold execXhReduce
  refine OutAll.intro ?_
  refine Keeps.trans ?_ (State.forOp_keeps _ _ _ _ ?_)
  · exact Keeps.refl _
  · split
    · rename_i y0 y1
      exact Keeps.refl _
    · rename_i y2 y3 y4
      extract_lets x5
      have k6 : Keeps s (x5) := by
        subst x5
        split
        · rename_i y7
          exact Keeps.refl _
        · rename_i y8
          refine Keeps.trans ?_ (State.admitBucket_keeps _ _ _)
          exact Keeps.refl _
      clear_value x5
      split
      · rename_i y9 y10
        exact Keeps.refl _
      · rename_i y11 y12 y13
        split
        · rename_i y14 y15 y16
          refine Keeps.trans ?_ (State.finish_keeps _ _ _)
          refine Keeps.set_buckets ?_
          exact Keeps.refl _
        · rename_i y17 y18 y19
          refine Keeps.trans ?_ (State.begin_keeps _ _ _)
          exact k6

theorem execBucketStart_keeps (context) (group) (s) : OutAll (Keeps s) (execBucketStart context group s) := by
  unfold execBucketStart
  extract_lets x0
  clear_value x0
  refine OutAll.intro ?_
  split
  · rename_i y1 y2
    exact Keeps.refl _
  · rename_i y3 y4 y5
    split
    · rename_i y6
      exact Keeps.refl _
    · rename_i y7
      split
      · rename_i y8 y9
        exact Keeps.refl _
      · rename_i y10 y11 y12
        split
        · rename_i y13
          exact Keeps.refl _
        · rename_i y14
          split
          · rename_i y15
            refine Keeps.trans ?_ (State.waitHost_keeps _ _ _)
            exact Keeps.refl _
          · rename_i y16
            split
            · rename_i y17 y18 y19
              have k20 := ExAll.of_error (State.xhTouch_keeps _ _ _ _) y19
              exact k20
            · rename_i y21 y22 y23
              have k24 := ExAll.of (State.xhTouch_keeps _ _ _ _) y23
              extract_lets x25 x26 x27 x28
              clear_value x25
              clear_value x26
              clear_value x27
              have k29 : Keeps s (x28) := by
                subst x28
                split
                · rename_i y30
                  refine Keeps.trans ?_ (State.ledgerFlag_keeps _ _ _ _)
                  refine Keeps.trans ?_ (State.updLedger_keeps _ _ _)
                  exact k24
                · rename_i y31
                  refine Keeps.trans ?_ (State.recordXp_keeps _ _ _ _ _ _)
                  exact k24
              clear_value x28
              refine Keeps.trans ?_ (State.sendOwn_keeps _ _)
              refine Keeps.trans ?_ (State.setBucket_keeps _ _)
              exact k29

theorem execXhAbort_keeps (p) (s) : OutAll (Keeps s) (execXhAbort p s) := by
  unfold execXhAbort
  refine OutAll.intro ?_
  refine Keeps.trans ?_ (State.forOp_keeps _ _ _ _ ?_)
  · exact Keeps.refl _
  · refine Keeps.trans ?_ (State.runNow_keeps _ _ _ ?_)
    · exact Keeps.refl _
    · intro a0 a1 a2
      extract_lets x3
      clear_value x3
      refine ExAll.bind_any (fun _ => trivial) ?_
      intro a4
      refine ExAll.of_pure ?_
      refine Keeps.fst ?_
      refine Keeps.trans ?_ (State.stepAbort_keeps _ _ _ _ _ _ _)
      exact Keeps.refl _

theorem State.prefetchRun.stop_keeps (c) (s) (kind) (va) (acc) (detail) (done) : Keeps s (State.prefetchRun.stop c s kind va acc detail done) := by
  unfold State.prefetchRun.stop
  split
  · rename_i y0
    refine Keeps.trans ?_ (State.finish_keeps _ _ _)
    exact Keeps.refl _
  · rename_i y1
    refine Keeps.trans ?_ (State.engineFault_keeps _ _ _ _ _ _ _ _)
    exact Keeps.refl _

theorem State.prefetchRun_keeps (s) (c) (src) (dst) (b4) (b5) : Keeps s (State.prefetchRun s c src dst b4 b5) := by
  induction b4 generalizing s c src dst b5
  · rw [State.prefetchRun]
    refine Keeps.trans ?_ (State.finish_keeps _ _ _)
    exact Keeps.refl _
  · rename_i y0 ih1
    rw [State.prefetchRun]
    split
    · rename_i y2 y3 y4 y5
      have k10 := ExAll.of_error (State.touch_keeps _ _ _ _ _ _ _) y5
      refine Keeps.trans ?_ (State.prefetchRun.stop_keeps _ _ _ _ _ _ _)
      exact Keeps.refl _
    · rename_i y11 y12 y13
      have k17 := ExAll.of (State.touch_keeps _ _ _ _ _ _ _) y13
      split
      · rename_i y18 y19 y20 y21
        have k26 := ExAll.of_error (State.touch_keeps _ _ _ _ _ _ _) y21
        refine Keeps.trans ?_ (State.prefetchRun.stop_keeps _ _ _ _ _ _ _)
        exact k17
      · rename_i y27 y28 y29
        have k33 := ExAll.of (State.touch_keeps _ _ _ _ _ _ _) y29
        split
        · rename_i y34 y35 y36
          refine Keeps.trans ?_ (State.mediaFault_keeps _ _ _ _ _ _ _)
          refine Keeps.trans ?_ k33
          exact k17
        · rename_i y37 y38
          refine Keeps.trans ?_ (ih1 _ _ _ _ _)
          refine Keeps.trans ?_ (State.vwrite_keeps _ _ _ _ _)
          refine Keeps.trans ?_ k33
          exact k17

theorem execPrefetchHint_keeps (p) (s) : OutAll (Keeps s) (execPrefetchHint p s) := by
  unfold execPrefetchHint
  refine OutAll.intro ?_
  refine Keeps.trans ?_ (State.forOp_keeps _ _ _ _ ?_)
  · exact Keeps.refl _
  · split
    · rename_i y0 y1
      exact Keeps.refl _
    · rename_i y2 y3 y4
      extract_lets x5
      clear_value x5
      split
      · rename_i y6
        exact Keeps.refl _
      · rename_i y7
        split
        · rename_i y8 y9
          exact Keeps.refl _
        · rename_i y10 y11 y12
          split
          · rename_i y13 y14 y15
            refine Keeps.trans ?_ (State.finish_keeps _ _ _)
            exact Keeps.refl _
          · rename_i y16 y17 y18
            split
            · rename_i y19
              refine Keeps.trans ?_ (State.waitHost_keeps _ _ _)
              exact Keeps.refl _
            · rename_i y20
              refine Keeps.trans ?_ (State.prefetchRun_keeps _ _ _ _ _ _)
              exact Keeps.refl _

theorem State.settleSends_keeps (s) : Keeps s (State.settleSends s) := by
  unfold State.settleSends
  extract_lets x0
  clear_value x0
  refine Keeps.set_cmds ?_
  exact Keeps.refl _

theorem State.qpError_keeps (s) (k) (status) (psn) : Keeps s (State.qpError s k status psn) := by
  unfold State.qpError
  split
  · rename_i y0 y1
    exact Keeps.refl _
  · rename_i y2 y3 y4
    extract_lets x5 x6 x7 x8 x9 x10 x11
    have k12 : Keeps s (x5) := by
      subst x5
      refine Keeps.trans ?_ (State.logEvent_keeps _ _ _ _ _ _ _)
      exact Keeps.refl _
    clear_value x5
    clear_value x6
    have k13 : Keeps s (x7) := by
      subst x7
      refine Keeps.foldl _ ?_ ?_
      · exact k12
      · intro a14 a15
        refine Keeps.trans ?_ (State.finishPost_keeps _ _ _)
        exact Keeps.refl _
    clear_value x7
    have k16 : Keeps s (x8) := by
      subst x8
      refine Keeps.trans ?_ (State.updQp_keeps _ _ _)
      exact k13
    clear_value x8
    have k17 : Keeps s (x9) := by
      subst x9
      refine Keeps.foldl _ ?_ ?_
      · exact k16
      · intro a18 a19
        split
        · rename_i y20 y21 y22
          refine Keeps.trans ?_ (State.finish_keeps _ _ _)
          exact Keeps.refl _
        · rename_i y23 y24
          refine Keeps.trans ?_ (State.updCmd_keeps _ _ _ _)
          exact Keeps.refl _
    clear_value x9
    clear_value x10
    have k25 : Keeps s (x11) := by
      subst x11
      refine Keeps.set_spare ?_
      exact k17
    clear_value x11
    split
    · rename_i y26
      exact Keeps.refl _
    · rename_i y27
      refine Keeps.trans ?_ (State.settleSends_keeps _)
      refine Keeps.trans ?_ (State.xhPeerLost_keeps _ _ _)
      exact k25

theorem State.tagArrival_keeps (s) (n) (tag) (who) : Keeps s (State.tagArrival s n tag who) := by
  unfold State.tagArrival
  extract_lets x0 x1
  clear_value x0
  clear_value x1
  split
  · rename_i y2 y3 y4
    extract_lets x5
    clear_value x5
    refine Keeps.set_stylus ?_
    exact Keeps.refl _
  · rename_i y6 y7
    split
    · rename_i y8 y9
      exact Keeps.refl _
    · rename_i y10 y11 y12
      split
      · rename_i y13
        refine Keeps.trans ?_ (State.updCtx_keeps _ _ _)
        exact Keeps.refl _
      · rename_i y14
        refine Keeps.trans ?_ (State.logEvent_keeps _ _ _ _ _ _ _)
        refine Keeps.trans ?_ (State.updCtx_keeps _ _ _)
        exact Keeps.refl _

theorem State.remoteInk_keeps (s) (n) (f) : ExAll (fun r => Keeps s (r).2) (fun r => Keeps s r) (State.remoteInk s n f) := by
  unfold State.remoteInk
  split
  · rename_i y0 y1 y2
    refine ExAll.intro_error ?_
    refine Keeps.snd ?_
    refine Keeps.trans ?_ (State.inkMedia_keeps _ _ _ _ _ _)
    exact Keeps.refl _
  · rename_i y3 y4
    split
    · rename_i y5
      refine ExAll.intro_error ?_
      refine Keeps.snd ?_
      split
      · rename_i y6
        refine Keeps.trans ?_ (State.inkPinFault_keeps _ _ _ _ _)
        exact Keeps.refl _
      · rename_i y7
        exact Keeps.refl _
    · rename_i y8
      split
      · rename_i y9 y10 y11
        have k15 := ExAll.of (State.inkSignal_keeps _ _ _ _ _) y11
        refine ExAll.intro ?_
        exact k15
      · rename_i y16 y17 y18 y19
        have k24 := ExAll.of_error (State.inkSignal_keeps _ _ _ _ _) y19
        refine ExAll.intro_error ?_
        refine Keeps.snd ?_
        exact k24

theorem State.deliver_keeps (s) (k) (b2) : Keeps s (State.deliver s k b2) := by
  induction b2 generalizing s k with
  | zero =>
    rw [State.deliver]
    exact Keeps.refl _
  | succ n ih =>
    rw [State.deliver]
    split
    · rename_i y0 y1
      exact Keeps.refl _
    · rename_i y2 y3 y4
      split
      · rename_i y5 y6 y7 y8 y9
        split
        · rename_i y10 y11 y12
          have k13 := ExAll.of (State.remoteInk_keeps _ _ _) y12
          refine Keeps.trans ?_ (ih ..)
          refine Keeps.trans ?_ (State.updQp_keeps _ _ _)
          exact k13
        · rename_i y14 y15 y16 y17
          have k18 := ExAll.of_error (State.remoteInk_keeps _ _ _) y17
          refine Keeps.trans ?_ (State.updQp_keeps _ _ _)
          refine Keeps.trans ?_ (State.qpError_keeps _ _ _ _)
          refine Keeps.trans ?_ k18
          exact Keeps.refl _
      · rename_i y19 y20
        split
        · rename_i y21 y22
          exact Keeps.refl _
        · rename_i y23 y24 y25
          extract_lets x26
          have k27 : Keeps s (x26) := by
            subst x26
            refine Keeps.trans ?_ (State.updQp_keeps _ _ _)
            exact Keeps.refl _
          clear_value x26
          split
          · rename_i y28 y29
            exact Keeps.refl _
          · rename_i y30 y31 y32
            extract_lets x33
            have k34 : Keeps s (x33) := by
              subst x33
              refine Keeps.trans ?_ (State.finishPost_keeps _ _ _)
              exact k27
            clear_value x33
            refine Keeps.trans ?_ (ih ..)
            refine Keeps.trans ?_ (State.tagArrival_keeps _ _ _ _)
            exact k34

theorem State.landData_keeps (s) (k) (m) (c) (off) (bs) : Keeps s (State.landData s k m c off bs) := by
  unfold State.landData
  split
  · rename_i y0 y1
    extract_lets x2 x3
    clear_value x2
    clear_value x3
    refine Keeps.trans ?_ (State.updQp_keeps _ _ _)
    exact Keeps.refl _
  · rename_i y4 y5 y6
    extract_lets x7
    subst x7
    split
    · rename_i y8 y9
      beta_reduce
      extract_lets x10
      clear_value x10
      refine Keeps.trans ?_ (State.updQp_keeps _ _ _)
      exact Keeps.refl _
    · rename_i y11 y12 y13 y14
      split
      · rename_i y15
        beta_reduce
        extract_lets x16
        clear_value x16
        refine Keeps.trans ?_ (State.updQp_keeps _ _ _)
        exact Keeps.refl _
      · rename_i y17
        split
        · rename_i y18
          beta_reduce
          extract_lets x19
          clear_value x19
          refine Keeps.trans ?_ (State.updQp_keeps _ _ _)
          exact Keeps.refl _
        · rename_i y20
          extract_lets x21
          clear_value x21
          split
          · rename_i y22 y23 y24 y25
            have k30 := ExAll.of_error (State.touch_keeps _ _ _ _ _ _ _) y25
            beta_reduce
            extract_lets x31
            clear_value x31
            refine Keeps.trans ?_ (State.updQp_keeps _ _ _)
            refine Keeps.trans ?_ (State.faultRecord_keeps _ _ _)
            exact Keeps.refl _
          · rename_i y32 y33 y34
            have k38 := ExAll.of (State.touch_keeps _ _ _ _ _ _ _) y34
            beta_reduce
            extract_lets x39
            clear_value x39
            refine Keeps.trans ?_ (State.updQp_keeps _ _ _)
            refine Keeps.trans ?_ (State.vwrite_keeps _ _ _ _ _)
            exact k38

theorem State.matchMsg_keeps (s) (k) (q) (msn) (tag) (len) : OptAll (fun r => Keeps s ((r).1)) (State.matchMsg s k q msn tag len) := by
  unfold State.matchMsg
  extract_lets x0 x1
  clear_value x0
  clear_value x1
  split
  · rename_i y2
    refine OptAll.intro ?_
    refine Keeps.fst ?_
    refine Keeps.trans ?_ (State.updQp_keeps _ _ _)
    exact Keeps.refl _
  · rename_i y3
    split
    · rename_i y4 y5
      trivial
    · rename_i y6 y7 y8
      refine OptAll.intro ?_
      refine Keeps.fst ?_
      refine Keeps.trans ?_ (State.updQp_keeps _ _ _)
      exact Keeps.refl _

theorem State.takeData_keeps (s) (k) (port) (q) (c) (pkt) (bs) : Keeps s (State.takeData s k port q c pkt bs) := by
  unfold State.takeData
  extract_lets x0 x1 x2 x3 x4 x5
  clear_value x0
  clear_value x1
  clear_value x2
  clear_value x3
  clear_value x4
  split
  · rename_i y6
    refine Keeps.trans ?_ (State.portCount_keeps _ _ _ _)
    exact Keeps.refl _
  · rename_i y7
    split
    · rename_i y8 y9 y10
      split
      · rename_i y11
        exact Keeps.refl _
      · rename_i y12
        refine Keeps.trans ?_ (State.deliver_keeps _ _ _)
        refine Keeps.trans ?_ (State.landData_keeps _ _ _ _ _ _)
        exact Keeps.refl _
    · rename_i y13 y14
      split
      · rename_i y15
        exact Keeps.refl _
      · rename_i y16
        split
        · rename_i y17 y18
          refine Keeps.trans ?_ (State.updQp_keeps _ _ _)
          exact Keeps.refl _
        · rename_i y20 y21 y22 y23
          have k24 := OptAll.of (State.matchMsg_keeps _ _ _ _ _ _) y23
          refine Keeps.trans ?_ (State.deliver_keeps _ _ _)
          refine Keeps.trans ?_ (State.landData_keeps _ _ _ _ _ _)
          refine Keeps.trans ?_ k24
          exact Keeps.refl _

theorem State.takeInk_keeps (s) (k) (port) (q) (c) (pkt) : Keeps s (State.takeInk s k port q c pkt) := by
  unfold State.takeInk
  extract_lets x0
  clear_value x0
  split
  · rename_i y1
    refine Keeps.trans ?_ (State.portCount_keeps _ _ _ _)
    exact Keeps.refl _
  · rename_i y2
    split
    · rename_i y3
      exact Keeps.refl _
    · rename_i y4
      refine Keeps.trans ?_ (State.deliver_keeps _ _ _)
      refine Keeps.trans ?_ (State.updQp_keeps _ _ _)
      exact Keeps.refl _

theorem State.endSends_keeps (s) (k) : Keeps s (State.endSends s k) := by
  unfold State.endSends
  split
  · rename_i y0 y1
    exact Keeps.refl _
  · rename_i y2 y3 y4
    extract_lets x5 x6
    clear_value x5
    have k7 : Keeps s (x6) := by
      subst x6
      refine Keeps.foldl _ ?_ ?_
      · exact Keeps.refl _
      · intro a8 a9
        split
        · rename_i y10 y11 y12
          split
          · rename_i y13
            refine Keeps.trans ?_ (State.finishPost_keeps _ _ _)
            exact Keeps.refl _
          · rename_i y14
            exact Keeps.refl _
        · rename_i y15 y16
          exact Keeps.refl _
    clear_value x6
    refine Keeps.trans ?_ (State.settleSends_keeps _)
    refine Keeps.trans ?_ (State.updQp_keeps _ _ _)
    exact k7

theorem State.onStatus_keeps (s) (k) (q) (c) (st) : Keeps s (State.onStatus s k q c st) := by
  unfold State.onStatus
  split
  · rename_i y0 y1
    exact Keeps.refl _
  · rename_i y2 y3 y4
    split
    · rename_i y5
      split
      · rename_i y6 y7 y8
        refine Keeps.trans ?_ (State.qpError_keeps _ _ _ _)
        refine Keeps.trans ?_ (State.finishPost_keeps _ _ _)
        exact Keeps.refl _
      · rename_i y9 y10
        refine Keeps.trans ?_ (State.qpError_keeps _ _ _ _)
        exact Keeps.refl _
    · rename_i y11
      split
      · rename_i y12 y13
        exact Keeps.refl _
      · rename_i y14 y15 y16
        split
        · rename_i y17
          refine Keeps.trans ?_ (State.updQp_keeps _ _ _)
          exact Keeps.refl _
        · rename_i y18
          split
          · rename_i y19
            refine Keeps.trans ?_ (State.updCmd_keeps _ _ _ _)
            exact Keeps.refl _
          · rename_i y20
            refine Keeps.trans ?_ (State.finish_keeps _ _ _)
            refine Keeps.trans ?_ (State.updQp_keeps _ _ _)
            exact Keeps.refl _

theorem State.takeAck_keeps (s) (k) (port) (q) (pkt) (at') : Keeps s (State.takeAck s k port q pkt at') := by
  unfold State.takeAck
  extract_lets x0 x1
  clear_value x0
  clear_value x1
  split
  · rename_i y2
    refine Keeps.trans ?_ (State.portCount_keeps _ _ _ _)
    exact Keeps.refl _
  · rename_i y3
    split
    · rename_i y4 y5
      exact Keeps.refl _
    · rename_i y6 y7 y8
      extract_lets x9 x10 x11 x12
      have k13 : Keeps s (x9) := by
        subst x9
        refine Keeps.trans ?_ (State.updQp_keeps _ _ _)
        exact Keeps.refl _
      clear_value x9
      have k14 : Keeps s (x10) := by
        subst x10
        split
        · rename_i y15 y16 y17 y18 y19 y20
          refine Keeps.trans ?_ (State.onStatus_keeps _ _ _ _ _)
          exact k13
        · rename_i y21 y22 y23
          refine Keeps.trans ?_ k13
          exact Keeps.refl _
      clear_value x10
      have k24 : Keeps s (x11) := by
        subst x11
        split
        · rename_i y25
          refine Keeps.trans ?_ (State.qpError_keeps _ _ _ _)
          exact k14
        · rename_i y26
          exact k14
      clear_value x11
      have k27 : Keeps s (x12) := by
        subst x12
        split
        · rename_i y28
          refine Keeps.trans ?_ (State.updQp_keeps _ _ _)
          exact k24
        · rename_i y29
          exact k24
      clear_value x12
      split
      · rename_i y30
        exact Keeps.refl _
      · rename_i y31
        refine Keeps.trans ?_ (State.endSends_keeps _ _)
        exact k27

theorem State.rxPacket_keeps (s) (k) (port) (pkt) (at') : Keeps s (State.rxPacket s k port pkt at') := by
  unfold State.rxPacket
  extract_lets x0 x1 x2 x3 x4 x5
  have k6 : Keeps s (x0) := by
    subst x0
    refine Keeps.trans ?_ (State.portCount_keeps _ _ _ _)
    exact Keeps.refl _
  clear_value x0
  clear_value x1
  clear_value x2
  have k7 : Keeps s (x3) := by
    subst x3
    refine Keeps.trans ?_ (State.portCount_keeps _ _ _ _)
    refine Keeps.trans ?_ (State.portCount_keeps _ _ _ _)
    exact Keeps.refl _
  clear_value x3
  have k8 : Keeps s (x4) := by
    subst x4
    refine Keeps.trans ?_ (State.updQp_keeps _ _ _)
    exact k7
  clear_value x4
  have k9 : Keeps s (x5) := by
    subst x5
    refine Keeps.trans ?_ (State.updQp_keeps _ _ _)
    exact Keeps.refl _
  clear_value x5
  split
  · rename_i y10 y11
    exact k6
  · rename_i y12 y13 y14
    extract_lets x15
    clear_value x15
    split
    · rename_i y16
      exact k6
    · rename_i y17
      split
      · rename_i y18
        split
        · rename_i y19 y20 y21 y22
          refine Keeps.trans ?_ (State.updQp_keeps _ _ _)
          exact Keeps.refl _
        · rename_i y23 y24
          refine Keeps.trans ?_ (State.updQp_keeps _ _ _)
          exact Keeps.refl _
      · rename_i y25
        split
        · rename_i y26 y27
          split
          · rename_i y28
            refine Keeps.trans ?_ (State.qpError_keeps _ _ _ _)
            exact k8
          · rename_i y29
            exact k8
        · rename_i y30 y31 y32
          split
          · rename_i y33
            refine Keeps.trans ?_ (State.takeAck_keeps _ _ _ _ _ _)
            exact k9
          · rename_i y34
            split
            · rename_i y35
              refine Keeps.trans ?_ (State.updQp_keeps _ _ _)
              exact k9
            · rename_i y36 y37
              split
              · rename_i y38
                refine Keeps.trans ?_ (State.updQp_keeps _ _ _)
                exact k9
              · rename_i y39
                split
                · rename_i y40
                  exact k6
                · rename_i y41
                  split
                  · rename_i y42
                    refine Keeps.trans ?_ (State.takeInk_keeps _ _ _ _ _ _)
                    exact k9
                  · rename_i y43
                    refine Keeps.trans ?_ (State.takeData_keeps _ _ _ _ _ _ _)
                    exact k9

theorem State.rxArrive_keeps (s) (port) (ok) (pkt) (now) : Keeps s (State.rxArrive s port ok pkt now) := by
  unfold State.rxArrive
  extract_lets x0 x1 x2 x3 x4
  have k5 : Keeps s (x0) := by
    subst x0
    refine Keeps.trans ?_ (State.portCount_keeps _ _ _ _)
    exact Keeps.refl _
  clear_value x0
  clear_value x1
  clear_value x2
  clear_value x3
  clear_value x4
  split
  · rename_i y6
    exact Keeps.refl _
  · rename_i y7
    split
    · rename_i y8
      exact k5
    · rename_i y9
      split
      · rename_i y10
        split
        · rename_i y11
          exact Keeps.refl _
        · rename_i y12
          exact k5
      · rename_i y13
        split
        · rename_i y14
          exact k5
        · rename_i y15
          split
          · rename_i y16 y17
            exact k5
          · rename_i y18 y19 y20
            split
            · rename_i y21
              refine Keeps.trans ?_ (State.rxPacket_keeps _ _ _ _ _)
              refine Keeps.trans ?_ (State.useQp_keeps _ _)
              exact Keeps.refl _
            · rename_i y22
              split
              · rename_i y23
                refine Keeps.set_stylus ?_
                exact Keeps.refl _
              · rename_i y24
                refine Keeps.trans ?_ (State.portCount_keeps _ _ _ _)
                exact Keeps.refl _

theorem execDataPacketReceived_keeps (port) (checksumOk) (packet) (s) : OutAll (Keeps s) (execDataPacketReceived port checksumOk packet s) := by
  unfold execDataPacketReceived
  refine OutAll.intro ?_
  split
  · rename_i y0
    split
    · rename_i y1 y2 y3 y4
      have k5 : Keeps _ y3 := Keeps.of_snd (State.drawNs_keeps _) y4
      refine Keeps.trans ?_ (State.rxArrive_keeps _ _ _ _ _)
      exact k5
  · rename_i y6
    exact Keeps.refl _

theorem execInkPacketReceived_keeps (port) (checksumOk) (packet) (s) : OutAll (Keeps s) (execInkPacketReceived port checksumOk packet s) := by
  unfold execInkPacketReceived
  refine OutAll.intro ?_
  split
  · rename_i y0
    split
    · rename_i y1 y2 y3 y4
      have k5 : Keeps _ y3 := Keeps.of_snd (State.drawNs_keeps _) y4
      refine Keeps.trans ?_ (State.rxArrive_keeps _ _ _ _ _)
      exact k5
  · rename_i y6
    exact Keeps.refl _

theorem execAckReceived_keeps (port) (checksumOk) (packet) (now) (s) : OutAll (Keeps s) (execAckReceived port checksumOk packet now s) := by
  unfold execAckReceived
  refine OutAll.intro ?_
  split
  · rename_i y0
    refine Keeps.trans ?_ (State.rxArrive_keeps _ _ _ _ _)
    exact Keeps.refl _
  · rename_i y1
    exact Keeps.refl _

theorem execAckTimer_keeps (qp) (s) : OutAll (Keeps s) (execAckTimer qp s) := by
  unfold execAckTimer
  refine OutAll.intro ?_
  split
  · rename_i y0 y1 y2
    split
    · rename_i y3
      refine Keeps.trans ?_ (State.updQp_keeps _ _ _)
      exact Keeps.refl _
    · rename_i y4
      exact Keeps.refl _
  · rename_i y5 y6
    exact Keeps.refl _

theorem execRetransmitTimeout_keeps (qp) (s) : OutAll (Keeps s) (execRetransmitTimeout qp s) := by
  unfold execRetransmitTimeout
  refine OutAll.intro ?_
  split
  · rename_i y0 y1
    exact Keeps.refl _
  · rename_i y2 y3 y4
    split
    · rename_i y5
      exact Keeps.refl _
    · rename_i y6
      split
      · rename_i y7
        refine Keeps.trans ?_ (State.failEvent_keeps _ _ _)
        refine Keeps.trans ?_ (State.qpError_keeps _ _ _ _)
        refine Keeps.trans ?_ (State.bringQp_keeps _ _)
        exact Keeps.refl _
      · rename_i y8
        refine Keeps.trans ?_ (State.updQp_keeps _ _ _)
        refine Keeps.trans ?_ (State.bringQp_keeps _ _)
        exact Keeps.refl _

theorem execRnrResend_keeps (qp) (s) : OutAll (Keeps s) (execRnrResend qp s) := by
  unfold execRnrResend
  refine OutAll.intro ?_
  split
  · rename_i y0 y1
    exact Keeps.refl _
  · rename_i y2 y3 y4
    split
    · rename_i y5 y6 y7
      split
      · rename_i y8
        refine Keeps.trans ?_ (State.updQp_keeps _ _ _)
        exact Keeps.refl _
      · rename_i y9
        exact Keeps.refl _
    · rename_i y10 y11
      exact Keeps.refl _

theorem execRnrTimeout_keeps (qp) (s) : OutAll (Keeps s) (execRnrTimeout qp s) := by
  unfold execRnrTimeout
  refine OutAll.intro ?_
  split
  · rename_i y0 y1
    exact Keeps.refl _
  · rename_i y2 y3 y4
    split
    · rename_i y5 y6
      exact Keeps.refl _
    · rename_i y7 y8 y9 y10
      extract_lets x11
      have k12 : Keeps s (x11) := by
        subst x11
        refine Keeps.trans ?_ (State.updQp_keeps _ _ _)
        exact Keeps.refl _
      clear_value x11
      split
      · rename_i y13 y14 y15 y16 y17 y18
        split
        · rename_i y19
          exact Keeps.refl _
        · rename_i y20
          split
          · rename_i y21
            refine Keeps.trans ?_ (State.settleSends_keeps _)
            refine Keeps.trans ?_ (State.updCmd_keeps _ _ _ _)
            exact k12
          · rename_i y22
            refine Keeps.trans ?_ (State.finish_keeps _ _ _)
            exact k12
      · rename_i y23 y24 y25
        exact Keeps.refl _

theorem execQpStateFetched_keeps (qp) (s) : OutAll (Keeps s) (execQpStateFetched qp s) := by
  unfold execQpStateFetched
  refine OutAll.intro ?_
  split
  · rename_i y0 y1
    exact Keeps.refl _
  · rename_i y2 y3 y4
    extract_lets x5 x6 x7 x8 x9 x10
    clear_value x5
    have k11 : Keeps s x6 := by
      subst x6
      refine Keeps.trans ?_ (State.bringQp_keeps _ _)
      exact Keeps.refl _
    clear_value x6
    clear_value x7
    have k12 : Keeps s x8 := by
      subst x8
      refine Keeps.set_stylus ?_
      exact k11
    clear_value x8
    clear_value x9
    have k13 : Keeps s x10 := by
      subst x10
      refine Keeps.foldl _ ?_ ?_
      · exact k12
      · intro a14 a15
        refine Keeps.trans ?_ (State.postNow_keeps _ _)
        exact Keeps.refl _
    clear_value x10
    split
    · rename_i y16
      exact Keeps.refl _
    · rename_i y17
      refine Keeps.foldl _ ?_ ?_
      · exact k13
      · intro a18 a19
        refine Keeps.trans ?_ (State.rxPacket_keeps _ _ _ _ _)
        exact Keeps.refl _

end Sys2Proof.Machine
end

