-- ==== Sys2Proof/Laws/KeepsSurvival.lean ====
section
/-! SUPPORT. What distribution, survival and contexts keep: one lemma for each operation that answers a state. -/

namespace Sys2Proof.Machine

open Sys2Proof

theorem Keeps.set_routers_stylus_buckets_spare_streams {b s : State} {v_routers} {v_stylus} {v_buckets} {v_spare} {v_streams} (h : Keeps b s) :
    Keeps b { s with routers := v_routers, stylus := v_stylus, buckets := v_buckets, spare := v_spare, streams := v_streams } :=
  h.trans (Keeps.of_fields rfl rfl rfl rfl rfl rfl)

theorem Keeps.set_ctxs_cmds {b s : State} {v_ctxs} {v_cmds} (h : Keeps b s) (hc : v_ctxs.map (·.1) = s.ctxs.map (·.1)) :
    Keeps b { s with ctxs := v_ctxs, cmds := v_cmds } :=
  h.trans (Keeps.of_keys rfl rfl rfl hc rfl id)

theorem State.claimStore_keeps (s) (n) : OptAll (fun r => Keeps s r.2) (State.claimStore s n) := by
  induction n generalizing s with
  | zero => exact Keeps.refl _
  | succ n ih =>
    rw [State.claimStore]
    split
    · trivial
    · rename_i f s1 y
      have k : Keeps s s1 := Keeps.of_snd (freshNumber_keeps _ _ _ _ _) y
      refine OptAll.map (ih _) fun r h => Keeps.trans ?_ h
      exact k.trans (Keeps.of_parts rfl rfl id id id (Memory.wf_of_cells rfl rfl))

theorem State.fillFrames_keeps (s) (fs) (bs) : Keeps s (State.fillFrames s fs bs) := by
  unfold State.fillFrames
  refine Keeps.foldl _ ?_ ?_
  · exact Keeps.refl _
  · intro a0 a1
    refine Keeps.trans ?_ (State.updMem_keeps _ _ ?_)
    · exact Keeps.refl _
    · intro h2
      refine Memory.engineWrite_wf ?_ _ _
      exact Memory.wf_same h2 rfl rfl

theorem execManifestLoad_keeps (p) (s) : OutAll (Keeps s) (execManifestLoad p s) := by
  unfold execManifestLoad
  refine OutAll.intro ?_
  refine Keeps.trans ?_ (State.forOp_keeps _ _ _ _ ?_)
  · exact Keeps.refl _
  · refine Keeps.trans ?_ (State.runMgmt_keeps _ _ _ _ _ _ _ ?_)
    · exact Keeps.refl _
    · intro a0 a1 a2
      extract_lets x3
      clear_value x3
      refine ExAll.bind_any (fun _ => trivial) ?_
      intro a4
      refine ExAll.bind_any (fun _ => trivial) ?_
      intro a5
      extract_lets x6 x7 x8
      clear_value x6
      clear_value x7
      clear_value x8
      split
      · rename_i y9 y10 y11
        refine ExAll.bind_any (fun _ => trivial) ?_
        intro a12
        refine ExAll.of_pure ?_
        refine Keeps.fst ?_
        exact Keeps.refl _
      · rename_i y13 y14
        refine ExAll.bind_any (fun _ => trivial) ?_
        intro a15
        split
        · rename_i y16 y17
          refine ExAll.intro_error ?_
          trivial
        · rename_i y18 y19 y20 y21
          have k24 := OptAll.of (State.claimStore_keeps _ _) y21
          refine ExAll.bind_any (fun _ => trivial) ?_
          intro a25
          refine ExAll.bind_any (fun _ => trivial) ?_
          intro a26
          extract_lets x27
          clear_value x27
          refine ExAll.bind_any (fun _ => trivial) ?_
          intro a28
          split
          · rename_i y29 y30 y31
            have k33 := Keeps.of_snd (freshNumber_keeps _ _ _ _ _) y31
            refine ExAll.intro_error ?_
            trivial
          · rename_i y34 y35 y36 y37
            have k39 := Keeps.of_snd (freshNumber_keeps _ _ _ _ _) y37
            refine ExAll.of_pure ?_
            refine Keeps.fst ?_
            extract_lets x40
            have k41 : Keeps a0 x40 := by
              subst x40
              refine Keeps.trans ?_ (State.fillFrames_keeps _ _ _)
              refine Keeps.trans ?_ k39
              exact k24
            clear_value x40
            refine Keeps.set_manifests ?_
            exact k41

theorem State.unloadManifest_keeps (s) (k) : Keeps s (State.unloadManifest s k) := by
  unfold State.unloadManifest
  split
  · rename_i y0 y1
    exact Keeps.refl _
  · rename_i y2 y3 y4
    extract_lets x5
    have k6 : Keeps s (x5) := by
      subst x5
      refine Keeps.trans ?_ (State.releaseFrames_keeps _ _)
      exact Keeps.refl _
    clear_value x5
    refine Keeps.set_manifests ?_
    exact k6

theorem execShardSend_keeps (p) (s) : OutAll (Keeps s) (execShardSend p s) := by
  unfold execShardSend
  refine OutAll.intro ?_
  refine Keeps.trans ?_ (State.forOp_keeps _ _ _ _ ?_)
  · exact Keeps.refl _
  · split
    · rename_i y0 y1
      exact Keeps.refl _
    · rename_i y2 y3 y4
      split
      · rename_i y5
        exact Keeps.refl _
      · rename_i y6
        split
        · rename_i y7 y8 y9
          refine Keeps.trans ?_ (State.finish_keeps _ _ _)
          exact Keeps.refl _
        · rename_i y10 y11 y12
          refine Keeps.trans ?_ (State.begin_keeps _ _ _)
          exact Keeps.refl _

theorem execShardReceive_keeps (p) (s) : OutAll (Keeps s) (execShardReceive p s) := by
  unfold execShardReceive
  refine OutAll.intro ?_
  refine Keeps.trans ?_ (State.forOp_keeps _ _ _ _ ?_)
  · exact Keeps.refl _
  · split
    · rename_i y0 y1
      exact Keeps.refl _
    · rename_i y2 y3 y4
      split
      · rename_i y5
        exact Keeps.refl _
      · rename_i y6
        split
        · rename_i y7 y8
          exact Keeps.refl _
        · rename_i y9 y10 y11
          split
          · rename_i y12 y13 y14
            refine Keeps.trans ?_ (State.finish_keeps _ _ _)
            exact Keeps.refl _
          · rename_i y15 y16 y17
            refine Keeps.trans ?_ (State.begin_keeps _ _ _)
            exact Keeps.refl _

theorem State.noteShard_keeps (s) (p) : Keeps s (State.noteShard s p) := by
  unfold State.noteShard
  split
  · rename_i y0
    refine Keeps.set_manifests ?_
    exact Keeps.refl _
  · rename_i y1
    exact Keeps.refl _

theorem State.setShard_keeps (s) (c) (w) : Keeps s (State.setShard s c w) := by
  unfold State.setShard
  refine Keeps.trans ?_ (State.updCmd_keeps _ _ _ _)
  exact Keeps.refl _

theorem State.shardSend_keeps (s) (j) (piece) (trailer) (bs) : Keeps s (State.shardSend s j piece trailer bs) := by
  unfold State.shardSend
  split
  · rename_i y0 y1 y2
    refine Keeps.trans ?_ (State.postHeld_keeps _ _ _ _ _)
    exact Keeps.refl _
  · rename_i y3 y4
    exact Keeps.refl _

theorem State.endShard_keeps (s) (c) (e) : Keeps s (State.endShard s c e) := by
  unfold State.endShard
  extract_lets x0 x1
  clear_value x0
  clear_value x1
  refine Keeps.trans ?_ (State.finish_keeps _ _ _)
  refine Keeps.set_stylus ?_
  exact Keeps.refl _

theorem State.settleShard_keeps (s) (j) : Keeps s (State.settleShard s j) := by
  unfold State.settleShard
  split
  · rename_i y0 y1 y2 y3 y4 y5
    extract_lets x6 x7 x8 x9 x10 x11 x12
    have k13 : Keeps s x6 := by
      subst x6
      refine Keeps.trans ?_ (State.shardSend_keeps _ _ _ _ _)
      exact Keeps.refl _
    clear_value x6
    clear_value x7
    clear_value x8
    clear_value x9
    have k14 : Keeps s x10 := by
      subst x10
      refine Keeps.set_manifests ?_
      exact k13
    clear_value x10
    clear_value x12
    split
    · rename_i y15
      refine Keeps.trans ?_ (State.endShard_keeps _ _ _)
      exact k13
    · rename_i y16
      split
      · rename_i y17
        refine Keeps.trans ?_ (State.endShard_keeps _ _ _)
        exact k13
      · rename_i y18
        refine Keeps.trans ?_ (State.settleSends_keeps _)
        refine Keeps.trans ?_ (State.setShard_keeps _ _ _)
        exact k14
  · rename_i y19 y20 y21
    exact Keeps.refl _

theorem State.hashPiece_keeps (s) (j) (bs) : Keeps s (State.hashPiece s j bs) := by
  unfold State.hashPiece
  extract_lets x0 x1 x2 x3 x4 x5 x6 x7 x8
  clear_value x0
  clear_value x1
  have k9 : Keeps s (x2) := by
    subst x2
    split
    · rename_i y10
      refine Keeps.trans ?_ (State.shardSend_keeps _ _ _ _ _)
      exact Keeps.refl _
    · rename_i y11
      exact Keeps.refl _
  clear_value x2
  clear_value x3
  clear_value x4
  clear_value x5
  clear_value x6
  clear_value x7
  have k12 : Keeps s (x8) := by
    subst x8
    refine Keeps.trans ?_ (State.shardSend_keeps _ _ _ _ _)
    exact k9
  clear_value x8
  split
  · rename_i y13
    refine Keeps.trans ?_ (State.setShard_keeps _ _ _)
    exact k9
  · rename_i y14
    split
    · rename_i y15
      split
      · rename_i y16
        refine Keeps.trans ?_ (State.settleSends_keeps _)
        refine Keeps.trans ?_ (State.setShard_keeps _ _ _)
        exact k12
      · rename_i y17
        refine Keeps.trans ?_ (State.endShard_keeps _ _ _)
        exact k12
    · rename_i y18
      refine Keeps.trans ?_ (State.settleShard_keeps _ _)
      refine Keeps.trans ?_ (State.setShard_keeps _ _ _)
      exact k9

theorem execShardPieceHashed_keeps (queue) (seq) (s) : OutAll (Keeps s) (execShardPieceHashed queue seq s) := by
  unfold execShardPieceHashed
  refine OutAll.intro ?_
  split
  · rename_i y0 y1
    exact Keeps.refl _
  · rename_i y2 y3 y4
    extract_lets x5 x6 x7 x8
    clear_value x5
    clear_value x6
    clear_value x7
    clear_value x8
    split
    · rename_i y9
      exact Keeps.refl _
    · rename_i y10
      split
      · rename_i y11
        refine Keeps.trans ?_ (State.waitHost_keeps _ _ _)
        exact Keeps.refl _
      · rename_i y12
        split
        · rename_i y13 y14 y15 y16
          have k21 := ExAll.of_error (State.touch_keeps _ _ _ _ _ _ _) y16
          refine Keeps.trans ?_ (State.engineFault_keeps _ _ _ _ _ _ _ _)
          exact Keeps.refl _
        · rename_i y22 y23 y24
          have k28 := ExAll.of (State.touch_keeps _ _ _ _ _ _ _) y24
          split
          · rename_i y29 y30 y31
            refine Keeps.trans ?_ (State.mediaFault_keeps _ _ _ _ _ _ _)
            exact k28
          · rename_i y32 y33
            refine Keeps.trans ?_ (State.hashPiece_keeps _ _ _)
            exact k28

theorem State.countDiscard_keeps (s) (n) (tag) : Keeps s (State.countDiscard s n tag) := by
  unfold State.countDiscard
  refine Keeps.set_manifests ?_
  exact Keeps.refl _

theorem State.strayShard_keeps (s) (k) (tag) : Keeps s (State.strayShard s k tag) := by
  unfold State.strayShard
  split
  · rename_i y0 y1 y2
    split
    · rename_i y3
      refine Keeps.trans ?_ (State.countDiscard_keeps _ _ _)
      refine Keeps.trans ?_ (State.takeMsg_keeps _ _ _)
      exact Keeps.refl _
    · rename_i y4
      refine Keeps.trans ?_ (State.rnrMsg_keeps _ _)
      exact Keeps.refl _
  · rename_i y5 y6
    exact Keeps.refl _

theorem execShardPieceReceived_keeps (qp) (piece) (s) : OutAll (Keeps s) (execShardPieceReceived qp piece s) := by
  unfold execShardPieceReceived
  extract_lets x0
  have k1 : Keeps s (x0) := by
    subst x0
    refine Keeps.trans ?_ (State.takeMsg_keeps _ _ _)
    exact Keeps.refl _
  clear_value x0
  refine OutAll.intro ?_
  split
  · rename_i y2 y3
    exact Keeps.refl _
  · rename_i y4 y5 y6
    extract_lets x7
    clear_value x7
    split
    · rename_i y8 y9
      refine Keeps.trans ?_ (State.strayShard_keeps _ _ _)
      exact Keeps.refl _
    · rename_i y10 y11 y12
      extract_lets x13
      clear_value x13
      split
      · rename_i y14
        exact k1
      · rename_i y15
        split
        · rename_i y16 y17 y18 y19
          refine Keeps.trans ?_ (State.engineFault_keeps _ _ _ _ _ _ _ _)
          exact k1
        · rename_i y21 y22 y23
          have k24 := ExAll.of (State.touch_keeps _ _ _ _ _ _ _) y23
          extract_lets x25 x26
          have k27 : Keeps s (x25) := by
            subst x25
            refine Keeps.trans ?_ (State.vwrite_keeps _ _ _ _ _)
            refine Keeps.trans ?_ k24
            exact k1
          clear_value x25
          clear_value x26
          refine Keeps.trans ?_ (State.shardSend_keeps _ _ _ _ _)
          refine Keeps.trans ?_ (State.setShard_keeps _ _ _)
          exact k27

theorem execShardTrailerReceived_keeps (qp) (trailer) (s) : OutAll (Keeps s) (execShardTrailerReceived qp trailer s) := by
  unfold execShardTrailerReceived
  extract_lets x0
  have k1 : Keeps s (x0) := by
    subst x0
    refine Keeps.trans ?_ (State.takeMsg_keeps _ _ _)
    exact Keeps.refl _
  clear_value x0
  refine OutAll.intro ?_
  split
  · rename_i y2 y3
    exact Keeps.refl _
  · rename_i y4 y5 y6
    split
    · rename_i y7 y8
      refine Keeps.trans ?_ (State.strayShard_keeps _ _ _)
      exact Keeps.refl _
    · rename_i y9 y10 y11
      extract_lets x12 x13
      clear_value x12
      clear_value x13
      refine Keeps.trans ?_ (State.settleShard_keeps _ _)
      refine Keeps.trans ?_ (State.setShard_keeps _ _ _)
      exact k1

theorem execShardTimeout_keeps (queue) (seq) (s) : OutAll (Keeps s) (execShardTimeout queue seq s) := by
  unfold execShardTimeout
  refine OutAll.intro ?_
  split
  · rename_i y0 y1 y2 y3 y4 y5
    extract_lets x6
    split
    · rename_i y7
      refine Keeps.trans ?_ (State.endShard_keeps _ _ _)
      exact Keeps.refl _
    · rename_i y8
      exact Keeps.refl _
  · rename_i y9 y10 y11
    exact Keeps.refl _

theorem State.installEpoch_keeps (s) (n) (m) (number) (manifest) (slot) (blank) : Keeps s (State.installEpoch s n m number manifest slot blank) := by
  unfold State.installEpoch
  extract_lets x0 x1 x2 x3 x4
  clear_value x0
  have k5 : Keeps s (x1) := by
    subst x1
    refine Keeps.trans ?_ (State.newKey_keeps _ _)
    exact Keeps.refl _
  clear_value x1
  clear_value x2
  have k6 : Keeps s (x3) := by
    subst x3
    refine Keeps.foldl _ ?_ ?_
    · exact k5
    · intro a7 a8
      extract_lets x9 x10
      clear_value x9
      clear_value x10
      split
      · rename_i y11
        exact Keeps.refl _
      · rename_i y12
        refine Keeps.trans ?_ (State.updMem_keeps _ _ ?_)
        · exact Keeps.refl _
        · intro h13
          refine Memory.engineWrite_wf ?_ _ _
          exact Memory.wf_same h13 rfl rfl
  clear_value x3
  have k14 : Keeps s (x4) := by
    subst x4
    refine Keeps.foldl _ ?_ ?_
    · exact k6
    · intro a15 a16
      refine Keeps.trans ?_ (State.updMem_keeps _ _ ?_)
      · exact Keeps.refl _
      · intro h17
        exact Memory.wf_same h17 rfl rfl
  clear_value x4
  refine Keeps.set_epochs_newest ?_
  exact k14

theorem execBaseInstall_keeps (p) (s) : OutAll (Keeps s) (execBaseInstall p s) := by
  unfold execBaseInstall
  refine OutAll.intro ?_
  refine Keeps.trans ?_ (State.forOp_keeps _ _ _ _ ?_)
  · exact Keeps.refl _
  · refine Keeps.trans ?_ (State.runReach_keeps _ _ _ _ _ _ ?_)
    · exact Keeps.refl _
    · intro a0 a1 a2
      extract_lets x3
      clear_value x3
      refine ExAll.bind_any (fun _ => trivial) ?_
      intro a4
      extract_lets x5 x6 x7 x8 x9
      clear_value x5
      clear_value x6
      have k10 : Keeps a0 x7 := by
        subst x7
        refine Keeps.foldl _ ?_ ?_
        · exact Keeps.refl _
        · intro a11 a12
          refine Keeps.trans ?_ (State.dropTlb_keeps _ _ _ _)
          exact Keeps.refl _
      clear_value x7
      clear_value x8
      have k13 : Keeps a0 x9 := by
        subst x9
        refine Keeps.trans ?_ (State.updCtx_keeps _ _ _)
        exact k10
      clear_value x9
      split
      · rename_i y14
        refine ExAll.of_pure ?_
        refine Keeps.fst ?_
        refine Keeps.set_manifests ?_
        exact k13
      · rename_i y15
        split
        · rename_i y16 y17 y18 y19 y20 y21 y22 y23
          have k25 := Keeps.of_snd (freshNumber_keeps _ _ _ _ _) y22
          have k28 := OptAll.of (State.claimStore_keeps _ _) y23
          extract_lets x29
          have k30 : Keeps a0 x29 := by
            subst x29
            refine Keeps.trans ?_ (State.installEpoch_keeps _ _ _ _ _ _ _)
            refine Keeps.trans ?_ k28
            exact k10
          clear_value x29
          refine ExAll.of_pure ?_
          refine Keeps.fst ?_
          refine Keeps.trans ?_ (State.updCtx_keeps _ _ _)
          exact k30
        · rename_i y31 y32 y33
          refine ExAll.intro_error ?_
          trivial

theorem execBaseMap_keeps (p) (s) : OutAll (Keeps s) (execBaseMap p s) := by
  unfold execBaseMap
  refine OutAll.intro ?_
  refine Keeps.trans ?_ (State.forOp_keeps _ _ _ _ ?_)
  · exact Keeps.refl _
  · refine Keeps.trans ?_ (State.runNow_keeps _ _ _ ?_)
    · exact Keeps.refl _
    · intro a0 a1 a2
      refine ExAll.bind_any (fun _ => trivial) ?_
      intro a3
      split
      · rename_i y4 y5 y6 y7 y8 y9
        extract_lets x10 x11
        clear_value x10
        clear_value x11
        refine ExAll.of_pure ?_
        refine Keeps.fst ?_
        refine Keeps.trans ?_ (State.updCtx_keeps _ _ _)
        exact Keeps.refl _
      · rename_i y12 y13 y14
        refine ExAll.intro_error ?_
        trivial

theorem execBaseRetire_keeps (p) (s) : OutAll (Keeps s) (execBaseRetire p s) := by
  unfold execBaseRetire
  extract_lets x0 x1
  clear_value x0
  clear_value x1
  refine OutAll.intro ?_
  refine Keeps.trans ?_ (State.forOp_keeps _ _ _ _ ?_)
  · exact Keeps.refl _
  · refine Keeps.trans ?_ (State.runNow_keeps _ _ _ ?_)
    · exact Keeps.refl _
    · intro a2 a3 a4
      refine ExAll.bind_any (fun _ => trivial) ?_
      intro a5
      refine ExAll.of_pure ?_
      refine Keeps.fst ?_
      refine Keeps.set_ctxs_epochs ?_ ?_
      · exact Keeps.refl _
      · exact keys_map _ _

theorem State.releaseEpoch_keeps (s) (k) (e) : Keeps s (State.releaseEpoch s k e) := by
  unfold State.releaseEpoch
  extract_lets x0 x1 x2 x3 x4
  have k5 : Keeps s x0 := by
    subst x0
    refine Keeps.trans ?_ (State.releaseFrames_keeps _ _)
    exact Keeps.refl _
  clear_value x0
  have k6 : Keeps s x1 := by
    subst x1
    refine Keeps.trans ?_ (State.dropKey_keeps _ _)
    exact k5
  clear_value x1
  have k7 : Keeps s x2 := by
    subst x2
    refine Keeps.set_epochs ?_
    exact k6
  clear_value x2
  clear_value x3
  have k8 : Keeps s x4 := by
    subst x4
    split
    · rename_i y9
      refine Keeps.trans ?_ (State.unloadManifest_keeps _ _)
      exact k7
    · rename_i y10
      exact k7
  clear_value x4
  refine Keeps.trans ?_ (State.logEvent_keeps _ _ _ _ _ _ _)
  exact k8

theorem execEpochRelease_keeps (epoch) (s) : OutAll (Keeps s) (execEpochRelease epoch s) := by
  unfold execEpochRelease
  refine OutAll.intro ?_
  split
  · rename_i y0 y1 y2
    split
    · rename_i y3
      refine Keeps.trans ?_ (State.releaseEpoch_keeps _ _ _)
      exact Keeps.refl _
    · rename_i y4
      exact Keeps.refl _
  · rename_i y5 y6
    exact Keeps.refl _

theorem execLedgerSet_keeps (p) (s) : OutAll (Keeps s) (execLedgerSet p s) := by
  unfold execLedgerSet
  refine OutAll.intro ?_
  refine Keeps.trans ?_ (State.forOp_keeps _ _ _ _ ?_)
  · exact Keeps.refl _
  · refine Keeps.trans ?_ (State.runReach_keeps _ _ _ _ _ _ ?_)
    · exact Keeps.refl _
    · intro a0 a1 a2
      extract_lets x3
      clear_value x3
      refine ExAll.bind_any (fun _ => trivial) ?_
      intro a4
      extract_lets x5 x6 x7 x8 x9
      clear_value x5
      clear_value x6
      clear_value x7
      have k10 : Keeps a0 x8 := by
        subst x8
        refine Keeps.trans ?_ (State.vput_keeps _ _ _ _)
        exact Keeps.refl _
      clear_value x8
      have k11 : Keeps a0 x9 := by
        subst x9
        refine Keeps.trans ?_ (State.vput_keeps _ _ _ _)
        exact k10
      clear_value x9
      split
      · rename_i y12 y13 y14 y15
        refine ExAll.bind_any (fun _ => trivial) ?_
        intro a16
        split
        · rename_i y17 y18 y19 y20
          have k22 := Keeps.of_snd (State.draw_keeps _ _) y20
          refine ExAll.of_pure ?_
          refine Keeps.fst ?_
          refine Keeps.trans ?_ (State.logEvent_keeps _ _ _ _ _ _ _)
          exact k22
      · rename_i y23 y24
        refine ExAll.bind_any (fun _ => trivial) ?_
        intro a25
        refine ExAll.bind_any (fun _ => trivial) ?_
        intro a26
        refine ExAll.of_pure ?_
        refine Keeps.fst ?_
        refine Keeps.trans ?_ (State.updCtx_keeps _ _ _)
        exact k11

theorem execTensorClass_keeps (p) (s) : OutAll (Keeps s) (execTensorClass p s) := by
  unfold execTensorClass
  refine OutAll.intro ?_
  refine Keeps.trans ?_ (State.forOp_keeps _ _ _ _ ?_)
  · exact Keeps.refl _
  · refine Keeps.trans ?_ (State.runNow_keeps _ _ _ ?_)
    · exact Keeps.refl _
    · intro a0 a1 a2
      extract_lets x3
      clear_value x3
      refine ExAll.bind_any (fun _ => trivial) ?_
      intro a4
      refine ExAll.bind_any (fun _ => trivial) ?_
      intro a5
      extract_lets x6
      clear_value x6
      split
      · rename_i y7 y8
        refine ExAll.intro_error ?_
        trivial
      · rename_i y9 y10 y11
        extract_lets x12 x13
        clear_value x12
        clear_value x13
        refine ExAll.of_pure ?_
        refine Keeps.fst ?_
        refine Keeps.trans ?_ (State.putTensors_keeps _ _ _ _)
        exact Keeps.refl _

theorem State.noteRound_keeps (s) (n) (p) : Keeps s (State.noteRound s n p) := by
  unfold State.noteRound
  split
  · rename_i y0
    split
    · rename_i y1 y2 y3 y4
      have k5 : Keeps _ y3 := Keeps.of_snd (State.drawNs_keeps _) y4
      extract_lets x6
      clear_value x6
      refine Keeps.trans ?_ (State.ledgerFlag_keeps _ _ _ _)
      refine Keeps.trans ?_ (State.updLedger_keeps _ _ _)
      exact k5
  · rename_i y7
    exact Keeps.refl _

theorem State.extendRound_keeps (s) (n) (p) (done) : Keeps s (State.extendRound s n p done) := by
  unfold State.extendRound
  split
  · rename_i y0
    split
    · rename_i y1 y2 y3 y4
      have k5 : Keeps _ y3 := Keeps.of_snd (State.drawNs_keeps _) y4
      refine Keeps.trans ?_ (State.updLedger_keeps _ _ _)
      exact k5
  · rename_i y6
    exact Keeps.refl _

theorem State.saveEnd_keeps (s) (c) (j) (leaves) : Keeps s (State.saveEnd s c j leaves) := by
  unfold State.saveEnd
  extract_lets x0 x1 x2 x3 x4
  clear_value x0
  clear_value x1
  clear_value x2
  clear_value x3
  clear_value x4
  split
  · rename_i y5
    refine Keeps.trans ?_ (State.waitHost_keeps _ _ _)
    exact Keeps.refl _
  · rename_i y6
    split
    · rename_i y7 y8 y9 y10
      refine Keeps.trans ?_ (State.engineFault_keeps _ _ _ _ _ _ _ _)
      exact Keeps.refl _
    · rename_i y12 y13 y14
      have k15 : Keeps s y13 := by
        refine ExAll.of (E := fun r => True) (P := fun r => Keeps s (r)) ?_ y14
        split
        · rename_i y16 y17
          refine (State.touch_keeps _ _ _ _ _ _ _)
        · rename_i y18
          refine ExAll.intro ?_
          exact Keeps.refl _
      extract_lets x19
      have k20 : Keeps s (x19) := by
        subst x19
        split
        · rename_i y21 y22
          refine Keeps.trans ?_ (State.vwrite_keeps _ _ _ _ _)
          exact k15
        · rename_i y23
          exact k15
      clear_value x19
      split
      · rename_i y24
        refine Keeps.trans ?_ (State.finish_keeps _ _ _)
        exact k20
      · rename_i y25
        refine Keeps.trans ?_ (State.updCmd_keeps _ _ _ _)
        refine Keeps.trans ?_ (State.postHeld_keeps _ _ _ _ _)
        exact k20

theorem State.saveRun_keeps (s) (c) (j) (b3) : Keeps s (State.saveRun s c j b3) := by
  induction b3 generalizing s c j
  · rw [State.saveRun]
    exact Keeps.refl _
  · rename_i y0 ih1
    rw [State.saveRun]
    split
    · rename_i y2
      refine Keeps.trans ?_ (State.saveEnd_keeps _ _ _ _)
      exact Keeps.refl _
    · rename_i y3
      split
      · rename_i y4
        refine Keeps.trans ?_ (State.endShard_keeps _ _ _)
        exact Keeps.refl _
      · rename_i y5
        extract_lets x6 x7 x8
        clear_value x6
        clear_value x7
        clear_value x8
        split
        · rename_i y9
          refine Keeps.trans ?_ (State.waitHost_keeps _ _ _)
          exact Keeps.refl _
        · rename_i y10
          split
          · rename_i y11
            refine Keeps.trans ?_ (State.waitHost_keeps _ _ _)
            exact Keeps.refl _
          · rename_i y12
            split
            · rename_i y13 y14 y15 y16
              have k21 := ExAll.of_error (State.touch_keeps _ _ _ _ _ _ _) y16
              refine Keeps.trans ?_ (State.engineFault_keeps _ _ _ _ _ _ _ _)
              exact Keeps.refl _
            · rename_i y22 y23 y24
              have k28 := ExAll.of (State.touch_keeps _ _ _ _ _ _ _) y24
              split
              · rename_i y29 y30 y31 y32
                refine Keeps.trans ?_ (State.engineFault_keeps _ _ _ _ _ _ _ _)
                exact k28
              · rename_i y33 y34 y35
                have k36 := ExAll.of (E := fun _ => True) (P := fun r => Keeps s r) ?_ y35
                · split
                  · rename_i y37 y38 y39
                    refine Keeps.trans ?_ (State.mediaFault_keeps _ _ _ _ _ _ _)
                    exact k36
                  · rename_i y40 y41
                    extract_lets x42 x43 x44
                    clear_value x42
                    clear_value x43
                    have k45 : Keeps s x44 := by
                      subst x44
                      split
                      · rename_i y46 y47
                        refine Keeps.trans ?_ (State.vwrite_keeps _ _ _ _ _)
                        exact k36
                      · rename_i y48
                        refine Keeps.trans ?_ (State.postHeld_keeps _ _ _ _ _)
                        exact k36
                    clear_value x44
                    refine Keeps.trans ?_ (ih1 _ _ _)
                    refine Keeps.trans ?_ (State.updCmd_keeps _ _ _ _)
                    exact k45
                split
                · rename_i y49 y50
                  refine ExAll.mono (fun _ _ => trivial) (fun _ h => Keeps.trans ?_ h) (State.touch_keeps _ _ _ _ _ _ _)
                  exact k28
                · rename_i y51
                  refine ExAll.intro ?_
                  exact k28

theorem State.save_keeps (s) (p) : Keeps s (State.save s p) := by
  unfold State.save
  split
  · rename_i y0 y1 y2
    split
    · rename_i y3 y4
      exact Keeps.refl _
    · rename_i y5 y6 y7
      split
      · rename_i y8 y9 y10 y11 y12 y13
        refine Keeps.trans ?_ (State.saveRun_keeps _ _ _ _)
        refine Keeps.trans ?_ (State.begin_keeps _ _ _)
        exact Keeps.refl _
      · rename_i y14 y15 y16 y17
        refine Keeps.trans ?_ (State.finish_keeps _ _ _)
        exact Keeps.refl _
      · rename_i y18 y19 y20 y21 y22
        refine Keeps.trans ?_ (State.finish_keeps _ _ _)
        exact Keeps.refl _
  · rename_i y23 y24
    split
    · rename_i y25 y26
      exact Keeps.refl _
    · rename_i y27 y28 y29
      split
      · rename_i y30 y31 y32 y33 y34 y35
        refine Keeps.trans ?_ (State.saveRun_keeps _ _ _ _)
        exact Keeps.refl _
      · rename_i y36 y37 y38
        exact Keeps.refl _

theorem execSnapshot_keeps (p) (s) : OutAll (Keeps s) (execSnapshot p s) := by
  unfold execSnapshot
  refine OutAll.intro ?_
  refine Keeps.trans ?_ (State.forOp_keeps _ _ _ _ ?_)
  · exact Keeps.refl _
  · refine Keeps.trans ?_ (State.save_keeps _ _)
    exact Keeps.refl _

theorem execMirror_keeps (p) (s) : OutAll (Keeps s) (execMirror p s) := by
  unfold execMirror
  refine OutAll.intro ?_
  refine Keeps.trans ?_ (State.forOp_keeps _ _ _ _ ?_)
  · exact Keeps.refl _
  · refine Keeps.trans ?_ (State.save_keeps _ _)
    exact Keeps.refl _

theorem execKeepPieceReceived_keeps (qp) (piece) (s) : OutAll (Keeps s) (execKeepPieceReceived qp piece s) := by
  unfold execKeepPieceReceived
  extract_lets x0 x1 x2 x3 x4
  clear_value x0
  clear_value x1
  clear_value x2
  clear_value x3
  clear_value x4
  refine OutAll.intro ?_
  split
  · rename_i y5
    exact Keeps.refl _
  · rename_i y6
    split
    · rename_i y7 y8
      split
      · rename_i y9
        refine Keeps.trans ?_ (State.takeMsg_keeps _ _ _)
        exact Keeps.refl _
      · rename_i y10
        exact Keeps.refl _
    · rename_i y11 y12 y13 y14
      refine Keeps.trans ?_ (State.takeMsg_keeps _ _ _)
      exact Keeps.refl _
    · rename_i y15 y16 y17 y18 y19
      split
      · rename_i y20
        refine Keeps.trans ?_ (State.takeMsg_keeps _ _ _)
        exact Keeps.refl _
      · rename_i y21
        extract_lets x22 x23 x24 x25
        clear_value x22
        clear_value x23
        clear_value x24
        clear_value x25
        split
        · rename_i y26
          refine Keeps.trans ?_ (State.takeMsg_keeps _ _ _)
          exact Keeps.refl _
        · rename_i y27
          split
          · rename_i y28 y29 y30 y31
            have k36 := ExAll.of_error (State.touch_keeps _ _ _ _ _ _ _) y31
            refine Keeps.trans ?_ (State.takeMsg_keeps _ _ _)
            refine Keeps.trans ?_ (State.faultRecord_keeps _ _ _)
            exact Keeps.refl _
          · rename_i y37 y38 y39
            have k43 := ExAll.of (State.touch_keeps _ _ _ _ _ _ _) y39
            refine Keeps.trans ?_ (State.takeMsg_keeps _ _ _)
            refine Keeps.trans ?_ (State.updLedger_keeps _ _ _)
            refine Keeps.trans ?_ (State.vwrite_keeps _ _ _ _ _)
            exact k43

theorem execKeepDigestReceived_keeps (qp) (record) (s) : OutAll (Keeps s) (execKeepDigestReceived qp record s) := by
  unfold execKeepDigestReceived
  refine OutAll.intro ?_
  split
  · rename_i y0
    exact Keeps.refl _
  · rename_i y1
    split
    · rename_i y2 y3
      exact Keeps.refl _
    · rename_i y4 y5 y6 y7
      refine Keeps.trans ?_ (State.takeMsg_keeps _ _ _)
      exact Keeps.refl _
    · rename_i y8 y9 y10 y11 y12
      extract_lets x13 x14
      have k15 : Keeps s (x13) := by
        subst x13
        refine Keeps.trans ?_ (State.updLedger_keeps _ _ _)
        exact Keeps.refl _
      clear_value x13
      clear_value x14
      split
      · rename_i y16 y17
        refine Keeps.trans ?_ (State.takeMsg_keeps _ _ _)
        exact Keeps.refl _
      · rename_i y18 y19 y20
        extract_lets x21
        clear_value x21
        split
        · rename_i y22
          refine Keeps.trans ?_ (State.takeMsg_keeps _ _ _)
          exact k15
        · rename_i y23
          split
          · rename_i y24 y25 y26 y27
            refine Keeps.trans ?_ (State.takeMsg_keeps _ _ _)
            refine Keeps.trans ?_ (State.faultRecord_keeps _ _ _)
            exact k15
          · rename_i y29 y30 y31
            have k32 := ExAll.of (State.touch_keeps _ _ _ _ _ _ _) y31
            extract_lets x33 x34
            have k35 : Keeps s (x33) := by
              subst x33
              refine Keeps.trans ?_ (State.vput_keeps _ _ _ _)
              refine Keeps.trans ?_ k32
              exact k15
            clear_value x33
            have k36 : Keeps s (x34) := by
              subst x34
              refine Keeps.trans ?_ (State.vput_keeps _ _ _ _)
              exact k35
            clear_value x34
            refine Keeps.trans ?_ (State.takeMsg_keeps _ _ _)
            refine Keeps.trans ?_ (State.vput_keeps _ _ _ _)
            exact k36

theorem execRestoreRequestReceived_keeps (qp) (request) (s) : OutAll (Keeps s) (execRestoreRequestReceived qp request s) := by
  unfold execRestoreRequestReceived
  extract_lets x0 x1
  clear_value x0
  clear_value x1
  refine OutAll.intro ?_
  split
  · rename_i y2
    exact Keeps.refl _
  · rename_i y3
    split
    · rename_i y4 y5
      exact Keeps.refl _
    · rename_i y6 y7 y8 y9
      refine Keeps.trans ?_ (State.takeMsg_keeps _ _ _)
      exact Keeps.refl _
    · rename_i y10 y11 y12 y13 y14
      split
      · rename_i y15 y16
        refine Keeps.trans ?_ (State.takeMsg_keeps _ _ _)
        exact Keeps.refl _
      · rename_i y17 y18 y19 y20
        extract_lets x21
        have k22 : Keeps s (x21) := by
          subst x21
          refine Keeps.trans ?_ (State.postHeld_keeps _ _ _ _ _)
          refine Keeps.trans ?_ (State.takeMsg_keeps _ _ _)
          exact Keeps.refl _
        clear_value x21
        refine Keeps.foldl _ ?_ ?_
        · exact k22
        · intro a23 a24
          refine Keeps.trans ?_ (State.postHeld_keeps _ _ _ _ _)
          exact Keeps.refl _

theorem State.noteRestore_keeps (s) (n) (d) (step) : Keeps s (State.noteRestore s n d step) := by
  unfold State.noteRestore
  split
  · rename_i y0 y1 y2
    split
    · rename_i y3
      refine Keeps.trans ?_ (State.updLedger_keeps _ _ _)
      exact Keeps.refl _
    · rename_i y4
      exact Keeps.refl _
  · rename_i y5 y6
    exact Keeps.refl _

theorem State.restoreChunk_keeps (s) (c) (d) (bs) (leaf) (next) (hk0 : ∀ z0 z1, Keeps z0 (next z0 z1)) : Keeps s (State.restoreChunk s c d bs leaf next) := by
  unfold State.restoreChunk
  extract_lets x0 x1
  clear_value x0
  clear_value x1
  split
  · rename_i y2
    refine Keeps.trans ?_ (State.waitHost_keeps _ _ _)
    exact Keeps.refl _
  · rename_i y3
    split
    · rename_i y4 y5 y6 y7
      refine Keeps.trans ?_ (State.engineFault_keeps _ _ _ _ _ _ _ _)
      exact Keeps.refl _
    · rename_i y9 y10 y11
      have k12 := ExAll.of (State.touch_keeps _ _ _ _ _ _ _) y11
      extract_lets x13
      have k14 : Keeps s (x13) := by
        subst x13
        refine Keeps.trans ?_ (State.vwrite_keeps _ _ _ _ _)
        exact k12
      clear_value x13
      split
      · rename_i y15
        refine Keeps.trans ?_ (State.endShard_keeps _ _ _)
        exact k14
      · rename_i y16
        refine Keeps.trans ?_ (hk0 _ _)
        refine Keeps.trans ?_ (State.updCmd_keeps _ _ _ _)
        exact k14

theorem State.restoreRun_keeps (s) (c) (d) (h) (g) (b5) : Keeps s (State.restoreRun s c d h g b5) := by
  induction b5 generalizing s c d h g
  · rw [State.restoreRun]
    exact Keeps.refl _
  · rename_i y0 ih1
    rw [State.restoreRun]
    split
    · rename_i y2
      refine Keeps.trans ?_ (State.finish_keeps _ _ _)
      refine Keeps.trans ?_ (State.noteRestore_keeps _ _ _ _)
      exact Keeps.refl _
    · rename_i y3
      split
      · rename_i y4
        refine Keeps.trans ?_ (State.finish_keeps _ _ _)
        exact Keeps.refl _
      · rename_i y5
        extract_lets x6
        clear_value x6
        split
        · rename_i y7
          refine Keeps.trans ?_ (State.waitHost_keeps _ _ _)
          exact Keeps.refl _
        · rename_i y8
          split
          · rename_i y9 y10 y11 y12
            have k17 := ExAll.of_error (State.touch_keeps _ _ _ _ _ _ _) y12
            refine Keeps.trans ?_ (State.engineFault_keeps _ _ _ _ _ _ _ _)
            exact Keeps.refl _
          · rename_i y18 y19 y20
            have k24 := ExAll.of (State.touch_keeps _ _ _ _ _ _ _) y20
            split
            · rename_i y25 y26 y27
              refine Keeps.trans ?_ (State.mediaFault_keeps _ _ _ _ _ _ _)
              exact k24
            · rename_i y28 y29
              refine Keeps.trans ?_ (State.restoreChunk_keeps _ _ _ _ _ _ ?_)
              · exact k24
              · intro a30 a31
                refine Keeps.trans ?_ (ih1 _ _ _ _ _)
                exact Keeps.refl _

theorem State.restoreStart_keeps (s) (c) : Keeps s (State.restoreStart s c) := by
  unfold State.restoreStart
  extract_lets x0 x1
  clear_value x0
  clear_value x1
  split
  · rename_i y2 y3 y4 y5 y6 y7
    extract_lets x8
    clear_value x8
    split
    · rename_i y9
      refine Keeps.trans ?_ (State.waitHost_keeps _ _ _)
      exact Keeps.refl _
    · rename_i y10
      split
      · rename_i y11 y12 y13 y14
        have k19 := ExAll.of_error (State.touch_keeps _ _ _ _ _ _ _) y14
        refine Keeps.trans ?_ (State.engineFault_keeps _ _ _ _ _ _ _ _)
        exact Keeps.refl _
      · rename_i y20 y21 y22
        have k26 := ExAll.of (State.touch_keeps _ _ _ _ _ _ _) y22
        split
        · rename_i y27 y28 y29
          refine Keeps.trans ?_ (State.mediaFault_keeps _ _ _ _ _ _ _)
          exact k26
        · rename_i y30 y31
          extract_lets x32
          clear_value x32
          split
          · rename_i y33
            split
            · rename_i y34 y35
              refine Keeps.trans ?_ (State.finish_keeps _ _ _)
              exact k26
            · rename_i y36 y37 y38
              split
              · rename_i y39
                refine Keeps.trans ?_ (State.restoreRun_keeps _ _ _ _ _ _)
                refine Keeps.trans ?_ (State.begin_keeps _ _ _)
                exact k26
              · rename_i y40
                refine Keeps.trans ?_ (State.finish_keeps _ _ _)
                exact k26
          · rename_i y41
            split
            · rename_i y42
              refine Keeps.trans ?_ (State.finish_keeps _ _ _)
              exact k26
            · rename_i y43
              refine Keeps.trans ?_ (State.postHeld_keeps _ _ _ _ _)
              refine Keeps.trans ?_ (State.begin_keeps _ _ _)
              exact k26
  · rename_i y44 y45 y46
    refine Keeps.trans ?_ (State.finish_keeps _ _ _)
    exact Keeps.refl _

theorem execRestore_keeps (p) (s) : OutAll (Keeps s) (execRestore p s) := by
  unfold execRestore
  refine OutAll.intro ?_
  refine Keeps.trans ?_ (State.forOp_keeps _ _ _ _ ?_)
  · exact Keeps.refl _
  · split
    · rename_i y0 y1 y2
      split
      · rename_i y3 y4
        exact Keeps.refl _
      · rename_i y5 y6 y7
        split
        · rename_i y8 y9 y10
          refine Keeps.trans ?_ (State.finish_keeps _ _ _)
          exact Keeps.refl _
        · rename_i y11 y12 y13
          refine Keeps.trans ?_ (State.restoreStart_keeps _ _)
          exact Keeps.refl _
    · rename_i y14 y15
      split
      · rename_i y16 y17
        exact Keeps.refl _
      · rename_i y18 y19 y20
        extract_lets x21
        clear_value x21
        split
        · rename_i y22 y23 y24 y25 y26 y27 y28 y29 y30 y31 y32
          split
          · rename_i y33
            split
            · rename_i y34
              refine Keeps.trans ?_ (State.restoreStart_keeps _ _)
              exact Keeps.refl _
            · rename_i y35
              refine Keeps.trans ?_ (State.restoreRun_keeps _ _ _ _ _ _)
              exact Keeps.refl _
          · rename_i y36
            refine Keeps.trans ?_ (State.restoreStart_keeps _ _)
            exact Keeps.refl _
        · rename_i y37 y38 y39 y40 y41 y42
          split
          · rename_i y43
            refine Keeps.trans ?_ (State.restoreStart_keeps _ _)
            exact Keeps.refl _
          · rename_i y44
            exact Keeps.refl _
        · rename_i y45 y46 y47 y48 y49 y50
          exact Keeps.refl _

theorem execRestoreChunkReceived_keeps (qp) (chunk) (s) : OutAll (Keeps s) (execRestoreChunkReceived qp chunk s) := by
  unfold execRestoreChunkReceived
  extract_lets x0 x1
  have k2 : Keeps s (x0) := by
    subst x0
    refine Keeps.trans ?_ (State.takeMsg_keeps _ _ _)
    exact Keeps.refl _
  clear_value x0
  clear_value x1
  refine OutAll.intro ?_
  split
  · rename_i y3
    exact Keeps.refl _
  · rename_i y4
    split
    · rename_i y5 y6
      split
      · rename_i y7
        exact Keeps.refl _
      · rename_i y8
        refine Keeps.trans ?_ (State.takeMsg_keeps _ _ _)
        exact Keeps.refl _
    · rename_i y9 y10 y11
      extract_lets x12
      clear_value x12
      split
      · rename_i y13 y14 y15 y16 y17 y18 y19 y20
        extract_lets x21 x22
        clear_value x21
        clear_value x22
        split
        · rename_i y23
          refine Keeps.trans ?_ (State.endShard_keeps _ _ _)
          exact k2
        · rename_i y24
          refine Keeps.trans ?_ (State.updCmd_keeps _ _ _ _)
          exact k2
      · rename_i y25 y26 y27 y28 y29 y30 y31 y32 y33 y34
        split
        · rename_i y35
          exact k2
        · rename_i y36
          refine Keeps.trans ?_ (State.restoreChunk_keeps _ _ _ _ _ _ ?_)
          · exact k2
          · intro a37 a38
            split
            · rename_i y39
              refine Keeps.trans ?_ (State.finish_keeps _ _ _)
              refine Keeps.trans ?_ (State.noteRestore_keeps _ _ _ _)
              exact Keeps.refl _
            · rename_i y40
              exact Keeps.refl _
      · rename_i y41 y42 y43 y44 y45
        exact Keeps.refl _

theorem execReplay_keeps (p) (s) : OutAll (Keeps s) (execReplay p s) := by
  unfold execReplay
  refine OutAll.intro ?_
  refine Keeps.trans ?_ (State.forOp_keeps _ _ _ _ ?_)
  · exact Keeps.refl _
  · refine Keeps.trans ?_ (State.runReach_keeps _ _ _ _ _ _ ?_)
    · exact Keeps.refl _
    · intro a0 a1 a2
      extract_lets x3 x4
      clear_value x3
      clear_value x4
      refine ExAll.bind_any (fun _ => trivial) ?_
      intro a5
      refine ExAll.bind_any (fun _ => trivial) ?_
      intro a6
      split
      · rename_i y7 y8
        refine ExAll.intro_error ?_
        trivial
      · rename_i y9 y10 y11
        extract_lets x12 x13 x14
        clear_value x12
        have k15 : Keeps a0 x13 := by
          subst x13
          refine Keeps.foldl _ ?_ ?_
          · exact Keeps.refl _
          · intro a16 a17
            refine Keeps.trans ?_ (State.closeEntry_keeps _ _ _)
            exact Keeps.refl _
        clear_value x13
        have k18 : Keeps a0 x14 := by
          subst x14
          refine Keeps.trans ?_ (State.updCtx_keeps _ _ _)
          exact k15
        clear_value x14
        refine ExAll.of_pure ?_
        refine Keeps.fst ?_
        refine Keeps.trans ?_ (State.updLedger_keeps _ _ _)
        exact k18

theorem execPlacementSet_keeps (p) (s) : OutAll (Keeps s) (execPlacementSet p s) := by
  unfold execPlacementSet
  refine OutAll.intro ?_
  refine Keeps.trans ?_ (State.forOp_keeps _ _ _ _ ?_)
  · exact Keeps.refl _
  · refine Keeps.trans ?_ (State.runNow_keeps _ _ _ ?_)
    · exact Keeps.refl _
    · intro a0 a1 a2
      refine ExAll.bind_any (fun _ => trivial) ?_
      intro a3
      refine ExAll.of_pure ?_
      refine Keeps.fst ?_
      refine Keeps.set_nextPlacement ?_
      exact Keeps.refl _

theorem execSpareArm_keeps (p) (s) : OutAll (Keeps s) (execSpareArm p s) := by
  unfold execSpareArm
  refine OutAll.intro ?_
  refine Keeps.trans ?_ (State.forOp_keeps _ _ _ _ ?_)
  · exact Keeps.refl _
  · refine Keeps.trans ?_ (State.runProof_keeps _ _ _ _ ?_)
    · exact Keeps.refl _
    · intro a0 a1 a2
      extract_lets x3
      clear_value x3
      refine ExAll.bind_any (fun _ => trivial) ?_
      intro a4
      refine ExAll.of_pure ?_
      refine Keeps.fst ?_
      refine Keeps.set_spare ?_
      exact Keeps.refl _

theorem State.runProofLong_keeps (s) (p) (k) (chk) (act) (hk0 : ∀ z0 z1, Keeps z0 (act z0 z1)) : Keeps s (State.runProofLong s p k chk act) := by
  unfold State.runProofLong
  split
  · rename_i y0 y1
    exact Keeps.refl _
  · rename_i y2 y3 y4
    split
    · rename_i y5 y6 y7
      exact Keeps.refl _
    · rename_i y8 y9 y10 y11 y12 y13 y14
      have k15 := ExAll.of_error (State.takeSlot_keeps _ _ _) y14
      refine Keeps.trans ?_ (State.finish_keeps _ _ _)
      refine Keeps.trans ?_ k15
      exact Keeps.refl _
    · rename_i y16 y17 y18 y19 y20 y21
      have k22 := ExAll.of (State.takeSlot_keeps _ _ _) y21
      split
      · rename_i y23 y24 y25
        refine Keeps.trans ?_ (State.finish_keeps _ _ _)
        exact k22
      · rename_i y26 y27 y28
        refine Keeps.trans ?_ (hk0 _ _)
        exact k22

theorem execSparePromote_keeps (p) (s) : OutAll (Keeps s) (execSparePromote p s) := by
  unfold execSparePromote
  extract_lets x0
  clear_value x0
  refine OutAll.intro ?_
  refine Keeps.trans ?_ (State.forOp_keeps _ _ _ _ ?_)
  · exact Keeps.refl _
  · refine Keeps.trans ?_ (State.runProofLong_keeps _ _ _ _ _ ?_)
    · exact Keeps.refl _
    · intro a1 a2
      extract_lets x3 x4 x5 x6 x7
      clear_value x3
      have k8 : Keeps a1 (x4) := by
        subst x4
        split
        · rename_i y9 y10 y11
          refine Keeps.trans ?_ (State.updCmd_keeps _ _ _ _)
          exact Keeps.refl _
        · rename_i y12 y13
          exact Keeps.refl _
      clear_value x4
      clear_value x5
      clear_value x6
      clear_value x7
      split
      · rename_i y14
        refine Keeps.trans ?_ (State.begin_keeps _ _ _)
        refine Keeps.set_spare ?_
        exact Keeps.refl _
      · rename_i y15
        split
        · rename_i y16
          refine Keeps.trans ?_ (State.finish_keeps _ _ _)
          refine Keeps.set_spare ?_
          exact k8
        · rename_i y17
          refine Keeps.trans ?_ (State.postHeld_keeps _ _ _ _ _)
          refine Keeps.trans ?_ (State.begin_keeps _ _ _)
          refine Keeps.set_spare ?_
          exact Keeps.refl _

theorem execFillRequestReceived_keeps (qp) (request) (s) : OutAll (Keeps s) (execFillRequestReceived qp request s) := by
  unfold execFillRequestReceived
  refine OutAll.intro ?_
  split
  · rename_i y0
    exact Keeps.refl _
  · rename_i y1
    split
    · rename_i y2 y3
      exact Keeps.refl _
    · rename_i y4 y5 y6
      extract_lets x7 x8 x9 x10 x11 x12 x13
      clear_value x7
      clear_value x8
      have k14 : Keeps s x9 := by
        subst x9
        refine Keeps.trans ?_ (State.postHeld_keeps _ _ _ _ _)
        refine Keeps.trans ?_ (State.takeMsg_keeps _ _ _)
        exact Keeps.refl _
      clear_value x9
      clear_value x10
      subst x11
      have k15 : Keeps s x12 := by
        subst x12
        refine Keeps.foldl_fst _ ?_ ?_
        · refine Keeps.fst ?_
          exact k14
        · intro a16 a17
          split
          · rename_i y18 y19 y20 y21 y22
            split
            · rename_i y23
              exact Keeps.refl _
            · rename_i y24
              split
              · rename_i y25 y26 y27 y28
                have k33 := ExAll.of_error (State.touch_keeps _ _ _ _ _ _ _) y28
                refine Keeps.fst ?_
                refine Keeps.trans ?_ (State.faultRecord_keeps _ _ _)
                exact Keeps.refl _
              · rename_i y34 y35 y36
                have k40 := ExAll.of (State.touch_keeps _ _ _ _ _ _ _) y36
                split
                · rename_i y41 y42 y43
                  refine Keeps.fst ?_
                  refine Keeps.trans ?_ (State.logMedia_keeps _ _ _)
                  refine Keeps.trans ?_ (State.faultRecord_keeps _ _ _)
                  exact k40
                · rename_i y44 y45
                  extract_lets x46
                  clear_value x46
                  refine Keeps.fst ?_
                  refine Keeps.trans ?_ (State.postHeld_keeps _ _ _ _ _)
                  exact k40
      clear_value x12
      clear_value x13
      split
      · rename_i y47
        exact Keeps.refl _
      · rename_i y48
        split
        · rename_i y49
          refine Keeps.trans ?_ (State.rnrMsg_keeps _ _)
          exact Keeps.refl _
        · rename_i y50
          refine Keeps.set_spare ?_
          exact k15

theorem State.endFill_keeps (s) (f) (e) : Keeps s (State.endFill s f e) := by
  unfold State.endFill
  extract_lets x0 x1
  clear_value x0
  clear_value x1
  refine Keeps.trans ?_ (State.updCmd_keeps _ _ _ _)
  refine Keeps.set_spare ?_
  exact Keeps.refl _

theorem State.fillPlan_keeps (s) (f) (plan) : Keeps s (State.fillPlan s f plan) := by
  unfold State.fillPlan
  extract_lets x0 x1 x2 x3 x4
  clear_value x0
  clear_value x1
  clear_value x2
  clear_value x3
  have k5 : ∀ z0 z1, Keeps z1 (x4 z0 z1) := by
    subst x4
    intro a6 a7
    beta_reduce
    extract_lets x8 x9
    clear_value x8
    have k10 : Keeps a7 (x9) := by
      subst x9
      refine Keeps.set_spare ?_
      exact Keeps.refl _
    clear_value x9
    split
    · rename_i y11
      refine Keeps.trans ?_ (State.endFill_keeps _ _ _)
      exact k10
    · rename_i y12
      refine Keeps.trans ?_ (State.updCmd_keeps _ _ _ _)
      exact k10
  clear_value x4
  split
  · rename_i y13 y14 y15 y16
    split
    · rename_i y17
      refine Keeps.trans ?_ (k5 _ _)
      exact Keeps.refl _
    · rename_i y18
      refine Keeps.trans ?_ (State.postHeld_keeps _ _ _ _ _)
      refine Keeps.trans ?_ (State.logEvent_keeps _ _ _ _ _ _ _)
      refine Keeps.trans ?_ (k5 _ _)
      exact Keeps.refl _
  · rename_i y19 y20
    refine Keeps.trans ?_ (k5 _ _)
    exact Keeps.refl _

theorem execFillChunkReceived_keeps (qp) (chunk) (s) : OutAll (Keeps s) (execFillChunkReceived qp chunk s) := by
  unfold execFillChunkReceived
  extract_lets x0 x1 x2
  have k3 : Keeps s (x0) := by
    subst x0
    refine Keeps.trans ?_ (State.takeMsg_keeps _ _ _)
    exact Keeps.refl _
  clear_value x0
  clear_value x1
  clear_value x2
  refine OutAll.intro ?_
  split
  · rename_i y4 y5
    split
    · rename_i y6
      exact Keeps.refl _
    · rename_i y7
      refine Keeps.trans ?_ (State.takeMsg_keeps _ _ _)
      exact Keeps.refl _
  · rename_i y8 y9 y10
    extract_lets x11
    clear_value x11
    split
    · rename_i y12
      exact Keeps.refl _
    · rename_i y13
      split
      · rename_i y14
        refine Keeps.trans ?_ (State.fillPlan_keeps _ _ _)
        exact k3
      · rename_i y15
        split
        · rename_i y16 y17 y18 y19 y20 y21 y22
          extract_lets x23
          clear_value x23
          split
          · rename_i y24 y25
            exact k3
          · rename_i y26 y27 y28 y29
            extract_lets x30
            clear_value x30
            split
            · rename_i y31
              exact k3
            · rename_i y32
              split
              · rename_i y33
                refine Keeps.trans ?_ (State.endFill_keeps _ _ _)
                exact k3
              · rename_i y34
                split
                · rename_i y35 y36 y37 y38
                  refine Keeps.trans ?_ (State.endFill_keeps _ _ _)
                  refine Keeps.trans ?_ (State.faultRecord_keeps _ _ _)
                  exact k3
                · rename_i y40 y41 y42
                  have k43 := ExAll.of (State.touch_keeps _ _ _ _ _ _ _) y42
                  extract_lets x44 x45 x46 x47
                  have k48 : Keeps s (x44) := by
                    subst x44
                    refine Keeps.trans ?_ (State.vwrite_keeps _ _ _ _ _)
                    refine Keeps.trans ?_ k43
                    exact k3
                  clear_value x44
                  clear_value x45
                  have k49 : Keeps s (x46) := by
                    subst x46
                    refine Keeps.set_spare ?_
                    exact k48
                  clear_value x46
                  have k50 : Keeps s (x47) := by
                    subst x47
                    refine Keeps.trans ?_ (State.updCmd_keeps _ _ _ _)
                    exact k49
                  clear_value x47
                  split
                  · rename_i y51
                    split
                    · rename_i y52
                      refine Keeps.trans ?_ (State.endFill_keeps _ _ _)
                      exact k48
                    · rename_i y53
                      refine Keeps.trans ?_ (State.postHeld_keeps _ _ _ _ _)
                      refine Keeps.set_spare ?_
                      exact k48
                  · rename_i y54
                    split
                    · rename_i y55
                      refine Keeps.trans ?_ (State.endFill_keeps _ _ _)
                      exact k50
                    · rename_i y56
                      exact k50
        · rename_i y57 y58 y59
          exact k3

theorem execPassThroughFrame_keeps (port) (frame) (s) : OutAll (Keeps s) (execPassThroughFrame port frame s) := by
  unfold execPassThroughFrame
  refine OutAll.intro ?_
  split
  · rename_i y0
    refine Keeps.trans ?_ (State.passThrough_keeps _ _ _)
    exact Keeps.refl _
  · rename_i y1
    exact Keeps.refl _

theorem State.countStall_keeps (s) (n) : Keeps s (State.countStall s n) := by
  unfold State.countStall
  split
  · rename_i y0 y1 y2 y3
    have k4 : Keeps _ y2 := Keeps.of_snd (State.draw_keeps _ _) y3
    refine Keeps.trans ?_ (State.updPlate_keeps _ _ _)
    exact k4

theorem State.endStall_keeps (s) (n) : Keeps s (State.endStall s n) := by
  unfold State.endStall
  split
  · rename_i y0 y1
    exact Keeps.refl _
  · rename_i y2 y3 y4
    split
    · rename_i y5
      refine Keeps.trans ?_ (State.updPlate_keeps _ _ _)
      refine Keeps.trans ?_ (State.countStall_keeps _ _)
      exact Keeps.refl _
    · rename_i y6
      exact Keeps.refl _

theorem State.dropPlates_keeps (s) (q) (seq) : Keeps s (State.dropPlates s q seq) := by
  unfold State.dropPlates
  extract_lets x0 x1
  clear_value x0
  have k2 : Keeps s x1 := by
    subst x1
    refine Keeps.foldl _ ?_ ?_
    · exact Keeps.refl _
    · intro a3 a4
      refine Keeps.trans ?_ (State.endStall_keeps _ _)
      exact Keeps.refl _
  clear_value x1
  refine Keeps.set_plates ?_ ?_
  · exact k2
  · exact keys_map _ _

theorem State.unhook_keeps (s) (c) : Keeps s (State.unhook s c) := by
  unfold State.unhook
  extract_lets x0 x1 x2 x3 x4 x5 x6
  clear_value x0
  clear_value x1
  clear_value x2
  have k7 : Keeps s x3 := by
    subst x3
    split
    · rename_i y8 y9 y10
      refine Keeps.trans ?_ (State.closeFault_keeps _ _ _)
      exact Keeps.refl _
    · rename_i y11 y12
      exact Keeps.refl _
  clear_value x3
  have k13 : Keeps s x4 := by
    subst x4
    refine Keeps.trans ?_ (State.dropPlates_keeps _ _ _)
    exact k7
  clear_value x4
  clear_value x5
  clear_value x6
  refine Keeps.set_routers_stylus_buckets_spare_streams ?_
  exact k13

theorem State.preempt_keeps (s) (c) (e) : Keeps s (State.preempt s c e) := by
  unfold State.preempt
  refine Keeps.trans ?_ (State.updCmd_keeps _ _ _ _)
  refine Keeps.trans ?_ (State.unhook_keeps _ _)
  exact Keeps.refl _

theorem State.cancelNow_keeps (s) : Keeps s (State.cancelNow s) := by
  unfold State.cancelNow
  extract_lets x0
  clear_value x0
  refine Keeps.foldl _ ?_ ?_
  · exact Keeps.refl _
  · intro a1 a2
    refine Keeps.trans ?_ (State.preempt_keeps _ _ _)
    exact Keeps.refl _

theorem State.orphanManifests_keeps (s) (n) : Keeps s (State.orphanManifests s n) := by
  unfold State.orphanManifests
  refine Keeps.foldl _ ?_ ?_
  · exact Keeps.refl _
  · intro a0 a1
    split
    · rename_i y2
      refine Keeps.set_manifests ?_
      exact Keeps.refl _
    · rename_i y3
      refine Keeps.trans ?_ (State.unloadManifest_keeps _ _)
      exact Keeps.refl _

theorem State.destroyCtx_keeps (s) (n) : Keeps s (State.destroyCtx s n).1 := by
  unfold State.destroyCtx
  split
  rename_i s1 slow y
  have k1 : Keeps s s1 := Keeps.of_fst (State.releaseFrames_keeps _ _) y
  extract_lets s2
  have k2 : Keeps s1 s2 := ((State.orphanManifests_keeps _ _).trans (State.dropKey_keeps _ _)).trans
    (State.updMem_keeps _ _ (Memory.wf_of_cells rfl rfl))
  clear_value s2
  exact (k1.trans k2).trans (Keeps.of_parts rfl rfl (State.platesOk_map rfl rfl) Bounded.del id id)

theorem execContextCreate_keeps (p) (s) : OutAll (Keeps s) (execContextCreate p s) := by
  unfold execContextCreate
  refine OutAll.intro (State.forOp_keeps _ _ _ _ (State.runProof_keeps _ _ _ _ fun s _ _ => ?_))
  refine ExAll.bind (Q := fun _ => decide (p.at 64 2 < 4096) || decide (p.at 64 2 = 0xFFFF)) ?_ fun _ h => ?_
  · unfold State.checkContextCreate
    exact ExAll.bind ExAll.ensure fun _ h => ExAll.const h
  · refine ExAll.of_pure (Keeps.trans ?_ (State.newKey_keeps _ _))
    refine Keeps.of_parts rfl rfl id (Bounded.set ?_) id id
    simp only [Bool.or_eq_true, decide_eq_true_eq] at h
    split
    · cases hl : Kv.lowestFree 1 4095 s.ctxs with
      | none => simp
      | some k => exact lowestFree_lt hl
    · omega

theorem execContextDestroy_keeps (p) (s) : OutAll (Keeps s) (execContextDestroy p s) := by
  unfold execContextDestroy
  refine OutAll.intro ?_
  refine Keeps.trans ?_ (State.forOp_keeps _ _ _ _ ?_)
  · exact Keeps.refl _
  · split
    · rename_i y0 y1
      exact Keeps.refl _
    · rename_i y2 y3 y4
      split
      · rename_i y5 y6
        exact Keeps.refl _
      · rename_i y7 y8 y9
        split
        · rename_i y10 y11 y12
          refine Keeps.trans ?_ (State.finish_keeps _ _ _)
          exact Keeps.refl _
        · rename_i y13 y14 y15
          split
          · rename_i y16 y17 y18 y19
            have k20 : Keeps _ y17 := Keeps.of_fst (State.destroyCtx_keeps _ _) y19
            refine Keeps.trans ?_ (State.awaitFill_keeps _ _ _ _)
            exact k20

theorem execContextQuery_keeps (p) (s) : OutAll (Keeps s) (execContextQuery p s) := by
  unfold execContextQuery
  extract_lets x0
  clear_value x0
  refine OutAll.intro ?_
  refine Keeps.trans ?_ (State.forOp_keeps _ _ _ _ ?_)
  · exact Keeps.refl _
  · refine Keeps.trans ?_ (State.runNow_keeps _ _ _ ?_)
    · exact Keeps.refl _
    · intro a1 a2 a3
      extract_lets x4
      clear_value x4
      refine ExAll.bind_any (fun _ => trivial) ?_
      intro a5
      refine ExAll.bind_any (fun _ => trivial) ?_
      intro a6
      split
      · rename_i y7 y8
        refine ExAll.intro_error ?_
        trivial
      · rename_i y9 y10 y11
        refine ExAll.of_pure ?_
        refine Keeps.fst ?_
        exact Keeps.refl _

theorem execQueueCreate_keeps (p) (s) : OutAll (Keeps s) (execQueueCreate p s) := by
  unfold execQueueCreate
  refine OutAll.intro (State.forOp_keeps _ _ _ _ (State.runNow_keeps _ _ _ fun s c x => ?_))
  refine ExAll.bind (Q := fun _ => decide (p.at 64 2 < 1024) || decide (p.at 64 2 = 0xFFFF)) ?_ fun _ h => ?_
  · unfold State.checkQueueCreate
    exact ExAll.bind ExAll.ensure fun _ h => ExAll.const h
  · refine ExAll.of_pure (Keeps.of_parts rfl rfl id id (Bounded.set ?_) id)
    simp only [Bool.or_eq_true, decide_eq_true_eq] at h
    split
    · cases hl : Kv.lowestFree 1 1023 s.queues with
      | none => simp
      | some k => exact lowestFree_lt hl
    · omega

theorem execQueueDestroy_keeps (p) (s) : OutAll (Keeps s) (execQueueDestroy p s) := by
  unfold execQueueDestroy
  refine OutAll.intro ?_
  refine Keeps.trans ?_ (State.forOp_keeps _ _ _ _ ?_)
  · exact Keeps.refl _
  · split
    · rename_i y0 y1
      exact Keeps.refl _
    · rename_i y2 y3 y4
      split
      · rename_i y5 y6
        exact Keeps.refl _
      · rename_i y7 y8 y9
        split
        · rename_i y10 y11 y12
          refine Keeps.trans ?_ (State.finish_keeps _ _ _)
          exact Keeps.refl _
        · rename_i y13 y14 y15
          refine Keeps.trans ?_ (State.closeQueue_keeps _ _ _)
          refine Keeps.trans ?_ (State.begin_keeps _ _ _)
          exact Keeps.refl _

theorem execQueueDrain_keeps (p) (s) : OutAll (Keeps s) (execQueueDrain p s) := by
  unfold execQueueDrain
  extract_lets x0 x1
  clear_value x0
  clear_value x1
  refine OutAll.intro ?_
  refine Keeps.trans ?_ (State.forOp_keeps _ _ _ _ ?_)
  · exact Keeps.refl _
  · split
    · rename_i y2 y3
      exact Keeps.refl _
    · rename_i y4 y5 y6
      extract_lets x7 x8
      have k9 : Keeps s (x7) := by
        subst x7
        refine Keeps.trans ?_ (State.updQueue_keeps _ _ _)
        refine Keeps.trans ?_ (State.begin_keeps _ _ _)
        exact Keeps.refl _
      clear_value x7
      have k10 : Keeps s (x8) := by
        subst x8
        split
        · rename_i y11
          refine Keeps.set_cmds ?_
          exact k9
        · rename_i y12
          exact k9
      clear_value x8
      split
      · rename_i y13 y14
        exact Keeps.refl _
      · rename_i y15 y16 y17
        split
        · rename_i y18 y19 y20
          refine Keeps.trans ?_ (State.finish_keeps _ _ _)
          exact Keeps.refl _
        · rename_i y21 y22 y23
          refine Keeps.trans ?_ (State.drainDone_keeps _ _)
          split
          · rename_i y24
            refine Keeps.trans ?_ (State.cancelNow_keeps _)
            exact k10
          · rename_i y25
            exact k10

theorem execQueueStart_keeps (p) (s) : OutAll (Keeps s) (execQueueStart p s) := by
  unfold execQueueStart
  refine OutAll.intro ?_
  refine Keeps.trans ?_ (State.forOp_keeps _ _ _ _ ?_)
  · exact Keeps.refl _
  · refine Keeps.trans ?_ (State.runNow_keeps _ _ _ ?_)
    · exact Keeps.refl _
    · intro a0 a1 a2
      refine ExAll.bind_any (fun _ => trivial) ?_
      intro a3
      refine ExAll.of_pure ?_
      refine Keeps.fst ?_
      refine Keeps.trans ?_ (State.flush_keeps _ _)
      refine Keeps.trans ?_ (State.updQueue_keeps _ _ _)
      exact Keeps.refl _

theorem execQueueQuery_keeps (p) (s) : OutAll (Keeps s) (execQueueQuery p s) := by
  unfold execQueueQuery
  refine OutAll.intro ?_
  refine Keeps.trans ?_ (State.forOp_keeps _ _ _ _ ?_)
  · exact Keeps.refl _
  · refine Keeps.trans ?_ (State.runNow_keeps _ _ _ ?_)
    · exact Keeps.refl _
    · intro a0 a1 a2
      refine ExAll.bind_any (fun _ => trivial) ?_
      intro a3
      refine ExAll.bind_any (fun _ => trivial) ?_
      intro a4
      split
      · rename_i y5 y6
        refine ExAll.intro_error ?_
        trivial
      · rename_i y7 y8 y9
        refine ExAll.of_pure ?_
        refine Keeps.fst ?_
        exact Keeps.refl _

theorem State.evict_keeps (s) (n) : Keeps s (State.evict s n) := by
  unfold State.evict
  extract_lets mine s1
  have k : Keeps s s1 := State.updCtx_keeps _ _ _
  clear_value s1 mine
  exact k.trans (Keeps.of_parts rfl rfl (State.platesOk_map rfl rfl) id id (Memory.wf_of_cells rfl rfl))

theorem State.changeResidence_keeps (s) (b1) : Keeps s (State.changeResidence s b1) := by
  induction b1 generalizing s with
  | zero =>
    rw [State.changeResidence]
    exact Keeps.refl _
  | succ n ih =>
    rw [State.changeResidence]
    split
    · rename_i y0 y1
      exact Keeps.refl _
    · rename_i y2 y3 y4 y5
      split
      · rename_i y6 y7 y8
        refine Keeps.trans ?_ (ih ..)
        refine Keeps.trans ?_ (State.updCtx_keeps _ _ _)
        exact Keeps.refl _
      · rename_i y9 y10
        split
        · rename_i y11 y12
          exact Keeps.refl _
        · rename_i y13 y14 y15 y16
          refine Keeps.trans ?_ (ih ..)
          refine Keeps.trans ?_ (State.evict_keeps _ _)
          exact Keeps.refl _

theorem State.residence_keeps (s) : Keeps s (State.residence s) := by
  unfold State.residence
  extract_lets x0 x1 x2
  clear_value x0
  clear_value x1
  have k3 : Keeps s x2 := by
    subst x2
    refine Keeps.set_ctxs_cmds ?_ ?_
    · exact Keeps.refl _
    · exact keys_map _ _
  clear_value x2
  refine Keeps.trans ?_ (State.changeResidence_keeps _ _)
  exact k3

theorem execResidenceWait_keeps (context) (s) : OutAll (Keeps s) (execResidenceWait context s) := by
  unfold execResidenceWait
  extract_lets x0
  clear_value x0
  refine OutAll.intro ?_
  split
  · rename_i y1 y2
    exact Keeps.refl _
  · rename_i y3 y4 y5
    split
    · rename_i y6 y7
      exact Keeps.refl _
    · rename_i y8 y9 y10
      split
      · rename_i y11
        exact Keeps.refl _
      · rename_i y12
        refine Keeps.trans ?_ (State.logEvent_keeps _ _ _ _ _ _ _)
        refine Keeps.trans ?_ (State.updCtx_keeps _ _ _)
        exact Keeps.refl _

theorem execResidenceTimeout_keeps (queue) (s) : OutAll (Keeps s) (execResidenceTimeout queue s) := by
  unfold execResidenceTimeout
  refine OutAll.intro ?_
  split
  · rename_i y0 y1
    exact Keeps.refl _
  · rename_i y2 y3 y4
    extract_lets x5 x6
    clear_value x5
    clear_value x6
    split
    · rename_i y7 y8 y9
      split
      · rename_i y10
        refine Keeps.trans ?_ (State.expireGroup_keeps _ _ _)
        exact Keeps.refl _
      · rename_i y11
        exact Keeps.refl _
    · rename_i y12 y13
      exact Keeps.refl _

end Sys2Proof.Machine
end

