-- ==== Sys2Proof/Laws/KeepsPlates.lean ====
section
/-! SUPPORT. What the units of the plates keep: one lemma for each operation that answers a state. -/

namespace Sys2Proof.Machine

open Sys2Proof

theorem State.setUnits_keeps (s) (r) (us) : Keeps s (State.setUnits s r us) := by
  unfold State.setUnits
  split
  · rename_i y0 y1
    refine Keeps.trans ?_ (State.updPlate_keeps _ _ _)
    exact Keeps.refl _
  · rename_i y2 y3
    refine Keeps.trans ?_ (State.updRouter_keeps _ _ _)
    exact Keeps.refl _

theorem State.touchOperands_keeps (s) (c) : ExAll (fun _ => True) (fun r => Keeps s r) (State.touchOperands s c) := by
  unfold State.touchOperands
  extract_lets x0
  clear_value x0
  refine ExAll.foldlM _ ?_ ?_
  · exact Keeps.refl _
  · intro a1 a2
    split
    · rename_i y3 y4
      refine ExAll.intro ?_
      exact Keeps.refl _
    · rename_i y5 y6 y7
      extract_lets x8 x9
      clear_value x8
      subst x9
      split
      · rename_i y10 y11 y12
        refine ExAll.intro_error ?_
        trivial
      · rename_i y13 y14 y15
        have k16 := ExAll.of (E := fun _ => True) (P := fun r => Keeps a1 r) ?_ y15
        · split
          · rename_i y17
            refine ExAll.intro ?_
            exact k16
          · rename_i y18
            refine ExAll.intro_error ?_
            trivial
        refine ExAll.foldlM _ ?_ ?_
        · exact Keeps.refl _
        · intro a19 a20
          split
          · rename_i y21 y22 y23 y24
            have k29 := ExAll.of_error (State.touch_keeps _ _ _ _ _ _ _) y24
            refine ExAll.intro_error ?_
            trivial
          · rename_i y30 y31 y32
            have k36 := ExAll.of (State.touch_keeps _ _ _ _ _ _ _) y32
            split
            · rename_i y37 y38 y39
              refine ExAll.intro_error ?_
              trivial
            · rename_i y40 y41
              refine ExAll.intro ?_
              exact k36

theorem State.markBusy_keeps (s) (r) : Keeps s (State.markBusy s r) := by
  unfold State.markBusy
  extract_lets x0
  clear_value x0
  split
  · rename_i y1 y2
    refine Keeps.set_power ?_
    exact Keeps.refl _
  · rename_i y3 y4
    exact Keeps.refl _

theorem State.closePlace_keeps (s) (r) : Keeps s (State.closePlace s r) := by
  unfold State.closePlace
  split
  · rename_i y0 y1
    refine Keeps.trans ?_ (State.updPlate_keeps _ _ _)
    exact Keeps.refl _
  · rename_i y2 y3
    refine Keeps.trans ?_ (State.updRouter_keeps _ _ _)
    exact Keeps.refl _

theorem State.addUnit_keeps (s) (r) (u) : Keeps s (State.addUnit s r u) := by
  unfold State.addUnit
  extract_lets x0
  have k1 : Keeps s x0 := by
    subst x0
    refine Keeps.trans ?_ (State.markBusy_keeps _ _)
    refine Keeps.trans ?_ (State.setUnits_keeps _ _ _)
    exact Keeps.refl _
  clear_value x0
  split
  · rename_i y2 y3
    refine Keeps.trans ?_ (State.updPlate_keeps _ _ _)
    exact k1
  · rename_i y4 y5
    exact k1

theorem State.issueUnit_keeps (s) (r) (c) (boundary) : Keeps s (State.issueUnit s r c boundary) := by
  unfold State.issueUnit
  extract_lets x0
  clear_value x0
  split
  · rename_i y1 y2 y3 y4
    have k5 : Keeps s y3 := by
      refine Keeps.of_eq (congrArg Prod.snd y4) ?_
      split
      · rename_i y6
        refine Keeps.snd ?_
        exact Keeps.refl _
      · rename_i y7
        refine Keeps.trans ?_ (State.drawNs_keeps _)
        exact Keeps.refl _
    extract_lets x8 x9 x10
    clear_value x8
    clear_value x9
    clear_value x10
    split
    · rename_i y11
      refine Keeps.trans ?_ (State.addUnit_keeps _ _ _)
      refine Keeps.trans ?_ (State.updCmd_keeps _ _ _ _)
      exact k5
    · rename_i y12
      refine Keeps.trans ?_ (State.closePlace_keeps _ _)
      exact k5

theorem State.issue_keeps (s) (r) (boundary) (b3) : Keeps s (State.issue s r boundary b3) := by
  induction b3 generalizing s r boundary
  · rw [State.issue]
    exact Keeps.refl _
  · rename_i y0 ih1
    rw [State.issue]
    split
    · rename_i y2 y3
      exact Keeps.refl _
    · rename_i y4 y5 y6 y7
      split
      · rename_i y8
        exact Keeps.refl _
      · rename_i y9
        split
        · rename_i y10 y11
          exact Keeps.refl _
        · rename_i y12 y13 y14
          split
          · rename_i y15 y16 y17 y18
            split
            · rename_i y19 y20 y21 y22 y23 y24
              refine Keeps.trans ?_ (ih1 _ _ _)
              refine Keeps.trans ?_ (State.engineFault_keeps _ _ _ _ _ _ _ _)
              exact Keeps.refl _
            · rename_i y25 y26 y27 y28 y29
              refine Keeps.trans ?_ (ih1 _ _ _)
              refine Keeps.trans ?_ (State.mediaFault_keeps _ _ _ _ _ _ _)
              exact Keeps.refl _
            · rename_i y30 y31 y32
              refine Keeps.trans ?_ (ih1 _ _ _)
              refine Keeps.trans ?_ (State.finish_keeps _ _ _)
              exact Keeps.refl _
            · rename_i y33 y34 y35
              have k36 := ExAll.of (E := fun _ => True) (P := fun r => Keeps s r) ?_ y35
              · refine Keeps.trans ?_ (ih1 _ _ _)
                refine Keeps.trans ?_ (State.issueUnit_keeps _ _ _ _)
                exact k36
              split
              · rename_i y37
                refine (State.touchOperands_keeps _ _)
              · rename_i y38
                refine ExAll.intro ?_
                exact Keeps.refl _

theorem State.issueAt_keeps (s) (r) : Keeps s (State.issueAt s r) := by
  unfold State.issueAt
  refine Keeps.trans ?_ (State.issue_keeps _ _ _ _)
  exact Keeps.refl _

theorem State.removeUnit_keeps (s) (c) : Keeps s (State.removeUnit s c) := by
  unfold State.removeUnit
  extract_lets x0 x1
  clear_value x0
  have k2 : Keeps s x1 := by
    subst x1
    refine Keeps.trans ?_ (State.updCmd_keeps _ _ _ _)
    exact Keeps.refl _
  clear_value x1
  split
  · rename_i y3 y4 y5
    refine Keeps.trans ?_ (State.updPlate_keeps _ _ _)
    exact k2
  · rename_i y6 y7 y8
    refine Keeps.trans ?_ (State.updRouter_keeps _ _ _)
    exact k2
  · rename_i y9 y10
    exact k2

theorem State.endOnPlate_keeps (s) (c) (e) : Keeps s (State.endOnPlate s c e) := by
  unfold State.endOnPlate
  extract_lets x0 x1
  have k2 : Keeps s x0 := by
    subst x0
    refine Keeps.trans ?_ (State.dropPlates_keeps _ _ _)
    refine Keeps.trans ?_ (State.removeUnit_keeps _ _)
    exact Keeps.refl _
  clear_value x0
  have k3 : Keeps s x1 := by
    subst x1
    refine Keeps.trans ?_ (State.finish_keeps _ _ _)
    exact k2
  clear_value x1
  split
  · rename_i y4 y5 y6
    refine Keeps.trans ?_ (State.issueAt_keeps _ _)
    exact k3
  · rename_i y7 y8
    exact k3

theorem State.unitFault_keeps (s) (c) (kind) (va) (acc) (detail) : Keeps s (State.unitFault s c kind va acc detail) := by
  unfold State.unitFault
  split
  · rename_i y0 y1 y2 y3
    extract_lets x4 x5
    have k6 : Keeps s x4 := by
      subst x4
      split
      · rename_i y7
        refine Keeps.trans ?_ (State.updCmd_keeps _ _ _ _)
        exact Keeps.refl _
      · rename_i y8
        refine Keeps.trans ?_ (State.removeUnit_keeps _ _)
        exact Keeps.refl _
    clear_value x4
    have k9 : Keeps s x5 := by
      subst x5
      refine Keeps.trans ?_ (State.engineFault_keeps _ _ _ _ _ _ _ _)
      exact k6
    clear_value x5
    split
    · rename_i y10 y11 y12
      split
      · rename_i y13
        exact k9
      · rename_i y14
        refine Keeps.trans ?_ (State.issueAt_keeps _ _)
        exact k9
    · rename_i y15 y16
      exact k9

theorem State.unitMedia_keeps (s) (c) (va) (pa) (detail) : Keeps s (State.unitMedia s c va pa detail) := by
  unfold State.unitMedia
  split
  · rename_i y0 y1 y2 y3
    extract_lets x4
    have k5 : Keeps s x4 := by
      subst x4
      refine Keeps.trans ?_ (State.mediaFault_keeps _ _ _ _ _ _ _)
      refine Keeps.trans ?_ (State.removeUnit_keeps _ _)
      exact Keeps.refl _
    clear_value x4
    split
    · rename_i y6 y7 y8
      refine Keeps.trans ?_ (State.issueAt_keeps _ _)
      exact k5
    · rename_i y9 y10
      exact k5

theorem State.startOnPlate_keeps (s) (p) (chk) (w) : Keeps s (State.startOnPlate s p chk w) := by
  unfold State.startOnPlate
  split
  · rename_i y0 y1
    exact Keeps.refl _
  · rename_i y2 y3 y4
    split
    · rename_i y5
      exact Keeps.refl _
    · rename_i y6
      split
      · rename_i y7 y8
        exact Keeps.refl _
      · rename_i y9 y10 y11
        split
        · rename_i y12 y13 y14
          refine Keeps.trans ?_ (State.finish_keeps _ _ _)
          exact Keeps.refl _
        · rename_i y15 y16 y17
          split
          · rename_i y18 y19 y20
            refine Keeps.trans ?_ (State.issueAt_keeps _ _)
            refine Keeps.trans ?_ (State.begin_keeps _ _ _)
            exact Keeps.refl _
          · rename_i y21 y22
            refine Keeps.trans ?_ (State.begin_keeps _ _ _)
            exact Keeps.refl _

theorem execCommandSkip_keeps (queue) (seq) (s) : OutAll (Keeps s) (execCommandSkip queue seq s) := by
  unfold execCommandSkip
  refine OutAll.intro ?_
  split
  · rename_i y0 y1
    exact Keeps.refl _
  · rename_i y2 y3 y4
    split
    · rename_i y5
      exact Keeps.refl _
    · rename_i y6
      split
      · rename_i y7 y8
        exact Keeps.refl _
      · rename_i y9 y10 y11 y12
        extract_lets x13 x14 x15
        clear_value x13
        clear_value x14
        have k16 : Keeps s x15 := by
          subst x15
          refine Keeps.trans ?_ (State.finish_keeps _ _ _)
          refine Keeps.trans ?_ (State.ledgerFlag_keeps _ _ _ _)
          exact Keeps.refl _
        clear_value x15
        split
        · rename_i y17
          exact Keeps.refl _
        · rename_i y18
          split
          · rename_i y19
            split
            · rename_i y20
              exact k16
            · rename_i y21
              refine Keeps.set_preds ?_
              exact k16
          · rename_i y22
            refine Keeps.trans ?_ (State.updCmd_keeps _ _ _ _)
            exact Keeps.refl _

theorem State.writeOne_keeps (s) (tile) : Keeps s (State.writeOne s tile).1 := by
  unfold State.writeOne
  split
  · rename_i y0 y1
    refine Keeps.fst ?_
    exact Keeps.refl _
  · rename_i y2 y3 y4
    split
    · rename_i y5 y6 y7 y8 y9 y10
      split
      · rename_i y11
        refine Keeps.fst ?_
        exact Keeps.refl _
      · rename_i y12
        extract_lets x13 x14 x15 x16 x17
        clear_value x13
        clear_value x14
        clear_value x15
        clear_value x16
        split
        · rename_i y18 y19 y20 y21
          extract_lets x22 x23
          clear_value x22
          clear_value x23
          split
          · rename_i y24 y25 y26 y27 y28
            have k29 : Keeps s y25 := by
              refine Keeps.of_eq (congrArg Prod.fst y28) ?_
              split
              · rename_i y30
                refine Keeps.fst ?_
                refine Keeps.trans ?_ (State.writeRaw_keeps _ _ _ _ _ _ _)
                exact Keeps.refl _
              · rename_i y31
                split
                · rename_i y32 y33 y34 y35
                  have k36 := Keeps.of_fst (State.writeTile_keeps _ _ _ _ _) y35
                  refine Keeps.fst ?_
                  exact k36
            refine Keeps.fst ?_
            refine Keeps.trans ?_ (State.updCmd_keeps _ _ _ _)
            exact k29
    · rename_i y37 y38 y39
      refine Keeps.fst ?_
      exact Keeps.refl _

theorem State.emptyUnits_keeps (s) (n) (live) (mine) : Keeps s (State.emptyUnits s n live mine) := by
  unfold State.emptyUnits
  split
  · rename_i y0 y1
    exact Keeps.refl _
  · rename_i y2 y3 y4
    extract_lets x5
    have k6 : Keeps s x5 := by
      subst x5
      refine Keeps.foldl _ ?_ ?_
      · exact Keeps.refl _
      · intro a7 a8
        split
        · rename_i y9
          exact Keeps.refl _
        · rename_i y10
          refine Keeps.trans ?_ (State.updCmd_keeps _ _ _ _)
          exact Keeps.refl _
    clear_value x5
    refine Keeps.trans ?_ (State.updPlate_keeps _ _ _)
    exact k6

theorem State.drainTray_keeps (s) (n) : Keeps s (State.drainTray s n) := by
  unfold State.drainTray
  split
  · rename_i y0 y1
    exact Keeps.refl _
  · rename_i y2 y3 y4
    extract_lets x5 x6
    clear_value x5
    have k7 : Keeps s x6 := by
      subst x6
      refine Keeps.foldl _ ?_ ?_
      · exact Keeps.refl _
      · intro a8 a9
        refine Keeps.trans ?_ (State.writeOne_keeps _ _)
        exact Keeps.refl _
    clear_value x6
    refine Keeps.trans ?_ (State.updPlate_keeps _ _ _)
    refine Keeps.trans ?_ (State.emptyUnits_keeps _ _ _ _)
    exact k7

theorem State.stopArrays_keeps (s) (n) : Keeps s (State.stopArrays s n) := by
  unfold State.stopArrays
  split
  · rename_i y0 y1
    exact Keeps.refl _
  · rename_i y2 y3 y4
    extract_lets x5 x6 x7
    have k8 : Keeps s x5 := by
      subst x5
      refine Keeps.trans ?_ (State.endStall_keeps _ _)
      exact Keeps.refl _
    clear_value x5
    clear_value x6
    have k9 : Keeps s x7 := by
      subst x7
      refine Keeps.foldl _ ?_ ?_
      · exact k8
      · intro a10 a11
        split
        · rename_i y12 y13 y14
          refine Keeps.trans ?_ (State.updCmd_keeps _ _ _ _)
          exact Keeps.refl _
        · rename_i y15 y16
          exact Keeps.refl _
    clear_value x7
    refine Keeps.trans ?_ (State.updPlate_keeps _ _ _)
    exact k9

theorem State.finishTiles_keeps (s) (c) : Keeps s ((State.finishTiles s c).1) := by
  unfold State.finishTiles
  extract_lets x0
  clear_value x0
  split
  · rename_i y1 y2 y3 y4 y5 y6
    split
    · rename_i y7
      refine Keeps.fst ?_
      exact Keeps.refl _
    · rename_i y8
      split
      · rename_i y9 y10 y11 y12
        refine Keeps.trans ?_ (State.finishEpilogue_keeps _ _ _ _ _ _ _ _)
        exact Keeps.refl _
  · rename_i y13 y14 y15
    refine Keeps.fst ?_
    exact Keeps.refl _

theorem execLinear_keeps (p) (s) : OutAll (Keeps s) (execLinear p s) := by
  unfold execLinear
  refine OutAll.intro ?_
  refine Keeps.trans ?_ (State.forOp_keeps _ _ _ _ ?_)
  · exact Keeps.refl _
  · refine Keeps.trans ?_ (State.startOnPlate_keeps _ _ _ _)
    exact Keeps.refl _

theorem execStipple_keeps (p) (s) : OutAll (Keeps s) (execStipple p s) := by
  unfold execStipple
  refine OutAll.intro ?_
  refine Keeps.trans ?_ (State.forOp_keeps _ _ _ _ ?_)
  · exact Keeps.refl _
  · refine Keeps.trans ?_ (State.startOnPlate_keeps _ _ _ _)
    exact Keeps.refl _

theorem State.updArray_keeps (s) (n) (k) (a) : Keeps s (State.updArray s n k a) := by
  unfold State.updArray
  refine Keeps.trans ?_ (State.updPlate_keeps _ _ _)
  exact Keeps.refl _

theorem State.stopBroken_keeps (s) (n) (c) : Keeps s (State.stopBroken s n c) := by
  unfold State.stopBroken
  extract_lets x0
  have k1 : Keeps s (x0) := by
    subst x0
    split
    · rename_i y2 y3
      exact Keeps.refl _
    · rename_i y4 y5 y6
      refine Keeps.foldl _ ?_ ?_
      · exact Keeps.refl _
      · intro a7 a8
        refine Keeps.trans ?_ (State.writeOne_keeps _ _)
        exact Keeps.refl _
  clear_value x0
  refine Keeps.trans ?_ (State.endOnPlate_keeps _ _ _)
  exact k1

theorem State.loadBank_keeps (s) (n) (k) (a) (i) (c) (pass) : Keeps s (State.loadBank s n k a i c pass) := by
  unfold State.loadBank
  split
  · rename_i y0
    refine Keeps.trans ?_ (State.stopBroken_keeps _ _ _)
    exact Keeps.refl _
  · rename_i y1
    extract_lets x2 x3
    clear_value x2
    clear_value x3
    refine Keeps.trans ?_ (State.updArray_keeps _ _ _ _)
    exact Keeps.refl _

theorem State.takeItem_keeps (s) (n) (k) (a) (c) (i) : Keeps s (State.takeItem s n k a c i) := by
  unfold State.takeItem
  extract_lets x0 x1
  have k2 : Keeps s x0 := by
    subst x0
    refine Keeps.trans ?_ (State.updCmd_keeps _ _ _ _)
    exact Keeps.refl _
  clear_value x0
  clear_value x1
  split
  · rename_i y3 y4
    refine Keeps.trans ?_ (State.updArray_keeps _ _ _ _)
    exact k2
  · rename_i y5 y6 y7
    split
    · rename_i y8
      refine Keeps.trans ?_ (State.updArray_keeps _ _ _ _)
      exact k2
    · rename_i y9
      refine Keeps.trans ?_ (State.loadBank_keeps _ _ _ _ _ _ _)
      exact k2

theorem execBurinBankLoaded_keeps (plate) (array) (s) : OutAll (Keeps s) (execBurinBankLoaded plate array s) := by
  unfold execBurinBankLoaded
  refine OutAll.intro ?_
  split
  · rename_i y0 y1
    exact Keeps.refl _
  · rename_i y2 y3 y4
    split
    · rename_i y5 y6 y7
      split
      · rename_i y8 y9
        exact Keeps.refl _
      · rename_i y10 y11 y12
        split
        · rename_i y13 y14 y15 y16
          refine Keeps.trans ?_ (State.loadBank_keeps _ _ _ _ _ _ _)
          exact Keeps.refl _
        · rename_i y17 y18 y19 y20 y21
          exact Keeps.refl _
        · rename_i y22 y23 y24 y25
          split
          · rename_i y26 y27
            exact Keeps.refl _
          · rename_i y28 y29 y30 y31
            refine Keeps.trans ?_ (State.takeItem_keeps _ _ _ _ _ _)
            exact Keeps.refl _
    · rename_i y32 y33
      split
      · rename_i y34 y35
        exact Keeps.refl _
      · rename_i y36 y37 y38 y39
        refine Keeps.trans ?_ (State.takeItem_keeps _ _ _ _ _ _)
        exact Keeps.refl _

theorem State.shiftArray_keeps (s) (n) (k) (a) : Keeps s (State.shiftArray s n k a) := by
  unfold State.shiftArray
  extract_lets x0
  clear_value x0
  split
  · rename_i y1 y2 y3 y4
    split
    · rename_i y5
      refine Keeps.trans ?_ (State.takeItem_keeps _ _ _ _ _ _)
      exact Keeps.refl _
    · rename_i y6
      refine Keeps.trans ?_ (State.updArray_keeps _ _ _ _)
      exact Keeps.refl _
  · rename_i y7 y8
    refine Keeps.trans ?_ (State.updArray_keeps _ _ _ _)
    exact Keeps.refl _

theorem execBurinTileDelivery_keeps (plate) (array) (s) : OutAll (Keeps s) (execBurinTileDelivery plate array s) := by
  unfold execBurinTileDelivery
  refine OutAll.intro ?_
  split
  · rename_i y0 y1
    exact Keeps.refl _
  · rename_i y2 y3 y4
    split
    · rename_i y5 y6
      exact Keeps.refl _
    · rename_i y7 y8 y9 y10 y11
      split
      · rename_i y12
        exact Keeps.refl _
      · rename_i y13
        extract_lets x14 x15 x16 x17
        clear_value x14
        clear_value x15
        have k18 : Keeps s x16 := by
          subst x16
          split
          · rename_i y19
            refine Keeps.trans ?_ (State.endStall_keeps _ _)
            exact Keeps.refl _
          · rename_i y20
            exact Keeps.refl _
        clear_value x16
        clear_value x17
        split
        · rename_i y21
          refine Keeps.trans ?_ (State.updArray_keeps _ _ _ _)
          exact Keeps.refl _
        · rename_i y22
          split
          · rename_i y23 y24 y25 y26 y27
            extract_lets x28 x29 x30
            clear_value x28
            have k31 : Keeps s x29 := by
              subst x29
              refine Keeps.trans ?_ (State.updPlate_keeps _ _ _)
              exact k18
            clear_value x29
            have k32 : Keeps s x30 := by
              subst x30
              refine Keeps.set_free ?_
              exact k31
            clear_value x30
            split
            · rename_i y33
              refine Keeps.trans ?_ (State.updArray_keeps _ _ _ _)
              exact k32
            · rename_i y34
              refine Keeps.trans ?_ (State.shiftArray_keeps _ _ _ _)
              exact k32

theorem execTraySlotFree_keeps (plate) (s) : OutAll (Keeps s) (execTraySlotFree plate s) := by
  unfold execTraySlotFree
  refine OutAll.intro ?_
  split
  · rename_i y0 y1
    exact Keeps.refl _
  · rename_i y2 y3 y4
    split
    · rename_i y5 y6
      exact Keeps.refl _
    · rename_i y7 y8 y9
      refine Keeps.trans ?_ (State.updPlate_keeps _ _ _)
      refine Keeps.trans ?_ (State.endStall_keeps _ _)
      exact Keeps.refl _

theorem execStippleTileTaken_keeps (plate) (unit) (s) : OutAll (Keeps s) (execStippleTileTaken plate unit s) := by
  unfold execStippleTileTaken
  refine OutAll.intro ?_
  split
  · rename_i y0 y1
    exact Keeps.refl _
  · rename_i y2 y3 y4
    extract_lets x5
    clear_value x5
    split
    · rename_i y6
      exact Keeps.refl _
    · rename_i y7
      split
      · rename_i y8 y9 y10 y11
        refine Keeps.trans ?_ (State.updPlate_keeps _ _ _)
        exact Keeps.refl _
      · rename_i y12 y13
        split
        · rename_i y14 y15
          exact Keeps.refl _
        · rename_i y16 y17 y18 y19
          extract_lets x20
          clear_value x20
          refine Keeps.trans ?_ (State.updPlate_keeps _ _ _)
          refine Keeps.trans ?_ (State.updCmd_keeps _ _ _ _)
          exact Keeps.refl _

theorem execStippleTileWritten_keeps (plate) (unit) (s) : OutAll (Keeps s) (execStippleTileWritten plate unit s) := by
  unfold execStippleTileWritten
  refine OutAll.intro ?_
  split
  · rename_i y0 y1
    exact Keeps.refl _
  · rename_i y2 y3 y4
    refine Keeps.trans ?_ (State.updPlate_keeps _ _ _)
    refine Keeps.trans ?_ (State.writeOne_keeps _ _)
    exact Keeps.refl _

theorem State.putCode_keeps (s) (v) (d) (flat) (code) (scale) : Keeps s (State.putCode s v d flat code scale) := by
  unfold State.putCode
  split
  · rename_i y0 y1 y2 y3
    extract_lets x4 x5
    have k6 : Keeps s x4 := by
      subst x4
      refine Keeps.trans ?_ (State.putBits_keeps _ _ _ _ _)
      exact Keeps.refl _
    clear_value x4
    have k7 : Keeps s x5 := by
      subst x5
      split
      · rename_i y8 y9
        refine Keeps.trans ?_ (State.vwrite_keeps _ _ _ _ _)
        exact k6
      · rename_i y10
        exact k6
    clear_value x5
    refine Keeps.trans ?_ (State.fillEdge_keeps _ _ _ _)
    exact k7

theorem State.copyImage_keeps (s) (v) (p) (key) (src) (dst) (padDraw) : Keeps s (State.copyImage s v p key src dst padDraw).1 := by
  unfold State.copyImage
  split
  · rename_i y0
    refine Keeps.fst ?_
    refine Keeps.foldl _ ?_ ?_
    · exact Keeps.refl _
    · intro a1 a2
      split
      · rename_i y3 y4 y5 y6
        refine Keeps.trans ?_ (State.putCode_keeps _ _ _ _ _ _)
        exact Keeps.refl _
  · rename_i y7
    extract_lets x8 x9 x10
    clear_value x8
    clear_value x9
    clear_value x10
    refine Keeps.foldl_fst _ ?_ ?_
    · refine Keeps.fst ?_
      exact Keeps.refl _
    · intro a11 a12
      extract_lets x13
      clear_value x13
      split
      · rename_i y14 y15 y16 y17
        have k18 := Keeps.of_fst (State.putBlock_keeps _ _ _ _ _ _) y17
        refine Keeps.fst ?_
        exact k18

theorem State.gatherUnit_keeps (s) (v) (p) (dst) (n) (data) : Keeps s (State.gatherUnit s v p dst n data) := by
  unfold State.gatherUnit
  refine Keeps.foldl _ ?_ ?_
  · exact Keeps.refl _
  · intro a0 a1
    split
    · rename_i y2 y3 y4 y5
      refine Keeps.trans ?_ (State.putCode_keeps _ _ _ _ _ _)
      exact Keeps.refl _

theorem State.scatterUnit_keeps (s) (v) (p) (src) (dst) (n) (o) : Keeps s (State.scatterUnit s v p src dst n o) := by
  unfold State.scatterUnit
  refine Keeps.foldl _ ?_ ?_
  · exact Keeps.refl _
  · intro a0 a1
    extract_lets x2
    clear_value x2
    split
    · rename_i y3 y4 y5 y6
      extract_lets x7
      clear_value x7
      split
      · rename_i y8
        refine Keeps.trans ?_ (State.putCode_keeps _ _ _ _ _ _)
        exact Keeps.refl _
      · rename_i y9
        refine Keeps.trans ?_ (State.putCode_keeps _ _ _ _ _ _)
        exact Keeps.refl _

theorem State.gatherBits_keeps (s) (v) (p) (src) (bm) (entries) (n) : Keeps s (State.gatherBits s v p src bm entries n) := by
  unfold State.gatherBits
  extract_lets x0 x1
  clear_value x0
  clear_value x1
  refine Keeps.foldl _ ?_ ?_
  · exact Keeps.refl _
  · intro a2 a3
    extract_lets x4 x5
    clear_value x4
    clear_value x5
    split
    · rename_i y6
      exact Keeps.refl _
    · rename_i y7
      refine Keeps.foldl _ ?_ ?_
      · exact Keeps.refl _
      · intro a8 a9
        refine Keeps.trans ?_ (State.markBlock_keeps _ _ _ _ _ _ _)
        exact Keeps.refl _

theorem execTracer_keeps (p) (s) : OutAll (Keeps s) (execTracer p s) := by
  unfold execTracer
  refine OutAll.intro ?_
  refine Keeps.trans ?_ (State.forOp_keeps _ _ _ _ ?_)
  · exact Keeps.refl _
  · refine Keeps.trans ?_ (State.startOnPlate_keeps _ _ _ _)
    exact Keeps.refl _

theorem State.touchUnit_keeps (s) (v) (io) : ExAll (fun r => Keeps s r.2) (fun r => Keeps s r) (State.touchUnit s v io) := by
  unfold State.touchUnit
  refine ExAll.bind (ExAll.foldlM_snd _ (Keeps.refl _) fun s x => ?_) fun s1 k1 => ?_
  · split
    · rename_i y
      exact ExAll.intro (ExAll.of (State.touchAll_keeps _ _ _ _ _) y)
    · exact Keeps.refl _
  · refine ExAll.bind (ExAll.foldlM_snd _ k1 fun s x => ?_) fun s2 k2 => ?_
    · split
      · rename_i y
        exact ExAll.intro (ExAll.of (State.touchAll_keeps _ _ _ _ _) y)
      · exact Keeps.refl _
    · split
      · exact k2
      · split
        · exact k2
        · exact k2

theorem State.stopUnit_keeps (s) (c) (e) : Keeps s (State.stopUnit s c e) := by
  unfold State.stopUnit
  split
  · rename_i y0 y1 y2 y3 y4
    refine Keeps.trans ?_ (State.unitFault_keeps _ _ _ _ _ _)
    exact Keeps.refl _
  · rename_i y5 y6 y7 y8
    refine Keeps.trans ?_ (State.unitMedia_keeps _ _ _ _ _)
    exact Keeps.refl _
  · rename_i y9 y10
    refine Keeps.trans ?_ (State.waitHost_keeps _ _ _)
    exact Keeps.refl _

theorem State.copyUnit_keeps (s) (c) (seed) (src) (dst) : Keeps s (State.copyUnit s c seed src dst) := by
  unfold State.copyUnit
  extract_lets x0 x1 x2 x3 x4
  clear_value x0
  clear_value x1
  clear_value x2
  clear_value x3
  clear_value x4
  split
  · rename_i y5 y6 y7 y8
    have k9 := ExAll.of_error (State.touchUnit_keeps _ _ _) y8
    refine Keeps.trans ?_ (State.stopUnit_keeps _ _ _)
    refine Keeps.trans ?_ k9
    exact Keeps.refl _
  · rename_i y10 y11 y12
    have k13 := ExAll.of (State.touchUnit_keeps _ _ _) y12
    split
    · rename_i y14 y15 y16 y17
      have k18 : Keeps s y16 := by
        refine Keeps.of_eq (congrArg Prod.snd y17) ?_
        split
        · rename_i y19
          refine Keeps.trans ?_ (State.draw_keeps _ _)
          exact k13
        · rename_i y20
          refine Keeps.snd ?_
          exact k13
      split
      · rename_i y21 y22 y23 y24
        have k25 : Keeps _ y22 := Keeps.of_fst (State.copyImage_keeps _ _ _ _ _ _ _) y24
        extract_lets x26 x27
        clear_value x26
        have k28 : Keeps s (x27) := by
          subst x27
          refine Keeps.trans ?_ (State.vwrite_keeps _ _ _ _ _)
          exact k18
        clear_value x27
        refine Keeps.trans ?_ (State.updCmd_keeps _ _ _ _)
        exact k28

theorem State.pickEntry_keeps (s) (c) (total) : Keeps s ((State.pickEntry s c total).2) := by
  unfold State.pickEntry
  extract_lets x0
  clear_value x0
  split
  · rename_i y1
    refine Keeps.snd ?_
    refine Keeps.set_free ?_
    exact Keeps.refl _
  · rename_i y2
    refine Keeps.snd ?_
    exact Keeps.refl _

theorem State.gatherEntry_keeps (s) (c) (src) (dst) (total) (n) : Keeps s (State.gatherEntry s c src dst total n) := by
  unfold State.gatherEntry
  extract_lets x0 x1 x2 x3 x4 x5 x6
  clear_value x0
  clear_value x1
  clear_value x2
  clear_value x3
  clear_value x4
  clear_value x5
  clear_value x6
  split
  · rename_i y7 y8 y9 y10
    have k15 := ExAll.of_error (State.touchUnit_keeps _ _ _) y10
    refine Keeps.trans ?_ (State.stopUnit_keeps _ _ _)
    exact k15
  · rename_i y16 y17 y18
    have k22 := ExAll.of (State.touchUnit_keeps _ _ _) y18
    extract_lets x23 x24 x25
    clear_value x23
    have k26 : Keeps s x24 := by
      subst x24
      refine Keeps.trans ?_ (State.gatherUnit_keeps _ _ _ _ _ _)
      exact k22
    clear_value x24
    have k27 : Keeps s x25 := by
      subst x25
      split
      · rename_i y28 y29
        refine Keeps.trans ?_ (State.gatherBits_keeps _ _ _ _ _ _ _)
        exact k26
      · rename_i y30
        exact k26
    clear_value x25
    refine Keeps.trans ?_ (State.updCmd_keeps _ _ _ _)
    exact k27

theorem State.scatterEntry_keeps (s) (c) (src) (dst) (n) : Keeps s (State.scatterEntry s c src dst n) := by
  unfold State.scatterEntry
  extract_lets x0 x1 x2 x3 x4 x5
  clear_value x0
  clear_value x1
  clear_value x2
  clear_value x3
  clear_value x4
  clear_value x5
  split
  · rename_i y6 y7 y8 y9
    have k14 := ExAll.of_error (State.touchUnit_keeps _ _ _) y9
    refine Keeps.trans ?_ (State.stopUnit_keeps _ _ _)
    exact k14
  · rename_i y15 y16 y17
    have k21 := ExAll.of (State.touchUnit_keeps _ _ _) y17
    extract_lets x22
    have k23 : Keeps s x22 := by
      subst x22
      split
      · rename_i y24 y25
        refine Keeps.trans ?_ (State.scatterUnit_keeps _ _ _ _ _ _ _)
        exact k21
      · rename_i y26
        exact k21
    clear_value x22
    refine Keeps.trans ?_ (State.updCmd_keeps _ _ _ _)
    exact k23

theorem State.listUnit_keeps (s) (c) (src) (dst) : Keeps s (State.listUnit s c src dst) := by
  unfold State.listUnit
  extract_lets x0 x1 x2 x3
  clear_value x0
  clear_value x1
  clear_value x2
  clear_value x3
  split
  · rename_i y4 y5 y6 y7
    have k12 := ExAll.of_error (State.touchUnit_keeps _ _ _) y7
    refine Keeps.trans ?_ (State.stopUnit_keeps _ _ _)
    exact k12
  · rename_i y13 y14 y15
    have k19 := ExAll.of (State.touchUnit_keeps _ _ _) y15
    split
    · rename_i y20 y21 y22
      refine Keeps.trans ?_ (State.endOnPlate_keeps _ _ _)
      exact k19
    · rename_i y23 y24
      split
      · rename_i y25 y26 y27 y28
        have k30 := Keeps.of_snd (State.pickEntry_keeps _ _ _) y28
        split
        · rename_i y31
          refine Keeps.trans ?_ (State.gatherEntry_keeps _ _ _ _ _ _)
          refine Keeps.trans ?_ k30
          exact k19
        · rename_i y32
          refine Keeps.trans ?_ (State.scatterEntry_keeps _ _ _ _ _)
          refine Keeps.trans ?_ k30
          exact k19

theorem execTracerUnit_keeps (plate) (s) : OutAll (Keeps s) (execTracerUnit plate s) := by
  unfold execTracerUnit
  refine OutAll.intro ?_
  split
  · rename_i y0 y1
    exact Keeps.refl _
  · rename_i y2 y3 y4
    split
    · rename_i y5 y6 y7 y8 y9 y10 y11 y12 y13
      split
      · rename_i y14
        refine Keeps.trans ?_ (State.listUnit_keeps _ _ _ _)
        exact Keeps.refl _
      · rename_i y15
        refine Keeps.trans ?_ (State.copyUnit_keeps _ _ _ _ _)
        exact Keeps.refl _
    · rename_i y16 y17 y18 y19
      exact Keeps.refl _

theorem State.putCodes_keeps (s) (v) (d) (n) (codes) : Keeps s (State.putCodes s v d n codes) := by
  unfold State.putCodes
  refine Keeps.foldl _ ?_ ?_
  · exact Keeps.refl _
  · intro a0 a1
    refine Keeps.trans ?_ (State.putCode_keeps _ _ _ _ _ _)
    exact Keeps.refl _

theorem State.routeWrite_keeps (s) (v) (p) (rs) : Keeps s (State.routeWrite s v p rs).1 := by
  unfold State.routeWrite
  extract_lets x0 x1 x2 x3 x4 x5 x6 x7 x8 x9 x10 x11
  clear_value x0
  clear_value x1
  clear_value x2
  clear_value x3
  clear_value x4
  clear_value x5
  subst x6
  clear_value x7
  have k12 : Keeps s x8 := by
    subst x8
    beta_reduce
    split
    · rename_i y13 y14 y15
      refine Keeps.trans ?_ (State.putCodes_keeps _ _ _ _ _)
      exact Keeps.refl _
    · rename_i y16 y17
      exact Keeps.refl _
  clear_value x8
  have k18 : Keeps s x9 := by
    subst x9
    beta_reduce
    split
    · rename_i y19 y20 y21
      refine Keeps.trans ?_ (State.putCodes_keeps _ _ _ _ _)
      exact k12
    · rename_i y22 y23
      exact k12
  clear_value x9
  have k24 : Keeps s x10 := by
    subst x10
    split
    · rename_i y25
      beta_reduce
      split
      · rename_i y26 y27 y28
        refine Keeps.trans ?_ (State.putCodes_keeps _ _ _ _ _)
        exact k18
      · rename_i y29 y30
        exact k18
    · rename_i y31
      exact k18
  clear_value x10
  have k32 : Keeps s x11 := by
    subst x11
    split
    · rename_i y33 y34 y35
      refine Keeps.trans ?_ (State.vwrite_keeps _ _ _ _ _)
      exact k24
    · rename_i y36 y37
      exact k24
  clear_value x11
  refine Keeps.fst ?_
  exact k32

theorem execRoute_keeps (p) (s) : OutAll (Keeps s) (execRoute p s) := by
  unfold execRoute
  refine OutAll.intro ?_
  refine Keeps.trans ?_ (State.forOp_keeps _ _ _ _ ?_)
  · exact Keeps.refl _
  · refine Keeps.trans ?_ (State.startOnPlate_keeps _ _ _ _)
    exact Keeps.refl _

theorem execExit_keeps (p) (s) : OutAll (Keeps s) (execExit p s) := by
  unfold execExit
  refine OutAll.intro ?_
  refine Keeps.trans ?_ (State.forOp_keeps _ _ _ _ ?_)
  · exact Keeps.refl _
  · refine Keeps.trans ?_ (State.startOnPlate_keeps _ _ _ _)
    exact Keeps.refl _

theorem execMask_keeps (p) (s) : OutAll (Keeps s) (execMask p s) := by
  unfold execMask
  refine OutAll.intro ?_
  refine Keeps.trans ?_ (State.forOp_keeps _ _ _ _ ?_)
  · exact Keeps.refl _
  · refine Keeps.trans ?_ (State.startOnPlate_keeps _ _ _ _)
    exact Keeps.refl _

theorem State.keepArea_keeps (s) (v) (rs) : Keeps s (State.keepArea s v rs) := by
  unfold State.keepArea
  refine Keeps.foldl _ ?_ ?_
  · refine Keeps.set_free ?_
    exact Keeps.refl _
  · intro a0 a1
    refine Keeps.trans ?_ (State.vwrite_keeps _ _ _ _ _)
    exact Keeps.refl _

theorem State.tokenRoute_keeps (s) (c) : Keeps s (State.tokenRoute s c) := by
  unfold State.tokenRoute
  extract_lets x0 x1 x2 x3 x4 x5
  clear_value x0
  clear_value x1
  clear_value x2
  clear_value x3
  clear_value x4
  clear_value x5
  split
  · rename_i y6 y7 y8 y9
    have k14 := ExAll.of_error (State.touchUnit_keeps _ _ _) y9
    refine Keeps.trans ?_ (State.stopUnit_keeps _ _ _)
    exact k14
  · rename_i y15 y16 y17
    have k21 := ExAll.of (State.touchUnit_keeps _ _ _) y17
    extract_lets x22 x23
    clear_value x22
    have k24 : Keeps s x23 := by
      subst x23
      refine Keeps.trans ?_ (State.keepArea_keeps _ _ _)
      exact k21
    clear_value x23
    split
    · rename_i y25
      split
      · rename_i y26 y27 y28 y29 y30
        have k31 := Keeps.of_fst (State.routeWrite_keeps _ _ _ _) y30
        refine Keeps.trans ?_ (State.updCmd_keeps _ _ _ _)
        refine Keeps.trans ?_ k31
        exact k24
    · rename_i y32
      refine Keeps.trans ?_ (State.updCmd_keeps _ _ _ _)
      exact k24

theorem State.tokenExit_keeps (s) (c) : Keeps s (State.tokenExit s c) := by
  unfold State.tokenExit
  extract_lets x0 x1 x2 x3 x4 x5 x6 x7 x8 x9
  clear_value x0
  clear_value x1
  clear_value x2
  clear_value x3
  clear_value x4
  clear_value x5
  clear_value x6
  clear_value x7
  subst x8
  clear_value x9
  split
  · rename_i y10 y11 y12 y13
    have k18 := ExAll.of_error (State.touchUnit_keeps _ _ _) y13
    refine Keeps.trans ?_ (State.stopUnit_keeps _ _ _)
    exact k18
  · rename_i y19 y20 y21
    have k25 := ExAll.of (State.touchUnit_keeps _ _ _) y21
    extract_lets x26 x27 x28 x29 x30 x31 x32 x33
    clear_value x26
    clear_value x27
    clear_value x28
    have k34 : Keeps s x29 := by
      subst x29
      beta_reduce
      split
      · rename_i y35 y36 y37
        refine Keeps.trans ?_ (State.putCodes_keeps _ _ _ _ _)
        exact k25
      · rename_i y38 y39
        exact k25
    clear_value x29
    have k40 : Keeps s x30 := by
      subst x30
      split
      · rename_i y41
        exact k34
      · rename_i y42
        beta_reduce
        split
        · rename_i y43 y44 y45
          refine Keeps.trans ?_ (State.putCodes_keeps _ _ _ _ _)
          exact k34
        · rename_i y46 y47
          exact k34
    clear_value x30
    clear_value x31
    have k48 : Keeps s x32 := by
      subst x32
      split
      · rename_i y49
        beta_reduce
        split
        · rename_i y50 y51 y52
          refine Keeps.trans ?_ (State.putCodes_keeps _ _ _ _ _)
          exact k40
        · rename_i y53 y54
          exact k40
      · rename_i y55
        exact k40
    clear_value x32
    have k56 : Keeps s x33 := by
      subst x33
      split
      · rename_i y57 y58 y59
        refine Keeps.foldl _ ?_ ?_
        · exact k48
        · intro a60 a61
          refine Keeps.trans ?_ (State.markBlock_keeps _ _ _ _ _ _ _)
          exact Keeps.refl _
      · rename_i y62 y63
        exact k48
    clear_value x33
    refine Keeps.trans ?_ (State.updCmd_keeps _ _ _ _)
    exact k56

theorem State.rowMask_keeps (s) (c) : Keeps s (State.rowMask s c) := by
  unfold State.rowMask
  extract_lets x0 x1 x2 x3 x4 x5 x6 x7 x8
  clear_value x0
  clear_value x1
  clear_value x2
  clear_value x3
  clear_value x4
  clear_value x5
  clear_value x6
  clear_value x7
  clear_value x8
  split
  · rename_i y9 y10
    exact Keeps.refl _
  · rename_i y11 y12 y13
    extract_lets x14
    clear_value x14
    split
    · rename_i y15 y16 y17 y18
      have k19 := ExAll.of_error (State.touchUnit_keeps _ _ _) y18
      refine Keeps.trans ?_ (State.stopUnit_keeps _ _ _)
      refine Keeps.trans ?_ k19
      exact Keeps.refl _
    · rename_i y20 y21 y22
      have k23 := ExAll.of (State.touchUnit_keeps _ _ _) y22
      extract_lets x24 x25 x26 x27 x28
      clear_value x24
      clear_value x25
      clear_value x26
      clear_value x27
      have k29 : Keeps s (x28) := by
        subst x28
        refine Keeps.trans ?_ (State.vwrite_keeps _ _ _ _ _)
        exact k23
      clear_value x28
      refine Keeps.trans ?_ (State.updCmd_keeps _ _ _ _)
      exact k29

theorem execStencilToken_keeps (tile) (s) : OutAll (Keeps s) (execStencilToken tile s) := by
  unfold execStencilToken
  refine OutAll.intro ?_
  split
  · rename_i y0 y1
    exact Keeps.refl _
  · rename_i y2 y3 y4
    split
    · rename_i y5 y6
      refine Keeps.trans ?_ (State.tokenRoute_keeps _ _)
      exact Keeps.refl _
    · rename_i y7 y8
      refine Keeps.trans ?_ (State.tokenExit_keeps _ _)
      exact Keeps.refl _
    · rename_i y9 y10 y11
      refine Keeps.trans ?_ (State.rowMask_keeps _ _)
      exact Keeps.refl _

theorem execAttnFwd_keeps (p) (s) : OutAll (Keeps s) (execAttnFwd p s) := by
  unfold execAttnFwd
  refine OutAll.intro ?_
  refine Keeps.trans ?_ (State.forOp_keeps _ _ _ _ ?_)
  · exact Keeps.refl _
  · refine Keeps.trans ?_ (State.startOnPlate_keeps _ _ _ _)
    exact Keeps.refl _

theorem execAttnPrep_keeps (p) (s) : OutAll (Keeps s) (execAttnPrep p s) := by
  unfold execAttnPrep
  refine OutAll.intro ?_
  refine Keeps.trans ?_ (State.forOp_keeps _ _ _ _ ?_)
  · exact Keeps.refl _
  · refine Keeps.trans ?_ (State.startOnPlate_keeps _ _ _ _)
    exact Keeps.refl _

theorem execAttnBwd_keeps (p) (s) : OutAll (Keeps s) (execAttnBwd p s) := by
  unfold execAttnBwd
  refine OutAll.intro ?_
  refine Keeps.trans ?_ (State.forOp_keeps _ _ _ _ ?_)
  · exact Keeps.refl _
  · refine Keeps.trans ?_ (State.startOnPlate_keeps _ _ _ _)
    exact Keeps.refl _

theorem State.commitPair_keeps (s) (c) (cursor) (job) (counts) (carry) : Keeps s (State.commitPair s c cursor job counts carry) := by
  unfold State.commitPair
  extract_lets x0
  have k1 : Keeps s x0 := by
    subst x0
    refine Keeps.trans ?_ (State.keepArea_keeps _ _ _)
    exact Keeps.refl _
  clear_value x0
  refine Keeps.trans ?_ (State.updCmd_keeps _ _ _ _)
  exact k1

theorem State.writeRows_keeps (s) (v) (p) (key) (off) (h) (a) (rows) (carry) : Keeps s (State.writeRows s v p key off h a rows carry).1 := by
  unfold State.writeRows
  split
  · rename_i y0 y1
    refine Keeps.fst ?_
    exact Keeps.refl _
  · rename_i y2 y3 y4
    extract_lets x5 x6 x7
    clear_value x5
    clear_value x6
    clear_value x7
    split
    · rename_i y8 y9 y10 y11 y12
      have k13 := Keeps.of_fst (State.putElems_keeps _ _ _ _ _ _) y12
      refine Keeps.fst ?_
      exact k13

theorem State.writeVec_keeps (s) (v) (p) (off) (h) (a) (xs) : Keeps s (State.writeVec s v p off h a xs) := by
  unfold State.writeVec
  split
  · rename_i y0 y1
    exact Keeps.refl _
  · rename_i y2 y3 y4
    refine Keeps.foldl _ ?_ ?_
    · exact Keeps.refl _
    · intro a5 a6
      refine Keeps.trans ?_ (State.putCode_keeps _ _ _ _ _ _)
      exact Keeps.refl _

theorem State.pairFwd_keeps (s) (c) (seed) : Keeps s (State.pairFwd s c seed) := by
  unfold State.pairFwd
  extract_lets x0 x1 x2 x3 x4 x5 x6 x7 x8
  clear_value x0
  clear_value x1
  clear_value x2
  clear_value x3
  clear_value x4
  clear_value x5
  clear_value x6
  clear_value x7
  clear_value x8
  split
  · rename_i y9 y10 y11 y12
    have k13 := ExAll.of_error (State.touchUnit_keeps _ _ _) y12
    refine Keeps.trans ?_ (State.stopUnit_keeps _ _ _)
    refine Keeps.trans ?_ k13
    exact Keeps.refl _
  · rename_i y14 y15 y16
    have k17 := ExAll.of (State.touchUnit_keeps _ _ _) y16
    extract_lets x18 x19 x20 x21
    clear_value x18
    clear_value x19
    clear_value x20
    clear_value x21
    split
    · rename_i y22 y23 y24 y25
      have k26 := ExAll.of_error (State.touchUnit_keeps _ _ _) y25
      refine Keeps.trans ?_ (State.stopUnit_keeps _ _ _)
      refine Keeps.trans ?_ k26
      exact k17
    · rename_i y27 y28 y29
      have k30 := ExAll.of (State.touchUnit_keeps _ _ _) y29
      extract_lets x31 x32
      clear_value x31
      clear_value x32
      split
      · rename_i y33
        split
        · rename_i y34 y35 y36 y37
          have k38 : Keeps _ y35 := Keeps.of_fst (State.writeRows_keeps _ _ _ _ _ _ _ _ _) y37
          extract_lets x39
          have k40 : Keeps s (x39) := by
            subst x39
            refine Keeps.trans ?_ (State.writeVec_keeps _ _ _ _ _ _ _)
            refine Keeps.trans ?_ k38
            refine Keeps.trans ?_ k30
            exact k17
          clear_value x39
          split
          · rename_i y41 y42 y43 y44
            refine Keeps.trans ?_ (State.commitPair_keeps _ _ _ _ _ _)
            exact k40
      · rename_i y45
        refine Keeps.trans ?_ (State.commitPair_keeps _ _ _ _ _ _)
        refine Keeps.trans ?_ k30
        exact k17

theorem State.pairPrep_keeps (s) (c) : Keeps s (State.pairPrep s c) := by
  unfold State.pairPrep
  extract_lets x0 x1 x2 x3 x4 x5 x6
  clear_value x0
  clear_value x1
  clear_value x2
  clear_value x3
  clear_value x4
  clear_value x5
  clear_value x6
  split
  · rename_i y7 y8 y9 y10
    have k11 := ExAll.of_error (State.touchUnit_keeps _ _ _) y10
    refine Keeps.trans ?_ (State.stopUnit_keeps _ _ _)
    refine Keeps.trans ?_ k11
    exact Keeps.refl _
  · rename_i y12 y13 y14
    have k15 := ExAll.of (State.touchUnit_keeps _ _ _) y14
    extract_lets x16
    clear_value x16
    refine Keeps.trans ?_ (State.commitPair_keeps _ _ _ _ _ _)
    refine Keeps.trans ?_ (State.writeVec_keeps _ _ _ _ _ _ _)
    exact k15

theorem State.pairKey_keeps (s) (c) (seed) : Keeps s (State.pairKey s c seed) := by
  unfold State.pairKey
  extract_lets x0 x1 x2 x3 x4 x5 x6 x7 x8
  clear_value x0
  clear_value x1
  clear_value x2
  clear_value x3
  clear_value x4
  clear_value x5
  clear_value x6
  clear_value x7
  clear_value x8
  split
  · rename_i y9 y10 y11 y12
    have k13 := ExAll.of_error (State.touchUnit_keeps _ _ _) y12
    refine Keeps.trans ?_ (State.stopUnit_keeps _ _ _)
    refine Keeps.trans ?_ k13
    exact Keeps.refl _
  · rename_i y14 y15 y16
    have k17 := ExAll.of (State.touchUnit_keeps _ _ _) y16
    extract_lets x18 x19 x20 x21 x22 x23 x24 x25
    clear_value x18
    clear_value x19
    clear_value x20
    clear_value x21
    clear_value x22
    clear_value x23
    clear_value x24
    clear_value x25
    split
    · rename_i y26 y27 y28 y29
      have k30 := ExAll.of_error (State.touchUnit_keeps _ _ _) y29
      refine Keeps.trans ?_ (State.stopUnit_keeps _ _ _)
      refine Keeps.trans ?_ k30
      exact k17
    · rename_i y31 y32 y33
      have k34 := ExAll.of (State.touchUnit_keeps _ _ _) y33
      extract_lets x35 x36 x37 x38
      clear_value x35
      clear_value x36
      clear_value x37
      clear_value x38
      split
      · rename_i y39 y40 y41 y42
        split
        · rename_i y43
          split
          · rename_i y44 y45 y46 y47
            have k48 : Keeps _ y45 := Keeps.of_fst (State.writeRows_keeps _ _ _ _ _ _ _ _ _) y47
            split
            · rename_i y49 y50 y51 y52
              have k53 : Keeps _ y50 := Keeps.of_fst (State.writeRows_keeps _ _ _ _ _ _ _ _ _) y52
              refine Keeps.trans ?_ (State.commitPair_keeps _ _ _ _ _ _)
              refine Keeps.trans ?_ k53
              refine Keeps.trans ?_ k48
              refine Keeps.trans ?_ k34
              exact k17
        · rename_i y54
          refine Keeps.trans ?_ (State.commitPair_keeps _ _ _ _ _ _)
          refine Keeps.trans ?_ k34
          exact k17

theorem State.pairQuery_keeps (s) (c) (seed) : Keeps s (State.pairQuery s c seed) := by
  unfold State.pairQuery
  extract_lets x0 x1 x2 x3 x4 x5 x6 x7 x8 x9 x10
  clear_value x0
  clear_value x1
  clear_value x2
  clear_value x3
  clear_value x4
  clear_value x5
  clear_value x6
  clear_value x7
  clear_value x8
  clear_value x9
  clear_value x10
  split
  · rename_i y11 y12 y13 y14
    have k15 := ExAll.of_error (State.touchUnit_keeps _ _ _) y14
    refine Keeps.trans ?_ (State.stopUnit_keeps _ _ _)
    refine Keeps.trans ?_ k15
    exact Keeps.refl _
  · rename_i y16 y17 y18
    have k19 := ExAll.of (State.touchUnit_keeps _ _ _) y18
    extract_lets x20 x21 x22 x23 x24 x25 x26
    clear_value x20
    clear_value x21
    clear_value x22
    clear_value x23
    clear_value x24
    clear_value x25
    clear_value x26
    split
    · rename_i y27 y28 y29 y30
      have k31 := ExAll.of_error (State.touchUnit_keeps _ _ _) y30
      refine Keeps.trans ?_ (State.stopUnit_keeps _ _ _)
      refine Keeps.trans ?_ k31
      exact k19
    · rename_i y32 y33 y34
      have k35 := ExAll.of (State.touchUnit_keeps _ _ _) y34
      extract_lets x36 x37 x38
      clear_value x36
      clear_value x37
      clear_value x38
      split
      · rename_i y39
        split
        · rename_i y40 y41 y42 y43
          have k44 : Keeps _ y41 := Keeps.of_fst (State.writeRows_keeps _ _ _ _ _ _ _ _ _) y43
          refine Keeps.trans ?_ (State.commitPair_keeps _ _ _ _ _ _)
          refine Keeps.trans ?_ k44
          refine Keeps.trans ?_ k35
          exact k19
      · rename_i y45
        refine Keeps.trans ?_ (State.commitPair_keeps _ _ _ _ _ _)
        refine Keeps.trans ?_ k35
        exact k19

theorem execAquatintPairCommit_keeps (plate) (s) : OutAll (Keeps s) (execAquatintPairCommit plate s) := by
  unfold execAquatintPairCommit
  refine OutAll.intro ?_
  split
  · rename_i y0 y1
    exact Keeps.refl _
  · rename_i y2 y3 y4
    split
    · rename_i y5 y6
      exact Keeps.refl _
    · rename_i y7 y8 y9
      split
      · rename_i y10 y11
        refine Keeps.trans ?_ (State.pairFwd_keeps _ _ _)
        exact Keeps.refl _
      · rename_i y12 y13
        refine Keeps.trans ?_ (State.pairPrep_keeps _ _)
        exact Keeps.refl _
      · rename_i y14 y15 y16
        split
        · rename_i y17
          refine Keeps.trans ?_ (State.pairKey_keeps _ _ _)
          exact Keeps.refl _
        · rename_i y18
          refine Keeps.trans ?_ (State.pairQuery_keeps _ _ _)
          exact Keeps.refl _

theorem State.endWork_keeps (s) (c) : Keeps s ((State.endWork s c).1) := by
  unfold State.endWork
  split
  · rename_i y0 y1
    refine Keeps.trans ?_ (State.finishTiles_keeps _ _)
    exact Keeps.refl _
  · rename_i y2 y3
    refine Keeps.trans ?_ (State.finishTiles_keeps _ _)
    exact Keeps.refl _
  · rename_i y4 y5
    refine Keeps.fst ?_
    exact Keeps.refl _
  · rename_i y6 y7
    refine Keeps.fst ?_
    exact Keeps.refl _
  · rename_i y8 y9
    refine Keeps.fst ?_
    exact Keeps.refl _
  · rename_i y10 y11
    refine Keeps.fst ?_
    exact Keeps.refl _
  · rename_i y12 y13 y14 y15 y16 y17 y18
    refine Keeps.fst ?_
    exact Keeps.refl _

theorem State.countPlateStroke_keeps (s) (n) : Keeps s (State.countPlateStroke s n) := by
  unfold State.countPlateStroke
  refine Keeps.trans ?_ (State.updCtx_keeps _ _ _)
  exact Keeps.refl _

theorem State.givePlate_keeps (s) (n) : Keeps s (State.givePlate s n) := by
  unfold State.givePlate
  split
  · rename_i y0 y1
    exact Keeps.refl _
  · rename_i y2 y3 y4
    split
    · rename_i y5
      exact Keeps.refl _
    · rename_i y6
      extract_lets x7 x8
      clear_value x7
      have k9 : Keeps s x8 := by
        subst x8
        refine Keeps.trans ?_ (State.updPlate_keeps _ _ _)
        exact Keeps.refl _
      clear_value x8
      split
      · rename_i y10 y11
        refine Keeps.trans ?_ (State.countPlateStroke_keeps _ _)
        exact k9
      · rename_i y12
        exact k9

theorem State.giveRouter_keeps (s) (t) : Keeps s (State.giveRouter s t) := by
  unfold State.giveRouter
  split
  · rename_i y0 y1
    exact Keeps.refl _
  · rename_i y2 y3 y4
    split
    · rename_i y5
      exact Keeps.refl _
    · rename_i y6
      extract_lets x7
      clear_value x7
      refine Keeps.trans ?_ (State.updRouter_keeps _ _ _)
      exact Keeps.refl _

theorem State.firstUnits_keeps (s) (r) : Keeps s (State.firstUnits s r) := by
  unfold State.firstUnits
  refine Keeps.trans ?_ (State.issue_keeps _ _ _ _)
  exact Keeps.refl _

theorem State.handOver_keeps (s) (r) : Keeps s (State.handOver s r) := by
  unfold State.handOver
  split
  · rename_i y0 y1
    split
    · rename_i y2
      refine Keeps.trans ?_ (State.firstUnits_keeps _ _)
      refine Keeps.trans ?_ (State.givePlate_keeps _ _)
      exact Keeps.refl _
    · rename_i y3
      exact Keeps.refl _
  · rename_i y4 y5
    split
    · rename_i y6
      refine Keeps.trans ?_ (State.firstUnits_keeps _ _)
      refine Keeps.trans ?_ (State.giveRouter_keeps _ _)
      exact Keeps.refl _
    · rename_i y7
      exact Keeps.refl _

theorem State.lateRouter_keeps (s) (r) : Keeps s (State.lateRouter s r) := by
  unfold State.lateRouter
  split
  · rename_i y0 y1
    refine Keeps.trans ?_ (State.handOver_keeps _ _)
    exact Keeps.refl _
  · rename_i y2 y3
    exact Keeps.refl _

theorem execPlateHandover_keeps (plate) (s) : OutAll (Keeps s) (execPlateHandover plate s) := by
  unfold execPlateHandover
  refine OutAll.intro ?_
  refine Keeps.trans ?_ (State.handOver_keeps _ _)
  exact Keeps.refl _

theorem State.countBusy_keeps (s) (r) (run) : Keeps s (State.countBusy s r run) := by
  unfold State.countBusy
  split
  · rename_i y0 y1
    refine Keeps.trans ?_ (State.updPlate_keeps _ _ _)
    exact Keeps.refl _
  · rename_i y2 y3
    exact Keeps.refl _

theorem State.unitEnds_keeps (s) (u) (c) : Keeps s (State.unitEnds s u c) := by
  unfold State.unitEnds
  extract_lets x0 x1
  have k2 : Keeps s x0 := by
    subst x0
    refine Keeps.trans ?_ (State.removeUnit_keeps _ _)
    exact Keeps.refl _
  clear_value x0
  have k3 : Keeps s x1 := by
    subst x1
    refine Keeps.trans ?_ (State.updCmd_keeps _ _ _ _)
    exact k2
  clear_value x1
  split
  · rename_i y4
    refine Keeps.trans ?_ (State.lateRouter_keeps _ _)
    refine Keeps.trans ?_ (State.preempt_keeps _ _ _)
    exact k3
  · rename_i y5
    refine Keeps.trans ?_ (State.issueAt_keeps _ _)
    refine Keeps.trans ?_ (State.lateRouter_keeps _ _)
    exact k3

theorem execDispatchUnitEnd_keeps (u) (run) (s) : OutAll (Keeps s) (execDispatchUnitEnd u run s) := by
  unfold execDispatchUnitEnd
  refine OutAll.intro ?_
  split
  · rename_i y0 y1 y2
    extract_lets x3
    have k4 : Keeps s x3 := by
      subst x3
      refine Keeps.trans ?_ (State.countBusy_keeps _ _ _)
      exact Keeps.refl _
    clear_value x3
    split
    · rename_i y5 y6
      refine Keeps.trans ?_ (State.setUnits_keeps _ _ _)
      exact k4
    · rename_i y7 y8 y9
      split
      · rename_i y10
        split
        · rename_i y11 y12 y13 y14
          have k15 := Keeps.of_fst (State.endWork_keeps _ _) y14
          refine Keeps.trans ?_ (State.lateRouter_keeps _ _)
          refine Keeps.trans ?_ (State.endOnPlate_keeps _ _ _)
          refine Keeps.trans ?_ k15
          exact k4
      · rename_i y16
        refine Keeps.trans ?_ (State.unitEnds_keeps _ _ _)
        exact k4
  · rename_i y17 y18
    split
    · rename_i y19 y20 y21 y22 y23
      refine Keeps.trans ?_ (State.unitEnds_keeps _ _ _)
      refine Keeps.trans ?_ (State.emptyUnits_keeps _ _ _ _)
      refine Keeps.trans ?_ (State.countBusy_keeps _ _ _)
      exact Keeps.refl _
    · rename_i y24 y25 y26 y27
      exact Keeps.refl _

theorem State.overrunUnit_keeps (s) (r) (u) : Keeps s (State.overrunUnit s r u) := by
  unfold State.overrunUnit
  split
  · rename_i y0 y1
    exact Keeps.refl _
  · rename_i y2 y3 y4
    extract_lets x5 x6 x7
    clear_value x5
    have k8 : Keeps s x6 := by
      subst x6
      refine Keeps.trans ?_ (State.updCmd_keeps _ _ _ _)
      exact Keeps.refl _
    clear_value x6
    clear_value x7
    split
    · rename_i y9 y10 y11 y12
      extract_lets x13 x14 x15 x16 x17 x18
      clear_value x13
      have k19 : Keeps s x14 := by
        subst x14
        refine Keeps.trans ?_ (State.faultRecord_keeps _ _ _)
        exact k8
      clear_value x14
      have k20 : Keeps s x15 := by
        subst x15
        refine Keeps.trans ?_ (State.logEvent_keeps _ _ _ _ _ _ _)
        exact k19
      clear_value x15
      have k21 : Keeps s x16 := by
        subst x16
        refine Keeps.trans ?_ (State.updCtx_keeps _ _ _)
        exact k20
      clear_value x16
      clear_value x17
      have k22 : Keeps s x18 := by
        subst x18
        refine Keeps.set_power ?_
        exact k21
      clear_value x18
      split
      · rename_i y23
        refine Keeps.trans ?_ (State.preempt_keeps _ _ _)
        exact k22
      · rename_i y24
        split
        · rename_i y25
          refine Keeps.trans ?_ (State.finish_keeps _ _ _)
          exact k22
        · rename_i y26
          refine Keeps.trans ?_ (State.updCmd_keeps _ _ _ _)
          exact k22

theorem execStrokeOverrun_keeps (u) (run) (s) : OutAll (Keeps s) (execStrokeOverrun u run s) := by
  unfold execStrokeOverrun
  refine OutAll.intro ?_
  extract_lets x0 x1 x2 x3
  clear_value x0
  have k4 : Keeps s x1 := by
    subst x1
    split
    · rename_i y5 y6
      refine Keeps.trans ?_ (State.drainTray_keeps _ _)
      refine Keeps.trans ?_ (State.stopArrays_keeps _ _)
      exact Keeps.refl _
    · rename_i y7 y8
      exact Keeps.refl _
  clear_value x1
  have k9 : Keeps s x2 := by
    subst x2
    refine Keeps.trans ?_ (State.countBusy_keeps _ _ _)
    refine Keeps.trans ?_ (State.setUnits_keeps _ _ _)
    exact k4
  clear_value x2
  have k10 : Keeps s x3 := by
    subst x3
    split
    · rename_i y11 y12
      refine Keeps.trans ?_ (State.updPlate_keeps _ _ _)
      exact k9
    · rename_i y13 y14
      refine Keeps.trans ?_ (State.updRouter_keeps _ _ _)
      exact k9
  clear_value x3
  split
  · rename_i y15
    exact Keeps.refl _
  · rename_i y16
    refine Keeps.trans ?_ (State.lateRouter_keeps _ _)
    refine Keeps.foldl _ ?_ ?_
    · exact k10
    · intro a17 a18
      refine Keeps.trans ?_ (State.overrunUnit_keeps _ _ _)
      exact Keeps.refl _

theorem State.endGroupInternal_keeps (s) (c) : Keeps s (State.endGroupInternal s c) := by
  unfold State.endGroupInternal
  extract_lets x0 x1
  clear_value x0
  have k2 : Keeps s (x1) := by
    subst x1
    refine Keeps.foldl _ ?_ ?_
    · exact Keeps.refl _
    · intro a3 a4
      refine Keeps.trans ?_ (State.unhook_keeps _ _)
      exact Keeps.refl _
  clear_value x1
  refine Keeps.set_cmds ?_
  exact k2

theorem execEngineHung_keeps (u) (s) : OutAll (Keeps s) (execEngineHung u s) := by
  unfold execEngineHung
  extract_lets x0 x1 x2 x3 x4 x5
  clear_value x0
  clear_value x1
  have k6 : Keeps s (x2) := by
    subst x2
    refine Keeps.foldl _ ?_ ?_
    · exact Keeps.refl _
    · intro a7 a8
      split
      · rename_i y9 y10 y11
        refine Keeps.trans ?_ (State.endGroupInternal_keeps _ _)
        exact Keeps.refl _
      · rename_i y12 y13
        exact Keeps.refl _
  clear_value x2
  have k14 : Keeps s (x3) := by
    subst x3
    split
    · rename_i y15 y16
      refine Keeps.trans ?_ (State.updPlate_keeps _ _ _)
      exact k6
    · rename_i y17 y18
      refine Keeps.trans ?_ (State.updRouter_keeps _ _ _)
      exact k6
  clear_value x3
  clear_value x4
  have k19 : Keeps s (x5) := by
    subst x5
    refine Keeps.set_power ?_
    exact k14
  clear_value x5
  refine OutAll.intro ?_
  split
  · rename_i y20
    exact Keeps.refl _
  · rename_i y21
    split
    · rename_i y22 y23 y24 y25 y26 y27
      refine Keeps.trans ?_ (State.failEvent_keeps _ _ _)
      refine Keeps.trans ?_ (State.logEvent_keeps _ _ _ _ _ _ _)
      exact k19

end Sys2Proof.Machine
end

