-- ==== Sys2Proof/Laws/KeepsMedia.lean ====
section
/-! SUPPORT. What Easel, the store and alignment keep: one lemma for each operation that answers a state. -/

namespace Sys2Proof.Machine

open Sys2Proof

theorem State.updStream_keeps (s) (k) (f) : Keeps s (State.updStream s k f) := by
  unfold State.updStream
  refine Keeps.set_streams ?_
  exact Keeps.refl _

theorem State.noteStream_keeps (s) (c) : Keeps s (State.noteStream s c) := by
  unfold State.noteStream
  extract_lets x0 x1
  clear_value x0
  clear_value x1
  split
  · rename_i y2
    refine Keeps.trans ?_ (State.updStream_keeps _ _ _)
    exact Keeps.refl _
  · rename_i y3
    exact Keeps.refl _

theorem execStreamOpen_keeps (p) (s) : OutAll (Keeps s) (execStreamOpen p s) := by
  unfold execStreamOpen
  refine OutAll.intro ?_
  refine Keeps.trans ?_ (State.forOp_keeps _ _ _ _ ?_)
  · exact Keeps.refl _
  · refine Keeps.trans ?_ (State.runNow_keeps _ _ _ ?_)
    · exact Keeps.refl _
    · intro a0 a1 a2
      extract_lets x3 x4
      clear_value x3
      clear_value x4
      refine ExAll.bind_any (fun _ => trivial) ?_
      intro a5
      refine ExAll.of_pure ?_
      refine Keeps.fst ?_
      refine Keeps.set_streams ?_
      exact Keeps.refl _

theorem State.putFrame_keeps (s) (k) (x) (out) (md) (f) (capture) (status) (points) (val) : Keeps s (State.putFrame s k x out md f capture status points val) := by
  unfold State.putFrame
  extract_lets x0 x1 x2 x3 x4 x5
  clear_value x0
  clear_value x1
  have k6 : Keeps s (x2) := by
    subst x2
    refine Keeps.foldl _ ?_ ?_
    · exact Keeps.refl _
    · intro a7 a8
      refine Keeps.trans ?_ (State.putBlock_keeps _ _ _ _ _ _)
      exact Keeps.refl _
  clear_value x2
  have k9 : Keeps s (x3) := by
    subst x3
    refine Keeps.trans ?_ (State.vwrite_keeps _ _ _ _ _)
    exact k6
  clear_value x3
  clear_value x5
  refine Keeps.trans ?_ (State.updStream_keeps _ _ _)
  exact k9

theorem State.closeStream_keeps (s) (k) (x) : Keeps s (State.closeStream s k x) := by
  unfold State.closeStream
  extract_lets x0 x1
  clear_value x0
  clear_value x1
  split
  · rename_i y2
    refine Keeps.set_streams ?_
    exact Keeps.refl _
  · rename_i y3
    refine Keeps.set_streams ?_
    exact Keeps.refl _

theorem State.padFrames_keeps (s) (k) (c) (b3) : Keeps s (State.padFrames s k c b3) := by
  induction b3 generalizing s k c
  · rw [State.padFrames]
    exact Keeps.refl _
  · rename_i y0 ih1
    rw [State.padFrames]
    split
    · rename_i y2 y3
      exact Keeps.refl _
    · rename_i y4 y5 y6
      extract_lets x7
      clear_value x7
      split
      · rename_i y8
        refine Keeps.trans ?_ (State.finish_keeps _ _ _)
        refine Keeps.trans ?_ (State.closeStream_keeps _ _ _)
        exact Keeps.refl _
      · rename_i y9
        split
        · rename_i y10 y11 y12 y13 y14 y15
          split
          · rename_i y16 y17 y18 y19
            split
            · rename_i y20 y21 y22 y23
              have k28 := ExAll.of_error (State.touchAll_keeps _ _ _ _ _) y23
              refine Keeps.trans ?_ (State.engineFault_keeps _ _ _ _ _ _ _ _)
              exact Keeps.refl _
            · rename_i y29 y30 y31
              have k35 := ExAll.of (State.touchAll_keeps _ _ _ _ _) y31
              split
              · rename_i y36
                refine Keeps.trans ?_ (State.waitHost_keeps _ _ _)
                exact k35
              · rename_i y37
                refine Keeps.trans ?_ (ih1 _ _ _)
                refine Keeps.trans ?_ (State.updStream_keeps _ _ _)
                refine Keeps.trans ?_ (State.putFrame_keeps _ _ _ _ _ _ _ _ _ _)
                exact k35
        · rename_i y38 y39 y40
          refine Keeps.trans ?_ (State.finish_keeps _ _ _)
          exact Keeps.refl _

theorem State.tryClose_keeps (s) (k) : Keeps s (State.tryClose s k) := by
  unfold State.tryClose
  split
  · rename_i y0 y1
    exact Keeps.refl _
  · rename_i y2 y3 y4
    split
    · rename_i y5 y6
      exact Keeps.refl _
    · rename_i y7 y8 y9 y10
      split
      · rename_i y11 y12
        exact Keeps.refl _
      · rename_i y13 y14 y15
        split
        · rename_i y16
          refine Keeps.trans ?_ (State.padFrames_keeps _ _ _ _)
          exact Keeps.refl _
        · rename_i y17
          exact Keeps.refl _

theorem execStreamClose_keeps (p) (s) : OutAll (Keeps s) (execStreamClose p s) := by
  unfold execStreamClose
  refine OutAll.intro ?_
  refine Keeps.trans ?_ (State.forOp_keeps _ _ _ _ ?_)
  · exact Keeps.refl _
  · split
    · rename_i y0 y1 y2
      split
      · rename_i y3 y4 y5
        split
        · rename_i y6
          refine Keeps.trans ?_ (State.tryClose_keeps _ _)
          refine Keeps.trans ?_ (State.begin_keeps _ _ _)
          exact Keeps.refl _
        · rename_i y7
          refine Keeps.trans ?_ (State.finish_keeps _ _ _)
          exact Keeps.refl _
      · rename_i y8 y9
        refine Keeps.trans ?_ (State.finish_keeps _ _ _)
        exact Keeps.refl _
    · rename_i y10 y11
      split
      · rename_i y12 y13 y14
        refine Keeps.trans ?_ (State.tryClose_keeps _ _)
        exact Keeps.refl _
      · rename_i y15 y16
        exact Keeps.refl _

theorem State.endFeed_keeps (s) (k) (c) (e) : Keeps s (State.endFeed s k c e) := by
  unfold State.endFeed
  refine Keeps.trans ?_ (State.tryClose_keeps _ _)
  refine Keeps.trans ?_ (State.finish_keeps _ _ _)
  refine Keeps.trans ?_ (State.updStream_keeps _ _ _)
  exact Keeps.refl _

theorem State.countFrame_keeps (s) (k) (c) (first) (good) (unit) : Keeps s (State.countFrame s k c first good unit) := by
  unfold State.countFrame
  refine Keeps.trans ?_ (State.updCmd_keeps _ _ _ _)
  refine Keeps.trans ?_ (State.updStream_keeps _ _ _)
  exact Keeps.refl _

theorem State.waitSlot_keeps (s) (k) (first) : Keeps s (State.waitSlot s k first) := by
  unfold State.waitSlot
  extract_lets x0
  clear_value x0
  refine Keeps.trans ?_ (State.updStream_keeps _ _ _)
  exact Keeps.refl _

theorem State.decodeFrame.stop_keeps (k) (c) (s) (e) : Keeps s (State.decodeFrame.stop k c s e) := by
  unfold State.decodeFrame.stop
  split
  · rename_i y0 y1 y2 y3 y4
    extract_lets x5
    have k6 : Keeps s x5 := by
      subst x5
      refine Keeps.trans ?_ (State.engineFault_keeps _ _ _ _ _ _ _ _)
      exact Keeps.refl _
    clear_value x5
    split
    · rename_i y7
      exact k6
    · rename_i y8
      refine Keeps.trans ?_ (State.tryClose_keeps _ _)
      refine Keeps.trans ?_ (State.updStream_keeps _ _ _)
      exact k6
  · rename_i y9 y10 y11 y12
    refine Keeps.trans ?_ (State.tryClose_keeps _ _)
    refine Keeps.trans ?_ (State.updStream_keeps _ _ _)
    refine Keeps.trans ?_ (State.mediaFault_keeps _ _ _ _ _ _ _)
    exact Keeps.refl _
  · rename_i y13 y14
    refine Keeps.trans ?_ (State.waitHost_keeps _ _ _)
    exact Keeps.refl _

theorem State.decodeFrame_keeps (s) (k) (x) (f) (c) : Keeps s (State.decodeFrame s k x f c) := by
  unfold State.decodeFrame
  extract_lets x0 x1 x2 x3 x4 x5 x6
  clear_value x0
  clear_value x1
  clear_value x2
  clear_value x3
  clear_value x4
  clear_value x5
  clear_value x6
  split
  · rename_i y7 y8 y9 y10
    have k11 := ExAll.of_error (State.touchUnit_keeps _ _ _) y10
    refine Keeps.trans ?_ (State.decodeFrame.stop_keeps _ _ _ _)
    refine Keeps.trans ?_ k11
    exact Keeps.refl _
  · rename_i y12 y13 y14
    have k15 := ExAll.of (State.touchUnit_keeps _ _ _) y14
    extract_lets x16
    clear_value x16
    split
    · rename_i y17 y18 y19 y20
      extract_lets x21
      clear_value x21
      split
      · rename_i y22 y23
        refine Keeps.trans ?_ (State.endFeed_keeps _ _ _ _)
        exact k15
      · rename_i y24 y25 y26
        extract_lets x27
        clear_value x27
        split
        · rename_i y28
          refine Keeps.trans ?_ (State.countFrame_keeps _ _ _ _ _ _)
          exact k15
        · rename_i y29
          split
          · rename_i y30
            refine Keeps.trans ?_ (State.waitSlot_keeps _ _ _)
            exact k15
          · rename_i y31
            split
            · rename_i y32 y33 y34 y35 y36 y37
              split
              · rename_i y38 y39 y40 y41
                split
                · rename_i y42 y43 y44 y45
                  have k46 := ExAll.of_error (State.touchUnit_keeps _ _ _) y45
                  refine Keeps.trans ?_ (State.decodeFrame.stop_keeps _ _ _ _)
                  refine Keeps.trans ?_ k46
                  exact k15
                · rename_i y47 y48 y49
                  have k50 := ExAll.of (State.touchUnit_keeps _ _ _) y49
                  split
                  · rename_i y51 y52 y53 y54
                    refine Keeps.trans ?_ (State.countFrame_keeps _ _ _ _ _ _)
                    refine Keeps.trans ?_ (State.putFrame_keeps _ _ _ _ _ _ _ _ _ _)
                    refine Keeps.trans ?_ k50
                    exact k15
                  · rename_i y55 y56
                    refine Keeps.trans ?_ (State.countFrame_keeps _ _ _ _ _ _)
                    refine Keeps.trans ?_ (State.putFrame_keeps _ _ _ _ _ _ _ _ _ _)
                    refine Keeps.trans ?_ k50
                    exact k15
            · rename_i y57 y58 y59
              refine Keeps.trans ?_ (State.endFeed_keeps _ _ _ _)
              exact k15

theorem execStreamFeed_keeps (p) (s) : OutAll (Keeps s) (execStreamFeed p s) := by
  unfold execStreamFeed
  refine OutAll.intro ?_
  refine Keeps.trans ?_ (State.forOp_keeps _ _ _ _ ?_)
  · exact Keeps.refl _
  · split
    · rename_i y0 y1
      exact Keeps.refl _
    · rename_i y2 y3 y4
      split
      · rename_i y5 y6 y7
        split
        · rename_i y8
          refine Keeps.trans ?_ (State.begin_keeps _ _ _)
          exact Keeps.refl _
        · rename_i y9
          refine Keeps.trans ?_ (State.finish_keeps _ _ _)
          exact Keeps.refl _
      · rename_i y10 y11
        refine Keeps.trans ?_ (State.finish_keeps _ _ _)
        exact Keeps.refl _

theorem execEaselFrameDecoded_keeps (stream) (s) : OutAll (Keeps s) (execEaselFrameDecoded stream s) := by
  unfold execEaselFrameDecoded
  refine OutAll.intro ?_
  split
  · rename_i y0 y1
    exact Keeps.refl _
  · rename_i y2 y3 y4
    split
    · rename_i y5 y6 y7 y8
      refine Keeps.trans ?_ (State.decodeFrame_keeps _ _ _ _ _)
      exact Keeps.refl _
    · rename_i y9 y10
      exact Keeps.refl _

theorem execEaselBatchStart_keeps (stream) (s) : OutAll (Keeps s) (execEaselBatchStart stream s) := by
  unfold execEaselBatchStart
  refine OutAll.intro ?_
  split
  · rename_i y0 y1
    exact Keeps.refl _
  · rename_i y2 y3 y4
    extract_lets x5
    clear_value x5
    split
    · rename_i y6
      refine Keeps.trans ?_ (State.updStream_keeps _ _ _)
      exact Keeps.refl _
    · rename_i y7
      exact Keeps.refl _

theorem execFeedTimeout_keeps (stream) (s) : OutAll (Keeps s) (execFeedTimeout stream s) := by
  unfold execFeedTimeout
  refine OutAll.intro ?_
  split
  · rename_i y0 y1
    exact Keeps.refl _
  · rename_i y2 y3 y4
    split
    · rename_i y5 y6
      exact Keeps.refl _
    · rename_i y7 y8 y9 y10
      split
      · rename_i y11 y12 y13 y14 y15 y16
        split
        · rename_i y17
          exact Keeps.refl _
        · rename_i y18
          refine Keeps.trans ?_ (State.endFeed_keeps _ _ _ _)
          exact Keeps.refl _
      · rename_i y19 y20 y21
        exact Keeps.refl _

theorem State.fillMissing_keeps (s) (k) (b) (x) (out) (md) : Keeps s (State.fillMissing s k b x out md) := by
  unfold State.fillMissing
  extract_lets x0
  clear_value x0
  refine Keeps.foldl _ ?_ ?_
  · exact Keeps.refl _
  · intro a1 a2
    split
    · rename_i y3 y4 y5
      refine Keeps.trans ?_ (State.putFrame_keeps _ _ _ _ _ _ _ _ _ _)
      exact Keeps.refl _
    · rename_i y6 y7
      exact Keeps.refl _

theorem execBatchMissingTimeout_keeps (stream) (s) : OutAll (Keeps s) (execBatchMissingTimeout stream s) := by
  unfold execBatchMissingTimeout
  refine OutAll.intro ?_
  split
  · rename_i y0 y1
    exact Keeps.refl _
  · rename_i y2 y3 y4
    extract_lets x5
    clear_value x5
    split
    · rename_i y6 y7 y8 y9 y10 y11 y12 y13
      extract_lets x14 x15 x16
      clear_value x14
      clear_value x15
      clear_value x16
      split
      · rename_i y17
        exact Keeps.refl _
      · rename_i y18
        split
        · rename_i y19 y20 y21
          exact Keeps.refl _
        · rename_i y23 y24 y25
          have k26 := ExAll.of (State.touchAll_keeps _ _ _ _ _) y25
          refine Keeps.trans ?_ (State.fillMissing_keeps _ _ _ _ _ _)
          exact k26
    · rename_i y27 y28 y29 y30 y31
      exact Keeps.refl _

theorem State.releaseBatch_keeps (s) (k) : Keeps s (State.releaseBatch s k) := by
  unfold State.releaseBatch
  split
  · rename_i y0 y1
    exact Keeps.refl _
  · rename_i y2 y3 y4
    extract_lets x5 x6 x7
    clear_value x5
    clear_value x6
    clear_value x7
    split
    · rename_i y8 y9
      exact Keeps.refl _
    · rename_i y10 y11 y12
      extract_lets x13
      have k14 : Keeps s x13 := by
        subst x13
        refine Keeps.foldl _ ?_ ?_
        · exact Keeps.refl _
        · intro a15 a16
          refine Keeps.trans ?_ (State.vwrite_keeps _ _ _ _ _)
          exact Keeps.refl _
      clear_value x13
      split
      · rename_i y17 y18 y19
        have k23 := ExAll.of (State.inkSignal_keeps _ _ _ _ _) y19
        refine Keeps.trans ?_ (State.updStream_keeps _ _ _)
        refine Keeps.trans ?_ k23
        exact k14
      · rename_i y24 y25 y26 y27
        have k32 := ExAll.of_error (State.inkSignal_keeps _ _ _ _ _) y27
        refine Keeps.trans ?_ (State.updStream_keeps _ _ _)
        refine Keeps.trans ?_ k32
        exact k14

theorem State.releaseBatches_keeps (s) : Keeps s (State.releaseBatches s) := by
  unfold State.releaseBatches
  extract_lets x0 x1
  clear_value x0
  have k2 : Keeps s (x1) := by
    subst x1
    refine Keeps.foldl _ ?_ ?_
    · exact Keeps.refl _
    · intro a3 a4
      refine Keeps.foldl _ ?_ ?_
      · exact Keeps.refl _
      · intro a5 a6
        refine Keeps.trans ?_ (State.releaseBatch_keeps _ _)
        exact Keeps.refl _
  clear_value x1
  refine Keeps.set_streams ?_
  exact k2

theorem State.flashWrite_keeps (s) (o) (bs) : Keeps s (State.flashWrite s o bs) := by
  unfold State.flashWrite
  extract_lets x0
  clear_value x0
  refine Keeps.set_boot ?_
  exact Keeps.refl _

theorem State.flashErase_keeps (s) (o) (n) : Keeps s (State.flashErase s o n) := by
  unfold State.flashErase
  extract_lets x0
  clear_value x0
  refine Keeps.set_boot ?_
  exact Keeps.refl _

theorem State.logBank_keeps (s) (b) : Keeps s (State.logBank s b) := by
  unfold State.logBank
  split
  · rename_i y0 y1 y2
    refine Keeps.trans ?_ (State.logEvent_keeps _ _ _ _ _ _ _)
    exact Keeps.refl _
  · rename_i y3 y4 y5
    exact Keeps.refl _

theorem State.selectStore_keeps (s) : Keeps s (State.selectStore s) := by
  unfold State.selectStore
  extract_lets x0 x1 x2
  have k3 : Keeps s (x0) := by
    subst x0
    refine Keeps.trans ?_ (State.logBank_keeps _ _)
    refine Keeps.trans ?_ (State.logBank_keeps _ _)
    exact Keeps.refl _
  clear_value x0
  clear_value x1
  have k4 : ∀ z0 z1 z2, Keeps s (x2 z0 z1 z2) := by
    subst x2
    intro a5 a6 a7
    beta_reduce
    refine Keeps.set_boot ?_
    exact k3
  clear_value x2
  split
  · rename_i y8 y9 y10 y11 y12 y13
    split
    · rename_i y14
      refine Keeps.trans ?_ (k4 _ _ _)
      exact Keeps.refl _
    · rename_i y15
      refine Keeps.trans ?_ (k4 _ _ _)
      exact Keeps.refl _
  · rename_i y16 y17 y18 y19 y20 y21
    refine Keeps.trans ?_ (k4 _ _ _)
    exact Keeps.refl _
  · rename_i y22 y23 y24 y25 y26 y27
    refine Keeps.trans ?_ (k4 _ _ _)
    exact Keeps.refl _
  · rename_i y28 y29 y30 y31 y32 y33
    refine Keeps.trans ?_ (k4 _ _ _)
    exact Keeps.refl _

theorem State.commitStore_keeps (s) (k) (v) : OptAll (fun r => Keeps s (r)) (State.commitStore s k v) := by
  unfold State.commitStore
  extract_lets x0 x1 x2 x3
  clear_value x0
  clear_value x1
  clear_value x2
  clear_value x3
  split
  · rename_i y4 y5
    trivial
  · rename_i y6 y7 y8
    extract_lets x9 x10
    have k11 : Keeps s (x9) := by
      subst x9
      refine Keeps.trans ?_ (State.flashWrite_keeps _ _ _)
      exact Keeps.refl _
    clear_value x9
    clear_value x10
    split
    · rename_i y12 y13 y14 y15
      refine OptAll.intro ?_
      refine Keeps.set_boot ?_
      exact k11
    · rename_i y16 y17 y18
      trivial

theorem State.ownStore_keeps (s) (k) (v) : Keeps s (State.ownStore s k v) := by
  unfold State.ownStore
  refine OptAll.getD (P := Keeps _) ?_ ?_
  · refine OptAll.mono (fun _ h => ?_) (State.commitStore_keeps _ _ _)
    refine Keeps.trans ?_ h
    refine Keeps.trans ?_ (State.flashErase_keeps _ _ _)
    exact Keeps.refl _
  · exact Keeps.refl _

theorem State.flashBusy_keeps (s) : Keeps s ((State.flashBusy s).1) := by
  unfold State.flashBusy
  split
  · rename_i y0 y1 y2 y3
    have k4 : Keeps _ y2 := Keeps.of_snd (State.draw_keeps _ _) y3
    refine Keeps.fst ?_
    exact k4

theorem State.flashBegin_keeps (s) (c) : Keeps s (State.flashBegin s c) := by
  unfold State.flashBegin
  extract_lets x0
  clear_value x0
  refine Keeps.trans ?_ (State.begin_keeps _ _ _)
  refine Keeps.set_boot ?_
  exact Keeps.refl _

theorem State.flashEnd_keeps (s) : Keeps s (State.flashEnd s) := by
  unfold State.flashEnd
  extract_lets x0
  clear_value x0
  refine Keeps.set_boot ?_
  exact Keeps.refl _

theorem State.flashTwice_keeps (s) (c) (erase) (prog) (hk0 : ∀ z0, Keeps z0 (erase z0)) (hk1 : ∀ z0, Keeps z0 ((prog z0).1)) : Keeps s ((State.flashTwice s c erase prog).1) := by
  unfold State.flashTwice
  split
  · rename_i y0
    split
    · rename_i y1 y2 y3 y4
      have k5 : Keeps _ y2 := Keeps.of_fst (hk1 _) y4
      refine Keeps.fst ?_
      refine Keeps.trans ?_ (State.flashEnd_keeps _)
      exact k5
  · rename_i y6
    split
    · rename_i y7
      split
      · rename_i y8 y9 y10 y11
        have k12 : Keeps _ y9 := Keeps.of_fst (State.flashBusy_keeps _) y11
        refine Keeps.fst ?_
        exact k12
    · rename_i y13
      refine Keeps.fst ?_
      refine Keeps.trans ?_ (State.flashBegin_keeps _ _)
      refine Keeps.trans ?_ (hk0 _)
      exact Keeps.refl _

theorem execConfigRead_keeps (p) (s) : OutAll (Keeps s) (execConfigRead p s) := by
  unfold execConfigRead
  refine OutAll.intro ?_
  refine Keeps.trans ?_ (State.forOp_keeps _ _ _ _ ?_)
  · exact Keeps.refl _
  · refine Keeps.trans ?_ (State.runMgmt_keeps _ _ _ _ _ _ _ ?_)
    · exact Keeps.refl _
    · intro a0 a1 a2
      extract_lets x3
      clear_value x3
      refine ExAll.intro ?_
      refine Keeps.fst ?_
      refine Keeps.trans ?_ (State.mgmtWrite_keeps _ _ _ _)
      exact Keeps.refl _

theorem execConfigWrite_keeps (p) (s) : OutAll (Keeps s) (execConfigWrite p s) := by
  unfold execConfigWrite
  refine OutAll.intro ?_
  refine Keeps.trans ?_ (State.forOp_keeps _ _ _ _ ?_)
  · exact Keeps.refl _
  · refine Keeps.trans ?_ (State.runMgmt_keeps _ _ _ _ _ _ _ ?_)
    · exact Keeps.refl _
    · intro a0 a1 a2
      split
      · rename_i y3
        refine ExAll.intro_error ?_
        trivial
      · rename_i y4
        refine ExAll.intro ?_
        refine Keeps.trans ?_ (State.flashTwice_keeps _ _ _ _ ?_ ?_)
        · exact Keeps.refl _
        · intro a5
          refine Keeps.trans ?_ (State.flashErase_keeps _ _ _)
          exact Keeps.refl _
        · intro a6
          split
          · rename_i y7 y8 y9
            have k10 := OptAll.of (State.commitStore_keeps _ _ _) y9
            refine Keeps.fst ?_
            exact k10
          · rename_i y11 y12
            refine Keeps.fst ?_
            exact Keeps.refl _

theorem execFwStage_keeps (p) (s) : OutAll (Keeps s) (execFwStage p s) := by
  unfold execFwStage
  refine OutAll.intro ?_
  refine Keeps.trans ?_ (State.forOp_keeps _ _ _ _ ?_)
  · exact Keeps.refl _
  · refine Keeps.trans ?_ (State.runMgmt_keeps _ _ _ _ _ _ _ ?_)
    · exact Keeps.refl _
    · intro a0 a1 a2
      extract_lets x3 x4
      clear_value x3
      clear_value x4
      refine ExAll.bind_any (fun _ => trivial) ?_
      intro a5
      extract_lets x6
      clear_value x6
      refine ExAll.bind_any (fun _ => trivial) ?_
      intro a7
      extract_lets x8
      clear_value x8
      refine ExAll.bind_any (fun _ => trivial) ?_
      intro a9
      refine ExAll.bind_any (fun _ => trivial) ?_
      intro a10
      refine ExAll.bind_any (fun _ => trivial) ?_
      intro a11
      refine ExAll.of_pure ?_
      refine Keeps.trans ?_ (State.flashTwice_keeps _ _ _ _ ?_ ?_)
      · exact Keeps.refl _
      · intro a12
        refine Keeps.trans ?_ (State.flashErase_keeps _ _ _)
        refine Keeps.trans ?_ (State.flashErase_keeps _ _ _)
        exact Keeps.refl _
      · intro a13
        extract_lets x14 x15
        have k16 : Keeps a13 (x14) := by
          subst x14
          refine Keeps.trans ?_ (State.flashWrite_keeps _ _ _)
          exact Keeps.refl _
        clear_value x14
        clear_value x15
        split
        · rename_i y17
          refine Keeps.fst ?_
          exact k16
        · rename_i y18
          refine Keeps.fst ?_
          refine Keeps.trans ?_ (State.flashWrite_keeps _ _ _)
          exact k16

theorem execFwActivate_keeps (p) (s) : OutAll (Keeps s) (execFwActivate p s) := by
  unfold execFwActivate
  refine OutAll.intro ?_
  refine Keeps.trans ?_ (State.forOp_keeps _ _ _ _ ?_)
  · exact Keeps.refl _
  · refine Keeps.trans ?_ (State.runMgmt_keeps _ _ _ _ _ _ _ ?_)
    · exact Keeps.refl _
    · intro a0 a1 a2
      refine ExAll.intro ?_
      refine Keeps.trans ?_ (State.flashTwice_keeps _ _ _ _ ?_ ?_)
      · exact Keeps.refl _
      · intro a3
        refine Keeps.of_id ?_
        exact Keeps.refl _
      · intro a4
        refine Keeps.fst ?_
        refine Keeps.trans ?_ (State.flashWrite_keeps _ _ _)
        exact Keeps.refl _

theorem State.selectFw_keeps (s) (b1) (b2) : Keeps s (State.selectFw s b1 b2) := by
  induction b1 generalizing s b2 with
  | zero =>
    rw [State.selectFw]
    extract_lets x0
    clear_value x0
    refine Keeps.set_boot ?_
    exact Keeps.refl _
  | succ n ih =>
    rw [State.selectFw]
    extract_lets x1
    clear_value x1
    split
    · rename_i y2 y3
      refine Keeps.set_boot ?_
      exact Keeps.refl _
    · rename_i y4 y5 y6
      extract_lets x7
      clear_value x7
      split
      · rename_i y8 y9 y10 y11
        refine Keeps.set_boot ?_
        exact Keeps.refl _
      · rename_i y12 y13 y14
        refine Keeps.trans ?_ (ih ..)
        refine Keeps.trans ?_ (State.logEvent_keeps _ _ _ _ _ _ _)
        exact Keeps.refl _

theorem execAttest_keeps (p) (s) : OutAll (Keeps s) (execAttest p s) := by
  unfold execAttest
  refine OutAll.intro ?_
  refine Keeps.trans ?_ (State.forOp_keeps _ _ _ _ ?_)
  · exact Keeps.refl _
  · refine Keeps.trans ?_ (State.runMgmt_keeps _ _ _ _ _ _ _ ?_)
    · exact Keeps.refl _
    · intro a0 a1 a2
      extract_lets x3
      clear_value x3
      split
      · rename_i y4 y5
        refine ExAll.intro_error ?_
        trivial
      · rename_i y6 y7 y8
        extract_lets x9
        clear_value x9
        refine ExAll.intro ?_
        refine Keeps.fst ?_
        refine Keeps.trans ?_ (State.mgmtWrite_keeps _ _ _ _)
        exact Keeps.refl _

theorem State.installKey_keeps (s) (k) (send) (recv) : Keeps s ((State.installKey s k send recv).1) := by
  unfold State.installKey
  extract_lets x0 x1 x2
  clear_value x0
  clear_value x1
  have k3 : Keeps s (x2) := by
    subst x2
    refine Keeps.set_stylus ?_
    exact Keeps.refl _
  clear_value x2
  refine Keeps.fst ?_
  refine Keeps.trans ?_ (State.updQp_keeps _ _ _)
  exact k3

theorem State.exchange_keeps (s) (c) (secret) : ExAll (fun _ => True) (fun r => Keeps s (r).1) (State.exchange s c secret) := by
  unfold State.exchange
  extract_lets x0 x1 x2 x3 x4 x5 x6 x7 x8 x9 x10 x11
  clear_value x0
  clear_value x1
  clear_value x2
  clear_value x3
  clear_value x4
  clear_value x5
  clear_value x6
  clear_value x7
  clear_value x8
  clear_value x9
  clear_value x10
  clear_value x11
  split
  · rename_i y12
    split
    · rename_i y13 y14 y15 y16
      have k18 := Keeps.of_snd (State.drawRandom_keeps _) y16
      extract_lets x19 x20
      clear_value x19
      have k21 : Keeps s x20 := by
        subst x20
        refine Keeps.trans ?_ (State.updQp_keeps _ _ _)
        exact k18
      clear_value x20
      refine ExAll.intro ?_
      refine Keeps.fst ?_
      refine Keeps.trans ?_ (State.mgmtWrite_keeps _ _ _ _)
      exact k21
  · rename_i y22
    split
    · rename_i y23
      refine ExAll.intro_error ?_
      trivial
    · rename_i y24
      split
      · rename_i y25
        refine ExAll.intro_error ?_
        trivial
      · rename_i y26
        split
        · rename_i y27
          split
          · rename_i y28 y29 y30 y31
            have k33 := Keeps.of_snd (State.drawRandom_keeps _) y31
            extract_lets x34 x35
            clear_value x34
            clear_value x35
            split
            · rename_i y36 y37 y38 y39
              split
              · rename_i y40 y41 y42 y43
                have k44 := Keeps.of_fst (State.installKey_keeps _ _ _ _) y43
                refine ExAll.intro ?_
                refine Keeps.fst ?_
                refine Keeps.trans ?_ (State.mgmtWrite_keeps _ _ _ _)
                refine Keeps.trans ?_ k44
                exact k33
        · rename_i y45
          split
          · rename_i y46 y47
            refine ExAll.intro_error ?_
            trivial
          · rename_i y48 y49 y50 y51
            split
            · rename_i y52 y53 y54 y55
              split
              · rename_i y56 y57 y58 y59
                have k60 := Keeps.of_fst (State.installKey_keeps _ _ _ _) y59
                refine ExAll.intro ?_
                refine Keeps.fst ?_
                exact k60

theorem execSessionKey_keeps (p) (s) : OutAll (Keeps s) (execSessionKey p s) := by
  unfold execSessionKey
  refine OutAll.intro ?_
  refine Keeps.trans ?_ (State.forOp_keeps _ _ _ _ ?_)
  · exact Keeps.refl _
  · refine Keeps.trans ?_ (State.runMgmt_keeps _ _ _ _ _ _ _ ?_)
    · exact Keeps.refl _
    · intro a0 a1 a2
      split
      · rename_i y3 y4
        refine ExAll.intro_error ?_
        trivial
      · rename_i y5 y6 y7
        refine (State.exchange_keeps _ _ _)

theorem State.setAlign_keeps (s) (a) : Keeps s (State.setAlign s a) := by
  unfold State.setAlign
  extract_lets x0 x1
  clear_value x0
  have k2 : Keeps s (x1) := by
    subst x1
    refine Keeps.set_strk ?_
    exact Keeps.refl _
  clear_value x1
  split
  · rename_i y3
    exact k2
  · rename_i y4
    refine Keeps.trans ?_ (State.logEvent_keeps _ _ _ _ _ _ _)
    exact k2

theorem State.loseAlignment_keeps (s) : Keeps s (State.loseAlignment s) := by
  unfold State.loseAlignment
  extract_lets x0 x1
  have k2 : Keeps s (x0) := by
    subst x0
    refine Keeps.trans ?_ (State.setAlign_keeps _ _)
    exact Keeps.refl _
  clear_value x0
  clear_value x1
  split
  · rename_i y3
    refine Keeps.set_host ?_
    exact k2
  · rename_i y4
    exact Keeps.refl _

theorem execAlignmentAcquired_keeps (s) : OutAll (Keeps s) (execAlignmentAcquired s) := by
  unfold execAlignmentAcquired
  refine OutAll.intro ?_
  split
  · rename_i y0
    refine Keeps.trans ?_ (State.setAlign_keeps _ _)
    exact Keeps.refl _
  · rename_i y1
    exact Keeps.refl _

theorem execAlignmentLost_keeps (s) : OutAll (Keeps s) (execAlignmentLost s) := by
  unfold execAlignmentLost
  refine OutAll.intro ?_
  split
  · rename_i y0
    refine Keeps.trans ?_ (State.loseAlignment_keeps _)
    exact Keeps.refl _
  · rename_i y1
    exact Keeps.refl _

theorem execSyncTimeout_keeps (s) : OutAll (Keeps s) (execSyncTimeout s) := by
  unfold execSyncTimeout
  extract_lets x0
  clear_value x0
  refine OutAll.intro ?_
  split
  · rename_i y1
    exact Keeps.refl _
  · rename_i y2
    refine Keeps.set_strk ?_
    exact Keeps.refl _

theorem State.syncDone_keeps (s) (sent) (arrival) (departure) : Keeps s (State.syncDone s sent arrival departure) := by
  unfold State.syncDone
  extract_lets x0 x1 x2
  clear_value x0
  clear_value x1
  clear_value x2
  refine Keeps.set_strk ?_
  exact Keeps.refl _

theorem State.delayDone_keeps (s) (n) (received) : Keeps s (State.delayDone s n received) := by
  unfold State.delayDone
  split
  · rename_i y0 y1 y2 y3 y4 y5 y6
    split
    · rename_i y7
      refine Keeps.set_strk ?_
      exact Keeps.refl _
    · rename_i y8
      exact Keeps.refl _
  · rename_i y9 y10 y11
    exact Keeps.refl _

theorem execPtpSync_keeps (m) (s) : OutAll (Keeps s) (execPtpSync m s) := by
  unfold execPtpSync
  refine OutAll.intro ?_
  split
  · rename_i y0
    exact Keeps.refl _
  · rename_i y1
    split
    · rename_i y2 y3 y4 y5
      extract_lets x6 x7
      clear_value x6
      have k8 : Keeps s x7 := by
        subst x7
        refine Keeps.set_strk ?_
        exact Keeps.refl _
      clear_value x7
      split
      · rename_i y9 y10
        refine Keeps.trans ?_ (State.syncDone_keeps _ _ _ _)
        exact k8
      · rename_i y11
        exact k8
    · rename_i y12 y13 y14 y15
      split
      · rename_i y16 y17 y18 y19
        split
        · rename_i y20
          refine Keeps.trans ?_ (State.syncDone_keeps _ _ _ _)
          exact Keeps.refl _
        · rename_i y21
          exact Keeps.refl _
      · rename_i y22 y23
        exact Keeps.refl _
    · rename_i y24 y25 y26 y27
      refine Keeps.trans ?_ (State.delayDone_keeps _ _ _)
      exact Keeps.refl _

theorem execStrokeSet_keeps (p) (s) : OutAll (Keeps s) (execStrokeSet p s) := by
  unfold execStrokeSet
  extract_lets x0
  clear_value x0
  refine OutAll.intro ?_
  refine Keeps.trans ?_ (State.forOp_keeps _ _ _ _ ?_)
  · exact Keeps.refl _
  · refine Keeps.trans ?_ (State.runNow_keeps _ _ _ ?_)
    · exact Keeps.refl _
    · intro a1 a2 a3
      extract_lets x4
      clear_value x4
      refine ExAll.bind_any (fun _ => trivial) ?_
      intro a5
      refine ExAll.of_pure ?_
      refine Keeps.fst ?_
      refine Keeps.set_strk ?_
      exact Keeps.refl _

theorem execStrokeQuery_keeps (p) (s) : OutAll (Keeps s) (execStrokeQuery p s) := by
  unfold execStrokeQuery
  refine OutAll.intro ?_
  refine Keeps.trans ?_ (State.forOp_keeps _ _ _ _ ?_)
  · exact Keeps.refl _
  · refine Keeps.trans ?_ (State.runNow_keeps _ _ _ ?_)
    · exact Keeps.refl _
    · intro a0 a1 a2
      refine ExAll.bind_any (fun _ => trivial) ?_
      intro a3
      refine ExAll.of_pure ?_
      refine Keeps.fst ?_
      exact Keeps.refl _

theorem State.applyChange_keeps (s) (x) : Keeps s (State.applyChange s x) := by
  unfold State.applyChange
  extract_lets x0 x1 x2
  clear_value x0
  clear_value x1
  have k3 : Keeps s x2 := by
    subst x2
    refine Keeps.set_strk ?_
    exact Keeps.refl _
  clear_value x2
  refine Keeps.trans ?_ (State.setAlign_keeps _ _)
  exact k3

theorem State.nextBoundary_keeps (s) : Keeps s (State.nextBoundary s) := by
  unfold State.nextBoundary
  extract_lets x0 x1 x2 x3 x4
  clear_value x0
  have k5 : Keeps s (x1) := by
    subst x1
    refine Keeps.set_strk ?_
    exact Keeps.refl _
  clear_value x1
  clear_value x2
  clear_value x3
  have k6 : Keeps s (x4) := by
    subst x4
    refine Keeps.set_strk ?_
    exact k5
  clear_value x4
  refine Keeps.foldl _ ?_ ?_
  · exact k6
  · intro a7 a8
    refine Keeps.trans ?_ (State.applyChange_keeps _ _)
    exact Keeps.refl _

theorem State.evaluateOffset_keeps (s) (x) : Keeps s (State.evaluateOffset s x) := by
  unfold State.evaluateOffset
  extract_lets x0 x1 x2 x3
  clear_value x0
  clear_value x1
  clear_value x2
  clear_value x3
  split
  · rename_i y4
    refine Keeps.set_strk ?_
    exact Keeps.refl _
  · rename_i y5
    refine Keeps.set_strk ?_
    exact Keeps.refl _

end Sys2Proof.Machine
end

