-- ==== Sys2Proof/Laws/KeepsPower.lean ====
section
/-! SUPPORT. What power, telemetry and the service bus keep: one lemma for each operation that answers a state. -/

namespace Sys2Proof.Machine

open Sys2Proof

theorem State.sensorEntry_keeps (s) (sensor) (raw) (event) : Keeps s (State.sensorEntry s sensor raw event) := by
  unfold State.sensorEntry
  refine Keeps.trans ?_ (State.logEvent_keeps _ _ _ _ _ _ _)
  exact Keeps.refl _

theorem State.openReading_keeps (s) (sensor) (event) : Keeps s (State.openReading s sensor event) := by
  unfold State.openReading
  split
  · rename_i y0 y1 y2 y3
    have k4 : Keeps _ y2 := Keeps.of_snd (State.draw_keeps _ _) y3
    refine Keeps.trans ?_ (State.sensorEntry_keeps _ _ _ _)
    exact k4

theorem State.clearCore_keeps (s) : Keeps s (State.clearCore s) := by
  unfold State.clearCore
  extract_lets m
  refine Keeps.of_parts rfl rfl (State.platesOk_map rfl rfl) (fun _ => Bounded.nil _) (fun _ => Bounded.nil _) fun h => ?_
  exact Memory.wf_of_filter (m := s.mem) _ rfl (fun _ _ _ => rfl) h

theorem State.holdCore_keeps (s) : Keeps s (State.holdCore s) := by
  unfold State.holdCore
  extract_lets x0 x1 x2 x3 x4
  have k5 : Keeps s (x0) := by
    subst x0
    refine Keeps.trans ?_ (State.clearCore_keeps _)
    exact Keeps.refl _
  clear_value x0
  clear_value x1
  clear_value x2
  clear_value x3
  clear_value x4
  refine Keeps.set_host_fabric_boot_power ?_
  exact k5

theorem State.watchHeat_keeps (s) : Keeps s (State.watchHeat s) := by
  unfold State.watchHeat
  extract_lets x0 x1 x2 x3 x4 x5
  clear_value x0
  clear_value x1
  clear_value x2
  clear_value x3
  clear_value x4
  have k6 : Keeps s (x5) := by
    subst x5
    refine Keeps.set_power ?_
    exact Keeps.refl _
  clear_value x5
  refine Keeps.foldl _ ?_ ?_
  · exact k6
  · intro a7 a8
    refine Keeps.trans ?_ (State.sensorEntry_keeps _ _ _ _)
    exact Keeps.refl _

theorem State.takeTemps_keeps (s) (ts) : Keeps s (State.takeTemps s ts) := by
  unfold State.takeTemps
  refine Keeps.foldl _ ?_ ?_
  · exact Keeps.refl _
  · intro a0 a1
    extract_lets x2 x3 x4
    clear_value x2
    clear_value x3
    clear_value x4
    refine Keeps.set_power ?_
    exact Keeps.refl _

theorem execSensorFailed_keeps (sensor) (s) : OutAll (Keeps s) (execSensorFailed sensor s) := by
  unfold execSensorFailed
  extract_lets x0
  clear_value x0
  refine OutAll.intro ?_
  split
  · rename_i y1 y2 y3
    split
    · rename_i y4
      exact Keeps.refl _
    · rename_i y5
      refine Keeps.trans ?_ (State.sensorEntry_keeps _ _ _ _)
      refine Keeps.set_power ?_
      exact Keeps.refl _
  · rename_i y6 y7
    exact Keeps.refl _

theorem execSensorRecovered_keeps (sensor) (s) : OutAll (Keeps s) (execSensorRecovered sensor s) := by
  unfold execSensorRecovered
  extract_lets x0
  clear_value x0
  refine OutAll.intro ?_
  split
  · rename_i y1 y2 y3
    split
    · rename_i y4
      exact Keeps.refl _
    · rename_i y5
      refine Keeps.trans ?_ (State.sensorEntry_keeps _ _ _ _)
      refine Keeps.set_power ?_
      exact Keeps.refl _
  · rename_i y6 y7
    exact Keeps.refl _

theorem execThermalTrip_keeps (s) : OutAll (Keeps s) (execThermalTrip s) := by
  unfold execThermalTrip
  extract_lets x0 x1
  have k2 : Keeps s (x0) := by
    subst x0
    refine Keeps.trans ?_ (State.holdCore_keeps _)
    exact Keeps.refl _
  clear_value x0
  clear_value x1
  refine OutAll.intro ?_
  split
  · rename_i y3 y4
    exact Keeps.refl _
  · rename_i y5 y6 y7
    extract_lets x8
    clear_value x8
    split
    · rename_i y9
      exact Keeps.refl _
    · rename_i y10
      refine Keeps.trans ?_ (State.sensorEntry_keeps _ _ _ _)
      refine Keeps.set_power ?_
      exact k2

theorem State.takePower_keeps (s) (w) : Keeps s (State.takePower s w) := by
  unfold State.takePower
  extract_lets x0 x1 x2 x3
  clear_value x0
  clear_value x1
  clear_value x2
  clear_value x3
  refine Keeps.set_power ?_
  exact Keeps.refl _

theorem execSensorSample_keeps (x) (s) : OutAll (Keeps s) (execSensorSample x s) := by
  unfold execSensorSample
  extract_lets x0 x1 x2 x3
  clear_value x0
  have k4 : Keeps s (x1) := by
    subst x1
    refine Keeps.trans ?_ (State.takeTemps_keeps _ _)
    exact Keeps.refl _
  clear_value x1
  clear_value x2
  have k5 : Keeps s (x3) := by
    subst x3
    refine Keeps.set_power ?_
    exact k4
  clear_value x3
  refine OutAll.intro ?_
  refine Keeps.trans ?_ (State.watchHeat_keeps _)
  refine Keeps.trans ?_ (State.takePower_keeps _ _)
  exact k5

theorem execBrdThrotAssert_keeps (s) : OutAll (Keeps s) (execBrdThrotAssert s) := by
  unfold execBrdThrotAssert
  extract_lets x0
  clear_value x0
  refine OutAll.intro ?_
  refine Keeps.set_power ?_
  exact Keeps.refl _

theorem execBrdThrotRelease_keeps (s) : OutAll (Keeps s) (execBrdThrotRelease s) := by
  unfold execBrdThrotRelease
  extract_lets x0
  clear_value x0
  refine OutAll.intro ?_
  split
  · rename_i y1
    refine Keeps.set_power ?_
    exact Keeps.refl _
  · rename_i y2
    exact Keeps.refl _

theorem State.avsWant_keeps (s) (tile) (duty) : Keeps s ((State.avsWant s tile duty).2) := by
  unfold State.avsWant
  refine Keeps.snd ?_
  refine Keeps.set_free ?_
  exact Keeps.refl _

theorem execAvsStep_keeps (tile) (s) : OutAll (Keeps s) (execAvsStep tile s) := by
  unfold execAvsStep
  refine OutAll.intro ?_
  split
  · rename_i y0
    split
    · rename_i y1 y2 y3 y4
      have k5 : Keeps _ y3 := Keeps.of_snd (State.avsWant_keeps _ _ _) y4
      extract_lets x6 x7 x8 x9
      clear_value x6
      clear_value x7
      clear_value x8
      clear_value x9
      refine Keeps.set_power ?_
      exact k5
  · rename_i y10
    exact Keeps.refl _

theorem execAvsTimeout_keeps (tile) (s) : OutAll (Keeps s) (execAvsTimeout tile s) := by
  unfold execAvsTimeout
  extract_lets x0
  clear_value x0
  refine OutAll.intro ?_
  split
  · rename_i y1
    refine Keeps.trans ?_ (State.openReading_keeps _ _ _)
    refine Keeps.set_power ?_
    exact Keeps.refl _
  · rename_i y2
    exact Keeps.refl _

theorem State.avsWants_keeps (s) (duty) : Keeps s ((State.avsWants s duty).2) := by
  unfold State.avsWants
  refine Keeps.foldl_snd _ ?_ ?_
  · refine Keeps.snd ?_
    exact Keeps.refl _
  · intro a0 a1
    split
    · rename_i y2
      split
      · rename_i y3 y4 y5 y6
        have k7 : Keeps _ y5 := Keeps.of_snd (State.avsWant_keeps _ _ _) y6
        refine Keeps.snd ?_
        exact k7
    · rename_i y8
      exact Keeps.refl _

theorem State.stepAvsCap_keeps (s) : Keeps s (State.stepAvsCap s) := by
  unfold State.stepAvsCap
  split
  · rename_i y0 y1 y2 y3
    have k4 : Keeps _ y2 := Keeps.of_snd (State.avsWants_keeps _ _) y3
    extract_lets x5 x6 x7 x8
    clear_value x5
    clear_value x6
    clear_value x7
    clear_value x8
    refine Keeps.set_power ?_
    exact k4

theorem execProfileSet_keeps (p) (s) : OutAll (Keeps s) (execProfileSet p s) := by
  unfold execProfileSet
  refine OutAll.intro ?_
  refine Keeps.trans ?_ (State.forOp_keeps _ _ _ _ ?_)
  · exact Keeps.refl _
  · refine Keeps.trans ?_ (State.runProof_keeps _ _ _ _ ?_)
    · exact Keeps.refl _
    · intro a0 a1 a2
      extract_lets x3
      clear_value x3
      refine ExAll.bind_any (fun _ => trivial) ?_
      intro a4
      refine ExAll.of_pure ?_
      refine Keeps.fst ?_
      refine Keeps.set_power ?_
      exact Keeps.refl _

theorem State.setProfile_keeps (s) (p) : Keeps s (State.setProfile s p) := by
  unfold State.setProfile
  extract_lets x0
  clear_value x0
  refine Keeps.set_power ?_
  exact Keeps.refl _

theorem State.applyProfiles_keeps (s) : Keeps s (State.applyProfiles s) := by
  unfold State.applyProfiles
  extract_lets x0 x1 x2
  clear_value x0
  clear_value x1
  have k3 : Keeps s (x2) := by
    subst x2
    refine Keeps.set_power ?_
    exact Keeps.refl _
  clear_value x2
  refine Keeps.foldl _ ?_ ?_
  · exact k3
  · intro a4 a5
    refine Keeps.trans ?_ (State.setProfile_keeps _ _)
    exact Keeps.refl _

theorem State.stepControl_keeps (s) : Keeps s (State.stepControl s) := by
  unfold State.stepControl
  extract_lets x0 x1 x2 x3 x4
  clear_value x0
  clear_value x1
  clear_value x2
  clear_value x3
  clear_value x4
  split
  · rename_i y5 y6 y7 y8
    refine Keeps.set_power ?_
    exact Keeps.refl _

theorem State.stepThermal_keeps (s) : Keeps s (State.stepThermal s) := by
  unfold State.stepThermal
  extract_lets x0 x1
  clear_value x0
  clear_value x1
  refine Keeps.set_power ?_
  exact Keeps.refl _

theorem State.latchDuty_keeps (s) : Keeps s (State.latchDuty s) := by
  unfold State.latchDuty
  extract_lets x0
  clear_value x0
  split
  · rename_i y1 y2 y3 y4
    have k5 : Keeps _ y3 := Keeps.of_snd (State.avsWants_keeps _ _) y4
    extract_lets x6 x7 x8 x9 x10 x11
    clear_value x6
    clear_value x7
    clear_value x8
    clear_value x9
    clear_value x10
    have k12 : Keeps s (x11) := by
      subst x11
      refine Keeps.set_strk_power ?_
      exact k5
    clear_value x11
    split
    · rename_i y13
      exact k12
    · rename_i y14
      refine Keeps.trans ?_ (State.logEvent_keeps _ _ _ _ _ _ _)
      exact k12

theorem State.boundaryDuty_keeps (s) : Keeps s (State.boundaryDuty s) := by
  unfold State.boundaryDuty
  extract_lets x0 x1 x2 x3 x4
  clear_value x0
  clear_value x1
  have k5 : Keeps s (x2) := by
    subst x2
    refine Keeps.set_power ?_
    exact Keeps.refl _
  clear_value x2
  have k6 : Keeps s (x3) := by
    subst x3
    refine Keeps.trans ?_ (State.latchDuty_keeps _)
    refine Keeps.trans ?_ (State.stepAvsCap_keeps _)
    refine Keeps.trans ?_ (State.stepThermal_keeps _)
    refine Keeps.trans ?_ (State.stepControl_keeps _)
    refine Keeps.trans ?_ (State.applyProfiles_keeps _)
    exact k5
  clear_value x3
  clear_value x4
  refine Keeps.set_power ?_
  exact k6

theorem execRailFault_keeps (rail) (s) : OutAll (Keeps s) (execRailFault rail s) := by
  unfold execRailFault
  extract_lets x0 x1 x2
  have k3 : Keeps s (x0) := by
    subst x0
    refine Keeps.trans ?_ (State.openReading_keeps _ _ _)
    refine Keeps.trans ?_ (State.holdCore_keeps _)
    exact Keeps.refl _
  clear_value x0
  clear_value x1
  clear_value x2
  refine OutAll.intro ?_
  split
  · rename_i y4
    exact Keeps.refl _
  · rename_i y5
    split
    · rename_i y6
      refine Keeps.trans ?_ (State.openReading_keeps _ _ _)
      exact Keeps.refl _
    · rename_i y7
      split
      · rename_i y8
        split
        · rename_i y9
          exact Keeps.refl _
        · rename_i y10
          refine Keeps.set_boot_power ?_
          exact k3
      · rename_i y11
        split
        · rename_i y12
          exact Keeps.refl _
        · rename_i y13
          refine Keeps.set_boot_power ?_
          exact k3

theorem execRailRelease_keeps (s) : OutAll (Keeps s) (execRailRelease s) := by
  unfold execRailRelease
  extract_lets x0
  clear_value x0
  refine OutAll.intro ?_
  split
  · rename_i y1
    refine Keeps.set_power ?_
    exact Keeps.refl _
  · rename_i y2
    exact Keeps.refl _

theorem execRailRecoveryTimeout_keeps (s) : OutAll (Keeps s) (execRailRecoveryTimeout s) := by
  unfold execRailRecoveryTimeout
  refine OutAll.intro ?_
  split
  · rename_i y0
    split
    · rename_i y1 y2 y3 y4
      have k5 : Keeps _ y3 := Keeps.of_snd (State.draw_keeps _ _) y4
      extract_lets x6 x7
      have k8 : Keeps s (x6) := by
        subst x6
        refine Keeps.trans ?_ (State.openReading_keeps _ _ _)
        exact k5
      clear_value x6
      clear_value x7
      refine Keeps.set_power ?_
      exact k8
  · rename_i y9
    exact Keeps.refl _

theorem execWakeRailTimeout_keeps (s) : OutAll (Keeps s) (execWakeRailTimeout s) := by
  unfold execWakeRailTimeout
  refine OutAll.intro ?_
  split
  · rename_i y0
    split
    · rename_i y1 y2 y3 y4
      have k5 : Keeps _ y3 := Keeps.of_snd (State.draw_keeps _ _) y4
      extract_lets x6 x7
      have k8 : Keeps s (x6) := by
        subst x6
        refine Keeps.trans ?_ (State.openReading_keeps _ _ _)
        exact k5
      clear_value x6
      clear_value x7
      refine Keeps.set_power ?_
      exact k8
  · rename_i y9
    exact Keeps.refl _

theorem execFabclkLost_keeps (s) : OutAll (Keeps s) (execFabclkLost s) := by
  unfold execFabclkLost
  extract_lets x0 x1
  have k2 : Keeps s (x0) := by
    subst x0
    refine Keeps.trans ?_ (State.holdCore_keeps _)
    exact Keeps.refl _
  clear_value x0
  clear_value x1
  refine OutAll.intro ?_
  split
  · rename_i y3
    exact Keeps.refl _
  · rename_i y4
    refine Keeps.trans ?_ (State.loseAlignment_keeps _)
    refine Keeps.set_power ?_
    exact k2

theorem execLogRead_keeps (p) (s) : OutAll (Keeps s) (execLogRead p s) := by
  unfold execLogRead
  refine OutAll.intro ?_
  refine Keeps.trans ?_ (State.forOp_keeps _ _ _ _ ?_)
  · exact Keeps.refl _
  · refine Keeps.trans ?_ (State.runMgmt_keeps _ _ _ _ _ _ _ ?_)
    · exact Keeps.refl _
    · intro a0 a1 a2
      refine ExAll.intro ?_
      refine Keeps.fst ?_
      refine Keeps.trans ?_ (State.mgmtWrite_keeps _ _ _ _)
      exact Keeps.refl _

theorem execTelemetryRead_keeps (p) (s) : OutAll (Keeps s) (execTelemetryRead p s) := by
  unfold execTelemetryRead
  refine OutAll.intro ?_
  refine Keeps.trans ?_ (State.forOp_keeps _ _ _ _ ?_)
  · exact Keeps.refl _
  · refine Keeps.trans ?_ (State.runMgmt_keeps _ _ _ _ _ _ _ ?_)
    · exact Keeps.refl _
    · intro a0 a1 a2
      extract_lets x3
      clear_value x3
      refine ExAll.intro ?_
      refine Keeps.fst ?_
      refine Keeps.trans ?_ (State.mgmtWrite_keeps _ _ _ _)
      exact Keeps.refl _

theorem State.answerMbox_keeps (s) (r) (e) (body) : Keeps s (State.answerMbox s r e body) := by
  unfold State.answerMbox
  extract_lets x0 x1 x2 x3 x4
  clear_value x0
  clear_value x1
  have k5 : Keeps s (x2) := by
    subst x2
    refine Keeps.set_mbox ?_
    exact Keeps.refl _
  clear_value x2
  clear_value x3
  have k6 : Keeps s (x4) := by
    subst x4
    refine Keeps.trans ?_ (State.proofLoad_keeps _)
    refine Keeps.set_mbox ?_
    exact k5
  clear_value x4
  split
  · rename_i y7
    refine Keeps.trans ?_ (State.proofLoad_keeps _)
    refine Keeps.set_mbox ?_
    exact k5
  · rename_i y8
    split
    · rename_i y9
      refine Keeps.trans ?_ (State.raise_keeps _ _)
      exact k6
    · rename_i y10
      exact k6

theorem execServiceRestart_keeps (s) : OutAll (Keeps s) (execServiceRestart s) := by
  unfold execServiceRestart
  extract_lets x0 x1 x2 x3 x4 x5
  clear_value x0
  clear_value x1
  clear_value x2
  clear_value x3
  have k6 : Keeps s (x4) := by
    subst x4
    refine Keeps.set_cmds_proof_boot ?_
    exact Keeps.refl _
  clear_value x4
  have k7 : Keeps s (x5) := by
    subst x5
    split
    · rename_i y8 y9 y10
      refine Keeps.trans ?_ (State.answerMbox_keeps _ _ _ _)
      exact k6
    · rename_i y11 y12
      exact k6
  clear_value x5
  refine OutAll.intro ?_
  refine Keeps.trans ?_ (State.logEvent_keeps _ _ _ _ _ _ _)
  exact k7

theorem execRoutemapLoad_keeps (p) (s) : OutAll (Keeps s) (execRoutemapLoad p s) := by
  unfold execRoutemapLoad
  refine OutAll.intro ?_
  refine Keeps.trans ?_ (State.forOp_keeps _ _ _ _ ?_)
  · exact Keeps.refl _
  · split
    · rename_i y0 y1
      exact Keeps.refl _
    · rename_i y2 y3 y4
      split
      · rename_i y5 y6 y7
        refine Keeps.trans ?_ (State.finish_keeps _ _ _)
        exact Keeps.refl _
      · rename_i y8 y9 y10
        split
        · rename_i y11 y12 y13 y14
          have k15 := ExAll.of_error (State.mgmtTouch_keeps _ _ _ _) y14
          refine Keeps.trans ?_ (State.finish_keeps _ _ _)
          refine Keeps.trans ?_ k15
          exact Keeps.refl _
        · rename_i y16 y17 y18
          have k19 := ExAll.of_error (State.mgmtTouch_keeps _ _ _ _) y18
          refine Keeps.trans ?_ k19
          exact Keeps.refl _
        · rename_i y20 y21 y22
          have k23 := ExAll.of (State.mgmtTouch_keeps _ _ _ _) y22
          extract_lets x24 x25 x26 x27 x28
          clear_value x24
          clear_value x25
          clear_value x26
          clear_value x27
          clear_value x28
          split
          · rename_i y29 y30 y31
            refine Keeps.trans ?_ (State.finish_keeps _ _ _)
            refine Keeps.trans ?_ (State.logEvent_keeps _ _ _ _ _ _ _)
            exact k23
          · rename_i y32 y33
            split
            · rename_i y34 y35 y36
              refine Keeps.trans ?_ (State.finish_keeps _ _ _)
              exact k23
            · rename_i y37 y38
              refine Keeps.trans ?_ (State.finish_keeps _ _ _)
              refine Keeps.set_fabric ?_
              exact k23

theorem State.updSb_keeps (s) (p) (f) : Keeps s (State.updSb s p f) := by
  unfold State.updSb
  extract_lets x0
  clear_value x0
  refine Keeps.set_bus ?_
  exact Keeps.refl _

theorem State.sbCount_keeps (s) (p) (i) : Keeps s (State.sbCount s p i) := by
  unfold State.sbCount
  refine Keeps.trans ?_ (State.updSb_keeps _ _ _)
  exact Keeps.refl _

theorem State.sbEvent_keeps (s) (p) (e) : Keeps s (State.sbEvent s p e) := by
  unfold State.sbEvent
  refine Keeps.trans ?_ (State.logEvent_keeps _ _ _ _ _ _ _)
  exact Keeps.refl _

theorem State.sbTry_keeps (s) (p) (b2) : Keeps s (State.sbTry s p b2) := by
  induction b2 generalizing s p with
  | zero =>
    rw [State.sbTry]
    exact Keeps.refl _
  | succ n ih =>
    rw [State.sbTry]
    split
    · rename_i y0 y1
      exact Keeps.refl _
    · rename_i y2 y3 y4
      extract_lets x5
      clear_value x5
      split
      · rename_i y6 y7
        exact Keeps.refl _
      · rename_i y8 y9 y10 y11
        extract_lets x12
        clear_value x12
        split
        · rename_i y13
          exact Keeps.refl _
        · rename_i y14
          split
          · rename_i y15
            refine Keeps.trans ?_ (ih ..)
            refine Keeps.trans ?_ (State.updSb_keeps _ _ _)
            exact Keeps.refl _
          · rename_i y16
            split
            · rename_i y17 y18 y19 y20
              have k21 : Keeps _ y19 := Keeps.of_snd (State.draw_keeps _ _) y20
              split
              · rename_i y22
                refine Keeps.trans ?_ (ih ..)
                refine Keeps.trans ?_ (State.updSb_keeps _ _ _)
                exact k21
              · rename_i y23
                split
                · rename_i y24
                  refine Keeps.trans ?_ (ih ..)
                  refine Keeps.trans ?_ (State.updSb_keeps _ _ _)
                  refine Keeps.trans ?_ (State.sbCount_keeps _ _ _)
                  exact k21
                · rename_i y25
                  split
                  · rename_i y26 y27 y28 y29
                    have k30 : Keeps _ y28 := Keeps.of_snd (State.draw_keeps _ _) y29
                    refine Keeps.trans ?_ (State.updSb_keeps _ _ _)
                    refine Keeps.trans ?_ k30
                    exact k21

theorem State.sbPut_keeps (s) (p) (f) : Keeps s (State.sbPut s p f) := by
  unfold State.sbPut
  extract_lets x0
  have k1 : Keeps s (x0) := by
    subst x0
    refine Keeps.trans ?_ (State.updSb_keeps _ _ _)
    exact Keeps.refl _
  clear_value x0
  split
  · rename_i y2 y3
    exact Keeps.refl _
  · rename_i y4 y5 y6
    split
    · rename_i y7
      exact Keeps.refl _
    · rename_i y8
      split
      · rename_i y9
        refine Keeps.trans ?_ (State.sbTry_keeps _ _ _)
        exact k1
      · rename_i y10
        exact k1

theorem execCollisionBackoff_keeps (port) (s) : OutAll (Keeps s) (execCollisionBackoff port s) := by
  unfold execCollisionBackoff
  refine OutAll.intro ?_
  split
  · rename_i y0 y1 y2
    split
    · rename_i y3
      exact Keeps.refl _
    · rename_i y4
      refine Keeps.trans ?_ (State.sbTry_keeps _ _ _)
      exact Keeps.refl _
  · rename_i y5 y6
    exact Keeps.refl _

theorem State.nextFrameSeq_keeps (s) : Keeps s ((State.nextFrameSeq s).2) := by
  unfold State.nextFrameSeq
  extract_lets x0 x1 x2 x3
  clear_value x0
  clear_value x1
  clear_value x2
  have k4 : Keeps s (x3) := by
    subst x3
    refine Keeps.set_bus ?_
    exact Keeps.refl _
  clear_value x3
  refine Keeps.snd ?_
  split
  · rename_i y5
    refine Keeps.trans ?_ (State.ownStore_keeps _ _ _)
    exact k4
  · rename_i y6
    exact k4

theorem State.sendService_keeps (s) (ports) (dmac) (b3) (target) (body) : Keeps s (State.sendService s ports dmac b3 target body) := by
  unfold State.sendService
  split
  · rename_i y0
    exact Keeps.refl _
  · rename_i y1
    split
    · rename_i y2 y3 y4 y5
      have k6 : Keeps _ y4 := Keeps.of_snd (State.nextFrameSeq_keeps _) y5
      refine Keeps.foldl _ ?_ ?_
      · exact k6
      · intro a7 a8
        refine Keeps.trans ?_ (State.sbPut_keeps _ _ _)
        exact Keeps.refl _

theorem execDiscoverSend_keeps (port) (s) : OutAll (Keeps s) (execDiscoverSend port s) := by
  unfold execDiscoverSend
  refine OutAll.intro ?_
  split
  · rename_i y0 y1 y2
    split
    · rename_i y3
      refine Keeps.trans ?_ (State.sendService_keeps _ _ _ _ _ _)
      exact Keeps.refl _
    · rename_i y4
      exact Keeps.refl _
  · rename_i y5 y6
    exact Keeps.refl _

theorem execDiscoveryWindowClose_keeps (port) (s) : OutAll (Keeps s) (execDiscoveryWindowClose port s) := by
  unfold execDiscoveryWindowClose
  extract_lets x0
  clear_value x0
  refine OutAll.intro ?_
  split
  · rename_i y1 y2
    exact Keeps.refl _
  · rename_i y3 y4 y5
    extract_lets x6 x7 x8 x9 x10
    clear_value x6
    clear_value x7
    clear_value x8
    clear_value x9
    clear_value x10
    split
    · rename_i y11
      exact Keeps.refl _
    · rename_i y12
      split
      · rename_i y13
        refine Keeps.trans ?_ (State.sbEvent_keeps _ _ _)
        refine Keeps.trans ?_ (State.updSb_keeps _ _ _)
        exact Keeps.refl _
      · rename_i y14
        split
        · rename_i y15
          refine Keeps.trans ?_ (State.sbEvent_keeps _ _ _)
          refine Keeps.trans ?_ (State.updSb_keeps _ _ _)
          exact Keeps.refl _
        · rename_i y16
          split
          · rename_i y17 y18
            refine Keeps.trans ?_ (State.sbEvent_keeps _ _ _)
            refine Keeps.trans ?_ (State.updSb_keeps _ _ _)
            exact Keeps.refl _
          · rename_i y19 y20 y21
            extract_lets x22 x23
            clear_value x22
            have k24 : Keeps s (x23) := by
              subst x23
              refine Keeps.trans ?_ (State.updSb_keeps _ _ _)
              exact Keeps.refl _
            clear_value x23
            split
            · rename_i y25
              refine Keeps.trans ?_ (State.sbTry_keeps _ _ _)
              refine Keeps.trans ?_ (State.sbEvent_keeps _ _ _)
              exact k24
            · rename_i y26
              exact k24

theorem execPlcaBeaconHeard_keeps (port) (s) : OutAll (Keeps s) (execPlcaBeaconHeard port s) := by
  unfold execPlcaBeaconHeard
  refine OutAll.intro ?_
  split
  · rename_i y0 y1 y2
    split
    · rename_i y3
      refine Keeps.trans ?_ (State.sbTry_keeps _ _ _)
      refine Keeps.trans ?_ (State.sbEvent_keeps _ _ _)
      refine Keeps.trans ?_ (State.updSb_keeps _ _ _)
      exact Keeps.refl _
    · rename_i y4
      exact Keeps.refl _
  · rename_i y5 y6
    exact Keeps.refl _

theorem execPlcaFallback_keeps (port) (s) : OutAll (Keeps s) (execPlcaFallback port s) := by
  unfold execPlcaFallback
  refine OutAll.intro ?_
  split
  · rename_i y0 y1 y2
    split
    · rename_i y3
      refine Keeps.trans ?_ (State.sbEvent_keeps _ _ _)
      refine Keeps.trans ?_ (State.updSb_keeps _ _ _)
      exact Keeps.refl _
    · rename_i y4
      exact Keeps.refl _
  · rename_i y5 y6
    exact Keeps.refl _

theorem execHelloSend_keeps (port) (s) : OutAll (Keeps s) (execHelloSend port s) := by
  unfold execHelloSend
  refine OutAll.intro ?_
  split
  · rename_i y0 y1 y2
    split
    · rename_i y3
      refine Keeps.trans ?_ (State.sendService_keeps _ _ _ _ _ _)
      exact Keeps.refl _
    · rename_i y4
      exact Keeps.refl _
  · rename_i y5 y6
    exact Keeps.refl _

theorem execAuxclkLost_keeps (s) : OutAll (Keeps s) (execAuxclkLost s) := by
  unfold execAuxclkLost
  extract_lets x0 x1 x2
  clear_value x0
  clear_value x1
  clear_value x2
  refine OutAll.intro ?_
  split
  · rename_i y3
    exact Keeps.refl _
  · rename_i y4
    refine Keeps.trans ?_ (State.openReading_keeps _ _ _)
    refine Keeps.set_bus_power ?_
    exact Keeps.refl _

theorem execAuxclkRestored_keeps (s) : OutAll (Keeps s) (execAuxclkRestored s) := by
  unfold execAuxclkRestored
  extract_lets x0 x1
  clear_value x0
  clear_value x1
  refine OutAll.intro ?_
  split
  · rename_i y2
    refine Keeps.set_bus_power ?_
    exact Keeps.refl _
  · rename_i y3
    exact Keeps.refl _

theorem execTakeoverRepeat_keeps (s) : OutAll (Keeps s) (execTakeoverRepeat s) := by
  unfold execTakeoverRepeat
  extract_lets x0
  clear_value x0
  refine OutAll.intro ?_
  split
  · rename_i y1
    exact Keeps.refl _
  · rename_i y2
    refine Keeps.trans ?_ (State.sendService_keeps _ _ _ _ _ _)
    refine Keeps.set_bus ?_
    exact Keeps.refl _

theorem State.addCause_keeps (s) (cause) (index) : Keeps s (State.addCause s cause index) := by
  unfold State.addCause
  extract_lets x0
  clear_value x0
  refine Keeps.trans ?_ (State.logEvent_keeps _ _ _ _ _ _ _)
  refine Keeps.set_mgmtOnly_boot ?_
  exact Keeps.refl _

theorem State.fence_keeps (s) (stroke) : Keeps s (State.fence s stroke) := by
  unfold State.fence
  extract_lets x0 x1 x2
  clear_value x0
  clear_value x1
  have k3 : Keeps s (x2) := by
    subst x2
    refine Keeps.set_fabric ?_
    exact Keeps.refl _
  clear_value x2
  refine Keeps.trans ?_ (State.failEvent_keeps _ _ _)
  refine Keeps.trans ?_ (State.addCause_keeps _ _ _)
  refine Keeps.trans ?_ (State.ownStore_keeps _ _ _)
  exact k3

theorem State.takeTakeover_keeps (s) (body) : Keeps s (State.takeTakeover s body) := by
  unfold State.takeTakeover
  extract_lets x0 x1 x2 x3 x4
  clear_value x0
  clear_value x1
  clear_value x2
  have k5 : Keeps s (x3) := by
    subst x3
    refine Keeps.foldl _ ?_ ?_
    · exact Keeps.refl _
    · intro a6 a7
      refine Keeps.trans ?_ (State.qpError_keeps _ _ _ _)
      exact Keeps.refl _
  clear_value x3
  clear_value x4
  split
  · rename_i y8
    refine Keeps.trans ?_ (State.fence_keeps _ _)
    exact k5
  · rename_i y9
    exact k5

theorem State.keepExposure_keeps (s) (port) (serial) (v) : Keeps s (State.keepExposure s port serial v) := by
  unfold State.keepExposure
  extract_lets x0 x1 x2 x3
  clear_value x0
  clear_value x1
  clear_value x2
  have k4 : Keeps s (x3) := by
    subst x3
    refine Keeps.set_bus ?_
    exact Keeps.refl _
  clear_value x3
  split
  · rename_i y5
    refine Keeps.trans ?_ (State.sbEvent_keeps _ _ _)
    exact k4
  · rename_i y6
    exact k4

theorem State.takeRates_keeps (s) (port) (serial) (body) : Keeps s (State.takeRates s port serial body) := by
  unfold State.takeRates
  extract_lets x0
  clear_value x0
  refine Keeps.foldl _ ?_ ?_
  · refine Keeps.trans ?_ (State.keepExposure_keeps _ _ _ _)
    exact Keeps.refl _
  · intro a1 a2
    refine Keeps.trans ?_ (State.keepEvent_keeps _ _)
    exact Keeps.refl _

theorem State.ageEvents_keeps (s) : Keeps s (State.ageEvents s) := by
  unfold State.ageEvents
  extract_lets x0 x1
  clear_value x0
  clear_value x1
  refine Keeps.set_bus ?_
  exact Keeps.refl _

theorem execFailureRateSend_keeps (s) : OutAll (Keeps s) (execFailureRateSend s) := by
  unfold execFailureRateSend
  extract_lets x0
  clear_value x0
  refine OutAll.intro ?_
  split
  · rename_i y1 y2 y3 y4
    have k5 : Keeps _ y3 := Keeps.of_snd (State.draw_keeps _ _) y4
    extract_lets x6
    clear_value x6
    refine Keeps.trans ?_ (State.sendService_keeps _ _ _ _ _ _)
    refine Keeps.trans ?_ (State.keepExposure_keeps _ _ _ _)
    exact k5

theorem State.takeDebug_keeps (s) (port) (serial) (body) : Keeps s (State.takeDebug s port serial body) := by
  unfold State.takeDebug
  extract_lets x0 x1 x2 x3
  have k4 : Keeps s (x0) := by
    subst x0
    refine Keeps.trans ?_ (State.logEvent_keeps _ _ _ _ _ _ _)
    exact Keeps.refl _
  clear_value x0
  clear_value x1
  clear_value x2
  have k5 : Keeps s (x3) := by
    subst x3
    split
    · rename_i y6
      exact k4
    · rename_i y7
      refine Keeps.set_proof ?_
      exact k4
  clear_value x3
  split
  · rename_i y8 y9 y10 y11 y12
    extract_lets x13 x14
    have k15 : Keeps s (x13) := by
      subst x13
      refine Keeps.trans ?_ (State.sendService_keeps _ _ _ _ _ _)
      exact k5
    clear_value x13
    clear_value x14
    split
    · rename_i y16
      refine Keeps.set_boot ?_
      exact k15
    · rename_i y17
      exact k15

theorem execLogExportSend_keeps (s) : OutAll (Keeps s) (execLogExportSend s) := by
  unfold execLogExportSend
  extract_lets x0 x1 x2 x3 x4 x5 x6
  clear_value x1
  clear_value x2
  clear_value x3
  clear_value x4
  clear_value x5
  have k7 : Keeps s (x6) := by
    subst x6
    refine Keeps.set_bus ?_
    exact Keeps.refl _
  clear_value x6
  refine OutAll.intro ?_
  split
  · rename_i y8
    exact Keeps.refl _
  · rename_i y9
    refine Keeps.trans ?_ (State.sendService_keeps _ _ _ _ _ _)
    exact k7

theorem State.toHostRing_keeps (s) (port) (errors) (f) : Keeps s (State.toHostRing s port errors f) := by
  unfold State.toHostRing
  extract_lets x0 x1
  clear_value x0
  clear_value x1
  split
  · rename_i y2
    refine Keeps.set_mbox ?_
    exact Keeps.refl _
  · rename_i y3
    refine Keeps.set_mbox ?_
    exact Keeps.refl _

theorem State.noteSeq_keeps (s) (x) : Keeps s (State.noteSeq s x) := by
  unfold State.noteSeq
  extract_lets x0
  clear_value x0
  split
  · rename_i y1
    refine Keeps.set_bus ?_
    exact Keeps.refl _
  · rename_i y2
    exact Keeps.refl _

theorem State.relay_keeps (s) (port) (f) (x) : Keeps s (State.relay s port f x) := by
  unfold State.relay
  extract_lets x0 x1 x2 x3
  clear_value x0
  clear_value x1
  clear_value x2
  clear_value x3
  split
  · rename_i y4
    refine Keeps.trans ?_ (State.sbPut_keeps _ _ _)
    refine Keeps.set_bus ?_
    exact Keeps.refl _
  · rename_i y5
    exact Keeps.refl _

theorem State.actOn_keeps (s) (port) (f) (x) : Keeps s (State.actOn s port f x) := by
  unfold State.actOn
  split
  · rename_i y0 y1
    refine Keeps.trans ?_ (State.updSb_keeps _ _ _)
    exact Keeps.refl _
  · rename_i y2 y3
    exact Keeps.refl _
  · rename_i y4 y5
    refine Keeps.trans ?_ (State.takeRates_keeps _ _ _ _)
    exact Keeps.refl _
  · rename_i y6 y7
    refine Keeps.trans ?_ (State.takeTakeover_keeps _ _)
    exact Keeps.refl _
  · rename_i y8 y9
    refine Keeps.trans ?_ (State.takeDebug_keeps _ _ _ _)
    exact Keeps.refl _
  · rename_i y10 y11 y12 y13 y14 y15
    refine Keeps.trans ?_ (State.toHostRing_keeps _ _ _ _)
    exact Keeps.refl _

theorem State.serviceFrame_keeps (s) (port) (f) : Keeps s (State.serviceFrame s port f) := by
  unfold State.serviceFrame
  split
  · rename_i y0 y1
    exact Keeps.refl _
  · rename_i y2 y3 y4
    split
    · rename_i y5
      exact Keeps.refl _
    · rename_i y6
      extract_lets x7 x8 x9 x10
      clear_value x7
      clear_value x8
      have k11 : Keeps s x9 := by
        subst x9
        split
        · rename_i y12
          refine Keeps.trans ?_ (State.sbCount_keeps _ _ _)
          exact Keeps.refl _
        · rename_i y13
          exact Keeps.refl _
      clear_value x9
      have k14 : Keeps s x10 := by
        subst x10
        refine Keeps.trans ?_ (State.relay_keeps _ _ _ _)
        refine Keeps.trans ?_ (State.noteSeq_keeps _ _)
        exact Keeps.refl _
      clear_value x10
      split
      · rename_i y15
        split
        · rename_i y16
          refine Keeps.trans ?_ (State.toHostRing_keeps _ _ _ _)
          exact k11
        · rename_i y17
          refine Keeps.trans ?_ (State.sbCount_keeps _ _ _)
          exact k11
      · rename_i y18
        split
        · rename_i y19
          exact Keeps.refl _
        · rename_i y20
          split
          · rename_i y21
            refine Keeps.trans ?_ (State.actOn_keeps _ _ _ _)
            exact k14
          · rename_i y22
            exact k14

theorem execServiceFrameReceived_keeps (port) (frame) (s) : OutAll (Keeps s) (execServiceFrameReceived port frame s) := by
  unfold execServiceFrameReceived
  refine OutAll.intro ?_
  refine Keeps.trans ?_ (State.serviceFrame_keeps _ _ _)
  exact Keeps.refl _

theorem State.serviceFrameOf_keeps (s) (b1) (port) (f) : Keeps s (State.serviceFrameOf s b1 port f) := by
  unfold State.serviceFrameOf
  split
  · rename_i y0
    refine Keeps.trans ?_ (State.serviceFrame_keeps _ _ _)
    exact Keeps.refl _
  · rename_i y1
    exact Keeps.refl _

theorem execDiscover_keeps (port) (frame) (s) : OutAll (Keeps s) (execDiscover port frame s) := by
  unfold execDiscover
  refine OutAll.intro ?_
  refine Keeps.trans ?_ (State.serviceFrameOf_keeps _ _ _ _)
  exact Keeps.refl _

theorem execFailureRate_keeps (port) (frame) (s) : OutAll (Keeps s) (execFailureRate port frame s) := by
  unfold execFailureRate
  refine OutAll.intro ?_
  refine Keeps.trans ?_ (State.serviceFrameOf_keeps _ _ _ _)
  exact Keeps.refl _

theorem execTakeover_keeps (port) (frame) (s) : OutAll (Keeps s) (execTakeover port frame s) := by
  unfold execTakeover
  refine OutAll.intro ?_
  refine Keeps.trans ?_ (State.serviceFrameOf_keeps _ _ _ _)
  exact Keeps.refl _

theorem execDebugRequest_keeps (port) (frame) (s) : OutAll (Keeps s) (execDebugRequest port frame s) := by
  unfold execDebugRequest
  refine OutAll.intro ?_
  refine Keeps.trans ?_ (State.serviceFrameOf_keeps _ _ _ _)
  exact Keeps.refl _

theorem execWakeMatch_keeps (port) (frame) (s) : OutAll (Keeps s) (execWakeMatch port frame s) := by
  unfold execWakeMatch
  extract_lets x0 x1 x2 x3
  clear_value x0
  clear_value x1
  clear_value x2
  clear_value x3
  refine OutAll.intro ?_
  split
  · rename_i y4
    exact Keeps.refl _
  · rename_i y5
    split
    · rename_i y6
      refine Keeps.set_power ?_
      exact Keeps.refl _
    · rename_i y7
      split
      · rename_i y8
        refine Keeps.set_power ?_
        exact Keeps.refl _
      · rename_i y9
        refine Keeps.trans ?_ (State.sbCount_keeps _ _ _)
        exact Keeps.refl _

end Sys2Proof.Machine
end

