-- ==== Sys2Proof/Laws/KeepsHost.lean ====
section
/-! SUPPORT. What the host, the sideband, boot and resets keep: one lemma for each operation that answers a state. -/

namespace Sys2Proof.Machine

open Sys2Proof

theorem Memory.snoopOldest_wf {m : Memory} (h : m.wf = true) : m.snoopOldest.wf = true := by
  unfold Memory.snoopOldest
  split
  · exact h
  · split
    · exact h
    · exact Memory.wf_same h rfl rfl

theorem Memory.hostTakes_wf {m : Memory} (h : m.wf = true) (l : Nat) : (m.hostTakes l).wf = true := by
  unfold Memory.hostTakes
  split
  · exact h
  · exact Memory.wf_same h rfl rfl

theorem State.inbound_keeps (s) (off) : Keeps s (State.inbound s off) := by
  unfold State.inbound
  refine Keeps.trans ?_ (State.logEvent_keeps _ _ _ _ _ _ _)
  exact Keeps.refl _

theorem State.enableAdmq_keeps (s) : Keeps s (State.enableAdmq s) := by
  unfold State.enableAdmq
  extract_lets h ring s1 s2 s3 q
  split
  · exact Keeps.refl _
  · split
    · exact Keeps.set_host (Keeps.refl _)
    · have k1 : Keeps s s1 := (State.claimRange_keeps _ _ _ _ _).trans (State.claimRange_keeps _ _ _ _ _)
      clear_value s1
      have k2 : Keeps s1 s2 := State.updMem_keeps _ _ (Memory.wf_of_cells rfl rfl)
      clear_value s2
      have k3 : Keeps s2 s3 := State.updCtx_keeps _ _ _
      clear_value s3
      exact ((k1.trans k2).trans k3).trans (Keeps.of_parts rfl rfl id id (Bounded.set (by omega)) id)

theorem State.disableAdmq_keeps (s) : Keeps s (State.disableAdmq s) := by
  unfold State.disableAdmq
  split
  · rename_i y0
    exact Keeps.refl _
  · rename_i y1
    split
    · rename_i y2
      refine Keeps.trans ?_ (State.inbound_keeps _ _)
      exact Keeps.refl _
    · rename_i y3
      refine Keeps.trans ?_ (State.closeQueue_keeps _ _ _)
      refine Keeps.set_host ?_
      exact Keeps.refl _

theorem execAdmqEnable_keeps (s) : OutAll (Keeps s) (execAdmqEnable s) := by
  unfold execAdmqEnable
  refine OutAll.intro ?_
  refine Keeps.trans ?_ (State.enableAdmq_keeps _)
  exact Keeps.refl _

theorem execAdmqDisable_keeps (s) : OutAll (Keeps s) (execAdmqDisable s) := by
  unfold execAdmqDisable
  refine OutAll.intro ?_
  refine Keeps.trans ?_ (State.disableAdmq_keeps _)
  exact Keeps.refl _

theorem State.clearSummary_keeps (s) (w) : Keeps s (State.clearSummary s w) := by
  unfold State.clearSummary
  extract_lets x0
  clear_value x0
  refine Keeps.set_host ?_
  exact Keeps.refl _

theorem State.readEffect_keeps (s) (off) : Keeps s (State.readEffect s off) := by
  unfold State.readEffect
  split
  · rename_i y0
    refine Keeps.trans ?_ (State.clearSummary_keeps _ _)
    exact Keeps.refl _
  · rename_i y1
    exact Keeps.refl _

theorem State.readReg_keeps (s) (off) (size) : OptAll (fun r => Keeps s ((r).2)) (State.readReg s off size) := by
  unfold State.readReg
  extract_lets x0 x1
  clear_value x0
  clear_value x1
  split
  · rename_i y2 y3
    trivial
  · rename_i y4 y5 y6
    split
    · rename_i y7
      refine OptAll.intro ?_
      refine Keeps.snd ?_
      refine Keeps.trans ?_ (State.readEffect_keeps _ _)
      exact Keeps.refl _
    · rename_i y8
      split
      · rename_i y9
        refine OptAll.intro ?_
        refine Keeps.snd ?_
        refine Keeps.trans ?_ (State.readEffect_keeps _ _)
        refine Keeps.set_host ?_
        exact Keeps.refl _
      · rename_i y10
        split
        · rename_i y11 y12 y13 y14
          split
          · rename_i y15
            refine OptAll.intro ?_
            refine Keeps.snd ?_
            refine Keeps.set_host ?_
            exact Keeps.refl _
          · rename_i y16
            refine OptAll.intro ?_
            refine Keeps.snd ?_
            refine Keeps.trans ?_ (State.readEffect_keeps _ _)
            exact Keeps.refl _
        · rename_i y17 y18
          refine OptAll.intro ?_
          refine Keeps.snd ?_
          refine Keeps.trans ?_ (State.readEffect_keeps _ _)
          exact Keeps.refl _

theorem State.read0_keeps (s) (off) (len) : Keeps s (State.read0 s off len) := by
  unfold State.read0
  extract_lets x0 x1
  have k2 : ∀ z0 z1, Keeps z0 (x0 z0 z1) := by
    subst x0
    intro a3 a4
    beta_reduce
    extract_lets x5
    clear_value x5
    refine Keeps.set_host ?_
    exact Keeps.refl _
  clear_value x0
  clear_value x1
  split
  · rename_i y6
    refine Keeps.trans ?_ (k2 _ _)
    refine Keeps.trans ?_ (State.inbound_keeps _ _)
    exact Keeps.refl _
  · rename_i y7
    split
    · rename_i y8 y9 y10 y11
      refine Keeps.trans ?_ (k2 _ _)
      exact Keeps.refl _
    · rename_i y12 y13
      split
      · rename_i y14 y15 y16 y17
        have k18 := OptAll.of (State.readReg_keeps _ _ _) y17
        refine Keeps.trans ?_ (k2 _ _)
        refine Keeps.trans ?_ k18
        exact Keeps.refl _
      · rename_i y19 y20
        refine Keeps.trans ?_ (k2 _ _)
        refine Keeps.trans ?_ (State.inbound_keeps _ _)
        exact Keeps.refl _

theorem execFaultSummaryRead_keeps (word) (s) : OutAll (Keeps s) (execFaultSummaryRead word s) := by
  unfold execFaultSummaryRead
  refine OutAll.intro ?_
  split
  · rename_i y0
    refine Keeps.trans ?_ (State.read0_keeps _ _ _)
    exact Keeps.refl _
  · rename_i y1
    exact Keeps.refl _

theorem execHalfReadLatch_keeps (offset) (s) : OutAll (Keeps s) (execHalfReadLatch offset s) := by
  unfold execHalfReadLatch
  refine OutAll.intro ?_
  split
  · rename_i y0
    refine Keeps.trans ?_ (State.read0_keeps _ _ _)
    exact Keeps.refl _
  · rename_i y1
    exact Keeps.refl _

theorem State.submitMbox_keeps (s) (r) : Keeps s (State.submitMbox s r) := by
  unfold State.submitMbox
  extract_lets x0 x1
  clear_value x0
  have k2 : Keeps s (x1) := by
    subst x1
    refine Keeps.trans ?_ (State.proofLoad_keeps _)
    refine Keeps.set_mbox ?_
    exact Keeps.refl _
  clear_value x1
  split
  · rename_i y3 y4 y5
    refine Keeps.trans ?_ (State.answerMbox_keeps _ _ _ _)
    exact k2
  · rename_i y6 y7
    exact k2

theorem State.turnAwayMbox_keeps (s) (r) : Keeps s (State.turnAwayMbox s r) := by
  unfold State.turnAwayMbox
  extract_lets x0 x1 x2 x3 x4 x5
  clear_value x0
  clear_value x1
  clear_value x2
  have k6 : Keeps s (x3) := by
    subst x3
    refine Keeps.set_proof ?_
    exact Keeps.refl _
  clear_value x3
  have k7 : Keeps s (x4) := by
    subst x4
    refine Keeps.trans ?_ (State.answerMbox_keeps _ _ _ _)
    exact k6
  clear_value x4
  clear_value x5
  refine Keeps.set_mbox ?_
  exact k7

theorem State.mboxDoorbell_keeps (s) : Keeps s (State.mboxDoorbell s) := by
  unfold State.mboxDoorbell
  extract_lets x0 x1
  clear_value x0
  clear_value x1
  split
  · rename_i y2
    exact Keeps.refl _
  · rename_i y3
    split
    · rename_i y4 y5
      refine Keeps.trans ?_ (State.submitMbox_keeps _ _)
      exact Keeps.refl _
    · rename_i y6 y7 y8
      split
      · rename_i y9
        refine Keeps.trans ?_ (State.turnAwayMbox_keeps _ _)
        exact Keeps.refl _
      · rename_i y10
        refine Keeps.set_mbox ?_
        exact Keeps.refl _

theorem State.writeRxHead_keeps (s) (v) : Keeps s (State.writeRxHead s v) := by
  unfold State.writeRxHead
  extract_lets x0
  split
  · rename_i y1
    refine Keeps.set_mbox ?_
    exact Keeps.refl _
  · rename_i y2
    exact Keeps.refl _

theorem execSbRxHeadWrite_keeps (value) (s) : OutAll (Keeps s) (execSbRxHeadWrite value s) := by
  unfold execSbRxHeadWrite
  refine OutAll.intro ?_
  refine Keeps.trans ?_ (State.writeRxHead_keeps _ _)
  exact Keeps.refl _

theorem State.writeGlobal_keeps (s) (o) (v) (w) : Keeps s (State.writeGlobal s o v w) := by
  unfold State.writeGlobal
  extract_lets x0 x1
  clear_value x0
  split
  · rename_i y2
    refine Keeps.set_host ?_
    exact Keeps.refl _
  · rename_i y3
    split
    · rename_i y4
      refine Keeps.set_host ?_
      exact Keeps.refl _
    · rename_i y5
      split
      · rename_i y6
        refine Keeps.set_host ?_
        exact Keeps.refl _
      · rename_i y7
        split
        · rename_i y8
          split
          · rename_i y9
            refine Keeps.trans ?_ (State.inbound_keeps _ _)
            exact Keeps.refl _
          · rename_i y10
            refine Keeps.set_host ?_
            exact Keeps.refl _
        · rename_i y11
          exact Keeps.refl _

theorem State.writeAdmq_keeps (s) (o) (v) : Keeps s (State.writeAdmq s o v) := by
  unfold State.writeAdmq
  extract_lets x0
  clear_value x0
  split
  · rename_i y1
    split
    · rename_i y2
      refine Keeps.trans ?_ (State.enableAdmq_keeps _)
      exact Keeps.refl _
    · rename_i y3
      refine Keeps.trans ?_ (State.disableAdmq_keeps _)
      exact Keeps.refl _
  · rename_i y4
    split
    · rename_i y5
      exact Keeps.refl _
    · rename_i y6
      split
      · rename_i y7
        refine Keeps.trans ?_ (State.inbound_keeps _ _)
        exact Keeps.refl _
      · rename_i y8
        split
        · rename_i y9
          refine Keeps.set_host ?_
          exact Keeps.refl _
        · rename_i y10
          split
          · rename_i y11
            refine Keeps.set_host ?_
            exact Keeps.refl _
          · rename_i y12
            split
            · rename_i y13
              refine Keeps.set_host ?_
              exact Keeps.refl _
            · rename_i y14
              refine Keeps.set_host ?_
              exact Keeps.refl _

theorem State.writeMbox_keeps (s) (o) (v) (w) : Keeps s (State.writeMbox s o v w) := by
  unfold State.writeMbox
  extract_lets x0
  clear_value x0
  split
  · rename_i y1
    refine Keeps.trans ?_ (State.mboxDoorbell_keeps _)
    exact Keeps.refl _
  · rename_i y2
    split
    · rename_i y3
      split
      · rename_i y4
        refine Keeps.set_mbox ?_
        exact Keeps.refl _
      · rename_i y5
        exact Keeps.refl _
    · rename_i y6
      split
      · rename_i y7
        refine Keeps.trans ?_ (State.writeRxHead_keeps _ _)
        exact Keeps.refl _
      · rename_i y8
        exact Keeps.refl _

theorem State.writeWindow_keeps (s) (off) (bs) : OptAll (fun r => Keeps s (r)) (State.writeWindow s off bs) := by
  unfold State.writeWindow
  extract_lets x0 x1 x2
  clear_value x0
  clear_value x1
  clear_value x2
  split
  · rename_i y3
    refine OptAll.intro ?_
    refine Keeps.trans ?_ (State.flushMsi_keeps _)
    refine Keeps.set_host ?_
    exact Keeps.refl _
  · rename_i y4
    split
    · rename_i y5
      refine OptAll.intro ?_
      refine Keeps.set_mbox ?_
      exact Keeps.refl _
    · rename_i y6
      split
      · rename_i y7
        refine OptAll.intro ?_
        exact Keeps.refl _
      · rename_i y8
        trivial

theorem State.write0_keeps (s) (off) (size) (value) : Keeps s (State.write0 s off size value) := by
  unfold State.write0
  split
  · rename_i y0
    refine Keeps.trans ?_ (State.inbound_keeps _ _)
    exact Keeps.refl _
  · rename_i y1
    split
    · rename_i y2
      exact Keeps.refl _
    · rename_i y3
      split
      · rename_i y4 y5 y6
        have k9 := OptAll.of (State.writeWindow_keeps _ _ _) y6
        exact k9
      · rename_i y10 y11
        extract_lets x12 x13 x14
        clear_value x12
        clear_value x13
        clear_value x14
        split
        · rename_i y15 y16
          refine Keeps.trans ?_ (State.inbound_keeps _ _)
          exact Keeps.refl _
        · rename_i y17 y18 y19
          extract_lets x20
          clear_value x20
          split
          · rename_i y21
            split
            · rename_i y22
              refine Keeps.trans ?_ (State.writeSqTail_keeps _ _ _)
              exact Keeps.refl _
            · rename_i y23
              split
              · rename_i y24
                refine Keeps.trans ?_ (State.writeCqHead_keeps _ _ _)
                exact Keeps.refl _
              · rename_i y25
                exact Keeps.refl _
          · rename_i y26
            split
            · rename_i y27
              refine Keeps.trans ?_ (State.writeGlobal_keeps _ _ _ _)
              exact Keeps.refl _
            · rename_i y28
              split
              · rename_i y29
                refine Keeps.trans ?_ (State.writeAdmq_keeps _ _ _)
                exact Keeps.refl _
              · rename_i y30
                refine Keeps.trans ?_ (State.writeMbox_keeps _ _ _ _)
                exact Keeps.refl _

theorem execRegisterWrite_keeps (offset) (size) (value) (s) : OutAll (Keeps s) (execRegisterWrite offset size value s) := by
  unfold execRegisterWrite
  refine OutAll.intro ?_
  refine Keeps.trans ?_ (State.write0_keeps _ _ _ _)
  exact Keeps.refl _

theorem State.writeTable_keeps (s) (off) (bs) : Keeps s (State.writeTable s off bs) := by
  unfold State.writeTable
  split
  · rename_i y0 y1 y2
    split
    · rename_i y3
      refine Keeps.trans ?_ (State.updMem_keeps _ _ ?_)
      · exact Keeps.refl _
      · intro h4
        refine Memory.writeBytes_wf ?_ _ _
        exact Memory.wf_same h4 rfl rfl
    · rename_i y5
      refine Keeps.trans ?_ (State.inbound_keeps _ _)
      exact Keeps.refl _
  · rename_i y6 y7
    refine Keeps.trans ?_ (State.inbound_keeps _ _)
    exact Keeps.refl _

theorem execTableWindowWrite_keeps (offset) (data) (s) : OutAll (Keeps s) (execTableWindowWrite offset data s) := by
  unfold execTableWindowWrite
  refine OutAll.intro ?_
  refine Keeps.trans ?_ (State.writeTable_keeps _ _ _)
  exact Keeps.refl _

theorem State.answerHost_keeps (s) (a) : Keeps s (State.answerHost s a) := by
  unfold State.answerHost
  extract_lets x0
  clear_value x0
  refine Keeps.set_host ?_
  exact Keeps.refl _

theorem State.poison_keeps (s) (pa) : Keeps s (State.poison s pa) := by
  unfold State.poison
  split
  · rename_i y0 y1 y2 y3
    refine Keeps.trans ?_ (State.answerHost_keeps _ _)
    refine Keeps.trans ?_ (State.logEvent_keeps _ _ _ _ _ _ _)
    refine Keeps.trans ?_ (State.countError_keeps _ _ _)
    exact Keeps.refl _

theorem State.unsupported_keeps (s) : Keeps s (State.unsupported s) := by
  unfold State.unsupported
  refine Keeps.trans ?_ (State.answerHost_keeps _ _)
  refine Keeps.set_host ?_
  exact Keeps.refl _

theorem State.configPut_keeps (s) (off) (b) : Keeps s (State.configPut s off b) := by
  unfold State.configPut
  split
  · rename_i y0
    refine Keeps.set_host ?_
    exact Keeps.refl _
  · rename_i y1
    refine Keeps.set_host ?_
    exact Keeps.refl _

theorem State.configAccess_keeps (s) (r) : Keeps s (State.configAccess s r) := by
  unfold State.configAccess
  split
  · rename_i y0
    refine Keeps.trans ?_ (State.answerHost_keeps _ _)
    refine Keeps.foldl _ ?_ ?_
    · exact Keeps.refl _
    · intro a1 a2
      refine Keeps.trans ?_ (State.configPut_keeps _ _ _)
      exact Keeps.refl _
  · rename_i y3
    refine Keeps.trans ?_ (State.answerHost_keeps _ _)
    exact Keeps.refl _

theorem State.windowRead_keeps (s) (pa) (n) : Keeps s (State.windowRead s pa n) := by
  unfold State.windowRead
  split
  · rename_i y0
    split
    · rename_i y1 y2 y3 y4
      have k6 := Keeps.of_snd (State.draw_keeps _ _) y4
      refine Keeps.trans ?_ (State.answerHost_keeps _ _)
      exact k6
  · rename_i y7
    refine Keeps.trans ?_ (State.answerHost_keeps _ _)
    exact Keeps.refl _

theorem State.windowWrite_keeps (s) (pa) (bs) : Keeps s (State.windowWrite s pa bs) := by
  unfold State.windowWrite
  extract_lets x0
  have k1 : Keeps s x0 := by
    subst x0
    refine Keeps.trans ?_ (State.updMem_keeps _ _ ?_)
    · exact Keeps.refl _
    · intro a2
      refine Memory.writeBytes_wf ?_ _ _
      assumption
  clear_value x0
  split
  · rename_i y3
    refine Keeps.trans ?_ (State.updMem_keeps _ _ ?_)
    · exact k1
    · intro a4
      assumption
  · rename_i y5
    exact k1

theorem State.windowAccess_keeps (s) (r) (err) : Keeps s (State.windowAccess s r err) := by
  unfold State.windowAccess
  extract_lets x0 x1 x2
  clear_value x0
  have k3 : Keeps s x1 := by
    subst x1
    refine Keeps.trans ?_ (State.updMem_keeps _ _ ?_)
    · exact Keeps.refl _
    · intro a4
      refine Memory.snoopOldest_wf ?_
      assumption
  clear_value x1
  clear_value x2
  split
  · rename_i y5 y6
    refine Keeps.trans ?_ (State.answerHost_keeps _ _)
    refine Keeps.trans ?_ (State.inbound_keeps _ _)
    exact Keeps.refl _
  · rename_i y7 y8 y9
    extract_lets x10 x11
    clear_value x10
    have k12 : Keeps s x11 := by
      subst x11
      split
      · rename_i y13
        refine Keeps.trans ?_ (State.updMem_keeps _ _ ?_)
        · exact Keeps.refl _
        · intro a14
          refine Memory.hostTakes_wf ?_ _
          assumption
      · rename_i y15
        exact Keeps.refl _
    clear_value x11
    split
    · rename_i y16
      refine Keeps.trans ?_ (State.poison_keeps _ _)
      exact Keeps.refl _
    · rename_i y17
      split
      · rename_i y18
        refine Keeps.set_host ?_
        exact k3
      · rename_i y19
        split
        · rename_i y20
          refine Keeps.trans ?_ (State.answerHost_keeps _ _)
          refine Keeps.trans ?_ (State.sampleTriggers_keeps _)
          refine Keeps.trans ?_ (State.windowWrite_keeps _ _ _)
          exact k12
        · rename_i y21
          refine Keeps.trans ?_ (State.windowRead_keeps _ _ _)
          exact k12

theorem execHostInboundRequest_keeps (r) (s) : OutAll (Keeps s) (execHostInboundRequest r s) := by
  unfold execHostInboundRequest
  refine OutAll.intro ?_
  extract_lets x0
  clear_value x0
  split
  · rename_i y1
    exact Keeps.refl _
  · rename_i y2
    split
    · rename_i y3 y4
      refine Keeps.trans ?_ (State.configAccess_keeps _ _)
      exact Keeps.refl _
    · rename_i y5 y6 y7
      split
      · rename_i y8
        exact Keeps.refl _
      · rename_i y9
        refine Keeps.trans ?_ (State.unsupported_keeps _)
        exact Keeps.refl _
    · rename_i y10 y11 y12
      split
      · rename_i y13
        refine Keeps.trans ?_ (State.unsupported_keeps _)
        refine Keeps.trans ?_ (State.inbound_keeps _ _)
        exact Keeps.refl _
      · rename_i y14
        split
        · rename_i y15 y16
          split
          · rename_i y17
            refine Keeps.trans ?_ (State.answerHost_keeps _ _)
            refine Keeps.trans ?_ (State.write0_keeps _ _ _ _)
            exact Keeps.refl _
          · rename_i y18
            refine Keeps.trans ?_ (State.read0_keeps _ _ _)
            exact Keeps.refl _
        · rename_i y19 y20
          split
          · rename_i y21
            refine Keeps.trans ?_ (State.answerHost_keeps _ _)
            refine Keeps.trans ?_ (State.writeTable_keeps _ _ _)
            exact Keeps.refl _
          · rename_i y22
            split
            · rename_i y23 y24 y25
              split
              · rename_i y26
                refine Keeps.trans ?_ (State.answerHost_keeps _ _)
                exact Keeps.refl _
              · rename_i y27
                refine Keeps.trans ?_ (State.answerHost_keeps _ _)
                refine Keeps.trans ?_ (State.inbound_keeps _ _)
                exact Keeps.refl _
            · rename_i y28 y29
              refine Keeps.trans ?_ (State.answerHost_keeps _ _)
              refine Keeps.trans ?_ (State.inbound_keeps _ _)
              exact Keeps.refl _
        · rename_i y30 y31
          split
          · rename_i y32
            refine Keeps.trans ?_ (State.unsupported_keeps _)
            exact Keeps.refl _
          · rename_i y33
            refine Keeps.trans ?_ (State.windowAccess_keeps _ _ _)
            exact Keeps.refl _
        · rename_i y34 y35
          split
          · rename_i y36
            refine Keeps.trans ?_ (State.windowAccess_keeps _ _ _)
            exact Keeps.refl _
          · rename_i y37
            refine Keeps.trans ?_ (State.unsupported_keeps _)
            exact Keeps.refl _
        · rename_i y38 y39 y40 y41 y42
          exact Keeps.refl _

theorem execCxlSnoop_keeps (line) (s) : OutAll (Keeps s) (execCxlSnoop line s) := by
  unfold execCxlSnoop
  refine OutAll.intro ?_
  refine Keeps.trans ?_ (State.updMem_keeps _ _ ?_)
  · exact Keeps.refl _
  · intro h0
    exact Memory.wf_same h0 rfl rfl

theorem State.serveWaiting_keeps (s) : Keeps s (State.serveWaiting s) := by
  unfold State.serveWaiting
  extract_lets x0 x1
  clear_value x0
  clear_value x1
  refine Keeps.foldl _ ?_ ?_
  · refine Keeps.set_host ?_
    exact Keeps.refl _
  · intro a2 a3
    refine Keeps.trans ?_ (State.windowAccess_keeps _ _ _)
    exact Keeps.refl _

theorem execBackInvalidationResponse_keeps (line) (writeBack) (s) : OutAll (Keeps s) (execBackInvalidationResponse line writeBack s) := by
  unfold execBackInvalidationResponse
  refine OutAll.intro ?_
  extract_lets l
  clear_value l
  split
  · exact Keeps.refl _
  · rename_i mine _
    refine Keeps.trans ?_ (State.serveWaiting_keeps _)
    refine State.updMem_keeps _ _ fun h => ?_
    have fold : ∀ (l : List (Nat × Byte)) (m : Memory), m.wf = true → (l.foldl (fun (m : Memory) e => m.write e.1 e.2) m).wf = true := by
      intro l
      induction l with
      | nil => exact fun m hm => hm
      | cons e t ih => exact fun m hm => ih _ (Memory.write_wf hm e.1 e.2)
    refine Memory.wf_same (fold mine _ ?_) rfl rfl
    split
    · exact Memory.writeBytes_wf h _ _
    · exact h

theorem State.linkEntry_keeps (s) (event) : Keeps s (State.linkEntry s event) := by
  unfold State.linkEntry
  refine Keeps.trans ?_ (State.logEvent_keeps _ _ _ _ _ _ _)
  exact Keeps.refl _

theorem State.releaseHost_keeps (s) : Keeps s (State.releaseHost s) := by
  unfold State.releaseHost
  extract_lets held s1
  have k : Keeps s s1 := by
    refine State.updMem_keeps _ _ fun h => ?_
    clear_value held
    generalize s.mem = m at h ⊢
    induction held generalizing m with
    | nil => exact h
    | cons w l ih => exact ih _ (Memory.writeBytes_wf h w.1 w.2)
  clear_value s1
  exact (k.trans (Keeps.set_cmds_host (Keeps.refl _))).trans (State.flushMsi_keeps _)

theorem execHostLinkUp_keeps (cxl) (width) (s) : OutAll (Keeps s) (execHostLinkUp cxl width s) := by
  unfold execHostLinkUp
  extract_lets x0 x1 x2
  clear_value x0
  have k3 : Keeps s (x1) := by
    subst x1
    refine Keeps.set_host ?_
    exact Keeps.refl _
  clear_value x1
  have k4 : Keeps s (x2) := by
    subst x2
    split
    · rename_i y5
      refine Keeps.trans ?_ (State.linkEntry_keeps _ _)
      exact k3
    · rename_i y6
      exact k3
  clear_value x2
  refine OutAll.intro ?_
  split
  · rename_i y7
    exact Keeps.refl _
  · rename_i y8
    split
    · rename_i y9
      refine Keeps.trans ?_ (State.linkEntry_keeps _ _)
      refine Keeps.set_host ?_
      exact Keeps.refl _
    · rename_i y10
      refine Keeps.trans ?_ (State.releaseHost_keeps _)
      exact k4

theorem State.linkDown_keeps (s) : Keeps s (State.linkDown s) := by
  unfold State.linkDown
  extract_lets x0
  clear_value x0
  split
  · rename_i y1
    exact Keeps.refl _
  · rename_i y2
    refine Keeps.trans ?_ (State.linkEntry_keeps _ _)
    refine Keeps.trans ?_ (State.updMem_keeps _ _ ?_)
    · refine Keeps.set_host ?_
      exact Keeps.refl _
    · intro h3
      exact Memory.wf_same h3 rfl rfl

theorem execHostLinkDown_keeps (s) : OutAll (Keeps s) (execHostLinkDown s) := by
  unfold execHostLinkDown
  refine OutAll.intro ?_
  refine Keeps.trans ?_ (State.linkDown_keeps _)
  exact Keeps.refl _

theorem execRefclkLost_keeps (s) : OutAll (Keeps s) (execRefclkLost s) := by
  unfold execRefclkLost
  refine OutAll.intro ?_
  refine Keeps.trans ?_ (State.linkDown_keeps _)
  exact Keeps.refl _

theorem execHostLinkLossTimeout_keeps (s) : OutAll (Keeps s) (execHostLinkLossTimeout s) := by
  unfold execHostLinkLossTimeout
  extract_lets x0 x1
  clear_value x0
  have k2 : Keeps s (x1) := by
    subst x1
    refine Keeps.set_cmds_host ?_
    exact Keeps.refl _
  clear_value x1
  refine OutAll.intro ?_
  split
  · rename_i y3
    exact Keeps.refl _
  · rename_i y4
    refine Keeps.foldl _ ?_ ?_
    · exact k2
    · intro a5 a6
      refine Keeps.trans ?_ (State.logEvent_keeps _ _ _ _ _ _ _)
      refine Keeps.trans ?_ (State.updQueue_keeps _ _ _)
      exact Keeps.refl _

theorem State.serveMbox_keeps (s) (r) (op) (lenOk) (act) (hk0 : ∀ z0, ExAll (fun _ => True) (fun r => Keeps z0 ((r).1)) (act z0)) : Keeps s (State.serveMbox s r op lenOk act) := by
  unfold State.serveMbox
  split
  · rename_i y0
    exact Keeps.refl _
  · rename_i y1
    split
    · rename_i y2
      refine Keeps.trans ?_ (State.answerMbox_keeps _ _ _ _)
      exact Keeps.refl _
    · rename_i y3
      split
      · rename_i y4 y5 y6
        refine Keeps.trans ?_ (State.answerMbox_keeps _ _ _ _)
        exact Keeps.refl _
      · rename_i y8 y9 y10 y11 y12
        have k13 := ExAll.of (hk0 _) y12
        refine Keeps.trans ?_ (State.answerMbox_keeps _ _ _ _)
        refine Keeps.trans ?_ k13
        exact Keeps.refl _
      · rename_i y14 y15 y16
        have k17 := ExAll.of (hk0 _) y16
        refine Keeps.trans ?_ k17
        exact Keeps.refl _

theorem execMboxNop_keeps (r) (s) : OutAll (Keeps s) (execMboxNop r s) := by
  unfold execMboxNop
  refine OutAll.intro ?_
  refine Keeps.trans ?_ (State.serveMbox_keeps _ _ _ _ _ ?_)
  · exact Keeps.refl _
  · intro a0
    refine ExAll.intro ?_
    refine Keeps.fst ?_
    exact Keeps.refl _

theorem execSbSend_keeps (r) (s) : OutAll (Keeps s) (execSbSend r s) := by
  unfold execSbSend
  extract_lets x0 x1
  clear_value x0
  clear_value x1
  refine OutAll.intro ?_
  refine Keeps.trans ?_ (State.serveMbox_keeps _ _ _ _ _ ?_)
  · exact Keeps.refl _
  · intro a2
    refine ExAll.bind_any (fun _ => trivial) ?_
    intro a3
    split
    · rename_i y4
      refine ExAll.intro ?_
      refine Keeps.fst ?_
      exact Keeps.refl _
    · rename_i y5
      split
      · rename_i y6 y7 y8 y9
        have k10 : Keeps _ y8 := Keeps.of_snd (State.nextFrameSeq_keeps _) y9
        extract_lets x11
        clear_value x11
        refine ExAll.intro ?_
        refine Keeps.fst ?_
        refine Keeps.foldl _ ?_ ?_
        · exact k10
        · intro a12 a13
          refine Keeps.trans ?_ (State.sbPut_keeps _ _ _)
          exact Keeps.refl _

theorem execMboxTelemetry_keeps (r) (s) : OutAll (Keeps s) (execMboxTelemetry r s) := by
  unfold execMboxTelemetry
  extract_lets x0
  clear_value x0
  refine OutAll.intro ?_
  refine Keeps.trans ?_ (State.serveMbox_keeps _ _ _ _ _ ?_)
  · exact Keeps.refl _
  · intro a1
    refine ExAll.bind_any (fun _ => trivial) ?_
    intro a2
    refine ExAll.intro ?_
    refine Keeps.fst ?_
    exact Keeps.refl _

theorem execMboxConfigRead_keeps (r) (s) : OutAll (Keeps s) (execMboxConfigRead r s) := by
  unfold execMboxConfigRead
  extract_lets x0
  clear_value x0
  refine OutAll.intro ?_
  refine Keeps.trans ?_ (State.serveMbox_keeps _ _ _ _ _ ?_)
  · exact Keeps.refl _
  · intro a1
    extract_lets x2
    clear_value x2
    refine ExAll.bind_any (fun _ => trivial) ?_
    intro a3
    refine ExAll.bind_any (fun _ => trivial) ?_
    intro a4
    refine ExAll.intro ?_
    refine Keeps.fst ?_
    exact Keeps.refl _

theorem State.mboxFlash_keeps (s) (erase) (prog) (hk0 : ∀ z0, Keeps z0 (erase z0)) (hk1 : ∀ z0, Keeps z0 ((prog z0).1)) : Keeps s ((State.mboxFlash s erase prog).1) := by
  unfold State.mboxFlash
  extract_lets x0 x1
  have k2 : Keeps s (x0) := by
    subst x0
    refine Keeps.trans ?_ (hk0 _)
    exact Keeps.refl _
  clear_value x0
  clear_value x1
  split
  · rename_i y3
    split
    · rename_i y4 y5 y6 y7 y8
      have k9 : Keeps _ y5 := Keeps.of_fst (hk1 _) y8
      refine Keeps.fst ?_
      refine Keeps.trans ?_ (State.flashEnd_keeps _)
      exact k9
  · rename_i y10
    split
    · rename_i y11
      split
      · rename_i y12 y13 y14 y15
        have k16 : Keeps _ y13 := Keeps.of_fst (State.flashBusy_keeps _) y15
        refine Keeps.fst ?_
        exact k16
    · rename_i y17
      refine Keeps.fst ?_
      refine Keeps.set_boot ?_
      exact k2

theorem execMboxConfigWrite_keeps (r) (s) : OutAll (Keeps s) (execMboxConfigWrite r s) := by
  unfold execMboxConfigWrite
  extract_lets x0 x1 x2
  clear_value x0
  clear_value x1
  clear_value x2
  refine OutAll.intro ?_
  refine Keeps.trans ?_ (State.serveMbox_keeps _ _ _ _ _ ?_)
  · exact Keeps.refl _
  · intro a3
    refine ExAll.bind_any (fun _ => trivial) ?_
    intro a4
    refine ExAll.bind_any (fun _ => trivial) ?_
    intro a5
    split
    · rename_i y6
      refine ExAll.intro_error ?_
      trivial
    · rename_i y7
      refine ExAll.intro ?_
      refine Keeps.trans ?_ (State.mboxFlash_keeps _ _ _ ?_ ?_)
      · exact Keeps.refl _
      · intro a8
        refine Keeps.trans ?_ (State.flashErase_keeps _ _ _)
        exact Keeps.refl _
      · intro a9
        split
        · rename_i y10 y11 y12
          have k13 := OptAll.of (State.commitStore_keeps _ _ _) y12
          refine Keeps.fst ?_
          exact k13
        · rename_i y14 y15
          refine Keeps.fst ?_
          exact Keeps.refl _

theorem execMboxProfileSet_keeps (r) (s) : OutAll (Keeps s) (execMboxProfileSet r s) := by
  unfold execMboxProfileSet
  extract_lets x0
  clear_value x0
  refine OutAll.intro ?_
  refine Keeps.trans ?_ (State.serveMbox_keeps _ _ _ _ _ ?_)
  · exact Keeps.refl _
  · intro a1
    extract_lets x2
    clear_value x2
    refine ExAll.bind_any (fun _ => trivial) ?_
    intro a3
    refine ExAll.intro ?_
    refine Keeps.fst ?_
    refine Keeps.set_power ?_
    exact Keeps.refl _

theorem execRecoveryBegin_keeps (r) (s) : OutAll (Keeps s) (execRecoveryBegin r s) := by
  unfold execRecoveryBegin
  extract_lets x0
  clear_value x0
  refine OutAll.intro ?_
  refine Keeps.trans ?_ (State.serveMbox_keeps _ _ _ _ _ ?_)
  · exact Keeps.refl _
  · intro a1
    refine ExAll.bind_any (fun _ => trivial) ?_
    intro a2
    refine ExAll.bind_any (fun _ => trivial) ?_
    intro a3
    refine ExAll.bind_any (fun _ => trivial) ?_
    intro a4
    refine ExAll.intro ?_
    refine Keeps.trans ?_ (State.mboxFlash_keeps _ _ _ ?_ ?_)
    · exact Keeps.refl _
    · intro a5
      refine Keeps.trans ?_ (State.flashErase_keeps _ _ _)
      refine Keeps.trans ?_ (State.flashErase_keeps _ _ _)
      exact Keeps.refl _
    · intro a6
      extract_lets x7
      clear_value x7
      refine Keeps.fst ?_
      refine Keeps.set_boot ?_
      exact Keeps.refl _

theorem execRecoveryData_keeps (r) (s) : OutAll (Keeps s) (execRecoveryData r s) := by
  unfold execRecoveryData
  extract_lets x0 x1
  clear_value x0
  clear_value x1
  refine OutAll.intro ?_
  refine Keeps.trans ?_ (State.serveMbox_keeps _ _ _ _ _ ?_)
  · exact Keeps.refl _
  · intro a2
    split
    · rename_i y3 y4
      refine ExAll.intro_error ?_
      trivial
    · rename_i y5 y6 y7
      extract_lets x8
      clear_value x8
      refine ExAll.bind_any (fun _ => trivial) ?_
      intro a9
      refine ExAll.bind_any (fun _ => trivial) ?_
      intro a10
      refine ExAll.bind_any (fun _ => trivial) ?_
      intro a11
      refine ExAll.intro ?_
      refine Keeps.trans ?_ (State.mboxFlash_keeps _ _ _ ?_ ?_)
      · exact Keeps.refl _
      · intro a12
        refine Keeps.of_id ?_
        exact Keeps.refl _
      · intro a13
        extract_lets x14 x15
        have k16 : Keeps a13 (x14) := by
          subst x14
          refine Keeps.trans ?_ (State.flashWrite_keeps _ _ _)
          exact Keeps.refl _
        clear_value x14
        clear_value x15
        refine Keeps.fst ?_
        refine Keeps.set_boot ?_
        exact k16

theorem execRecoveryCommit_keeps (r) (s) : OutAll (Keeps s) (execRecoveryCommit r s) := by
  unfold execRecoveryCommit
  refine OutAll.intro ?_
  refine Keeps.trans ?_ (State.serveMbox_keeps _ _ _ _ _ ?_)
  · exact Keeps.refl _
  · intro a0
    split
    · rename_i y1 y2
      refine ExAll.intro_error ?_
      trivial
    · rename_i y3 y4 y5
      extract_lets x6 x7
      clear_value x6
      clear_value x7
      refine ExAll.bind_any (fun _ => trivial) ?_
      intro a8
      refine ExAll.bind_any (fun _ => trivial) ?_
      intro a9
      refine ExAll.bind_any (fun _ => trivial) ?_
      intro a10
      refine ExAll.bind_any (fun _ => trivial) ?_
      intro a11
      refine ExAll.bind_any (fun _ => trivial) ?_
      intro a12
      refine ExAll.intro ?_
      refine Keeps.trans ?_ (State.mboxFlash_keeps _ _ _ ?_ ?_)
      · exact Keeps.refl _
      · intro a13
        refine Keeps.trans ?_ (State.flashErase_keeps _ _ _)
        exact Keeps.refl _
      · intro a14
        extract_lets x15 x16 x17
        clear_value x15
        have k18 : Keeps a14 (x16) := by
          subst x16
          refine Keeps.trans ?_ (State.flashWrite_keeps _ _ _)
          exact Keeps.refl _
        clear_value x16
        clear_value x17
        refine Keeps.fst ?_
        refine Keeps.set_boot ?_
        exact k18

theorem State.loseBank_keeps (s) : Keeps s (State.loseBank s) := by
  unfold State.loseBank
  refine Keeps.trans ?_ (State.logEvent_keeps _ _ _ _ _ _ _)
  refine Keeps.trans ?_ (State.flashErase_keeps _ _ _)
  exact Keeps.refl _

theorem State.loseSlot_keeps (s) (k) : Keeps s (State.loseSlot s k) := by
  unfold State.loseSlot
  refine Keeps.trans ?_ (State.logEvent_keeps _ _ _ _ _ _ _)
  refine Keeps.trans ?_ (State.flashErase_keeps _ _ _)
  exact Keeps.refl _

theorem execFlashTimeout_keeps (s) : OutAll (Keeps s) (execFlashTimeout s) := by
  unfold execFlashTimeout
  extract_lets x0
  have k1 : Keeps s (x0) := by
    subst x0
    refine Keeps.trans ?_ (State.flashEnd_keeps _)
    exact Keeps.refl _
  clear_value x0
  refine OutAll.intro ?_
  split
  · rename_i y2 y3
    exact Keeps.refl _
  · rename_i y4 y5 y6
    split
    · rename_i y7 y8 y9
      split
      · rename_i y10 y11
        exact k1
      · rename_i y12 y13 y14
        extract_lets x15
        have k16 : Keeps s (x15) := by
          subst x15
          refine Keeps.trans ?_ (State.finish_keeps _ _ _)
          exact k1
        clear_value x15
        split
        · rename_i y17
          refine Keeps.trans ?_ (State.loseBank_keeps _)
          exact k16
        · rename_i y18
          refine Keeps.trans ?_ (State.loseSlot_keeps _ _)
          exact k16
    · rename_i y19 y20
      split
      · rename_i y21 y22
        exact k1
      · rename_i y23 y24 y25
        extract_lets x26
        have k27 : Keeps s (x26) := by
          subst x26
          split
          · rename_i y28
            refine Keeps.trans ?_ (State.loseBank_keeps _)
            exact k1
          · rename_i y29
            refine Keeps.trans ?_ (State.loseSlot_keeps _ _)
            exact k1
        clear_value x26
        refine Keeps.trans ?_ (State.answerMbox_keeps _ _ _ _)
        exact k27

theorem State.sideAnswer_keeps (s) (b1) (bs) : Keeps s (State.sideAnswer s b1 bs) := by
  unfold State.sideAnswer
  extract_lets x0
  clear_value x0
  refine Keeps.set_side ?_
  exact Keeps.refl _

theorem State.mctpControl_keeps (s) (b) : Keeps s (State.mctpControl s b) := by
  unfold State.mctpControl
  extract_lets x0 x1 x2 x3
  clear_value x0
  clear_value x1
  clear_value x2
  clear_value x3
  split
  · rename_i y4 y5
    split
    · rename_i y6
      refine Keeps.trans ?_ (State.sideAnswer_keeps _ _ _)
      exact Keeps.refl _
    · rename_i y7
      refine Keeps.trans ?_ (State.sideAnswer_keeps _ _ _)
      refine Keeps.set_side ?_
      exact Keeps.refl _
  · rename_i y8 y9
    refine Keeps.trans ?_ (State.sideAnswer_keeps _ _ _)
    exact Keeps.refl _
  · rename_i y10 y11
    refine Keeps.trans ?_ (State.sideAnswer_keeps _ _ _)
    exact Keeps.refl _
  · rename_i y12 y13
    refine Keeps.trans ?_ (State.sideAnswer_keeps _ _ _)
    exact Keeps.refl _
  · rename_i y14 y15
    split
    · rename_i y16 y17 y18 y19
      have k20 : Keeps _ y18 := Keeps.of_snd (State.draw_keeps _ _) y19
      refine Keeps.trans ?_ (State.sideAnswer_keeps _ _ _)
      exact k20
  · rename_i y21 y22 y23 y24 y25 y26
    refine Keeps.trans ?_ (State.sideAnswer_keeps _ _ _)
    exact Keeps.refl _

theorem State.pldm_keeps (s) (b) : Keeps s (State.pldm s b) := by
  unfold State.pldm
  extract_lets x0
  clear_value x0
  split
  · rename_i y1
    refine Keeps.trans ?_ (State.sideAnswer_keeps _ _ _)
    exact Keeps.refl _
  · rename_i y2
    split
    · rename_i y3 y4 y5
      refine Keeps.trans ?_ (State.sideAnswer_keeps _ _ _)
      exact Keeps.refl _
    · rename_i y6 y7
      refine Keeps.trans ?_ (State.sideAnswer_keeps _ _ _)
      exact Keeps.refl _

theorem State.sideBusy_keeps (s) (m) : Keeps s (State.sideBusy s m) := by
  unfold State.sideBusy
  split
  · rename_i y0
    refine Keeps.trans ?_ (State.turnAwayMbox_keeps _ _)
    exact Keeps.refl _
  · rename_i y1
    refine Keeps.trans ?_ (State.sideAnswer_keeps _ _ _)
    exact Keeps.refl _

theorem execMctpRequest_keeps (m) (s) : OutAll (Keeps s) (execMctpRequest m s) := by
  unfold execMctpRequest
  extract_lets x0 x1 x2
  clear_value x0
  clear_value x1
  have k3 : Keeps s (x2) := by
    subst x2
    refine Keeps.set_side ?_
    exact Keeps.refl _
  clear_value x2
  refine OutAll.intro ?_
  split
  · rename_i y4
    exact Keeps.refl _
  · rename_i y5
    split
    · rename_i y6
      refine Keeps.set_power ?_
      exact Keeps.refl _
    · rename_i y7
      split
      · rename_i y8
        refine Keeps.trans ?_ (State.sideBusy_keeps _ _)
        exact k3
      · rename_i y9
        split
        · rename_i y10
          refine Keeps.trans ?_ (State.mctpControl_keeps _ _)
          exact k3
        · rename_i y11
          split
          · rename_i y12
            refine Keeps.trans ?_ (State.pldm_keeps _ _)
            exact k3
          · rename_i y13
            refine Keeps.trans ?_ (State.submitMbox_keeps _ _)
            exact k3

theorem execSmbusClockTimeout_keeps (s) : OutAll (Keeps s) (execSmbusClockTimeout s) := by
  unfold execSmbusClockTimeout
  extract_lets x0
  clear_value x0
  refine OutAll.intro ?_
  refine Keeps.set_side ?_
  exact Keeps.refl _

theorem execTapInstruction_keeps (code) (s) : OutAll (Keeps s) (execTapInstruction code s) := by
  unfold execTapInstruction
  extract_lets x0
  clear_value x0
  refine OutAll.intro ?_
  refine Keeps.set_side ?_
  exact Keeps.refl _

theorem State.noIdentity_keeps (s) : Keeps s (State.noIdentity s) := by
  unfold State.noIdentity
  extract_lets x0
  clear_value x0
  refine Keeps.trans ?_ (State.addCause_keeps _ _ _)
  refine Keeps.set_boot ?_
  exact Keeps.refl _

theorem State.identify_keeps (s) (puf) (late) : Keeps s (State.identify s puf late) := by
  unfold State.identify
  extract_lets x0 x1 x2 x3
  clear_value x0
  clear_value x1
  have k4 : Keeps s (x2) := by
    subst x2
    split
    · rename_i y5
      exact Keeps.refl _
    · rename_i y6 y7 y8
      refine Keeps.set_boot ?_
      exact Keeps.refl _
  clear_value x2
  clear_value x3
  split
  · rename_i y9 y10
    refine Keeps.trans ?_ (State.noIdentity_keeps _)
    exact k4
  · rename_i y11 y12 y13
    extract_lets x14 x15
    have k16 : Keeps s (x14) := by
      subst x14
      refine Keeps.set_boot ?_
      exact k4
    clear_value x14
    clear_value x15
    refine Keeps.set_boot ?_
    exact k16

theorem State.enterRecovery_keeps (s) : Keeps s (State.enterRecovery s) := by
  unfold State.enterRecovery
  extract_lets x0 x1 x2
  clear_value x0
  clear_value x1
  clear_value x2
  refine Keeps.set_boot_bus ?_
  exact Keeps.refl _

theorem State.readPower_keeps (s) : Keeps s (State.readPower s) := by
  unfold State.readPower
  extract_lets x0 x1 x2 x3 x4 x5
  clear_value x0
  clear_value x1
  clear_value x2
  clear_value x3
  clear_value x4
  have k6 : Keeps s (x5) := by
    subst x5
    refine Keeps.set_power ?_
    exact Keeps.refl _
  clear_value x5
  refine Keeps.foldl _ ?_ ?_
  · exact k6
  · intro a7 a8
    refine Keeps.trans ?_ (State.sensorEntry_keeps _ _ _ _)
    exact Keeps.refl _

theorem State.createAdmin_keeps (s) : Keeps s (State.createAdmin s) := by
  unfold State.createAdmin
  refine Keeps.trans ?_ (State.newKey_keeps _ _)
  exact Keeps.of_parts rfl rfl id (Bounded.set (by omega)) (Bounded.set (by omega)) id

theorem State.startFirmware_keeps (s) : Keeps s (State.startFirmware s) := by
  unfold State.startFirmware
  extract_lets x0
  have k1 : Keeps s (x0) := by
    subst x0
    refine Keeps.trans ?_ (State.readPower_keeps _)
    exact Keeps.refl _
  clear_value x0
  refine Keeps.trans ?_ (State.createAdmin_keeps _)
  split
  · rename_i y2
    refine Keeps.trans ?_ (State.addCause_keeps _ _ _)
    exact k1
  · rename_i y3
    exact k1

theorem State.stackFails_keeps (s) (k) : Keeps s (State.stackFails s k) := by
  unfold State.stackFails
  extract_lets x0
  clear_value x0
  refine Keeps.trans ?_ (State.addCause_keeps _ _ _)
  refine Keeps.set_boot ?_
  exact Keeps.refl _

theorem State.includeDdr_keeps (s) (ds) : Keeps s (State.includeDdr s ds) := by
  unfold State.includeDdr
  extract_lets x0 x1 x2 x3 x4
  clear_value x0
  clear_value x1
  clear_value x2
  have k5 : Keeps s (x3) := by
    subst x3
    refine Keeps.foldl _ ?_ ?_
    · exact Keeps.refl _
    · intro a6 a7
      split
      · rename_i y8 y9 y10
        refine Keeps.trans ?_ (State.logEvent_keeps _ _ _ _ _ _ _)
        exact Keeps.refl _
      · rename_i y11 y12
        exact Keeps.refl _
  clear_value x3
  clear_value x4
  refine Keeps.set_ddrChannels_ddrGib_ddrRate_boot ?_
  exact k5

theorem State.portRefused_keeps (s) (p) (off) : Keeps s (State.portRefused s p off) := by
  unfold State.portRefused
  refine Keeps.trans ?_ (State.logEvent_keeps _ _ _ _ _ _ _)
  exact Keeps.refl _

theorem State.readPorts_keeps (s) : Keeps s (State.readPorts s) := by
  unfold State.readPorts
  extract_lets x0 x1 x2 x3 x4 x5
  clear_value x0
  clear_value x1
  clear_value x2
  clear_value x3
  clear_value x4
  have k6 : Keeps s (x5) := by
    subst x5
    refine Keeps.set_fabric ?_
    exact Keeps.refl _
  clear_value x5
  split
  · rename_i y7 y8
    refine Keeps.trans ?_ (State.portRefused_keeps _ _ _)
    exact k6
  · rename_i y9
    refine Keeps.foldl _ ?_ ?_
    · exact k6
    · intro a10 a11
      split
      · rename_i y12 y13 y14
        refine Keeps.trans ?_ (State.portRefused_keeps _ _ _)
        exact Keeps.refl _
      · rename_i y15 y16
        exact Keeps.refl _

theorem State.readBus_keeps (s) : Keeps s (State.readBus s) := by
  unfold State.readBus
  extract_lets x0 x1 x2 x3 x4 x5
  clear_value x0
  clear_value x1
  clear_value x2
  clear_value x3
  clear_value x4
  have k6 : Keeps s (x5) := by
    subst x5
    refine Keeps.set_bus ?_
    exact Keeps.refl _
  clear_value x5
  refine Keeps.foldl _ ?_ ?_
  · exact k6
  · intro a7 a8
    split
    · rename_i y9 y10 y11 y12
      have k13 : Keeps _ y11 := Keeps.of_snd (State.draw_keeps _ _) y12
      refine Keeps.trans ?_ (State.sbEvent_keeps _ _ _)
      exact k13

theorem State.reachReady_keeps (s) : Keeps s (State.reachReady s) := by
  unfold State.reachReady
  extract_lets x0 x1 x2
  have k3 : Keeps s (x0) := by
    subst x0
    refine Keeps.trans ?_ (State.ownStore_keeps _ _ _)
    exact Keeps.refl _
  clear_value x0
  clear_value x1
  have k4 : Keeps s (x2) := by
    subst x2
    split
    · rename_i y5
      exact Keeps.refl _
    · rename_i y6
      refine Keeps.set_boot ?_
      exact k3
  clear_value x2
  split
  · rename_i y7
    refine Keeps.trans ?_ (State.ownStore_keeps _ _ _)
    exact k4
  · rename_i y8
    exact k4

theorem State.runStage_keeps (s) (e) (k) : Keeps s (State.runStage s e k) := by
  unfold State.runStage
  extract_lets x0
  have k1 : Keeps s (x0) := by
    subst x0
    refine Keeps.trans ?_ (State.selectFw_keeps _ _ _)
    exact Keeps.refl _
  clear_value x0
  split
  · rename_i y2
    refine Keeps.trans ?_ (State.identify_keeps _ _ _)
    exact Keeps.refl _
  · rename_i y3
    split
    · rename_i y4
      exact Keeps.refl _
    · rename_i y5
      refine Keeps.trans ?_ (State.enterRecovery_keeps _)
      exact Keeps.refl _
  · rename_i y6
    refine Keeps.trans ?_ (State.selectStore_keeps _)
    exact Keeps.refl _
  · rename_i y7
    split
    · rename_i y8
      refine Keeps.trans ?_ (State.enterRecovery_keeps _)
      exact k1
    · rename_i y9
      exact k1
  · rename_i y10
    refine Keeps.trans ?_ (State.startFirmware_keeps _)
    exact Keeps.refl _
  · rename_i y11
    split
    · rename_i y12 y13 y14
      refine Keeps.trans ?_ (State.stackFails_keeps _ _)
      exact Keeps.refl _
    · rename_i y15 y16
      exact Keeps.refl _
  · rename_i y17
    split
    · rename_i y18
      refine Keeps.trans ?_ (State.includeDdr_keeps _ _)
      exact Keeps.refl _
    · rename_i y19
      exact Keeps.refl _
  · rename_i y20
    refine Keeps.trans ?_ (State.readBus_keeps _)
    refine Keeps.trans ?_ (State.readPorts_keeps _)
    exact Keeps.refl _
  · rename_i y21 y22 y23 y24 y25 y26 y27 y28 y29
    refine Keeps.trans ?_ (State.reachReady_keeps _)
    exact Keeps.refl _

theorem State.failStage_keeps (s) (e) (k) : Keeps s (State.failStage s e k) := by
  unfold State.failStage
  extract_lets x0
  clear_value x0
  split
  · rename_i y1
    refine Keeps.trans ?_ (State.identify_keeps _ _ _)
    exact Keeps.refl _
  · rename_i y2
    refine Keeps.trans ?_ (State.enterRecovery_keeps _)
    exact Keeps.refl _
  · rename_i y3
    refine Keeps.set_boot ?_
    exact Keeps.refl _
  · rename_i y4
    refine Keeps.trans ?_ (State.enterRecovery_keeps _)
    exact Keeps.refl _
  · rename_i y5
    split
    · rename_i y6 y7 y8 y9
      have k10 : Keeps _ y8 := Keeps.of_snd (State.draw_keeps _ _) y9
      extract_lets x11
      clear_value x11
      refine Keeps.trans ?_ (State.logEvent_keeps _ _ _ _ _ _ _)
      refine Keeps.set_boot ?_
      exact k10
  · rename_i y12
    split
    · rename_i y13 y14 y15 y16
      have k17 : Keeps _ y15 := Keeps.of_snd (State.draw_keeps _ _) y16
      refine Keeps.trans ?_ (State.stackFails_keeps _ _)
      exact k17
  · rename_i y18 y19 y20 y21 y22 y23 y24
    refine Keeps.trans ?_ (State.includeDdr_keeps _ _)
    exact Keeps.refl _

theorem State.bootFrom_keeps (e) (b1) (b2) : Keeps b2 (State.bootFrom e b1 b2) := by
  induction b1 generalizing e b2 with
  | nil =>
    rw [State.bootFrom]
    extract_lets x0
    clear_value x0
    refine Keeps.set_boot ?_
    exact Keeps.refl _
  | cons x1 x2 ih =>
    rw [State.bootFrom]
    extract_lets x1 x2 x3
    clear_value x1
    have k4 : Keeps b2 (x2) := by
      subst x2
      refine Keeps.trans ?_ (State.runStage_keeps _ _ _)
      exact Keeps.refl _
    clear_value x2
    clear_value x3
    split
    · rename_i y5
      refine Keeps.set_boot ?_
      exact Keeps.refl _
    · rename_i y6
      split
      · rename_i y7
        refine Keeps.set_boot ?_
        exact k4
      · rename_i y8
        refine Keeps.trans ?_ (ih ..)
        refine Keeps.set_boot ?_
        exact k4

theorem State.meetFlash_keeps (s) (e) : Keeps s (State.meetFlash s e) := by
  unfold State.meetFlash
  extract_lets x0
  clear_value x0
  refine Keeps.set_boot ?_
  exact Keeps.refl _

theorem execBootStageTimeout_keeps (e) (s) : OutAll (Keeps s) (execBootStageTimeout e s) := by
  unfold execBootStageTimeout
  extract_lets x0 x1 x2
  clear_value x0
  have k3 : Keeps s (x1) := by
    subst x1
    refine Keeps.trans ?_ (State.failStage_keeps _ _ _)
    exact Keeps.refl _
  clear_value x1
  clear_value x2
  refine OutAll.intro ?_
  split
  · rename_i y4
    exact Keeps.refl _
  · rename_i y5
    split
    · rename_i y6
      refine Keeps.set_boot ?_
      exact k3
    · rename_i y7
      refine Keeps.trans ?_ (State.bootFrom_keeps _ _ _)
      refine Keeps.set_boot ?_
      exact k3

theorem State.resetEntry_keeps (s) (cause) (stage) : Keeps s (State.resetEntry s cause stage) := by
  unfold State.resetEntry
  refine Keeps.trans ?_ (State.logEvent_keeps _ _ _ _ _ _ _)
  exact Keeps.refl _

theorem State.coldState_keeps (s) : Keeps s (State.coldState s) := by
  unfold State.coldState
  refine Keeps.of_parts rfl rfl (fun _ => ?_) (fun _ => Bounded.nil _) (fun _ => Bounded.nil _) fun h => ?_
  · simp [State.platesOk, List.map_map, Function.comp_def]
  · exact Memory.wf_of_filter (m := s.mem) _ rfl (fun _ _ _ => rfl) h

theorem execColdReset_keeps (e) (s) : OutAll (Keeps s) (execColdReset e s) := by
  unfold execColdReset
  extract_lets x0 x1 x2
  clear_value x0
  have k3 : Keeps s (x1) := by
    subst x1
    refine Keeps.trans ?_ (State.meetFlash_keeps _ _)
    refine Keeps.trans ?_ (State.resetEntry_keeps _ _ _)
    refine Keeps.trans ?_ (State.coldState_keeps _)
    exact Keeps.refl _
  clear_value x1
  clear_value x2
  refine OutAll.intro ?_
  split
  · rename_i y4
    refine Keeps.set_boot ?_
    exact k3
  · rename_i y5
    refine Keeps.trans ?_ (State.bootFrom_keeps _ _ _)
    exact k3

theorem State.warmState_keeps (s) : Keeps s (State.warmState s) := by
  unfold State.warmState
  extract_lets x0 x1 x2 x3 x4 x5 x6 x7 x8
  have k9 : Keeps s (x0) := by
    subst x0
    refine Keeps.trans ?_ (State.clearCore_keeps _)
    exact Keeps.refl _
  clear_value x0
  clear_value x1
  clear_value x2
  clear_value x3
  clear_value x4
  clear_value x5
  clear_value x6
  clear_value x7
  clear_value x8
  refine Keeps.set_host_mbox_fabric_mgmtOnly_boot_bus_power_spare ?_
  exact k9

theorem State.warmReset_keeps (s) (e) (cause) : Keeps s (State.warmReset s e cause) := by
  unfold State.warmReset
  extract_lets x0 x1 x2
  clear_value x0
  have k3 : Keeps s (x1) := by
    subst x1
    refine Keeps.trans ?_ (State.meetFlash_keeps _ _)
    refine Keeps.trans ?_ (State.resetEntry_keeps _ _ _)
    refine Keeps.trans ?_ (State.warmState_keeps _)
    exact Keeps.refl _
  clear_value x1
  have k4 : Keeps s (x2) := by
    subst x2
    split
    · rename_i y5
      refine Keeps.trans ?_ (State.noIdentity_keeps _)
      exact k3
    · rename_i y6
      exact k3
  clear_value x2
  refine Keeps.trans ?_ (State.bootFrom_keeps _ _ _)
  exact k4

theorem execWarmReset_keeps (e) (s) : OutAll (Keeps s) (execWarmReset e s) := by
  unfold execWarmReset
  refine OutAll.intro ?_
  split
  · rename_i y0
    refine Keeps.trans ?_ (State.warmReset_keeps _ _ _)
    exact Keeps.refl _
  · rename_i y1
    exact Keeps.refl _

theorem execPerstReset_keeps (e) (s) : OutAll (Keeps s) (execPerstReset e s) := by
  unfold execPerstReset
  extract_lets x0 x1
  have k2 : Keeps s (x0) := by
    subst x0
    refine Keeps.trans ?_ (State.warmReset_keeps _ _ _)
    exact Keeps.refl _
  clear_value x0
  clear_value x1
  refine OutAll.intro ?_
  split
  · rename_i y3
    refine Keeps.set_host ?_
    exact k2
  · rename_i y4
    exact Keeps.refl _

theorem execWatchdogReset_keeps (e) (s) : OutAll (Keeps s) (execWatchdogReset e s) := by
  unfold execWatchdogReset
  refine OutAll.intro ?_
  split
  · rename_i y0
    refine Keeps.trans ?_ (State.warmReset_keeps _ _ _)
    exact Keeps.refl _
  · rename_i y1
    exact Keeps.refl _

theorem execDelayedWarmReset_keeps (e) (s) : OutAll (Keeps s) (execDelayedWarmReset e s) := by
  unfold execDelayedWarmReset
  refine OutAll.intro ?_
  split
  · rename_i y0
    refine Keeps.trans ?_ (State.warmReset_keeps _ _ _)
    exact Keeps.refl _
  · rename_i y1
    exact Keeps.refl _

theorem execRailRecovered_keeps (e) (s) : OutAll (Keeps s) (execRailRecovered e s) := by
  unfold execRailRecovered
  extract_lets x0 x1
  clear_value x0
  have k2 : Keeps s (x1) := by
    subst x1
    refine Keeps.set_power ?_
    exact Keeps.refl _
  clear_value x1
  refine OutAll.intro ?_
  split
  · rename_i y3
    exact Keeps.refl _
  · rename_i y4
    split
    · rename_i y5
      refine Keeps.trans ?_ (State.warmReset_keeps _ _ _)
      exact k2
    · rename_i y6
      exact k2

theorem execFabclkRestored_keeps (e) (s) : OutAll (Keeps s) (execFabclkRestored e s) := by
  unfold execFabclkRestored
  extract_lets x0 x1
  clear_value x0
  have k2 : Keeps s (x1) := by
    subst x1
    refine Keeps.set_power ?_
    exact Keeps.refl _
  clear_value x1
  refine OutAll.intro ?_
  split
  · rename_i y3
    exact Keeps.refl _
  · rename_i y4
    split
    · rename_i y5
      refine Keeps.trans ?_ (State.warmReset_keeps _ _ _)
      exact k2
    · rename_i y6
      exact k2

theorem execWakeRailsInWindow_keeps (e) (s) : OutAll (Keeps s) (execWakeRailsInWindow e s) := by
  unfold execWakeRailsInWindow
  extract_lets x0 x1 x2 x3 x4
  have k5 : Keeps s (x0) := by
    subst x0
    refine Keeps.trans ?_ (State.warmState_keeps _)
    exact Keeps.refl _
  clear_value x0
  clear_value x1
  clear_value x2
  clear_value x3
  have k6 : Keeps s (x4) := by
    subst x4
    refine Keeps.set_fabric_boot_spare ?_
    exact k5
  clear_value x4
  refine OutAll.intro ?_
  split
  · rename_i y7
    exact Keeps.refl _
  · rename_i y8
    refine Keeps.trans ?_ (State.bootFrom_keeps _ _ _)
    refine Keeps.trans ?_ (State.meetFlash_keeps _ _)
    exact k6

theorem State.silence_keeps (s) (gone) : Keeps s (State.silence s gone) := by
  unfold State.silence
  extract_lets x0 x1
  clear_value x0
  have k2 : Keeps s x1 := by
    subst x1
    refine Keeps.foldl _ ?_ ?_
    · exact Keeps.refl _
    · intro a3 a4
      refine Keeps.trans ?_ (State.unhook_keeps _ _)
      exact Keeps.refl _
  clear_value x1
  refine Keeps.set_cmds ?_
  exact k2

theorem execFunctionLevelReset_keeps (s) : OutAll (Keeps s) (execFunctionLevelReset s) := by
  unfold execFunctionLevelReset
  refine OutAll.intro ?_
  split
  · exact Keeps.refl _
  · extract_lets s1 s2 mine s3
    have k2 : Keeps s s2 := (State.resetEntry_keeps _ _ _).trans (State.silence_keeps _ _)
    clear_value s2
    have k3 : Keeps s s3 := by
      subst s3
      split
      · exact k2.trans (State.closeAdmq_keeps _)
      · exact k2
    clear_value s3
    refine Keeps.foldl _ (Keeps.trans (t := s3) k3 ?_) fun s n => (State.destroyCtx_keeps s n)
    exact Keeps.of_parts rfl rfl id id (fun _ => Bounded.set (k := 0) (n := 1024) (l := []) (by decide) (Bounded.nil _)) id

theorem State.auxReset_keeps (s) : Keeps s (State.auxReset s) := by
  unfold State.auxReset
  extract_lets x0 x1 x2 x3
  have k4 : Keeps s (x0) := by
    subst x0
    refine Keeps.trans ?_ (State.coldState_keeps _)
    exact Keeps.refl _
  clear_value x0
  clear_value x1
  clear_value x2
  clear_value x3
  refine Keeps.set_log_boot_power_side ?_
  exact k4

theorem execVaux3v3Loss_keeps (s) : OutAll (Keeps s) (execVaux3v3Loss s) := by
  unfold execVaux3v3Loss
  refine OutAll.intro ?_
  refine Keeps.trans ?_ (State.auxReset_keeps _)
  exact Keeps.refl _

theorem execVaux3v3PowerOn_keeps (s) : OutAll (Keeps s) (execVaux3v3PowerOn s) := by
  unfold execVaux3v3PowerOn
  refine OutAll.intro ?_
  refine Keeps.trans ?_ (State.auxReset_keeps _)
  exact Keeps.refl _

end Sys2Proof.Machine
end

