-- ==== Sys2Proof/Laws/KeepsExec.lean ====
section
/-! SUPPORT. What admission, stroke boundaries and every command keep: one lemma for each operation that answers a state. -/

namespace Sys2Proof.Machine

open Sys2Proof

theorem Keeps.set_cmds_admissions {b s : State} {v_cmds} {v_admissions} (h : Keeps b s) :
    Keeps b { s with cmds := v_cmds, admissions := v_admissions } :=
  h.trans (Keeps.of_fields rfl rfl rfl rfl rfl rfl)

theorem State.admitCmd_keeps (s) (n) (c) : Keeps s (State.admitCmd s n c) := by
  unfold State.admitCmd
  extract_lets x0 x1 x2 x3 x4
  clear_value x0
  have k5 : Keeps s (x1) := by
    subst x1
    split
    · rename_i y6
      refine Keeps.trans ?_ (State.noteWrites_keeps _ _ _)
      refine Keeps.trans ?_ (State.noteAdmission_keeps _ _ _)
      exact Keeps.refl _
    · rename_i y7
      exact Keeps.refl _
  clear_value x1
  have k8 : Keeps s (x2) := by
    subst x2
    split
    · rename_i y9 y10 y11
      refine Keeps.trans ?_ (State.updCtx_keeps _ _ _)
      exact k5
    · rename_i y12 y13
      refine Keeps.trans ?_ k5
      exact Keeps.refl _
  clear_value x2
  have k14 : Keeps s (x3) := by
    subst x3
    refine Keeps.trans ?_ (State.updCtx_keeps _ _ _)
    exact k8
  clear_value x3
  have k15 : Keeps s (x4) := by
    subst x4
    split
    · rename_i y16
      refine Keeps.trans ?_ (State.admitBucket_keeps _ _ _)
      exact k14
    · rename_i y17
      exact k14
  clear_value x4
  refine Keeps.trans ?_ (State.noteStream_keeps _ _)
  refine Keeps.trans ?_ (State.noteRound_keeps _ _ _)
  refine Keeps.trans ?_ (State.noteShard_keeps _ _)
  exact k15

theorem State.admitGroup_keeps (s) (n) (x) (group) : Keeps s (State.admitGroup s n x group) := by
  unfold State.admitGroup
  extract_lets x0 x1
  clear_value x0
  have k2 : Keeps s x1 := by
    subst x1
    refine Keeps.set_cmds_admissions ?_
    exact Keeps.refl _
  clear_value x1
  refine Keeps.foldl _ ?_ ?_
  · exact k2
  · intro a3 a4
    refine Keeps.trans ?_ (State.admitCmd_keeps _ _ _)
    exact Keeps.refl _

theorem State.refuseGroup_keeps (s) (group) (fails) : Keeps s (State.refuseGroup s group fails) := by
  unfold State.refuseGroup
  refine Keeps.foldl _ ?_ ?_
  · exact Keeps.refl _
  · intro a0 a1
    extract_lets x2
    have k3 : Keeps a0 x2 := by
      subst x2
      split
      · rename_i y4 y5 y6
        refine Keeps.trans ?_ (State.noteWalk_keeps _ _ _ _)
        refine Keeps.trans ?_ (State.notePin_keeps _ _ _ _)
        exact Keeps.refl _
      · rename_i y7 y8
        exact Keeps.refl _
    clear_value x2
    refine Keeps.trans ?_ (State.updCmd_keeps _ _ _ _)
    exact k3

theorem State.passQueue_keeps (s) (q) : Keeps s (State.passQueue s q).1 := by
  unfold State.passQueue
  split
  · rename_i y0 y1
    refine Keeps.fst ?_
    exact Keeps.refl _
  · rename_i y2 y3 y4
    split
    · rename_i y5 y6 y7
      refine Keeps.fst ?_
      exact Keeps.refl _
    · rename_i y8 y9 y10 y11
      refine Keeps.fst ?_
      exact Keeps.refl _
    · rename_i y12 y13 y14 y15 y16 y17 y18
      split
      · rename_i y19
        refine Keeps.fst ?_
        exact Keeps.refl _
      · rename_i y20
        extract_lets x21 x22 x23 x24
        clear_value x21
        clear_value x22
        clear_value x23
        have k25 : Keeps s x24 := by
          subst x24
          refine Keeps.trans ?_ (State.inkSample_keeps _ _ _)
          exact Keeps.refl _
        clear_value x24
        split
        · rename_i y26
          refine Keeps.fst ?_
          refine Keeps.trans ?_ (State.refuseGroup_keeps _ _ _)
          exact k25
        · rename_i y27
          split
          · rename_i y28
            refine Keeps.fst ?_
            refine Keeps.trans ?_ (State.admitGroup_keeps _ _ _ _)
            exact k25
          · rename_i y29
            refine Keeps.fst ?_
            exact k25

theorem State.markPass_keeps (s) (d) : Keeps s (State.markPass s d) := by
  unfold State.markPass
  refine Keeps.set_cmds ?_
  exact Keeps.refl _

theorem State.pass_keeps (s) (d) : Keeps s (State.pass s d) := by
  unfold State.pass
  split
  · rename_i y0 y1
    exact Keeps.refl _
  · rename_i y2 y3 y4
    refine Keeps.foldl _ ?_ ?_
    · refine Keeps.trans ?_ (State.markPass_keeps _ _)
      exact Keeps.refl _
    · intro a5 a6
      extract_lets x7 x8
      have k9 : Keeps a5 (x7).1 := by
        subst x7
        refine Keeps.trans ?_ (State.passQueue_keeps _ _)
        exact Keeps.refl _
      clear_value x7
      have k10 : Keeps a5 x8 := by
        subst x8
        exact k9
      clear_value x8
      split
      · rename_i y11
        refine Keeps.set_dispatchers ?_
        exact k10
      · rename_i y12
        exact k9

theorem execAdmissionPass_keeps (dispatcher) (s) : OutAll (Keeps s) (execAdmissionPass dispatcher s) := by
  unfold execAdmissionPass
  refine OutAll.intro ?_
  split
  · rename_i y0
    exact Keeps.refl _
  · rename_i y1
    refine Keeps.trans ?_ (State.pass_keeps _ _)
    exact Keeps.refl _

theorem State.countCancelled_keeps (s) (q) (e) : Keeps s (State.countCancelled s q e) := by
  unfold State.countCancelled
  split
  · rename_i y0
    refine Keeps.trans ?_ (State.updQueue_keeps _ _ _)
    exact Keeps.refl _
  · rename_i y1
    exact Keeps.refl _

theorem State.settle_keeps (s) (c) (e) : Keeps s (State.settle s c e) := by
  unfold State.settle
  extract_lets x0 x1 x2 x3 x4 x5 x6 x7
  clear_value x0
  clear_value x1
  clear_value x2
  have k8 : Keeps s (x3) := by
    subst x3
    refine Keeps.trans ?_ (State.countCancelled_keeps _ _ _)
    refine Keeps.trans ?_ (State.extendRound_keeps _ _ _ _)
    exact Keeps.refl _
  clear_value x3
  have k9 : Keeps s (x4) := by
    subst x4
    split
    · rename_i y10
      refine Keeps.set_buckets ?_
      exact k8
    · rename_i y11
      exact k8
  clear_value x4
  have k12 : Keeps s (x5) := by
    subst x5
    split
    · rename_i y13
      refine Keeps.trans ?_ (State.updStream_keeps _ _ _)
      exact k9
    · rename_i y14
      exact k9
  clear_value x5
  have k15 : Keeps s (x6) := by
    subst x6
    split
    · rename_i y16
      refine Keeps.trans ?_ (State.tryClose_keeps _ _)
      exact k12
    · rename_i y17
      exact k12
  clear_value x6
  have k18 : Keeps s (x7) := by
    subst x7
    split
    · rename_i y19
      refine Keeps.trans ?_ (State.ledgerFlag_keeps _ _ _ _)
      exact k15
    · rename_i y20
      exact k15
  clear_value x7
  split
  · rename_i y21
    refine Keeps.trans ?_ (State.mediaAbort_keeps _ _ _)
    exact k18
  · rename_i y22
    exact k18

theorem State.completeNow_keeps (s) (c) (e) : Keeps s (State.completeNow s c e) := by
  unfold State.completeNow
  extract_lets x0
  have k1 : Keeps s (x0).1 := by
    subst x0
    refine Keeps.trans ?_ (State.applySignal_keeps _ _ _)
    exact Keeps.refl _
  clear_value x0
  refine Keeps.trans ?_ (State.cancelNow_keeps _)
  refine Keeps.trans ?_ (State.complete_keeps _ _ _)
  refine Keeps.trans ?_ (State.settle_keeps _ _ _)
  exact k1

theorem execCommandComplete_keeps (queue) (seq) (s) : OutAll (Keeps s) (execCommandComplete queue seq s) := by
  unfold execCommandComplete
  refine OutAll.intro ?_
  split
  · rename_i y0 y1
    exact Keeps.refl _
  · rename_i y2 y3 y4
    split
    · rename_i y5 y6 y7
      split
      · rename_i y8
        exact Keeps.refl _
      · rename_i y9
        split
        · rename_i y10
          refine Keeps.trans ?_ (State.updCmd_keeps _ _ _ _)
          exact Keeps.refl _
        · rename_i y11
          refine Keeps.trans ?_ (State.completeNow_keeps _ _ _)
          exact Keeps.refl _
    · rename_i y12 y13
      exact Keeps.refl _

theorem execGlobalFlushDone_keeps (queue) (seq) (s) : OutAll (Keeps s) (execGlobalFlushDone queue seq s) := by
  unfold execGlobalFlushDone
  refine OutAll.intro ?_
  split
  · rename_i y0 y1
    exact Keeps.refl _
  · rename_i y2 y3 y4
    split
    · rename_i y5 y6 y7
      split
      · rename_i y8
        refine Keeps.trans ?_ (State.completeNow_keeps _ _ _)
        exact Keeps.refl _
      · rename_i y9
        exact Keeps.refl _
    · rename_i y10 y11
      exact Keeps.refl _

theorem State.logDropped_keeps (s) : Keeps s (State.logDropped s) := by
  unfold State.logDropped
  extract_lets x0 x1 x2
  clear_value x0
  clear_value x1
  have k3 : Keeps s (x2) := by
    subst x2
    refine Keeps.set_log ?_
    exact Keeps.refl _
  clear_value x2
  split
  · rename_i y4
    exact k3
  · rename_i y5
    refine Keeps.trans ?_ (State.logEvent_keeps _ _ _ _ _ _ _)
    exact k3

theorem State.checkDeadlines_keeps (s) : Keeps s (State.checkDeadlines s) := by
  unfold State.checkDeadlines
  refine Keeps.foldl _ ?_ ?_
  · exact Keeps.refl _
  · intro a0 a1
    refine Keeps.trans ?_ (State.expireVerdict_keeps _ _)
    refine Keeps.trans ?_ (State.expireDeadline_keeps _ _)
    exact Keeps.refl _

theorem State.expireFaults_keeps (s) : Keeps s (State.expireFaults s) := by
  unfold State.expireFaults
  refine Keeps.foldl _ ?_ ?_
  · exact Keeps.refl _
  · intro a0 a1
    refine Keeps.trans ?_ (State.expireFault_keeps _ _ _)
    exact Keeps.refl _

theorem State.stopParked_keeps (s) : Keeps s (State.stopParked s) := by
  unfold State.stopParked
  refine Keeps.foldl _ ?_ ?_
  · exact Keeps.refl _
  · intro a0 a1
    refine Keeps.trans ?_ (State.preempt_keeps _ _ _)
    exact Keeps.refl _

theorem State.noteStale_keeps (s) (b) : Keeps s (State.noteStale s b) := by
  unfold State.noteStale
  refine Keeps.trans ?_ (State.updCtx_keeps _ _ _)
  exact Keeps.refl _

theorem State.applyPlacement_keeps (s) : Keeps s (State.applyPlacement s) := by
  unfold State.applyPlacement
  split
  · rename_i y0 y1
    exact Keeps.refl _
  · rename_i y2 y3 y4
    extract_lets x5 x6 x7 x8
    have k9 : Keeps s (x5) := by
      subst x5
      refine Keeps.set_nextPlacement_placement ?_
      exact Keeps.refl _
    clear_value x5
    have k10 : Keeps s (x6) := by
      subst x6
      refine Keeps.foldl _ ?_ ?_
      · exact k9
      · intro a11 a12
        refine Keeps.trans ?_ (State.vput_keeps _ _ _ _)
        exact Keeps.refl _
    clear_value x6
    clear_value x7
    have k13 : Keeps s (x8) := by
      subst x8
      refine Keeps.foldl _ ?_ ?_
      · exact k10
      · intro a14 a15
        refine Keeps.trans ?_ (State.noteStale_keeps _ _)
        exact Keeps.refl _
    clear_value x8
    refine Keeps.set_cmds ?_
    exact k13

theorem State.enterStandby_keeps (s) : Keeps s (State.enterStandby s) := by
  unfold State.enterStandby
  extract_lets x0 x1 x2 x3 x4 x5 x6 x7
  clear_value x0
  clear_value x1
  clear_value x2
  have k8 : Keeps s (x3) := by
    subst x3
    refine Keeps.trans ?_ (State.holdCore_keeps _)
    exact Keeps.refl _
  clear_value x3
  clear_value x4
  clear_value x5
  clear_value x6
  clear_value x7
  refine Keeps.set_fabric_power_spare ?_
  exact k8

theorem State.takeIdentity_keeps (s) : Keeps s (State.takeIdentity s) := by
  unfold State.takeIdentity
  extract_lets x0 x1 x2
  clear_value x0
  clear_value x1
  clear_value x2
  split
  · rename_i y3 y4
    exact Keeps.refl _
  · rename_i y5 y6 y7 y8 y9
    extract_lets x10 x11
    clear_value x10
    clear_value x11
    split
    · rename_i y12 y13
      exact Keeps.refl _
    · rename_i y14 y15 y16
      extract_lets x17 x18
      have k19 : Keeps s (x17) := by
        subst x17
        refine Keeps.set_fabric_bus_spare ?_
        exact Keeps.refl _
      clear_value x17
      have k20 : Keeps s (x18) := by
        subst x18
        refine Keeps.trans ?_ (State.failEvent_keeps _ _ _)
        refine Keeps.trans ?_ (State.sendService_keeps _ _ _ _ _ _)
        exact k19
      clear_value x18
      refine Keeps.trans ?_ (State.updCmd_keeps _ _ _ _)
      exact k20

theorem State.parkFaulted_keeps (s) : Keeps s (State.parkFaulted s) := by
  unfold State.parkFaulted
  refine Keeps.foldl _ ?_ ?_
  · exact Keeps.refl _
  · intro a0 a1
    refine Keeps.trans ?_ (State.removeUnit_keeps _ _)
    exact Keeps.refl _

theorem State.callDue_keeps (s) : Keeps s (State.callDue s) := by
  unfold State.callDue
  refine Keeps.set_plates_routers ?_ ?_
  · exact Keeps.refl _
  · exact keys_map _ _

theorem State.givePlates_keeps (s) : Keeps s (State.givePlates s) := by
  unfold State.givePlates
  refine Keeps.foldl _ ?_ ?_
  · exact Keeps.refl _
  · intro a0 a1
    refine Keeps.trans ?_ (State.givePlate_keeps _ _)
    exact Keeps.refl _

theorem State.giveRouters_keeps (s) : Keeps s (State.giveRouters s) := by
  unfold State.giveRouters
  refine Keeps.foldl _ ?_ ?_
  · exact Keeps.refl _
  · intro a0 a1
    refine Keeps.trans ?_ (State.giveRouter_keeps _ _)
    exact Keeps.refl _

theorem State.issueFirst_keeps (s) : Keeps s (State.issueFirst s) := by
  unfold State.issueFirst
  refine Keeps.foldl _ ?_ ?_
  · exact Keeps.refl _
  · intro a0 a1
    refine Keeps.trans ?_ (State.firstUnits_keeps _ _)
    exact Keeps.refl _

theorem State.switchBank_keeps (s) : Keeps s (State.switchBank s) := by
  unfold State.switchBank
  extract_lets x0 x1
  have k2 : Keeps s x0 := by
    subst x0
    refine Keeps.trans ?_ (State.bankSwitch_keeps _)
    exact Keeps.refl _
  clear_value x0
  clear_value x1
  split
  · rename_i y3
    exact k2
  · rename_i y4
    refine Keeps.set_ctxs ?_ ?_
    · exact k2
    · exact keys_map _ _

theorem State.auxBoundary_keeps (s) (b) : Keeps s (State.auxBoundary s b) := by
  unfold State.auxBoundary
  refine Keeps.trans ?_ (State.ageEvents_keeps _)
  refine Keeps.trans ?_ (State.evaluateOffset_keeps _ _)
  refine Keeps.trans ?_ (State.logDropped_keeps _)
  refine Keeps.trans ?_ (State.nextBoundary_keeps _)
  exact Keeps.refl _

theorem State.boundaryHead_keeps (s) (b) : Keeps s (State.boundaryHead s b) := by
  unfold State.boundaryHead
  refine Keeps.trans ?_ (State.releaseBatches_keeps _)
  refine Keeps.trans ?_ (State.boundaryDuty_keeps _)
  refine Keeps.trans ?_ (State.ageEvents_keeps _)
  refine Keeps.trans ?_ (State.evaluateOffset_keeps _ _)
  refine Keeps.trans ?_ (State.checkDeadlines_keeps _)
  refine Keeps.trans ?_ (State.switchBank_keeps _)
  refine Keeps.trans ?_ (State.logDropped_keeps _)
  refine Keeps.trans ?_ (State.nextBoundary_keeps _)
  exact Keeps.refl _

theorem State.boundaryMiddle_keeps (s) : Keeps s (State.boundaryMiddle s) := by
  unfold State.boundaryMiddle
  extract_lets x0 x1 x2 x3
  have k4 : Keeps s x0 := by
    subst x0
    refine Keeps.trans ?_ (State.parkFaulted_keeps _)
    refine Keeps.trans ?_ (State.applyPlacement_keeps _)
    refine Keeps.trans ?_ (State.takeIdentity_keeps _)
    exact Keeps.refl _
  clear_value x0
  have k5 : Keeps s x1 := by
    subst x1
    refine Keeps.trans ?_ (State.expireFaults_keeps _)
    refine Keeps.trans ?_ (State.cancelNow_keeps _)
    refine Keeps.trans ?_ (State.stopParked_keeps _)
    exact k4
  clear_value x1
  have k6 : Keeps s x2 := by
    subst x2
    refine Keeps.trans ?_ (State.residence_keeps _)
    exact k5
  clear_value x2
  have k7 : Keeps s x3 := by
    subst x3
    refine Keeps.foldl _ ?_ ?_
    · exact k6
    · intro a8 a9
      refine Keeps.trans ?_ (State.decideLayers_keeps _ _)
      exact Keeps.refl _
  clear_value x3
  refine Keeps.trans ?_ (State.callDue_keeps _)
  exact k7

theorem State.boundaryPass_keeps (s) : Keeps s (State.boundaryPass s) := by
  unfold State.boundaryPass
  refine Keeps.foldl _ ?_ ?_
  · exact Keeps.refl _
  · intro a0 a1
    refine Keeps.trans ?_ (State.pass_keeps _ _)
    exact Keeps.refl _

theorem State.boundaryEnd_keeps (s) : Keeps s (State.boundaryEnd s) := by
  unfold State.boundaryEnd
  refine Keeps.trans ?_ (State.issueFirst_keeps _)
  refine Keeps.trans ?_ (State.boundaryPass_keeps _)
  refine Keeps.trans ?_ (State.giveRouters_keeps _)
  refine Keeps.trans ?_ (State.givePlates_keeps _)
  exact Keeps.refl _

theorem execStrokeBoundary_keeps (b) (s) : OutAll (Keeps s) (execStrokeBoundary b s) := by
  unfold execStrokeBoundary
  refine OutAll.intro ?_
  split
  · rename_i y0
    exact Keeps.refl _
  · rename_i y1
    split
    · rename_i y2
      refine Keeps.trans ?_ (State.auxBoundary_keeps _ _)
      exact Keeps.refl _
    · rename_i y3
      extract_lets x4
      have k5 : Keeps s x4 := by
        subst x4
        refine Keeps.trans ?_ (State.boundaryHead_keeps _ _)
        exact Keeps.refl _
      clear_value x4
      split
      · rename_i y6
        refine Keeps.trans ?_ (State.enterStandby_keeps _)
        exact k5
      · rename_i y7
        refine Keeps.trans ?_ (State.boundaryEnd_keeps _)
        refine Keeps.trans ?_ (State.boundaryMiddle_keeps _)
        exact k5

theorem exec_keeps (i) (s) : OutAll (Keeps s) (exec i s) := by
  unfold exec
  split
  · rename_i y0 y1
    exact execContextCreate_keeps _ _
  · rename_i y2 y3
    exact execContextDestroy_keeps _ _
  · rename_i y4 y5
    exact execContextQuery_keeps _ _
  · rename_i y6 y7
    exact execQueueCreate_keeps _ _
  · rename_i y8 y9
    exact execQueueDestroy_keeps _ _
  · rename_i y10 y11
    exact execQueueDrain_keeps _ _
  · rename_i y12 y13
    exact execQueueStart_keeps _ _
  · rename_i y14 y15
    exact execQueueQuery_keeps _ _
  · rename_i y16 y17
    exact execMemRegister_keeps _ _
  · rename_i y18 y19
    exact execMemRelease_keeps _ _
  · rename_i y20 y21
    exact execMemPin_keeps _ _
  · rename_i y22 y23
    exact execMemUnpin_keeps _ _
  · rename_i y24 y25
    exact execDescCreate_keeps _ _
  · rename_i y26 y27
    exact execDescRelease_keeps _ _
  · rename_i y28 y29
    exact execDmaCopy_keeps _ _
  · rename_i y30 y31
    exact execFaultResume_keeps _ _
  · rename_i y32 y33
    exact execTlbInvalidate_keeps _ _
  · rename_i y34 y35
    exact execLinear_keeps _ _
  · rename_i y36 y37
    exact execStipple_keeps _ _
  · rename_i y38 y39
    exact execAttnFwd_keeps _ _
  · rename_i y40 y41
    exact execAttnPrep_keeps _ _
  · rename_i y42 y43
    exact execAttnBwd_keeps _ _
  · rename_i y44 y45
    exact execGradPolicy_keeps _ _
  · rename_i y46 y47
    exact execTracer_keeps _ _
  · rename_i y48 y49
    exact execRoute_keeps _ _
  · rename_i y50 y51
    exact execExit_keeps _ _
  · rename_i y52 y53
    exact execMask_keeps _ _
  · rename_i y54 y55
    exact execInkInit_keeps _ _
  · rename_i y56 y57
    exact execInkRead_keeps _ _
  · rename_i y58 y59
    exact execNop_keeps _ _
  · rename_i y60 y61
    exact execInkOverride_keeps _ _
  · rename_i y62 y63
    exact execQpCreate_keeps _ _
  · rename_i y64 y65
    exact execQpConnect_keeps _ _
  · rename_i y66 y67
    exact execQpDestroy_keeps _ _
  · rename_i y68 y69
    exact execPostRecv_keeps _ _
  · rename_i y70 y71
    exact execPostSend_keeps _ _
  · rename_i y72 y73
    exact execPostInk_keeps _ _
  · rename_i y74 y75
    exact execQpQuery_keeps _ _
  · rename_i y76 y77
    exact execXhGroup_keeps _ _
  · rename_i y78 y79
    exact execXhReduce_keeps _ _
  · rename_i y80 y81
    exact execXhAbort_keeps _ _
  · rename_i y82 y83
    exact execPrefetchHint_keeps _ _
  · rename_i y84 y85
    exact execManifestLoad_keeps _ _
  · rename_i y86 y87
    exact execShardSend_keeps _ _
  · rename_i y88 y89
    exact execShardReceive_keeps _ _
  · rename_i y90 y91
    exact execBaseInstall_keeps _ _
  · rename_i y92 y93
    exact execBaseMap_keeps _ _
  · rename_i y94 y95
    exact execBaseRetire_keeps _ _
  · rename_i y96 y97
    exact execTensorClass_keeps _ _
  · rename_i y98 y99
    exact execSnapshot_keeps _ _
  · rename_i y100 y101
    exact execRestore_keeps _ _
  · rename_i y102 y103
    exact execMirror_keeps _ _
  · rename_i y104 y105
    exact execLedgerSet_keeps _ _
  · rename_i y106 y107
    exact execReplay_keeps _ _
  · rename_i y108 y109
    exact execSpareArm_keeps _ _
  · rename_i y110 y111
    exact execSparePromote_keeps _ _
  · rename_i y112 y113
    exact execPlacementSet_keeps _ _
  · rename_i y114 y115
    exact execStreamOpen_keeps _ _
  · rename_i y116 y117
    exact execStreamFeed_keeps _ _
  · rename_i y118 y119
    exact execStreamClose_keeps _ _
  · rename_i y120 y121
    exact execAttest_keeps _ _
  · rename_i y122 y123
    exact execSessionKey_keeps _ _
  · rename_i y124 y125
    exact execFwStage_keeps _ _
  · rename_i y126 y127
    exact execFwActivate_keeps _ _
  · rename_i y128 y129
    exact execConfigRead_keeps _ _
  · rename_i y130 y131
    exact execConfigWrite_keeps _ _
  · rename_i y132 y133
    exact execLogRead_keeps _ _
  · rename_i y134 y135
    exact execTelemetryRead_keeps _ _
  · rename_i y136 y137
    exact execProfileSet_keeps _ _
  · rename_i y138 y139
    exact execStrokeSet_keeps _ _
  · rename_i y140 y141
    exact execRoutemapLoad_keeps _ _
  · rename_i y142 y143
    exact execRoutemapSwitch_keeps _ _
  · rename_i y144 y145
    exact execStrokeQuery_keeps _ _
  · rename_i y146 y147
    exact execMboxNop_keeps _ _
  · rename_i y148 y149
    exact execSbSend_keeps _ _
  · rename_i y150 y151
    exact execMboxTelemetry_keeps _ _
  · rename_i y152 y153
    exact execMboxConfigRead_keeps _ _
  · rename_i y154 y155
    exact execMboxConfigWrite_keeps _ _
  · rename_i y156 y157
    exact execMboxProfileSet_keeps _ _
  · rename_i y158 y159
    exact execRecoveryBegin_keeps _ _
  · rename_i y160 y161
    exact execRecoveryData_keeps _ _
  · rename_i y162 y163
    exact execRecoveryCommit_keeps _ _
  · rename_i y164 y165
    exact execMctpRequest_keeps _ _
  · rename_i y166
    exact execSmbusClockTimeout_keeps _
  · rename_i y167 y168 y169
    exact execSqTailWrite_keeps _ _ _
  · rename_i y170 y171 y172
    exact execCqHeadWrite_keeps _ _ _
  · rename_i y173
    exact execAdmqEnable_keeps _
  · rename_i y174
    exact execAdmqDisable_keeps _
  · rename_i y175 y176
    exact execSbRxHeadWrite_keeps _ _
  · rename_i y177 y178
    exact execFaultSummaryRead_keeps _ _
  · rename_i y179 y180
    exact execHalfReadLatch_keeps _ _
  · rename_i y181 y182 y183
    exact execTableWindowWrite_keeps _ _ _
  · rename_i y184 y185 y186 y187
    exact execRegisterWrite_keeps _ _ _ _
  · rename_i y188 y189
    exact execHostInboundRequest_keeps _ _
  · rename_i y190 y191
    exact execCxlSnoop_keeps _ _
  · rename_i y192 y193 y194
    exact execBackInvalidationResponse_keeps _ _ _
  · rename_i y195 y196 y197
    exact execHostLinkUp_keeps _ _ _
  · rename_i y198
    exact execHostLinkDown_keeps _
  · rename_i y199
    exact execHostLinkLossTimeout_keeps _
  · rename_i y200 y201
    exact execRecordFetch_keeps _ _
  · rename_i y202 y203
    exact execRecordReread_keeps _ _
  · rename_i y204 y205
    exact execStalledReread_keeps _ _
  · rename_i y206 y207
    exact execAdmissionPass_keeps _ _
  · rename_i y208 y209 y210
    exact execDispatchUnitEnd_keeps _ _ _
  · rename_i y211 y212 y213
    exact execCommandSkip_keeps _ _ _
  · rename_i y214 y215 y216
    exact execCommandComplete_keeps _ _ _
  · rename_i y217 y218 y219
    exact execGlobalFlushDone_keeps _ _ _
  · rename_i y220 y221
    exact execPinRetry_keeps _ _
  · rename_i y222 y223
    exact execWaitTimeout_keeps _ _
  · rename_i y224 y225
    exact execResidenceWait_keeps _ _
  · rename_i y226 y227
    exact execResidenceTimeout_keeps _ _
  · rename_i y228 y229 y230
    exact execFaultLimit_keeps _ _ _
  · rename_i y231 y232
    exact execStrokeBoundary_keeps _ _
  · rename_i y233 y234
    exact execPlateHandover_keeps _ _
  · rename_i y235 y236 y237
    exact execStrokeOverrun_keeps _ _ _
  · rename_i y238 y239
    exact execEngineHung_keeps _ _
  · rename_i y240 y241
    exact execPtpSync_keeps _ _
  · rename_i y242
    exact execSyncTimeout_keeps _
  · rename_i y243
    exact execAlignmentAcquired_keeps _
  · rename_i y244
    exact execAlignmentLost_keeps _
  · rename_i y245 y246 y247
    exact execSlotOpen_keeps _ _ _
  · rename_i y248 y249 y250
    exact execBurinBankLoaded_keeps _ _ _
  · rename_i y251 y252 y253
    exact execBurinTileDelivery_keeps _ _ _
  · rename_i y254 y255
    exact execTraySlotFree_keeps _ _
  · rename_i y256 y257 y258
    exact execStippleTileTaken_keeps _ _ _
  · rename_i y259 y260 y261
    exact execStippleTileWritten_keeps _ _ _
  · rename_i y262 y263
    exact execTracerUnit_keeps _ _
  · rename_i y264 y265
    exact execStencilToken_keeps _ _
  · rename_i y266 y267
    exact execAquatintPairCommit_keeps _ _
  · rename_i y268 y269
    exact execInkWordEvict_keeps _ _
  · rename_i y270 y271 y272
    exact execFrameReceived_keeps _ _ _
  · rename_i y273 y274
    exact execLinkDown_keeps _ _
  · rename_i y275 y276
    exact execLinkUp_keeps _ _
  · rename_i y277 y278 y279
    exact execTransitForward_keeps _ _ _
  · rename_i y281 y282 y283
    exact execPassThroughFrame_keeps _ _ _
  · rename_i y284
    exact execPromotionAnnouncement_keeps _
  · rename_i y285 y286 y287
    exact execPacketSend_keeps _ _ _
  · rename_i y288 y289 y290 y291
    exact execDataPacketReceived_keeps _ _ _ _
  · rename_i y292 y293 y294 y295
    exact execInkPacketReceived_keeps _ _ _ _
  · rename_i y296 y297 y298 y299 y300
    exact execAckReceived_keeps _ _ _ _ _
  · rename_i y301 y302
    exact execAckTimer_keeps _ _
  · rename_i y303 y304
    exact execRetransmitTimeout_keeps _ _
  · rename_i y305 y306
    exact execRnrResend_keeps _ _
  · rename_i y307 y308
    exact execRnrTimeout_keeps _ _
  · rename_i y309 y310
    exact execQpStateFetched_keeps _ _
  · rename_i y311 y312
    exact execTriggerFire_keeps _ _
  · rename_i y313 y314
    exact execTriggerTimeout_keeps _ _
  · rename_i y315 y316 y317
    exact execBucketStart_keeps _ _ _
  · rename_i y318 y319
    exact execXhSegmentReceived_keeps _ _
  · rename_i y320 y321
    exact execVerdictRecordReceived_keeps _ _
  · rename_i y322 y323
    exact execDeadlineExpiry_keeps _ _
  · rename_i y324 y325
    exact execVerdictTimeout_keeps _ _
  · rename_i y326 y327 y328
    exact execShardPieceReceived_keeps _ _ _
  · rename_i y329 y330 y331
    exact execShardPieceHashed_keeps _ _ _
  · rename_i y332 y333 y334
    exact execShardTrailerReceived_keeps _ _ _
  · rename_i y335 y336 y337
    exact execShardTimeout_keeps _ _ _
  · rename_i y338 y339
    exact execEpochRelease_keeps _ _
  · rename_i y340 y341 y342
    exact execKeepPieceReceived_keeps _ _ _
  · rename_i y343 y344 y345
    exact execKeepDigestReceived_keeps _ _ _
  · rename_i y346 y347 y348
    exact execRestoreRequestReceived_keeps _ _ _
  · rename_i y349 y350 y351
    exact execFillRequestReceived_keeps _ _ _
  · rename_i y352 y353 y354
    exact execFillChunkReceived_keeps _ _ _
  · rename_i y355 y356
    exact execEaselFrameDecoded_keeps _ _
  · rename_i y357 y358
    exact execEaselBatchStart_keeps _ _
  · rename_i y359 y360
    exact execBatchMissingTimeout_keeps _ _
  · rename_i y361 y362
    exact execFeedTimeout_keeps _ _
  · rename_i y363 y364
    exact execDiscoverSend_keeps _ _
  · rename_i y365 y366 y367
    exact execDiscover_keeps _ _ _
  · rename_i y368 y369
    exact execDiscoveryWindowClose_keeps _ _
  · rename_i y370 y371
    exact execHelloSend_keeps _ _
  · rename_i y372 y373
    exact execPlcaFallback_keeps _ _
  · rename_i y374 y375
    exact execCollisionBackoff_keeps _ _
  · rename_i y376 y377 y378
    exact execServiceFrameReceived_keeps _ _ _
  · rename_i y379 y380 y381
    exact execTakeover_keeps _ _ _
  · rename_i y382
    exact execTakeoverRepeat_keeps _
  · rename_i y383 y384 y385
    exact execFailureRate_keeps _ _ _
  · rename_i y386
    exact execFailureRateSend_keeps _
  · rename_i y387 y388 y389
    exact execDebugRequest_keeps _ _ _
  · rename_i y390 y391
    exact execDelayedWarmReset_keeps _ _
  · rename_i y392
    exact execLogExportSend_keeps _
  · rename_i y393 y394 y395
    exact execWakeMatch_keeps _ _ _
  · rename_i y396
    exact execWakeRailTimeout_keeps _
  · rename_i y397 y398
    exact execSensorSample_keeps _ _
  · rename_i y399 y400
    exact execSensorFailed_keeps _ _
  · rename_i y401 y402
    exact execSensorRecovered_keeps _ _
  · rename_i y403
    exact execThermalTrip_keeps _
  · rename_i y404
    exact execBrdThrotAssert_keeps _
  · rename_i y405
    exact execBrdThrotRelease_keeps _
  · rename_i y406 y407
    exact execAvsStep_keeps _ _
  · rename_i y408 y409
    exact execAvsTimeout_keeps _ _
  · rename_i y410 y411
    exact execRailFault_keeps _ _
  · rename_i y412
    exact execRailRelease_keeps _
  · rename_i y413 y414
    exact execRailRecovered_keeps _ _
  · rename_i y415
    exact execRailRecoveryTimeout_keeps _
  · rename_i y416
    exact execFabclkLost_keeps _
  · rename_i y417 y418
    exact execFabclkRestored_keeps _ _
  · rename_i y419
    exact execAuxclkLost_keeps _
  · rename_i y420
    exact execAuxclkRestored_keeps _
  · rename_i y421
    exact execRefclkLost_keeps _
  · rename_i y422 y423
    exact execColdReset_keeps _ _
  · rename_i y424 y425
    exact execWarmReset_keeps _ _
  · rename_i y426 y427
    exact execPerstReset_keeps _ _
  · rename_i y428
    exact execFunctionLevelReset_keeps _
  · rename_i y429 y430
    exact execBootStageTimeout_keeps _ _
  · rename_i y431
    exact execFlashTimeout_keeps _
  · rename_i y432 y433
    exact execWatchdogReset_keeps _ _
  · rename_i y434
    exact execServiceRestart_keeps _
  · rename_i y435 y436 y437
    exact execPatrolRead_keeps _ _ _
  · rename_i y438
    exact execVaux3v3Loss_keeps _
  · rename_i y439
    exact execVaux3v3PowerOn_keeps _
  · rename_i y440 y441
    exact execWakeRailsInWindow_keeps _ _
  · rename_i y442 y443 y444
    exact execRestoreChunkReceived_keeps _ _ _
  · rename_i y445 y446
    exact execFrameZeroFillDone_keeps _ _
  · rename_i y447 y448
    exact execTapInstruction_keeps _ _
  · rename_i y449 y450
    exact execPlcaBeaconHeard_keeps _ _

end Sys2Proof.Machine
end

