-- ==== Sys2Proof/Laws/Commands.lean ====
section
/-! SUPPORT. How a command's row runs the command whose turn it is, and what its ending changes. -/

namespace Sys2Proof.Machine

open Sys2Proof

variable {s : State} {p : Packet} {op : Nat} {c : Cmd} {x : Ctx}

/-- A row that runs at once: the effect, or the refusal, and the ending. -/
theorem Ready.runNow (h : Ready s p op c x) (act : State → Cmd → Ctx → Except Ending (State × Ending)) :
    s.forOp p op (s.runNow p act) = match act s c x with
      | .ok (t, e) => t.finish c e
      | .error e => s.finish c e := by
  simp [State.forOp, State.runNow, h.opcode, h.start, h.ctx]
  all_goals (cases act s c x <;> rfl)

/-- As `Ready.runNow`, for a row that walks its range and whose effect it has. -/
theorem Ready.runWalk (h : Ready s p op c x) {act : State → Cmd → Ctx → Except Ending (State × Ending)} {t : State} {e : Ending}
    (ha : act s c x = .ok (t, e)) : s.forOp p op (s.runWalk p act) = t.finish c e := by
  simp [State.forOp, State.runWalk, h.opcode, h.start, h.ctx, ha]

/-- As `Ready.runNow`, through a class of the Proof core that has a slot. -/
theorem Ready.runProof (h : Ready s p op c x) {k : Nat} {s1 : State} (hs : s.takeSlot c k = .ok s1)
    (act : State → Cmd → Ctx → Except Ending (State × Ending)) :
    s.forOp p op (s.runProof p k act) = match act s1 { c with slot := some k } x with
      | .ok (t, e) => t.finish c e
      | .error e => s1.finish c e := by
  simp [State.forOp, State.runProof, h.opcode, h.start, h.ctx, hs]
  all_goals (cases act s1 _ x <;> rfl)

/-- As `Ready.runNow`, for a command of the Proof core that reaches memory: the accesses first. -/
theorem Ready.runMgmt (h : Ready s p op c x) {k engine : Nat} {s1 s2 : State} {chk : State → Cmd → Ctx → Check} {io : State → Cmd → List MgmtIO}
    (hn : c.slot = none) (hs : s.takeSlot c k = .ok s1) (hc : chk s1 c x = .ok ()) (hi : s1.mgmtTouch c engine (io s1 c) = .ok s2)
    (act : State → Cmd → Ctx → Except Ending (State × Option Ending)) :
    s.forOp p op (s.runMgmt p k engine chk io act) = match act s2 { c with slot := some k } x with
      | .ok (t, some e) => t.finish c e
      | .ok (t, none) => t
      | .error e => s2.finish c e := by
  simp [State.forOp, State.runMgmt, h.opcode, h.start, h.ctx, hn, hs, hc, hi]
  all_goals rfl

/-- As `Ready.runMgmt`, for a command outside the Proof core. -/
theorem Ready.runReach (h : Ready s p op c x) {engine : Nat} {s2 t : State} {chk : State → Cmd → Ctx → Check} {io : State → Cmd → List MgmtIO}
    (hc : chk s c x = .ok ()) (hi : s.mgmtTouch c engine (io s c) = .ok s2) {act : State → Cmd → Ctx → Except Ending (State × Ending)}
    {e : Ending} (ha : act s2 c x = .ok (t, e)) : s.forOp p op (s.runReach p engine chk io act) = t.finish c e := by
  simp [State.forOp, State.runReach, h.opcode, h.start, h.ctx, hc, hi, ha]

/-- As `Ready.runMgmt`, for a row presented again. -/
theorem Again.runMgmt (h : Again s p op c x) {k engine : Nat} {s2 : State} {chk : State → Cmd → Ctx → Check} {io : State → Cmd → List MgmtIO}
    (hc : chk s c x = .ok ()) (hi : s.mgmtTouch c engine (io s c) = .ok s2) (act : State → Cmd → Ctx → Except Ending (State × Option Ending)) :
    s.forOp p op (s.runMgmt p k engine chk io act) = match act s2 { c with slot := some k } x with
      | .ok (t, some e) => t.finish c e
      | .ok (t, none) => t
      | .error e => s2.finish c e := by
  simp [State.forOp, State.runMgmt, h.opcode, h.started, h.resume, h.ctx, h.slot, hc, hi]
  all_goals rfl

/-- The command of a row that is ready is admitted and in flight. -/
theorem Ready.found (h : Ready s p op c x) : s.findCmd p.queue p.seq = some c ∧ c.bytes = p.bytes ∧ c.phase = .admitted := by
  have hs := h.start
  unfold State.startable at hs
  split at hs
  · split at hs
    · rename_i d hd hc
      injection hs with hs
      subst hs
      simp only [State.mayStart, Bool.and_eq_true, decide_eq_true_eq] at hc
      exact ⟨hd, hc.1, hc.2.1⟩
    · cases hs
  · cases hs

/-- The command's numbers are the packet's. -/
theorem Ready.numbers (h : Ready s p op c x) : c.queue = p.queue ∧ c.seq = p.seq := by
  have := List.find?_some h.found.1
  simpa using this

/-- The command's packet is the row's. -/
theorem Ready.pkt (h : Ready s p op c x) : c.pkt = p := by
  obtain ⟨a, b⟩ := h.numbers
  have hb := h.found.2.1
  cases p
  simp_all [Cmd.pkt]

/-- Only LINEAR and STIPPLE wait for a predicate. -/
theorem Ready.awaitsSkip (h : Ready s p op c x) (h1 : op ≠ 0x0301) (h2 : op ≠ 0x0302) : c.awaitsSkip = false := by
  simp [Cmd.awaitsSkip, h.pkt, h.opcode, h1, h2]

/-- A row of a plate or router: the command begins there, or its failing check ends it. -/
theorem Ready.startOnPlate (h : Ready s p op c x) (chk : State → Cmd → Ctx → Check) (w : Work) (ha : c.awaitsSkip = false) {r : UnitRef}
    (hr : c.unitRef = some r) : s.forOp p op (s.startOnPlate p chk w) = match chk s c x with
      | .ok _ => (s.begin c w).issueAt r
      | .error e => s.finish c e := by
  simp [State.forOp, State.startOnPlate, h.opcode, h.start, h.ctx, ha, hr]
  cases chk s c x <;> rfl

theorem findCmd_updCmd (s : State) (q k : Nat) (f : Cmd → Cmd) (hf : ∀ c, (f c).queue = c.queue ∧ (f c).seq = c.seq) (q' k' : Nat) :
    (s.updCmd q k f).findCmd q' k' = (s.findCmd q' k').map fun c => if c.queue = q ∧ c.seq = k then f c else c := by
  simp only [State.findCmd, State.updCmd, List.find?_map, Function.comp_def]
  congr 2
  funext c
  split
  · simp [(hf c).1, (hf c).2]
  · rfl

/-- An ending ends its command and no other. -/
theorem findCmd_finish (s : State) (c : Cmd) (e : Ending) (q k : Nat) :
    (s.finish c e).findCmd q k =
      if q = c.queue ∧ k = c.seq then (s.findCmd q k).map fun d => { d with phase := .finished e } else s.findCmd q k := by
  have key : ∀ d, s.findCmd q k = some d → d.queue = q ∧ d.seq = k := fun d hd => by simpa using List.find?_some hd
  rw [State.finish, findCmd_updCmd s _ _ (fun x => { x with phase := .finished e }) fun _ => ⟨rfl, rfl⟩]
  cases hd : s.findCmd q k with
  | none => simp
  | some d =>
    obtain ⟨rfl, rfl⟩ := key d hd
    by_cases h : d.queue = c.queue ∧ d.seq = c.seq <;> simp [h]

theorem OutAll.of {P : State → Prop} {o : Host.Outcome State Fault Refusal} {t : State} (h : OutAll P o) (e : o = .next t) : P t := by
  subst e; exact h

end Sys2Proof.Machine
end

