-- ==== Sys2Proof/Laws/Frames.lean ====
section
/-! SUPPORT. What each shared operation can change: every one of them leaves the fields that its lemma does not name as they are. -/

namespace Sys2Proof.Machine

open Sys2Proof

theorem drawNs_frame (s : State) : s.drawNs.2 = { s with free := s.free + 1 } := rfl

theorem raise_frame (s : State) (v : Nat) : s.raise v = { s with host := (s.raise v).host } := by
  unfold State.raise
  repeat' split
  all_goals rfl

theorem logAt_frame (s : State) (a b c d e f g : Nat) : s.logAt a b c d e f g =
    { s with log := (s.logAt a b c d e f g).log, host := (s.logAt a b c d e f g).host, power := (s.logAt a b c d e f g).power } := by
  unfold State.logAt
  dsimp only
  split <;> rfl

theorem logEvent_frame (s : State) (b c d e f g : Nat) : s.logEvent b c d e f g =
    { s with
      free := s.free + 1, log := (s.logEvent b c d e f g).log, host := (s.logEvent b c d e f g).host, power := (s.logEvent b c d e f g).power } := by
  unfold State.logEvent
  exact logAt_frame _ _ _ _ _ _ _ _

theorem proofLoad_frame (s : State) : s.proofLoad =
    { s with
      free := s.proofLoad.free, log := s.proofLoad.log, host := s.proofLoad.host, power := s.proofLoad.power, proof := s.proofLoad.proof } := by
  unfold State.proofLoad
  dsimp only
  split
  · rw [logEvent_frame]
  · split
    · rw [logEvent_frame]
    · rfl

theorem takeSlot_frame {s s1 : State} {c : Cmd} {k : Nat} (h : s.takeSlot c k = .ok s1) :
    s1 = { s with free := s1.free, log := s1.log, host := s1.host, power := s1.power, proof := s1.proof, cmds := s1.cmds } := by
  unfold State.takeSlot at h
  dsimp only at h
  split at h
  · injection h with h
    subst h
    rw [proofLoad_frame]
    rfl
  · cases h

theorem takeSlot_view {s s1 : State} {c : Cmd} {k : Nat} (h : s.takeSlot c k = .ok s1) (d : Cmd) : d.view s1 = d.view s := by
  rw [takeSlot_frame h]
  rfl

theorem inkTouch_frame (s : State) (pa : Nat) : s.inkTouch pa = { s with mem := { s.mem with inkUnit := (s.inkTouch pa).mem.inkUnit } } := by
  unfold State.inkTouch
  split <;> rfl

theorem keepEvent_frame (s : State) (e : FailEvent) : s.keepEvent e =
    { s with
      free := (s.keepEvent e).free, log := (s.keepEvent e).log, host := (s.keepEvent e).host, power := (s.keepEvent e).power
      ctxs := (s.keepEvent e).ctxs, bus := (s.keepEvent e).bus } := by
  unfold State.keepEvent
  split
  · rfl
  · dsimp only
    split
    · rw [logEvent_frame]
    · rfl

theorem failEvent_frame (s : State) (node cause : Nat) : s.failEvent node cause =
    { s with
      free := (s.failEvent node cause).free, log := (s.failEvent node cause).log, host := (s.failEvent node cause).host
      power := (s.failEvent node cause).power, ctxs := (s.failEvent node cause).ctxs, bus := (s.failEvent node cause).bus } := by
  unfold State.failEvent
  rw [keepEvent_frame]

theorem countError_frame (s : State) (pa k : Nat) : s.countError pa k =
    { s with plates := (s.countError pa k).plates, eccCounts := (s.countError pa k).eccCounts } := by
  unfold State.countError
  split <;> rfl

theorem logMedia_frame (s : State) (n pa : Nat) : s.logMedia n pa =
    { s with
      free := (s.logMedia n pa).free, log := (s.logMedia n pa).log, host := (s.logMedia n pa).host, power := (s.logMedia n pa).power
      ctxs := (s.logMedia n pa).ctxs, bus := (s.logMedia n pa).bus, plates := (s.logMedia n pa).plates
      eccCounts := (s.logMedia n pa).eccCounts } := by
  unfold State.logMedia
  rw [failEvent_frame, logEvent_frame, countError_frame]

/-- What a fault record changes: the ring and the interrupt, the trouble log, and for an uncorrectable table entry the counts and events of
R224 and R353. -/
theorem faultRecord_frame (s : State) (n : Nat) (f : FaultRecord) : s.faultRecord n f =
    { s with
      free := (s.faultRecord n f).free, log := (s.faultRecord n f).log, host := (s.faultRecord n f).host, power := (s.faultRecord n f).power
      ctxs := (s.faultRecord n f).ctxs, bus := (s.faultRecord n f).bus, plates := (s.faultRecord n f).plates
      eccCounts := (s.faultRecord n f).eccCounts } := by
  have key : ∃ free log host power ctxs bus plates ecc, s.faultRecord n f =
      { s with free := free, log := log, host := host, power := power, ctxs := ctxs, bus := bus, plates := plates, eccCounts := ecc } := by
    unfold State.faultRecord
    split
    rename_i ns s1 hd
    obtain rfl : { s with free := s.free + 1 } = s1 := congrArg Prod.snd hd
    extract_lets g fseq s2 hp s3 s4 s5
    have h4 : ∃ free log host power ctxs, s4 = { s with free := free, log := log, host := host, power := power, ctxs := ctxs } := by
      subst s4
      split
      · rw [logEvent_frame]
        exact ⟨_, _, _, _, _, rfl⟩
      · exact ⟨_, _, _, _, _, rfl⟩
    have h5 : ∃ free log host power ctxs, s5 = { s with free := free, log := log, host := host, power := power, ctxs := ctxs } := by
      obtain ⟨a, b, d, e, g, h⟩ := h4
      subst s5
      split
      · rw [raise_frame, h]
        exact ⟨_, _, _, _, _, rfl⟩
      · exact ⟨_, _, _, _, _, h⟩
    obtain ⟨a, b, d, e, g, h⟩ := h5
    split
    · split
      · rw [logMedia_frame, h]
        exact ⟨_, _, _, _, _, _, _, _, rfl⟩
      · exact ⟨_, _, _, _, _, _, _, _, h⟩
    · exact ⟨_, _, _, _, _, _, _, _, h⟩
  obtain ⟨a, b, d, e, g, i, j, k, h⟩ := key
  rw [h]

theorem foldl_updMem_frame {α : Type} (g : α → Memory → Memory) (l : List α) (s : State) :
    l.foldl (fun (s : State) a => s.updMem (g a)) s = { s with mem := l.foldl (fun m a => g a m) s.mem } := by
  induction l generalizing s with
  | nil => rfl
  | cons a l ih => exact ih _

/-- Releasing frames changes the memories' owners and the frames being filled, and no byte (R206). -/
theorem releaseFrames_frame (s : State) (fs : List Nat) : (s.releaseFrames fs).1 =
    { s with mem := { s.mem with
      owners := (s.releaseFrames fs).1.mem.owners, filling := s.mem.filling ++ fs.filter fun f => decide (s.region (f * 65536) ≠ .ddr) } } := by
  have key : ∀ (l : List Nat) (m : Memory), l.foldl (fun m f => { m with owners := Kv.del f m.owners }) m =
      { m with owners := (l.foldl (fun m f => { m with owners := Kv.del f m.owners }) m).owners } := by
    intro l
    induction l with
    | nil => exact fun _ => rfl
    | cons a l ih => intro m; rw [List.foldl_cons, ih]
  have h := foldl_updMem_frame (fun f (m : Memory) => { m with owners := Kv.del f m.owners }) fs s
  rw [key] at h
  unfold State.releaseFrames
  dsimp only
  rw [h]
  rfl

theorem releaseFrames_slow (s : State) (fs : List Nat) :
    (s.releaseFrames fs).2 = fs.filter fun f => decide (s.region (f * 65536) ≠ .ddr) := rfl

theorem unloadManifest_frame (s : State) (k : Nat) :
    s.unloadManifest k = { s with mem := (s.unloadManifest k).mem, manifests := (s.unloadManifest k).manifests } := by
  unfold State.unloadManifest
  split
  · rfl
  · rw [releaseFrames_frame]

theorem orphanManifests_frame (s : State) (n : Nat) :
    s.orphanManifests n = { s with mem := (s.orphanManifests n).mem, manifests := (s.orphanManifests n).manifests } := by
  unfold State.orphanManifests
  generalize List.filter _ _ = l
  induction l generalizing s with
  | nil => rfl
  | cons e t ih =>
    rw [List.foldl_cons, ih]
    split
    · rfl
    · rw [unloadManifest_frame]

theorem claim_frame (s : State) (f : Nat) (o : FrameOwner) : s.claim f o = { s with mem := (s.claim f o).mem } := by
  unfold State.claim
  dsimp only
  repeat' split
  all_goals rfl

theorem claimRange_frame (s : State) (n root base size : Nat) :
    s.claimRange n root base size = { s with mem := (s.claimRange n root base size).mem } := by
  unfold State.claimRange
  generalize pageStarts base size = l
  induction l generalizing s with
  | nil => rfl
  | cons a l ih =>
    rw [List.foldl_cons, ih]
    split
    · split
      · rw [claim_frame]
      · rfl
    · rfl

/-- A fresh number is in range and not in use, whatever the open value is. -/
theorem freshNumber_spec (s : State) (w lo n : Nat) (used : Nat → Bool) (h : ∃ k, lo ≤ k ∧ k < n ∧ used k = false) :
    ∃ k, (lo ≤ k ∧ k < n ∧ used k = false) ∧ freshNumber s w lo n used = (some k, { s with free := s.free + 1 }) := by
  simp only [freshNumber, State.draw]
  by_cases hh : lo ≤ (Config.freeValue w s.free).toNat ∧ (Config.freeValue w s.free).toNat < n ∧ ¬ used (Config.freeValue w s.free).toNat = true
  · exact ⟨_, by simpa using hh, if_pos hh⟩
  · obtain ⟨k, h1, h2, h3⟩ := h
    have : (((List.range (n - lo)).map (· + lo)).find? fun k => !used k).isSome := by
      rw [List.find?_isSome]
      exact ⟨k, List.mem_map.2 ⟨k - lo, List.mem_range.2 (by omega), by omega⟩, by simp [h3]⟩
    obtain ⟨a, ha⟩ := Option.isSome_iff_exists.1 this
    obtain ⟨b, hb, rfl⟩ := List.mem_map.1 (List.mem_of_find?_eq_some ha)
    have := List.mem_range.1 hb
    exact ⟨b + lo, ⟨by omega, by omega, by simpa using List.find?_some ha⟩, (if_neg hh).trans (by rw [ha])⟩

end Sys2Proof.Machine
end

