-- ==== Sys2Proof/WellFormed.lean ====
section
/-! DEFINITION. WellFormed: the ranges that the manual gives a command's operands (R4), and the form of a packet that the part has read
(R158, R159). The meanings do not ask for it: an operand outside its range names nothing, and changes nothing. -/

namespace Sys2Proof

/-- A packet of an opcode as the part keeps it: its queue exists as a number, LENGTH is its length, a multiple of 16 from 64 to 512
(R4, R159). -/
def Packet.wellFormed (p : Packet) (op : Nat) : Bool :=
  decide (p.queue < 1024) && decide (p.bytes.length % 16 = 0) && decide (64 ≤ p.bytes.length) && decide (p.bytes.length ≤ 512) &&
    decide (leNat ((p.bytes.drop 4).take 2) = p.bytes.length) && decide (p.code = op)

/-- A mailbox request holds its OPCODE, and at most 4 KiB (R448, R449). -/
def MboxRequest.wellFormed (r : MboxRequest) : Bool := decide (r.bytes.length ≤ 4096)

/-- Endpoint identifiers, the tag and the message type of MCTP. -/
def MctpMessage.wellFormed (m : MctpMessage) : Bool :=
  decide (m.destEid < 256) && decide (m.srcEid < 256) && decide (m.tag < 8) && decide (m.mtype < 128)

/-- A memory request carries its data, and at most 4 KiB. -/
def HostRequest.wellFormed (r : HostRequest) : Bool := decide (r.length ≤ 4096) && (!r.write || decide (r.data.length = r.length))

/-- A plate or a router of the part (R2, R14). -/
def UnitRef.wellFormed : UnitRef → Bool
  | .plate n => decide (n < 16)
  | .router t => decide (t < 4)

/-- The ranges of a bucket's key (R4, R196). -/
def BucketKey.wellFormed (k : BucketKey) : Bool :=
  decide (k.context < 4096) && decide (k.step < 2 ^ 40) && decide (k.group < 64) && decide (k.bucket < 16384)

/-- A message on a queue pair. -/
def HeldMessage.wellFormed (m : HeldMessage) : Bool := decide (m.qp < 65536) && decide (m.tag < 2 ^ 64)

/-- Source and port of a PTP message (R139). -/
def PtpMessage.wellFormed (m : PtpMessage) : Bool :=
  decide (1 ≤ m.source) && decide (m.source ≤ 2) && decide (m.port < 8) &&
    decide ((match m.body with | .sync n _ => n | .followUp n _ => n | .delayAnswer n _ => n) < 65536)

/-- What boot meets: stacks, and the boot stage that is late (R18, R384). -/
def BootInput.wellFormed (e : BootInput) : Bool :=
  (e.badStacks.all fun k => decide (k < 12)) && (e.dimms.all fun d => decide (d.channel < 12)) && e.late.all fun k => decide (1 ≤ k) && decide (k ≤ 9)

/-- Sensors and rails of a sampling round (R402, R419). -/
def SensorInput.wellFormed (x : SensorInput) : Bool :=
  (x.temps.all fun t => decide (t.1 < 68)) && (x.currents.all fun c => decide (c.1 < 13)) && x.levels.all fun l => decide (l.1 < 13)

/-- The operands of a command lie in their ranges. -/
def Instr.wellFormed : Instr → Bool
  | .contextCreate p => p.wellFormed 0x0101
  | .contextDestroy p => p.wellFormed 0x0102
  | .contextQuery p => p.wellFormed 0x0103
  | .queueCreate p => p.wellFormed 0x0104
  | .queueDestroy p => p.wellFormed 0x0105
  | .queueDrain p => p.wellFormed 0x0106
  | .queueStart p => p.wellFormed 0x0107
  | .queueQuery p => p.wellFormed 0x0108
  | .memRegister p => p.wellFormed 0x0201
  | .memRelease p => p.wellFormed 0x0202
  | .memPin p => p.wellFormed 0x0203
  | .memUnpin p => p.wellFormed 0x0204
  | .descCreate p => p.wellFormed 0x0205
  | .descRelease p => p.wellFormed 0x0206
  | .dmaCopy p => p.wellFormed 0x0207
  | .faultResume p => p.wellFormed 0x0208
  | .tlbInvalidate p => p.wellFormed 0x0209
  | .linear p => p.wellFormed 0x0301
  | .stipple p => p.wellFormed 0x0302
  | .attnFwd p => p.wellFormed 0x0303
  | .attnPrep p => p.wellFormed 0x0304
  | .attnBwd p => p.wellFormed 0x0305
  | .gradPolicy p => p.wellFormed 0x0306
  | .tracer p => p.wellFormed 0x0401
  | .route p => p.wellFormed 0x0501
  | .exit p => p.wellFormed 0x0502
  | .mask p => p.wellFormed 0x0503
  | .inkInit p => p.wellFormed 0x0601
  | .inkRead p => p.wellFormed 0x0602
  | .nop p => p.wellFormed 0x0603
  | .inkOverride p => p.wellFormed 0x0604
  | .qpCreate p => p.wellFormed 0x0701
  | .qpConnect p => p.wellFormed 0x0702
  | .qpDestroy p => p.wellFormed 0x0703
  | .postRecv p => p.wellFormed 0x0704
  | .postSend p => p.wellFormed 0x0705
  | .postInk p => p.wellFormed 0x0706
  | .qpQuery p => p.wellFormed 0x0707
  | .xhGroup p => p.wellFormed 0x0801
  | .xhReduce p => p.wellFormed 0x0802
  | .xhAbort p => p.wellFormed 0x0803
  | .prefetchHint p => p.wellFormed 0x0804
  | .manifestLoad p => p.wellFormed 0x0901
  | .shardSend p => p.wellFormed 0x0902
  | .shardReceive p => p.wellFormed 0x0903
  | .baseInstall p => p.wellFormed 0x0904
  | .baseMap p => p.wellFormed 0x0905
  | .baseRetire p => p.wellFormed 0x0906
  | .tensorClass p => p.wellFormed 0x0A01
  | .snapshot p => p.wellFormed 0x0A02
  | .restore p => p.wellFormed 0x0A03
  | .mirror p => p.wellFormed 0x0A04
  | .ledgerSet p => p.wellFormed 0x0A05
  | .replay p => p.wellFormed 0x0A06
  | .spareArm p => p.wellFormed 0x0A07
  | .sparePromote p => p.wellFormed 0x0A08
  | .placementSet p => p.wellFormed 0x0A09
  | .streamOpen p => p.wellFormed 0x0B01
  | .streamFeed p => p.wellFormed 0x0B02
  | .streamClose p => p.wellFormed 0x0B03
  | .attest p => p.wellFormed 0x0C01
  | .sessionKey p => p.wellFormed 0x0C02
  | .fwStage p => p.wellFormed 0x0C03
  | .fwActivate p => p.wellFormed 0x0C04
  | .configRead p => p.wellFormed 0x0C05
  | .configWrite p => p.wellFormed 0x0C06
  | .logRead p => p.wellFormed 0x0C07
  | .telemetryRead p => p.wellFormed 0x0C08
  | .profileSet p => p.wellFormed 0x0C09
  | .strokeSet p => p.wellFormed 0x0D01
  | .routemapLoad p => p.wellFormed 0x0D02
  | .routemapSwitch p => p.wellFormed 0x0D03
  | .strokeQuery p => p.wellFormed 0x0D04
  | .mboxNop r => r.wellFormed
  | .sbSend r => r.wellFormed
  | .mboxTelemetry r => r.wellFormed
  | .mboxConfigRead r => r.wellFormed
  | .mboxConfigWrite r => r.wellFormed
  | .mboxProfileSet r => r.wellFormed
  | .recoveryBegin r => r.wellFormed
  | .recoveryData r => r.wellFormed
  | .recoveryCommit r => r.wellFormed
  | .mctpRequest m => m.wellFormed
  | .smbusClockTimeout => true
  | .sqTailWrite queue value => decide (queue < 1024) && decide (value < 2 ^ 32)
  | .cqHeadWrite queue value => decide (queue < 1024) && decide (value < 2 ^ 32)
  | .admqEnable => true
  | .admqDisable => true
  | .sbRxHeadWrite value => decide (value < 2 ^ 32)
  | .faultSummaryRead word => decide (word < 64)
  | .halfReadLatch offset => decide (offset < 2 ^ 28)
  | .tableWindowWrite offset _ => decide (offset < 2 ^ 49)
  | .registerWrite offset size value => decide (offset < 2 ^ 28) && decide (size = 4 ∨ size = 8) && decide (value < 2 ^ 64)
  | .hostInboundRequest r => r.wellFormed
  | .cxlSnoop line => decide (line < 2 ^ 49)
  | .backInvalidationResponse line _ => decide (line < 2 ^ 49)
  | .hostLinkUp _ width => decide (width < 17)
  | .hostLinkDown => true
  | .hostLinkLossTimeout => true
  | .recordFetch queue => decide (queue < 1024)
  | .recordReread queue => decide (queue < 1024)
  | .stalledReread queue => decide (queue < 1024)
  | .admissionPass dispatcher => decide (dispatcher < 4)
  | .dispatchUnitEnd u run => u.wellFormed && decide (run < 2 ^ 32)
  | .commandSkip queue seq => decide (queue < 1024) && decide (seq < 2 ^ 64)
  | .commandComplete queue seq => decide (queue < 1024) && decide (seq < 2 ^ 64)
  | .globalFlushDone queue seq => decide (queue < 1024) && decide (seq < 2 ^ 64)
  | .pinRetry queue => decide (queue < 1024)
  | .waitTimeout queue => decide (queue < 1024)
  | .residenceWait context => decide (context < 4096)
  | .residenceTimeout queue => decide (queue < 1024)
  | .faultLimit context fseq => decide (context < 4096) && decide (fseq < 2 ^ 64)
  | .strokeBoundary _ => true
  | .plateHandover plate => decide (plate < 16)
  | .strokeOverrun u run => u.wellFormed && decide (run < 2 ^ 32)
  | .engineHung u => u.wellFormed
  | .ptpSync m => m.wellFormed
  | .syncTimeout => true
  | .alignmentAcquired => true
  | .alignmentLost => true
  | .slotOpen port slot => decide (port < 8) && decide (slot < 64)
  | .burinBankLoaded plate array => decide (plate < 16) && decide (array < 12)
  | .burinTileDelivery plate array => decide (plate < 16) && decide (array < 12)
  | .traySlotFree plate => decide (plate < 16)
  | .stippleTileTaken plate unit => decide (plate < 16) && decide (unit < 2)
  | .stippleTileWritten plate unit => decide (plate < 16) && decide (unit < 2)
  | .tracerUnit plate => decide (plate < 16)
  | .stencilToken tile => decide (tile < 4)
  | .aquatintPairCommit plate => decide (plate < 16)
  | .inkWordEvict word => decide (word < 2 ^ 49)
  | .frameReceived port frame => decide (port < 8) && decide (frame.length ≤ 9232)
  | .linkDown port => decide (port < 8)
  | .linkUp port => decide (port < 8)
  | .transitForward port packet => decide (port < 8) && decide (packet.bytes.length ≤ 9232)
  | .passThroughFrame port frame => decide (port < 8) && decide (frame.length ≤ 9232)
  | .promotionAnnouncement => true
  | .packetSend qp _ => decide (qp < 65536)
  | .dataPacketReceived port _ packet => decide (port < 8) && decide (packet.length ≤ 9232)
  | .inkPacketReceived port _ packet => decide (port < 8) && decide (packet.length ≤ 9232)
  | .ackReceived port _ packet _ => decide (port < 8) && decide (packet.length ≤ 9232)
  | .ackTimer qp => decide (qp < 65536)
  | .retransmitTimeout qp => decide (qp < 65536)
  | .rnrResend qp => decide (qp < 65536)
  | .rnrTimeout qp => decide (qp < 65536)
  | .qpStateFetched qp => decide (qp < 65536)
  | .triggerFire qp => decide (qp < 65536)
  | .triggerTimeout qp => decide (qp < 65536)
  | .bucketStart context group => decide (context < 4096) && decide (group < 64)
  | .xhSegmentReceived m => m.wellFormed
  | .verdictRecordReceived m => m.wellFormed
  | .deadlineExpiry k => k.wellFormed
  | .verdictTimeout k => k.wellFormed
  | .shardPieceReceived qp _ => decide (qp < 65536)
  | .shardPieceHashed queue seq => decide (queue < 1024) && decide (seq < 2 ^ 64)
  | .shardTrailerReceived qp _ => decide (qp < 65536)
  | .shardTimeout queue seq => decide (queue < 1024) && decide (seq < 2 ^ 64)
  | .epochRelease epoch => decide (epoch < 65536)
  | .keepPieceReceived qp _ => decide (qp < 65536)
  | .keepDigestReceived qp _ => decide (qp < 65536)
  | .restoreRequestReceived qp _ => decide (qp < 65536)
  | .fillRequestReceived qp _ => decide (qp < 65536)
  | .fillChunkReceived qp _ => decide (qp < 65536)
  | .easelFrameDecoded stream => decide (stream < 32)
  | .easelBatchStart stream => decide (stream < 32)
  | .batchMissingTimeout stream => decide (stream < 32)
  | .feedTimeout stream => decide (stream < 32)
  | .discoverSend port => decide (port < 2)
  | .discover port frame => decide (port < 2) && decide (frame.length ≤ 9232)
  | .discoveryWindowClose port => decide (port < 2)
  | .helloSend port => decide (port < 2)
  | .plcaFallback port => decide (port < 2)
  | .collisionBackoff port => decide (port < 2)
  | .serviceFrameReceived port frame => decide (port < 2) && decide (frame.length ≤ 9232)
  | .takeover port frame => decide (port < 2) && decide (frame.length ≤ 9232)
  | .takeoverRepeat => true
  | .failureRate port frame => decide (port < 2) && decide (frame.length ≤ 9232)
  | .failureRateSend => true
  | .debugRequest port frame => decide (port < 2) && decide (frame.length ≤ 9232)
  | .delayedWarmReset e => e.wellFormed
  | .logExportSend => true
  | .wakeMatch port frame => decide (port < 2) && decide (frame.length ≤ 9232)
  | .wakeRailTimeout => true
  | .sensorSample x => x.wellFormed
  | .sensorFailed sensor => decide (sensor < 68)
  | .sensorRecovered sensor => decide (sensor < 68)
  | .thermalTrip => true
  | .brdThrotAssert => true
  | .brdThrotRelease => true
  | .avsStep tile => decide (tile < 4)
  | .avsTimeout tile => decide (tile < 4)
  | .railFault rail => decide (rail < 13)
  | .railRelease => true
  | .railRecovered e => e.wellFormed
  | .railRecoveryTimeout => true
  | .fabclkLost => true
  | .fabclkRestored e => e.wellFormed
  | .auxclkLost => true
  | .auxclkRestored => true
  | .refclkLost => true
  | .coldReset e => e.wellFormed
  | .warmReset e => e.wellFormed
  | .perstReset e => e.wellFormed
  | .functionLevelReset => true
  | .bootStageTimeout e => e.wellFormed
  | .flashTimeout => true
  | .watchdogReset e => e.wellFormed
  | .serviceRestart => true
  | .patrolRead line _ => decide (line < 2 ^ 49)
  | .vaux3v3Loss => true
  | .vaux3v3PowerOn => true
  | .wakeRailsInWindow e => e.wellFormed
  | .restoreChunkReceived qp _ => decide (qp < 65536)
  | .frameZeroFillDone frame => decide (frame < 2 ^ 33)
  | .tapInstruction code => decide (code < 256)
  | .plcaBeaconHeard port => decide (port < 2)

/-- The packet of a packet command: the bytes by which its row is spelled; none for an event (R159). -/
def Instr.packet? : Instr → Option Packet
  | .contextCreate p => some p
  | .contextDestroy p => some p
  | .contextQuery p => some p
  | .queueCreate p => some p
  | .queueDestroy p => some p
  | .queueDrain p => some p
  | .queueStart p => some p
  | .queueQuery p => some p
  | .memRegister p => some p
  | .memRelease p => some p
  | .memPin p => some p
  | .memUnpin p => some p
  | .descCreate p => some p
  | .descRelease p => some p
  | .dmaCopy p => some p
  | .faultResume p => some p
  | .tlbInvalidate p => some p
  | .linear p => some p
  | .stipple p => some p
  | .attnFwd p => some p
  | .attnPrep p => some p
  | .attnBwd p => some p
  | .gradPolicy p => some p
  | .tracer p => some p
  | .route p => some p
  | .exit p => some p
  | .mask p => some p
  | .inkInit p => some p
  | .inkRead p => some p
  | .nop p => some p
  | .inkOverride p => some p
  | .qpCreate p => some p
  | .qpConnect p => some p
  | .qpDestroy p => some p
  | .postRecv p => some p
  | .postSend p => some p
  | .postInk p => some p
  | .qpQuery p => some p
  | .xhGroup p => some p
  | .xhReduce p => some p
  | .xhAbort p => some p
  | .prefetchHint p => some p
  | .manifestLoad p => some p
  | .shardSend p => some p
  | .shardReceive p => some p
  | .baseInstall p => some p
  | .baseMap p => some p
  | .baseRetire p => some p
  | .tensorClass p => some p
  | .snapshot p => some p
  | .restore p => some p
  | .mirror p => some p
  | .ledgerSet p => some p
  | .replay p => some p
  | .spareArm p => some p
  | .sparePromote p => some p
  | .placementSet p => some p
  | .streamOpen p => some p
  | .streamFeed p => some p
  | .streamClose p => some p
  | .attest p => some p
  | .sessionKey p => some p
  | .fwStage p => some p
  | .fwActivate p => some p
  | .configRead p => some p
  | .configWrite p => some p
  | .logRead p => some p
  | .telemetryRead p => some p
  | .profileSet p => some p
  | .strokeSet p => some p
  | .routemapLoad p => some p
  | .routemapSwitch p => some p
  | .strokeQuery p => some p
  | .mboxNop _ => none
  | .sbSend _ => none
  | .mboxTelemetry _ => none
  | .mboxConfigRead _ => none
  | .mboxConfigWrite _ => none
  | .mboxProfileSet _ => none
  | .recoveryBegin _ => none
  | .recoveryData _ => none
  | .recoveryCommit _ => none
  | .mctpRequest _ => none
  | .smbusClockTimeout => none
  | .sqTailWrite _ _ => none
  | .cqHeadWrite _ _ => none
  | .admqEnable => none
  | .admqDisable => none
  | .sbRxHeadWrite _ => none
  | .faultSummaryRead _ => none
  | .halfReadLatch _ => none
  | .tableWindowWrite _ _ => none
  | .registerWrite _ _ _ => none
  | .hostInboundRequest _ => none
  | .cxlSnoop _ => none
  | .backInvalidationResponse _ _ => none
  | .hostLinkUp _ _ => none
  | .hostLinkDown => none
  | .hostLinkLossTimeout => none
  | .recordFetch _ => none
  | .recordReread _ => none
  | .stalledReread _ => none
  | .admissionPass _ => none
  | .dispatchUnitEnd _ _ => none
  | .commandSkip _ _ => none
  | .commandComplete _ _ => none
  | .globalFlushDone _ _ => none
  | .pinRetry _ => none
  | .waitTimeout _ => none
  | .residenceWait _ => none
  | .residenceTimeout _ => none
  | .faultLimit _ _ => none
  | .strokeBoundary _ => none
  | .plateHandover _ => none
  | .strokeOverrun _ _ => none
  | .engineHung _ => none
  | .ptpSync _ => none
  | .syncTimeout => none
  | .alignmentAcquired => none
  | .alignmentLost => none
  | .slotOpen _ _ => none
  | .burinBankLoaded _ _ => none
  | .burinTileDelivery _ _ => none
  | .traySlotFree _ => none
  | .stippleTileTaken _ _ => none
  | .stippleTileWritten _ _ => none
  | .tracerUnit _ => none
  | .stencilToken _ => none
  | .aquatintPairCommit _ => none
  | .inkWordEvict _ => none
  | .frameReceived _ _ => none
  | .linkDown _ => none
  | .linkUp _ => none
  | .transitForward _ _ => none
  | .passThroughFrame _ _ => none
  | .promotionAnnouncement => none
  | .packetSend _ _ => none
  | .dataPacketReceived _ _ _ => none
  | .inkPacketReceived _ _ _ => none
  | .ackReceived _ _ _ _ => none
  | .ackTimer _ => none
  | .retransmitTimeout _ => none
  | .rnrResend _ => none
  | .rnrTimeout _ => none
  | .qpStateFetched _ => none
  | .triggerFire _ => none
  | .triggerTimeout _ => none
  | .bucketStart _ _ => none
  | .xhSegmentReceived _ => none
  | .verdictRecordReceived _ => none
  | .deadlineExpiry _ => none
  | .verdictTimeout _ => none
  | .shardPieceReceived _ _ => none
  | .shardPieceHashed _ _ => none
  | .shardTrailerReceived _ _ => none
  | .shardTimeout _ _ => none
  | .epochRelease _ => none
  | .keepPieceReceived _ _ => none
  | .keepDigestReceived _ _ => none
  | .restoreRequestReceived _ _ => none
  | .fillRequestReceived _ _ => none
  | .fillChunkReceived _ _ => none
  | .easelFrameDecoded _ => none
  | .easelBatchStart _ => none
  | .batchMissingTimeout _ => none
  | .feedTimeout _ => none
  | .discoverSend _ => none
  | .discover _ _ => none
  | .discoveryWindowClose _ => none
  | .helloSend _ => none
  | .plcaFallback _ => none
  | .collisionBackoff _ => none
  | .serviceFrameReceived _ _ => none
  | .takeover _ _ => none
  | .takeoverRepeat => none
  | .failureRate _ _ => none
  | .failureRateSend => none
  | .debugRequest _ _ => none
  | .delayedWarmReset _ => none
  | .logExportSend => none
  | .wakeMatch _ _ => none
  | .wakeRailTimeout => none
  | .sensorSample _ => none
  | .sensorFailed _ => none
  | .sensorRecovered _ => none
  | .thermalTrip => none
  | .brdThrotAssert => none
  | .brdThrotRelease => none
  | .avsStep _ => none
  | .avsTimeout _ => none
  | .railFault _ => none
  | .railRelease => none
  | .railRecovered _ => none
  | .railRecoveryTimeout => none
  | .fabclkLost => none
  | .fabclkRestored _ => none
  | .auxclkLost => none
  | .auxclkRestored => none
  | .refclkLost => none
  | .coldReset _ => none
  | .warmReset _ => none
  | .perstReset _ => none
  | .functionLevelReset => none
  | .bootStageTimeout _ => none
  | .flashTimeout => none
  | .watchdogReset _ => none
  | .serviceRestart => none
  | .patrolRead _ _ => none
  | .vaux3v3Loss => none
  | .vaux3v3PowerOn => none
  | .wakeRailsInWindow _ => none
  | .restoreChunkReceived _ _ => none
  | .frameZeroFillDone _ => none
  | .tapInstruction _ => none
  | .plcaBeaconHeard _ => none

end Sys2Proof
end

