-- ==== Sys2Proof/Laws/PerInstr.lean ====
section
/-! SUPPORT. Per instruction: a well-formed packet command is the one that its packet spells by OPCODE (R159); an event is spelled by no packet. -/

namespace Sys2Proof.Laws.PacketOf

open Sys2Proof

/-- The packet of a well-formed command, where it has one, is decoded to the command (R159, R182). -/
def Statement (i : Instr) : Prop := i.wellFormed = true → ∀ p, i.packet? = some p → p.command = some i

/-- A packet of a known opcode is decoded by it. -/
theorem of_code {i : Instr} {p : Packet} {op : Nat} (hi : i.packet? = some p) (hw : i.wellFormed = p.wellFormed op)
    (hc : commandOf op p = some i) : Statement i := by
  intro h q hq
  rw [hi] at hq
  cases hq
  rw [hw] at h
  simp only [Packet.wellFormed, Bool.and_eq_true, decide_eq_true_eq] at h
  rw [Packet.command, h.2, hc]

/-- An event is spelled by no packet. -/
theorem of_event {i : Instr} (hi : i.packet? = none) : Statement i := by
  intro _ q hq
  rw [hi] at hq
  cases hq

theorem contextCreate (p : Packet) : Statement (.contextCreate p) := of_code rfl rfl rfl

theorem contextDestroy (p : Packet) : Statement (.contextDestroy p) := of_code rfl rfl rfl

theorem contextQuery (p : Packet) : Statement (.contextQuery p) := of_code rfl rfl rfl

theorem queueCreate (p : Packet) : Statement (.queueCreate p) := of_code rfl rfl rfl

theorem queueDestroy (p : Packet) : Statement (.queueDestroy p) := of_code rfl rfl rfl

theorem queueDrain (p : Packet) : Statement (.queueDrain p) := of_code rfl rfl rfl

theorem queueStart (p : Packet) : Statement (.queueStart p) := of_code rfl rfl rfl

theorem queueQuery (p : Packet) : Statement (.queueQuery p) := of_code rfl rfl rfl

theorem memRegister (p : Packet) : Statement (.memRegister p) := of_code rfl rfl rfl

theorem memRelease (p : Packet) : Statement (.memRelease p) := of_code rfl rfl rfl

theorem memPin (p : Packet) : Statement (.memPin p) := of_code rfl rfl rfl

theorem memUnpin (p : Packet) : Statement (.memUnpin p) := of_code rfl rfl rfl

theorem descCreate (p : Packet) : Statement (.descCreate p) := of_code rfl rfl rfl

theorem descRelease (p : Packet) : Statement (.descRelease p) := of_code rfl rfl rfl

theorem dmaCopy (p : Packet) : Statement (.dmaCopy p) := of_code rfl rfl rfl

theorem faultResume (p : Packet) : Statement (.faultResume p) := of_code rfl rfl rfl

theorem tlbInvalidate (p : Packet) : Statement (.tlbInvalidate p) := of_code rfl rfl rfl

theorem linear (p : Packet) : Statement (.linear p) := of_code rfl rfl rfl

theorem stipple (p : Packet) : Statement (.stipple p) := of_code rfl rfl rfl

theorem attnFwd (p : Packet) : Statement (.attnFwd p) := of_code rfl rfl rfl

theorem attnPrep (p : Packet) : Statement (.attnPrep p) := of_code rfl rfl rfl

theorem attnBwd (p : Packet) : Statement (.attnBwd p) := of_code rfl rfl rfl

theorem gradPolicy (p : Packet) : Statement (.gradPolicy p) := of_code rfl rfl rfl

theorem tracer (p : Packet) : Statement (.tracer p) := of_code rfl rfl rfl

theorem route (p : Packet) : Statement (.route p) := of_code rfl rfl rfl

theorem exit (p : Packet) : Statement (.exit p) := of_code rfl rfl rfl

theorem mask (p : Packet) : Statement (.mask p) := of_code rfl rfl rfl

theorem inkInit (p : Packet) : Statement (.inkInit p) := of_code rfl rfl rfl

theorem inkRead (p : Packet) : Statement (.inkRead p) := of_code rfl rfl rfl

theorem nop (p : Packet) : Statement (.nop p) := of_code rfl rfl rfl

theorem inkOverride (p : Packet) : Statement (.inkOverride p) := of_code rfl rfl rfl

theorem qpCreate (p : Packet) : Statement (.qpCreate p) := of_code rfl rfl rfl

theorem qpConnect (p : Packet) : Statement (.qpConnect p) := of_code rfl rfl rfl

theorem qpDestroy (p : Packet) : Statement (.qpDestroy p) := of_code rfl rfl rfl

theorem postRecv (p : Packet) : Statement (.postRecv p) := of_code rfl rfl rfl

theorem postSend (p : Packet) : Statement (.postSend p) := of_code rfl rfl rfl

theorem postInk (p : Packet) : Statement (.postInk p) := of_code rfl rfl rfl

theorem qpQuery (p : Packet) : Statement (.qpQuery p) := of_code rfl rfl rfl

theorem xhGroup (p : Packet) : Statement (.xhGroup p) := of_code rfl rfl rfl

theorem xhReduce (p : Packet) : Statement (.xhReduce p) := of_code rfl rfl rfl

theorem xhAbort (p : Packet) : Statement (.xhAbort p) := of_code rfl rfl rfl

theorem prefetchHint (p : Packet) : Statement (.prefetchHint p) := of_code rfl rfl rfl

theorem manifestLoad (p : Packet) : Statement (.manifestLoad p) := of_code rfl rfl rfl

theorem shardSend (p : Packet) : Statement (.shardSend p) := of_code rfl rfl rfl

theorem shardReceive (p : Packet) : Statement (.shardReceive p) := of_code rfl rfl rfl

theorem baseInstall (p : Packet) : Statement (.baseInstall p) := of_code rfl rfl rfl

theorem baseMap (p : Packet) : Statement (.baseMap p) := of_code rfl rfl rfl

theorem baseRetire (p : Packet) : Statement (.baseRetire p) := of_code rfl rfl rfl

theorem tensorClass (p : Packet) : Statement (.tensorClass p) := of_code rfl rfl rfl

theorem snapshot (p : Packet) : Statement (.snapshot p) := of_code rfl rfl rfl

theorem restore (p : Packet) : Statement (.restore p) := of_code rfl rfl rfl

theorem mirror (p : Packet) : Statement (.mirror p) := of_code rfl rfl rfl

theorem ledgerSet (p : Packet) : Statement (.ledgerSet p) := of_code rfl rfl rfl

theorem replay (p : Packet) : Statement (.replay p) := of_code rfl rfl rfl

theorem spareArm (p : Packet) : Statement (.spareArm p) := of_code rfl rfl rfl

theorem sparePromote (p : Packet) : Statement (.sparePromote p) := of_code rfl rfl rfl

theorem placementSet (p : Packet) : Statement (.placementSet p) := of_code rfl rfl rfl

theorem streamOpen (p : Packet) : Statement (.streamOpen p) := of_code rfl rfl rfl

theorem streamFeed (p : Packet) : Statement (.streamFeed p) := of_code rfl rfl rfl

theorem streamClose (p : Packet) : Statement (.streamClose p) := of_code rfl rfl rfl

theorem attest (p : Packet) : Statement (.attest p) := of_code rfl rfl rfl

theorem sessionKey (p : Packet) : Statement (.sessionKey p) := of_code rfl rfl rfl

theorem fwStage (p : Packet) : Statement (.fwStage p) := of_code rfl rfl rfl

theorem fwActivate (p : Packet) : Statement (.fwActivate p) := of_code rfl rfl rfl

theorem configRead (p : Packet) : Statement (.configRead p) := of_code rfl rfl rfl

theorem configWrite (p : Packet) : Statement (.configWrite p) := of_code rfl rfl rfl

theorem logRead (p : Packet) : Statement (.logRead p) := of_code rfl rfl rfl

theorem telemetryRead (p : Packet) : Statement (.telemetryRead p) := of_code rfl rfl rfl

theorem profileSet (p : Packet) : Statement (.profileSet p) := of_code rfl rfl rfl

theorem strokeSet (p : Packet) : Statement (.strokeSet p) := of_code rfl rfl rfl

theorem routemapLoad (p : Packet) : Statement (.routemapLoad p) := of_code rfl rfl rfl

theorem routemapSwitch (p : Packet) : Statement (.routemapSwitch p) := of_code rfl rfl rfl

theorem strokeQuery (p : Packet) : Statement (.strokeQuery p) := of_code rfl rfl rfl

theorem mboxNop (r : MboxRequest) : Statement (.mboxNop r) := of_event rfl

theorem sbSend (r : MboxRequest) : Statement (.sbSend r) := of_event rfl

theorem mboxTelemetry (r : MboxRequest) : Statement (.mboxTelemetry r) := of_event rfl

theorem mboxConfigRead (r : MboxRequest) : Statement (.mboxConfigRead r) := of_event rfl

theorem mboxConfigWrite (r : MboxRequest) : Statement (.mboxConfigWrite r) := of_event rfl

theorem mboxProfileSet (r : MboxRequest) : Statement (.mboxProfileSet r) := of_event rfl

theorem recoveryBegin (r : MboxRequest) : Statement (.recoveryBegin r) := of_event rfl

theorem recoveryData (r : MboxRequest) : Statement (.recoveryData r) := of_event rfl

theorem recoveryCommit (r : MboxRequest) : Statement (.recoveryCommit r) := of_event rfl

theorem mctpRequest (m : MctpMessage) : Statement (.mctpRequest m) := of_event rfl

theorem smbusClockTimeout : Statement .smbusClockTimeout := of_event rfl

theorem sqTailWrite (queue : Nat) (value : Nat) : Statement (.sqTailWrite queue value) := of_event rfl

theorem cqHeadWrite (queue : Nat) (value : Nat) : Statement (.cqHeadWrite queue value) := of_event rfl

theorem admqEnable : Statement .admqEnable := of_event rfl

theorem admqDisable : Statement .admqDisable := of_event rfl

theorem sbRxHeadWrite (value : Nat) : Statement (.sbRxHeadWrite value) := of_event rfl

theorem faultSummaryRead (word : Nat) : Statement (.faultSummaryRead word) := of_event rfl

theorem halfReadLatch (offset : Nat) : Statement (.halfReadLatch offset) := of_event rfl

theorem tableWindowWrite (offset : Nat) (data : List Byte) : Statement (.tableWindowWrite offset data) := of_event rfl

theorem registerWrite (offset : Nat) (size : Nat) (value : Nat) : Statement (.registerWrite offset size value) := of_event rfl

theorem hostInboundRequest (r : HostRequest) : Statement (.hostInboundRequest r) := of_event rfl

theorem cxlSnoop (line : Nat) : Statement (.cxlSnoop line) := of_event rfl

theorem backInvalidationResponse (line : Nat) (writeBack : List Byte) : Statement (.backInvalidationResponse line writeBack) := of_event rfl

theorem hostLinkUp (cxl : Bool) (width : Nat) : Statement (.hostLinkUp cxl width) := of_event rfl

theorem hostLinkDown : Statement .hostLinkDown := of_event rfl

theorem hostLinkLossTimeout : Statement .hostLinkLossTimeout := of_event rfl

theorem recordFetch (queue : Nat) : Statement (.recordFetch queue) := of_event rfl

theorem recordReread (queue : Nat) : Statement (.recordReread queue) := of_event rfl

theorem stalledReread (queue : Nat) : Statement (.stalledReread queue) := of_event rfl

theorem admissionPass (dispatcher : Nat) : Statement (.admissionPass dispatcher) := of_event rfl

theorem dispatchUnitEnd (u : UnitRef) (run : Nat) : Statement (.dispatchUnitEnd u run) := of_event rfl

theorem commandSkip (queue : Nat) (seq : Nat) : Statement (.commandSkip queue seq) := of_event rfl

theorem commandComplete (queue : Nat) (seq : Nat) : Statement (.commandComplete queue seq) := of_event rfl

theorem globalFlushDone (queue : Nat) (seq : Nat) : Statement (.globalFlushDone queue seq) := of_event rfl

theorem pinRetry (queue : Nat) : Statement (.pinRetry queue) := of_event rfl

theorem waitTimeout (queue : Nat) : Statement (.waitTimeout queue) := of_event rfl

theorem residenceWait (context : Nat) : Statement (.residenceWait context) := of_event rfl

theorem residenceTimeout (queue : Nat) : Statement (.residenceTimeout queue) := of_event rfl

theorem faultLimit (context : Nat) (fseq : Nat) : Statement (.faultLimit context fseq) := of_event rfl

theorem strokeBoundary (b : BoundaryInput) : Statement (.strokeBoundary b) := of_event rfl

theorem plateHandover (plate : Nat) : Statement (.plateHandover plate) := of_event rfl

theorem strokeOverrun (u : UnitRef) (run : Nat) : Statement (.strokeOverrun u run) := of_event rfl

theorem engineHung (u : UnitRef) : Statement (.engineHung u) := of_event rfl

theorem ptpSync (m : PtpMessage) : Statement (.ptpSync m) := of_event rfl

theorem syncTimeout : Statement .syncTimeout := of_event rfl

theorem alignmentAcquired : Statement .alignmentAcquired := of_event rfl

theorem alignmentLost : Statement .alignmentLost := of_event rfl

theorem slotOpen (port : Nat) (slot : Nat) : Statement (.slotOpen port slot) := of_event rfl

theorem burinBankLoaded (plate : Nat) (array : Nat) : Statement (.burinBankLoaded plate array) := of_event rfl

theorem burinTileDelivery (plate : Nat) (array : Nat) : Statement (.burinTileDelivery plate array) := of_event rfl

theorem traySlotFree (plate : Nat) : Statement (.traySlotFree plate) := of_event rfl

theorem stippleTileTaken (plate : Nat) (unit : Nat) : Statement (.stippleTileTaken plate unit) := of_event rfl

theorem stippleTileWritten (plate : Nat) (unit : Nat) : Statement (.stippleTileWritten plate unit) := of_event rfl

theorem tracerUnit (plate : Nat) : Statement (.tracerUnit plate) := of_event rfl

theorem stencilToken (tile : Nat) : Statement (.stencilToken tile) := of_event rfl

theorem aquatintPairCommit (plate : Nat) : Statement (.aquatintPairCommit plate) := of_event rfl

theorem inkWordEvict (word : Nat) : Statement (.inkWordEvict word) := of_event rfl

theorem frameReceived (port : Nat) (frame : List Byte) : Statement (.frameReceived port frame) := of_event rfl

theorem linkDown (port : Nat) : Statement (.linkDown port) := of_event rfl

theorem linkUp (port : Nat) : Statement (.linkUp port) := of_event rfl

theorem transitForward (port : Nat) (packet : TransitInput) : Statement (.transitForward port packet) := of_event rfl

theorem passThroughFrame (port : Nat) (frame : List Byte) : Statement (.passThroughFrame port frame) := of_event rfl

theorem promotionAnnouncement : Statement .promotionAnnouncement := of_event rfl

theorem packetSend (qp : Nat) (now : Nat) : Statement (.packetSend qp now) := of_event rfl

theorem dataPacketReceived (port : Nat) (checksumOk : Bool) (packet : List Byte) : Statement (.dataPacketReceived port checksumOk packet) := of_event rfl

theorem inkPacketReceived (port : Nat) (checksumOk : Bool) (packet : List Byte) : Statement (.inkPacketReceived port checksumOk packet) := of_event rfl

theorem ackReceived (port : Nat) (checksumOk : Bool) (packet : List Byte) (now : Nat) : Statement (.ackReceived port checksumOk packet now) := of_event rfl

theorem ackTimer (qp : Nat) : Statement (.ackTimer qp) := of_event rfl

theorem retransmitTimeout (qp : Nat) : Statement (.retransmitTimeout qp) := of_event rfl

theorem rnrResend (qp : Nat) : Statement (.rnrResend qp) := of_event rfl

theorem rnrTimeout (qp : Nat) : Statement (.rnrTimeout qp) := of_event rfl

theorem qpStateFetched (qp : Nat) : Statement (.qpStateFetched qp) := of_event rfl

theorem triggerFire (qp : Nat) : Statement (.triggerFire qp) := of_event rfl

theorem triggerTimeout (qp : Nat) : Statement (.triggerTimeout qp) := of_event rfl

theorem bucketStart (context : Nat) (group : Nat) : Statement (.bucketStart context group) := of_event rfl

theorem xhSegmentReceived (m : HeldMessage) : Statement (.xhSegmentReceived m) := of_event rfl

theorem verdictRecordReceived (m : HeldMessage) : Statement (.verdictRecordReceived m) := of_event rfl

theorem deadlineExpiry (k : BucketKey) : Statement (.deadlineExpiry k) := of_event rfl

theorem verdictTimeout (k : BucketKey) : Statement (.verdictTimeout k) := of_event rfl

theorem shardPieceReceived (qp : Nat) (piece : List Byte) : Statement (.shardPieceReceived qp piece) := of_event rfl

theorem shardPieceHashed (queue : Nat) (seq : Nat) : Statement (.shardPieceHashed queue seq) := of_event rfl

theorem shardTrailerReceived (qp : Nat) (trailer : List Byte) : Statement (.shardTrailerReceived qp trailer) := of_event rfl

theorem shardTimeout (queue : Nat) (seq : Nat) : Statement (.shardTimeout queue seq) := of_event rfl

theorem epochRelease (epoch : Nat) : Statement (.epochRelease epoch) := of_event rfl

theorem keepPieceReceived (qp : Nat) (piece : List Byte) : Statement (.keepPieceReceived qp piece) := of_event rfl

theorem keepDigestReceived (qp : Nat) (record : List Byte) : Statement (.keepDigestReceived qp record) := of_event rfl

theorem restoreRequestReceived (qp : Nat) (request : List Byte) : Statement (.restoreRequestReceived qp request) := of_event rfl

theorem fillRequestReceived (qp : Nat) (request : List Byte) : Statement (.fillRequestReceived qp request) := of_event rfl

theorem fillChunkReceived (qp : Nat) (chunk : List Byte) : Statement (.fillChunkReceived qp chunk) := of_event rfl

theorem easelFrameDecoded (stream : Nat) : Statement (.easelFrameDecoded stream) := of_event rfl

theorem easelBatchStart (stream : Nat) : Statement (.easelBatchStart stream) := of_event rfl

theorem batchMissingTimeout (stream : Nat) : Statement (.batchMissingTimeout stream) := of_event rfl

theorem feedTimeout (stream : Nat) : Statement (.feedTimeout stream) := of_event rfl

theorem discoverSend (port : Nat) : Statement (.discoverSend port) := of_event rfl

theorem discover (port : Nat) (frame : List Byte) : Statement (.discover port frame) := of_event rfl

theorem discoveryWindowClose (port : Nat) : Statement (.discoveryWindowClose port) := of_event rfl

theorem helloSend (port : Nat) : Statement (.helloSend port) := of_event rfl

theorem plcaFallback (port : Nat) : Statement (.plcaFallback port) := of_event rfl

theorem collisionBackoff (port : Nat) : Statement (.collisionBackoff port) := of_event rfl

theorem serviceFrameReceived (port : Nat) (frame : List Byte) : Statement (.serviceFrameReceived port frame) := of_event rfl

theorem takeover (port : Nat) (frame : List Byte) : Statement (.takeover port frame) := of_event rfl

theorem takeoverRepeat : Statement .takeoverRepeat := of_event rfl

theorem failureRate (port : Nat) (frame : List Byte) : Statement (.failureRate port frame) := of_event rfl

theorem failureRateSend : Statement .failureRateSend := of_event rfl

theorem debugRequest (port : Nat) (frame : List Byte) : Statement (.debugRequest port frame) := of_event rfl

theorem delayedWarmReset (e : BootInput) : Statement (.delayedWarmReset e) := of_event rfl

theorem logExportSend : Statement .logExportSend := of_event rfl

theorem wakeMatch (port : Nat) (frame : List Byte) : Statement (.wakeMatch port frame) := of_event rfl

theorem wakeRailTimeout : Statement .wakeRailTimeout := of_event rfl

theorem sensorSample (x : SensorInput) : Statement (.sensorSample x) := of_event rfl

theorem sensorFailed (sensor : Nat) : Statement (.sensorFailed sensor) := of_event rfl

theorem sensorRecovered (sensor : Nat) : Statement (.sensorRecovered sensor) := of_event rfl

theorem thermalTrip : Statement .thermalTrip := of_event rfl

theorem brdThrotAssert : Statement .brdThrotAssert := of_event rfl

theorem brdThrotRelease : Statement .brdThrotRelease := of_event rfl

theorem avsStep (tile : Nat) : Statement (.avsStep tile) := of_event rfl

theorem avsTimeout (tile : Nat) : Statement (.avsTimeout tile) := of_event rfl

theorem railFault (rail : Nat) : Statement (.railFault rail) := of_event rfl

theorem railRelease : Statement .railRelease := of_event rfl

theorem railRecovered (e : BootInput) : Statement (.railRecovered e) := of_event rfl

theorem railRecoveryTimeout : Statement .railRecoveryTimeout := of_event rfl

theorem fabclkLost : Statement .fabclkLost := of_event rfl

theorem fabclkRestored (e : BootInput) : Statement (.fabclkRestored e) := of_event rfl

theorem auxclkLost : Statement .auxclkLost := of_event rfl

theorem auxclkRestored : Statement .auxclkRestored := of_event rfl

theorem refclkLost : Statement .refclkLost := of_event rfl

theorem coldReset (e : BootInput) : Statement (.coldReset e) := of_event rfl

theorem warmReset (e : BootInput) : Statement (.warmReset e) := of_event rfl

theorem perstReset (e : BootInput) : Statement (.perstReset e) := of_event rfl

theorem functionLevelReset : Statement .functionLevelReset := of_event rfl

theorem bootStageTimeout (e : BootInput) : Statement (.bootStageTimeout e) := of_event rfl

theorem flashTimeout : Statement .flashTimeout := of_event rfl

theorem watchdogReset (e : BootInput) : Statement (.watchdogReset e) := of_event rfl

theorem serviceRestart : Statement .serviceRestart := of_event rfl

theorem patrolRead (line : Nat) (finding : PatrolFinding) : Statement (.patrolRead line finding) := of_event rfl

theorem vaux3v3Loss : Statement .vaux3v3Loss := of_event rfl

theorem vaux3v3PowerOn : Statement .vaux3v3PowerOn := of_event rfl

theorem wakeRailsInWindow (e : BootInput) : Statement (.wakeRailsInWindow e) := of_event rfl

theorem restoreChunkReceived (qp : Nat) (chunk : List Byte) : Statement (.restoreChunkReceived qp chunk) := of_event rfl

theorem frameZeroFillDone (frame : Nat) : Statement (.frameZeroFillDone frame) := of_event rfl

theorem tapInstruction (code : Nat) : Statement (.tapInstruction code) := of_event rfl

theorem plcaBeaconHeard (port : Nat) : Statement (.plcaBeaconHeard port) := of_event rfl

end Sys2Proof.Laws.PacketOf
end

