-- ==== Sys2Proof/Laws/State.lean ====
section
/-! SUPPORT. What the small updates of State leave as it is, field by field, and what they change. -/

namespace Sys2Proof.Machine

open Sys2Proof

@[simp] theorem State.updCtx_pending (s : State) (n : Nat) (f : Ctx → Ctx) : (s.updCtx n f).pending = s.pending := rfl
@[simp] theorem State.updCtx_free (s : State) (n : Nat) (f : Ctx → Ctx) : (s.updCtx n f).free = s.free := rfl
@[simp] theorem State.updCtx_sites (s : State) (n : Nat) (f : Ctx → Ctx) : (s.updCtx n f).sites = s.sites := rfl
@[simp] theorem State.updCtx_log (s : State) (n : Nat) (f : Ctx → Ctx) : (s.updCtx n f).log = s.log := rfl
@[simp] theorem State.updCtx_mem (s : State) (n : Nat) (f : Ctx → Ctx) : (s.updCtx n f).mem = s.mem := rfl
@[simp] theorem State.updCtx_queues (s : State) (n : Nat) (f : Ctx → Ctx) : (s.updCtx n f).queues = s.queues := rfl
@[simp] theorem State.updCtx_dbUnused (s : State) (n : Nat) (f : Ctx → Ctx) : (s.updCtx n f).dbUnused = s.dbUnused := rfl
@[simp] theorem State.updCtx_cmds (s : State) (n : Nat) (f : Ctx → Ctx) : (s.updCtx n f).cmds = s.cmds := rfl
@[simp] theorem State.updCtx_dispatchers (s : State) (n : Nat) (f : Ctx → Ctx) : (s.updCtx n f).dispatchers = s.dispatchers := rfl
@[simp] theorem State.updCtx_strk (s : State) (n : Nat) (f : Ctx → Ctx) : (s.updCtx n f).strk = s.strk := rfl
@[simp] theorem State.updCtx_plates (s : State) (n : Nat) (f : Ctx → Ctx) : (s.updCtx n f).plates = s.plates := rfl
@[simp] theorem State.updCtx_routers (s : State) (n : Nat) (f : Ctx → Ctx) : (s.updCtx n f).routers = s.routers := rfl
@[simp] theorem State.updCtx_preds (s : State) (n : Nat) (f : Ctx → Ctx) : (s.updCtx n f).preds = s.preds := rfl
@[simp] theorem State.updCtx_host (s : State) (n : Nat) (f : Ctx → Ctx) : (s.updCtx n f).host = s.host := rfl
@[simp] theorem State.updCtx_mbox (s : State) (n : Nat) (f : Ctx → Ctx) : (s.updCtx n f).mbox = s.mbox := rfl
@[simp] theorem State.updCtx_fabric (s : State) (n : Nat) (f : Ctx → Ctx) : (s.updCtx n f).fabric = s.fabric := rfl
@[simp] theorem State.updCtx_stylus (s : State) (n : Nat) (f : Ctx → Ctx) : (s.updCtx n f).stylus = s.stylus := rfl
@[simp] theorem State.updCtx_proof (s : State) (n : Nat) (f : Ctx → Ctx) : (s.updCtx n f).proof = s.proof := rfl
@[simp] theorem State.updCtx_mgmtOnly (s : State) (n : Nat) (f : Ctx → Ctx) : (s.updCtx n f).mgmtOnly = s.mgmtOnly := rfl
@[simp] theorem State.updCtx_ddrChannels (s : State) (n : Nat) (f : Ctx → Ctx) : (s.updCtx n f).ddrChannels = s.ddrChannels := rfl
@[simp] theorem State.updCtx_ddrGib (s : State) (n : Nat) (f : Ctx → Ctx) : (s.updCtx n f).ddrGib = s.ddrGib := rfl
@[simp] theorem State.updCtx_ddrRate (s : State) (n : Nat) (f : Ctx → Ctx) : (s.updCtx n f).ddrRate = s.ddrRate := rfl
@[simp] theorem State.updCtx_epochs (s : State) (n : Nat) (f : Ctx → Ctx) : (s.updCtx n f).epochs = s.epochs := rfl
@[simp] theorem State.updCtx_manifests (s : State) (n : Nat) (f : Ctx → Ctx) : (s.updCtx n f).manifests = s.manifests := rfl
@[simp] theorem State.updCtx_newest (s : State) (n : Nat) (f : Ctx → Ctx) : (s.updCtx n f).newest = s.newest := rfl
@[simp] theorem State.updCtx_buckets (s : State) (n : Nat) (f : Ctx → Ctx) : (s.updCtx n f).buckets = s.buckets := rfl
@[simp] theorem State.updCtx_eccCounts (s : State) (n : Nat) (f : Ctx → Ctx) : (s.updCtx n f).eccCounts = s.eccCounts := rfl
@[simp] theorem State.updCtx_boot (s : State) (n : Nat) (f : Ctx → Ctx) : (s.updCtx n f).boot = s.boot := rfl
@[simp] theorem State.updCtx_bus (s : State) (n : Nat) (f : Ctx → Ctx) : (s.updCtx n f).bus = s.bus := rfl
@[simp] theorem State.updCtx_power (s : State) (n : Nat) (f : Ctx → Ctx) : (s.updCtx n f).power = s.power := rfl
@[simp] theorem State.updCtx_side (s : State) (n : Nat) (f : Ctx → Ctx) : (s.updCtx n f).side = s.side := rfl
@[simp] theorem State.updCtx_spare (s : State) (n : Nat) (f : Ctx → Ctx) : (s.updCtx n f).spare = s.spare := rfl
@[simp] theorem State.updCtx_streams (s : State) (n : Nat) (f : Ctx → Ctx) : (s.updCtx n f).streams = s.streams := rfl
@[simp] theorem State.updCtx_nextPlacement (s : State) (n : Nat) (f : Ctx → Ctx) : (s.updCtx n f).nextPlacement = s.nextPlacement := rfl
@[simp] theorem State.updCtx_placement (s : State) (n : Nat) (f : Ctx → Ctx) : (s.updCtx n f).placement = s.placement := rfl
@[simp] theorem State.updCtx_admissions (s : State) (n : Nat) (f : Ctx → Ctx) : (s.updCtx n f).admissions = s.admissions := rfl

@[simp] theorem State.updQueue_pending (s : State) (q : Nat) (f : Queue → Queue) : (s.updQueue q f).pending = s.pending := rfl
@[simp] theorem State.updQueue_free (s : State) (q : Nat) (f : Queue → Queue) : (s.updQueue q f).free = s.free := rfl
@[simp] theorem State.updQueue_sites (s : State) (q : Nat) (f : Queue → Queue) : (s.updQueue q f).sites = s.sites := rfl
@[simp] theorem State.updQueue_log (s : State) (q : Nat) (f : Queue → Queue) : (s.updQueue q f).log = s.log := rfl
@[simp] theorem State.updQueue_mem (s : State) (q : Nat) (f : Queue → Queue) : (s.updQueue q f).mem = s.mem := rfl
@[simp] theorem State.updQueue_ctxs (s : State) (q : Nat) (f : Queue → Queue) : (s.updQueue q f).ctxs = s.ctxs := rfl
@[simp] theorem State.updQueue_dbUnused (s : State) (q : Nat) (f : Queue → Queue) : (s.updQueue q f).dbUnused = s.dbUnused := rfl
@[simp] theorem State.updQueue_cmds (s : State) (q : Nat) (f : Queue → Queue) : (s.updQueue q f).cmds = s.cmds := rfl
@[simp] theorem State.updQueue_dispatchers (s : State) (q : Nat) (f : Queue → Queue) : (s.updQueue q f).dispatchers = s.dispatchers := rfl
@[simp] theorem State.updQueue_strk (s : State) (q : Nat) (f : Queue → Queue) : (s.updQueue q f).strk = s.strk := rfl
@[simp] theorem State.updQueue_plates (s : State) (q : Nat) (f : Queue → Queue) : (s.updQueue q f).plates = s.plates := rfl
@[simp] theorem State.updQueue_routers (s : State) (q : Nat) (f : Queue → Queue) : (s.updQueue q f).routers = s.routers := rfl
@[simp] theorem State.updQueue_preds (s : State) (q : Nat) (f : Queue → Queue) : (s.updQueue q f).preds = s.preds := rfl
@[simp] theorem State.updQueue_host (s : State) (q : Nat) (f : Queue → Queue) : (s.updQueue q f).host = s.host := rfl
@[simp] theorem State.updQueue_mbox (s : State) (q : Nat) (f : Queue → Queue) : (s.updQueue q f).mbox = s.mbox := rfl
@[simp] theorem State.updQueue_fabric (s : State) (q : Nat) (f : Queue → Queue) : (s.updQueue q f).fabric = s.fabric := rfl
@[simp] theorem State.updQueue_stylus (s : State) (q : Nat) (f : Queue → Queue) : (s.updQueue q f).stylus = s.stylus := rfl
@[simp] theorem State.updQueue_proof (s : State) (q : Nat) (f : Queue → Queue) : (s.updQueue q f).proof = s.proof := rfl
@[simp] theorem State.updQueue_mgmtOnly (s : State) (q : Nat) (f : Queue → Queue) : (s.updQueue q f).mgmtOnly = s.mgmtOnly := rfl
@[simp] theorem State.updQueue_ddrChannels (s : State) (q : Nat) (f : Queue → Queue) : (s.updQueue q f).ddrChannels = s.ddrChannels := rfl
@[simp] theorem State.updQueue_ddrGib (s : State) (q : Nat) (f : Queue → Queue) : (s.updQueue q f).ddrGib = s.ddrGib := rfl
@[simp] theorem State.updQueue_ddrRate (s : State) (q : Nat) (f : Queue → Queue) : (s.updQueue q f).ddrRate = s.ddrRate := rfl
@[simp] theorem State.updQueue_epochs (s : State) (q : Nat) (f : Queue → Queue) : (s.updQueue q f).epochs = s.epochs := rfl
@[simp] theorem State.updQueue_manifests (s : State) (q : Nat) (f : Queue → Queue) : (s.updQueue q f).manifests = s.manifests := rfl
@[simp] theorem State.updQueue_newest (s : State) (q : Nat) (f : Queue → Queue) : (s.updQueue q f).newest = s.newest := rfl
@[simp] theorem State.updQueue_buckets (s : State) (q : Nat) (f : Queue → Queue) : (s.updQueue q f).buckets = s.buckets := rfl
@[simp] theorem State.updQueue_eccCounts (s : State) (q : Nat) (f : Queue → Queue) : (s.updQueue q f).eccCounts = s.eccCounts := rfl
@[simp] theorem State.updQueue_boot (s : State) (q : Nat) (f : Queue → Queue) : (s.updQueue q f).boot = s.boot := rfl
@[simp] theorem State.updQueue_bus (s : State) (q : Nat) (f : Queue → Queue) : (s.updQueue q f).bus = s.bus := rfl
@[simp] theorem State.updQueue_power (s : State) (q : Nat) (f : Queue → Queue) : (s.updQueue q f).power = s.power := rfl
@[simp] theorem State.updQueue_side (s : State) (q : Nat) (f : Queue → Queue) : (s.updQueue q f).side = s.side := rfl
@[simp] theorem State.updQueue_spare (s : State) (q : Nat) (f : Queue → Queue) : (s.updQueue q f).spare = s.spare := rfl
@[simp] theorem State.updQueue_streams (s : State) (q : Nat) (f : Queue → Queue) : (s.updQueue q f).streams = s.streams := rfl
@[simp] theorem State.updQueue_nextPlacement (s : State) (q : Nat) (f : Queue → Queue) : (s.updQueue q f).nextPlacement = s.nextPlacement := rfl
@[simp] theorem State.updQueue_placement (s : State) (q : Nat) (f : Queue → Queue) : (s.updQueue q f).placement = s.placement := rfl
@[simp] theorem State.updQueue_admissions (s : State) (q : Nat) (f : Queue → Queue) : (s.updQueue q f).admissions = s.admissions := rfl

@[simp] theorem State.updPlate_pending (s : State) (n : Nat) (f : Plate → Plate) : (s.updPlate n f).pending = s.pending := rfl
@[simp] theorem State.updPlate_free (s : State) (n : Nat) (f : Plate → Plate) : (s.updPlate n f).free = s.free := rfl
@[simp] theorem State.updPlate_sites (s : State) (n : Nat) (f : Plate → Plate) : (s.updPlate n f).sites = s.sites := rfl
@[simp] theorem State.updPlate_log (s : State) (n : Nat) (f : Plate → Plate) : (s.updPlate n f).log = s.log := rfl
@[simp] theorem State.updPlate_mem (s : State) (n : Nat) (f : Plate → Plate) : (s.updPlate n f).mem = s.mem := rfl
@[simp] theorem State.updPlate_ctxs (s : State) (n : Nat) (f : Plate → Plate) : (s.updPlate n f).ctxs = s.ctxs := rfl
@[simp] theorem State.updPlate_queues (s : State) (n : Nat) (f : Plate → Plate) : (s.updPlate n f).queues = s.queues := rfl
@[simp] theorem State.updPlate_dbUnused (s : State) (n : Nat) (f : Plate → Plate) : (s.updPlate n f).dbUnused = s.dbUnused := rfl
@[simp] theorem State.updPlate_cmds (s : State) (n : Nat) (f : Plate → Plate) : (s.updPlate n f).cmds = s.cmds := rfl
@[simp] theorem State.updPlate_dispatchers (s : State) (n : Nat) (f : Plate → Plate) : (s.updPlate n f).dispatchers = s.dispatchers := rfl
@[simp] theorem State.updPlate_strk (s : State) (n : Nat) (f : Plate → Plate) : (s.updPlate n f).strk = s.strk := rfl
@[simp] theorem State.updPlate_routers (s : State) (n : Nat) (f : Plate → Plate) : (s.updPlate n f).routers = s.routers := rfl
@[simp] theorem State.updPlate_preds (s : State) (n : Nat) (f : Plate → Plate) : (s.updPlate n f).preds = s.preds := rfl
@[simp] theorem State.updPlate_host (s : State) (n : Nat) (f : Plate → Plate) : (s.updPlate n f).host = s.host := rfl
@[simp] theorem State.updPlate_mbox (s : State) (n : Nat) (f : Plate → Plate) : (s.updPlate n f).mbox = s.mbox := rfl
@[simp] theorem State.updPlate_fabric (s : State) (n : Nat) (f : Plate → Plate) : (s.updPlate n f).fabric = s.fabric := rfl
@[simp] theorem State.updPlate_stylus (s : State) (n : Nat) (f : Plate → Plate) : (s.updPlate n f).stylus = s.stylus := rfl
@[simp] theorem State.updPlate_proof (s : State) (n : Nat) (f : Plate → Plate) : (s.updPlate n f).proof = s.proof := rfl
@[simp] theorem State.updPlate_mgmtOnly (s : State) (n : Nat) (f : Plate → Plate) : (s.updPlate n f).mgmtOnly = s.mgmtOnly := rfl
@[simp] theorem State.updPlate_ddrChannels (s : State) (n : Nat) (f : Plate → Plate) : (s.updPlate n f).ddrChannels = s.ddrChannels := rfl
@[simp] theorem State.updPlate_ddrGib (s : State) (n : Nat) (f : Plate → Plate) : (s.updPlate n f).ddrGib = s.ddrGib := rfl
@[simp] theorem State.updPlate_ddrRate (s : State) (n : Nat) (f : Plate → Plate) : (s.updPlate n f).ddrRate = s.ddrRate := rfl
@[simp] theorem State.updPlate_epochs (s : State) (n : Nat) (f : Plate → Plate) : (s.updPlate n f).epochs = s.epochs := rfl
@[simp] theorem State.updPlate_manifests (s : State) (n : Nat) (f : Plate → Plate) : (s.updPlate n f).manifests = s.manifests := rfl
@[simp] theorem State.updPlate_newest (s : State) (n : Nat) (f : Plate → Plate) : (s.updPlate n f).newest = s.newest := rfl
@[simp] theorem State.updPlate_buckets (s : State) (n : Nat) (f : Plate → Plate) : (s.updPlate n f).buckets = s.buckets := rfl
@[simp] theorem State.updPlate_eccCounts (s : State) (n : Nat) (f : Plate → Plate) : (s.updPlate n f).eccCounts = s.eccCounts := rfl
@[simp] theorem State.updPlate_boot (s : State) (n : Nat) (f : Plate → Plate) : (s.updPlate n f).boot = s.boot := rfl
@[simp] theorem State.updPlate_bus (s : State) (n : Nat) (f : Plate → Plate) : (s.updPlate n f).bus = s.bus := rfl
@[simp] theorem State.updPlate_power (s : State) (n : Nat) (f : Plate → Plate) : (s.updPlate n f).power = s.power := rfl
@[simp] theorem State.updPlate_side (s : State) (n : Nat) (f : Plate → Plate) : (s.updPlate n f).side = s.side := rfl
@[simp] theorem State.updPlate_spare (s : State) (n : Nat) (f : Plate → Plate) : (s.updPlate n f).spare = s.spare := rfl
@[simp] theorem State.updPlate_streams (s : State) (n : Nat) (f : Plate → Plate) : (s.updPlate n f).streams = s.streams := rfl
@[simp] theorem State.updPlate_nextPlacement (s : State) (n : Nat) (f : Plate → Plate) : (s.updPlate n f).nextPlacement = s.nextPlacement := rfl
@[simp] theorem State.updPlate_placement (s : State) (n : Nat) (f : Plate → Plate) : (s.updPlate n f).placement = s.placement := rfl
@[simp] theorem State.updPlate_admissions (s : State) (n : Nat) (f : Plate → Plate) : (s.updPlate n f).admissions = s.admissions := rfl

@[simp] theorem State.updRouter_pending (s : State) (n : Nat) (f : Router → Router) : (s.updRouter n f).pending = s.pending := rfl
@[simp] theorem State.updRouter_free (s : State) (n : Nat) (f : Router → Router) : (s.updRouter n f).free = s.free := rfl
@[simp] theorem State.updRouter_sites (s : State) (n : Nat) (f : Router → Router) : (s.updRouter n f).sites = s.sites := rfl
@[simp] theorem State.updRouter_log (s : State) (n : Nat) (f : Router → Router) : (s.updRouter n f).log = s.log := rfl
@[simp] theorem State.updRouter_mem (s : State) (n : Nat) (f : Router → Router) : (s.updRouter n f).mem = s.mem := rfl
@[simp] theorem State.updRouter_ctxs (s : State) (n : Nat) (f : Router → Router) : (s.updRouter n f).ctxs = s.ctxs := rfl
@[simp] theorem State.updRouter_queues (s : State) (n : Nat) (f : Router → Router) : (s.updRouter n f).queues = s.queues := rfl
@[simp] theorem State.updRouter_dbUnused (s : State) (n : Nat) (f : Router → Router) : (s.updRouter n f).dbUnused = s.dbUnused := rfl
@[simp] theorem State.updRouter_cmds (s : State) (n : Nat) (f : Router → Router) : (s.updRouter n f).cmds = s.cmds := rfl
@[simp] theorem State.updRouter_dispatchers (s : State) (n : Nat) (f : Router → Router) : (s.updRouter n f).dispatchers = s.dispatchers := rfl
@[simp] theorem State.updRouter_strk (s : State) (n : Nat) (f : Router → Router) : (s.updRouter n f).strk = s.strk := rfl
@[simp] theorem State.updRouter_plates (s : State) (n : Nat) (f : Router → Router) : (s.updRouter n f).plates = s.plates := rfl
@[simp] theorem State.updRouter_preds (s : State) (n : Nat) (f : Router → Router) : (s.updRouter n f).preds = s.preds := rfl
@[simp] theorem State.updRouter_host (s : State) (n : Nat) (f : Router → Router) : (s.updRouter n f).host = s.host := rfl
@[simp] theorem State.updRouter_mbox (s : State) (n : Nat) (f : Router → Router) : (s.updRouter n f).mbox = s.mbox := rfl
@[simp] theorem State.updRouter_fabric (s : State) (n : Nat) (f : Router → Router) : (s.updRouter n f).fabric = s.fabric := rfl
@[simp] theorem State.updRouter_stylus (s : State) (n : Nat) (f : Router → Router) : (s.updRouter n f).stylus = s.stylus := rfl
@[simp] theorem State.updRouter_proof (s : State) (n : Nat) (f : Router → Router) : (s.updRouter n f).proof = s.proof := rfl
@[simp] theorem State.updRouter_mgmtOnly (s : State) (n : Nat) (f : Router → Router) : (s.updRouter n f).mgmtOnly = s.mgmtOnly := rfl
@[simp] theorem State.updRouter_ddrChannels (s : State) (n : Nat) (f : Router → Router) : (s.updRouter n f).ddrChannels = s.ddrChannels := rfl
@[simp] theorem State.updRouter_ddrGib (s : State) (n : Nat) (f : Router → Router) : (s.updRouter n f).ddrGib = s.ddrGib := rfl
@[simp] theorem State.updRouter_ddrRate (s : State) (n : Nat) (f : Router → Router) : (s.updRouter n f).ddrRate = s.ddrRate := rfl
@[simp] theorem State.updRouter_epochs (s : State) (n : Nat) (f : Router → Router) : (s.updRouter n f).epochs = s.epochs := rfl
@[simp] theorem State.updRouter_manifests (s : State) (n : Nat) (f : Router → Router) : (s.updRouter n f).manifests = s.manifests := rfl
@[simp] theorem State.updRouter_newest (s : State) (n : Nat) (f : Router → Router) : (s.updRouter n f).newest = s.newest := rfl
@[simp] theorem State.updRouter_buckets (s : State) (n : Nat) (f : Router → Router) : (s.updRouter n f).buckets = s.buckets := rfl
@[simp] theorem State.updRouter_eccCounts (s : State) (n : Nat) (f : Router → Router) : (s.updRouter n f).eccCounts = s.eccCounts := rfl
@[simp] theorem State.updRouter_boot (s : State) (n : Nat) (f : Router → Router) : (s.updRouter n f).boot = s.boot := rfl
@[simp] theorem State.updRouter_bus (s : State) (n : Nat) (f : Router → Router) : (s.updRouter n f).bus = s.bus := rfl
@[simp] theorem State.updRouter_power (s : State) (n : Nat) (f : Router → Router) : (s.updRouter n f).power = s.power := rfl
@[simp] theorem State.updRouter_side (s : State) (n : Nat) (f : Router → Router) : (s.updRouter n f).side = s.side := rfl
@[simp] theorem State.updRouter_spare (s : State) (n : Nat) (f : Router → Router) : (s.updRouter n f).spare = s.spare := rfl
@[simp] theorem State.updRouter_streams (s : State) (n : Nat) (f : Router → Router) : (s.updRouter n f).streams = s.streams := rfl
@[simp] theorem State.updRouter_nextPlacement (s : State) (n : Nat) (f : Router → Router) : (s.updRouter n f).nextPlacement = s.nextPlacement := rfl
@[simp] theorem State.updRouter_placement (s : State) (n : Nat) (f : Router → Router) : (s.updRouter n f).placement = s.placement := rfl
@[simp] theorem State.updRouter_admissions (s : State) (n : Nat) (f : Router → Router) : (s.updRouter n f).admissions = s.admissions := rfl

@[simp] theorem State.updCmd_pending (s : State) (q k : Nat) (f : Cmd → Cmd) : (s.updCmd q k f).pending = s.pending := rfl
@[simp] theorem State.updCmd_free (s : State) (q k : Nat) (f : Cmd → Cmd) : (s.updCmd q k f).free = s.free := rfl
@[simp] theorem State.updCmd_sites (s : State) (q k : Nat) (f : Cmd → Cmd) : (s.updCmd q k f).sites = s.sites := rfl
@[simp] theorem State.updCmd_log (s : State) (q k : Nat) (f : Cmd → Cmd) : (s.updCmd q k f).log = s.log := rfl
@[simp] theorem State.updCmd_mem (s : State) (q k : Nat) (f : Cmd → Cmd) : (s.updCmd q k f).mem = s.mem := rfl
@[simp] theorem State.updCmd_ctxs (s : State) (q k : Nat) (f : Cmd → Cmd) : (s.updCmd q k f).ctxs = s.ctxs := rfl
@[simp] theorem State.updCmd_queues (s : State) (q k : Nat) (f : Cmd → Cmd) : (s.updCmd q k f).queues = s.queues := rfl
@[simp] theorem State.updCmd_dbUnused (s : State) (q k : Nat) (f : Cmd → Cmd) : (s.updCmd q k f).dbUnused = s.dbUnused := rfl
@[simp] theorem State.updCmd_dispatchers (s : State) (q k : Nat) (f : Cmd → Cmd) : (s.updCmd q k f).dispatchers = s.dispatchers := rfl
@[simp] theorem State.updCmd_strk (s : State) (q k : Nat) (f : Cmd → Cmd) : (s.updCmd q k f).strk = s.strk := rfl
@[simp] theorem State.updCmd_plates (s : State) (q k : Nat) (f : Cmd → Cmd) : (s.updCmd q k f).plates = s.plates := rfl
@[simp] theorem State.updCmd_routers (s : State) (q k : Nat) (f : Cmd → Cmd) : (s.updCmd q k f).routers = s.routers := rfl
@[simp] theorem State.updCmd_preds (s : State) (q k : Nat) (f : Cmd → Cmd) : (s.updCmd q k f).preds = s.preds := rfl
@[simp] theorem State.updCmd_host (s : State) (q k : Nat) (f : Cmd → Cmd) : (s.updCmd q k f).host = s.host := rfl
@[simp] theorem State.updCmd_mbox (s : State) (q k : Nat) (f : Cmd → Cmd) : (s.updCmd q k f).mbox = s.mbox := rfl
@[simp] theorem State.updCmd_fabric (s : State) (q k : Nat) (f : Cmd → Cmd) : (s.updCmd q k f).fabric = s.fabric := rfl
@[simp] theorem State.updCmd_stylus (s : State) (q k : Nat) (f : Cmd → Cmd) : (s.updCmd q k f).stylus = s.stylus := rfl
@[simp] theorem State.updCmd_proof (s : State) (q k : Nat) (f : Cmd → Cmd) : (s.updCmd q k f).proof = s.proof := rfl
@[simp] theorem State.updCmd_mgmtOnly (s : State) (q k : Nat) (f : Cmd → Cmd) : (s.updCmd q k f).mgmtOnly = s.mgmtOnly := rfl
@[simp] theorem State.updCmd_ddrChannels (s : State) (q k : Nat) (f : Cmd → Cmd) : (s.updCmd q k f).ddrChannels = s.ddrChannels := rfl
@[simp] theorem State.updCmd_ddrGib (s : State) (q k : Nat) (f : Cmd → Cmd) : (s.updCmd q k f).ddrGib = s.ddrGib := rfl
@[simp] theorem State.updCmd_ddrRate (s : State) (q k : Nat) (f : Cmd → Cmd) : (s.updCmd q k f).ddrRate = s.ddrRate := rfl
@[simp] theorem State.updCmd_epochs (s : State) (q k : Nat) (f : Cmd → Cmd) : (s.updCmd q k f).epochs = s.epochs := rfl
@[simp] theorem State.updCmd_manifests (s : State) (q k : Nat) (f : Cmd → Cmd) : (s.updCmd q k f).manifests = s.manifests := rfl
@[simp] theorem State.updCmd_newest (s : State) (q k : Nat) (f : Cmd → Cmd) : (s.updCmd q k f).newest = s.newest := rfl
@[simp] theorem State.updCmd_buckets (s : State) (q k : Nat) (f : Cmd → Cmd) : (s.updCmd q k f).buckets = s.buckets := rfl
@[simp] theorem State.updCmd_eccCounts (s : State) (q k : Nat) (f : Cmd → Cmd) : (s.updCmd q k f).eccCounts = s.eccCounts := rfl
@[simp] theorem State.updCmd_boot (s : State) (q k : Nat) (f : Cmd → Cmd) : (s.updCmd q k f).boot = s.boot := rfl
@[simp] theorem State.updCmd_bus (s : State) (q k : Nat) (f : Cmd → Cmd) : (s.updCmd q k f).bus = s.bus := rfl
@[simp] theorem State.updCmd_power (s : State) (q k : Nat) (f : Cmd → Cmd) : (s.updCmd q k f).power = s.power := rfl
@[simp] theorem State.updCmd_side (s : State) (q k : Nat) (f : Cmd → Cmd) : (s.updCmd q k f).side = s.side := rfl
@[simp] theorem State.updCmd_spare (s : State) (q k : Nat) (f : Cmd → Cmd) : (s.updCmd q k f).spare = s.spare := rfl
@[simp] theorem State.updCmd_streams (s : State) (q k : Nat) (f : Cmd → Cmd) : (s.updCmd q k f).streams = s.streams := rfl
@[simp] theorem State.updCmd_nextPlacement (s : State) (q k : Nat) (f : Cmd → Cmd) : (s.updCmd q k f).nextPlacement = s.nextPlacement := rfl
@[simp] theorem State.updCmd_placement (s : State) (q k : Nat) (f : Cmd → Cmd) : (s.updCmd q k f).placement = s.placement := rfl
@[simp] theorem State.updCmd_admissions (s : State) (q k : Nat) (f : Cmd → Cmd) : (s.updCmd q k f).admissions = s.admissions := rfl

@[simp] theorem State.updMem_pending (s : State) (f : Memory → Memory) : (s.updMem f).pending = s.pending := rfl
@[simp] theorem State.updMem_free (s : State) (f : Memory → Memory) : (s.updMem f).free = s.free := rfl
@[simp] theorem State.updMem_sites (s : State) (f : Memory → Memory) : (s.updMem f).sites = s.sites := rfl
@[simp] theorem State.updMem_log (s : State) (f : Memory → Memory) : (s.updMem f).log = s.log := rfl
@[simp] theorem State.updMem_ctxs (s : State) (f : Memory → Memory) : (s.updMem f).ctxs = s.ctxs := rfl
@[simp] theorem State.updMem_queues (s : State) (f : Memory → Memory) : (s.updMem f).queues = s.queues := rfl
@[simp] theorem State.updMem_dbUnused (s : State) (f : Memory → Memory) : (s.updMem f).dbUnused = s.dbUnused := rfl
@[simp] theorem State.updMem_cmds (s : State) (f : Memory → Memory) : (s.updMem f).cmds = s.cmds := rfl
@[simp] theorem State.updMem_dispatchers (s : State) (f : Memory → Memory) : (s.updMem f).dispatchers = s.dispatchers := rfl
@[simp] theorem State.updMem_strk (s : State) (f : Memory → Memory) : (s.updMem f).strk = s.strk := rfl
@[simp] theorem State.updMem_plates (s : State) (f : Memory → Memory) : (s.updMem f).plates = s.plates := rfl
@[simp] theorem State.updMem_routers (s : State) (f : Memory → Memory) : (s.updMem f).routers = s.routers := rfl
@[simp] theorem State.updMem_preds (s : State) (f : Memory → Memory) : (s.updMem f).preds = s.preds := rfl
@[simp] theorem State.updMem_host (s : State) (f : Memory → Memory) : (s.updMem f).host = s.host := rfl
@[simp] theorem State.updMem_mbox (s : State) (f : Memory → Memory) : (s.updMem f).mbox = s.mbox := rfl
@[simp] theorem State.updMem_fabric (s : State) (f : Memory → Memory) : (s.updMem f).fabric = s.fabric := rfl
@[simp] theorem State.updMem_stylus (s : State) (f : Memory → Memory) : (s.updMem f).stylus = s.stylus := rfl
@[simp] theorem State.updMem_proof (s : State) (f : Memory → Memory) : (s.updMem f).proof = s.proof := rfl
@[simp] theorem State.updMem_mgmtOnly (s : State) (f : Memory → Memory) : (s.updMem f).mgmtOnly = s.mgmtOnly := rfl
@[simp] theorem State.updMem_ddrChannels (s : State) (f : Memory → Memory) : (s.updMem f).ddrChannels = s.ddrChannels := rfl
@[simp] theorem State.updMem_ddrGib (s : State) (f : Memory → Memory) : (s.updMem f).ddrGib = s.ddrGib := rfl
@[simp] theorem State.updMem_ddrRate (s : State) (f : Memory → Memory) : (s.updMem f).ddrRate = s.ddrRate := rfl
@[simp] theorem State.updMem_epochs (s : State) (f : Memory → Memory) : (s.updMem f).epochs = s.epochs := rfl
@[simp] theorem State.updMem_manifests (s : State) (f : Memory → Memory) : (s.updMem f).manifests = s.manifests := rfl
@[simp] theorem State.updMem_newest (s : State) (f : Memory → Memory) : (s.updMem f).newest = s.newest := rfl
@[simp] theorem State.updMem_buckets (s : State) (f : Memory → Memory) : (s.updMem f).buckets = s.buckets := rfl
@[simp] theorem State.updMem_eccCounts (s : State) (f : Memory → Memory) : (s.updMem f).eccCounts = s.eccCounts := rfl
@[simp] theorem State.updMem_boot (s : State) (f : Memory → Memory) : (s.updMem f).boot = s.boot := rfl
@[simp] theorem State.updMem_bus (s : State) (f : Memory → Memory) : (s.updMem f).bus = s.bus := rfl
@[simp] theorem State.updMem_power (s : State) (f : Memory → Memory) : (s.updMem f).power = s.power := rfl
@[simp] theorem State.updMem_side (s : State) (f : Memory → Memory) : (s.updMem f).side = s.side := rfl
@[simp] theorem State.updMem_spare (s : State) (f : Memory → Memory) : (s.updMem f).spare = s.spare := rfl
@[simp] theorem State.updMem_streams (s : State) (f : Memory → Memory) : (s.updMem f).streams = s.streams := rfl
@[simp] theorem State.updMem_nextPlacement (s : State) (f : Memory → Memory) : (s.updMem f).nextPlacement = s.nextPlacement := rfl
@[simp] theorem State.updMem_placement (s : State) (f : Memory → Memory) : (s.updMem f).placement = s.placement := rfl
@[simp] theorem State.updMem_admissions (s : State) (f : Memory → Memory) : (s.updMem f).admissions = s.admissions := rfl

@[simp] theorem State.finish_pending (s : State) (c : Cmd) (e : Ending) : (s.finish c e).pending = s.pending := rfl
@[simp] theorem State.finish_free (s : State) (c : Cmd) (e : Ending) : (s.finish c e).free = s.free := rfl
@[simp] theorem State.finish_sites (s : State) (c : Cmd) (e : Ending) : (s.finish c e).sites = s.sites := rfl
@[simp] theorem State.finish_log (s : State) (c : Cmd) (e : Ending) : (s.finish c e).log = s.log := rfl
@[simp] theorem State.finish_mem (s : State) (c : Cmd) (e : Ending) : (s.finish c e).mem = s.mem := rfl
@[simp] theorem State.finish_ctxs (s : State) (c : Cmd) (e : Ending) : (s.finish c e).ctxs = s.ctxs := rfl
@[simp] theorem State.finish_queues (s : State) (c : Cmd) (e : Ending) : (s.finish c e).queues = s.queues := rfl
@[simp] theorem State.finish_dbUnused (s : State) (c : Cmd) (e : Ending) : (s.finish c e).dbUnused = s.dbUnused := rfl
@[simp] theorem State.finish_dispatchers (s : State) (c : Cmd) (e : Ending) : (s.finish c e).dispatchers = s.dispatchers := rfl
@[simp] theorem State.finish_strk (s : State) (c : Cmd) (e : Ending) : (s.finish c e).strk = s.strk := rfl
@[simp] theorem State.finish_plates (s : State) (c : Cmd) (e : Ending) : (s.finish c e).plates = s.plates := rfl
@[simp] theorem State.finish_routers (s : State) (c : Cmd) (e : Ending) : (s.finish c e).routers = s.routers := rfl
@[simp] theorem State.finish_preds (s : State) (c : Cmd) (e : Ending) : (s.finish c e).preds = s.preds := rfl
@[simp] theorem State.finish_host (s : State) (c : Cmd) (e : Ending) : (s.finish c e).host = s.host := rfl
@[simp] theorem State.finish_mbox (s : State) (c : Cmd) (e : Ending) : (s.finish c e).mbox = s.mbox := rfl
@[simp] theorem State.finish_fabric (s : State) (c : Cmd) (e : Ending) : (s.finish c e).fabric = s.fabric := rfl
@[simp] theorem State.finish_stylus (s : State) (c : Cmd) (e : Ending) : (s.finish c e).stylus = s.stylus := rfl
@[simp] theorem State.finish_proof (s : State) (c : Cmd) (e : Ending) : (s.finish c e).proof = s.proof := rfl
@[simp] theorem State.finish_mgmtOnly (s : State) (c : Cmd) (e : Ending) : (s.finish c e).mgmtOnly = s.mgmtOnly := rfl
@[simp] theorem State.finish_ddrChannels (s : State) (c : Cmd) (e : Ending) : (s.finish c e).ddrChannels = s.ddrChannels := rfl
@[simp] theorem State.finish_ddrGib (s : State) (c : Cmd) (e : Ending) : (s.finish c e).ddrGib = s.ddrGib := rfl
@[simp] theorem State.finish_ddrRate (s : State) (c : Cmd) (e : Ending) : (s.finish c e).ddrRate = s.ddrRate := rfl
@[simp] theorem State.finish_epochs (s : State) (c : Cmd) (e : Ending) : (s.finish c e).epochs = s.epochs := rfl
@[simp] theorem State.finish_manifests (s : State) (c : Cmd) (e : Ending) : (s.finish c e).manifests = s.manifests := rfl
@[simp] theorem State.finish_newest (s : State) (c : Cmd) (e : Ending) : (s.finish c e).newest = s.newest := rfl
@[simp] theorem State.finish_buckets (s : State) (c : Cmd) (e : Ending) : (s.finish c e).buckets = s.buckets := rfl
@[simp] theorem State.finish_eccCounts (s : State) (c : Cmd) (e : Ending) : (s.finish c e).eccCounts = s.eccCounts := rfl
@[simp] theorem State.finish_boot (s : State) (c : Cmd) (e : Ending) : (s.finish c e).boot = s.boot := rfl
@[simp] theorem State.finish_bus (s : State) (c : Cmd) (e : Ending) : (s.finish c e).bus = s.bus := rfl
@[simp] theorem State.finish_power (s : State) (c : Cmd) (e : Ending) : (s.finish c e).power = s.power := rfl
@[simp] theorem State.finish_side (s : State) (c : Cmd) (e : Ending) : (s.finish c e).side = s.side := rfl
@[simp] theorem State.finish_spare (s : State) (c : Cmd) (e : Ending) : (s.finish c e).spare = s.spare := rfl
@[simp] theorem State.finish_streams (s : State) (c : Cmd) (e : Ending) : (s.finish c e).streams = s.streams := rfl
@[simp] theorem State.finish_nextPlacement (s : State) (c : Cmd) (e : Ending) : (s.finish c e).nextPlacement = s.nextPlacement := rfl
@[simp] theorem State.finish_placement (s : State) (c : Cmd) (e : Ending) : (s.finish c e).placement = s.placement := rfl
@[simp] theorem State.finish_admissions (s : State) (c : Cmd) (e : Ending) : (s.finish c e).admissions = s.admissions := rfl

@[simp] theorem State.begin_pending (s : State) (c : Cmd) (w : Work) : (s.begin c w).pending = s.pending := rfl
@[simp] theorem State.begin_free (s : State) (c : Cmd) (w : Work) : (s.begin c w).free = s.free := rfl
@[simp] theorem State.begin_sites (s : State) (c : Cmd) (w : Work) : (s.begin c w).sites = s.sites := rfl
@[simp] theorem State.begin_log (s : State) (c : Cmd) (w : Work) : (s.begin c w).log = s.log := rfl
@[simp] theorem State.begin_mem (s : State) (c : Cmd) (w : Work) : (s.begin c w).mem = s.mem := rfl
@[simp] theorem State.begin_ctxs (s : State) (c : Cmd) (w : Work) : (s.begin c w).ctxs = s.ctxs := rfl
@[simp] theorem State.begin_queues (s : State) (c : Cmd) (w : Work) : (s.begin c w).queues = s.queues := rfl
@[simp] theorem State.begin_dbUnused (s : State) (c : Cmd) (w : Work) : (s.begin c w).dbUnused = s.dbUnused := rfl
@[simp] theorem State.begin_dispatchers (s : State) (c : Cmd) (w : Work) : (s.begin c w).dispatchers = s.dispatchers := rfl
@[simp] theorem State.begin_strk (s : State) (c : Cmd) (w : Work) : (s.begin c w).strk = s.strk := rfl
@[simp] theorem State.begin_plates (s : State) (c : Cmd) (w : Work) : (s.begin c w).plates = s.plates := rfl
@[simp] theorem State.begin_routers (s : State) (c : Cmd) (w : Work) : (s.begin c w).routers = s.routers := rfl
@[simp] theorem State.begin_preds (s : State) (c : Cmd) (w : Work) : (s.begin c w).preds = s.preds := rfl
@[simp] theorem State.begin_host (s : State) (c : Cmd) (w : Work) : (s.begin c w).host = s.host := rfl
@[simp] theorem State.begin_mbox (s : State) (c : Cmd) (w : Work) : (s.begin c w).mbox = s.mbox := rfl
@[simp] theorem State.begin_fabric (s : State) (c : Cmd) (w : Work) : (s.begin c w).fabric = s.fabric := rfl
@[simp] theorem State.begin_stylus (s : State) (c : Cmd) (w : Work) : (s.begin c w).stylus = s.stylus := rfl
@[simp] theorem State.begin_proof (s : State) (c : Cmd) (w : Work) : (s.begin c w).proof = s.proof := rfl
@[simp] theorem State.begin_mgmtOnly (s : State) (c : Cmd) (w : Work) : (s.begin c w).mgmtOnly = s.mgmtOnly := rfl
@[simp] theorem State.begin_ddrChannels (s : State) (c : Cmd) (w : Work) : (s.begin c w).ddrChannels = s.ddrChannels := rfl
@[simp] theorem State.begin_ddrGib (s : State) (c : Cmd) (w : Work) : (s.begin c w).ddrGib = s.ddrGib := rfl
@[simp] theorem State.begin_ddrRate (s : State) (c : Cmd) (w : Work) : (s.begin c w).ddrRate = s.ddrRate := rfl
@[simp] theorem State.begin_epochs (s : State) (c : Cmd) (w : Work) : (s.begin c w).epochs = s.epochs := rfl
@[simp] theorem State.begin_manifests (s : State) (c : Cmd) (w : Work) : (s.begin c w).manifests = s.manifests := rfl
@[simp] theorem State.begin_newest (s : State) (c : Cmd) (w : Work) : (s.begin c w).newest = s.newest := rfl
@[simp] theorem State.begin_buckets (s : State) (c : Cmd) (w : Work) : (s.begin c w).buckets = s.buckets := rfl
@[simp] theorem State.begin_eccCounts (s : State) (c : Cmd) (w : Work) : (s.begin c w).eccCounts = s.eccCounts := rfl
@[simp] theorem State.begin_boot (s : State) (c : Cmd) (w : Work) : (s.begin c w).boot = s.boot := rfl
@[simp] theorem State.begin_bus (s : State) (c : Cmd) (w : Work) : (s.begin c w).bus = s.bus := rfl
@[simp] theorem State.begin_power (s : State) (c : Cmd) (w : Work) : (s.begin c w).power = s.power := rfl
@[simp] theorem State.begin_side (s : State) (c : Cmd) (w : Work) : (s.begin c w).side = s.side := rfl
@[simp] theorem State.begin_spare (s : State) (c : Cmd) (w : Work) : (s.begin c w).spare = s.spare := rfl
@[simp] theorem State.begin_streams (s : State) (c : Cmd) (w : Work) : (s.begin c w).streams = s.streams := rfl
@[simp] theorem State.begin_nextPlacement (s : State) (c : Cmd) (w : Work) : (s.begin c w).nextPlacement = s.nextPlacement := rfl
@[simp] theorem State.begin_placement (s : State) (c : Cmd) (w : Work) : (s.begin c w).placement = s.placement := rfl
@[simp] theorem State.begin_admissions (s : State) (c : Cmd) (w : Work) : (s.begin c w).admissions = s.admissions := rfl

@[simp] theorem State.updAlloc_pending (s : State) (n va : Nat) (f : Alloc → Alloc) : (s.updAlloc n va f).pending = s.pending := rfl
@[simp] theorem State.updAlloc_free (s : State) (n va : Nat) (f : Alloc → Alloc) : (s.updAlloc n va f).free = s.free := rfl
@[simp] theorem State.updAlloc_sites (s : State) (n va : Nat) (f : Alloc → Alloc) : (s.updAlloc n va f).sites = s.sites := rfl
@[simp] theorem State.updAlloc_log (s : State) (n va : Nat) (f : Alloc → Alloc) : (s.updAlloc n va f).log = s.log := rfl
@[simp] theorem State.updAlloc_mem (s : State) (n va : Nat) (f : Alloc → Alloc) : (s.updAlloc n va f).mem = s.mem := rfl
@[simp] theorem State.updAlloc_queues (s : State) (n va : Nat) (f : Alloc → Alloc) : (s.updAlloc n va f).queues = s.queues := rfl
@[simp] theorem State.updAlloc_dbUnused (s : State) (n va : Nat) (f : Alloc → Alloc) : (s.updAlloc n va f).dbUnused = s.dbUnused := rfl
@[simp] theorem State.updAlloc_cmds (s : State) (n va : Nat) (f : Alloc → Alloc) : (s.updAlloc n va f).cmds = s.cmds := rfl
@[simp] theorem State.updAlloc_dispatchers (s : State) (n va : Nat) (f : Alloc → Alloc) : (s.updAlloc n va f).dispatchers = s.dispatchers := rfl
@[simp] theorem State.updAlloc_strk (s : State) (n va : Nat) (f : Alloc → Alloc) : (s.updAlloc n va f).strk = s.strk := rfl
@[simp] theorem State.updAlloc_plates (s : State) (n va : Nat) (f : Alloc → Alloc) : (s.updAlloc n va f).plates = s.plates := rfl
@[simp] theorem State.updAlloc_routers (s : State) (n va : Nat) (f : Alloc → Alloc) : (s.updAlloc n va f).routers = s.routers := rfl
@[simp] theorem State.updAlloc_preds (s : State) (n va : Nat) (f : Alloc → Alloc) : (s.updAlloc n va f).preds = s.preds := rfl
@[simp] theorem State.updAlloc_host (s : State) (n va : Nat) (f : Alloc → Alloc) : (s.updAlloc n va f).host = s.host := rfl
@[simp] theorem State.updAlloc_mbox (s : State) (n va : Nat) (f : Alloc → Alloc) : (s.updAlloc n va f).mbox = s.mbox := rfl
@[simp] theorem State.updAlloc_fabric (s : State) (n va : Nat) (f : Alloc → Alloc) : (s.updAlloc n va f).fabric = s.fabric := rfl
@[simp] theorem State.updAlloc_stylus (s : State) (n va : Nat) (f : Alloc → Alloc) : (s.updAlloc n va f).stylus = s.stylus := rfl
@[simp] theorem State.updAlloc_proof (s : State) (n va : Nat) (f : Alloc → Alloc) : (s.updAlloc n va f).proof = s.proof := rfl
@[simp] theorem State.updAlloc_mgmtOnly (s : State) (n va : Nat) (f : Alloc → Alloc) : (s.updAlloc n va f).mgmtOnly = s.mgmtOnly := rfl
@[simp] theorem State.updAlloc_ddrChannels (s : State) (n va : Nat) (f : Alloc → Alloc) : (s.updAlloc n va f).ddrChannels = s.ddrChannels := rfl
@[simp] theorem State.updAlloc_ddrGib (s : State) (n va : Nat) (f : Alloc → Alloc) : (s.updAlloc n va f).ddrGib = s.ddrGib := rfl
@[simp] theorem State.updAlloc_ddrRate (s : State) (n va : Nat) (f : Alloc → Alloc) : (s.updAlloc n va f).ddrRate = s.ddrRate := rfl
@[simp] theorem State.updAlloc_epochs (s : State) (n va : Nat) (f : Alloc → Alloc) : (s.updAlloc n va f).epochs = s.epochs := rfl
@[simp] theorem State.updAlloc_manifests (s : State) (n va : Nat) (f : Alloc → Alloc) : (s.updAlloc n va f).manifests = s.manifests := rfl
@[simp] theorem State.updAlloc_newest (s : State) (n va : Nat) (f : Alloc → Alloc) : (s.updAlloc n va f).newest = s.newest := rfl
@[simp] theorem State.updAlloc_buckets (s : State) (n va : Nat) (f : Alloc → Alloc) : (s.updAlloc n va f).buckets = s.buckets := rfl
@[simp] theorem State.updAlloc_eccCounts (s : State) (n va : Nat) (f : Alloc → Alloc) : (s.updAlloc n va f).eccCounts = s.eccCounts := rfl
@[simp] theorem State.updAlloc_boot (s : State) (n va : Nat) (f : Alloc → Alloc) : (s.updAlloc n va f).boot = s.boot := rfl
@[simp] theorem State.updAlloc_bus (s : State) (n va : Nat) (f : Alloc → Alloc) : (s.updAlloc n va f).bus = s.bus := rfl
@[simp] theorem State.updAlloc_power (s : State) (n va : Nat) (f : Alloc → Alloc) : (s.updAlloc n va f).power = s.power := rfl
@[simp] theorem State.updAlloc_side (s : State) (n va : Nat) (f : Alloc → Alloc) : (s.updAlloc n va f).side = s.side := rfl
@[simp] theorem State.updAlloc_spare (s : State) (n va : Nat) (f : Alloc → Alloc) : (s.updAlloc n va f).spare = s.spare := rfl
@[simp] theorem State.updAlloc_streams (s : State) (n va : Nat) (f : Alloc → Alloc) : (s.updAlloc n va f).streams = s.streams := rfl
@[simp] theorem State.updAlloc_nextPlacement (s : State) (n va : Nat) (f : Alloc → Alloc) : (s.updAlloc n va f).nextPlacement = s.nextPlacement := rfl
@[simp] theorem State.updAlloc_placement (s : State) (n va : Nat) (f : Alloc → Alloc) : (s.updAlloc n va f).placement = s.placement := rfl
@[simp] theorem State.updAlloc_admissions (s : State) (n va : Nat) (f : Alloc → Alloc) : (s.updAlloc n va f).admissions = s.admissions := rfl

@[simp] theorem State.updCtx_ctxs (s : State) (n : Nat) (f : Ctx → Ctx) : (s.updCtx n f).ctxs = Kv.upd n f s.ctxs := rfl
@[simp] theorem State.updQueue_queues (s : State) (q : Nat) (f : Queue → Queue) : (s.updQueue q f).queues = Kv.upd q f s.queues := rfl
@[simp] theorem State.updPlate_plates (s : State) (n : Nat) (f : Plate → Plate) : (s.updPlate n f).plates = Kv.upd n f s.plates := rfl
@[simp] theorem State.updRouter_routers (s : State) (n : Nat) (f : Router → Router) : (s.updRouter n f).routers = Kv.upd n f s.routers := rfl
@[simp] theorem State.updMem_mem (s : State) (f : Memory → Memory) : (s.updMem f).mem = f s.mem := rfl

end Sys2Proof.Machine
end

