-- ==== Sys2Proof/Tests/Slice0.lean ====
section
/-! SUPPORT. Tests: what WellFormed refuses, and for each statement with hypotheses a state and operands that meet them. Expected values are
worked out by hand from the rules of spec/ that the statements cite. -/

namespace Sys2Proof.Tests

set_option Elab.async false

open Sys2Proof Sys2Proof.Machine

/-! ### A small part that is ready, with one context -/

/-- Put the n low bytes of v at an offset. -/
def poke (bs : List Byte) (f : Nat × Nat × Nat) : List Byte := bs.take f.1 ++ leBytes f.2.1 f.2.2 ++ bs.drop (f.1 + f.2.1)

/-- Go on with a list of bytes whose elements the kernel has evaluated: the list itself, by `forced_eq`. -/
def forced {α : Type} : List Byte → (List Byte → α) → α
  | [], k => k []
  | b :: l, k => match b.toNat with
    | 0 => forced l fun t => k (0#8 :: t)
    | n + 1 => forced l fun t => k (BitVec.ofNat 8 (n + 1) :: t)

theorem forced_eq {α : Type} (l : List Byte) (k : List Byte → α) : forced l k = k l := by
  induction l generalizing k with
  | nil => rfl
  | cons b l ih =>
    rw [forced]
    split <;> rename_i h <;> rw [ih] <;> congr 2 <;> apply BitVec.eq_of_toNat_eq
    · simp [h]
    · have := b.isLt
      simp only [BitVec.toNat_ofNat]
      omega

/-- A packet of context 1 on queue 1 with SEQ 5, and further fields. -/
def pk (op len : Nat) (fs : List (Nat × Nat × Nat)) : Packet :=
  forced (([(0, 2, op), (3, 1, 1), (4, 2, len), (8, 8, 5), (16, 2, 1), (18, 2, 1)] ++ fs).foldl poke (zeros len)) fun bs => { queue := 1, bytes := bs }

/-- Its command. -/
def cmd (p : Packet) (ph : Phase) : Cmd :=
  { queue := 1, seq := p.seq, bytes := p.bytes, group := p.seq, phase := ph, failed := none, firstPass := some 0, firstBoundary := none, quiet := false, cancel := false
    fault := none, faultAt := 0, hostWait := none, admitted := 0, place := 0, budget := 138600, overruns := 0, skipSettled := false, bound := [], slot := none
    cursor := 0, work := .none }

/-- An allocation. -/
def alloc (b n : Nat) (pinned ink : Bool) : Alloc := { base := b, size := n, write := true, pinned := pinned, ink := ink, pins := [] }

/-- A tensor's record (R81): base, format, last two dimensions. -/
def tensor (b fmt rows cols : Nat) : Desc :=
  forced ([(0, 8, b), (8, 1, fmt), (11, 1, 1), (12, 1, 3), (16, 4, rows), (20, 4, cols), (24, 4, 1), (28, 4, 1),
      (32, 4, cols * ((Fmt.ofCode fmt).map (·.width)).getD 8 / 128)].foldl poke (zeros 64)) fun bs => { record := bs }

/-- Context 1: ADMIN, with a pinned allocation of 64 pages, an ink page and a page that is not present. -/
def ctx1 : Ctx :=
  { newCtx true true 0xFFFF 64 0x23F0000000 7 0 5000 with
    slot := some 1, allocs := [alloc 0x10000 0x40000 true false, alloc 0x60000 0x1000 true true, alloc 0x70000 0x1000 false false]
    descs := [(1, tensor 0x10000 0x20 1 1024), (2, tensor 0x11000 0x20 1 1024), (3, tensor 0x12000 0x20 1 8192)] }

/-- A cached translation of context 1. -/
def tlb (va pa : Nat) (ink : Bool) : TlbEntry := { context := 1, page := va / 4096, frame := pa, read := true, write := !ink, ink := ink }

/-- A part in service whose context 1 holds queue 1. -/
def base : State :=
  { State.reset with
    boot := { State.reset.boot with stage := 9 }
    host := { State.reset.host with up := true, settled := true, coherent := true }
    ctxs := [(0, newCtx true false 0xFFFF 4096 0 0 0 5000), (1, ctx1)]
    queues := [(0, newQueue 0 0 0 0 0 50000 none), (1, newQueue 1 0x40000 6 0x41000 6 50000 none)]
    mem := { State.reset.mem with
      tlb := ((List.range 64).map fun i => tlb (0x10000 + 4096 * i) (0x100000 + 4096 * i) false) ++ [tlb 0x60000 0x200000 true]
      keys := [(0, 1), (1, 2)] } }

/-- Its memory with the translations of these pages alone, and of the ink page. -/
def cached (pages : List Nat) : Memory := { base.mem with tlb := (pages.map fun v => tlb v (v + 0xF0000) false) ++ [tlb 0x60000 0x200000 true] }

/-- With one command admitted. -/
def with' (p : Packet) (s : State) : State := { s with cmds := cmd p .admitted :: s.cmds }

/-- An `Except` that succeeds with a value of which f holds. -/
def okAnd {ε α : Type} (x : Except ε α) (f : α → Bool) : Bool := match x with
  | .ok a => f a
  | .error _ => false

/-- An `Option` with a value of which f holds. -/
def someAnd {α : Type} (x : Option α) (f : α → Bool) : Bool := match x with
  | some a => f a
  | none => false

/-- All of them hold. -/
def allOf (l : List Bool) : Bool := l.all id

/-- A check that passes. -/
def passes (x : Check) : Bool := okAnd x fun _ => true

theorem passes_iff (x : Check) : passes x = true ↔ x = .ok () := by
  cases x <;> simp [passes, okAnd]

/-- A row that is ready, its command and context meeting f. -/
def ready (s : State) (p : Packet) (op : Nat) (f : Cmd → Ctx → Bool) : Bool :=
  decide (p.opcode = op) && someAnd (s.startable p) fun c => someAnd (s.ctxOf c) fun x => f c x

theorem ready_iff (s : State) (p : Packet) (op : Nat) (f : Cmd → Ctx → Bool) :
    ready s p op f = true ↔ ∃ c x, Ready s p op c x ∧ f c x = true := by
  constructor
  · intro h
    simp only [ready, Bool.and_eq_true, decide_eq_true_eq] at h
    obtain ⟨h1, h2⟩ := h
    cases hs : s.startable p with
    | none => simp [hs, someAnd] at h2
    | some c =>
      cases hx : s.ctxOf c with
      | none => simp [hs, hx, someAnd] at h2
      | some x => exact ⟨c, x, ⟨h1, hs, hx⟩, by simpa [hs, hx, someAnd] using h2⟩
  · rintro ⟨c, x, h, hf⟩
    simp [ready, h.opcode, h.start, h.ctx, someAnd, hf]

/-- A row presented again for a running command. -/
def again (s : State) (p : Packet) (op : Nat) (f : Cmd → Ctx → Bool) : Bool :=
  decide (p.opcode = op) && decide (s.startable p = none) && someAnd (s.resumable p) fun c => c.slot.isSome && someAnd (s.ctxOf c) fun x => f c x

theorem again_iff (s : State) (p : Packet) (op : Nat) (f : Cmd → Ctx → Bool) :
    again s p op f = true ↔ ∃ c x, Again s p op c x ∧ f c x = true := by
  constructor
  · intro h
    simp only [again, Bool.and_eq_true, decide_eq_true_eq] at h
    obtain ⟨⟨h1, h3⟩, h2⟩ := h
    cases hs : s.resumable p with
    | none => simp [hs, someAnd] at h2
    | some c =>
      cases hx : s.ctxOf c with
      | none => simp [hs, hx, someAnd] at h2
      | some x =>
        simp only [hs, hx, someAnd, Bool.and_eq_true] at h2
        exact ⟨c, x, ⟨h1, h3, hs, hx, h2.1⟩, h2.2⟩
  · rintro ⟨c, x, h, hf⟩
    simp [again, h.opcode, h.started, h.resume, h.ctx, h.slot, someAnd, hf]

/-- A LINEAR record of any rank, without gaps. -/
def rec' (b fmt : Nat) (sh : List Nat) : Desc :=
  let w := ((Fmt.ofCode fmt).map (·.width)).getD 8
  forced (([(0, 8, b), (8, 1, fmt), (11, 1, sh.length - 1), (12, 1, 3)] ++
      ((List.range 4).map fun i => (16 + 4 * i, 4, sh.getD i 1)) ++
      (List.range (sh.length - 1)).map fun i => (32 + 4 * i, 4, (sh.drop (i + 1)).foldl (· * ·) w / 128)).foldl poke (zeros 64)) fun bs => { record := bs }

/-- The part with these descriptors in context 1. -/
def withDescs (ds : List (Nat × Desc)) : State := { base with ctxs := Kv.set 1 { ctx1 with descs := ds } base.ctxs }

/-- A check of an admitted command passes, and fails on a packet that breaks it. -/
def both (op : Nat) (s : State) (good bad : Packet) (chk : State → Cmd → Ctx → Packet → Check) : Bool :=
  (ready (with' good s) good op fun c x => !c.awaitsSkip && passes (chk (with' good s) c x good)) &&
    ready (with' bad s) bad op fun c x => !c.awaitsSkip && !passes (chk (with' bad s) c x bad)

/-! ### Contexts, queues, allocations, descriptors (classes 0x01 and 0x02) -/

theorem met_ContextCommandsComplete : allOf [
    (let p := pk 0x0101 112 [(64, 2, 0xFFFF), (66, 2, 1), (68, 2, 0xFFFF), (72, 8, 0x23F0001000)]
     ready (with' p base) p 0x0101 fun c _ => okAnd ((with' p base).takeSlot c clsKey) fun s1 => passes (s1.checkContextCreate p)),
    (let p := pk 0x0101 112 [(64, 2, 4095), (66, 2, 4096), (68, 2, 1), (72, 8, 0x23F0001000), (88, 4, 1024), (92, 4, 1)]
     ready (with' p base) p 0x0101 fun c _ => okAnd ((with' p base).takeSlot c clsKey) fun s1 => passes (s1.checkContextCreate p)),
    (let p := pk 0x0102 80 [(64, 2, 2)]
     let s : State := with' p { base with ctxs := Kv.set 2 ctx1 base.ctxs }
     ready s p 0x0102 fun c x => passes (s.checkContextDestroy (c.view s).ctx x p)),
    (let p := pk 0x0103 80 [(64, 2, 0)]
     let s := with' p base
     ready s p 0x0103 fun c x => passes (s.checkTarget (c.view s).ctx x p false) && passes (zeroBytes p 66 79) && (Kv.get 0 s.ctxs).isSome)] = true := by
  decide +kernel

theorem met_QueueCommandsComplete : allOf [
    (let p := pk 0x0104 96 [(64, 2, 0xFFFF), (66, 2, 1), (68, 1, 6), (69, 1, 6), (70, 2, 0xFFFF), (72, 8, 0x10000), (80, 8, 0x11000)]
     ready (with' p base) p 0x0104 fun c x => passes ((with' p base).checkQueueCreate (c.view (with' p base)).ctx x p)),
    (let p := pk 0x0105 80 [(64, 2, 2)]
     let s : State := with' p { base with queues := Kv.set 2 (newQueue 1 0 6 0 6 1 none) base.queues }
     (s.cmds.all fun d => decide (d.queue ≠ 2)) && ready s p 0x0105 fun c x => passes (s.checkQueueDestroy (c.view s).ctx x p) &&
       decide ((Kv.get 2 s.queues).map (·.held) = some [])),
    (let p := pk 0x0106 80 [(64, 2, 2)]
     let s : State := with' p { base with queues := Kv.set 2 (newQueue 1 0 6 0 6 1 none) base.queues }
     (ready s p 0x0106 fun c x => passes (s.checkQueueDrain (c.view s).ctx x p)) && (s.cmds.all fun d => decide (d.queue ≠ 2)) &&
       decide (p.at 66 1 = 0) && (Kv.get 2 s.queues).isSome),
    (let p := pk 0x0107 80 [(64, 2, 1)]
     let s : State := with' p { base with queues := Kv.upd 1 (fun q => { q with state := .stopped }) base.queues }
     ready s p 0x0107 fun c x => passes (s.checkQueueStart (c.view s).ctx x p) &&
       someAnd (Kv.get 1 s.queues) fun q => decide (q.state = .stopped) && !q.drain.any (·.destroy)),
    (let p := pk 0x0107 80 [(64, 2, 1)]
     ready (with' p base) p 0x0107 fun c x => passes ((with' p base).checkQueueStart (c.view (with' p base)).ctx x p) &&
       decide ((Kv.get 1 base.queues).map (·.state) ≠ some .stopped)),
    (let p := pk 0x0108 80 [(64, 2, 1)]
     ready (with' p base) p 0x0108 fun c x => passes ((with' p base).checkTarget (c.view (with' p base)).ctx x p true) &&
       passes (zeroBytes p 66 79) && (Kv.get 1 base.queues).isSome)] = true := by
  decide +kernel

theorem met_AllocationCommandsComplete : allOf [
    (let p := pk 0x0201 96 [(64, 8, 0x80000), (72, 8, 0x1000), (80, 1, 1)]
     ready (with' p base) p 0x0201 fun c x => passes ((with' p base).checkMemRegister (c.view (with' p base)).ctx x p)),
    (let p := pk 0x0202 80 [(64, 8, 0x70000)]
     ready (with' p base) p 0x0202 fun c x => passes ((with' p base).checkMemRelease (c.view (with' p base)).ctx x p) &&
       (x.allocs.find? fun a => decide (a.base = p.at 64 8)).isSome),
    (let p := pk 0x0203 80 [(64, 8, 0x10000), (72, 8, 0x1000)]
     ready (with' p base) p 0x0203 fun c x => passes ((with' p base).checkMemPin (c.view (with' p base)).ctx x p) &&
       (x.allocAt (p.at 64 8)).isSome),
    (let p := pk 0x0204 80 [(64, 8, 0x15000), (72, 8, 0x2000)]
     ready (with' p base) p 0x0204 fun c x => passes ((with' p base).checkMemUnpin (c.view (with' p base)).ctx x p) &&
       (x.allocAt (p.at 64 8)).isSome),
    (let p := pk 0x0209 80 [(64, 8, 0x10000), (72, 8, 0x40000)]
     ready (with' p base) p 0x0209 fun _ x => passes (checkRange x p))] = true := by
  decide +kernel

/-- A state in which SEQ 4 of queue 1 waits on open fault 1 of context 1. -/
def faulted (p : Packet) : State :=
  let f := { mkFault .notPresent 0x70000 5 0 accR 1 4 0 with fseq := 1 }
  let d := { cmd (pk 0x0207 96 [(8, 8, 4), (64, 8, 0x70000), (72, 8, 0x10000), (80, 8, 64)]) .running with fault := some 1, faultAt := 64 }
  { with' p base with cmds := [cmd p .admitted, d], ctxs := Kv.set 1 { ctx1 with ring := ctx1.ring.add f } base.ctxs }

theorem met_DescriptorAndFaultCommandsComplete : allOf [
    (let p := pk 0x0205 128 [(64, 8, 0x10000), (72, 1, 0x20), (76, 1, 3), (80, 4, 64), (84, 4, 1), (88, 4, 1), (92, 4, 1)]
     (ready (with' p base) p 0x0205 fun _ x => passes (checkDescCreate x p)) && !(with' p base).handleTaken 4 &&
       decide (4 < min inlineHandle ((with' p base).ctxs.length * 65536 + 2))),
    (let p := pk 0x0205 128 [(64, 8, 0x10001)]
     ready (with' p base) p 0x0205 fun _ x => !passes (checkDescCreate x p)),
    (let p := pk 0x0206 80 [(64, 4, 1)]
     ready (with' p base) p 0x0206 fun c x => passes ((with' p base).checkDescRelease (c.view (with' p base)).ctx x p)),
    (let p := pk 0x0208 80 [(64, 8, 1)]
     ready (faulted p) p 0x0208 fun c _ => passes ((faulted p).checkFaultResume (c.view (faulted p)).ctx p) &&
       ((faulted p).faultedCmd 1 1).isSome && decide (p.at 72 1 = 0)),
    (let p := pk 0x0208 80 [(64, 8, 1), (72, 1, 1)]
     ready (faulted p) p 0x0208 fun c _ => passes ((faulted p).checkFaultResume (c.view (faulted p)).ctx p) &&
       ((faulted p).faultedCmd 1 1).isSome && decide (p.at 72 1 = 1))] = true := by
  decide +kernel

theorem met_DmaCopyOfInlinePayloadCompletes : allOf [
    (let p := pk 0x0207 544 [(6, 2, 448), (64, 8, 2 ^ 64 - 1), (72, 8, 0x10FF0), (80, 8, 448)]
     ready (with' p base) p 0x0207 fun c _ => decide (c.cursor = 0) && !c.cancel && decide (p.at 64 8 = 2 ^ 64 - 1) && decide (p.at 80 8 = 448) &&
       okAnd (((with' p base).begin c .none).touch (c.view (with' p base)).ctx c.bound (p.at 72 8) (p.at 80 8) accW true) fun _ => true)] = true := by
  decide +kernel

/-! ### Ink, memory events -/

/-- The part with an INT word of value 1 and a full tag at 0x60000, and a COUNTER word 5 in 0 to 9 at 0x60008. -/
def inked : State :=
  { base with mem := { base.mem with
      cells := [(0x200000, 1), (0x200008, 5), (0x20000C, 9), (0x20000F, 0x80)], inked := [0x200000, 0x200008] } }

/-- An override of a word of that part that is ready and passes its checks, with f of the state, the word's place and the new word. -/
def overrides (p : Packet) (f : State → Nat → InkWord → Bool) : Bool :=
  let s := with' p inked
  ready s p 0x0604 fun _ _ => passes (s.checkInkOverride p) && someAnd (s.inkPa (p.at 64 2) (p.at 72 8)) fun pa =>
    let s1 := s.claimPage (p.at 64 2) (p.at 72 8)
    !s1.mem.bad pa 8 && someAnd (overrideWord (s1.inkAt pa) (p.at 80 1) (p.at 82 2)) (f s1 pa)

theorem met_InkCommandsComplete : allOf [
    (let p := pk 0x0603 80 []; ready (with' p base) p 0x0603 fun _ _ => true),
    (let p := pk 0x0601 80 [(64, 8, 0x60008), (73, 1, 1)]
     ready (with' p inked) p 0x0601 fun c _ => ((with' p inked).pinnedInkPa (c.view (with' p inked)).ctx (p.at 64 8)).isSome),
    (let p := pk 0x0601 80 [(64, 8, 0x60008), (72, 1, 1), (74, 2, 3), (76, 2, 0), (78, 2, 65535)]
     ready (with' p inked) p 0x0601 fun c _ => ((with' p inked).pinnedInkPa (c.view (with' p inked)).ctx (p.at 64 8)).isSome),
    (let p := pk 0x0602 80 [(64, 8, 0x60000)]
     ready (with' p inked) p 0x0602 fun c _ => someAnd ((with' p inked).pinnedInkPa (c.view (with' p inked)).ctx (p.at 64 8)) fun pa =>
       let s1 := (with' p inked).claimPage (c.view (with' p inked)).ctx (p.at 64 8)
       !s1.mem.bad pa 8 && !(s1.inkAt pa).malformed),
    (let p := pk 0x0604 96 [(64, 2, 1), (72, 8, 0x60008), (80, 1, 2), (82, 2, 7)]
     overrides p fun s1 pa w => decide (w.bits ≠ (s1.inkAt pa).bits)),
    (let p := pk 0x0604 96 [(64, 2, 1), (72, 8, 0x60008), (80, 1, 2), (82, 2, 5)]
     overrides p fun s1 pa w => decide (w.bits = (s1.inkAt pa).bits ∧ w.tag = (s1.inkAt pa).tag ∧ (s1.inkAt pa).malformed = false))] = true := by
  decide +kernel

theorem met_InkWordsKeepTheirBounds : allOf [
    (let w : InkWord := { counter := true, value := 65535, lower := 0, upper := 65535, tag := true, malformed := false }
     decide (w.lower ≤ w.value ∧ w.value ≤ w.upper ∧ w.upper < 2 ^ 16 ∧ w.value < 2 ^ 16) && okAnd (inkStep w 4 65535) fun _ => true),
    (let w : InkWord := { counter := false, value := 0, lower := 0, upper := 0, tag := false, malformed := false }
     okAnd (inkStep w 1 65535) fun _ => true)] = true := by
  decide +kernel

theorem met_MemoryEventsComplete : allOf [
    (let s : State := { base with mem := { base.mem with filling := [0] } }
     decide (0 ∈ s.mem.filling)),
    (let s := faulted (pk 0x0603 80 [])
     someAnd (Kv.get 1 s.ctxs) (fun x => someAnd (x.ring.opened.find? fun g => decide (g.fseq = 1)) fun f =>
       decide (f.stroke + x.faultLimit ≤ 5000)) && (s.faultedCmd 1 1).isSome),
    base.framed (lineOf 0x123456), !base.framed (lineOf hostBase)] = true := by
  decide +kernel

/-! ### Plates and routers -/

theorem met_PlateCommandsStart : allOf [
    both 0x0301 (withDescs [(1, rec' 0x1000000 3 [16, 64]), (2, rec' 0x1010000 3 [64, 16]), (3, rec' 0x1020000 2 [16, 16])])
      (pk 0x0301 224 [(81, 1, 15), (84, 4, 1), (88, 4, 2), (161, 1, 255), (168, 4, 3)]) (pk 0x0301 224 [(81, 1, 16)])
      (fun s c x p => s.checkLinear x (c.view s) p (s.earlierPred c)),
    both 0x0302 (withDescs [(1, rec' 0x1000000 2 [16, 16]), (3, rec' 0x1020000 2 [16, 16])])
      (pk 0x0302 160 [(97, 1, 255), (104, 4, 3), (108, 4, 1)]) (pk 0x0302 160 [(80, 1, 16)])
      (fun s c x p => s.checkStipple x (c.view s) p (s.earlierPred c)),
    both 0x0401 (withDescs [(1, rec' 0x1000000 2 [16, 16]), (3, rec' 0x1020000 2 [16, 16])])
      (pk 0x0401 112 [(84, 4, 1), (88, 4, 3)]) (pk 0x0401 112 [(80, 1, 4), (84, 4, 1), (88, 4, 3)])
      (fun s c x p => s.checkTracer x (c.view s) p),
    both 0x0503 (withDescs [(3, rec' 0x1020000 0x20 [64])])
      (pk 0x0503 112 [(64, 1, 3), (68, 4, 64), (72, 4, 64), (96, 4, 3)]) (pk 0x0503 112 [(64, 1, 4), (68, 4, 64), (72, 4, 64), (96, 4, 3)])
      (fun s c _ p => s.checkMask (c.view s) p),
    both 0x0502 (withDescs [(1, rec' 0x1000000 2 [8]), (2, rec' 0x1010000 0x20 [8]), (3, rec' 0x1020000 0x22 [8, 2])])
      (pk 0x0502 96 [(72, 4, 1), (80, 4, 2), (84, 4, 3)]) (pk 0x0502 96 [(64, 1, 4), (72, 4, 1), (80, 4, 2), (84, 4, 3)])
      (fun s c _ p => s.checkExit (c.view s) p),
    both 0x0501 (withDescs [(1, rec' 0x1000000 2 [4, 4]), (2, rec' 0x1010000 0x22 [32, 2]), (3, rec' 0x1020000 2 [32]), (4, rec' 0x1030000 0x20 [128])])
      (pk 0x0501 128 [(65, 1, 1), (66, 2, 4), (72, 4, 8), (80, 4, 1), (92, 4, 2), (96, 4, 3), (112, 4, 4)])
      (pk 0x0501 128 [(65, 1, 0), (66, 2, 4), (72, 4, 8), (80, 4, 1), (92, 4, 2), (96, 4, 3), (112, 4, 4)])
      (fun s c _ p => s.checkRoute c (c.view s) p)] = true := by
  decide +kernel

/-- Operands of attention: Q, K, V, O, L, dO, D, workspace, and three gradients. -/
def attnDescs : List (Nat × Desc) :=
  [(1, rec' 0x1000000 3 [1, 64, 64]), (2, rec' 0x1010000 3 [1, 64, 64]), (3, rec' 0x1020000 3 [1, 64, 64]), (4, rec' 0x1030000 2 [1, 64, 64]),
    (5, rec' 0x1040000 2 [1, 64]), (6, rec' 0x1050000 3 [1, 64, 64]), (7, rec' 0x1060000 2 [1, 64]), (8, rec' 0x1100000 0x20 [581120]),
    (9, rec' 0x1070000 2 [1, 64, 64]), (10, rec' 0x1080000 2 [1, 64, 64]), (11, rec' 0x1090000 2 [1, 64, 64])]

/-- Fields that the three attention commands share. -/
def attnFields : List (Nat × Nat × Nat) :=
  [(84, 2, 1), (86, 2, 1), (88, 2, 64), (92, 2, 1), (96, 4, 64), (100, 4, 64), (108, 4, 1), (128, 4, 0x3F800000), (196, 4, 8)]

/-- The part with them; no translation is cached. -/
def attnState : State := { withDescs attnDescs with mem := { base.mem with tlb := [] } }

theorem met_PlateCommandsStart_attention : allOf [
    both 0x0303 (attnState) (pk 0x0303 208 (attnFields ++ [(144, 4, 1), (148, 4, 2), (152, 4, 3), (156, 4, 4), (160, 4, 5)]))
      (pk 0x0303 208 []) (fun s c x p => s.checkAttn x (c.view s) p),
    both 0x0304 (attnState) (pk 0x0304 208 (attnFields ++ [(156, 4, 4), (160, 4, 5), (164, 4, 6), (168, 4, 7)]))
      (pk 0x0304 208 []) (fun s c x p => s.checkAttn x (c.view s) p),
    both 0x0305 (attnState) (pk 0x0305 208 (attnFields ++ [(116, 4, 1), (144, 4, 1), (148, 4, 2), (152, 4, 3), (156, 4, 4), (160, 4, 5), (164, 4, 6),
      (168, 4, 7), (172, 4, 9), (176, 4, 10), (180, 4, 11)])) (pk 0x0305 208 []) (fun s c x p => s.checkAttn x (c.view s) p)] = true := by
  decide +kernel

/-- One running command, with a unit on plate 0 or on router 0, held by context 1. -/
def busy (c : Cmd) (ds : List (Nat × Desc)) (f : Plate → Plate) : State :=
  let u : DispatchUnit := { queue := 1, seq := 5, estimate := 1000, start := 0, goal := 1, issued := 0 }
  { withDescs ds with
    cmds := [c], plates := Kv.upd 0 (fun x => f { x with ctx := some 1, units := [u] }) base.plates
    routers := Kv.upd 0 (fun x => { x with ctx := some 1, units := [u] }) base.routers }

/-- Tile work in a stage. -/
def stageOf (k : Nat) : Work := .tiles { stage := k, issued := [], written := [], sums := {}, partials := [], nanLines := [], carry := [] }

/-- The unit of a command at its end is over, and its work is done or not. -/
def over' (s : State) (u : UnitRef) (done : Bool) : Bool :=
  someAnd ((s.unitsOf u).find? (s.unitOver u)) fun x => someAnd ((s.countBusy u 9).findCmd x.queue x.seq) fun c =>
    (s.countBusy u 9).workDone c == done && (!c.cancel || s.isDue u)

theorem met_UnitsEnd : allOf [
    over' (busy { cmd (pk 0x0401 112 []) .running with cursor := 10000 } [] id) (.plate 0) true,
    over' (busy { cmd (pk 0x0303 208 attnFields) .running with cursor := 1 } [] id) (.plate 0) true,
    over' (busy { cmd (pk 0x0503 112 [(68, 4, 64)]) .running with cursor := 1 } [] id) (.router 0) true,
    over' (busy { cmd (pk 0x0301 224 []) .running with work := stageOf 9 } [] id) (.plate 0) true,
    over' (busy { cmd (pk 0x0302 160 []) .running with work := stageOf 1 } [] id) (.plate 0) true,
    over' (busy { cmd (pk 0x0401 112 [(84, 4, 1), (88, 4, 3)]) .running with cursor := 1 }
      [(1, rec' 0x10000 2 [64, 64]), (3, rec' 0x20000 2 [64, 64])] id) (.plate 0) false,
    over' (busy { cmd (pk 0x0401 112 [(84, 4, 1), (88, 4, 3)]) .running with cursor := 1, cancel := true }
      [(1, rec' 0x10000 2 [64, 64]), (3, rec' 0x20000 2 [64, 64])] fun x => { x with due := true }) (.plate 0) false,
    (let s := busy { cmd (pk 0x0302 160 []) .running with work := stageOf 0 } [] id
     ((s.unitsOf (.plate 0)).find? (s.unitOver (.plate 0))).isNone && someAnd (s.spentUnit (.plate 0) 138600) fun c => !c.cancel)] = true := by
  decide +kernel

/-- A tile of SEQ 5. -/
def tile5 : Tile := { queue := 1, seq := 5, stage := 0, index := 0, codes := [0], sats := 0 }

/-- Operands of a small product, and of a copy. -/
def smallDescs : List (Nat × Desc) :=
  [(1, rec' 0x10000 3 [16, 64]), (2, rec' 0x12000 3 [64, 16]), (3, rec' 0x14000 2 [1, 8]), (4, rec' 0x16000 2 [1, 8])]

/-- A LINEAR command of them, its first tiles not given out; the item of its one column block; and an array on it with some banks loaded. -/
def linear5 : Cmd := { cmd (pk 0x0301 224 [(84, 4, 1), (88, 4, 2)]) .running with work := stageOf 0 }
def item5 : ArrayItem := { queue := 1, seq := 5, stage := 0, chunk := 0, block := 0, passes := [0] }
def array5 (loaded : Nat) : BurinArray := { BurinArray.idle with item := some item5, loaded := loaded }

/-- A slot of a tile of SEQ 5. -/
def slot5 (taken spent : Bool) : TraySlot := { tile := tile5, taken := taken, spent := spent }

theorem met_PlateEventsComplete : allOf [
    (let s := busy linear5 smallDescs fun x => { x with arrays := x.arrays.set 11 (array5 0) }
     someAnd ((Kv.get 0 s.plates).bind fun x => x.arrays[11]?) (fun a => decide (a.item = some item5) && decide (item5.passes[a.loaded]? = some 0)) &&
       someAnd (s.itemCmd 0 item5) fun c => !s.itemBroken c item5 0),
    (let s := busy linear5 smallDescs id
     someAnd ((Kv.get 0 s.plates).bind fun x => x.arrays[0]?) fun a => a.item.isNone && someAnd (s.nextItem 0 a) fun ci =>
       someAnd ci.2.passes[(a.begin ci.2).loaded]? fun pass => !s.itemBroken ci.1 ci.2 pass),
    ([0, 24].all fun k =>
      let s := busy linear5 smallDescs fun x => { x with arrays := x.arrays.set 0 (array5 1), tray := List.replicate k (slot5 false false) }
      someAnd (Kv.get 0 s.plates) (fun x => decide (x.tray.length = k)) && (s.itemCmd 0 item5).isSome && decide (item5.passes.length ≤ 1)),
    (let s := busy (cmd (pk 0x0301 224 []) .running) [] fun x => { x with tray := [slot5 true true] }
     someAnd (Kv.get 0 s.plates) fun x => x.tray.any (·.spent)),
    (let s := busy (cmd (pk 0x0301 224 [(160, 1, 1)]) .running) [] fun x => { x with tray := [slot5 true false] }
     someAnd (Kv.get 0 s.plates) fun x => !x.tray.any (·.spent) && (x.tray.find? s.slotDone).isSome),
    ([0, 1].all fun k =>
      let s := busy (cmd (pk 0x0301 224 []) .running) [] fun x =>
        { x with tray := [slot5 false false], stipples := if k = 0 then x.stipples else x.stipples.set 0 { tile := some tile5, regs := [] } }
      someAnd (Kv.get 0 s.plates) fun x => decide (k < x.stipples.length) && decide ((x.stipples.getD k .empty).tile = none) &&
        (decide (k = 0) || decide ((x.stipples.getD 0 .empty).tile ≠ none)) && (takeOldest x.tray).isSome),
    (let s := busy (cmd (pk 0x0301 224 []) .running) [] fun x => { x with stipples := x.stipples.set 1 { tile := some tile5, regs := [] } }
     someAnd (Kv.get 0 s.plates) fun x => someAnd x.stipples[1]? fun u => u.tile.isSome)] = true := by
  decide +kernel

theorem met_UnitEventsComplete : allOf [
    (let s := busy (cmd (pk 0x0401 112 [(84, 4, 3), (88, 4, 4)]) .running) smallDescs id
     someAnd ((s.working (.plate 0)).find? fun c => decide (c.pkt.opcode = 0x0401 ∧ c.cursor < s.tracerTotal (c.view s) c.pkt) && s.clearOn 0 c) fun c =>
       someAnd (s.desc (c.view s).ctx (c.pkt.par 20 4)) fun src => someAnd (s.desc (c.view s).ctx (c.pkt.par 24 4)) fun dst =>
         (s.ctxOf c).isSome && decide (c.pkt.trOp = 0) && okAnd (s.touchUnit (c.view s) (UnitIO.mk
           [(84, copySources c.pkt src dst (dst.unitFlats (dst.unitWindow c.cursor)))] [(88, [dst.unitWindow c.cursor])])) fun _ => true),
    (let p := pk 0x0304 208 (attnFields ++ [(96, 4, 1), (100, 4, 1), (156, 4, 4), (164, 4, 6), (168, 4, 7)])
     let s := busy (cmd p .running) [(4, rec' 0x10000 2 [1, 1, 8]), (6, rec' 0x18000 3 [1, 1, 16]), (7, rec' 0x20000 2 [1, 8]),
       (8, rec' 0x21000 0x20 [64])] id
     someAnd ((s.working (.plate 0)).find? fun c => decide (0x0303 ≤ c.pkt.opcode ∧ c.pkt.opcode ≤ 0x0305 ∧ c.cursor < aquatintTotal c.pkt) && s.clearOn 0 c) fun c =>
       (s.ctxOf c).isSome && decide (c.pkt.opcode = 0x0304) && okAnd (s.touchUnit (c.view s) (UnitIO.mk
         [s.aqRows (c.view s) c.pkt 164 0 0 (aqRowsOf c.pkt.aqLq c.pkt.aqBq 0), s.aqRows (c.view s) c.pkt 156 0 0 (aqRowsOf c.pkt.aqLq c.pkt.aqBq 0)]
         [s.aqRows (c.view s) c.pkt 168 0 0 (aqRowsOf c.pkt.aqLq c.pkt.aqBq 0), s.fieldAll (c.view s) c.pkt 196])) fun _ => true),
    (let p := pk 0x0503 112 [(68, 4, 128), (72, 4, 64), (96, 4, 3)]
     let s := busy (cmd p .running) [(3, rec' 0x10000 0x20 [64])] id
     someAnd ((s.working (.router 0)).find? fun c => decide (c.cursor < s.stencilTotal (c.view s) c.pkt)) fun c =>
       decide (c.pkt.opcode = 0x0503) && decide (c.pkt.at 92 4 = 0) && (s.desc (c.view s).ctx 0).isNone &&
       decide (c.cursor + 1 < ceilDiv (c.pkt.at 68 4) (blockSize (c.pkt.at 66 1))) && someAnd (s.desc (c.view s).ctx (c.pkt.at 96 4)) fun out =>
         okAnd (s.touchUnit (c.view s) (UnitIO.mk [s.fieldElems (c.view s) c.pkt 84 0 64, s.fieldAll (c.view s) c.pkt 88, (92, [])]
           [(96, [(out.base, maskRowBytes (c.pkt.at 72 4) 64)])])) fun _ => true)] = true := by
  decide +kernel

theorem met_StrokeEventsOfPlatesComplete : allOf [
    (let s : State := { base with plates := Kv.upd 15 (fun x => { x with due := true }) base.plates }
     someAnd (Kv.get 15 s.plates) fun x => x.due && x.drained && !x.hung),
    (let s := busy { cmd (pk 0x0401 112 []) .running with overruns := 1 } [] fun x => { x with due := true }
     someAnd (Kv.get 0 s.plates) fun x => x.due && decide (x.units.length = 1) && someAnd (s.findCmd 1 5) fun c => !c.cancel && decide (c.overruns < 2)),
    (let s := busy (cmd (pk 0x0401 112 []) .running) [] fun x => { x with due := true }
     someAnd (Kv.get 0 s.plates) fun x => x.due && decide (x.units ≠ [])),
    (let s := busy { cmd (pk 0x0401 112 []) .running with overruns := 2 } [] fun x => { x with due := true }
     someAnd (Kv.get 0 s.plates) fun x => x.due && decide (x.units.length = 1) && someAnd (s.findCmd 1 5) fun c => !c.cancel && decide (2 ≤ c.overruns)),
    (let c := { cmd (pk 0x0302 160 [(99, 1, 1)]) .admitted with group := 4 }
     let r : PredResult := { queue := 1, group := 4, seq := 4, held := true }
     let s : State := { base with cmds := [c], preds := [r] }
     c.awaitsSkip && s.mayStart c && decide ((s.preds.filter fun r => decide (r.queue = 1) && decide (r.group = c.group) && decide (r.seq < 5)) = [r]) &&
       (s.cmds.all fun d => !decide (d.queue = 1 ∧ d.group = c.group ∧ r.seq < d.seq ∧ d.seq < 5) && !decide (d.queue = 1 ∧ d.seq = r.seq)))] = true := by
  decide +kernel

/-! ### Stylus -/

/-- A route map of node 1 that reaches node 2 through port 0. -/
def map2 : List Byte :=
  [(4, 2, 1), (8, 2, 2), (64, 1, 1), (68, 2, 0xFFFF), (192, 2, 1), (194, 1, 1), (224, 2, 2), (226, 1, 1), (232, 6, 2), (240, 16, 2)].foldl poke (zeros 256)

/-- A connected queue pair of context 1 to queue pair 9 of node 2. -/
def qp9 : Qp := { newQp 1 0 false false 64 with state := .connected, peerNode := 2, peerQp := 9 }

/-- The part on a fabric, with these queue pairs, all on chip. -/
def netted (qs : List (Nat × Qp)) : State :=
  { base with
    fabric := { base.fabric with node := 1, active := some 0, banks := [(0, { map := map2, schedule := [] })]
                                 ports := Kv.upd 0 (fun q => { q with mode := 3, up := true, maxFrame := 9216 }) base.fabric.ports }
    host := { base.host with qpBacking := 0x100000 }
    stylus := { base.stylus with qps := qs, chip := qs.map (·.1) } }

theorem met_QueuePairCommandsComplete : allOf [
    (let p := pk 0x0701 80 [(64, 4, 0xFFFFFFFF), (70, 2, 16384)]; let s := with' p (netted [])
     ready s p 0x0701 fun _ _ => passes (s.checkQpCreate p)),
    (let p := pk 0x0701 80 [(64, 4, 65535), (68, 1, 2), (69, 1, 3), (70, 2, 64)]; let s := with' p (netted [])
     ready s p 0x0701 fun _ _ => passes (s.checkQpCreate p)),
    (let p := pk 0x0702 96 [(64, 4, 3), (68, 2, 2), (72, 4, 9)]; let s := with' p (netted [(3, newQp 1 0 false false 64)])
     ready s p 0x0702 fun c _ => someAnd (s.qp 3) (fun q => !q.encrypt) && passes (s.checkQpConnect (c.view s).ctx p)),
    (let p := pk 0x0702 96 [(64, 4, 3), (68, 2, 2), (72, 4, 9), (80, 4, 7)]
     let key : QpKey := { number := 7, send := [1], recv := [2] }
     let s := with' p (netted [(3, { newQp 1 0 true false 64 with state := .keyed, key := some key })])
     ready s p 0x0702 fun c _ => someAnd (s.qp 3) (fun q => q.encrypt) &&
       s.classAdmits clsKey (c.view s).ctx && passes (s.checkQpConnect (c.view s).ctx p)),
    (let p := pk 0x0703 80 [(64, 4, 3)]; let s := with' p (netted [(3, qp9)])
     ready s p 0x0703 fun c _ => okAnd (s.needQp (c.view s).ctx 3 64) fun _ => passes (zeroBytes p 68 79)),
    (let p := pk 0x0707 80 [(64, 4, 3)]; let s := with' p (netted [(3, qp9)])
     ready s p 0x0707 fun c _ => okAnd (s.needQp (c.view s).ctx 3 64) fun _ => passes (zeroBytes p 68 79))] = true := by
  decide +kernel

/-- The queue pair is on chip, and no earlier post to it waits. -/
def posted (s : State) (c : Cmd) : Bool :=
  s.onChip 3 && decide (s.stylus.chip.length ≤ 2048) && !s.postWaits c && !s.postFetching 3 && (s.qp 3).isSome

theorem met_PostsTakeTheirPlace : allOf [
    (let p := pk 0x0704 80 [(64, 4, 3), (68, 4, 1)]; let s := with' p (netted [(3, qp9)])
     ready s p 0x0704 fun c x => passes (s.checkPostRecv (c.view s).ctx x p) && posted s c),
    (let p := pk 0x0705 112 [(64, 4, 3), (68, 4, 1)]; let s := with' p (netted [(3, qp9)])
     ready s p 0x0705 fun c x => passes (s.checkPost (c.view s).ctx x p) && decide (p.at 80 1 = 0) && posted s c),
    (let p := pk 0x0706 112 [(64, 4, 3)]; let s := with' p (netted [(3, qp9)])
     ready s p 0x0706 fun c x => passes (s.checkPost (c.view s).ctx x p) && decide (p.at 80 1 = 0) && posted s c),
    (let a : Armed := { queue := 1, seq := 5, kind := 1, arg := 0, count := 0, since := 0, fired := true }
     let s : State := { netted [(3, { qp9 with armed := [a] })] with cmds := [cmd (pk 0x0705 112 [(64, 4, 3), (68, 4, 1)]) .running] }
     someAnd (s.qp 3) fun q => someAnd (q.armed.find? (·.fired)) fun a => (s.findCmd a.queue a.seq).isSome),
    (let a : Armed := { queue := 1, seq := 5, kind := 1, arg := 0, count := 0, since := 0, fired := false }
     let s : State := { netted [(3, { qp9 with armed := [a] })] with strk := { base.strk with now := 50000 } }
     someAnd (s.qp 3) fun q => (q.armed.find? fun a => !a.fired &&
       decide (a.since + (((Kv.get a.queue s.queues).map (·.waitLimit)).getD 0) ≤ s.strk.now)).isSome)] = true := by
  decide +kernel

/-- A packet of type ty from queue pair 9 of node 2 to queue pair 3 of node 1, with a PSN. -/
def packet (ty psn : Nat) (pay : List Byte) : List Byte :=
  [(0, 1, 16 + ty), (4, 2, 1), (6, 2, 2), (8, 2, 3), (10, 2, 9), (12, 3, psn)].foldl poke (zeros 40) ++ pay

/-- The packet passes every check before its PSN is judged. -/
def rx (s : State) (pkt : List Byte) (f : Qp → Bool) : Bool :=
  s.portUp 0 && decide (40 ≤ pkt.length) && decide (fieldAt pkt 0 1 / 16 = 1) && decide (fieldAt pkt 0 1 % 16 ≤ 2) &&
    decide (fieldAt pkt 4 2 = s.selfNode) && decide (bitsOf (fieldAt pkt 1 1) 3 2 ≠ 3) && decide (fieldAt pkt 1 1 % 4 = 0) &&
    decide (fieldAt pkt 2 2 < 4096) && decide (fieldAt pkt 8 2 = 3) && s.onChip 3 && decide (s.missBytes (some 3) = 0) && !bitOf (fieldAt pkt 1 1) 6 &&
    someAnd (s.qp 3) fun q => decide (q.state = .connected) && !q.encrypt && decide (fieldAt pkt 6 2 = q.peerNode) &&
      decide (fieldAt pkt 10 2 = q.peerQp) && f q

theorem rx_iff (s : State) (pkt : List Byte) (f : Qp → Bool) (h : rx s pkt f = true) : ∃ q, RxPasses s 0 3 q pkt ∧ f q = true := by
  simp only [rx, Bool.and_eq_true, decide_eq_true_eq, Bool.not_eq_true', someAnd] at h
  obtain ⟨⟨⟨⟨⟨⟨⟨⟨⟨⟨⟨⟨h1, h2⟩, h3⟩, h4⟩, h5⟩, h6⟩, h7⟩, h8⟩, h9⟩, h10⟩, h13⟩, h11⟩, h12⟩ := h
  split at h12
  · rename_i q hq
    simp only [Bool.and_eq_true, decide_eq_true_eq, Bool.not_eq_true'] at h12
    exact ⟨q, ⟨h1, h2, h3, h4, h5, h6, h7, h8, h9, hq, h10, h13, h12.1.1.1.1, h12.1.1.1.2, h11, h12.1.1.2, h12.1.2⟩, h12.2⟩
  · cases h12

/-- A request of SEQ 5 with one packet formed. -/
def req5 : SendReq :=
  { cmd := some (1, 5), ink := false, tag := 0, len := 8, source := none, data := zeros 8, msn := 0, first := 0, packets := 1, payload := 8, formed := 1
    retrans := 0, status := none, started := some 0, rnr := false }

/-- Its packet. -/
def sent5 : TxPacket :=
  { psn := 0, msn := 0, body := [], sentAt := 0, times := 0, port := 0, order := 0, resend := false, acked := false }

theorem met_StylusEventsComplete : allOf [
    rx (netted [(3, qp9)]) (packet 0 0 [1]) (fun q => someAnd (q.extCount q.cum 0) fun c => decide (q.cum ≤ c ∧ c ∉ q.received ∧ c < q.cum + q.window)),
    rx (netted [(3, qp9)]) (packet 0 63 [1]) (fun q => someAnd (q.extCount q.cum 63) fun c => decide (q.cum ≤ c ∧ c ∉ q.received ∧ c < q.cum + q.window)),
    rx (netted [(3, { qp9 with cum := 1 })]) (packet 0 0 [1]) (fun q => someAnd (q.extCount q.cum 0) fun c => decide (c < q.cum)),
    rx (netted [(3, qp9)]) (packet 1 0 []) (fun q => someAnd (q.extCount q.cum 0) fun c => decide (q.cum ≤ c ∧ c ∉ q.received ∧ c < q.cum + q.window)),
    rx (netted [(3, qp9)]) (packet 2 0 []) (fun _ => true),
    (netted []).portUp 0 && packetType (packet 0 0 []) 0,
    (let s := netted [(3, { qp9 with sinceAck := 1 })]
     someAnd (s.qp 3) fun q => decide (0 < q.sinceAck)),
    (let s := netted [(3, { qp9 with sends := [req5], unacked := [sent5], expiries := 14 })]
     someAnd (s.qp 3) fun q => !(q.unacked.all (·.acked)) && !((q.oldestReq).map (·.rnr)).getD false && decide (q.expiries + 1 ≠ 16)),
    (let s := netted [(3, { qp9 with sends := [req5], unacked := [sent5], expiries := 15 })]
     someAnd (s.qp 3) fun q => !(q.unacked.all (·.acked)) && !((q.oldestReq).map (·.rnr)).getD false && decide (q.expiries + 1 = 16 ∧ q.state ≠ .error)),
    (let s := netted [(3, { qp9 with sends := [{ req5 with rnr := true }], unacked := [sent5] })]
     someAnd (s.qp 3) fun q => someAnd q.oldestReq fun r => r.rnr),
    (let s : State := { netted [(3, { qp9 with sends := [{ req5 with rnr := true }] })] with
       cmds := [cmd (pk 0x0705 112 []) .running], strk := { base.strk with now := 50000 } }
     someAnd (s.qp 3) fun q => someAnd (q.sends.find? (·.rnr)) fun r => someAnd r.cmd fun w => someAnd (s.findCmd w.1 w.2) fun c =>
       someAnd (rnrSince c r) fun since => someAnd (Kv.get c.queue s.queues) fun x => decide (since + x.waitLimit ≤ s.strk.now ∧ c.pkt.opcode ≠ 0x0903)),
    (let n := netted [(3, qp9)]
     let s : State := { n with stylus := { n.stylus with chip := [] }, host := { n.host with coherent := false } }
     (s.qp 3).isSome && !s.onChip 3 && decide ((s.stylus.miss.filter fun m => decide (m.1 = 3)) = []) && !s.host.coherent && decide (s.cmds = [])),
    (let s := netted [(3, { qp9 with cls := 2, acks := [(0, 0, 0)] })]
     someAnd (s.qp 3) fun q => s.onChip 3 && decide (q.nextTx = some .ack) && someAnd (s.nodeOf q.peerNode) fun e => someAnd (s.txPort 3 q .ack) fun port =>
       !port.2 && (let pkt := sealPacket q 3 true q.ackSeq (ackHeader q s.selfNode 3 0 0 0) []
        s.mayBegin port.1 q.cls (s.frameBytes port.1 e pkt) 0 (s.queuedAt 3 port.1)))] = true := by
  decide +kernel

/-- A ring of nodes 1 and 2 beside the map's nodes. -/
def map3 : List Byte := [(10, 2, 1), (256, 2, 2), (258, 1, 2), (264, 2, 1), (266, 2, 2)].foldl poke (map2 ++ zeros 16)

/-- A collective queue pair of context 1 to node 2. -/
def qpC : Qp := { newQp 1 0 false false 64 with state := .connected, peerNode := 2, peerQp := 9 }

/-- A group of both nodes over queue pairs 3 and 4. -/
def group2 : XhGroup :=
  { mode := 0, topology := 0, ring := 0, contributors := 2, margin := 0, deadline := 4, handle := 9, staging := 0x48000, stagingBytes := stagingMin
    prev := some 3, next := some 4, children := [], ituskPlate := 0 }

/-- A bucket of one block, admitted in stroke 0. -/
def bucket1 : Bucket :=
  { context := 1, step := 1, group := 0, bucket := 0, layer := 0, attempt := 0, queue := 1, seq := 5, admitted := 0, members := [1, 2], fanout := 2
    bank := 0, xp := 0, started := false, amax := 0, pass2 := false, body := [0], taken := [], up := [], written := 0, saves := [], escaped := []
    joined := false, collects := [], collected := false, special := 0 }

/-- The XH_REDUCE of a bucket of step 1. -/
def reduce1 : Packet := pk 0x0802 112 [(64, 5, 1), (88, 4, 1), (92, 4, 2)]

/-- The part with that group, bucket and command, SOURCE and RESULT of one block, and these messages held by queue pair 3. -/
def reducing (g : XhGroup) (b : Bucket) (ms : List RxMsg) : State :=
  let n := netted [(3, { qpC with messages := ms }), (4, qpC)]
  { n with
    fabric := { n.fabric with banks := [(0, { map := map3, schedule := [] })] }
    ctxs := Kv.set 1 { ctx1 with descs := [(1, rec' 0x10000 0x30 [1]), (2, rec' 0x11000 0x30 [1])], groups := [(0, g)] } n.ctxs
    buckets := [b], cmds := [cmd reduce1 .running] }

/-- A whole message with a tag. -/
def msg (tag : Nat) (bs : List Byte) : RxMsg :=
  { msn := 0, cmd := none, tag := tag, len := bs.length, got := bs.length, refused := none, parts := [(0, bs)], last := some 0 }

/-- The head message of queue pair 3 is this one, of a group of its owner. -/
def isHeld (s : State) (tag : Nat) (bs : List Byte) (f : Qp → Bool) : Bool :=
  someAnd (s.qp 3) fun q => s.isHead { qp := 3, tag := tag, bytes := bs } && (s.groupOf q.owner 3).isSome && f q

/-- A key that leads to a bucket's job of which f holds. -/
def filedAs (s : State) (tag : Nat) (f : XhJob → Bool) : Bool := match s.fileKey 1 tag with
  | .bucket j => f j
  | _ => false

/-- A segment of one block for a job with these features. -/
def segment (g : XhGroup) (phase : Nat) (body : List Byte) : Bool :=
  let tag := xhTag 1 0 0 0 phase false 0
  let bs := segHeader 0 1 0 ++ body
  let s := reducing g { bucket1 with started := true } [msg tag bs]
  isHeld s tag bs (fun _ => decide (bitsOf tag 7 6 < 2)) && filedAs s tag fun j =>
    decide (j.g.mode = 0 ∧ j.g.topology = g.topology ∧ bitOf tag 5 = j.b.pass2 ∧ (bitsOf tag 7 6, bitsOf tag 19 8, fieldAt bs 0 4, 3) ∉ j.b.taken ∧
      fieldAt bs 0 4 + fieldAt bs 4 2 ≤ j.b.body.length ∧ (bs.drop 64).length = 132 * fieldAt bs 4 2 ∧ (j.b.up.map fun x => x.2.2.length).sum + (bs.drop 64).length ≤ 1081344)

theorem met_CrosshatchEventsComplete : allOf [
    ([0, 1].all fun m =>
      let s := reducing { group2 with mode := m } bucket1 []
      decide (((s.buckets.filter fun b => decide (b.context = 1) && decide (b.group = 0)).find? fun b => !b.started) = some bucket1) &&
        decide (((s.buckets.filter fun b => decide (b.context = 1) && decide (b.group = 0)).filter (·.started)).length < 8) &&
        someAnd (s.job bucket1) fun j => decide (j.c.phase = .running) && j.c.hostWait.isNone && !s.hostBlocked j.v j.src.ranges && decide (j.g.mode = m) &&
          okAnd (s.xhTouch j false bucket1.body) fun _ => true),
    (let tag := xhTag 1 0 7 0 0 false 0; let s := reducing group2 bucket1 [msg tag [1]]
     isHeld { s with ctxs := Kv.upd 1 (fun c => c.setXhStep { step := 1, attempts := 1, verified := [(0, 7)], aborted := false, stale := [] }) s.ctxs }
       tag [1] fun _ => decide (bitsOf tag 7 6 < 2)),
    (let tag := xhTag 1 0 7 0 0 false 0; let s := reducing group2 bucket1 [msg tag [1]]
     let s := { s with ctxs := Kv.upd 1 (fun c => c.setXhStep { step := 1, attempts := 1, verified := [(0, 7)], aborted := false, stale := [] }) s.ctxs }
     match s.fileKey 1 tag with
     | .discard => true
     | _ => false),
    (let tag := xhTag 1 0 0 0 1 false 0; let s := reducing group2 bucket1 [msg tag [1]]
     isHeld s tag [1] (fun _ => decide (bitsOf tag 7 6 < 2)) && match s.fileKey 1 tag with
     | .notReady => true
     | _ => false),
    segment group2 0 (zeros 132), segment group2 1 (zeros 132),
    segment { group2 with topology := 1 } 0 (zeros 132), segment { group2 with topology := 1 } 1 (zeros 132),
    (let v : Verdict := { code := 3, amax := 0, escaped := 0, nf := 0, reporter := 2, stroke := 0 }
     let tag := xhTag 1 0 0 0 3 false 0; let bs := segHeader 0 0 0 ++ v.bytes
     isHeld (reducing group2 bucket1 [msg tag bs]) tag bs fun _ => decide (2 ≤ bitsOf tag 7 6 ∧ (Verdict.ofBytes (bs.drop 64)).code ≠ 0)),
    (let v : Verdict := { code := 0, amax := 0, escaped := 0, nf := 0, reporter := 0, stroke := 0 }
     let tag := xhTag 1 0 0 0 2 false 0; let bs := segHeader 0 0 0 ++ v.bytes; let s := reducing group2 { bucket1 with started := true } [msg tag bs]
     isHeld s tag bs (fun _ => decide (bitsOf tag 7 6 = 2 ∧ (Verdict.ofBytes (bs.drop 64)).code = 0)) && filedAs s tag fun _ => true),
    (let v : Verdict := { code := 0, amax := 0, escaped := 0, nf := 0, reporter := 0, stroke := 3 }
     let tag := xhTag 1 0 0 0 3 false 0; let bs := segHeader 0 0 0 ++ v.bytes
     let s := reducing group2 { bucket1 with started := true, joined := true } [msg tag bs]
     isHeld s tag bs (fun _ => decide (bitsOf tag 7 6 = 3 ∧ (Verdict.ofBytes (bs.drop 64)).code = 0)) &&
       filedAs s tag fun j => j.b.joined && decide (s.strk.now < j.deadline + j.g.deadline)),
    (let s := { reducing group2 { bucket1 with members := [2, 1] } [] with strk := { base.strk with now := 4 } }
     someAnd (s.bucketAt bucket1.key) fun b => someAnd (s.job b) fun j => s.isJudge j && decide (j.deadline ≤ s.strk.now)),
    (let s := reducing group2 bucket1 []
     someAnd (s.bucketAt bucket1.key) fun b => someAnd (s.job b) fun j => decide (s.strk.now < j.deadline)),
    (let s := { reducing group2 bucket1 [] with strk := { base.strk with now := 8 } }
     someAnd (s.bucketAt bucket1.key) fun b => someAnd (s.job b) fun j => decide (j.deadline + j.g.deadline ≤ s.strk.now))] = true := by
  decide +kernel

/-- A gradient policy of one layer: FP32, from E3M2 to FP32. -/
def policyBytes : List Byte := [(1, 1, 0x02), (2, 1, 0x12), (3, 1, 0x02), (4, 2, 1), (8, 1, 1), (9, 1, 1)].foldl poke (zeros 16)

/-- An ITUSK group with two tensors of 1 MiB, and a bucket list. -/
def itusking (bs : List Bucket) : State :=
  let n := netted []
  { n with
    fabric := { n.fabric with banks := [(0, { map := map3, schedule := [] })] }
    ctxs := Kv.set 1 { ctx1 with
      allocs := [alloc 0x10000 0x200000 true false], descs := [(1, rec' 0x10000 2 [262144]), (2, rec' 0x110000 2 [262144])]
      groups := [(0, { group2 with mode := 1 })] } n.ctxs
    buckets := bs }

theorem met_CrosshatchCommandsComplete : allOf [
    (let p := pk 0x0306 80 [(64, 4, 1), (68, 2, 1)]
     let s := with' p ({ base with ctxs := Kv.set 1 { ctx1 with layers := 1, descs := [(1, rec' 0x10000 0x20 [1, 16])] } base.ctxs }.vput 1 0x10000 policyBytes)
     ready s p 0x0306 fun c x => passes (s.checkGradPolicy (c.view s) x p false) && okAnd (s.mgmtTouch c 10 [s.ioOf c 64 false]) fun s2 =>
       passes (s2.checkGradPolicy (c.view s2) x p true) && okAnd (s2.needDesc (c.view s2).ctx (p.at 64 4) 64 false) fun d =>
         okAnd (s2.policies (c.view s2) d) fun _ => true),
    (let s := with' reduce1 (itusking [bucket1])
     (ready s reduce1 0x0802 fun c x => passes (s.checkXhReduce (c.view s).ctx x reduce1)) && s.buckets.any fun b => decide (b.queue = 1 ∧ b.seq = 5)),
    (let s := with' reduce1 (itusking [])
     (ready s reduce1 0x0802 fun c x => passes (s.checkXhReduce (c.view s).ctx x reduce1)) && s.buckets.isEmpty),
    (let p := pk 0x0803 80 [(64, 5, 1)]; let s := with' p (itusking [])
     ready s p 0x0803 fun c x => passes (s.checkXhAbort (c.view s).ctx x p)),
    (let p := pk 0x0804 96 [(64, 8, 0x10000), (72, 8, 0x20000), (80, 4, 0x1000)]; let s := with' p base
     ready s p 0x0804 fun c x => passes (s.checkPrefetchHint (c.view s).ctx x p) && !s.hostBlocked (c.view s) [(p.at 64 8, p.at 80 4)] &&
       !s.copyAhead && (s.hints (c.view s).ctx).all fun d => !s.mayStart d || (!decide (d.pkt.at 84 1 < p.at 84 1) && (decide (d.pkt.at 84 1 ≠ p.at 84 1) || !d.before c))),
    (let c := cmd (pk 0x0804 96 []) .admitted
     okAnd (base.touch 1 [] 0x10000 4096 accR true) fun s1 => okAnd (s1.touch 1 [] 0x20000 4096 accW true) fun s2 =>
       decide ((c.view base).ctx = 1) && decide (c.bound = []) && (s2.badRange 1 [] 0x10000 4096).isNone),
    (match base.touch 1 [] 0x70000 4096 accR true with
     | .error (.notPresent, va) => decide (va = 0x70000)
     | _ => false)] = true := by
  decide +kernel

/-- Context 1 with a staging area whose pages share one frame. -/
def ctxStaging : Ctx := { ctx1 with allocs := [alloc 0x10000 0x1000000 true false], descs := [(1, rec' 0x10000 0x20 [stagingMin])] }

/-- The translation of every page of the staging area. -/
def stagingTlb (i : Nat) : TlbEntry := { context := 1, page := 16 + i, frame := 0x100000, read := true, write := true, ink := false }

/-- XH_GROUP of that staging area. -/
def groupPacket : Packet := pk 0x0801 96 [(68, 2, 2), (72, 4, 4), (76, 4, 1)]

/-- The part with that staging area and its header, and XH_GROUP admitted. -/
def staged : State :=
  let n := netted [(3, qpC), (4, qpC)]
  let s := { n with ctxs := Kv.set 1 ctxStaging n.ctxs }.vput 1 0x10000 (leBytes 4 3 ++ leBytes 4 4 ++ List.replicate 64 0xFF ++ zeros 56)
  { s with
    fabric := { n.fabric with banks := [(0, { map := map3, schedule := [] })] }
    cmds := [cmd groupPacket .admitted]
    mem := { s.mem with tlb := (List.range 3201).map stagingTlb, owners := [(16, .context 1)] } }

theorem staged_page (acc : Acc) (ha : acc = accR ∨ acc = accW) (k : Nat) (h : k < 3201) :
    staged.touchPage 1 [] acc false (4096 * (16 + k)) = .ok staged := by
  have hf : ((List.range 3201).map stagingTlb).find? (fun t => decide (t.context = 1 ∧ t.page = 4096 * (16 + k) / 4096)) = some (stagingTlb k) := by
    rw [List.find?_map, Option.map_eq_some_iff]
    refine ⟨k, ?_, rfl⟩
    rw [List.find?_range_eq_some]
    refine ⟨by simp [stagingTlb], by simpa using h, fun j hj => ?_⟩
    simp [stagingTlb]
    omega
  have hc : Kv.get 1 staged.ctxs = some ctxStaging := by decide +kernel
  have hw : ∀ va, ctxStaging.windowAt [] va = none := fun va => rfl
  have hk : ∀ va, keptPage [] va = none := fun va => rfl
  have ht : staged.mem.tlb = (List.range 3201).map stagingTlb := by simp only [staged]
  have htr : staged.translate 1 [] (4096 * (16 + k)) = .ok { pa := 0x100000, read := true, write := true, ink := false } := by
    have : ¬ 4096 * (16 + k) ≥ 2 ^ 48 := by omega
    simp only [State.translate, hc, hw, hk, Option.orElse_none, ht, hf, this]; rfl
  have hal : ctxStaging.allocAt (4096 * (16 + k)) = some (alloc 0x10000 0x1000000 true false) := by
    have h1 : (0x10000 : Nat) ≤ 4096 * (16 + k) := by omega
    have h2 : 4096 * (16 + k) < 0x10000 + 0x1000000 := by omega
    simp [Ctx.allocAt, ctxStaging, alloc, h1, h2]
  have hac : staged.accessCheck 1 [] (4096 * (16 + k)) acc { pa := 0x100000, read := true, write := true, ink := false } = none := by
    simp only [State.accessCheck, hc, hw, hal]
    rcases ha with rfl | rfl <;> decide +kernel
  have how : ¬ (staged.framed 0x100000 = true ∧ staged.ownerOf 0x100000 = none) := by decide +kernel
  have hca : staged.mem.tlb.any (fun t => decide (t.context = 1 ∧ t.page = 4096 * (16 + k) / 4096)) = true := by
    rw [ht]
    exact List.any_eq_true.2 ⟨stagingTlb k, List.mem_map.2 ⟨k, List.mem_range.2 h, rfl⟩, by simp [stagingTlb]⟩
  simp only [State.touchPage, htr, hac]
  rw [if_neg how, State.cache, if_pos (.inl hca)]

/-- An access whose pages all leave the state as it is leaves it so. -/
theorem touchAll_same {s : State} {v : View} {rs : List (Nat × Nat)} {acc : Acc} {demand : Bool}
    (h : ∀ r ∈ rs, ∀ a ∈ pagesOf r.1 r.2, s.touchPage v.ctx v.bound acc demand a = .ok s) : s.touchAll v rs acc demand = .ok s := by
  have hsub : ∀ (ps l : List (Nat × Nat)) (x : Nat × Nat),
      x ∈ ps.foldl (fun (l : List (Nat × Nat)) x => if l.any fun y => y.1 = x.1 then l else l ++ [x]) l → x ∈ l ∨ x ∈ ps := by
    intro ps
    induction ps with
    | nil => intro l x hx; exact .inl hx
    | cons p ps ih =>
      intro l x hx
      rcases ih _ _ hx with hx | hx
      · dsimp only at hx
        split at hx
        · exact .inl hx
        · rcases List.mem_append.1 hx with hx | hx
          · exact .inl hx
          · exact .inr (by simp_all)
      · exact .inr (List.mem_cons_of_mem _ hx)
  have hfold : ∀ ps : List (Nat × Nat), (∀ p ∈ ps, s.touchPage v.ctx v.bound acc demand p.2 = .ok s) →
      ps.foldlM (fun s p => s.touchPage v.ctx v.bound acc demand p.2) s = .ok s := by
    intro ps hp
    induction ps with
    | nil => rfl
    | cons p ps ih =>
      rw [List.foldlM_cons, hp p (by simp)]
      exact ih fun q hq => hp q (by simp [hq])
  refine hfold _ fun p hp => ?_
  rcases hsub _ _ _ hp with hp | hp
  · cases hp
  · obtain ⟨r, hr, hp⟩ := List.mem_flatMap.1 hp
    obtain ⟨a, ha, rfl⟩ := List.mem_map.1 hp
    exact h r hr a ha

theorem staged_range (acc : Acc) (ha : acc = accR ∨ acc = accW) (n : Nat) (hn : n ≤ stagingMin) :
    staged.touchAll { ctx := 1, bound := [] } [(0x10000, n)] acc false = .ok staged := by
  refine touchAll_same fun r hr a hp => ?_
  obtain rfl := List.mem_singleton.1 hr
  simp only [pagesOf] at hp
  split at hp
  · cases hp
  · obtain ⟨k, hk, rfl⟩ := List.mem_map.1 hp
    have hs : stagingMin = 3200 * 4096 + 1 ∨ stagingMin ≤ 3201 * 4096 := by decide
    have hk := List.mem_range.1 hk
    have e : (if k = 0 then 0x10000 else (0x10000 / 4096 + k) * 4096) = 4096 * (16 + k) := by split <;> omega
    simp only [e]
    exact staged_page acc ha k (by omega)

/-- A read and a write whose pages all leave the state as it is leave it so. -/
theorem reach_same {s : State} {c : Cmd} {v : View} {e a n m : Nat} (h : c.view s = v) (hup : s.host.up = true)
    (h1 : s.touchAll v [(a, n)] accR false = .ok s) (hb : s.badRange v.ctx v.bound a n = none) (h2 : s.touchAll v [(a, m)] accW false = .ok s) :
    s.mgmtTouch c e [{ detail := 76, write := false, ranges := [(a, n)] }, { detail := 76, write := true, ranges := [(a, m)] }] = .ok s := by
  simp [State.mgmtTouch, h, State.hostBlocked, hup, h1, h2, hb]

theorem staged_reach (c : Cmd) (h : c.view staged = { ctx := 1, bound := [] }) : staged.mgmtTouch c 8
    [{ detail := 76, write := false, ranges := [(0x10000, 128)] }, { detail := 76, write := true, ranges := [(0x10000, stagingMin)] }] = .ok staged :=
  reach_same h (by decide +kernel) (staged_range accR (.inl rfl) 128 (by decide)) (by decide +kernel)
    (staged_range accW (.inr rfl) stagingMin (Nat.le_refl _))

theorem met_CrosshatchCommandsComplete_group :
    (ready staged groupPacket 0x0801 fun c x => passes (staged.checkXhGroup (c.view staged).ctx x groupPacket false) &&
       passes (staged.checkXhGroup (c.view staged).ctx x groupPacket true) && decide (c.view staged = { ctx := 1, bound := [] }) &&
       someAnd (staged.desc 1 (groupPacket.at 76 4)) (fun d => decide (d.base = 0x10000)) &&
       okAnd (staged.needDesc 1 (groupPacket.at 76 4) 76 true) fun d => decide (d.base = 0x10000)) = true := by
  decide +kernel
/-- A manifest of one shard of 64 zero bytes, at offset 0 of an image of 64 KiB. -/
def manifestBytes : List Byte :=
  ([(4, 2, 1), (8, 8, 65536), (16, 4, 1), (136, 4, 64)].foldl poke (ascii "KVMF" ++ zeros 140)) ++ sha256 (zeros 64)

/-- It is loaded, by context 1, its shard verified at these bases. -/
def manifest1 (vs : List (Nat × Nat)) : Manifest :=
  { owner := some 1, publisher := 0, bytes := manifestBytes, digest := sha256 manifestBytes, frames := [], verified := vs, receives := [], discards := 0 }

/-- The part with these descriptors and manifests, queue pair 3 connected. -/
def modelled (ds : List (Nat × Desc)) (ms : List (Nat × Manifest)) (rx : List RxMsg) : State :=
  let n := netted [(3, { qpC with messages := rx })]
  { n with ctxs := Kv.set 1 { ctx1 with descs := ds } n.ctxs, manifests := ms, boot := { n.boot with store := [(0x20, [])] } }

/-- A frame of the store is free, and claiming one leaves the manifests. -/
def frameFree (s : State) : Bool := decide (s.ownerOf 0 = none) && decide (0 ∉ s.mem.filling)

theorem claims_one (s : State) (h : frameFree s = true) : ∃ fs t, s.claimStore 1 = some (fs, t) ∧ t.manifests = s.manifests := by
  simp only [frameFree, Bool.and_eq_true, decide_eq_true_eq] at h
  obtain ⟨k, -, hk⟩ := freshNumber_spec s 24 0 (hbmSize / 65536) (fun f => decide (s.ownerOf (f * 65536) ≠ none) || decide (f ∈ s.mem.filling))
    ⟨0, Nat.le_refl 0, by decide, by simp [h.1, h.2]⟩
  exact ⟨[k], { s with free := s.free + 1, mem := { s.mem with owners := Kv.set k .reserved s.mem.owners } }, by simp only [State.claimStore, hk]; rfl, rfl⟩

/-- MANIFEST_LOAD of that manifest at 0x10000, its signature at 0x12000. -/
def loadPacket : Packet := pk 0x0901 80 [(64, 4, 1), (68, 4, 2)]

/-- The part with them in memory. -/
def loading (ms : List (Nat × Manifest)) : State :=
  with' loadPacket ((modelled [(1, rec' 0x10000 0x20 [176]), (2, rec' 0x12000 0x20 [7856])] ms []).vput 1 0x10000 manifestBytes)

/-- Whose checks pass and whose manifest can be read, f holding of the state and the bytes. -/
def loads (ms : List (Nat × Manifest)) (f : State → List Byte → Bool) : Bool :=
  let s := loading ms
  ready s loadPacket 0x0901 fun c _ => c.slot.isNone && okAnd (s.takeSlot c clsVerify) fun s1 => passes (s1.checkManifestLoad (c.view s1).ctx loadPacket) &&
    match s1.mgmtTouch c 9 [s1.ioOf c 64 false, s1.ioOf c 68 false] with
    | .error _ => false
    | .ok s2 => okAnd (s2.needDesc (c.view s2).ctx 2 68 false) (fun _ => true) && okAnd (s2.needDesc (c.view s2).ctx 1 64 false) fun d =>
      f s2 (s2.descBytes (c.view s2) d) && decide (d.extent = 176)

theorem met_DistributionCommandsComplete : allOf [
    loads [(7, manifest1 [])] (fun s bs => decide ((s.manifests.find? fun e => decide (e.2.owner = some 1) && decide (e.2.digest = sha256 bs)).map (·.1) = some 7)),
    loads [] (fun s bs => decide (s.manifests = []) && decide (ceilDiv bs.length 65536 = 1) && frameFree s && manifestOk bs 176),
    (let p := pk 0x0902 80 [(64, 2, 7), (72, 4, 3), (76, 4, 1)]
     let s := with' p (modelled [(1, rec' 0x10000 0x20 [64])] [(7, manifest1 [])] [])
     ready s p 0x0902 fun c _ => s.hasLane c && passes (s.checkShardSend (c.view s).ctx p)),
    (let p := pk 0x0903 96 [(64, 2, 7), (72, 4, 1), (76, 4, 3), (80, 4, 0xFFFFFFFF)]
     let s := with' p (modelled [(1, rec' 0x10000 0x20 [64])] [(7, manifest1 [])] [])
     ready s p 0x0903 fun c x => s.hasLane c && passes (s.checkShardReceive (c.view s).ctx x p)),
    (let p := pk 0x0904 80 [(64, 2, 7), (66, 2, 9)]; let n := modelled [] [(7, manifest1 [(0, 0x10000)])] []
     let s := with' p { n with ctxs := Kv.upd 1 (fun c => { c with allocs := [alloc 0x10000 0x10000 true false, alloc 0x40000 0x10000 true false] }) n.ctxs }
     ready s p 0x0904 fun c x => passes (s.checkBaseInstall (c.view s).ctx x p) && decide (c.view s = { ctx := 1, bound := [] }) &&
       someAnd (Kv.get 7 s.manifests) fun m => decide (m.shards = 1) &&
         okAnd (s.mgmtTouch c 9 [{ detail := 64, write := false, ranges := (List.range m.shards).map fun i => ((m.dest i).getD 0, m.length i) }]) fun s1 =>
           okAnd (s1.needManifest 1 7) fun m' => decide (m' = m) && decide ((c.view s1).ctx = 1) &&
             decide (sha256 (s1.vread 1 [] ((m.dest 0).getD 0) (m.length 0)) = m.shardDigest 0) &&
             (let s2 := (x.destAllocs m).foldl (fun s a => s.dropTlb 1 a.base a.size) s1
              decide (s2.epochs = []) && frameFree s2)),
    (let p := pk 0x0905 80 [(64, 2, 1), (66, 2, 9), (72, 8, 0x40000000)]
     let s := with' p { base with epochs := [(9, { slot := 0, manifest := 7, bytes := 65536, frames := [1], blank := 2, retiring := false })] }
     ready s p 0x0905 fun _ _ => passes (s.checkBaseMap p) && someAnd (Kv.get 1 s.ctxs) (fun y => (y.windowIs 0x40000000).isNone &&
       decide (y.windows.findIdx? (fun w => !w.valid) = some 0)) && (Kv.get 9 s.epochs).isSome),
    (let p := pk 0x0905 80 [(64, 2, 1), (66, 2, 9), (72, 8, 0x40000000)]
     let w : Window := { va := 0x40000000, epoch := 8, manifest := 7, sizeGib := 1, valid := true }
     let s := with' p { base with
       epochs := [(9, { slot := 0, manifest := 7, bytes := 65536, frames := [1], blank := 2, retiring := false })]
       ctxs := Kv.set 1 { ctx1 with windows := ctx1.windows.set 3 w } base.ctxs }
     ready s p 0x0905 fun _ _ => passes (s.checkBaseMap p) && someAnd (Kv.get 1 s.ctxs) fun y => decide (y.windowIs 0x40000000 = some 3)),
    (let p := pk 0x0906 80 [(64, 2, 9)]
     let s := with' p { base with epochs := [(9, { slot := 0, manifest := 7, bytes := 65536, frames := [1], blank := 2, retiring := false })], newest := some 10 }
     ready s p 0x0906 fun _ _ => passes (s.checkBaseRetire p))] = true := by
  decide +kernel

/-- A shard command with its lane. -/
def sharding (op from' : Nat) (w : ShardWork) (rx : List RxMsg) : State :=
  { modelled [(1, rec' 0x10000 0x20 [64])] [(7, manifest1 [])] rx with
    cmds := [{ cmd (if op = 0x0902 then pk 0x0902 80 [(64, 2, 7), (72, 4, 3), (76, 4, 1)]
      else pk 0x0903 96 [(64, 2, 7), (72, 4, 1), (76, 4, from'), (80, 4, 0xFFFFFFFF)]) .running with work := .shard w }] }

/-- A lane's work at its beginning. -/
def lane0 : ShardWork := base.newShard

/-- SEQ 5 of queue 1 has a shard job of which f holds. -/
def jobAnd (s : State) (f : Cmd → ShardJob → Bool) : Bool := someAnd (s.findCmd 1 5) fun c => someAnd (s.shardJob c) (f c)

/-- Its next piece is there and can be read. -/
def hashes (s : State) : Bool := jobAnd s fun c j => decide (j.w.hashed < j.pieces ∧ (c.pkt.opcode = 0x0903 → j.isLocal = true ∨ j.w.hashed ∈ j.w.present)) &&
  !s.hostBlocked j.v [(j.d.base, j.pieceLen 0)] && decide (j.w.hashed = 0) && match s.touch j.v.ctx j.v.bound j.d.base (j.pieceLen 0) accR false with
  | .ok s1 => (s1.badRange j.v.ctx j.v.bound j.d.base (j.pieceLen 0)).isNone
  | .error _ => false

theorem met_DistributionEventsComplete : allOf [
    hashes (sharding 0x0902 0 lane0 []), hashes (sharding 0x0903 0xFFFFFFFF lane0 []), hashes (sharding 0x0903 3 { lane0 with present := [0] } []),
    (let tag := shardTag (manifest1 []) 0 0 false; let s := modelled [] [(7, manifest1 [(0, 0x10000)])] [msg tag (zeros 64)]
     decide (s.shardHead 3 (zeros 64) false = some tag) && (s.shardFor 3 tag).isNone && (s.qp 3).isSome && s.shardKnown 1 tag),
    (let tag := shardTag (manifest1 []) 0 0 true; let s := modelled [] [(7, manifest1 [])] [msg tag (zeros 64)]
     decide (s.shardHead 3 (zeros 64) true = some tag) && (s.shardFor 3 tag).isNone && (s.qp 3).isSome && !s.shardKnown 1 tag),
    (let tag := shardTag (manifest1 []) 0 0 false; let s := sharding 0x0903 3 lane0 [msg tag (zeros 64)]
     decide (s.shardHead 3 (zeros 64) false = some tag) && someAnd (s.shardFor 3 tag) fun j => decide (bitsOf tag 43 36 < j.pieces ∧ 64 = j.pieceLen 0) &&
       match (s.takeMsg 3 0).touch j.v.ctx j.v.bound j.d.base 64 accW false with
       | .ok _ => true
       | .error _ => false),
    (let tag := shardTag (manifest1 []) 0 0 true; let s := sharding 0x0903 3 lane0 [msg tag (zeros 64)]
     decide (s.shardHead 3 (zeros 64) true = some tag) && (s.shardFor 3 tag).isSome),
    (let s := { sharding 0x0903 3 lane0 [] with strk := { base.strk with now := 50000 } }
     jobAnd s fun _ j => decide (j.c.pkt.opcode = 0x0903) && !j.isLocal && j.w.upstream.isNone && someAnd (Kv.get 1 s.queues) fun x =>
       decide (j.w.since + x.waitLimit ≤ s.strk.now)),
    (let s := sharding 0x0903 3 lane0 []
     jobAnd s fun _ j => decide (j.c.pkt.opcode = 0x0903) && !j.isLocal && j.w.upstream.isNone && someAnd (Kv.get 1 s.queues) fun x =>
       decide (s.strk.now < j.w.since + x.waitLimit)),
    (let s : State := { base with epochs := [(9, { slot := 0, manifest := 7, bytes := 65536, frames := [1], blank := 2, retiring := true })] }
     someAnd (Kv.get 9 s.epochs) fun e => e.retiring && decide (s.boundTo 9 = 0)),
    (let s : State := { base with
       epochs := [(9, { slot := 0, manifest := 7, bytes := 65536, frames := [1], blank := 2, retiring := true })]
       cmds := [{ cmd (pk 0x0207 96 []) .running with bound := [.window { va := 0x40000000, epoch := 9, manifest := 7, sizeGib := 1, valid := true }] }] }
     someAnd (Kv.get 9 s.epochs) fun e => e.retiring && decide (0 < s.boundTo 9))] = true := by
  decide +kernel
/-- A ledger area at 0x20000 with room for one tensor and two entries, and a keep area at 0x30000 held over queue pair 3. -/
def ledger1 (keep : Bool) (rx : List KeepRx) : Ledger :=
  { ledgerOf 0x20000 9 (if keep then some (0x30000, 0x10000) else none) ([(6, 2, 1), (8, 4, 2), (12, 2, 1), (20, 4, 3), (52, 4, 1), (56, 4, 1), (60, 1, 1), (64, 4, 1), (68, 4, 1), (72, 4, 1)].foldl poke (zeros 1024))
    with keepQps := if keep then [3] else [], keeping := rx }

/-- A tensor of 64 bytes at 0x10000, mirrored at node 2. -/
def tensor1 : TensorEntry :=
  { layer := 0, tensor := 0, requested := 1, applied := 1, buddy := 2, handle := 1, writeSteps := 0, base := 0x10000, bytes := 64 }

/-- The part with that ledger and its tensor, four small descriptors, and these messages on queue pair 3. -/
def surviving (l : Option Ledger) (rx : List RxMsg) : State :=
  let n := netted [(3, { qpC with messages := rx })]
  { n with mem := cached [0x20000, 0x10000, 0x11000, 0x12000, 0x30000, 0x31000, 0x40000, 0x41000], ctxs := Kv.set 1 { ctx1 with
      layers := 1, ledger := l
      descs := [(1, rec' 0x10000 0x20 [64]), (2, rec' 0x11000 0x20 [64]), (3, rec' 0x12000 0x20 [96]), (4, rec' 0x20000 0x20 [2784])] } n.ctxs }.vput
    1 (0x20000 + 1024) tensor1.encode

/-- The header of a ledger area without a keep area. -/
def ledgerHeader : List Byte :=
  [(4, 2, 1), (6, 2, 1), (8, 4, 2), (12, 2, 1), (20, 4, 0xFFFFFFFF), (24, 4, 0xFFFFFFFF), (28, 4, 0xFFFFFFFF), (32, 4, 0xFFFFFFFF), (36, 4, 0xFFFFFFFF),
    (40, 4, 0xFFFFFFFF), (44, 4, 0xFFFFFFFF), (48, 4, 0xFFFFFFFF), (52, 4, 1), (56, 4, 1), (60, 1, 1), (64, 4, 1), (68, 4, 1), (72, 4, 1), (76, 4, 1)].foldl poke
    (ascii "KVLG" ++ zeros 80)

/-- A wake pattern, and an identity table of node 5. -/
def wake1 : List Byte := leBytes 16 0xFF ++ zeros 4 ++ leBytes 1 1 ++ zeros 3
def identity1 : List Byte :=
  ascii "KVID" ++ leBytes 2 1 ++ zeros 10 ++ leBytes 2 5 ++ zeros 14 ++ (List.range 8).flatMap fun i => beBytes 6 (2 * i + 2) ++ beBytes 4 1 ++ zeros 16

/-- The Proof core reaches these bytes, f holding after. -/
def reaches (s : State) (c : Cmd) (io : List MgmtIO) (f : State → Bool) : Bool := match s.mgmtTouch c 9 io with
  | .ok t => f t
  | .error _ => false

theorem met_SurvivalCommandsComplete_ledger : allOf [
    (let p := pk 0x0A05 80 [(64, 4, 4)]; let s := with' p ((surviving none []).vput 1 0x20000 ledgerHeader)
     ready s p 0x0A05 fun c x => decide ((c.view s).ctx = 1) && passes (s.checkLedgerSet 1 x p) && someAnd (s.desc 1 4) fun d =>
       reaches s c [{ detail := 64, write := false, ranges := [(d.base, 1024)] }, s.ioOf c 64 true] fun s1 =>
         okAnd (s1.needDesc 1 4 64 true) fun d1 => let h := s1.vread 1 [] d.base 1024
           decide ((c.view s1).ctx = 1 ∧ d1 = d) && (s1.ledgerChecks 1 x h).all (·.1) && ((s1.desc 1 (fieldAt h 16 4)).map fun k => (k.base, k.extent)).isNone &&
             (let l := ledgerOf d.base 4 none h; decide (1024 + 32 * l.tensorMax + (l.entryCount + 1) * l.entryBytes ≤ d.extent)))] = true := by
  decide +kernel

theorem met_SurvivalCommandsComplete : allOf [
    (let p := pk 0x0A01 80 [(68, 1, 0), (70, 2, 1), (72, 4, 2)]; let s := with' p (surviving (some { ledger1 false [] with tensorMax := 2 }) [])
     ready s p 0x0A01 fun c x => passes (s.checkTensorClass (c.view s).ctx x p) && okAnd (s.needDesc (c.view s).ctx 2 72 false) fun _ => (s.ledger 1).isSome),
    (let p := pk 0x0A06 80 [(64, 5, 3), (72, 4, 4)]; let s := with' p ((surviving (some (ledger1 false [])) []).vput 1 0x20000 (leBytes 5 3 ++ leBytes 1 1))
     ready s p 0x0A06 fun c x => decide ((c.view s).ctx = 1) && passes (s.checkReplay 1 x p false) && someAnd (s.desc 1 4) fun d => someAnd (s.ledger 1) fun l =>
       reaches s c [{ detail := 72, write := false, ranges := [(d.base, l.entryBytes)] }] fun s1 => passes (s1.checkReplay 1 x p true) &&
         okAnd (s1.needDesc 1 4 72 false) fun d1 => decide ((c.view s1).ctx = 1 ∧ d1 = d ∧ s1.ledger 1 = some l)),
    (let p := pk 0x0A09 80 [(64, 2, 1)]; let s := with' p (surviving none [])
     ready s p 0x0A09 fun _ _ => passes (s.checkPlacementSet p)),
    (let p := pk 0x0A07 80 [(64, 2, 2)]; let n := netted []
     let s : State := { n with
       boot := { n.boot with inForce := [(0x12, wake1)] }, ctxs := [(0, { ctx1 with slot := some 0 })], queues := [(1, newQueue 0 0x40000 6 0x41000 6 50000 none)]
       cmds := [cmd p .admitted] }
     ready s p 0x0A07 fun c _ => okAnd (s.takeSlot c clsSurvival) fun s1 => passes (s1.checkSpareArm p)),
    (let p := pk 0x0A08 80 [(64, 2, 5), (68, 4, 0xFFFFFFFF)]; let n := netted []
     let s := with' p { n with boot := { n.boot with inForce := [(0x14, identity1)] }, spare := { n.spare with state := .awake } }
     ready s p 0x0A08 fun c _ => okAnd (s.takeSlot c clsSurvival) fun s1 => passes (s1.checkSparePromote (c.view s1).ctx p) && decide (s1.spare.state = .awake)),
    (let p := pk 0x0A08 80 [(64, 2, 5), (68, 4, 0xFFFFFFFF)]
     let s := with' p { base with boot := { base.boot with inForce := [(0x14, identity1)] }, spare := { base.spare with state := .taken } }
     ready s p 0x0A08 fun c _ => okAnd (s.takeSlot c clsSurvival) fun s1 => passes (s1.checkSparePromote (c.view s1).ctx p) &&
       decide (s1.spare.state = .taken ∧ s1.spare.fill = none)),
    (let p := pk 0x0A08 80 [(64, 2, 5), (68, 4, 3)]; let n := netted [(3, qpC)]
     let s := with' p { n with boot := { n.boot with inForce := [(0x14, identity1)] }, spare := { n.spare with state := .taken } }
     ready s p 0x0A08 fun c _ => okAnd (s.takeSlot c clsSurvival) fun s1 => passes (s1.checkSparePromote (c.view s1).ctx p) &&
       decide (s1.spare.state = .taken))] = true := by
  decide +kernel

/-- The digest record of tensor1 at step 1. -/
def record1 : List Byte := digestRecord 0 0 1 1 2 64 [chunkLeaf (zeros 64)]

/-- A save's job: tensor1 to a host buffer, or to the buddy. -/
def save1 (host : Bool) : SaveJob :=
  { t := tensor1, d := rec' 0x10000 0x20 [64], bounce := if host then some (rec' 0x11000 0x20 [64]) else none, digest := some (rec' 0x12000 0x20 [96]) }

/-- A range can be touched, f holding after. -/
def touches (s : State) (va n : Nat) (acc : Acc) (f : State → Bool) : Bool := match s.touch 1 [] va n acc false with
  | .ok t => f t
  | .error _ => false

/-- A chunk of that save can be read, and written. -/
def chunkSaves (host : Bool) : Bool :=
  let s := surviving none []
  let c := { cmd (pk 0x0A02 96 []) .running with work := .counts [] }
  let j := save1 host
  decide (c.view s = ({ ctx := 1, bound := [] } : View)) && !c.cancel && decide (chunkSize * c.cursor < j.d.extent ∧ min chunkSize (j.d.extent - 0) = 64) &&
    !s.hostBlocked (c.view s) [(0x10000, 64)] && !s.hostBlocked (c.view s) [(0x11000, 64)] &&
    touches s 0x10000 64 accR fun s1 => (s1.badRange 1 [] 0x10000 64).isNone && touches s1 0x11000 64 accW fun s2 => (s2.badRange 1 [] 0x10000 64).isNone

theorem met_SavesAndRestoresComplete : allOf [
    (let p := pk 0x0A02 96 [(64, 5, 1), (72, 4, 1), (76, 4, 3), (80, 4, 3)]; let s := with' p (surviving (some (ledger1 false [])) [])
     ready s p 0x0A02 fun c x => passes (s.checkSave (c.view s).ctx x p) && (s.saveJob c).isSome),
    (let p := pk 0x0A04 80 [(64, 5, 1), (72, 4, 1), (76, 4, 3)]; let s := with' p (surviving (some (ledger1 false [])) [])
     ready s p 0x0A04 fun c x => passes (s.checkSave (c.view s).ctx x p) && (s.saveJob c).isSome),
    chunkSaves true, chunkSaves false,
    (let s := surviving none []
     let c := { cmd (pk 0x0A02 96 [(69, 1, 1)]) .running with cursor := 1, work := .counts [leNat (chunkLeaf (zeros 64))] }
     let n := (digestRecord 0 0 0 1 s.selfNode 64 [chunkLeaf (zeros 64)]).length
     decide ((save1 true).d.extent ≤ chunkSize * c.cursor) && hostTarget c.pkt && !s.hostBlocked { ctx := 1, bound := [] } [(0x12000, n)] &&
       touches s 0x12000 n accW fun _ => true),
    (let p := pk 0x0A03 80 [(64, 4, 1), (68, 4, 2), (72, 4, 3), (76, 1, 1)]; let s := with' p ((surviving none []).vput 1 0x12000 record1)
     ready s p 0x0A03 fun c x => passes (s.checkRestore (c.view s).ctx x p) && decide (c.view s = ({ ctx := 1, bound := [] } : View)) &&
       !s.hostBlocked (c.view s) [(0x12000, 96)] && touches s 0x12000 96 accR fun s1 => (s1.badRange 1 [] 0x12000 96).isNone && recordOk (s1.vread 1 [] 0x12000 96) 64 && (s1.desc 1 2).isSome),
    (let p := pk 0x0A03 80 [(64, 4, 1), (68, 4, 3), (72, 4, 3)]; let s := with' p ((surviving none []).vput 1 0x12000 record1)
     ready s p 0x0A03 fun c x => passes (s.checkRestore (c.view s).ctx x p) && decide (c.view s = ({ ctx := 1, bound := [] } : View)) &&
       !s.hostBlocked (c.view s) [(0x12000, 64)] && touches s 0x12000 64 accR fun s1 => (s1.badRange 1 [] 0x12000 64).isNone && decide ((s1.vread 1 [] 0x12000 64).take 4 = ascii "KVSD")),
    (let s := surviving none []; let c := cmd (pk 0x0A03 80 []) .running
     decide (c.view s = ({ ctx := 1, bound := [] } : View)) && !s.hostBlocked (c.view s) [(0x10000, 64)] && touches s 0x10000 64 accW (fun _ => true) &&
       decide (chunkLeaf (zeros 64) ≠ zeros 32))] = true := by
  decide +kernel

/-- The keep area's directory: one entry, tensor 0 of layer 0 of node 2, 64 bytes, halves at 0x1000 and 0x2000. -/
def keepArea (half : Nat) : List Byte :=
  ascii "KVKP" ++ leBytes 4 1 ++ zeros 56 ++ [(0, 2, 2), (6, 1, half), (8, 8, 64), (16, 8, 0x1000), (24, 8, 0x2000)].foldl poke (zeros 64)

/-- Progress with a save of it. -/
def keeping1 (step : Nat) (leaves : List (Nat × List Byte)) : KeepRx :=
  { qp := 3, layer := 0, tensor := 0, step := step, index := 0, half := 0, length := 64, leaves := leaves }

/-- The keeper with it, and a message at the head of queue pair 3. -/
def keeper (half : Nat) (rx : List KeepRx) (bs : List Byte) : State :=
  ((surviving (some (ledger1 true rx)) [msg keepTag bs]).vput 1 0x30000 (keepArea half)).vput 1 0x31040 record1

/-- A message at the head, of a tensor with an entry (or none) of which f holds. -/
def kept (s : State) (bs : List Byte) (f : Option KeepEntry → Bool) : Bool :=
  s.headIs 3 bs && someAnd (s.keeperOf 3 (fieldAt bs (if bs.take 4 = ascii "KVSD" then 4 else 0) 2) (fieldAt bs (if bs.take 4 = ascii "KVSD" then 6 else 2) 2)) fun x =>
    decide (x.1 = 1 ∧ x.2.1 = 0x30000) && f x.2.2

/-- A restore over queue pair 3 that runs. -/
def restoring (w : Work) (bs : List Byte) : State :=
  { surviving none [msg keepTag bs] with cmds := [{ cmd (pk 0x0A03 80 [(64, 4, 1), (68, 4, 3), (72, 4, 3)]) .running with work := w }] }

/-- The part as a spare, or serving one. -/
def sparing (st : SpareState) (f : Option Fill) (bs : List Byte) : State :=
  let n := surviving (some { ledger1 true [] with tensorMax := 0 }) [msg keepTag bs]
  { n with spare := { n.spare with state := st, fill := f, cursor := some (0, []) } }

/-- A fill of two chunks. -/
def fill2 : Fill := { queue := 1, seq := 5, qp := 3, context := 1, plan := some [(0x10000, 64), (0x11000, 64)], again := false }

theorem met_KeepAndFillEventsComplete : allOf [
    (let bs := pieceHeader 0 0 1 1 0 64 [] ++ zeros 64; let s := keeper 0 [keeping1 1 []] bs
     kept s bs (fun e => someAnd e fun e => decide (64 ≤ e.capacity)) && decide (bs.take 4 ≠ ascii "KVSD" ∧ fieldAt bs 9 1 ≤ 1 ∧ fieldAt bs 12 4 < ceilDiv 64 chunkSize) &&
       decide ((bs.drop 64).length = min chunkSize (64 - 0)) && someAnd (s.ledger 1) (fun l => someAnd (l.keepRx 3) fun r =>
         decide (r.layer = 0 ∧ r.tensor = 0 ∧ r.step = fieldAt bs 4 5 ∧ r.length = fieldAt bs 16 8)) && touches s 0x31000 64 accW fun _ => true),
    (let bs := pieceHeader 0 9 1 1 0 64 [] ++ zeros 64; kept (keeper 0 [] bs) bs fun e => e.isNone),
    (let bs := pieceHeader 0 0 1 1 0 64 [] ++ zeros 64; let s := surviving none [msg keepTag bs]
     s.headIs 3 bs && decide (bs.take 4 ≠ ascii "KVSD" ∧ fieldAt bs 9 1 ≤ 1 ∧ s.ddrGib = 0 ∧ (s.headMsg 3).map (·.tag) = some keepTag) &&
       (s.keeperOf 3 0 0).isNone && !s.qpHeld 3),
    (let s := keeper 0 [keeping1 7 []] record1
     kept s record1 (·.isSome) && someAnd (s.ledger 1) fun l => someAnd (l.keepRx 3) fun r => !r.agrees record1),
    (let s := keeper 0 [keeping1 1 [(0, chunkLeaf (zeros 64))]] record1
     kept s record1 (·.isSome) && someAnd (s.ledger 1) (fun l => someAnd (l.keepRx 3) fun r => r.agrees record1) &&
       touches (s.updLedger 1 fun l => l.setKeepRx 3 none) 0x31040 96 accW fun _ => true),
    (let bs := pieceHeader 0 0 1 2 0 0 []; let s := keeper 0 [] bs
     kept s bs (fun e => someAnd e fun e => (s.restoreHalf 1 0x30000 e (fieldAt bs 4 5)).isNone) && decide (fieldAt bs 9 1 = 2)),
    (let bs := pieceHeader 0 0 (2 ^ 40 - 1) 2 0 0 []; let s := keeper 2 [] bs
     kept s bs (fun e => someAnd e fun e => (s.restoreHalf 1 0x30000 e (fieldAt bs 4 5)).isSome) && decide (fieldAt bs 9 1 = 2)),
    (let s := restoring (.counts []) record1
     s.headIs 3 record1 && someAnd (s.restoring 3) (fun c => decide (c.work = .counts [])) && (s.desc 1 1).isSome && (s.desc 1 3).isSome &&
       decide (fieldAt record1 16 8 = 64) && recordOk record1 64 && decide ((((s.takeMsg 3 0).vread 1 [] 0x12000 64).drop 32).take 32 = zeros 32)),
    (let s := restoring (.counts []) (zeros 96)
     s.headIs 3 (zeros 96) && (s.restoring 3).isSome && (s.desc 1 1).isSome && (s.desc 1 3).isSome),
    (let bs := pieceHeader 0 0 1 2 0 64 [] ++ zeros 64; let s := restoring (.counts [1, leNat (chunkLeaf (zeros 64))]) bs
     s.headIs 3 bs && someAnd (s.restoring 3) (fun c => decide (c.cursor = 0)) && (s.desc 1 1).isSome && (s.desc 1 3).isSome &&
       decide (fieldAt bs 9 1 = 2 ∧ fieldAt bs 12 4 = 0 ∧ (bs.drop 64).length = min chunkSize (64 - 0))),
    (let bs := fillRequest 0; let s := sparing .taken none bs
     s.headIs 3 bs && decide (bs.length = 64 ∧ bs.take 4 ≠ ascii "KVSD" ∧ fieldAt bs 9 1 = 3) && someAnd (s.qp 3) fun q => s.keepQp q.owner 3),
    (let bs := fillRequest 0; let s := sparing .active none bs
     s.headIs 3 bs && (someAnd (s.qp 3) fun q => s.keepQp q.owner 3 && decide (s.planBytes q.owner = [])) && decide (s.spare.state ≠ .taken) && !s.servesOther 3),
    (let bs := pieceHeader 0 0 0 3 0xFFFFFFFF 0 []; let s := sparing .taken (some fill2) bs
     s.headIs 3 bs && decide (fieldAt bs 9 1 = 3 ∧ fieldAt bs 12 4 = 0xFFFFFFFF)),
    (let bs := pieceHeader 0 0 0 3 0 64 (chunkLeaf (zeros 64)) ++ zeros 64; let s := sparing .taken (some fill2) bs
     s.headIs 3 bs && decide (fieldAt bs 9 1 = 3 ∧ fieldAt bs 12 4 = 0) && decide (chunkLeaf (bs.drop 64) = (bs.drop 32).take 32) &&
       decide ((bs.drop 64).length = 64) && touches (s.takeMsg 3 0) 0x10000 64 accW (fun _ => true) &&
       someAnd (Kv.get 1 s.ctxs) fun c => c.allocs.any fun al => al.write && decide (al.base ≤ 0x10000) && decide (0x10000 + 64 ≤ al.base + al.size))] = true := by
  decide +kernel
/-- The part with these descriptors in context 1, a device seed and queue pair 3 unkeyed. -/
def proving (ds : List (Nat × Desc)) : State :=
  let n := netted [(3, newQp 1 0 true false 64)]
  { n with ctxs := Kv.set 1 { ctx1 with descs := ds } n.ctxs, boot := { n.boot with seed := some (zeros 32) } }

/-- A Proof-core row whose turn it is, its slot taken and its checks passed, reaches its memory; f holds after. -/
def proves (s : State) (p : Packet) (op k engine : Nat) (chk : State → Cmd → Check) (io : State → Cmd → List MgmtIO) (f : State → Cmd → Bool) : Bool :=
  ready s p op fun c _ => c.slot.isNone && okAnd (s.takeSlot c k) fun s1 => passes (chk s1 c) && match s1.mgmtTouch c engine (io s1 c) with
    | .ok s2 => f s2 c
    | .error _ => false

/-- The same of a row presented again, its command holding the flash. -/
def provesAgain (s : State) (p : Packet) (op engine : Nat) (chk : State → Cmd → Check) (io : State → Cmd → List MgmtIO) (f : State → Cmd → Bool) : Bool :=
  again s p op fun c _ => passes (chk s c) && match s.mgmtTouch c engine (io s c) with
    | .ok s2 => f s2 c && decide (s2.boot.flashOp = some { cmd := some (c.queue, c.seq) })
    | .error _ => false

/-- With a command running, its slot taken, that writes the flash. -/
def running' (p : Packet) (s : State) : State :=
  { s with cmds := [{ cmd p .running with slot := some clsMaintenance }], boot := { s.boot with flashOp := some { cmd := some (1, 5) } } }

/-- A firmware image's descriptor, of 64 KiB. -/
def imageHead : List Byte := [(4, 4, 65536), (26, 1, 0xA1)].foldl poke (ascii "KVIM" ++ zeros 60)

/-- FW_STAGE of it at 0x10000, and the part with it. -/
def stagePacket : Packet := pk 0x0C03 80 [(64, 4, 1), (68, 4, 2)]
def staging' : State := (proving [(1, rec' 0x10000 0x20 [65536]), (2, rec' 0x30000 0x20 [7856])]).vput 1 0x10000 imageHead

/-- What FW_STAGE reads begins with that descriptor. -/
def stagesImage (s2 : State) (c : Cmd) : Bool :=
  okAnd (s2.needDesc (c.view s2).ctx 1 64 false) (fun d => decide (c.view s2 = ({ ctx := 1, bound := [] } : View)) && decide (d.base = 0x10000 ∧ d.extent = 65536)) &&
    okAnd (s2.needDesc (c.view s2).ctx 2 68 false) (fun _ => true) && decide (s2.vread 1 [] 0x10000 64 = imageHead) && (s2.forceKey 3).isNone && (s2.storeKey 2).isNone

theorem fieldAt_begins (a b : List Byte) (o n : Nat) (h : o + n ≤ a.length) : fieldAt (a ++ b) o n = fieldAt a o n := by
  simp only [fieldAt]
  rw [List.drop_append_of_le_length (by omega), List.take_append_of_le_length (by simp; omega)]

/-- An image that begins so passes every check but its signature's, which is open. -/
theorem image_passes (s : State) (rest : List Byte) (hr : rest.length = 65472) (hk : s.forceKey 3 = none) : s.checkImage (imageHead ++ rest) = .ok () := by
  have h1 : (imageHead ++ rest).take 4 = ascii "KVIM" := rfl
  have h2 : fieldAt (imageHead ++ rest) 4 4 = 65536 := (fieldAt_begins _ _ _ _ (by decide +kernel)).trans (by decide +kernel)
  have h3 : fieldAt (imageHead ++ rest) 12 4 = 0 := (fieldAt_begins _ _ _ _ (by decide +kernel)).trans (by decide +kernel)
  have h4 : fieldAt (imageHead ++ rest) 24 1 = 0 := (fieldAt_begins _ _ _ _ (by decide +kernel)).trans (by decide +kernel)
  have h5 : fieldAt (imageHead ++ rest) 25 1 = 0 := (fieldAt_begins _ _ _ _ (by decide +kernel)).trans (by decide +kernel)
  have h6 : fieldAt (imageHead ++ rest) 26 1 = 0xA1 := (fieldAt_begins _ _ _ _ (by decide +kernel)).trans (by decide +kernel)
  have h7 : zerosIn (imageHead ++ rest) 27 64 = true := rfl
  have h8 : (imageHead ++ rest).length = 65536 := by
    rw [List.length_append, hr, show imageHead.length = 64 by decide +kernel]
  simp [State.checkImage, h1, h2, h3, h4, h5, h6, h7, h8, hk, ensure, leNat, bitOf]
  rfl

theorem vread_begins (s : State) (n : Nat) (b : List Bound) (va k j : Nat) :
    s.vread n b va (k + j) = s.vread n b va k ++ s.vread n b (va + k) j := by
  simp [State.vread, List.range_add, Nat.add_assoc, Function.comp_def]

/-- So does the image that FW_STAGE reads. -/
theorem stages_image (s2 : State) (c : Cmd) (h : stagesImage s2 c = true) : ∃ d, s2.needDesc (c.view s2).ctx 1 64 false = .ok d ∧
    s2.checkImage (s2.descBytes (c.view s2) d) = .ok () := by
  simp only [stagesImage, Bool.and_eq_true, decide_eq_true_eq, okAnd, Option.isNone_iff_eq_none] at h
  obtain ⟨⟨⟨⟨h1, -⟩, h3⟩, h4⟩, -⟩ := h
  split at h1
  · rename_i d hd
    simp only [Bool.and_eq_true, decide_eq_true_eq] at h1
    refine ⟨d, hd, ?_⟩
    rw [State.descBytes, h1.1, h1.2.1, h1.2.2, show (65536 : Nat) = 64 + 65472 from rfl, vread_begins, h3]
    exact image_passes s2 _ (by simp [State.vread]) h4
  · cases h1

/-- A staged header in slot 0, all of it erased but for its MAGIC and CRC. -/
def headerFlash : List (Nat × Byte) := flashPut (flashPut [] (slotHeader 0) (ascii "KVFS")) (slotHeader 0 + 7920) (leBytes 4 57582701)

/-- A fold that evaluates its accumulator at every element. -/
def foldForced (f : Nat → Byte → Nat) : Nat → List Byte → Nat
  | a, [] => a
  | a, b :: l => match f a b with
    | 0 => foldForced f 0 l
    | n + 1 => foldForced f (n + 1) l

theorem foldForced_eq (f : Nat → Byte → Nat) (l : List Byte) (a : Nat) : foldForced f a l = l.foldl f a := by
  induction l generalizing a with
  | nil => rfl
  | cons b l ih =>
    rw [List.foldl_cons, ← ih, foldForced]
    split <;> rename_i h <;> rw [h]

theorem crc32c_forced (bs : List Byte) : crc32c bs = Nat.xor (foldForced (crcByte 0x82F63B78) 0xFFFFFFFF bs) 0xFFFFFFFF := by
  rw [foldForced_eq]
  rfl

theorem met_ProofCommandsComplete : allOf [
    (let p := pk 0x0C01 80 [(64, 4, 1), (68, 4, 2), (72, 4, 64)]; let s := with' p (proving [(1, rec' 0x10000 0x20 [35696]), (2, rec' 0x20000 0x20 [64])])
     proves s p 0x0C01 clsSign 10 (fun s c => s.checkAttest (c.view s).ctx p) (fun s c => [s.ioOf c 68 false, s.ioOf c 64 true]) fun s2 _ => s2.deviceSecret.isSome),
    (let p := pk 0x0C01 144 [(6, 2, 16), (64, 4, 1), (68, 4, inlineHandle), (72, 4, 16)]; let s := with' p (proving [(1, rec' 0x10000 0x20 [35696])])
     proves s p 0x0C01 clsSign 10 (fun s c => s.checkAttest (c.view s).ctx p) (fun s c => [s.ioOf c 68 false, s.ioOf c 64 true]) fun s2 _ => s2.deviceSecret.isSome),
    (let p := pk 0x0C02 80 [(64, 4, 3), (68, 4, 1), (72, 4, 2)]
     let s := with' p ((proving [(1, rec' 0x10000 0x20 [64]), (2, rec' 0x20000 0x20 [18336])]).vput 1 0x10000 (ascii "KVKX"))
     decide (s.kxClass p = clsSign) && proves s p 0x0C02 clsSign 10 (fun s c => s.checkSessionKey (c.view s).ctx c true)
       (fun s c => [s.ioOf c 68 false, s.ioOf c 72 true]) fun s2 c => s2.deviceSecret.isSome && decide (fieldAt (s2.mgmtBytes c 68 18400) 4 1 = 0) &&
         someAnd s2.deviceSecret fun k => okAnd (s2.exchange c k) (·.2.isSome)),
    (let p := pk 0x0C02 80 [(64, 4, 3), (68, 4, 1), (72, 4, 2)]
     let s := with' p ((proving [(1, rec' 0x10000 0x20 [18400]), (2, rec' 0x20000 0x20 [18240])]).vput 1 0x10000 (ascii "KVKX" ++ [1]))
     decide (s.kxClass p = clsSign) && proves s p 0x0C02 clsSign 10 (fun s c => s.checkSessionKey (c.view s).ctx c true)
       (fun s c => [s.ioOf c 68 false, s.ioOf c 72 true]) fun s2 c => someAnd s2.deviceSecret fun k => !okAnd (s2.exchange c k) fun _ => true),
    proves (with' stagePacket staging') stagePacket 0x0C03 clsVerify 10 (fun s c => s.checkFwStage (c.view s).ctx stagePacket)
      (fun s c => [s.ioOf c 64 false, s.ioOf c 68 false]) (fun s2 c => stagesImage s2 c && s2.boot.flashOp.isNone),
    provesAgain (running' stagePacket staging') stagePacket 0x0C03 10 (fun s c => s.checkFwStage (c.view s).ctx stagePacket)
      (fun s c => [s.ioOf c 64 false, s.ioOf c 68 false]) stagesImage,
    (let p := pk 0x0C05 80 [(64, 2, 2), (66, 2, 4), (68, 4, 1)]; let s := with' p (proving [(1, rec' 0x10000 0x20 [64])])
     proves s p 0x0C05 clsMaintenance 10 (fun s c => s.checkConfigRead (c.view s).ctx p) (fun s c => [s.ioOf c 68 true]) fun _ _ => true),
    (let p := pk 0x0C06 80 [(64, 2, 4), (66, 2, 2), (68, 4, 1)]; let s := with' p (proving [(1, rec' 0x10000 0x20 [64])])
     proves s p 0x0C06 clsMaintenance 10 (fun s c => s.checkConfigWrite c true) (fun s c => [s.ioOf c 68 false]) fun s2 _ => s2.boot.seed.isSome && s2.boot.flashOp.isNone),
    (let p := pk 0x0C06 80 [(64, 2, 4), (66, 2, 2), (68, 4, 1)]; let s := running' p (proving [(1, rec' 0x10000 0x20 [64])])
     provesAgain s p 0x0C06 10 (fun s c => s.checkConfigWrite c true) (fun s c => [s.ioOf c 68 false]) fun s2 _ => s2.boot.seed.isSome)] = true := by
  decide +kernel

theorem header_valid : slotHeaderOk ((List.range 7924).map fun i => (Kv.get (slotHeader 0 + i) headerFlash).getD 0xFF) = true := by
  simp only [slotHeaderOk, crc32c_forced]
  decide +kernel

/-- The flash has that header, the part runs from no slot, and the row names slot 0. -/
def headed (s : State) (p : Packet) : Bool :=
  decide (s.boot.flash = headerFlash) && s.boot.slot.isNone && (s.storeKey 2).isNone && decide (p.at 64 1 = 0) && passes (zeroBytes p 65 79)

theorem headed_passes (s : State) (p : Packet) (h : headed s p = true) : s.checkFwActivate p = .ok () := by
  simp only [headed, Bool.and_eq_true, decide_eq_true_eq, Option.isNone_iff_eq_none, passes_iff] at h
  obtain ⟨⟨⟨⟨h1, h2⟩, h3⟩, h4⟩, h5⟩ := h
  have hs : s.staged 0 = true := by
    simp only [State.staged, State.flashRead, h1, h2, header_valid]
    decide +kernel
  simp [State.checkFwActivate, h4, hs, h3, h5, ensure, State.storeNat, leNat]
  rfl

theorem met_ProofCommandsComplete_activate : allOf [
    (let p := pk 0x0C04 80 []; let n := proving []; let s := with' p { n with boot := { n.boot with flash := headerFlash } }
     ready s p 0x0C04 fun c _ => c.slot.isNone && okAnd (s.takeSlot c clsMaintenance) fun s1 => headed s1 p && s1.boot.flashOp.isNone),
    (let p := pk 0x0C04 80 []; let n := proving []; let s := running' p { n with boot := { n.boot with flash := headerFlash } }
     again s p 0x0C04 fun c _ => headed s p && decide (s.boot.flashOp = some { cmd := some (c.queue, c.seq) }))] = true := by
  decide +kernel

/-- A route map of node 1 alone. -/
def mapSelf : List Byte :=
  ([(4, 2, 1), (8, 2, 1), (192, 2, 1)] ++ (List.range 8).map fun p => (68 + 16 * p, 2, 0xFFFF)).foldl poke (ascii "KVRM" ++ zeros 220)

/-- ROUTEMAP_LOAD of a map at 0x10000 and an empty slot schedule's one wrong or right entry at 0x11000. -/
def mapPacket : Packet := pk 0x0D02 80 [(68, 4, 1), (72, 4, 2)]
def mapping (m sch : List Byte) : State :=
  let n := netted []
  with' mapPacket (({ n with
    ctxs := Kv.set 1 { ctx1 with descs := [(1, rec' 0x10000 0x20 [224]), (2, rec' 0x11000 0x20 [8])] } n.ctxs
    fabric := { n.fabric with active := none, banks := [] } }.vput 1 0x10000 m).vput 1 0x11000 sch)

/-- Its map and schedule as read, f holding of them. -/
def maps (s : State) (f : State → List Byte → List Byte → Bool) : Bool :=
  ready s mapPacket 0x0D02 fun c _ => passes (s.checkRoutemapLoad (c.view s).ctx mapPacket) && match s.mgmtTouch c 7 [s.ioOf c 68 false, s.ioOf c 72 false] with
    | .ok s2 => someAnd (s2.desc (c.view s2).ctx 1) fun a => someAnd (s2.desc (c.view s2).ctx 2) fun b => f s2 (s2.descBytes (c.view s2) a) (s2.descBytes (c.view s2) b)
    | .error _ => false

theorem met_ManagementCommandsComplete : allOf [
    (let p := pk 0x0C07 80 [(64, 4, 1), (70, 2, 2)]; let s := with' p (proving [(1, rec' 0x10000 0x20 [64])])
     proves s p 0x0C07 clsMaintenance 10 (fun s c => s.checkLogRead (c.view s).ctx p) (fun s c => [s.ioOf c 64 true]) fun _ _ => true),
    (let p := pk 0x0C08 80 [(64, 4, 1)]; let s := with' p (proving [(1, rec' 0x10000 0x20 [96])])
     (ready s p 0x0C08 fun _ x => x.admin) &&
       proves s p 0x0C08 clsMaintenance 10 (fun s c => s.checkTelemetry (c.view s).ctx ctx1 p) (fun s c => [s.ioOf c 64 true]) fun _ _ => true),
    (let p := pk 0x0C09 80 [(64, 1, 2)]; let s := with' p base
     ready s p 0x0C09 fun c _ => okAnd (s.takeSlot c clsMaintenance) fun _ => passes (State.checkProfileSet p)),
    (let p := pk 0x0D01 96 [(64, 2, 2000), (72, 6, 2)]; let s := with' p base
     ready s p 0x0D01 fun _ _ => passes (s.checkStrokeSet p)),
    (let p := pk 0x0D04 80 []; let s := with' p base
     ready s p 0x0D04 fun _ _ => passes (zeroBytes p 64 79)),
    maps (mapping [] []) (fun s m _ => decide (s.checkMap m m.length = some 0)),
    maps (mapping mapSelf (leBytes 4 0 ++ leBytes 2 10 ++ [0, 1])) (fun s m sch => decide (s.checkMap m m.length = none) && decide (checkSchedule sch s.strk.period = none)),
    (let p := pk 0x0D03 80 [(72, 6, 2)]; let s := with' p (netted [])
     ready s p 0x0D03 fun _ _ => passes (s.checkRoutemapSwitch p))] = true := by
  decide +kernel
/-! ### Easel, the mailbox, the side channels -/

/-- A point-cloud stream of one point a frame, two slots of one frame each, and its signal on the counter word at 0x60000. -/
def stream1 : EStream :=
  { owner := 1, codec := 6, width := 1, height := 1, rate := 100, output := 1, metaH := 2, signal := 2 ^ 48 + 0x60000 + 3, batch := 1, slots := 2, group := none
    mode := 2, units := [], next := 0, released := 0, started := none, frames := [], complete := [], feeds := [], good := 0, closing := none, closed := false
    refused := 0 }

/-- A feed of SEQ 5. -/
def feed1 (since : Option Nat) : EFeed := { queue := 1, seq := 5, first := none, dropped := 0, since := since }

/-- STREAM_FEED of 32 bytes from descriptor 3. -/
def feedPacket : Packet := pk 0x0B02 80 [(68, 4, 3), (72, 4, 32)]

/-- The part with these streams, OUTPUT, META and a feed's buffer, and the counter word 0 of 0 to 4 at 0x60000. -/
def streaming (xs : List (Nat × EStream)) : State :=
  let n : State := { base with mem := { base.mem with cells := [(0x200004, 4), (0x200007, 0x80)] } }
  { n with
    streams := xs
    ctxs := Kv.set 1 { ctx1 with descs := [(1, rec' 0x10000 2 [2, 1, 4]), (2, rec' 0x11000 0x20 [2, 32]), (3, rec' 0x12000 0x20 [64])] } n.ctxs }

/-- A feed of one record of n bytes that is decoded, f holding of the record's picture. -/
def decodes (n : Nat) (f : Bool) : Bool :=
  let x := { stream1 with feeds := [feed1 none], started := some 0 }
  let s := { (streaming [(0, x)]).vput 1 0x12000 (leBytes 4 n) with cmds := [cmd feedPacket .running] }
  someAnd (s.headFeed x) fun y => someAnd (s.desc (y.2.view s).ctx (y.2.pkt.par 4 4)) fun d =>
    okAnd (s.touchUnit (y.2.view s) (UnitIO.mk [(68, [(d.base, y.2.pkt.par 8 4)])] [])) fun s1 =>
      someAnd ((feedRecords ((s1.feedBytes y.2).length / 16 + 1) (s1.feedBytes y.2)).1[0]?) fun r => !x.batchDone 0 &&
        (someAnd (s1.desc 1 1) fun out => someAnd (s1.desc 1 2) fun md =>
          okAnd (s1.touchUnit (y.2.view s) (UnitIO.mk [] [(64, (x.frameIO out md 0).1), (64, (x.frameIO out md 0).2)])) fun _ => true) &&
        (x.picture [] 0 r.payload).isSome == f

/-- A stream of a group, its mate with batch 0 complete since stroke 0, and the stroke 10,000. -/
def grouped : State :=
  let x := { stream1 with group := some 3, batch := 2, slots := 1, frames := [{ frame := 0, capture := 0, status := 0, points := 0 }] }
  { streaming [(0, x), (1, { x with complete := [(0, 0)] })] with strk := { base.strk with now := 10000, period := 100 } }

theorem met_EaselCommandsAndEventsComplete : allOf [
    (let p := pk 0x0B01 96 [(65, 1, 6), (66, 2, 1), (68, 2, 1), (70, 2, 100), (72, 4, 1), (76, 4, 2), (80, 8, 2 ^ 48 + 0x60000 + 3), (88, 1, 1), (89, 1, 2), (90, 1, 0xFF), (91, 1, 2)]
     ready (with' p (streaming [])) p 0x0B01 fun c _ => passes ((with' p (streaming [])).checkStreamOpen (c.view (with' p (streaming []))).ctx p)),
    (let s := with' feedPacket (streaming [(0, { stream1 with feeds := [feed1 none] })])
     ready s feedPacket 0x0B02 fun c _ => someAnd (Kv.get 0 s.streams) fun y => decide (y.owner = 1) && y.feeds.any fun f => decide (f.queue = c.queue ∧ f.seq = c.seq)),
    ([{ stream1 with feeds := [feed1 none] }, stream1, { stream1 with complete := [(0, 0)] }].all fun y =>
      let p := pk 0x0B03 80 []; let s := with' p (streaming [(0, { y with closing := some (1, 5) })])
      ready s p 0x0B03 fun c _ => c.fault.isNone && c.hostWait.isNone && someAnd (Kv.get 0 s.streams) fun y => decide (y.owner = 1 ∧ y.closing = some (1, 5))),
    decodes 16 true, decodes 8 false,
    (let x := { stream1 with feeds := [feed1 none], next := 1 }
     let s := { (streaming [(0, { x with feeds := [{ feed1 none with first := some 0 }] })]).vput 1 0x12000 (leBytes 4 16) with cmds := [cmd feedPacket .running] }
     someAnd (Kv.get 0 s.streams) fun x => someAnd (s.headFeed x) fun y =>
       okAnd (s.touchUnit (y.2.view s) (UnitIO.mk [(68, [(0x12000, 32)])] [])) fun s1 =>
         decide ((feedRecords ((s1.feedBytes y.2).length / 16 + 1) (s1.feedBytes y.2)).1[1]? = none)),
    (let s := streaming [(0, { stream1 with feeds := [feed1 (some 0)] })]
     someAnd (Kv.get 0 s.streams) fun x => someAnd x.feeds.head? fun f => f.since.isSome && s.hasRoom x 0),
    (let s := streaming [(0, { stream1 with feeds := [feed1 (some 0)], signal := 3 })]
     someAnd (Kv.get 0 s.streams) fun x => someAnd x.feeds.head? fun f => f.since.isSome && !s.hasRoom x 0),
    ([0, 50000].all fun now =>
      let s : State := { streaming [(0, { stream1 with feeds := [feed1 (some 0)] })] with cmds := [cmd feedPacket .running], strk := { base.strk with now := now } }
      someAnd (Kv.get 0 s.streams) fun x => someAnd (s.headFeed x) fun y => decide (y.1.since = some 0) && someAnd (Kv.get 1 s.queues) fun q =>
        decide (now = 0 ∧ s.strk.now < q.waitLimit ∨ now = 50000 ∧ q.waitLimit ≤ s.strk.now)),
    someAnd (Kv.get 0 grouped.streams) fun x => !x.closed &&
      decide (((List.range (x.complete.length + 1)).map (x.released + ·)).find? (fun b => !x.batchDone b) = some 0) &&
      ((grouped.streamMates 0 x).any fun e => e.2.complete.any fun d => decide (d.1 = 0 ∧ d.2 + ceilDiv 1000000 grouped.strk.period ≤ grouped.strk.now)) &&
      (x.frames.any fun e => decide (e.frame / x.batch = 0)) && someAnd (grouped.desc 1 1) fun out => someAnd (grouped.desc 1 2) fun md =>
        match grouped.touchAll { ctx := 1, bound := [] } (((List.range x.batch).map fun i => x.frameIO out md i).flatMap fun p => p.1 ++ p.2) accW false with
        | .ok _ => true
        | .error _ => false] = true := by
  decide +kernel

/-- A mailbox request: OP, LENGTH and body. -/
def request (op : Nat) (body : List Byte) : MboxRequest :=
  { sideband := false, bytes := leBytes 2 op ++ leBytes 2 body.length ++ zeros 12 ++ body }

/-- The part with it in service, and the flash idle or being written for the mailbox. -/
def serving (r : MboxRequest) (flash : Bool) : State :=
  { base with
    mbox := { base.mbox with busy := some r }
    boot := { base.boot with seed := some (zeros 32), flashOk := true, flashOp := if flash then some { cmd := none } else none
                             recv := some { length := 65536, received := [] } } }

/-- It is served, with this operation and length. -/
def served (r : MboxRequest) (op len : Nat) (f : State → Bool) : Bool :=
  [false, true].all fun b => decide ((serving r b).mbox.busy = some r) && (serving r b).mboxServed && decide (fieldAt r.bytes 2 2 = len ∧ fieldAt r.bytes 0 2 = op) &&
    f (serving r b)

/-- A service frame that SB_SEND may name: HELLO's type is not among them; a RESET of another part. -/
def sbRequest : List Byte := [1] ++ zeros 7 ++ zeros 12 ++ [0x88, 0xB5, 0x10, 5, 0, 0] ++ leBytes 2 16 ++ zeros 26 ++ zeros 16

theorem met_MailboxOperationsComplete : allOf [
    served (request 1 []) 1 0 fun _ => true,
    (let r := request 2 sbRequest; served r 2 sbRequest.length fun s => decide (54 ≤ sbRequest.length) && passes (s.checkSbSend r) && decide (fieldAt ((MboxBody r).drop 8) 15 1 ≠ 6)),
    served (request 3 [5]) 3 1 fun _ => true,
    served (request 4 (leBytes 2 2 ++ leBytes 2 4)) 4 4 fun s => keyDefined 2 && s.readLengthOk 2 4,
    served (request 5 (leBytes 2 4 ++ leBytes 2 2 ++ zeros 2)) 5 6 fun s => passes (s.checkKey 4 2 (zeros 2) 16 18 20) && s.boot.seed.isSome,
    served (request 6 [2]) 6 1 fun _ => true,
    served (request 0x10 (leBytes 4 65536 ++ leBytes 4 7856)) 0x10 8 fun s => s.boot.flashOk,
    served (request 0x11 (zeros 16)) 0x11 16 fun s => s.boot.flashOk && someAnd s.boot.recv fun rt => decide (8 ≤ rt.length + 7856),
    served (request 0x12 []) 0x12 0 fun s => s.boot.flashOk && (s.storeKey 2).isNone && (s.forceKey 3).isNone] = true := by
  decide +kernel

/-- RECOVERY_COMMIT's image and signature are whole, and the image passes every check but its signature's, which is open. -/
theorem met_MailboxOperationsComplete_commit : ∃ (s : State) (rt : Recovery), s.mbox.busy = some (request 0x12 []) ∧ s.mboxServed = true ∧ s.boot.recv = some rt ∧
    rt.received.length = rt.length + 7856 ∧ s.checkImage ((rt.received.take rt.length).map (·.2)) = .ok () ∧ s.boot.flashOk = true := by
  let bs : List Byte := [(4, 4, 64), (26, 1, 0xA1)].foldl poke (ascii "KVIM" ++ zeros 60)
  let rt : Recovery := { length := 64, received := ((List.range 64).zip bs) ++ (List.range 7856).map fun i => (64 + i, 0) }
  let s := serving (request 0x12 []) false
  have hl : ((List.range 64).zip bs).length = 64 := by decide +kernel
  refine ⟨{ s with boot := { s.boot with recv := some rt } }, rt, by decide +kernel, by decide +kernel, rfl, ?_, ?_, rfl⟩
  · show (((List.range 64).zip bs) ++ (List.range 7856).map fun i => (64 + i, (0 : Byte))).length = 64 + 7856
    rw [List.length_append, hl, List.length_map, List.length_range]
  · have hp : ∀ c : Check, passes c = true → c = .ok () := fun c h => (passes_iff c).1 h
    have ht : rt.received.take 64 = (List.range 64).zip bs := by
      rw [show rt.received = ((List.range 64).zip bs) ++ (List.range 7856).map fun i => (64 + i, (0 : Byte)) from rfl]
      exact List.take_left' hl
    rw [show rt.length = 64 from rfl, ht]
    exact hp _ (by decide +kernel)

/-- A sideband message. -/
def mctp (t : Nat) (body : List Byte) : MctpMessage := { destEid := 0, srcEid := 1, tag := 0, mtype := t, body := body }

theorem met_SideCommandsComplete : allOf [
    !base.boot.factory && base.mboxServed && decide (base.spare.state ≠ .standby) && !base.eidMatches 9,
    base.eidMatches 0 && decide (2 ≤ (mctp 0x7E (zeros 2)).body.length) && (serving (request 1 []) false).mbox.busy.isSome && (serving (request 1 []) false).eidMatches 0,
    decide (base.mbox.busy = none ∧ fieldAt (mctp 0 [0x80, 2]).body 1 1 = 2),
    (let p := pk 0x0C06 80 []; let s := running' p base
     someAnd s.boot.flashOp fun op => someAnd op.cmd fun w => (s.findCmd w.1 w.2).isSome),
    (let p := pk 0x0C03 80 []; let s := running' p base
     someAnd s.boot.flashOp fun op => someAnd op.cmd fun w => (s.findCmd w.1 w.2).isSome),
    decide (base.boot.flashOp = none)] = true := by
  decide +kernel
/-! ### The host's registers and link, the queues, admission -/

/-- Context 0's tables in tile 0's pool: one page of 1 GiB at address 0. -/
def admTables : State :=
  let r := tileHbm - reservedSize
  { base with
    mem := (base.mem.writeBytes r (leBytes 8 (r + 4096 + 1))).writeBytes (r + 4096) (leBytes 8 0x0F)
    host := { base.host with ctx0Root := r, sqLog2 := 6, cqBase := 0x100000, cqLog2 := 6 } }

/-- A queue 1 with these pointers. -/
def pointed (f : Queue → Queue) : State := { base with queues := Kv.upd 1 f base.queues }

theorem met_DoorbellRowsComplete : allOf [
    someAnd (Kv.get 1 base.queues) fun x => decide ((64 + 2 ^ 32 - x.sqHead) % 2 ^ 32 ≤ x.sqSlots ∧ (64 + 2 ^ 32 - x.sqTail) % 2 ^ 32 < 2 ^ 31 ∧
      x.sqSlots < (65 + 2 ^ 32 - x.sqHead) % 2 ^ 32 ∧ x.held = [] ∧ x.drain = none),
    someAnd (Kv.get 1 (pointed fun q => { q with sqHead := 5, sqTail := 5 }).queues) fun x => decide (2 ^ 31 ≤ (4 + 2 ^ 32 - x.sqTail) % 2 ^ 32),
    someAnd (Kv.get 0 { base with host := { base.host with admqState := 1 } }.queues) fun x =>
      !({ base with host := { base.host with admqState := 1 } } : State).ring0Misplaced x && decide ((0 + 2 ^ 32 - x.sqHead) % 2 ^ 32 ≤ x.sqSlots),
    decide (base.host.admqState ≠ 1),
    someAnd (Kv.get 1 (pointed fun q => { q with cqWritten := 3 }).queues) fun x =>
      decide ((3 + 2 ^ 32 - x.cqHead) % 2 ^ 32 ≤ (x.cqWritten + 2 ^ 32 - x.cqHead) % 2 ^ 32 ∧ (x.cqWritten + 2 ^ 32 - x.cqHead) % 2 ^ 32 < (4 + 2 ^ 32 - x.cqHead) % 2 ^ 32),
    (Kv.get 1023 base.queues).isNone,
    base.ready && decide (base.host.admqState ≠ 1) && base.admqFault.isSome,
    admTables.ready && decide (admTables.host.admqState ≠ 1) && decide (admTables.admqFault = none),
    (let s : State := { base with host := { base.host with admqState := 1 } }
     decide (s.host.admqState = 1) && decide (s.cmds = []) && someAnd (Kv.get 0 s.queues) fun x => decide (x.held = [])),
    (let s : State := { base with host := { base.host with admqState := 1 }, cmds := [{ cmd (pk 0x0001 64 []) .admitted with queue := 0 }] }
     s.cmds.any fun c => decide (c.queue = 0) && c.wasAdmitted),
    (let s : State := { base with host := { base.host with admqState := 1 }, cmds := [{ cmd (pk 0x0001 64 []) .visible with queue := 0, budget := 0 }] }
     s.cmds.all fun c => decide (c.queue = 0) && !c.wasAdmitted)] = true := by
  decide +kernel

theorem met_HostRegisterRowsComplete : allOf [
    (let s : State := { base with mbox := { base.mbox with rxTail := 3 } }
     decide ((3 % 2 ^ 32 + 2 ^ 32 - s.mbox.rxHead) % 2 ^ 32 ≤ (s.mbox.rxTail + 2 ^ 32 - s.mbox.rxHead) % 2 ^ 32 ∧
       (s.mbox.rxTail + 2 ^ 32 - s.mbox.rxHead) % 2 ^ 32 < (4 % 2 ^ 32 + 2 ^ 32 - s.mbox.rxHead) % 2 ^ 32)),
    decide (base.window 0x400040 = none) && (base.reg 0x400040).isSome,
    tableAccessOk 0 64 && (tablePa 0).isSome && tableAccessOk (4 * reservedSize) 4 && (tablePa (4 * reservedSize)).isNone] = true := by
  decide +kernel

/-- A request of the host to a target. -/
def hostReq (t : HostTarget) (w : Bool) : HostRequest :=
  { trusted := true, target := t, write := w, cached := false, offset := 0, length := 4, data := zeros 4 }

/-- The part with one DDR channel of a GiB, whose first frame no context owns, in the coherent mode or not. -/
def windowed (coherent : Bool) : State :=
  { base with ddrGib := 1, ddrChannels := 1, host := { base.host with coherent := coherent } }

/-- The window's offset lies in device memory: in a DDR frame without an owner, or not. -/
def window (s : State) (off : Nat) (keyless : Bool) : Bool :=
  someAnd (s.windowPa off) fun pa => !s.mem.bad pa 4 && (decide (s.region pa = .ddr) && (s.ownerOf pa).isNone) == keyless

theorem met_HostRequestsAndLinkComplete : allOf [
    base.host.up && (hostReq .bar0 true).trusted && (hostReq .hdm false).trusted && !(windowed false).host.coherent,
    base.usesFeature .msix && !base.usesFeature .ats,
    [false, true].all fun k => let s := windowed false
      s.host.up && window s (if k then hbmSize else 0) k && decide ((hbmSize % 64 = 0) ∧ (hostReq .bar4 true).data.length = 4 ∧ (hostReq .bar4 false).length = 4),
    [false, true].all fun k => let s := windowed true
      s.host.up && s.host.coherent && !(hostReq .hdm true).cached && window s (if k then hbmSize else 0) k,
    (let s : State := { base with mem := { base.mem with snooped := [(0x100000, [(0x100000, 7)])], directory := [0x100000] } }
     (Kv.get (lineOf 0x100004) s.mem.snooped).isSome),
    !State.reset.host.up && !State.reset.host.heldDown && !State.reset.power.stopped && !State.reset.side.porst && !State.reset.boot.factory && !State.reset.host.settled,
    (let s : State := { base with host := { base.host with up := false } }
     !s.host.up && !s.host.heldDown && s.host.settled && decide (s.host.coherent ≠ false) && decide (s.host.coherent = true) && !s.power.stopped &&
       !s.side.porst && !s.boot.factory && !s.host.lost)] = true := by
  decide +kernel

/-- A full directory, and a request for another line. -/
theorem met_HostRequestsAndLinkComplete_full : ∃ (s : State) (r : HostRequest) (pa : Nat), s.host.up = true ∧ r.trusted = true ∧ r.target = .hdm ∧
    s.host.coherent = true ∧ r.cached = true ∧ s.windowPa r.offset = some pa ∧ s.mem.bad pa (if r.write then r.data.length else r.length) = false ∧
    s.mem.directoryFull (lineOf pa) = true := by
  refine ⟨{ base with mem := { base.mem with directory := (List.range 524288).map (64 * (· + 1)) } }, { hostReq .hdm true with cached := true }, 0,
    by decide +kernel, rfl, rfl, by decide +kernel, rfl, by decide +kernel, by decide +kernel, ?_⟩
  simp [Memory.directoryFull, lineOf]

/-- A record of SEQ 1 at the head of queue 1's ring. -/
def record64 : List Byte := poke (pk 0x0001 64 [(8, 8, 1)]).bytes (60, 4, recordCrc (pk 0x0001 64 [(8, 8, 1)]).bytes)

/-- Queue 1 with one posted slot, and memory as it is or with that record. -/
def filed (written : Bool) (f : Queue → Queue) : State :=
  let s := pointed fun q => f { q with sqTail := 1 }
  let s := { s with host := { s.host with coherent := false }, mem := cached [0x40000, 0x41000] }
  if written then s.vput 1 0x40000 record64 else s

/-- The same with no translation of the ring. -/
def unmapped (f : Queue → Queue) : State := { filed false f with mem := cached [0x41000] }

/-- It may be read, and its ring page cannot. -/
def stopsRead (s : State) : Bool := someAnd (Kv.get 1 s.queues) fun x => s.mayRead 1 x && (s.recordBroken x 64).isSome

/-- It may be read, its ring pages can, and a record is visible or not. -/
def reads (s : State) (seen : Bool) : Bool := someAnd (Kv.get 1 s.queues) fun x => s.mayRead 1 x && (s.recordBroken x 64).isNone &&
  (let len := leNat ((((s.claimPage x.owner (x.recordAddr 0)).recordBytes x 64).drop 4).take 2)
   let n := if len ≤ 512 ∧ ceilDiv len 64 ≤ x.posted then len else 64
   let u := (s.claimPage x.owner (x.recordAddr 0)).cacheRing x (max 1 (ceilDiv n 64))
   (u.recordBroken x n).isNone && (u.visibleRecord x).isSome == seen)

/-- A finished command, or one flushing. -/
def ending (flags : Nat) (ph : Phase) : State := { base with cmds := [cmd (pk 0x0001 64 [(2, 1, flags)]) ph] }

/-- A visible group of one command whose first pass and first boundary were in stroke 0, and the stroke. -/
def waiting (wait now : Nat) (slot : Option Nat) : State :=
  { base with
    cmds := [{ cmd (pk 0x0001 64 [(2, 1, 1), (24, 8, wait)]) .visible with firstBoundary := some 0 }], strk := { base.strk with now := now }
    ctxs := Kv.upd 1 (fun c => { c with slot := slot }) base.ctxs
    mem := { base.mem with cells := [(0x200004, 4), (0x200007, 0x80)] } }

/-- Its queue has a group whose wait has run out, and one whose residence has, or not. -/
def expired (s : State) (wait residence : Bool) : Bool := someAnd (Kv.get 1 s.queues) fun x =>
  ((s.visibleGroups 1).find? (fun g => g.head?.any fun c => (c.firstPass.any fun f => decide (f + x.waitLimit ≤ s.strk.now)) &&
    decide (s.inkWaitHolds x.owner c.pkt.wait ≠ some true))).isSome == wait &&
  ((s.visibleGroups 1).find? (fun g => g.head?.any fun c => c.firstBoundary.any fun f => decide (f + x.waitLimit ≤ s.strk.now))).isSome == residence &&
  (Kv.get x.owner s.ctxs).isSome

theorem met_QueueRowsComplete : allOf [
    stopsRead (unmapped id), stopsRead (unmapped fun q => { q with rereads := 7 }), stopsRead (unmapped fun q => { q with state := .stalled, rereads := 8 }),
    reads (filed true id) true, reads (filed true fun q => { q with rereads := 7 }) true, reads (filed true fun q => { q with state := .stalled, rereads := 8 }) true,
    reads (filed false id) false, reads (filed false fun q => { q with rereads := 7 }) false, reads (filed false fun q => { q with state := .stalled, rereads := 8 }) false,
    [1, 5].all fun f => someAnd ((ending f (.finished (Ending.ok 0 0))).findCmd 1 5) fun c => !(ending f (.finished (Ending.ok 0 0))).behindPosts c && c.pkt.global == (f == 5),
    someAnd ((ending 5 (.flushing (Ending.ok 0 0))).findCmd 1 5) fun c => decide (c.phase = .flushing (Ending.ok 0 0)) &&
      decide (base.mem.snooped = [] ∧ base.host.heldWrites = []),
    (let s : State := { ending 5 (.flushing (Ending.ok 0 0)) with mem := { base.mem with snooped := [(0, [])] } }
     someAnd (s.findCmd 1 5) fun c => decide (c.phase = .flushing (Ending.ok 0 0)) && decide (s.mem.snooped ≠ [])),
    [true, false].all fun b => someAnd (Kv.get 1 (pointed fun q => { q with pinBroken := b }).queues) fun x => x.pinBroken == b,
    expired (waiting (2 ^ 48 + 0x60000 + 3) 50000 none) true true, expired (waiting (2 ^ 48 + 0x60000 + 3) 49999 none) false false,
    expired (waiting 0 50000 (some 1)) false true,
    someAnd ((waiting 0 50000 none).visibleGroups 1).head? fun g => decide ((g.map fun c => (c.queue, c.seq)).Nodup) &&
      g.all fun c => ((waiting 0 50000 none).findCmd c.queue c.seq).isSome,
    [999, 1000].all fun now =>
      let s : State := { base with strk := { base.strk with now := now }, ctxs := Kv.upd 1 (fun c => { c with slot := none, waitingSince := some 0 }) base.ctxs }
      someAnd (Kv.get 1 s.ctxs) fun c => decide (c.waitingSince = some 0 ∧ c.slot = none ∧ c.waitLogged = false)] = true := by
  decide +kernel

/-- A visible group of one QUEUE_QUERY, of queue t, and context 1's slot. -/
def visible (t : Nat) (slot : Option Nat) : State :=
  { base with cmds := [cmd (pk 0x0108 80 [(2, 1, 1), (64, 2, t)]) .visible], ctxs := Kv.upd 1 (fun c => { c with slot := slot }) base.ctxs }

/-- What the checks of a pass find. -/
def findings (s : State) (f : State → Queue → Ctx → List Cmd → List (Option Ending) → Bool) : Bool :=
  someAnd (Kv.get 1 s.queues) fun k => someAnd (Kv.get k.owner s.ctxs) fun x => decide (k.state ≠ .stopped ∧ k.held.length < 64) &&
    match s.visibleGroup 1 with
    | [] => false
    | c :: g => f (s.inkSample k.owner c.pkt.wait) k x (c :: g) (s.groupFailures x ((c :: g).map fun c => { c with bound := x.binding }))

theorem met_AdmissionServesGroupsWhole : allOf [
    !base.power.stopped,
    findings (visible 1 (some 1)) (fun t k x g fails => fails.all (·.isNone) && t.groupReady k.owner x g &&
      g.all fun c => !numbered c.pkt.opcode && decide (c.pkt.opcode ≠ 0x0A02)),
    findings (visible 9 (some 1)) (fun _ _ _ g fails => fails.any (·.isSome) && decide ((g.map fun c => (c.queue, c.seq)).Nodup)),
    findings (visible 1 none) (fun t k x g fails => fails.all (·.isNone) && !t.groupReady k.owner x g),
    someAnd (Kv.get 1 base.queues) fun k => decide (base.visibleGroup 1 = []) && decide (k.state ≠ .stopped)] = true := by
  decide +kernel
/-! ### Strokes and the fabric ports -/

/-- The part with its strokes as f makes them. -/
def timed (f : Strokes → Strokes) : State := { base with strk := f base.strk }

/-- A slot schedule of one entry that governs port 0. -/
def slotted : State :=
  let s := netted [(3, qp9)]
  { s with fabric := { s.fabric with banks := [(0, { map := map2, schedule := [(4, 2, 100), (7, 1, 1)].foldl poke (zeros 8) })] } }

theorem met_StrokeRowsComplete : allOf [
    decide (({ base with side := { base.side with porst := true } } : State).side.porst = true),
    decide (({ base with power := { base.power with stopped := true } } : State).side.porst = false),
    [true, false].all fun a =>
      let s : State := { base with power := { base.power with avsFailed := [0, 1, 2, 3] }, spare := { base.spare with arming := a } }
      decide (s.side.porst = false ∧ s.power.stopped = false) && (s.boundaryHead { offset := some 5 }).sleeps == a,
    (let s := timed fun k => { k with source := 1, port := 2, ptpSync := some (3, 40), ptpRequest := some (4, 60), ptpDiff := some 7 }
     [PtpBody.sync 3 none, .sync 3 (some 20), .followUp 3 20, .followUp 2 20, .delayAnswer 4 90, .delayAnswer 5 90].all fun y =>
       let m : PtpMessage := { source := 1, port := 2, arrival := 40, departure := 60, body := y }
       decide (s.strk.source ≠ 0 ∧ m.source = s.strk.source ∧ m.port = s.strk.port) && (match y with
         | .sync _ _ => true
         | .followUp n _ => decide (s.strk.ptpSync = some (n, 40)) || decide (s.strk.ptpSync.map (·.1) ≠ some n)
         | .delayAnswer n _ => decide (s.strk.ptpRequest = some (n, 60) ∧ s.strk.ptpDiff = some 7) || decide (s.strk.ptpRequest.map (·.1) ≠ some n))),
    (let s := timed fun k => { k with source := 1, port := 2 }
     decide (s.strk.source ≠ 0 ∧ ({ source := 1, port := 0, arrival := 0, departure := 0, body := .sync 0 none } : PtpMessage).port ≠ s.strk.port)),
    decide (base.strk.source = 0),
    [7, 8].all fun n => [Align.acquiring, Align.unaligned].all fun a => let s := timed fun k => { k with align := a, within := n }
      decide ((s.strk.align = .acquiring ∨ s.strk.align = .unaligned) ∧ (8 ≤ s.strk.within ↔ n = 8)),
    [2, 3].all fun n => let s := timed fun k => { k with align := .aligned, beyond := n }
      decide (s.strk.align = .aligned ∧ (3 ≤ s.strk.beyond ↔ n = 3)),
    someAnd slotted.schedule fun es => someAnd es[0]? fun e => bitOf e.2.2.2 0 && !bitOf e.2.2.2 1] = true := by
  decide +kernel

/-- A frame with its FCS. -/
def sealed (b : List Byte) : List Byte := b ++ leBytes 4 (crc32 b)

/-- The good FCS of a frame. -/
def goodFcs (f : List Byte) : Bool := decide (crc32 (f.take (f.length - 4)) = leNat (f.drop (f.length - 4)))

/-- The part on a fabric whose ports 0 and 1 have an IPv4 address. -/
def addressed : State :=
  let s := netted [(3, qp9)]
  { s with fabric := { s.fabric with ports := Kv.upd 0 (fun q => { q with ipv4 := 5, mac := 6 }) s.fabric.ports } }

/-- A broadcast ARP request for its address. -/
def arpRequest : List Byte :=
  beBytes 6 (2 ^ 48 - 1) ++ beBytes 6 9 ++ beBytes 2 0x0806 ++ beBytes 2 1 ++ beBytes 2 0x0800 ++ [6, 4] ++ beBytes 2 1 ++ beBytes 6 9 ++ beBytes 4 7 ++
    beBytes 6 0 ++ beBytes 4 5

/-- An IPv4 datagram to its Stylus service. -/
def stylusDatagram : List Byte :=
  beBytes 6 6 ++ beBytes 6 9 ++ beBytes 2 0x0800 ++ [0x45] ++ zeros 8 ++ [17] ++ zeros 6 ++ beBytes 4 5 ++ beBytes 2 1 ++ beBytes 2 46520

/-- A map of a DIRECT topology: node 1, node 2 behind the ports of a mask, ports 0 and 1 of the roles given. -/
def direct (mask r0 r1 : Nat) : List Byte := [(6, 1, 1), (64, 1, r0), (80, 1, r1), (66, 1, 1), (82, 1, 0), (226, 1, mask)].foldl poke map2

/-- The part with that map and ports 0 and 1 up. -/
def ringed (mask r0 r1 : Nat) : State :=
  let s := addressed
  { s with fabric := { s.fabric with
      banks := [(0, { map := direct mask r0 r1, schedule := [] })], announce := 2
      ports := Kv.upd 1 (fun q => { q with mode := 3, up := true, maxFrame := 9216 }) s.fabric.ports } }

/-- A packet to node 2 with so many hops, on its way back or not. -/
def transit (hops : Nat) (wrap : Bool) : List Byte := [(0, 1, 16), (1, 1, if wrap then 128 else 0), (2, 2, hops), (4, 2, 2)].foldl poke (zeros 40)

/-- It is in transit at port 0. -/
def transits (s : State) (hops : Nat) (wrap : Bool) (f : State → Bool) : Bool :=
  let pkt := transit hops wrap
  someAnd s.activeMap (fun m => decide (fieldAt m 6 1 = 1)) && decide (fieldAt pkt 4 2 ≠ s.selfNode ∧ s.portUp 0 = true ∧ 40 ≤ pkt.length ∧
    fieldAt pkt 2 2 % 4096 = hops ∧ bitOf (fieldAt pkt 1 1) 7 = wrap) && f s

/-- A spare between its two PASS ports. -/
def passing : State := { ringed 1 6 6 with spare := { base.spare with state := .standby } }

theorem met_FabricRowsComplete : allOf [
    [zeros 64, sealed arpRequest, sealed stylusDatagram].all (fun f => someAnd (addressed.port 0) fun q => decide (q.mode ≠ 0 ∧ q.up = true) &&
      (goodFcs f == decide (f ≠ zeros 64)) && (!goodFcs f || decide (f.length ≤ q.maxFrame ∧ (beNat (f.take 6) = q.mac ∨ beNat (f.take 6) = 2 ^ 48 - 1)))),
    someAnd (addressed.port 0) fun q => decide (beNat ((sealed (zeros 60)).take 6) ≠ q.mac ∧ beNat ((sealed (zeros 60)).take 6) ≠ 2 ^ 48 - 1 ∧
      beNat ((sealed (zeros 60)).take 6) / 2 ^ 32 ≠ 0x3333),
    someAnd (({ addressed with fabric := { addressed.fabric with ports := Kv.upd 0 (fun q => { q with maxFrame := 63 }) addressed.fabric.ports } } : State).port 0)
      fun q => decide (q.mode ≠ 0 ∧ q.up = true ∧ q.maxFrame < (sealed (zeros 60)).length),
    someAnd (addressed.port 0) fun q => someAnd (etherBody q arpRequest) fun e => decide (e.1 = 0x0806) && (arpReply q e.2).isSome,
    someAnd (addressed.port 0) fun q => someAnd (etherBody q stylusDatagram) fun e => decide (e.1 ≠ 0x0806 ∧ udpDport q e.1 e.2 = some addressed.fabric.udpPort),
    (let s : State := addressed.updPort 0 fun q => { q with up := false }
     someAnd (s.port 0) fun q => decide (q.mode ≠ 0 ∧ q.up = false ∧ s.power.stopped = false)),
    someAnd (addressed.port 0) (·.up),
    transits (ringed 2 0 0) 4095 false fun _ => true,
    transits (ringed 2 2 3) 4094 true fun s => someAnd (s.ringMate 0) s.portUp,
    transits (ringed 2 0 0) 0 false fun s => someAnd (s.nodeOf 2) fun e => decide ((s.upPorts e.mask).filter (· ≠ 0) = [1]),
    transits (ringed 128 0 0) 0 false fun s => someAnd (s.nodeOf 2) fun e => decide (s.upPorts e.mask = []),
    someAnd passing.activeMap fun m => decide ((mapPort m 0).1 = 6 ∧ (mapPort m 0).2.2.1 = 1 ∧ passing.portUp 0 = true ∧ passing.portUp 1 = true ∧
      passing.spare.state = .standby) && goodFcs (sealed (zeros 60)) && !goodFcs (zeros 64),
    decide (base.fabric.announce = 0 ∧ 0 < (ringed 1 0 0).fabric.announce)] = true := by
  decide +kernel
/-! ### The service bus -/

/-- The part of serial number 77 with its service-bus port 0 as f makes it. -/
def bused (f : SbPort → SbPort) : State :=
  { base with boot := { base.boot with serial := 77 }, bus := { base.bus with ports := Kv.upd 0 f base.bus.ports } }

/-- Its port 0 meets f. -/
def busPort (s : State) (f : SbPort → Bool) : Bool := someAnd (s.sb 0) f

/-- At most one of the parts asks for an automatic ID. -/
def fewAutos (parts : List (Nat × Nat)) : Bool := decide ((parts.filter fun e => decide (e.2 = 0xFF)).length ≤ 1)

/-- The IDs then given: no sorting is needed. -/
def fewIds (parts : List (Nat × Nat)) (reserved : Nat) : List (Nat × Nat) :=
  let fixed := parts.filter fun e => decide (e.2 ≠ 0xFF)
  fixed ++ ((parts.filter fun e => decide (e.2 = 0xFF)).zip
    ((List.range 16).filter fun i => !bitOf reserved i && !(fixed.any fun e => decide (e.2 = i)))).map fun e => (e.1.1, e.2)

theorem fewIds_eq (parts : List (Nat × Nat)) (reserved : Nat) (h : fewAutos parts = true) : assignIds parts reserved = fewIds parts reserved := by
  have h' := of_decide_eq_true h
  unfold assignIds fewIds
  rcases hl : parts.filter fun e => decide (e.2 = 0xFF) with _ | ⟨a, _ | ⟨b, l⟩⟩
  · simp [hl]
  · simp [hl]
  · simp [hl] at h'

/-- A port in discovery, without a clash. -/
def closing (wanted reserved count : Nat) (heard : List (Nat × Nat)) (f : List (Nat × Nat) → Bool) : Bool :=
  let s := bused fun q => { q with phase := .discovery, wanted := wanted, reserved := reserved, nodeCount := count, heard := heard }
  busPort s fun q => decide (s.boot.recovery = false ∧ q.phase = .discovery) &&
    decide (q.wanted = 0xFF ∨ ∀ e ∈ q.heard, ¬ (e.1 ≠ s.boot.serial ∧ e.2 = q.wanted)) && fewAutos (Kv.set s.boot.serial q.wanted q.heard) &&
      f (fewIds (Kv.set s.boot.serial q.wanted q.heard) q.reserved)

theorem met_ServiceBusSendingCompletes : allOf [
    [SbPhase.discovery, .csma].all fun k => busPort (bused fun q => { q with phase := k }) fun q => decide (q.mode = 1 ∧ q.phase ≠ .plca ∧ q.attempts = 0),
    busPort (bused fun q => { q with phase := .plca }) fun q => decide (q.phase = .plca ∧ q.mute = false),
    busPort (bused fun q => { q with phase := .wait, attempts := 1, queue := [zeros 60] }) fun q => decide (q.phase = .wait ∧ q.attempts ≠ 0),
    decide (base.bus.takeover.1 = 0 ∧ 0 < ({ base with bus := { base.bus with takeover := (2, zeros 16) } } : State).bus.takeover.1),
    (let s : State := { base with bus := { base.bus with flags := 1, cursor := 1 }, log := { base.log with nextSeq := 3 } }
     decide (bitOf s.bus.flags 0 = true ∧ (s.log.nextSeq + 2 ^ 32 - s.bus.cursor) % 2 ^ 32 = 2 ∧ s.bus.cursor < 2 ^ 32)),
    decide (bitOf base.bus.flags 0 = false),
    busPort (bused fun q => { q with phase := .csma }) fun q => decide (q.phase ≠ .discovery),
    (let s := bused fun q => { q with phase := .discovery, wanted := 3, heard := [(5, 3)] }
     busPort s fun q => decide (q.phase = .discovery ∧ q.wanted ≠ 0xFF ∧ ∃ e ∈ q.heard, e.1 ≠ s.boot.serial ∧ e.2 = q.wanted)),
    closing 3 2 0 [] fun ids => decide (bitOf 2 0 = false ∧ ∀ e ∈ ids, e.2 ≠ 0),
    closing 0xFF 0xFFFF 4 [(5, 4)] fun ids => decide (Kv.get 77 ids = none),
    closing 0 0 0 [] fun ids => decide ((∃ e ∈ ids, e.2 = 0) ∧ Kv.get 77 ids = some 0),
    closing 15 1 0 [] fun ids => decide (Kv.get 77 ids = some 15)] = true := by
  decide +kernel

/-- The header of a service frame of a type from serial number `me` to a target. -/
def serviceHead (ty me target flags : Nat) (body : List Byte) : List Byte :=
  [0x10] ++ leBytes 1 ty ++ leBytes 1 flags ++ [0] ++ leBytes 2 body.length ++ leBytes 2 2 ++ leBytes 8 me ++ leBytes 8 target ++ leBytes 4 1 ++ zeros 4

/-- The frame, padded and sealed. -/
def framed' (hd body tag : List Byte) : List Byte := sealed (padFrame (beBytes 6 (2 ^ 48 - 1) ++ beBytes 6 9 ++ [0x88, 0xB5] ++ hd ++ body ++ tag))

/-- A service frame from serial number 8 without a tag. -/
def service (ty target : Nat) (body : List Byte) : List Byte := framed' (serviceHead ty 8 target 0 body) body []

/-- A DEBUG_REQUEST with its tag under a key. -/
def debugFrame (key : List Byte) : List Byte :=
  let hd := serviceHead 6 8 77 128 (zeros 8)
  framed' hd (zeros 8) (frameTag key hd (zeros 8))

/-- The part hears it at port 0, with errors e, the part's identity serial number 77 and the key given. -/
def hears (deliver : Bool) (key : Option (List Byte)) (f : List Byte) (ok : Nat → RxService → Bool) : Bool :=
  let s := bused fun q => { q with phase := .csma, deliver := deliver }
  let s : State := { s with bus := { s.bus with key := key } }
  busPort s fun q => decide (q.phase ≠ .off ∧ isService f = true ∧ s.boot.recovery = false ∧ s.boot.factory = false ∧ q.deliver = deliver) &&
    ok (s.rxErrors f (rxService f)) (rxService f)

/-- A good frame of its type is for this part. -/
def heard (key : Option (List Byte)) (ty : Nat) (f : List Byte) : Bool :=
  hears false key f fun e x => decide (e = 0 ∧ x.type = ty ∧ (x.target = 0 ∨ x.target = 77) ∧
    ({ base with boot := { base.boot with serial := 77 } } : State).boot.serial = 77)

/-- A wake-pattern key whose entry 0 selects the first eight bytes, which are zeros. -/
def wakeZeros (flags : Nat) : List Byte := [(0, 2, 255), (16, 4, crc32 (zeros 8)), (20, 1, flags)].foldl poke (zeros 192)

/-- A part in some spare state and profile with that key for port 0. -/
def wakeful (flags : Nat) (sp : SpareState) (profile : Nat) : State :=
  { base with
    boot := { base.boot with inForce := [(0x12, wakeZeros flags)] }
    spare := { base.spare with state := sp }, power := { base.power with profile := profile, waking := false } }

/-- The patterns that a frame matches. -/
def hitsOf (s : State) (f : List Byte) : List Nat := (List.range 8).filter fun i => fcsOk f && wakeMatches (s.wakeKey 0) i f

theorem met_ServiceBusReceivingCompletes : allOf [
    [true, false].all fun d => hears d none (poke (zeros 64) (12, 2, 0xB588)) fun e _ => decide (e ≠ 0 ∧ e < 16),
    [true, false].all fun d => hears d none (service 6 0 (zeros 8)) fun e _ => decide (16 ≤ e),
    hears false none (framed' (serviceHead 2 77 78 0 (zeros 8)) (zeros 8) []) fun e x => decide (e = 0 ∧ x.target ≠ 0 ∧ x.target ≠ 77 ∧ x.serial = 77),
    heard none 1 (service 1 0 (zeros 16)), heard none 2 (service 2 77 (zeros 8)), heard none 3 (service 3 0 (zeros 16)),
    heard none 4 (service 4 0 (zeros 16)), heard none 5 (service 5 0 (zeros 16)), heard (some (zeros 31 ++ [1])) 6 (debugFrame (zeros 31 ++ [1])),
    (let s := wakeful 0 .active 0; decide (hitsOf s (sealed (zeros 60)) = [])),
    (let s := wakeful 1 .standby 0
     decide (s.spare.state = .standby ∧ s.spare.port = 0 ∧ s.spare.pattern ∈ hitsOf s (sealed (zeros 60)) ∧ s.power.tripped = false ∧ s.power.waking = false)),
    (let s := wakeful 3 .active 2
     decide (s.spare.state ≠ .standby ∧ s.power.profile = 2 ∧ ∃ i ∈ hitsOf s (sealed (zeros 60)), bitOf (fieldAt (s.wakeKey 0) (24 * i + 20) 1) 1 = true)),
    (let s := wakeful 1 .active 0; decide (s.spare.state ≠ .standby ∧ s.power.profile ≠ 2 ∧ hitsOf s (sealed (zeros 60)) ≠ []))] = true := by
  decide +kernel
/-! ### Power, sensors, clocks and resets -/

/-- The part with its power as f makes it. -/
def powered (f : Power → Power) : State := { base with power := f base.power }

/-- A sensor. -/
def sensor (bad good : Nat) (failed : Bool) : Sensor := { vals := [400], bad := bad, good := good, failed := failed, raw := 400 }

/-- The sensor that the part has under number 3. -/
def sensed (y : Sensor) (f : Sensor → Bool) : Bool := someAnd (Kv.get 3 (powered fun p => { p with sensors := [(3, y)] }).power.sensors) f

theorem met_PowerEventsComplete : allOf [
    sensed (sensor 3 0 false) fun x => decide (x.failed = false ∧ 3 ≤ x.bad ∧ x.good < 1000),
    sensed (sensor 0 1000 true) fun x => decide (x.failed = true ∧ 1000 ≤ x.good),
    sensed (sensor 2 999 true) fun x => decide (x.bad < 3 ∧ x.good < 1000),
    [9, 10].all fun n => let s := powered fun p => { p with tripRun := [(0, n)] }
      decide (s.power.tripped = false) && (decide (∃ e ∈ s.power.tripRun, 10 ≤ e.2) == decide (n = 10)) && (decide (∀ e ∈ s.power.tripRun, e.2 < 10) == decide (n = 9)),
    [true, false].all fun b => decide ((powered fun p => { p with board := b }).power.board = b),
    [1, 6, 7, 12].all fun r => [true, false].all fun t => let s := powered fun p => { p with tripped := t, waking := t }
      decide (0 < r ∧ r ≤ 12 ∧ s.side.porst = false ∧ s.power.tripped = t ∧ s.power.waking = t ∧ s.power.rail = .normal ∧
        (if r ≤ 6 then s.power.reqIo else s.power.reqCore) = true),
    decide ((powered fun p => { p with waking := true }).power.waking = true ∧ base.power.tripped = false),
    [RailPhase.down, .rising, .dead].all fun k => let s := powered fun p => { p with rail := k }; decide (s.power.tripped = false ∧ s.power.rail = k),
    [true, false].all fun b => let s := powered fun p => { p with fabLost := b, auxLost := b }; decide (s.power.fabLost = b ∧ s.power.auxLost = b),
    [0, 3].all base.avsRuns, !base.avsRuns 4, !(powered fun p => { p with avsFailed := [1] }).avsRuns 1] = true := by
  decide +kernel

theorem met_CoreVoltageMovesInSteps : allOf [[5500, 7000, 8000].all fun v =>
    let s := powered fun p => { p with avs := [7000, 7000, 7000, v] }; s.avsRuns 3 && decide (s.power.avs[3]? = some v)] = true := by
  decide +kernel

/-- A round of readings of these temperatures and this current of rail 7 at 0.7 V. -/
def round (temps : List (Nat × Int)) (current : Int) : SensorInput := { temps := temps, currents := [(7, current), (8, 600000), (9, 600000), (10, 600000)], levels := [(7, 700), (8, 2000), (9, 2000), (10, 2000)] }

theorem met_SampleIsTaken : allOf [
    decide ((powered fun p => { p with clamp := true }).power.clamp = true),
    decide (6 * base.limitMw < 5 * packagePower (round [] 600000)),
    sensed (sensor 0 0 false) fun y => decide (y.vals.head? = some 400),
    [(4, 2240, 2100), (5, 2000, 1900), (5, -320, -200)].all fun (t : Nat × Int × Int) => decide (-320 ≤ t.2.1 ∧ (t.1 ≤ 4 → t.2.1 ≤ 2240) ∧
      (4 < t.1 → t.2.1 ≤ 2000) ∧ t.2.2 - 160 ≤ t.2.1 ∧ t.2.1 ≤ t.2.2 + 160),
    [(4, -321, -300), (4, 2241, 2200), (5, 2001, 1900), (5, 400, 561), (5, 400, 239)].all fun (t : Nat × Int × Int) => decide (t.2.1 < -320 ∨
      (t.1 ≤ 4 ∧ 2240 < t.2.1) ∨ (4 < t.1 ∧ 2000 < t.2.1) ∨ t.2.1 < t.2.2 - 160 ∨ t.2.2 + 160 < t.2.1)] = true := by
  decide +kernel

/-- What a boot finds. -/
def boots (late : Option Nat) (test : Bool) : BootInput :=
  { testEn := test, puf := [], flash := [], flashOk := true, badStacks := [], dimms := [], late := late }

/-- A boot that waits in stage k + 1. -/
def waitsIn (k : Nat) : State := { base with boot := { base.boot with running := true, stage := k } }

theorem met_ResetsComplete : allOf [
    [true, false].all fun t => decide ((boots none t).testEn = t),
    [4, 5].all fun k => [true, false].all fun d =>
      let s : State := { base with boot := { base.boot with stage := k, warmDue := d } }
      s.warmable && decide (s.boot.warmDue = d) && (decide (5 ≤ s.boot.stage) == decide (k = 5)),
    !(powered fun p => { p with tripped := true }).warmable,
    [true, false].all fun l =>
      let s := powered fun p => { p with rail := .rising, fabLost := l }
      decide (s.power.rail = .rising ∧ s.power.tripped = false) && ({ s with power := { s.power with rail := .normal, tries := 0 } } : State).warmable == !l,
    decide (base.power.rail ≠ .rising ∧ base.power.fabLost = false),
    [true, false].all fun t =>
      let s := powered fun p => { p with fabLost := true, tripped := t }
      decide (s.power.fabLost = true) && ({ s with power := { s.power with fabLost := false } } : State).warmable == !t,
    (let s := powered fun p => { p with waking := true }
     decide (s.power.waking = true ∧ s.power.tripped = false ∧ s.power.fabLost = false ∧ s.power.rail = .normal ∧ base.power.waking = false)),
    !base.boot.running,
    [1, 2].all fun k => (waitsIn k).boot.running && ((waitsIn k).failStage (boots none false) ((waitsIn k).boot.stage + 1)).bootStopped == decide (k = 1)]
    = true := by
  decide +kernel

theorem met_WarmResetKeepsAndClears : allOf [
    (let s : State := { base with boot := { base.boot with seed := some [7] } }; s.warmable && decide (s.boot.seed = some [7]))] = true := by
  decide +kernel

theorem met_FunctionLevelResetLeaves : allOf [base.ready, !State.reset.ready] = true := by
  decide +kernel

/-! ### The whole part -/

theorem met_StepTakesFront : State.reset.pending = [] := rfl

theorem met_EveryStepKeepsSafe : ∃ s t : State, s.Safe ∧ s.pending ≠ [] ∧ step s = .next t :=
  ⟨{ State.reset with pending := [.brdThrotAssert] }, _, ⟨by decide, by unfold State.platesOk; decide, by unfold State.tablesOk; decide⟩, by decide, rfl⟩

theorem met_EndingEndsOneCommand : allOf [
    (let s := with' (pk 0x0001 64 []) base
     someAnd (s.findCmd 1 5) fun _ => decide (¬ (1 = 1 ∧ 6 = (cmd (pk 0x0001 64 []) .admitted).seq)))] = true := by
  decide +kernel

theorem met_EngineWriteStoresItsBytes : ([1, 2] : List Byte)[1]? = some 2 ∧ State.reset.mem.wf = true := by
  decide

theorem met_AccessesStayInOwnFrames : allOf [
    okAnd (base.translate 1 [] 0x10000) (fun l => base.framed l.pa && okAnd (base.touchPage 1 [] accR false 0x10000) fun t =>
      decide (t.ownerOf l.pa = some (.context 1) ∧ 17 ≠ l.pa / 65536)),
    (let s : State := { base with mem := { base.mem with owners := [(16, .context 2)] } }
     okAnd (s.translate 1 [] 0x10000) fun l => s.framed l.pa && decide (2 ≠ 1 ∧ s.ownerOf l.pa = some (.context 2)))] = true := by
  decide +kernel

/-- A part whose plate 0 context 1 holds. -/
def issuing : State := { base with plates := Kv.upd 0 (fun p => { p with ctx := some 1 }) base.plates }

theorem met_UnitsAreIssuedWhereTheyFit : (issuing.unitHost (.plate 0)).isSome && !(issuing.placeFlags (.plate 0)).1 &&
    decide (issuing.unitsOf (.plate 0) = []) = true := by
  decide +kernel

theorem met_LogTakesOrDrops : allOf [
    decide (2 ≤ logSeverity 0x0003), decide (State.reset.log.thisStroke < 64),
    (let s : State := { State.reset with log := { State.reset.log with thisStroke := 64 } }; decide (logSeverity 0x0001 < 2 ∧ 64 ≤ s.log.thisStroke))]
    = true := by
  decide +kernel

theorem met_ImplausiblePowerIsReplaced : allOf [
    decide ((((Kv.get 7 (round [] (-1)).currents).getD 0) < 0) ∧ ¬ (((Kv.get 7 (round [] 750000).currents).getD 0) < 0)),
    decide ((600000 : Int) * 5 < 750001 * 4 ∧ ¬ (600000 : Int) * 5 < 750000 * 4),
    decide (2500000 < ([1, 2, 3, 4, 5, 6, 7, 8, 9, 10, 11, 12].map (railPower (round [] 750000))).sum / 1000),
    decide (([1, 2, 3, 4, 5, 6, 7, 8, 9, 10, 11, 12].map (railPower { round [] 7 with currents := [(7, 7)] })).sum / 1000 ≤ 2500000),
    decide (base.power.discarded = [0, 0, 0])] = true := by
  decide +kernel

theorem met_IeeeCodesReadBack : allOf [[Fmt.fp64, .fp32, .bf16, .fp16].all fun f => [0, 1, 2 ^ (f.width - 1)].all fun code =>
    f.isIeee && decide (code < 2 ^ f.width) && !(decodeIeee f code).isNan] = true := by
  decide +kernel

theorem met_ScalesMultiply : allOf [
    [Fmt.e4m3, .e5m2, .e3m2, .e2m3, .e2m1].all fun f => f.isBlock && decide (∃ g ∈ [true, false], decodeElem f 127 1 = .num g 1 (1 - (f.params.2.2 : Int) - f.params.2.1)),
    [true, false].all fun g => decide (decodeElem .e5m2 127 (if g then 0xFC else 0x7C) = .inf g),
    (decodeElem .e4m3 127 0x7F).isNan && (decodeElem .e5m2 127 0xFF).isNan] = true := by
  decide +kernel

/-- Samples in mW, and a state of the control. -/
def controlled (samples : List Nat) (clamp : Bool) (low : Nat) : State := powered fun p => { p with samples := samples, clamp := clamp, low := low }

/-- An item at its throttle start, or 1/16 °C above it. -/
def warm (k : Nat) (t : Int) : State := powered fun p => { p with thermal := 64, sensors := [(k, { sensor 0 3 false with vals := [t] })] }

theorem met_ControlAndThermalCap : allOf [
    (let s := controlled [1200000] true 0; decide (s.power.boardOver = false ∧ s.power.samples ≠ [] ∧ s.power.clamp = true ∧ 0 < s.power.samples.foldl max 0)),
    (let s := controlled [950001] false 0; decide (s.power.clamp = false ∧ s.limitMw * s.power.samples.length < s.power.samples.sum)),
    [902500, 950000].all fun w => let s := controlled [w] false 0
      decide (s.power.clamp = false ∧ s.power.samples.sum ≤ s.limitMw * s.power.samples.length ∧ 95 * s.limitMw * s.power.samples.length ≤ 100 * s.power.samples.sum),
    [6, 7].all fun n => let s := controlled [902499] false n
      decide (s.power.clamp = false ∧ 0 < s.limitMw ∧ 100 * s.power.samples.sum < 95 * s.limitMw * s.power.samples.length) && (decide (s.power.low = 7) == decide (n = 7)),
    someAnd ((warm 19 1521).itemTemp 4) (fun t => decide ((thermalLimits 4).1 < t)), someAnd ((warm 20 1361).itemTemp 5) (fun t => decide ((thermalLimits 5).1 < t)),
    decide (4 ≤ (warm 20 1360).power.thermal ∧ ∀ i ∈ List.range 17, (((warm 20 1360).itemTemp i).all fun temp => decide (temp ≤ (thermalLimits i).1)) = true)] = true := by
  decide +kernel
/-! ### What WellFormed refuses -/

/-- Each check of a command's operands refuses a command that breaks it alone. -/
theorem test_ill_formed_refused : ([
    .nop (pk 0x0602 64 []), .nop { queue := 1024, bytes := (pk 0x0603 64 []).bytes }, .nop (pk 0x0603 48 []), .nop (pk 0x0603 72 []),
    .nop (pk 0x0603 528 []), .nop (pk 0x0603 64 [(4, 2, 80)]), .mboxNop { bytes := List.replicate 4097 0, sideband := false },
    .mctpRequest { (mctp 1 []) with destEid := 256 }, .mctpRequest { (mctp 1 []) with srcEid := 256 }, .mctpRequest { (mctp 1 []) with tag := 8 },
    .mctpRequest (mctp 128 []), .hostInboundRequest { hostReq .bar0 false with length := 4097 },
    .hostInboundRequest { hostReq .bar0 true with length := 4, data := [1] }, .dispatchUnitEnd (.plate 16) 0, .engineHung (.router 4),
    .deadlineExpiry { context := 4096, step := 0, group := 0, bucket := 0 }, .deadlineExpiry { context := 0, step := 2 ^ 40, group := 0, bucket := 0 },
    .verdictTimeout { context := 0, step := 0, group := 64, bucket := 0 }, .verdictTimeout { context := 0, step := 0, group := 0, bucket := 16384 },
    .xhSegmentReceived { qp := 65536, tag := 0, bytes := [] }, .verdictRecordReceived { qp := 0, tag := 2 ^ 64, bytes := [] },
    .ptpSync { source := 0, port := 0, arrival := 0, departure := 0, body := .sync 0 none }, .ptpSync { source := 3, port := 0, arrival := 0, departure := 0, body := .sync 0 none },
    .ptpSync { source := 1, port := 8, arrival := 0, departure := 0, body := .sync 0 none }, .ptpSync { source := 1, port := 0, arrival := 0, departure := 0, body := .sync 65536 none }, .coldReset (boots (some 0) false), .warmReset (boots (some 10) false),
    .coldReset { boots none false with badStacks := [12] }, .sensorSample (round [(68, 0)] 0), .sensorSample { round [] 0 with currents := [(13, 0)] },
    .sensorSample { round [] 0 with levels := [(13, 0)] }, .sqTailWrite 1024 0, .sqTailWrite 0 (2 ^ 32), .faultSummaryRead 64, .registerWrite 0 2 0,
    .registerWrite (2 ^ 28) 4 0, .registerWrite 0 8 (2 ^ 64), .cxlSnoop (2 ^ 49), .hostLinkUp true 17, .admissionPass 4, .commandComplete 0 (2 ^ 64),
    .residenceWait 4096, .plateHandover 16, .burinTileDelivery 0 12, .stippleTileTaken 0 2, .stencilToken 4, .linkUp 8, .slotOpen 0 64,
    .packetSend 65536 0, .epochRelease 65536, .easelBatchStart 32, .helloSend 2, .sensorFailed 68, .avsStep 4, .railFault 13, .tapInstruction 256]
    : List Instr).all (fun i => !i.wellFormed) = true := by
  decide +kernel

/-- A frame is at most 9,232 bytes. -/
theorem test_long_frames_refused (bs : List Byte) (h : 9232 < bs.length) : (Instr.frameReceived 0 bs).wellFormed = false ∧
    (Instr.transitForward 0 { bytes := bs, now := 0 }).wellFormed = false ∧ (Instr.serviceFrameReceived 0 bs).wellFormed = false := by
  simp [Instr.wellFormed, Nat.not_le.2 h]

/-- Commands at the ends of their ranges are well formed. -/
theorem test_well_formed_accepted : ([
    .nop { pk 0x0603 512 [] with queue := 1023 }, .mboxNop { bytes := [1], sideband := false }, .dispatchUnitEnd (.router 3) 0,
    .deadlineExpiry { context := 4095, step := 2 ^ 40 - 1, group := 63, bucket := 16383 }, .ptpSync { source := 2, port := 7, arrival := 0, departure := 0, body := .delayAnswer 65535 0 }, .coldReset (boots (some 9) true),
    .sensorSample (round [(67, 0)] 0), .sqTailWrite 1023 (2 ^ 32 - 1), .registerWrite (2 ^ 28 - 1) 4 0, .slotOpen 7 63, .railFault 12, .avsStep 3]
    : List Instr).all (·.wellFormed) = true := by
  decide +kernel

/-! ### Worked examples of the manual, and steps -/

/-- The block of the example under R31: its FP32 values. -/
def blockR31 (e5 : Nat) : List (FV × Nat) :=
  (([0x3EBD70A4, 0xBFF33333, 0x40266666, 0x3D23D70A, 0xBF400000, e5, 0x3FA00000, 0xC0533333] ++ List.replicate 24 0).map (decodeIeee .fp32)).map fun v => (v, 0)

/-- R31's example under FLOOR: its codes, scale and counts. -/
theorem test_block_example : encodeBlock .e2m1 false .rne (blockR31 0x40A33333) =
    (0x7F, [0x1, 0xC, 0x5, 0x0, 0xA, 0x7, 0x2, 0xD] ++ List.replicate 24 0, { under := 1 }) := by
  decide +kernel

/-- R31's example with element 5 as 7.0: FLOOR clips it and counts one saturation. -/
theorem test_block_floor_saturates : (encodeBlock .e2m1 false .rne (blockR31 0x40E00000)).2.2.sat = 1 ∧
    (encodeBlock .e2m1 false .rne (blockR31 0x40E00000)).1 = 0x7F := by
  decide +kernel

/-- R31's example with element 5 as 7.0: NOCLIP takes scale 0x80 and code 0x6. -/
theorem test_block_noclip : (encodeBlock .e2m1 true .rne (blockR31 0x40E00000)).1 = 0x80 ∧
    (encodeBlock .e2m1 true .rne (blockR31 0x40E00000)).2.1[5]? = some 0x6 := by
  decide +kernel

/-- The check value of CRC-32C over the digits 1 to 9, from the standard that R159 names. -/
theorem test_crc32c : crc32c (ascii "123456789") = 0xE3069283 := by
  decide +kernel

/-- BRD_THROT_N low clamps, at the front of the queue (R422). -/
theorem test_board_clamp : (match step { State.reset with pending := [.brdThrotAssert, .brdThrotRelease] } with
    | .next t => decide (t.power.board = true ∧ t.pending = [.brdThrotRelease])
    | _ => false) = true := by
  decide +kernel

/-- No table row gives bits, so no word spells a command. -/
theorem test_no_word (nbits w : Nat) : decodeTableWord nbits w = none := rfl

end Sys2Proof.Tests
end

section
/-! PROOFS. What every command and every step keeps (00_scope.md): each command answers a next state, the queue of commands and the enabled sites
stay, and a safe state stays safe. -/

namespace Sys2Proof.Machine

open Sys2Proof

/-- No command faults and none is refused: the meaning of every row is a next state, a row out of turn being one that changes nothing. -/
theorem exec_next (c : Instr) (s : State) : ∃ t : State, exec c s = .next t := by
  cases c <;> exact ⟨_, rfl⟩

theorem exec_next_keeps (c : Instr) (s : State) : ∃ t : State, exec c s = .next t ∧ Keeps s t := by
  obtain ⟨t, ht⟩ := exec_next c s
  exact ⟨t, ht, (exec_keeps c s).of ht⟩

theorem Keeps.safe {s t : State} (h : Keeps s t) (hs : s.Safe) : t.Safe := by
  obtain ⟨hmem, hplates, htables⟩ := hs
  exact ⟨h.mem hmem, h.plates hplates, h.tables htables⟩

theorem step_of_pending_nil {s : State} (h : s.pending = []) : step s = .next s := by
  simp [step, h]

theorem step_of_pending_cons {s : State} {c : Instr} {rest : List Instr} (h : s.pending = c :: rest) :
    step s = exec c { s with pending := rest } := by
  simp [step, h]

/-- Safety does not rest on the queue of waiting commands. -/
theorem State.Safe.with_pending {s : State} (h : s.Safe) (l : List Instr) : ({ s with pending := l } : State).Safe := h

/-- Settles O46: a step is the command at the front, which keeps what safety is made of; an empty queue leaves the state. -/
theorem everyStepKeepsSafe : Obligations.EveryStepKeepsSafe := by
  unfold Obligations.EveryStepKeepsSafe
  intro s t hs ht
  cases hp : s.pending with
  | nil =>
    rw [step_of_pending_nil hp] at ht
    cases ht
    exact hs
  | cons c rest =>
    rw [step_of_pending_cons hp] at ht
    exact ((exec_keeps c _).of ht).safe (hs.with_pending rest)

/-- Settles O45: every row answers a next state, which keeps the queue and the sites. -/
theorem commandsLeaveQueueAndSites : Obligations.CommandsLeaveQueueAndSites := by
  unfold Obligations.CommandsLeaveQueueAndSites
  intro c s
  obtain ⟨t, ht, hk⟩ := exec_next_keeps c s
  exact ⟨t, ht, hk.pending, hk.sites⟩

end Sys2Proof.Machine
end

section
/-! PROOFS. The state of reset (24_power_clocks_reset.md R411): what it holds, and that it is safe. -/

namespace Sys2Proof.Machine

open Sys2Proof

theorem numbered'_keys {α : Type} (n : Nat) (x : α) : (numbered' n x).map (·.1) = List.range n := by
  simp [numbered', Function.comp_def]

theorem snd_of_mem_numbered' {α : Type} {n : Nat} {x : α} {e : Nat × α} (h : e ∈ numbered' n x) : e.2 = x := by
  obtain ⟨i, -, rfl⟩ := List.mem_map.1 h
  rfl

theorem Port.initial_counts_zero : ∀ n ∈ Port.initial.counts, n = 0 := fun _ => List.eq_of_mem_replicate

theorem Memory.read_of_empty {m : Memory} (hc : m.cells = []) (hs : m.stale = []) (a : Nat) : m.read a = 0 := by
  simp [Memory.read, Memory.unlisted, hc, hs]

theorem Memory.wf_of_empty {m : Memory} (hc : m.cells = []) : m.wf = true := by
  simp [Memory.wf_iff, hc, Kv.sorted]

theorem State.reset_platesOk : State.reset.platesOk := numbered'_keys 16 Plate.initial

theorem State.reset_tablesOk : State.reset.tablesOk :=
  have hc : Bounded 4096 State.reset.ctxs := Bounded.nil _
  have hq : Bounded 1024 State.reset.queues := Bounded.nil _
  ⟨hc.1, hc.2, hq.1, hq.2⟩

/-- Settles O47: no byte is listed, the plates are numbered as the sites are, and the tables are empty. -/
theorem resetIsSafe : Obligations.ResetIsSafe := by
  unfold Obligations.ResetIsSafe
  exact ⟨Memory.wf_of_empty rfl, State.reset_platesOk, State.reset_tablesOk⟩

/-- Settles O48: each part is read off the reset state; its lists of counters repeat 0, and its memory lists no byte. -/
theorem resetLeaves : Obligations.ResetLeaves := by
  unfold Obligations.ResetLeaves
  have ecc : ∀ n ∈ State.reset.eccCounts, n = 0 := fun _ => List.eq_of_mem_replicate
  have ports : ∀ e ∈ State.reset.fabric.ports, ∀ n ∈ e.2.counts, n = 0 := fun e he => by
    rw [snd_of_mem_numbered' he]
    exact Port.initial_counts_zero
  refine ⟨?strokes, ?tables, ?keys, ?spare, ⟨rfl, rfl, ecc, rfl, rfl, rfl, ports⟩, ?log, fun a _ => Memory.read_of_empty rfl rfl a⟩
  case strokes => exact ⟨rfl, rfl, rfl, rfl, rfl, rfl⟩
  case tables => exact ⟨rfl, rfl, rfl, rfl, rfl, rfl, rfl, rfl, rfl, rfl, rfl⟩
  case keys => exact ⟨rfl, rfl, rfl, rfl, rfl, rfl⟩
  case spare => exact ⟨rfl, rfl, rfl⟩
  case log => exact ⟨rfl, rfl⟩

end Sys2Proof.Machine
end

section
/-! PROOFS. The registers and windows of BAR0 (27_host_register_map.md R440 to R448): which register an access reaches, and what it does. -/

namespace Sys2Proof.Machine

open Sys2Proof

/-! ### Bits of a register that is written whole -/

/-- Writing all 64 bits leaves what lies above them. -/
theorem setBits_whole (x v : Nat) : setBits x 63 0 v = 2 ^ 64 * (x / 2 ^ 64) + v % 2 ^ 64 := by
  simp only [setBits, bitsOf, Nat.pow_zero, Nat.div_one, Nat.mul_one]
  omega

theorem testBit_setBits_whole (x v : Nat) {i : Nat} (h : i < 64) : (setBits x 63 0 (v % 2 ^ 64)).testBit i = v.testBit i := by
  rw [setBits_whole, Nat.testBit_two_pow_mul_add _ (Nat.mod_lt _ (by decide)), if_pos h, Nat.mod_mod, Nat.testBit_mod_two_pow]
  simp [h]

theorem bitsOf_setBits_whole (x v : Nat) {hi lo : Nat} (h : hi < 64) :
    bitsOf (setBits x 63 0 (v % 2 ^ 64)) hi lo = bitsOf v hi lo := by
  refine Nat.eq_of_testBit_eq fun i => ?_
  simp only [bitsOf, Nat.testBit_mod_two_pow, Nat.testBit_div_two_pow]
  by_cases hi' : i < hi + 1 - lo
  · rw [testBit_setBits_whole x v (by omega)]
  · simp [hi']

/-! ### Accesses to BAR0 (R440) -/

/-- No window lies below the MSI-X table. -/
theorem State.window_of_lt (s : State) {off : Nat} (h : off < 0x410000) : s.window off = none := by
  unfold State.window
  rw [if_neg (by omega), if_neg (by omega), if_neg (by omega), if_neg (by omega), if_neg (by omega), if_neg (by omega), if_neg (by omega),
    if_neg (by omega)]

theorem State.writeWindow_of_lt (s : State) {off : Nat} (h : off < 0x410000) (bs : List Byte) : s.writeWindow off bs = none := by
  unfold State.writeWindow
  rw [if_neg (by omega), if_neg (by omega), s.window_of_lt h]
  rfl

/-- A misaligned write of BAR0 is dropped with an entry (R232, R440). -/
theorem State.write0_misaligned (s : State) {off size : Nat} (h : off % size ≠ 0) (v : Nat) : s.write0 off size v = s.inbound off := by
  simp [State.write0, h]

/-- The reserved half of ENABLE, and that of MBOX_DOORBELL. -/
theorem State.write0_reserved (s : State) {off : Nat} (h : off = 0x401024 ∨ off = 0x422004) (v : Nat) : s.write0 off 4 v = s := by
  rcases h with rfl | rfl <;> rfl

theorem State.doorbellReg_sqTail (s : State) (k : Nat) : s.doorbellReg k 0 = some 0 := rfl

theorem State.doorbellReg_cqHead (s : State) (k : Nat) : s.doorbellReg k 0x18 = some 0 := rfl

/-- The registers of the doorbell page of queue k. -/
theorem State.reg_doorbell (s : State) {k o : Nat} (hk : k < 1024) (ho : o < 4096) : s.reg (4096 * k + o) = s.doorbellReg k o := by
  unfold State.reg
  rw [if_pos (by omega), show (4096 * k + o) / 4096 = k by omega, show (4096 * k + o) % 4096 = o by omega]

/-- A 4-byte write of the low half of a doorbell. -/
theorem State.write0_doorbell (s : State) {k o old : Nat} (hk : k < 1024) (ho : o < 4096) (h8 : o % 8 = 0) (hr : s.doorbellReg k o = some old) (v : Nat) :
    s.write0 (4096 * k + o) 4 v =
      if o = 0 then s.writeSqTail k (v % 2 ^ 32) else if o = 0x18 then s.writeCqHead k (v % 2 ^ 32) else s := by
  unfold State.write0
  rw [if_neg (by omega), if_neg (by omega), s.writeWindow_of_lt (by omega)]
  simp only [show (4096 * k + o) / 8 * 8 = 4096 * k + o by omega, s.reg_doorbell hk ho, hr, show 4096 * k + o < 0x400000 by omega, if_true,
    show (4096 * k + o) / 4096 = k by omega, show (4096 * k + o) % 4096 = o by omega, Nat.sub_self, Nat.mul_zero, Nat.pow_zero, Nat.mul_one]

theorem State.write0_sqTail (s : State) {k : Nat} (hk : k < 1024) (v : Nat) : s.write0 (4096 * k) 4 v = s.writeSqTail k (v % 2 ^ 32) :=
  s.write0_doorbell hk (by decide) rfl (s.doorbellReg_sqTail k) v

theorem State.write0_cqHead (s : State) {k : Nat} (hk : k < 1024) (v : Nat) : s.write0 (4096 * k + 0x18) 4 v = s.writeCqHead k (v % 2 ^ 32) :=
  s.write0_doorbell hk (by decide) rfl (s.doorbellReg_cqHead k) v

/-- An 8-byte write of a register of the global page or of the administrative-queue page. -/
theorem State.write0_whole (s : State) {off old : Nat} (hlo : 0x400000 ≤ off) (hhi : off < 0x402000) (h8 : off % 8 = 0)
    (hr : s.reg off = some old) (v : Nat) :
    s.write0 off 8 v = if off < 0x401000 then s.writeGlobal (off - 0x400000) (setBits old 63 0 (v % 2 ^ 64)) (v % 2 ^ 64)
      else s.writeAdmq (off - 0x401000) (setBits old 63 0 (v % 2 ^ 64)) := by
  unfold State.write0
  rw [if_neg (by omega), if_neg (by omega), s.writeWindow_of_lt (by omega)]
  simp only [show off / 8 * 8 = off by omega, hr, show ¬ off < 0x400000 by omega, hhi, if_true, if_false, Nat.sub_self, Nat.mul_zero, Nat.pow_zero,
    Nat.mul_one, Nat.zero_add, Nat.reduceMul, Nat.reduceSub]

/-- ENABLE, written whole. -/
theorem State.write0_enable (s : State) (v : Nat) :
    s.write0 0x401020 8 v = if v.testBit 0 then s.enableAdmq else s.disableAdmq := by
  rw [s.write0_whole (by decide) (by decide) rfl (old := b2n s.host.enable) rfl, if_neg (by decide)]
  simp only [State.writeAdmq, bitOf, testBit_setBits_whole _ _ (by decide : 0 < 64)]
  rfl

/-- SERIAL is read-only. -/
theorem State.write0_serial (s : State) (v : Nat) : s.write0 0x400008 8 v = s := by
  rw [s.write0_whole (by decide) (by decide) rfl (old := s.boot.serial) rfl]
  rfl

/-- FAULT_VEC, written whole. -/
theorem State.write0_faultVec (s : State) (v : Nat) :
    s.write0 0x400040 8 v = { s with host := { s.host with faultVec := v % 2 ^ 11, faultEn := v.testBit 15 } } := by
  rw [s.write0_whole (by decide) (by decide) rfl (old := s.host.faultVec + b2n s.host.faultEn * 2 ^ 15) rfl, if_pos (by decide)]
  simp only [State.writeGlobal, bitOf, testBit_setBits_whole _ v (by decide : 15 < 64), bitsOf_setBits_whole _ v (by decide : 10 < 64)]
  simp [bitsOf]

/-- An aligned read of a register of 4 or 8 bytes. -/
theorem State.read0_reg {s t : State} {off len v : Nat} (hl : len = 4 ∨ len = 8) (ha : off % len = 0) (hw : s.window off = none)
    (hr : s.readReg off len = some (v, t)) : s.read0 off len = { t with host := { t.host with answer := .data (leBytes len v) } } := by
  unfold State.read0
  rw [if_neg (by omega), hw, hr]

/-- A word of FAULT_SUMMARY. -/
theorem State.reg_faultSummary (s : State) {w : Nat} (hw : w < 64) : s.reg (0x400100 + 8 * w) = some (s.summaryWord w) := by
  unfold State.reg State.globalReg
  simp only [show 0x400100 + 8 * w - 0x400000 = 0x100 + 8 * w by omega]
  rw [if_neg (by omega), if_pos (by omega), if_neg (by omega), if_neg (by omega), if_neg (by omega), if_neg (by omega), if_neg (by omega),
    if_neg (by omega), if_neg (by omega), if_neg (by omega), if_neg (by omega), if_neg (by omega), if_neg (by omega), if_pos (by omega),
    show (0x100 + 8 * w - 0x100) / 8 = w by omega]

theorem State.readEffect_faultSummary (s : State) {w : Nat} (hw : w < 64) : s.readEffect (0x400100 + 8 * w) = s.clearSummary w := by
  unfold State.readEffect
  rw [if_pos (by omega), show (0x400100 + 8 * w - 0x400100) / 8 = w by omega]

theorem State.readEffect_of_not (s : State) {off : Nat} (h : ¬ (0x400100 ≤ off ∧ off < 0x400300)) : s.readEffect off = s := if_neg h

theorem State.readReg_whole {s : State} {off v : Nat} (h8 : off % 8 = 0) (hr : s.reg off = some v) :
    s.readReg off 8 = some (v, s.readEffect off) := by
  simp [State.readReg, show off / 8 * 8 = off by omega, hr]

/-- The low half of a register, whose high half is latched. -/
theorem State.readReg_low {s : State} {off v : Nat} (h8 : off % 8 = 0) (hr : s.reg off = some v) :
    s.readReg off 4 =
      some (v % 2 ^ 32, ({ s with host := { s.host with latch := some (off, v / 2 ^ 32) } } : State).readEffect off) := by
  simp [State.readReg, show off / 8 * 8 = off by omega, hr, h8]

/-! ### The table window (R447) -/

theorem State.writeTable_some {s : State} {off pa : Nat} {bs : List Byte} (ha : tableAccessOk off bs.length = true) (hp : tablePa off = some pa) :
    s.writeTable off bs = { s with mem := s.mem.writeBytes pa bs } := by
  simp [State.writeTable, hp, ha, State.updMem]

theorem State.writeTable_none {s : State} {off : Nat} (hp : tablePa off = none) (bs : List Byte) : s.writeTable off bs = s.inbound off := by
  simp [State.writeTable, hp]

/-! ### SB_RX_HEAD (R448) -/

theorem State.writeRxHead_of_le {s : State} {v : Nat}
    (h : (v % 2 ^ 32 + 2 ^ 32 - s.mbox.rxHead) % 2 ^ 32 ≤ (s.mbox.rxTail + 2 ^ 32 - s.mbox.rxHead) % 2 ^ 32) :
    s.writeRxHead v = { s with mbox := { s.mbox with rxHead := v % 2 ^ 32 } } := if_pos h

theorem State.writeRxHead_of_gt {s : State} {v : Nat}
    (h : (s.mbox.rxTail + 2 ^ 32 - s.mbox.rxHead) % 2 ^ 32 < (v % 2 ^ 32 + 2 ^ 32 - s.mbox.rxHead) % 2 ^ 32) :
    s.writeRxHead v = s := if_neg (Nat.not_le.2 h)

/-- Settles O30: each row goes through the access that its offset selects. -/
theorem hostRegisterRowsComplete : Obligations.HostRegisterRowsComplete := by
  unfold Obligations.HostRegisterRowsComplete
  refine ⟨fun s v => ⟨fun h => ?rxHead, fun h => ?rxIgnored⟩, fun s w hw => ?summary, fun s o v h8 hw hr hn => ?latch,
    fun s o pa bs ha => ⟨fun hp => ?table, fun hp => ?noTable⟩, fun s v => ⟨?serial, ?enableHalf, ?mboxHalf, ?faultVec⟩, fun s o v h => ?misaligned⟩
  case rxHead => exact congrArg Host.Outcome.next (State.writeRxHead_of_le h)
  case rxIgnored => exact congrArg Host.Outcome.next (State.writeRxHead_of_gt h)
  case summary =>
    have hread := State.read0_reg (.inr rfl) (by omega) (s.window_of_lt (by omega)) (State.readReg_whole (by omega) (s.reg_faultSummary hw))
    rw [s.readEffect_faultSummary hw] at hread
    exact congrArg Host.Outcome.next ((if_pos hw).trans hread)
  case latch =>
    have hread := State.read0_reg (.inl rfl) (by omega) hw (State.readReg_low h8 hr)
    rw [State.readEffect_of_not _ hn] at hread
    exact congrArg Host.Outcome.next ((if_pos h8).trans hread)
  case table => exact congrArg Host.Outcome.next (State.writeTable_some ha hp)
  case noTable => exact congrArg Host.Outcome.next (State.writeTable_none hp bs)
  case serial => exact congrArg Host.Outcome.next (s.write0_serial v)
  case enableHalf => exact congrArg Host.Outcome.next (s.write0_reserved (.inl rfl) v)
  case mboxHalf => exact congrArg Host.Outcome.next (s.write0_reserved (.inr rfl) v)
  case faultVec => exact congrArg Host.Outcome.next (s.write0_faultVec v)
  case misaligned => exact congrArg Host.Outcome.next (s.write0_misaligned h v)

end Sys2Proof.Machine
end

section
/-! PROOFS. The doorbells (10_command_queues.md R162) and the enabling and disabling of queue 0 (27_host_register_map.md R443, R444). -/

namespace Sys2Proof.Machine

open Sys2Proof

/-! ### Doorbells (R162) -/

section Doorbells

variable {s : State} {k v : Nat} {x : Queue}

theorem State.badDoorbell_none (hx : Kv.get k s.queues = none) (log : Bool) : s.badDoorbell k v log =
    let bad : State := { s with dbUnused := Kv.set k (satAdd ((Kv.get k s.dbUnused).getD 0) 1 65535) s.dbUnused }
    if log then bad.logEvent 0x0302 10 0 noContext k v else bad := by
  simp [State.badDoorbell, hx]

theorem State.badDoorbell_some (hx : Kv.get k s.queues = some x) (log : Bool) : s.badDoorbell k v log =
    let bad := s.updQueue k fun y => { y with dbErrors := satAdd y.dbErrors 1 65535 }
    if log then bad.logEvent 0x0302 10 0 x.owner k v else bad := by
  simp [State.badDoorbell, hx, Kv.get_upd_self]

section

variable (hk : k < 1024) (hv : v < 2 ^ 32)

include hk hv

theorem State.writeSqTail_unused (hx : Kv.get k s.queues = none) : s.writeSqTail k v = if v = 0 then s else s.badDoorbell k v true := by
  simp only [State.writeSqTail, if_neg (Nat.not_le.2 hk), hx, Nat.mod_eq_of_lt hv]

theorem State.writeCqHead_unused (hx : Kv.get k s.queues = none) : s.writeCqHead k v = if v = 0 then s else s.badDoorbell k v false := by
  simp only [State.writeCqHead, if_neg (Nat.not_le.2 hk), hx, Nat.mod_eq_of_lt hv]

/-- A tail that its queue takes. -/
theorem State.writeSqTail_taken (hx : Kv.get k s.queues = some x) (h0 : k = 0 → s.host.admqState = 1 ∧ s.ring0Misplaced x = false)
    (hhead : (v + 2 ^ 32 - x.sqHead) % 2 ^ 32 ≤ x.sqSlots) (htail : (v + 2 ^ 32 - x.sqTail) % 2 ^ 32 < 2 ^ 31) :
    s.writeSqTail k v = s.updQueue k fun y => { y with sqTail := v, rereads := 0 } := by
  have hn : ¬ (k = 0 ∧ (s.host.admqState ≠ 1 ∨ s.ring0Misplaced x = true)) := by
    rintro ⟨hk0, h⟩
    obtain ⟨hrun, hring⟩ := h0 hk0
    simp [hrun, hring] at h
  simp only [State.writeSqTail, if_neg (Nat.not_le.2 hk), hx, Nat.mod_eq_of_lt hv, if_neg hn, if_pos (And.intro hhead htail)]

/-- A tail beyond the ring or behind the tail, or of queue 0 where it does not take one. -/
theorem State.writeSqTail_bad (hx : Kv.get k s.queues = some x)
    (h : x.sqSlots < (v + 2 ^ 32 - x.sqHead) % 2 ^ 32 ∨ 2 ^ 31 ≤ (v + 2 ^ 32 - x.sqTail) % 2 ^ 32 ∨
      (k = 0 ∧ (s.host.admqState ≠ 1 ∨ s.ring0Misplaced x = true))) :
    s.writeSqTail k v = s.badDoorbell k v true := by
  simp only [State.writeSqTail, if_neg (Nat.not_le.2 hk), hx, Nat.mod_eq_of_lt hv]
  split
  · rfl
  · rename_i hn
    rw [if_neg]
    rintro ⟨hhead, htail⟩
    rcases h with h | h | h
    · omega
    · omega
    · exact hn h

theorem State.writeCqHead_taken (hx : Kv.get k s.queues = some x)
    (h : (v + 2 ^ 32 - x.cqHead) % 2 ^ 32 ≤ (x.cqWritten + 2 ^ 32 - x.cqHead) % 2 ^ 32) :
    s.writeCqHead k v = (s.updQueue k fun y => { y with cqHead := v }).flush k := by
  simp only [State.writeCqHead, if_neg (Nat.not_le.2 hk), hx, Nat.mod_eq_of_lt hv, if_pos h]

theorem State.writeCqHead_bad (hx : Kv.get k s.queues = some x)
    (h : (x.cqWritten + 2 ^ 32 - x.cqHead) % 2 ^ 32 < (v + 2 ^ 32 - x.cqHead) % 2 ^ 32) : s.writeCqHead k v = s.badDoorbell k v false := by
  simp only [State.writeCqHead, if_neg (Nat.not_le.2 hk), hx, Nat.mod_eq_of_lt hv, if_neg (Nat.not_le.2 h)]

end

/-- A queue that holds nothing and waits for nothing has nothing to flush. -/
theorem State.flush_idle (hx : Kv.get k s.queues = some x) (hh : x.held = []) (hd : x.drain = none) : s.flush k = s := by
  simp [State.flush, State.drainDone, hx, hh, hd, State.flushHeld]

end Doorbells

/-! ### Enabling queue 0 (R444) -/

/-- Context 0 with the root and the two rings that the registers describe. -/
def HostPort.rootCtx (h : HostPort) (c : Ctx) : Ctx :=
  let ring (b n : Nat) : Alloc := { base := b, size := n, write := true, pinned := true, ink := false, pins := [] }
  { c with root := h.ctx0Root, allocs := c.allocs ++ [ring h.sqBase h.sqBytes, ring h.cqBase h.cqBytes] }

/-- Queue 0 as the registers describe it. -/
def HostPort.admq (h : HostPort) : Queue :=
  newQueue 0 h.sqBase h.sqLog2 h.cqBase h.cqLog2 50000 (if h.vecEn then some h.vector else none)

section Enable

variable {s : State} (hr : s.ready = true) (hd : s.host.admqState ≠ 1)

include hr hd

theorem State.enableAdmq_refused {o : Nat} (hf : s.admqFault = some o) :
    s.enableAdmq = { s with host := { s.host with admqState := 2, reason := o, enable := false } } := by
  simp [State.enableAdmq, hr, hd, hf]

/-- Queue 0 starts: nothing changes but the memory, context 0, queue 0 and the registers. -/
theorem State.enableAdmq_started (hf : s.admqFault = none) :
    s.enableAdmq = { s with
      mem := s.enableAdmq.mem, ctxs := Kv.upd 0 s.host.rootCtx s.ctxs, queues := Kv.set 0 s.host.admq s.queues
      host := { s.host with admqState := 1, reason := 0, enable := true } } := by
  simp only [State.enableAdmq, hr, hd, hf, not_true_eq_false, or_self, if_false, State.updMem, State.updCtx]
  rw [claimRange_frame, claimRange_frame s]
  rfl

end Enable

/-! ### Closing queue 0 (R174, R444) -/

/-- A queue that is to go: stopped, and waiting until nothing of it is left. -/
def Queue.closing (x : Queue) (waiter : Option (Nat × Nat)) : Queue :=
  { x with state := .stopped, drain := some { waiter := waiter, cancel := false, destroy := true, cancelled := 0 } }

/-- The state in which queue q begins to close: what was read of it and not admitted has ended. -/
def State.closing (s : State) (q : Nat) (waiter : Option (Nat × Nat)) : State :=
  let s := s.updQueue q (·.closing waiter)
  { s with cmds := s.cmds.map fun c => if c.queue = q ∧ c.phase = .visible then
      { c with phase := .finished (c.failed.getD (conflict scGroupEnded)) } else c }

theorem State.closeQueue_eq (s : State) (q : Nat) (w : Option (Nat × Nat)) : s.closeQueue q w = (s.closing q w).drainDone q := rfl

@[simp] theorem State.closing_queues (s : State) (q : Nat) (w : Option (Nat × Nat)) :
    (s.closing q w).queues = Kv.upd q (·.closing w) s.queues := rfl

theorem State.get_closing_ne (s : State) {q k : Nat} (w : Option (Nat × Nat)) (h : k ≠ q) :
    Kv.get k (s.closing q w).queues = Kv.get k s.queues := by
  rw [State.closing_queues, Kv.get_upd_ne h]

theorem State.get_closing_self (s : State) (q : Nat) (w : Option (Nat × Nat)) :
    Kv.get q (s.closing q w).queues = (Kv.get q s.queues).map (·.closing w) := by
  rw [State.closing_queues, Kv.get_upd_self]

/-- A closing command keeps its queue. -/
theorem State.exists_closing_cmd (s : State) (q : Nat) (w : Option (Nat × Nat)) :
    (∃ c ∈ (s.closing q w).cmds, c.queue = q) ↔ ∃ c ∈ s.cmds, c.queue = q := by
  simp only [State.closing, State.updQueue_cmds, List.mem_map, exists_exists_and_eq_and]
  refine exists_congr fun c => and_congr_right fun _ => ?_
  split <;> rfl

/-- What closing queue 0 leaves: the rings stay while a command or a held record of it is left, and go with the last. -/
theorem State.closeQueue_zero (s : State) : s.closeQueue 0 none =
    match Kv.get 0 s.queues with
    | none => s.closing 0 none
    | some x => if (∃ c ∈ s.cmds, c.queue = 0) ∨ x.held ≠ [] then s.closing 0 none else (s.closing 0 none).closeAdmq := by
  rw [State.closeQueue_eq, State.drainDone, s.get_closing_self]
  cases Kv.get 0 s.queues with
  | none => rfl
  | some x => simp [Queue.closing, ← s.exists_closing_cmd 0 none]

/-- A ring of queue 0 is released: the frames of context 0's allocation at base b, the allocation and its cached translations. -/
def State.dropRing (s : State) (b : Nat) : State :=
  match (Kv.get 0 s.ctxs).bind fun c => (c.allocs.find? fun a => decide (a.base = b)).map (c, ·) with
  | none => s
  | some (c, a) =>
    ((s.releaseFrames (s.releasedFrames 0 c a)).1.updCtx 0 fun y => { y with allocs := y.allocs.filter fun x => x.base ≠ b }).dropTlb
      0 a.base a.size

theorem State.dropRing_frame (s : State) (b : Nat) : s.dropRing b = { s with mem := (s.dropRing b).mem, ctxs := (s.dropRing b).ctxs } := by
  unfold State.dropRing
  split
  · rfl
  · rw [releaseFrames_frame]
    rfl

/-- Queue 0 as it stands disabled: only its doorbell errors stay. -/
def Queue.disabled (q : Queue) : Queue := { newQueue 0 0 0 0 0 50000 none with dbErrors := q.dbErrors }

theorem State.closeAdmq_eq (s : State) : s.closeAdmq =
    { (s.dropRing s.host.sqBase).dropRing s.host.cqBase with
      queues := Kv.upd 0 Queue.disabled ((s.dropRing s.host.sqBase).dropRing s.host.cqBase).queues
      host := { ((s.dropRing s.host.sqBase).dropRing s.host.cqBase).host with admqState := 0, enable := false } } := rfl

/-- Releasing the rings of queue 0 changes nothing but the memory, the contexts, queue 0 and the registers. -/
theorem State.closeAdmq_frame (s : State) : s.closeAdmq = { s with
    mem := s.closeAdmq.mem, ctxs := s.closeAdmq.ctxs, queues := Kv.upd 0 Queue.disabled s.queues
    host := { s.host with admqState := 0, enable := false } } := by
  rw [State.closeAdmq_eq, State.dropRing_frame, s.dropRing_frame]

/-- Queue 0 closes at once or waits, and either way only its own entry among the queues changes. -/
theorem State.closeQueue_zero_leaves (s : State) :
    (s.closeQueue 0 none).cmds = (s.closing 0 none).cmds ∧ (s.host.enable = false → (s.closeQueue 0 none).host.enable = false) ∧
      ∀ k, k ≠ 0 → Kv.get k (s.closeQueue 0 none).queues = Kv.get k s.queues := by
  have hcases : s.closeQueue 0 none = s.closing 0 none ∨ s.closeQueue 0 none = (s.closing 0 none).closeAdmq := by
    rw [s.closeQueue_zero]
    split
    · exact .inl rfl
    · exact ite_eq_or_eq _ _ _
  rcases hcases with h | h <;> rw [h]
  · exact ⟨rfl, id, fun k hk => s.get_closing_ne none hk⟩
  · rw [State.closeAdmq_frame]
    exact ⟨rfl, fun _ => rfl, fun k hk => (Kv.get_upd_ne hk _ _).trans (s.get_closing_ne none hk)⟩

/-- With no command and no held record of it left, queue 0 is disabled at once. -/
theorem State.closeQueue_zero_disables {s : State} {x : Queue} (hx : Kv.get 0 s.queues = some x) (hh : x.held = [])
    (hc : ∀ c ∈ s.cmds, c.queue ≠ 0) : (s.closeQueue 0 none).host.admqState = 0 := by
  have hn : ¬ ((∃ c ∈ s.cmds, c.queue = 0) ∨ x.held ≠ []) := by
    rintro (⟨c, hmem, hq⟩ | h)
    · exact hc c hmem hq
    · exact h hh
  rw [s.closeQueue_zero, hx]
  simp only [if_neg hn]
  rw [State.closeAdmq_frame]

section Disable

variable {s : State} (hd : s.host.admqState = 1)

include hd

theorem State.disableAdmq_dropped (h : ∃ c ∈ s.cmds, c.queue = 0 ∧ c.wasAdmitted = true) : s.disableAdmq = s.inbound 0x401020 := by
  unfold State.disableAdmq
  rw [if_neg (not_not.2 hd), if_pos (by simpa using h)]

theorem State.disableAdmq_closes (h : ∀ c ∈ s.cmds, c.queue = 0 → c.wasAdmitted = false) :
    s.disableAdmq = ({ s with host := { s.host with enable := false } } : State).closeQueue 0 none := by
  unfold State.disableAdmq
  rw [if_neg (not_not.2 hd), if_neg (by simpa using h)]

end Disable

/-- Settles O29: the doorbell rows by what their queue takes, the register writes by the register they reach, and the enable rows by what queue 0
starts with and leaves. -/
theorem doorbellRowsComplete : Obligations.DoorbellRowsComplete := by
  unfold Obligations.DoorbellRowsComplete
  refine ⟨?used, ?unused, fun s k v hk => ⟨?tailRegister, ?headRegister⟩, fun s v => ⟨?enableSet, ?enableClear⟩, fun s hr hd => ⟨?refused, ?started⟩,
    fun s hd => ⟨?closes, ?dropped⟩⟩
  case used =>
    rintro s k v x bad hk hx hv rfl
    refine ⟨fun h0 hhead htail => ?_, fun h => ?_, fun h => ⟨?_, fun hh hdr => ?_⟩, fun h => ?_⟩ <;> refine congrArg Host.Outcome.next ?_
    · exact State.writeSqTail_taken hk hv hx h0 hhead htail
    · exact (State.writeSqTail_bad hk hv hx h).trans (State.badDoorbell_some hx true)
    · exact State.writeCqHead_taken hk hv hx h
    · have hx' : Kv.get k (s.updQueue k fun y => { y with cqHead := v }).queues = some { x with cqHead := v } := by
        simp [Kv.get_upd_self, hx]
      exact (State.writeCqHead_taken hk hv hx h).trans (State.flush_idle hx' hh hdr)
    · exact (State.writeCqHead_bad hk hv hx h).trans (State.badDoorbell_some hx false)
  case unused =>
    rintro s k v bad hk hx hv rfl
    have htail := State.writeSqTail_unused hk hv hx
    have hhead := State.writeCqHead_unused hk hv hx
    refine ⟨fun h0 => ⟨?_, ?_⟩, fun h0 => ⟨?_, ?_⟩⟩ <;> refine congrArg Host.Outcome.next ?_
    · exact htail.trans (if_pos h0)
    · exact hhead.trans (if_pos h0)
    · exact (htail.trans (if_neg h0)).trans (State.badDoorbell_none hx true)
    · exact (hhead.trans (if_neg h0)).trans (State.badDoorbell_none hx false)
  case tailRegister => exact congrArg Host.Outcome.next (s.write0_sqTail hk v)
  case headRegister => exact congrArg Host.Outcome.next (s.write0_cqHead hk v)
  case enableSet => exact congrArg Host.Outcome.next ((s.write0_enable _).trans (if_pos (by simp)))
  case enableClear => exact congrArg Host.Outcome.next ((s.write0_enable _).trans (if_neg (by simp)))
  case refused => exact fun o hf => congrArg Host.Outcome.next (State.enableAdmq_refused hr hd hf)
  case started =>
    intro hf
    refine ⟨s.enableAdmq, rfl, ?_⟩
    rw [State.enableAdmq_started hr hd hf]
    refine ⟨rfl, rfl, rfl, fun k hk => ⟨Kv.get_set_ne hk _ _, Kv.get_upd_ne hk _ _⟩, Kv.get_set_self _ _ _, fun c hc => ?_⟩
    obtain ⟨c', -, rfl⟩ := Option.map_eq_some_iff.1 ((Kv.get_upd_self 0 s.host.rootCtx s.ctxs).symm.trans hc)
    rfl
  case closes =>
    intro h
    refine ⟨s.disableAdmq, rfl, ?_⟩
    rw [State.disableAdmq_closes hd h]
    obtain ⟨hcmds, henable, hqueues⟩ := ({ s with host := { s.host with enable := false } } : State).closeQueue_zero_leaves
    exact ⟨henable rfl, hqueues, hcmds, fun x hx hh hc => State.closeQueue_zero_disables hx hh hc⟩
  case dropped => exact fun h => congrArg Host.Outcome.next (State.disableAdmq_dropped hd h)

end Sys2Proof.Machine
end

section
/-! PROOFS. The messages of the survival chapter at the head of their queue pair (19_failure_survival_and_replay.md R328 to R332, R340, R341): what
the keeper, a restore and a fill do with a message that passes the guards of its row. -/

namespace Sys2Proof.Machine

open Sys2Proof

/-! ### Taking a message -/

@[simp] theorem State.takeMsg_ctxs (s : State) (k status : Nat) : (s.takeMsg k status).ctxs = s.ctxs := by
  unfold State.takeMsg
  split <;> rfl

@[simp] theorem State.takeMsg_spare (s : State) (k status : Nat) : (s.takeMsg k status).spare = s.spare := by
  unfold State.takeMsg
  split <;> rfl

/-! ### The keeper's pieces (R19, R330) -/

/-- The keeper's progress with the save that a piece belongs to: what the queue pair has of it, or a save that begins in the other half. -/
def Ledger.saveOf (l : Ledger) (k : Nat) (e : KeepEntry) (piece : List Byte) : KeepRx :=
  ((l.keepRx k).filter fun r => decide (r.layer = fieldAt piece 0 2) && decide (r.tensor = fieldAt piece 2 2) &&
    decide (r.step = fieldAt piece 4 5) && decide (r.length = fieldAt piece 16 8)).getD
    { qp := k, layer := fieldAt piece 0 2, tensor := fieldAt piece 2 2, step := fieldAt piece 4 5, index := e.index, half := e.saveHalf,
      length := fieldAt piece 16 8, leaves := [] }

/-- Where a piece of a save is written: its chunk of the half being saved. -/
def KeepRx.chunkVa (r : KeepRx) (base : Nat) (e : KeepEntry) (chunk : Nat) : Nat := base + e.offsets.getD r.half 0 + chunkSize * chunk

section KeepPiece

variable {s : State} {k : Nat} {piece : List Byte} (hhead : s.headIs k piece = true) (htag : piece.take 4 ≠ ascii "KVSD")
  (hkind : fieldAt piece 9 1 ≤ 1)

include hhead htag hkind

/-- A piece on a queue pair that no keeper holds: a part without a DDR tier refuses it, where nothing else of the part holds the queue pair. -/
theorem execKeepPieceReceived_no_keeper (hkeep : s.keeperOf k (fieldAt piece 0 2) (fieldAt piece 2 2) = none) (hddr : s.ddrGib = 0)
    (hheld : s.qpHeld k = false) (hmsg : (s.headMsg k).map (·.tag) = some keepTag) :
    execKeepPieceReceived k piece s = .next (s.takeMsg k Status.noResource.code) := by
  simp [execKeepPieceReceived, hhead, htag, Nat.not_lt.2 hkind, hkeep, hddr, hheld, hmsg]

theorem execKeepPieceReceived_no_entry {n base : Nat} (hkeep : s.keeperOf k (fieldAt piece 0 2) (fieldAt piece 2 2) = some (n, base, none)) :
    execKeepPieceReceived k piece s = .next (s.takeMsg k Status.descRange.code) := by
  simp [execKeepPieceReceived, hhead, htag, Nat.not_lt.2 hkind, hkeep]

/-- A piece that fits its entry and its save is written, hashed and acknowledged. -/
theorem execKeepPieceReceived_fits {s1 : State} {n base : Nat} {e : KeepEntry} {l : Ledger}
    (hkeep : s.keeperOf k (fieldAt piece 0 2) (fieldAt piece 2 2) = some (n, base, some e)) (hcap : fieldAt piece 16 8 ≤ e.capacity)
    (hchunk : fieldAt piece 12 4 < ceilDiv (fieldAt piece 16 8) chunkSize)
    (hlen : (piece.drop 64).length = min chunkSize (fieldAt piece 16 8 - chunkSize * fieldAt piece 12 4)) (hl : s.ledger n = some l)
    (htouch : s.touch n [] ((l.saveOf k e piece).chunkVa base e (fieldAt piece 12 4)) (piece.drop 64).length accW false = .ok s1) :
    execKeepPieceReceived k piece s =
      .next (((s1.vwrite n [] ((l.saveOf k e piece).chunkVa base e (fieldAt piece 12 4)) (piece.drop 64)).updLedger n fun y => y.setKeepRx k
        (some { l.saveOf k e piece with
          leaves := Kv.set (fieldAt piece 12 4) (chunkLeaf (piece.drop 64)) (l.saveOf k e piece).leaves })).takeMsg k 0) := by
  have hfits : ¬ (ceilDiv (fieldAt piece 16 8) chunkSize ≤ fieldAt piece 12 4 ∨
      (piece.drop 64).length ≠ min chunkSize (fieldAt piece 16 8 - chunkSize * fieldAt piece 12 4)) :=
    not_or.2 ⟨Nat.not_le.2 hchunk, not_not.2 hlen⟩
  simp only [Ledger.saveOf, KeepRx.chunkVa] at htouch ⊢
  simp only [execKeepPieceReceived, hhead, htag, Nat.not_lt.2 hkind, hkeep, hl, Nat.not_lt.2 hcap, hfits, htouch, not_true_eq_false, or_self, if_false,
    Option.bind_some]

end KeepPiece

/-! ### The keeper's digest records (R330) -/

section KeepDigest

variable {s : State} {k n base : Nat} {bs : List Byte} {e : KeepEntry} {l : Ledger} {r : KeepRx} (hhead : s.headIs k bs = true)
  (htag : bs.take 4 = ascii "KVSD") (hkeep : s.keeperOf k (fieldAt bs 4 2) (fieldAt bs 6 2) = some (n, base, some e)) (hl : s.ledger n = some l)
  (hr : l.keepRx k = some r)

include hhead htag hkeep hl hr

theorem execKeepDigestReceived_disagrees (hagree : r.agrees bs = false) :
    execKeepDigestReceived k bs s = .next ((s.updLedger n fun l => l.setKeepRx k none).takeMsg k Status.checkMismatch.code) := by
  simp [execKeepDigestReceived, hhead, htag, hkeep, hl, hr, hagree]

/-- A record that agrees is written behind its half, then the half's STEP, then HALF. -/
theorem execKeepDigestReceived_agrees {s1 : State} (hagree : r.agrees bs = true)
    (htouch : (s.updLedger n fun l => l.setKeepRx k none).touch n [] (base + e.offsets.getD r.half 0 + e.capacity) bs.length accW false = .ok s1) :
    execKeepDigestReceived k bs s = .next ((((s1.vput n (base + e.offsets.getD r.half 0 + e.capacity) bs).vput n
      (base + 64 + 64 * e.index + 32 + 8 * r.half) (leBytes 5 r.step)).vput n (base + 64 + 64 * e.index + 6) (leBytes 1 (2 + r.half))).takeMsg k 0) := by
  simp only [execKeepDigestReceived, hhead, htag, hkeep, hl, hr, hagree, htouch, Option.bind_some, ne_eq, not_true_eq_false, or_self, if_false]

end KeepDigest

/-! ### The keeper's answer to a restore (R332) -/

section RestoreRequest

variable {s : State} {k n base : Nat} {q : List Byte} {e : KeepEntry} (hhead : s.headIs k q = true) (htag : q.take 4 ≠ ascii "KVSD")
  (hkind : fieldAt q 9 1 = 2) (hkeep : s.keeperOf k (fieldAt q 0 2) (fieldAt q 2 2) = some (n, base, some e))

include hhead htag hkind hkeep

theorem execRestoreRequestReceived_no_half (hhalf : s.restoreHalf n base e (fieldAt q 4 5) = none) :
    execRestoreRequestReceived k q s = .next (s.takeMsg k Status.checkMismatch.code) := by
  simp [execRestoreRequestReceived, hhead, htag, hkind, hkeep, hhalf]

/-- A half with that step is sent: its record, then its chunks in order. -/
theorem execRestoreRequestReceived_half {bs r : List Byte} (hhalf : s.restoreHalf n base e (fieldAt q 4 5) = some (bs, r)) :
    execRestoreRequestReceived k q s = .next (((chunksOf chunkSize (bs.length / chunkSize + 1) bs).zipIdx).foldl (fun s x => s.postHeld k none keepTag
      (pieceHeader (fieldAt q 0 2) (fieldAt q 2 2) (fieldAt r 8 5) 2 x.2 bs.length [] ++ x.1)) ((s.takeMsg k 0).postHeld k none keepTag r)) := by
  simp only [execRestoreRequestReceived, hhead, htag, hkind, hkeep, hhalf, ne_eq, not_true_eq_false, or_self, if_false]

end RestoreRequest

/-! ### A restore's messages (R332) -/

/-- The root that a restore is to find, as DIGEST holds it once the message is taken: zeros ask for none. -/
def State.wantedRoot (s : State) (k : Nat) (v : View) (g : Desc) : List Byte := (((s.takeMsg k 0).vread v.ctx v.bound g.base 64).drop 32).take 32

section RestoreChunk

variable {s : State} {k : Nat} {c : Cmd} {d g : Desc} {bs : List Byte} (hhead : s.headIs k bs = true) (hc : s.restoring k = some c)
  (hd : s.desc (c.view s).ctx (c.pkt.at 64 4) = some d) (hg : s.desc (c.view s).ctx (c.pkt.at 72 4) = some g)

include hhead hc hd hg

/-- The first message of a restore: a record of DEST's length with the wanted root is left with the command, and any other ends it. -/
theorem execRestoreChunkReceived_record (hw : c.work = .counts []) :
    execRestoreChunkReceived k bs s = .next (if bs.take 4 = ascii "KVSD" ∧ fieldAt bs 16 8 = d.extent ∧ recordOk bs d.extent = true ∧
        (s.wantedRoot k (c.view s) g = zeros 32 ∨ s.wantedRoot k (c.view s) g = merkleRoot 64 (recordLeaves bs)) then
      (s.takeMsg k 0).updCmd c.queue c.seq fun x => { x with work := .counts (fieldAt bs 8 5 :: (recordLeaves bs).map leNat) }
    else (s.takeMsg k 0).endShard c (restoreFail 0xFFFF_FFFF)) := by
  simp only [execRestoreChunkReceived, hhead, hc, hw, hd, hg, not_true_eq_false, if_false, State.wantedRoot]
  refine congrArg Host.Outcome.next ?_
  rw [← ite_not]
  exact if_congr (by tauto) rfl rfl

/-- The next chunk of a restore is written and checked against its leaf. -/
theorem execRestoreChunkReceived_chunk {step : Nat} {leaves : List Nat} (hw : c.work = .counts (step :: leaves)) (hkind : fieldAt bs 9 1 = 2)
    (hnext : fieldAt bs 12 4 = c.cursor) (hlen : (bs.drop 64).length = min chunkSize (d.extent - chunkSize * c.cursor)) :
    execRestoreChunkReceived k bs s =
      .next ((s.takeMsg k 0).restoreChunk c d (bs.drop 64) (leBytes 32 (leaves.getD c.cursor 0)) fun t c' =>
        if c'.cursor = leaves.length then (t.noteRestore (c.view s).ctx d step).finish c' (Ending.ok c'.cursor 0) else t) := by
  simp only [execRestoreChunkReceived, hhead, hc, hw, hd, hg, hkind, hnext, hlen, ne_eq, not_true_eq_false, or_self, if_false]

end RestoreChunk

/-! ### A fill's requests (R340, R341) -/

theorem planChunks_planOf_nil : planChunks (planOf []) = [] := rfl

section FillRequest

variable {s : State} {k : Nat} {q : Qp} {bs : List Byte} (hhead : s.headIs k bs = true) (hlen : bs.length = 64) (htag : bs.take 4 ≠ ascii "KVSD")
  (hkind : fieldAt bs 9 1 = 3) (hq : s.qp k = some q) (hkeep : s.keepQp q.owner k = true)

include hhead hlen htag hkind hq hkeep

theorem execFillRequestReceived_busy (hbusy : s.spare.state = .taken ∨ s.servesOther k = true) :
    execFillRequestReceived k bs s = .next (s.rnrMsg k) := by
  simp [execFillRequestReceived, hhead, hlen, htag, hkind, hq, hkeep, hbusy]

/-- With no tensor to send, the plan alone answers. -/
theorem execFillRequestReceived_empty (hfree : ¬ (s.spare.state = .taken ∨ s.servesOther k = true)) (hplan : s.planBytes q.owner = []) {t : State}
    (ht : t = (s.takeMsg k 0).postHeld k none keepTag (pieceHeader 0 0 0 3 0xFFFF_FFFF 0 [])) :
    execFillRequestReceived k bs s = .next { t with spare := { t.spare with serve := some { qp := k, sent := 0 } } } := by
  subst ht
  simp [execFillRequestReceived, hhead, hlen, htag, hkind, hq, hkeep, hfree, hplan, planChunks_planOf_nil]

end FillRequest

/-! ### A fill's plan and chunks (R340, R341) -/

/-- The chunks of a fill in order, address and length, from its plan's addresses and sizes. -/
def fillSpans (entries : List (Nat × Nat)) : List (Nat × Nat) :=
  entries.flatMap fun e => (List.range (ceilDiv e.2 chunkSize)).map fun j => (e.1 + chunkSize * j, min chunkSize (e.2 - chunkSize * j))

theorem length_fillSpans (entries : List (Nat × Nat)) :
    (fillSpans entries).length = (entries.flatMap fun e => List.range (ceilDiv e.2 chunkSize)).length := by
  simp [fillSpans, List.length_flatMap]

/-- May a fill write these bytes: a writable allocation of its context holds them. -/
def State.fillWritable (s : State) (n va len : Nat) : Bool :=
  ((Kv.get n s.ctxs).map fun c => c.allocs.any fun a => a.write && decide (a.base ≤ va) && decide (va + len ≤ a.base + a.size)).getD false

theorem State.fillWritable_of_mem {s : State} {n va len : Nat} {c : Ctx} {al : Alloc} (hctx : Kv.get n s.ctxs = some c) (hal : al ∈ c.allocs)
    (hw : al.write = true) (hlo : al.base ≤ va) (hhi : va + len ≤ al.base + al.size) : s.fillWritable n va len = true := by
  simp only [State.fillWritable, hctx, Option.map_some, Option.getD_some, List.any_eq_true]
  exact ⟨al, hal, by simp [hw, hlo, hhi]⟩

section FillChunk

variable {s : State} {f : Fill} {bs : List Byte} (hf : s.spare.fill = some f) (hhead : s.headIs f.qp bs = true) (hkind : fieldAt bs 9 1 = 3)

include hf hhead hkind

theorem execFillChunkReceived_plan (hplan : fieldAt bs 12 4 = 0xFFFF_FFFF) :
    execFillChunkReceived f.qp bs s = .next ((s.takeMsg f.qp 0).fillPlan f (bs.drop 64)) := by
  simp [execFillChunkReceived, hf, hhead, hkind, hplan]

/-- The next chunk of a fill, its leaf right and not the last: it is written, and the cursor moves on. -/
theorem execFillChunkReceived_next {s1 : State} {digest : List Byte} {entries : List (Nat × Nat)} {cursor va len : Nat}
    (hnext : fieldAt bs 12 4 = cursor) (hnot : cursor ≠ 0xFFFF_FFFF) (hplan : f.plan = some entries) (hcur : s.spare.cursor = some (cursor, digest))
    (hspan : (fillSpans entries)[cursor]? = some (va, len)) (hlen : (bs.drop 64).length = len) (hmore : cursor + 1 ≠ (fillSpans entries).length)
    (hw : s.fillWritable f.context va len = true) (htouch : (s.takeMsg f.qp 0).touch f.context [] va len accW false = .ok s1)
    (hleaf : chunkLeaf (bs.drop 64) = (bs.drop 32).take 32) {t : State} (ht : t = s1.vwrite f.context [] va (bs.drop 64)) :
    execFillChunkReceived f.qp bs s = .next (({ t with spare :=
      { t.spare with fill := some { f with again := false }, cursor := some (cursor + 1, digest) } } : State).updCmd f.queue f.seq fun x =>
        { x with cursor := cursor + 1 }) := by
  subst ht
  simp only [fillSpans] at hspan hmore
  simp only [State.fillWritable] at hw
  simp only [execFillChunkReceived, hf, hhead, hkind, hnext, hplan, hcur, hlen, htouch, hleaf, State.takeMsg_spare, State.takeMsg_ctxs, hspan, hw,
    if_neg hnot, if_neg hmore, ne_eq, not_true_eq_false, or_self, if_false]

end FillChunk

/-- Settles O23: each message by the case of its row that its guards select. -/
theorem keepAndFillEventsComplete : Obligations.KeepAndFillEventsComplete := by
  unfold Obligations.KeepAndFillEventsComplete
  refine ⟨?pieceFits, ?pieceNoEntry, ?pieceNoKeeper, ?digest, ?restoreRequest, ?restoreRecord, ?restoreChunk, ?fillRequest, ?fillPlan, ?fillChunk⟩
  case pieceFits =>
    rintro s s1 k n base va len chunk e l piece r hhead htag hkind hkeep rfl rfl hcap hchunk hlen hl rfl rfl htouch
    exact execKeepPieceReceived_fits hhead htag hkind hkeep hcap hchunk hlen hl htouch
  case pieceNoEntry => exact fun s k n base piece hhead htag hkind hkeep => execKeepPieceReceived_no_entry hhead htag hkind hkeep
  case pieceNoKeeper =>
    exact fun s k piece hhead htag hkind hkeep hddr hheld hmsg => execKeepPieceReceived_no_keeper hhead htag hkind hkeep hddr hheld hmsg
  case digest =>
    intro s s1 k n base at' e l r bs hhead htag hkeep hl hr
    refine ⟨execKeepDigestReceived_disagrees hhead htag hkeep hl hr, ?_⟩
    rintro hagree rfl htouch
    exact execKeepDigestReceived_agrees hhead htag hkeep hl hr hagree htouch
  case restoreRequest =>
    exact fun s k n base e q hhead htag hkind hkeep =>
      ⟨execRestoreRequestReceived_no_half hhead htag hkind hkeep, fun bs r => execRestoreRequestReceived_half hhead htag hkind hkeep⟩
  case restoreRecord =>
    rintro s k c d g bs root v hhead hc rfl hw hd hg rfl
    have hrow := execRestoreChunkReceived_record hhead hc hd hg hw
    exact ⟨fun h => hrow.trans (congrArg _ (if_pos h)), fun h => hrow.trans (congrArg _ (if_neg h))⟩
  case restoreChunk =>
    rintro s k c d g bs step leaves v hhead hc rfl hw hd hg hkind hnext hlen
    exact execRestoreChunkReceived_chunk hhead hc hd hg hw hkind hnext hlen
  case fillRequest =>
    intro s k q bs hhead hlen htag hkind hq hkeep
    refine ⟨execFillRequestReceived_busy hhead hlen htag hkind hq hkeep, fun hstate hserve hplan t ht => ?_⟩
    exact execFillRequestReceived_empty hhead hlen htag hkind hq hkeep (by simp [hstate, hserve]) hplan ht
  case fillPlan => exact fun s f bs hf hhead hkind hplan => execFillChunkReceived_plan hf hhead hkind hplan
  case fillChunk =>
    intro s s1 f c al bs digest entries cursor va len hf hhead hkind hnext hnot hplan hcur hspan hlen hmore hctx hal hw hlo hhi htouch hleaf t ht
    have hmore' : cursor + 1 ≠ (fillSpans entries).length := by
      rw [length_fillSpans]
      exact hmore.symm
    exact execFillChunkReceived_next hf hhead hkind hnext hnot hplan hcur hspan hlen hmore' (State.fillWritable_of_mem hctx hal hw hlo hhi) htouch hleaf ht

end Sys2Proof.Machine
end

section
/-! PROOFS. The number formats (02_number_formats.md R24 to R28, R37, R43): what the fields of a code mean, that a value of an IEEE-style format
needs no rounding in it, and what a block scale does to an element. -/

namespace Sys2Proof.Machine

open Sys2Proof

/-! ### The fields of a code (R24) -/

/-- A code is its sign bit, its exponent field and its trailing significand, each at its place. -/
theorem fields_sum {eb mb code : Nat} (heb : 0 < eb) (hcode : code < 2 ^ (eb + mb + 1)) :
    (if bitOf code (eb + mb) then 2 ^ (eb + mb) else 0) + (bitsOf code (eb + mb - 1) mb * 2 ^ mb + code % 2 ^ mb) = code := by
  have hlow : code % 2 ^ (eb + mb) = bitsOf code (eb + mb - 1) mb * 2 ^ mb + code % 2 ^ mb := by
    rw [bitsOf, show eb + mb - 1 + 1 - mb = eb by omega, show 2 ^ (eb + mb) = 2 ^ mb * 2 ^ eb by rw [pow_add, mul_comm], Nat.mod_mul]
    ring
  have hsign : (if bitOf code (eb + mb) then 2 ^ (eb + mb) else 0) = 2 ^ (eb + mb) * (code / 2 ^ (eb + mb)) := by
    have htop : code / 2 ^ (eb + mb) < 2 := Nat.div_lt_of_lt_mul (by rwa [← pow_succ])
    rw [bitOf, Nat.testBit_eq_decide_div_mod_eq, Nat.mod_eq_of_lt htop]
    interval_cases code / 2 ^ (eb + mb) <;> simp
  rw [← hlow, hsign, Nat.div_add_mod]

theorem bitsOf_exponent_lt {eb mb : Nat} (heb : 0 < eb) (code : Nat) : bitsOf code (eb + mb - 1) mb < 2 ^ eb := by
  rw [bitsOf, show eb + mb - 1 + 1 - mb = eb by omega]
  exact Nat.mod_lt _ (by positivity)

/-! ### Values that need no rounding (R37) -/

@[simp] theorem roundAt_self (mode : RMode) (neg : Bool) (r m : Nat) (e : Int) : roundAt mode neg r m e e = m := by
  simp [roundAt]

/-- A subnormal's last place is the least one. -/
theorem lastPlace_of_subnormal {mb m : Nat} {e : Int} (hm : m ≠ 0) (hlt : m < 2 ^ mb) : lastPlace mb e m e = e := by
  have hlog : Nat.log2 m < mb := (Nat.log2_lt hm).2 hlt
  simp only [lastPlace, flog2]
  omega

/-- A normal significand's last place is its own. -/
theorem lastPlace_of_normal {mb fr : Nat} {qmin e : Int} (hlt : fr < 2 ^ mb) (hmin : qmin ≤ e) : lastPlace mb qmin (fr + 2 ^ mb) e = e := by
  have hlog : Nat.log2 (fr + 2 ^ mb) = mb :=
    (Nat.log2_eq_iff (by positivity)).2 ⟨Nat.le_add_left _ _, by rw [pow_succ]; omega⟩
  simp only [lastPlace, flog2, hlog]
  omega

/-! ### IEEE-style formats (R24) -/

/-- The fields of an IEEE-style format fill its width. -/
theorem Fmt.isIeee_params : ∀ {f : Fmt}, f.isIeee = true → ∃ eb mb bias, f.params = (eb, mb, bias) ∧ 0 < eb ∧ f.width = eb + mb + 1
  | .fp64, _ => ⟨11, 52, 1023, rfl, by decide, rfl⟩
  | .fp32, _ => ⟨8, 23, 127, rfl, by decide, rfl⟩
  | .bf16, _ => ⟨8, 7, 127, rfl, by decide, rfl⟩
  | .fp16, _ => ⟨5, 10, 15, rfl, by decide, rfl⟩

section Ieee

variable {f : Fmt} {eb mb bias : Nat} (hp : f.params = (eb, mb, bias))

include hp

theorem decodeIeee_special {code : Nat} (hex : bitsOf code (eb + mb - 1) mb = 2 ^ eb - 1) :
    decodeIeee f code = if code % 2 ^ mb = 0 then .inf (bitOf code (eb + mb)) else .nan (bitOf code (eb + mb)) (code % 2 ^ mb * 2 ^ (52 - mb)) := by
  simp [decodeIeee, hp, hex]

theorem decodeIeee_subnormal {code : Nat} (heb : 0 < eb) (hex : bitsOf code (eb + mb - 1) mb = 0) :
    decodeIeee f code = .num (bitOf code (eb + mb)) (code % 2 ^ mb) (1 - (bias : Int) - mb) := by
  have hones : 0 ≠ 2 ^ eb - 1 := by have := Nat.one_lt_two_pow heb.ne'; omega
  simp [decodeIeee, hp, hex, hones]

theorem decodeIeee_normal {code : Nat} (hones : bitsOf code (eb + mb - 1) mb ≠ 2 ^ eb - 1) (hzero : bitsOf code (eb + mb - 1) mb ≠ 0) :
    decodeIeee f code =
      .num (bitOf code (eb + mb)) (code % 2 ^ mb + 2 ^ mb) ((bitsOf code (eb + mb - 1) mb : Int) - bias - mb) := by
  simp [decodeIeee, hp, hones, hzero]

theorem encodeIeee_inf (mode : RMode) (r : Nat) (s : Bool) :
    encodeIeee f mode r (.inf s) = ((if s then 2 ^ (eb + mb) else 0) + (2 ^ eb - 1) * 2 ^ mb, false) := by
  simp [encodeIeee, hp]

theorem encodeIeee_zero (mode : RMode) (r : Nat) (s : Bool) (e : Int) :
    encodeIeee f mode r (.num s 0 e) = (if s then 2 ^ (eb + mb) else 0, false) := by
  simp [encodeIeee, hp]

/-- A value whose exponent is already its last place, and which lies below the infinity, is not rounded. -/
theorem encodeIeee_of_lastPlace (mode : RMode) (r : Nat) (s : Bool) {m : Nat} {e : Int} (hm : m ≠ 0)
    (hlast : lastPlace mb (1 - (bias : Int) - mb) m e = e) (hfin : m + (e - (1 - (bias : Int) - mb)).toNat * 2 ^ mb < (2 ^ eb - 1) * 2 ^ mb) :
    encodeIeee f mode r (.num s m e) =
      ((if s then 2 ^ (eb + mb) else 0) + (m + (e - (1 - (bias : Int) - mb)).toNat * 2 ^ mb), false) := by
  obtain ⟨m, rfl⟩ := Nat.exists_eq_succ_of_ne_zero hm
  simp [encodeIeee, hp, hlast, Nat.not_le.2 hfin]

/-- Zeros and subnormals: the significand is the code below the sign. -/
theorem encodeIeee_subnormal (mode : RMode) (r : Nat) (s : Bool) {fr : Nat} (heb : 0 < eb) (hfr : fr < 2 ^ mb) :
    encodeIeee f mode r (.num s fr (1 - (bias : Int) - mb)) = ((if s then 2 ^ (eb + mb) else 0) + fr, false) := by
  rcases eq_or_ne fr 0 with rfl | hne
  · simp [encodeIeee_zero hp]
  · have hones : 1 ≤ 2 ^ eb - 1 := Nat.le_sub_one_of_lt (Nat.one_lt_two_pow heb.ne')
    have hfin : fr < (2 ^ eb - 1) * 2 ^ mb := hfr.trans_le (Nat.le_mul_of_pos_left _ hones)
    simpa using encodeIeee_of_lastPlace hp mode r s hne (lastPlace_of_subnormal hne hfr) (by simpa using hfin)

/-- Normal values: the hidden bit carries into the exponent field. -/
theorem encodeIeee_normal (mode : RMode) (r : Nat) (s : Bool) {ex fr : Nat} (hpos : ex ≠ 0) (hex : ex < 2 ^ eb - 1) (hfr : fr < 2 ^ mb) :
    encodeIeee f mode r (.num s (fr + 2 ^ mb) ((ex : Int) - bias - mb)) = ((if s then 2 ^ (eb + mb) else 0) + (ex * 2 ^ mb + fr), false) := by
  obtain ⟨k, rfl⟩ := Nat.exists_eq_succ_of_ne_zero hpos
  have hstep : (((k + 1 : Nat) : Int) - bias - mb - (1 - (bias : Int) - mb)).toNat = k := by omega
  have hcode : fr + 2 ^ mb + k * 2 ^ mb = (k + 1) * 2 ^ mb + fr := by ring
  have hfin : (k + 1) * 2 ^ mb + fr < (2 ^ eb - 1) * 2 ^ mb :=
    calc (k + 1) * 2 ^ mb + fr < (k + 2) * 2 ^ mb := by linarith
      _ ≤ (2 ^ eb - 1) * 2 ^ mb := Nat.mul_le_mul_right _ hex
  have hmin : 1 - (bias : Int) - mb ≤ ((k + 1 : Nat) : Int) - bias - mb := by omega
  rw [encodeIeee_of_lastPlace hp mode r s (by positivity) (lastPlace_of_normal hfr hmin) (by rwa [hstep, hcode]), hstep, hcode]

/-- A code that is no NaN reads back, by its exponent field: all ones is an infinity, zero a zero or a subnormal, any other a normal value. -/
theorem encodeIeee_decodeIeee (mode : RMode) (r : Nat) {code : Nat} (heb : 0 < eb) (hcode : code < 2 ^ (eb + mb + 1))
    (hnan : (decodeIeee f code).isNan = false) : encodeIeee f mode r (decodeIeee f code) = (code, false) := by
  have hsum := fields_sum heb hcode
  have hfr : code % 2 ^ mb < 2 ^ mb := Nat.mod_lt _ (by positivity)
  by_cases hones : bitsOf code (eb + mb - 1) mb = 2 ^ eb - 1
  · rw [decodeIeee_special hp hones] at hnan ⊢
    have hfr0 : code % 2 ^ mb = 0 := by
      by_contra h
      simp [h, FV.isNan] at hnan
    rw [hones, hfr0, add_zero] at hsum
    rw [if_pos hfr0, encodeIeee_inf hp, hsum]
  · by_cases hzero : bitsOf code (eb + mb - 1) mb = 0
    · rw [hzero, zero_mul, zero_add] at hsum
      rw [decodeIeee_subnormal hp heb hzero, encodeIeee_subnormal hp mode r _ heb hfr, hsum]
    · have hlt := bitsOf_exponent_lt (mb := mb) heb code
      rw [decodeIeee_normal hp hones hzero, encodeIeee_normal hp mode r _ hzero (by omega) hfr, hsum]

end Ieee

/-- Settles O56: the fields of an IEEE-style format fill its width, and a code that is no NaN reads back field by field. -/
theorem ieeeCodesReadBack : Obligations.IeeeCodesReadBack := by
  unfold Obligations.IeeeCodesReadBack
  intro f mode r code hf hcode hnan
  obtain ⟨eb, mb, bias, hp, heb, hw⟩ := Fmt.isIeee_params hf
  exact encodeIeee_decodeIeee hp mode r heb (hw ▸ hcode) hnan

/-! ### Block elements and their scales (R25 to R28) -/

/-- A value times 2^k; an infinity and a NaN stay. -/
def FV.timesPow (k : Int) : FV → FV
  | .num g m e => .num g m (e + k)
  | v => v

@[simp] theorem FV.timesPow_num (k : Int) (g : Bool) (m : Nat) (e : Int) : (FV.num g m e).timesPow k = .num g m (e + k) := rfl

@[simp] theorem FV.timesPow_inf (k : Int) (g : Bool) : (FV.inf g).timesPow k = .inf g := rfl

@[simp] theorem FV.timesPow_qnan (k : Int) : FV.qnan.timesPow k = .qnan := rfl

/-- R28: under the scale 2^(c − 127), an element is its value under a scale of 1 times the scale. -/
theorem decodeElem_eq_timesPow (f : Fmt) {c : Nat} (code : Nat) (hc : c < 0xFF) :
    decodeElem f c code = (decodeElem f 127 code).timesPow ((c : Int) - 127) := by
  have hone : 127 ≠ 0xFF := by decide
  simp only [decodeElem, if_neg hc.ne, if_neg hone]
  split_ifs <;> simp

/-- R28: no element has another NaN than the canonical one. -/
theorem decodeElem_of_isNan {f : Fmt} {c code : Nat} (h : (decodeElem f c code).isNan = true) : decodeElem f c code = .qnan := by
  revert h
  simp only [decodeElem]
  split_ifs <;> simp [FV.isNan]

theorem decodeElem_nanScale (f : Fmt) (code : Nat) : decodeElem f 0xFF code = .qnan := by
  simp [decodeElem]

/-- Settles O57: the scale multiplies what is a number and leaves the rest. -/
theorem scalesMultiply : Obligations.ScalesMultiply := by
  unfold Obligations.ScalesMultiply
  intro f c code _ hc
  have hscale := decodeElem_eq_timesPow f code hc
  refine ⟨?number, ?infinity, ?nan, decodeElem_nanScale f code⟩
  case number =>
    intro g m e h
    rw [hscale, h, FV.timesPow_num]
  case infinity =>
    intro g h
    rw [hscale, h, FV.timesPow_inf]
  case nan =>
    intro h
    rw [hscale, decodeElem_of_isNan h, FV.timesPow_qnan]

/-- Settles O55: the table has one entry per code, and each is evaluated. -/
theorem e2m1HasSixteenValues : Obligations.E2m1HasSixteenValues := by
  unfold Obligations.E2m1HasSixteenValues
  decide

end Sys2Proof.Machine
end

section
/-! PROOFS. The commands of plates and routers as they start (06_stencil_conditional_compute.md R105, 10_command_queues.md R165, R166): what ROUTE
begins with. -/

namespace Sys2Proof.Machine

open Sys2Proof

/-! ### Where a command's units wait -/

/-- A place that is absent, hung or between contexts issues nothing. -/
theorem State.issueAt_of_unitHost_none {s : State} {r : UnitRef} (h : s.unitHost r = none) : s.issueAt r = s := by
  rw [State.issueAt, State.issue, h]

/-- The host of a router's units is the router's, whatever the commands are. -/
theorem State.unitHost_begin (s : State) (c : Cmd) (w : Work) (r : UnitRef) : (s.begin c w).unitHost r = s.unitHost r := by
  cases r <;> rfl

/-- A command that begins holds the work that it begins with. -/
theorem findCmd_begin {s : State} {c : Cmd} (h : s.findCmd c.queue c.seq = some c) (w : Work) :
    (s.begin c w).findCmd c.queue c.seq = some { c with phase := .running, work := w } := by
  rw [State.begin, findCmd_updCmd s c.queue c.seq (fun x => { x with phase := .running, work := w }) fun _ => ⟨rfl, rfl⟩, h]
  simp

theorem work_eq_of_begin_eq {s : State} {c : Cmd} {w w' : Work} (h : s.findCmd c.queue c.seq = some c) (he : s.begin c w = s.begin c w') :
    w = w' := by
  have hf := congrArg (State.findCmd · c.queue c.seq) he
  simpa [findCmd_begin h] using hf

/-- ROUTE begins with no token routed (R104, R105). -/
theorem Ready.exec_route {s : State} {p : Packet} {c : Cmd} {x : Ctx} (h : Ready s p 0x0501 c x) (hc : s.checkRoute c (c.view s) p = .ok ()) :
    exec (.route p) s = .next ((s.begin c (.routed [])).issueAt (.router (p.at 64 1))) := by
  have hr : c.unitRef = some (.router (p.at 64 1)) := by
    simp [Cmd.unitRef, Packet.plate?, Packet.tile?, h.pkt, h.opcode]
  have hs := h.startOnPlate (fun s c _ => s.checkRoute c (c.view s) p) (.routed []) (h.awaitsSkip (by decide) (by decide)) hr
  simp only [hc] at hs
  exact congrArg _ hs

namespace RouteStart

/-- The little-endian bytes of a list of 32-bit words. -/
def words (ws : List Nat) : List Byte := ws.flatMap (leBytes 4)

/-- A descriptor for reading and writing at a base address: format, rank and the sizes of up to two dimensions, rows 16 bytes apart. -/
def tensor (base fmt rank a b : Nat) : Desc :=
  { record := words [base, 0, fmt + (rank - 1) * 2 ^ 24, 3, a, b, 0, 0, 1, 0, 0, 0, 0, 0, 0, 0] }

/-- ROUTE of one token to one expert of capacity 8 on router 0, SEQ 1 of queue 0: logits 1, list 2, weights 3, the area of its own 4. -/
def packet : Packet :=
  { queue := 0
    bytes := words ([0x01000501, 128, 1] ++ List.replicate 13 0 ++ [0x00010100, 0, 8, 0, 1, 0, 0, 2, 3, 0, 0, 0, 4, 0, 0, 0]) }

/-- Its command, admitted. -/
def cmd : Cmd :=
  { queue := 0, seq := 1, bytes := packet.bytes, group := 1, phase := .admitted, failed := none, firstPass := none, firstBoundary := none
    quiet := false, cancel := false, fault := none, faultAt := 0, hostWait := none, admitted := 0, place := 0, budget := 0, overruns := 0
    skipSettled := false, bound := [], slot := none, cursor := 0, work := .none }

/-- Context 0 with the operands. -/
def ctx : Ctx :=
  { newCtx true false 0xFFFF 4096 0 0 0 5000 with
    descs := [(1, tensor 0x1000 2 2 1 1), (2, tensor 0x2000 0x22 2 8 2), (3, tensor 0x3000 2 1 8 1), (4, tensor 0x4000 0x20 1 80 1)] }

/-- The part as reset leaves it, with this context and this command: no context holds a router. -/
def state : State := { State.reset with ctxs := [(0, ctx)], cmds := [cmd] }

theorem startable : state.startable packet = some cmd := rfl

theorem ready : Ready state packet 0x0501 cmd ctx where
  opcode := rfl
  start := startable
  ctx := rfl

theorem checkRoute : state.checkRoute cmd (cmd.view state) packet = .ok () := rfl

theorem router : packet.at 64 1 = 0 := rfl

theorem unitHost : state.unitHost (.router 0) = none := rfl

theorem issueAt_begin (w : Work) : (state.begin cmd w).issueAt (.router (packet.at 64 1)) = state.begin cmd w := by
  rw [router]
  exact State.issueAt_of_unitHost_none ((State.unitHost_begin _ _ _ _).trans unitHost)

end RouteStart

/-- Refutes O9: ROUTE begins with the empty list of routed tokens (`Work.routed []`), where the statement has it begin with an empty list of counts
(`Work.counts []`). In `RouteStart.state` no unit is issued, and the command keeps the work that it began with. -/
theorem not_plateCommandsStart : ¬ Obligations.PlateCommandsStart := by
  unfold Obligations.PlateCommandsStart
  rintro ⟨-, -, -, -, -, -, hroute, -, -⟩
  have stated := (hroute _ _ _ _ RouteStart.ready).1 RouteStart.checkRoute
  have starts := RouteStart.ready.exec_route RouteStart.checkRoute
  have same : RouteStart.state.begin RouteStart.cmd (.routed []) = RouteStart.state.begin RouteStart.cmd (.counts []) := by
    simpa only [RouteStart.issueAt_begin, Host.Outcome.next.injEq] using starts.symm.trans stated
  have works : Work.routed [] = Work.counts [] := work_eq_of_begin_eq RouteStart.ready.found.1 same
  cases works

end Sys2Proof.Machine
end

section
/-! PROOFS. The events of arrays, tray and Stipple units on a plate (03_burin_matrix_arrays.md R47, R49, R55, R60, 04_stipple_vector_units.md R65, R70,
R73). -/

namespace Sys2Proof.Machine

open Sys2Proof

/-! ### What products and items read -/

/-- Two states whose readers see the same descriptors and bytes. -/
structure ReadsAlike (s t : State) : Prop where
  view : ∀ c, Cmd.view t c = c.view s
  byte : ∀ n bound va, t.vbyte n bound va = s.vbyte n bound va
  desc : ∀ n h, t.desc n h = s.desc n h

section ReadsAlike

variable {s t : State} (h : ReadsAlike s t)
include h

theorem ReadsAlike.flatElem (v : View) (d : Desc) (n : Nat) : t.flatElem v d n = s.flatElem v d n := by
  simp only [State.flatElem, State.bfxBlock, State.padElem, State.elem, State.elemCode, State.vbits, State.vread, h.byte]

theorem ReadsAlike.matElem (v : View) (m : Mat) (r c : Nat) : t.matElem v m r c = s.matElem v m r c := h.flatElem _ _ _

theorem ReadsAlike.nibble (v : View) (md : Desc) (groups j n : Nat) : t.nibble v md groups j n = s.nibble v md groups j n := by
  simp only [State.nibble, h.byte]

theorem ReadsAlike.statElem (v : View) (q : Product) (d j : Nat) : t.statElem v q d j = s.statElem v q d j := by
  simp only [State.statElem, h.matElem, h.nibble]

theorem ReadsAlike.marked (v : View) (q : Product) (i d : Nat) : t.marked v q i d = s.marked v q i d := by
  simp only [State.marked, State.bitmapBit, h.byte]

theorem ReadsAlike.bankSpecial (v : View) (q : Product) (n b : Nat) : t.bankSpecial v q n b = s.bankSpecial v q n b := by
  simp only [State.bankSpecial, h.matElem]

theorem ReadsAlike.passCell (v : View) (q : Product) (wrap : Bool) (stat : Nat → Option FV) (zero : Nat → Bool) (n i : Nat) (acc : Nat × Nat) :
    t.passCell v q wrap stat zero n i acc = s.passCell v q wrap stat zero n i acc := by
  simp only [State.passCell, h.matElem]

theorem ReadsAlike.prodElem (v : View) (q : Product) (wrap : Bool) (i j : Nat) : t.prodElem v q wrap i j = s.prodElem v q wrap i j := by
  simp only [State.prodElem, State.prodCell, h.passCell, h.statElem, h.marked, h.bankSpecial]

theorem ReadsAlike.accCode (v : View) (d : Option Desc) : t.accCode v d = s.accCode v d := by
  funext i j
  simp only [State.accCode, State.padElemCode, State.elemCode, State.vbits, State.vread, h.byte]

theorem ReadsAlike.stageProduct (v : View) (p : Packet) (st : Stage) : t.stageProduct v p st = s.stageProduct v p st := by
  have hp (q : Product) : t.prodElem v q false = s.prodElem v q false := funext₂ fun i j => h.prodElem v q false i j
  simp only [State.stageProduct, State.mat, h.desc, h.accCode, hp]

theorem ReadsAlike.bankBroken (v : View) (q : Product) (pass block : Nat) : t.bankBroken v q pass block = s.bankBroken v q pass block := by
  simp only [State.bankBroken, h.nibble]

theorem ReadsAlike.tileGrid (v : View) (p : Packet) (stage : Nat) : t.tileGrid v p stage = s.tileGrid v p stage := by
  simp only [State.tileGrid, State.stageDims, State.stippleGrid, h.stageProduct, h.desc]

theorem ReadsAlike.itemBroken (c : Cmd) (i : ArrayItem) (pass : Nat) : t.itemBroken c i pass = s.itemBroken c i pass := by
  simp only [State.itemBroken, h.view, h.stageProduct, h.bankBroken]

theorem ReadsAlike.itemTiles (c : Cmd) (i : ArrayItem) : t.itemTiles c i = s.itemTiles c i := by
  simp only [State.itemTiles, h.view, h.tileGrid]

end ReadsAlike

/-- Readers look at neither the plates, nor the commands, nor the counter of free values. -/
theorem ReadsAlike.of_work (s : State) (free : Nat) (plates : List (Nat × Plate)) (cmds : List Cmd) :
    ReadsAlike s { s with free := free, plates := plates, cmds := cmds } := ⟨fun _ => rfl, fun _ _ _ => rfl, fun _ _ => rfl⟩

/-! ### A plate that changes -/

theorem State.get_updPlate {s : State} {n : Nat} {x : Plate} (h : Kv.get n s.plates = some x) (f : Plate → Plate) :
    Kv.get n (s.updPlate n f).plates = some (f x) := by
  rw [State.updPlate_plates, Kv.get_upd_self, h, Option.map_some]

/-! ### Arrays and their banks (R47, R49) -/

/-- An array that holds an item's one bank keeps it as it takes the item up, and lacks none. -/
theorem BurinArray.passes_begin_of_holdsFor {a : BurinArray} {i : ArrayItem} (h : a.holdsFor i = true) :
    i.passes[(a.begin i).loaded]? = none := by
  simp only [BurinArray.holdsFor, Bool.and_eq_true, decide_eq_true_eq, List.any_eq_true] at h
  obtain ⟨hp, b, hb, hs⟩ := h
  have hb0 : b.pass = 0 := by
    simp only [WeightBank.serves, hp, Bool.and_eq_true, decide_eq_true_eq, List.mem_singleton] at hs
    exact hs.2
  simpa [BurinArray.begin, hp] using ⟨b, hb, hs, hb0.symm⟩

theorem BurinArray.holdsFor_of_begin {a : BurinArray} {i : ArrayItem} (h : (a.begin i).holdsFor i = true) : a.holdsFor i = true := by
  simp only [BurinArray.holdsFor, Bool.and_eq_true, decide_eq_true_eq, List.any_eq_true] at h ⊢
  obtain ⟨hp, b, hb, hs⟩ := h
  exact ⟨hp, b, List.mem_of_mem_filter (List.mem_of_getLast? (Option.mem_toList.1 hb)), hs⟩

@[simp] theorem BurinArray.begin_item (a : BurinArray) (i : ArrayItem) : (a.begin i).item = some i := rfl

@[simp] theorem BurinArray.begin_next (a : BurinArray) (i : ArrayItem) : (a.begin i).next = none := rfl

theorem BurinArray.length_banks_begin (a : BurinArray) (i : ArrayItem) : (a.begin i).banks.length ≤ 1 := Option.length_toList_le

/-- Forming sums changes the accumulator store alone. -/
theorem State.sumItem_frame (s : State) (c : Cmd) (a : BurinArray) (upTo : Nat) :
    s.sumItem c a upTo = { a with acc := (s.sumItem c a upTo).acc, summed := (s.sumItem c a upTo).summed } := by
  unfold State.sumItem
  split <;> rfl

/-- The array once the older of its two banks has been computed with, where the bank's item and command are still there. -/
def State.sumOldest (s : State) (a : BurinArray) (b : WeightBank) : BurinArray :=
  match a.item.bind fun i => s.findCmd i.queue i.seq with
  | some d => if a.item.any b.serves then s.sumItem d a (b.pass + 1) else a
  | none => a

theorem State.sumOldest_frame (s : State) (a : BurinArray) (b : WeightBank) :
    s.sumOldest a b = { a with acc := (s.sumOldest a b).acc, summed := (s.sumOldest a b).summed } := by
  unfold State.sumOldest
  split
  · split
    · exact State.sumItem_frame _ _ _ _
    · rfl
  · rfl

/-- Making room for a bank gives up the older one of two; beside the banks it changes the accumulator store alone. -/
theorem State.freeBank_frame (s : State) (a : BurinArray) : s.freeBank a =
    { a with banks := if 2 ≤ a.banks.length then a.banks.drop 1 else a.banks, acc := (s.freeBank a).acc, summed := (s.freeBank a).summed } := by
  obtain ⟨item, next, banks, loaded, acc, summed, delivered, stalled⟩ := a
  rcases banks with _ | ⟨b, _ | ⟨b', rest⟩⟩
  case nil => rfl
  case cons.nil => rfl
  case cons.cons =>
    generalize ha : BurinArray.mk item next (b :: b' :: rest) loaded acc summed delivered stalled = a
    have hf : s.freeBank a = { s.sumOldest a b with banks := b' :: rest } := by
      subst ha
      rfl
    rw [hf, State.sumOldest_frame]
    subst ha
    simp

/-- The bank of a pass joins those that the array keeps, and a bank of the array's own item is counted. -/
theorem State.loadBank_whole {s : State} {c : Cmd} {i : ArrayItem} {pass : Nat} (h : s.itemBroken c i pass = false) (n k : Nat) (a : BurinArray) :
    ∃ (b : BurinArray) (bank : WeightBank), s.loadBank n k a i c pass = s.updArray n k b ∧ b.item = a.item ∧
      b.loaded = (if a.item = some i then a.loaded + 1 else a.loaded) ∧
      b.banks = (if 2 ≤ a.banks.length then a.banks.drop 1 else a.banks) ++ [bank] ∧
      bank.queue = i.queue ∧ bank.seq = i.seq ∧ bank.stage = i.stage ∧ bank.block = i.block ∧ bank.pass = pass := by
  rw [State.loadBank, if_neg (by simp [h]), State.freeBank_frame]
  exact ⟨_, _, rfl, rfl, rfl, rfl, rfl, rfl, rfl, rfl, rfl⟩

/-! ### An array takes an item (R49) -/

/-- An item that an idle array holds the bank of begins without a load. -/
theorem State.takeItem_held {s : State} {n k : Nat} {a : BurinArray} {c : Cmd} {i : ArrayItem} (hi : a.item = none) (h : a.holdsFor i = true) :
    s.takeItem n k a c i = (s.updCmd c.queue c.seq fun y => y.giveTiles (s.itemTiles c i)).updArray n k (a.begin i) := by
  simp only [State.takeItem, hi, Option.isNone_none, ↓reduceIte, BurinArray.begin_next, BurinArray.passes_begin_of_holdsFor h]

/-- Another item begins with the load of the first bank that the array does not hold. -/
theorem State.takeItem_loads {s : State} {n k pass : Nat} {a : BurinArray} {c : Cmd} {i : ArrayItem} (hi : a.item = none)
    (hp : i.passes[(a.begin i).loaded]? = some pass) : s.takeItem n k a c i =
      (s.updCmd c.queue c.seq fun y => y.giveTiles (s.itemTiles c i)).loadBank n k (a.begin i) i c pass := by
  have hh : ¬ (a.begin i).holdsFor i = true := fun hh => by
    simp [BurinArray.passes_begin_of_holdsFor (BurinArray.holdsFor_of_begin hh)] at hp
  simp only [State.takeItem, hi, Option.isNone_none, ↓reduceIte, BurinArray.begin_next, hp, if_neg hh]

/-- An array whose item is over takes at once only an item whose bank it holds, so that no bank loads: beside its array it changes the tiles given
out and nothing else. -/
theorem State.shiftArray_frame (s : State) (n k : Nat) (a : BurinArray) :
    ∃ (b : BurinArray) (cmds : List Cmd), s.shiftArray n k a = { s with cmds := cmds }.updArray n k b := by
  unfold State.shiftArray
  dsimp only
  split
  case h_2 => exact ⟨_, s.cmds, rfl⟩
  case h_1 c i hc =>
    split
    case isFalse => exact ⟨_, s.cmds, rfl⟩
    case isTrue hh =>
      have hi : a.shift.item = none := by
        by_contra hi
        simp [Option.isNone_iff_eq_none, hi] at hc
      rw [State.takeItem_held hi hh]
      exact ⟨_, _, rfl⟩

/-! ### Stalls (R60) -/

/-- The array may start again. -/
def BurinArray.resume (a : BurinArray) : BurinArray := { a with stalled := false }

/-- The arrays of a plate may start again. -/
def Plate.resume (x : Plate) : Plate := { x with arrays := x.arrays.map .resume }

theorem BurinArray.map_resume {l : List BurinArray} (h : ¬ l.any (·.stalled) = true) : l.map .resume = l := by
  refine (List.map_congr_left fun a ha => ?_).trans (List.map_id l)
  have hs : a.stalled = false := by
    simpa using fun hs => h (List.any_eq_true.2 ⟨a, ha, hs⟩)
  simp [BurinArray.resume, ← hs]

theorem State.countStall_plate {s : State} {n : Nat} {x : Plate} (h : Kv.get n s.plates = some x) :
    ∃ counts : List Nat, Kv.get n (s.countStall n).plates = some { x with counts := counts } :=
  ⟨_, State.get_updPlate (s := (s.draw 32).2) h _⟩

/-- The end of a stall keeps the tray and starts the arrays; beside the plates it draws a free value. -/
theorem State.endStall_spec {s : State} {n : Nat} {x : Plate} (h : Kv.get n s.plates = some x) :
    ∃ (free : Nat) (plates : List (Nat × Plate)) (y : Plate), s.endStall n = { s with free := free, plates := plates } ∧
      Kv.get n plates = some y ∧ y.tray = x.tray ∧ y.arrays = x.arrays.map .resume := by
  by_cases ha : x.arrays.any (·.stalled) = true
  case pos =>
    have he : s.endStall n = (s.countStall n).updPlate n .resume := by
      simp only [State.endStall, h, if_pos ha]
      rfl
    obtain ⟨counts, hc⟩ := State.countStall_plate h
    exact ⟨_, _, _, he, State.get_updPlate hc .resume, rfl, rfl⟩
  case neg =>
    have he : s.endStall n = s := by simp only [State.endStall, h, if_neg ha]
    exact ⟨_, _, x, he, h, rfl, (BurinArray.map_resume ha).symm⟩

/-! ### Banks and items (R47, R49, R55) -/

theorem exec_burinBankLoaded_next {s : State} {n k pass : Nat} {a : BurinArray} {i : ArrayItem} {c : Cmd}
    (ha : (Kv.get n s.plates).bind (fun x => x.arrays[k]?) = some a) (hi : a.item = some i) (hc : s.itemCmd n i = some c)
    (hp : i.passes[a.loaded]? = some pass) : exec (.burinBankLoaded n k) s = .next (s.loadBank n k a i c pass) := by
  show execBurinBankLoaded n k s = _
  simp only [execBurinBankLoaded, ha, hi, hc, hp]

theorem exec_burinBankLoaded_idle {s : State} {n k : Nat} {a : BurinArray} {i : ArrayItem} {c : Cmd}
    (ha : (Kv.get n s.plates).bind (fun x => x.arrays[k]?) = some a) (hi : a.item = none) (hn : s.nextItem n a = some (c, i)) :
    exec (.burinBankLoaded n k) s = .next (s.takeItem n k a c i) := by
  show execBurinBankLoaded n k s = _
  simp only [execBurinBankLoaded, ha, hi, hn]

/-! ### Tile delivery (R49, R60) -/

theorem exec_burinTileDelivery_full {s : State} {n k : Nat} {x : Plate} {a : BurinArray} {i : ArrayItem} {c : Cmd}
    (hx : Kv.get n s.plates = some x) (ha : x.arrays[k]? = some a) (hi : a.item = some i) (hc : s.itemCmd n i = some c)
    (hl : i.passes.length ≤ a.loaded) (ht : 24 ≤ x.tray.length) :
    ∃ upTo : Nat, exec (.burinTileDelivery n k) s = .next (s.updArray n k { s.sumItem c a upTo with stalled := true }) := by
  show ∃ upTo, execBurinTileDelivery n k s = _
  simp only [execBurinTileDelivery, hx, ha, hi, hc, Option.bind_some, Option.map_some, if_neg (Nat.not_lt.2 hl), if_pos ht]
  exact ⟨_, rfl⟩

/-- An array that delivers ends the stall that it was in (R60). -/
def State.afterStall (s : State) (n : Nat) (a : BurinArray) : State := if a.stalled then s.endStall n else s

/-- The next tile of an array's item, from the sums that it holds. -/
def State.arrayTile (s : State) (c : Cmd) (a : BurinArray) (i : ArrayItem) : Tile :=
  let formed := s.chunkTile (c.view s) c.pkt i a.acc a.delivered
  { queue := i.queue, seq := i.seq, stage := i.stage, index := (s.itemTiles c i).getD a.delivered 0, codes := formed.1, sats := formed.2.1 }

/-- A tile takes the last place of the tray. -/
def Plate.putTile (x : Plate) (t : Tile) : Plate := { x with tray := x.tray ++ [{ tile := t, taken := false, spent := false }] }

/-- An array's tile joins the tray, and the free values that its elements take are drawn. -/
def State.putTile (s : State) (n : Nat) (c : Cmd) (a : BurinArray) (i : ArrayItem) : State :=
  { (s.updPlate n fun x => x.putTile (s.arrayTile c a i)) with free := s.free + (s.chunkTile (c.view s) c.pkt i a.acc a.delivered).2.2 }

theorem State.get_putTile {s : State} {n : Nat} {x : Plate} (h : Kv.get n s.plates = some x) (c : Cmd) (a : BurinArray) (i : ArrayItem) :
    Kv.get n (s.putTile n c a i).plates = some (x.putTile (s.arrayTile c a i)) :=
  State.get_updPlate h fun x => x.putTile (s.arrayTile c a i)

/-- The array once it has delivered a tile. -/
def BurinArray.delivers (a : BurinArray) : BurinArray := { a with delivered := a.delivered + 1, stalled := false }

/-- A delivery to a tray with room, by an array that has summed its passes: the array goes on with its item while that has tiles left. -/
def State.deliverTile (s : State) (n k : Nat) (c : Cmd) (a : BurinArray) (i : ArrayItem) : State :=
  let t := (s.afterStall n a).putTile n c a i
  if a.delivered + 1 < (t.itemTiles c i).length then t.updArray n k a.delivers else t.shiftArray n k a.delivers

theorem exec_burinTileDelivery_room {s : State} {n k : Nat} {x : Plate} {a : BurinArray} {i : ArrayItem} {c : Cmd}
    (hx : Kv.get n s.plates = some x) (ha : x.arrays[k]? = some a) (hi : a.item = some i) (hc : s.itemCmd n i = some c)
    (hl : i.passes.length ≤ a.loaded) (ht : x.tray.length < 24) :
    ∃ upTo : Nat, exec (.burinTileDelivery n k) s = .next (s.deliverTile n k c (s.sumItem c a upTo) i) := by
  show ∃ upTo, execBurinTileDelivery n k s = _
  simp only [execBurinTileDelivery, hx, ha, hi, hc, Option.bind_some, Option.map_some, if_neg (Nat.not_lt.2 hl), if_neg (Nat.not_le.2 ht)]
  exact ⟨_, rfl⟩

theorem ReadsAlike.of_afterStall (s : State) (n : Nat) (a : BurinArray) : ReadsAlike s (s.afterStall n a) := by
  unfold State.afterStall State.endStall
  split
  case isFalse => exact .of_work s s.free s.plates s.cmds
  case isTrue =>
    split
    case h_1 => exact .of_work s s.free s.plates s.cmds
    case h_2 =>
      split
      · exact .of_work s _ _ s.cmds
      · exact .of_work s s.free s.plates s.cmds

theorem State.afterStall_spec {s : State} {n : Nat} {x : Plate} (h : Kv.get n s.plates = some x) (a : BurinArray) :
    ∃ (free : Nat) (plates : List (Nat × Plate)) (y : Plate), s.afterStall n a = { s with free := free, plates := plates } ∧
      Kv.get n plates = some y ∧ y.tray = x.tray ∧ y.arrays.length = x.arrays.length := by
  unfold State.afterStall
  split
  case isTrue =>
    obtain ⟨free, plates, y, hs, hy, ht, ha⟩ := State.endStall_spec h
    exact ⟨free, plates, y, hs, hy, ht, by simp [ha]⟩
  case isFalse => exact ⟨_, _, x, rfl, h, rfl, rfl⟩

/-- The state in which an array's tile has joined the tray, where it stands last: plates and free values have changed. -/
theorem State.putTile_spec {s : State} {n : Nat} {x : Plate} (h : Kv.get n s.plates = some x) (c : Cmd) (a : BurinArray) (i : ArrayItem) :
    ∃ (free : Nat) (plates : List (Nat × Plate)) (y : Plate), (s.afterStall n a).putTile n c a i = { s with free := free, plates := plates } ∧
      Kv.get n plates = some y ∧ y.tray = x.tray ++ [{ tile := (s.afterStall n a).arrayTile c a i, taken := false, spent := false }] ∧
      y.arrays.length = x.arrays.length := by
  obtain ⟨free, plates, y, hs, hy, ht, hl⟩ := State.afterStall_spec h a
  have hy' : Kv.get n (s.afterStall n a).plates = some y := by rw [hs, hy]
  refine ⟨((s.afterStall n a).putTile n c a i).free, ((s.afterStall n a).putTile n c a i).plates,
    y.putTile ((s.afterStall n a).arrayTile c a i), ?_, State.get_putTile hy' c a i, ?_, hl⟩
  case refine_2 => rw [Plate.putTile, ht]
  simp only [State.putTile, State.updPlate, hs]

theorem State.index_arrayTile (s : State) (n : Nat) (c : Cmd) (a : BurinArray) (i : ArrayItem) :
    ((s.afterStall n a).arrayTile c a i).index = (s.itemTiles c i).getD a.delivered 0 :=
  congrArg (fun l => l.getD a.delivered 0) ((ReadsAlike.of_afterStall s n a).itemTiles c i)

/-- After a delivery an array goes on with its item while that has tiles left; another changes at most the tiles given out. -/
theorem State.deliverTile_frame (s : State) (n k : Nat) (c : Cmd) (a : BurinArray) (i : ArrayItem) :
    ∃ (cmds : List Cmd) (b : BurinArray),
      s.deliverTile n k c a i = State.updArray { (s.afterStall n a).putTile n c a i with cmds := cmds } n k b ∧
      (a.delivered + 1 < (((s.afterStall n a).putTile n c a i).itemTiles c i).length → b = a.delivers) := by
  unfold State.deliverTile
  dsimp only
  split
  case isTrue => exact ⟨_, _, rfl, fun _ => rfl⟩
  case isFalse hlt =>
    obtain ⟨b, cmds, hb⟩ := State.shiftArray_frame ((s.afterStall n a).putTile n c a i) n k a.delivers
    exact ⟨cmds, b, hb, fun h => absurd h hlt⟩

/-- A delivery stands last in the tray, no byte of memory changes, and an array with tiles left goes on with its item. -/
theorem State.deliverTile_spec {s : State} {n k : Nat} {x : Plate} (h : Kv.get n s.plates = some x) (hk : k < x.arrays.length) (c : Cmd)
    (a : BurinArray) (i : ArrayItem) :
    (Kv.get n (s.deliverTile n k c a i).plates).map (·.tray) =
        some (x.tray ++ [{ tile := (s.afterStall n a).arrayTile c a i, taken := false, spent := false }]) ∧
      (s.deliverTile n k c a i).mem = s.mem ∧
      (a.delivered + 1 < (s.itemTiles c i).length →
        ((Kv.get n (s.deliverTile n k c a i).plates).bind fun y => y.arrays[k]?) = some a.delivers) := by
  obtain ⟨free, plates, y, hput, hy, htray, hlen⟩ := State.putTile_spec h c a i
  obtain ⟨cmds, b, hb, hgo⟩ := s.deliverTile_frame n k c a i
  rw [hput] at hb hgo
  rw [(ReadsAlike.of_work s free plates s.cmds).itemTiles] at hgo
  rw [hb, State.updArray, State.get_updPlate hy]
  refine ⟨congrArg some htray, rfl, fun hleft => ?_⟩
  rw [← hgo hleft]
  exact List.getElem?_set_self (hlen ▸ hk)

/-! ### The tray and the Stipple units (R60, R70, R73) -/

theorem exec_traySlotFree_spent {s : State} {n : Nat} {x : Plate} (h : Kv.get n s.plates = some x) (hs : x.tray.any (·.spent) = true) :
    exec (.traySlotFree n) s = .next ((s.endStall n).updPlate n fun x' => { x' with tray := x.tray.filter fun y => !y.spent }) := by
  show execTraySlotFree n s = _
  simp only [execTraySlotFree, h, if_pos hs]

theorem exec_traySlotFree_done {s : State} {n : Nat} {x : Plate} {slot : TraySlot} (h : Kv.get n s.plates = some x)
    (hs : x.tray.any (·.spent) = false) (hd : x.tray.find? s.slotDone = some slot) :
    exec (.traySlotFree n) s = .next ((s.endStall n).updPlate n fun x' => { x' with tray := x.tray.erase slot }) := by
  show execTraySlotFree n s = _
  simp only [execTraySlotFree, h, hs, Bool.false_eq_true, ↓reduceIte, hd, Option.map_some]

/-- Slots that free leave the tray that is left, and stalled arrays start again. -/
theorem State.endStall_tray {s : State} {n : Nat} {x : Plate} (h : Kv.get n s.plates = some x) (tray : List TraySlot) {t : State}
    (ht : t = (s.endStall n).updPlate n fun y => { y with tray := tray }) :
    (Kv.get n t.plates).map (·.tray) = some tray ∧ (Kv.get n t.plates).map (·.arrays) = some (x.arrays.map .resume) ∧ t.mem = s.mem ∧
      t.cmds = s.cmds := by
  obtain ⟨free, plates, y, hs, hy, -, ha⟩ := State.endStall_spec h
  rw [hs] at ht
  subst ht
  rw [State.get_updPlate hy]
  exact ⟨rfl, congrArg some ha, rfl, rfl⟩

theorem exec_stippleTileTaken_tray {s : State} {n k : Nat} {x : Plate} {tile : Tile} {tray : List TraySlot} (hx : Kv.get n s.plates = some x)
    (hk : k < x.stipples.length) (hfree : (x.stipples.getD k .empty).tile = none) (hfirst : k = 1 → (x.stipples.getD 0 .empty).tile ≠ none)
    (ht : takeOldest x.tray = some (tile, tray)) :
    exec (.stippleTileTaken n k) s = .next (s.updPlate n fun y => { y with tray := tray }.giveUnit k tile) := by
  have hturn : ¬ (x.stipples.length ≤ k ∨ (x.stipples.getD k .empty).tile.isSome = true ∨
      (k = 1 ∧ ¬ (x.stipples.getD 0 .empty).tile.isSome = true)) := by
    rintro (h | h | ⟨h1, h0⟩)
    · omega
    · rw [hfree] at h
      cases h
    · exact hfirst h1 (by simpa using h0)
  show execStippleTileTaken n k s = _
  simp only [execStippleTileTaken, hx, if_neg hturn, ht]

theorem exec_stippleTileWritten_unit {s : State} {n k : Nat} {x : Plate} {u : StippleUnit} {tile : Tile} (hx : Kv.get n s.plates = some x)
    (hu : x.stipples[k]? = some u) (ht : u.tile = some tile) :
    exec (.stippleTileWritten n k) s = .next ((s.writeOne tile).1.updPlate n fun y =>
      { y with tray := spendSlot tile y.tray, stipples := y.stipples.set k { tile := none, regs := (s.writeOne tile).2 } }) := by
  show execStippleTileWritten n k s = _
  simp only [execStippleTileWritten, hx, Option.bind_some, hu, ht]

/-- Settles O11, event by event: a load is `State.loadBank_whole`, a delivery `State.deliverTile_spec`, a freed slot `State.endStall_tray`, and the
two events of the Stipple units are their rows. -/
theorem plateEventsComplete : Obligations.PlateEventsComplete := by
  unfold Obligations.PlateEventsComplete
  refine ⟨?nextBank, ?firstBank, ?delivery, ?slots, ?taken, ?written⟩
  case nextBank =>
    intro s n k pass a i c ha hi hc hp hw
    obtain ⟨b, bank, hb, hitem, hloaded, hbanks, hbank⟩ := State.loadBank_whole hw n k a
    rw [if_pos hi] at hloaded
    exact ⟨b, (exec_burinBankLoaded_next ha hi hc hp).trans (congrArg _ hb), hitem.trans hi, hloaded, bank, hbanks, hbank⟩
  case firstBank =>
    intro s n k pass a i c ha hi hn hp hw
    have hreads : ReadsAlike s (s.updCmd c.queue c.seq fun y => y.giveTiles (s.itemTiles c i)) := .of_work s s.free s.plates _
    obtain ⟨b, bank, hb, hitem, hloaded, hbanks, -, -, -, -, hpass⟩ := State.loadBank_whole ((hreads.itemBroken c i pass).trans hw) n k (a.begin i)
    have hone := a.length_banks_begin i
    rw [if_neg (by omega)] at hbanks
    refine ⟨b, ?_, hitem, by simpa using hloaded, by simp [hbanks, hpass]⟩
    rw [exec_burinBankLoaded_idle ha hi hn, State.takeItem_loads hi hp, hb]
  case delivery =>
    intro s n k x a i c hx ha hi hc hl
    refine ⟨fun htray => ?_, fun htray => ?_⟩
    · obtain ⟨upTo, he⟩ := exec_burinTileDelivery_room hx ha hi hc hl htray
      have hitem : (s.sumItem c a upTo).item = some i := by rw [State.sumItem_frame, hi]
      have hdone : (s.sumItem c a upTo).delivered = a.delivered := by rw [State.sumItem_frame]
      obtain ⟨hlast, hmem, hgo⟩ := State.deliverTile_spec hx (List.getElem?_eq_some_iff.1 ha).1 c (s.sumItem c a upTo) i
      have hindex := s.index_arrayTile n c (s.sumItem c a upTo) i
      rw [hdone] at hindex hgo
      exact ⟨_, _, he, hlast, rfl, rfl, rfl, hindex, hmem, fun hleft => ⟨_, hgo hleft, hitem, congrArg (· + 1) hdone, rfl⟩⟩
    · obtain ⟨upTo, he⟩ := exec_burinTileDelivery_full hx ha hi hc hl htray
      exact ⟨_, he, by rw [State.sumItem_frame, hi], rfl⟩
  case slots =>
    intro s n x hx
    refine ⟨fun hspent => ⟨_, exec_traySlotFree_spent hx hspent, State.endStall_tray hx _ rfl⟩, fun slot hspent hdone => ?_⟩
    exact ⟨_, exec_traySlotFree_done hx hspent hdone, State.endStall_tray hx _ rfl⟩
  case taken =>
    intro s n k x tile tray hx hk hfree hfirst ht
    exact exec_stippleTileTaken_tray hx hk hfree hfirst ht
  case written =>
    intro s n k x u tile hx hu ht
    exact exec_stippleTileWritten_unit hx hu ht

end Sys2Proof.Machine
end

section
/-! PROOFS. The ends of dispatch units on plates and routers (04_stipple_vector_units.md R73, R76, 09_strokes.md R143, R147, 10_command_queues.md
R184). -/

namespace Sys2Proof.Machine

open Sys2Proof

/-! ### Work that is done -/

theorem State.endWork_tiles {s : State} {c : Cmd} (h : c.pkt.opcode = 0x0301 ∨ c.pkt.opcode = 0x0302) : s.endWork c = s.finishTiles c := by
  rcases h with h | h <;> simp only [State.endWork, h]

theorem State.endWork_aquatint {s : State} {c : Cmd} (hlo : 0x0303 ≤ c.pkt.opcode) (hhi : c.pkt.opcode ≤ 0x0305) :
    s.endWork c = (s, aquatintEnding c) := by
  obtain h | h | h : c.pkt.opcode = 0x0303 ∨ c.pkt.opcode = 0x0304 ∨ c.pkt.opcode = 0x0305 := by omega
  all_goals simp only [State.endWork, h]

theorem State.endWork_tracer {s : State} {c : Cmd} (h : c.pkt.opcode = 0x0401) : s.endWork c = (s, tracerEnding c) := by
  simp only [State.endWork, h]

theorem State.endWork_stencil {s : State} {c : Cmd} (hlo : 0x0501 ≤ c.pkt.opcode) (hhi : c.pkt.opcode ≤ 0x0503) :
    s.endWork c = (s, stencilEnding c) := by
  obtain h | h | h : c.pkt.opcode = 0x0501 ∨ c.pkt.opcode = 0x0502 ∨ c.pkt.opcode = 0x0503 := by omega
  all_goals simp only [State.endWork, h]

/-- A unit that is over, of a command whose work is done, ends the command on its place with what the work leaves. -/
theorem exec_dispatchUnitEnd_done {s t : State} {u : UnitRef} {run : Nat} {x : DispatchUnit} {c : Cmd} {e : Ending}
    (hx : (s.unitsOf u).find? (s.unitOver u) = some x) (hc : (s.countBusy u run).findCmd x.queue x.seq = some c)
    (hw : (s.countBusy u run).workDone c = true) (he : (s.countBusy u run).endWork c = (t, e)) :
    exec (.dispatchUnitEnd u run) s = .next ((t.endOnPlate c e).lateRouter u) := by
  show execDispatchUnitEnd u run s = _
  simp only [execDispatchUnitEnd, hx, hc, if_pos hw, he]

/-! ### Work that is left -/

/-- A command's unit is taken off, and the command has its full budget again and no overruns (R143, R147). -/
def State.restoreUnit (s : State) (c : Cmd) : State :=
  (s.removeUnit c).updCmd c.queue c.seq fun y => { y with budget := (s.removeUnit c).fullBudget c, overruns := 0 }

theorem exec_dispatchUnitEnd_left {s : State} {u : UnitRef} {run : Nat} {x : DispatchUnit} {c : Cmd}
    (hx : (s.unitsOf u).find? (s.unitOver u) = some x) (hc : (s.countBusy u run).findCmd x.queue x.seq = some c)
    (hw : (s.countBusy u run).workDone c = false) : exec (.dispatchUnitEnd u run) s = .next ((s.countBusy u run).unitEnds u c) := by
  show execDispatchUnitEnd u run s = _
  simp only [execDispatchUnitEnd, hx, hc, hw, Bool.false_eq_true, ↓reduceIte]

/-- Where no unit is over, the unit of a STIPPLE command that has spent its budget ends, and the Stipple units give back its tiles (R73). -/
theorem exec_dispatchUnitEnd_spent {s : State} {n run : Nat} {c : Cmd} (hx : (s.unitsOf (.plate n)).find? (s.unitOver (.plate n)) = none)
    (hc : s.spentUnit (.plate n) run = some c) : exec (.dispatchUnitEnd (.plate n) run) s =
      .next (((s.countBusy (.plate n) run).emptyUnits n [] fun y => decide (y.queue = c.queue ∧ y.seq = c.seq)).unitEnds (.plate n) c) := by
  show execDispatchUnitEnd (.plate n) run s = _
  simp only [execDispatchUnitEnd, hx, hc]

/-- A command that is not cancelled, or whose boundary has not come, leaves the place to the next unit that fits. -/
theorem State.unitEnds_issues {s : State} {u : UnitRef} {c : Cmd} (h : c.cancel = false ∨ (s.restoreUnit c).isDue u = false) :
    s.unitEnds u c = ((s.restoreUnit c).lateRouter u).issueAt u := by
  have hn : ¬ (c.cancel = true ∧ (s.restoreUnit c).isDue u = true) := by
    rintro ⟨hc, hd⟩
    rcases h with h | h <;> simp_all
  exact if_neg hn

/-- A cancelled command stops at the boundary that has come (R184). -/
theorem State.unitEnds_stops {s : State} {u : UnitRef} {c : Cmd} (hc : c.cancel = true) (hd : (s.restoreUnit c).isDue u = true) :
    s.unitEnds u c = ((s.restoreUnit c).preempt c ((s.restoreUnit c).stopEnding c)).lateRouter u :=
  if_pos ⟨hc, hd⟩

/-- Settles O10: a unit that is over ends its command by the kind of its work, or gives way to the next unit; so does a STIPPLE command's unit
whose budget is spent. -/
theorem unitsEnd : Obligations.UnitsEnd := by
  unfold Obligations.UnitsEnd
  refine ⟨fun s u run x c hx hc => ⟨fun hw => ?done, fun hw => ?left⟩, ?spent⟩
  case done =>
    refine ⟨fun h => ?_, fun hlo hhi => ?_, fun hlo hhi => ?_, fun h => ?_⟩
    · exact exec_dispatchUnitEnd_done hx hc hw (State.endWork_tracer h)
    · exact exec_dispatchUnitEnd_done hx hc hw (State.endWork_aquatint hlo hhi)
    · exact exec_dispatchUnitEnd_done hx hc hw (State.endWork_stencil hlo hhi)
    · exact ⟨_, _, rfl, exec_dispatchUnitEnd_done hx hc hw (State.endWork_tiles h)⟩
  case left =>
    have he := exec_dispatchUnitEnd_left hx hc hw
    refine ⟨(s.countBusy u run).restoreUnit c, rfl, fun h => ?_, fun hcancel hdue => ?_⟩
    · rw [he, State.unitEnds_issues h]
    · rw [he, State.unitEnds_stops hcancel hdue]
  case spent =>
    intro s n run c hx hc hcancel
    refine ⟨_, _, ?_, rfl, rfl⟩
    rw [exec_dispatchUnitEnd_spent hx hc, State.unitEnds_issues (.inl hcancel)]
    rfl

end Sys2Proof.Machine
end

section
/-! PROOFS. What the writes of tiles change in the state: stored bytes (02_number_formats.md R86, R87, 04_stipple_vector_units.md R73, R75). -/

namespace Sys2Proof.Machine

open Sys2Proof

/-- A fold whose steps keep a reflexive and transitive relation keeps it; p finds the state in what the fold carries. -/
theorem foldl_related {α σ : Type} {R : State → State → Prop} (hrefl : ∀ s, R s s) (htrans : ∀ {s t u}, R s t → R t u → R s u)
    (p : σ → State) {f : σ → α → σ} (hf : ∀ r a, R (p r) (p (f r a))) (l : List α) (r : σ) : R (p r) (p (l.foldl f r)) :=
  List.foldlRecOn l f (motive := fun x => R (p r) (p x)) (hrefl _) fun x hx a _ => htrans hx (hf x a)

/-- t is s after writes of the part: memory, and what is held for the host, have changed. -/
def Stores (s t : State) : Prop := ∃ (mem : Memory) (host : HostPort), t = { s with mem := mem, host := host }

theorem Stores.refl (s : State) : Stores s s := ⟨_, _, rfl⟩

theorem Stores.trans {s t u : State} : Stores s t → Stores t u → Stores s u := by
  rintro ⟨_, _, rfl⟩ ⟨_, _, rfl⟩
  exact ⟨_, _, rfl⟩

theorem Stores.foldl {α : Type} {f : State → α → State} (hf : ∀ s a, Stores s (f s a)) (l : List α) (s : State) :
    Stores s (l.foldl f s) :=
  foldl_related Stores.refl Stores.trans id hf l s

theorem Stores.foldl_fst {α β : Type} {f : State × β → α → State × β} (hf : ∀ r a, Stores r.1 (f r a).1) (l : List α) (r : State × β) :
    Stores r.1 (l.foldl f r).1 :=
  foldl_related Stores.refl Stores.trans Prod.fst hf l r

theorem State.physWrite_stores (s : State) (pa : Nat) (bs : List Byte) : Stores s (s.physWrite pa bs) := by
  unfold State.physWrite
  split <;> exact ⟨_, _, rfl⟩

theorem State.vwrite_stores (s : State) (n : Nat) (bound : List Bound) (va : Nat) (bs : List Byte) : Stores s (s.vwrite n bound va bs) := by
  refine Stores.foldl (fun t x => ?_) _ s
  split
  · exact State.physWrite_stores _ _ _
  · exact .refl t

/-! ### Elements and blocks -/

theorem State.putBits_stores (s : State) (v : View) (bit w code : Nat) : Stores s (s.putBits v bit w code) :=
  State.vwrite_stores _ _ _ _ _

theorem State.fillEdge_stores (s : State) (v : View) (d : Desc) (flat : Nat) : Stores s (s.fillEdge v d flat) :=
  (Stores.foldl (fun _ _ => State.putBits_stores _ v _ _ 0) _ s).trans (Stores.foldl (fun _ _ => State.vwrite_stores _ _ _ _ _) _ _)

/-- An element's code, with what fills the storage behind it. -/
theorem State.putFilled_stores (s : State) (v : View) (d : Desc) (bit w code flat : Nat) :
    Stores s ((s.putBits v bit w code).fillEdge v d flat) :=
  (s.putBits_stores v bit w code).trans (State.fillEdge_stores _ _ _ _)

theorem State.putBlock_stores (s : State) (v : View) (d : Desc) (m : Modes) (xp : Nat) (ps : List Put) :
    Stores s (s.putBlock v d m xp ps).1 := by
  unfold State.putBlock
  split
  case h_1 => exact .refl s
  case h_2 p _ =>
    split_ifs with hbfx hblock
    · exact (s.vwrite_stores _ _ _ _).trans (State.fillEdge_stores _ _ _ _)
    · refine Stores.trans ?_ (Stores.foldl (fun s x => s.putFilled_stores v d _ _ _ _) _ _)
      split
      · exact s.vwrite_stores _ _ _ _
      · exact .refl s
    · exact s.putFilled_stores _ _ _ _ _ _

theorem State.putElems_stores (s : State) (v : View) (d : Desc) (m : Modes) (xp : Nat) (ps : List Put) :
    Stores s (s.putElems v d m xp ps).1 := by
  refine Stores.foldl_fst (fun r st => ?_) _ (s, _)
  dsimp only
  split_ifs
  · exact State.putBlock_stores _ _ _ _ _ _
  · exact .refl _

/-! ### Bitmaps -/

theorem State.setBitmapBit_stores (s : State) (v : View) (base k h b : Nat) (on : Bool) : Stores s (s.setBitmapBit v base k h b on) :=
  State.vwrite_stores _ _ _ _ _

theorem State.markBlock_stores (s : State) (v : View) (base k h b : Nat) (on : Bool) : Stores s (s.markBlock v base k h b on) := by
  unfold State.markBlock
  dsimp only
  split_ifs
  · exact (s.setBitmapBit_stores v base k h b on).trans (Stores.foldl (fun s i => s.setBitmapBit_stores v base k h _ false) _ _)
  · exact s.setBitmapBit_stores v base k h b on

theorem State.tileBitmap_stores (s : State) (v : View) (d bm : Desc) (box : TileBox) (transposed : Bool) :
    Stores s (s.tileBitmap v d bm box transposed).1 := by
  refine Stores.foldl_fst (fun r i => ?_) _ (s, 0)
  dsimp only
  split_ifs with ht hrows hcols
  · exact .refl _
  · exact State.markBlock_stores _ _ _ _ _ _ _
  · exact .refl _
  · exact State.markBlock_stores _ _ _ _ _ _ _

theorem State.markTiles_stores (s : State) (v : View) (d bm : Desc) (transposed : Bool) (rows cols : Nat) (tiles : List Nat) :
    Stores s (s.markTiles v d bm transposed rows cols tiles).1 := by
  refine Stores.foldl_fst (fun r i => ?_) _ (s, 0)
  exact r.1.tileBitmap_stores v d bm (tileBox rows cols i) transposed

/-! ### Tiles -/

theorem State.writeRaw_stores (s : State) (v : View) (p : Packet) (key : List Byte) (st : Stage) (n : Nat) (codes : List Nat) :
    Stores s (s.writeRaw v p key st n codes) := by
  unfold State.writeRaw
  dsimp only
  split
  · exact .refl s
  · exact Stores.foldl (fun s x => s.putFilled_stores _ _ _ _ _ _) _ s

theorem State.writeTile_stores (s : State) (v : EpiEnv) (t : TileRun) (index : Nat) (w : TileWork) :
    Stores s (s.writeTile v t index w).1 := by
  unfold State.writeTile
  dsimp only
  split
  · exact .refl s
  · split
    · exact .refl s
    · split
      · exact (s.putElems_stores _ _ _ _ _).trans (State.markTiles_stores _ _ _ _ _ _ _ _)
      · exact s.putElems_stores _ _ _ _ _

/-- A tile that leaves the write stage stores bytes, and its command's work and cursor go on. -/
theorem State.writeOne_spec (s : State) (tile : Tile) : (s.writeOne tile).1 = s ∨ ∃ (t : State) (q k : Nat) (w : Work),
    Stores s t ∧ (s.writeOne tile).1 = t.updCmd q k fun c => { c with work := w, cursor := c.cursor + 1 } := by
  unfold State.writeOne
  split
  · exact .inl rfl
  · split
    · split_ifs
      · exact .inl rfl
      · refine .inr ⟨_, _, _, _, ?_, rfl⟩
        split_ifs
        · exact State.writeRaw_stores _ _ _ _ _ _ _
        · exact State.writeTile_stores _ _ _ _ _
    · exact .inl rfl

end Sys2Proof.Machine
end

section
/-! PROOFS. Strokes on plates: handovers, overruns, hangs and skipped commands (04_stipple_vector_units.md R79, 09_strokes.md R140, R141, R145 to
R148). -/

namespace Sys2Proof.Kv

/-- An entry of a table that is mapped under its numbers. -/
theorem get_map {α β : Type} (f : α → β) (k : Nat) (t : List (Nat × α)) : get k (t.map fun e => (e.1, f e.2)) = (get k t).map f := by
  induction t with
  | nil => rfl
  | cons e t ih =>
    rw [List.map_cons, get_cons, ih]
    by_cases h : e.1 = k <;> simp [get, h]

end Sys2Proof.Kv

namespace Sys2Proof.Machine

open Sys2Proof

/-! ### What a forced drain leaves of commands and plates (R61, R145) -/

/-- What an overrun reads of a command: its numbers, whether it is cancelled, and its overruns in a row. -/
def Cmd.turn (c : Cmd) : Nat × Nat × Bool × Nat := (c.queue, c.seq, c.cancel, c.overruns)

/-- t is in the stroke of s, with its plates, and its commands stand as they do in s. -/
structure SameTurns (s t : State) : Prop where
  strk : t.strk = s.strk
  plates : ∀ n, (Kv.get n t.plates).isSome = (Kv.get n s.plates).isSome
  turns : t.cmds.map Cmd.turn = s.cmds.map Cmd.turn

theorem SameTurns.refl (s : State) : SameTurns s s := ⟨rfl, fun _ => rfl, rfl⟩

theorem SameTurns.trans {s t u : State} (h : SameTurns s t) (h' : SameTurns t u) : SameTurns s u :=
  ⟨h'.strk.trans h.strk, fun n => (h'.plates n).trans (h.plates n), h'.turns.trans h.turns⟩

theorem SameTurns.foldl {α : Type} {f : State → α → State} (hf : ∀ s a, SameTurns s (f s a)) (l : List α) (s : State) :
    SameTurns s (l.foldl f s) :=
  foldl_related SameTurns.refl SameTurns.trans id hf l s

theorem Stores.sameTurns {s t : State} : Stores s t → SameTurns s t := by
  rintro ⟨_, _, rfl⟩
  exact ⟨rfl, fun _ => rfl, rfl⟩

theorem State.draw_sameTurns (s : State) (w : Nat) : SameTurns s (s.draw w).2 := ⟨rfl, fun _ => rfl, rfl⟩

theorem State.updPlate_sameTurns (s : State) (n : Nat) (f : Plate → Plate) : SameTurns s (s.updPlate n f) where
  strk := rfl
  plates j := by
    by_cases h : j = n
    · rw [h, State.updPlate_plates, Kv.get_upd_self, Option.isSome_map]
    · rw [State.updPlate_plates, Kv.get_upd_ne h]
  turns := rfl

theorem State.updCmd_sameTurns (s : State) (q k : Nat) {f : Cmd → Cmd} (hf : ∀ c, (f c).turn = c.turn) : SameTurns s (s.updCmd q k f) where
  strk := rfl
  plates _ := rfl
  turns := by
    simp only [State.updCmd, List.map_map]
    refine List.map_congr_left fun c _ => ?_
    by_cases h : c.queue = q ∧ c.seq = k <;> simp [h, hf]

theorem Cmd.takeTiles_turn (c : Cmd) (stage : Nat) (l : List Nat) : (c.takeTiles stage l).turn = c.turn := by
  unfold Cmd.takeTiles
  split
  · split_ifs <;> rfl
  · rfl

theorem State.endStall_sameTurns (s : State) (n : Nat) : SameTurns s (s.endStall n) := by
  unfold State.endStall
  split
  · exact .refl s
  · split_ifs
    · exact ((s.draw_sameTurns 32).trans (State.updPlate_sameTurns _ _ _)).trans (State.updPlate_sameTurns _ _ _)
    · exact .refl s

theorem State.stopArrays_sameTurns (s : State) (n : Nat) : SameTurns s (s.stopArrays n) := by
  unfold State.stopArrays
  dsimp only
  split
  · exact .refl s
  · refine ((s.endStall_sameTurns n).trans (SameTurns.foldl (fun s g => ?_) _ _)).trans (State.updPlate_sameTurns _ _ _)
    split
    · exact s.updCmd_sameTurns _ _ fun c => c.takeTiles_turn _ _
    · exact .refl s

theorem State.writeOne_sameTurns (s : State) (tile : Tile) : SameTurns s (s.writeOne tile).1 := by
  obtain h | ⟨t, q, k, w, ht, h⟩ := s.writeOne_spec tile
  · rw [h]
    exact .refl s
  · rw [h]
    exact ht.sameTurns.trans (t.updCmd_sameTurns q k fun _ => rfl)

theorem State.emptyUnits_sameTurns (s : State) (n : Nat) (live : List Tile) (mine : Tile → Bool) : SameTurns s (s.emptyUnits n live mine) := by
  unfold State.emptyUnits
  dsimp only
  split
  · exact .refl s
  · refine (SameTurns.foldl (fun s t => ?_) _ s).trans (State.updPlate_sameTurns _ _ _)
    split_ifs
    · exact .refl s
    · exact s.updCmd_sameTurns _ _ fun c => c.takeTiles_turn _ _

/-- A plate's tray drains into a state from which only the tray is then emptied. -/
theorem State.drainTray_spec {s : State} {n : Nat} {x : Plate} (h : Kv.get n s.plates = some x) :
    ∃ t : State, SameTurns s t ∧ s.drainTray n = t.updPlate n fun y => { y with tray := [] } := by
  simp only [State.drainTray, h]
  exact ⟨_, (SameTurns.foldl (fun s t => s.writeOne_sameTurns t) _ s).trans (State.emptyUnits_sameTurns _ _ _ _), rfl⟩

/-- A plate's drain is forced: arrays stop, the tray is written, its units are gone (R61, R145). -/
def State.forceDrain (s : State) (n run : Nat) : State :=
  ((((s.stopArrays n).drainTray n).setUnits (.plate n) []).countBusy (.plate n) run).updPlate n fun y => { y with drained := true, late := true }

theorem State.forceDrain_spec {s : State} {n : Nat} {x : Plate} (h : Kv.get n s.plates = some x) (run : Nat) :
    SameTurns s (s.forceDrain n run) ∧
      (Kv.get n (s.forceDrain n run).plates).map (fun y => (y.units, y.tray, y.drained)) = some ([], [], true) := by
  have hstop := s.stopArrays_sameTurns n
  obtain ⟨y, hy⟩ := Option.isSome_iff_exists.1 ((hstop.plates n).trans (Option.isSome_of_eq_some h))
  obtain ⟨t, ht, hdrain⟩ := State.drainTray_spec hy
  obtain ⟨z, hz⟩ := Option.isSome_iff_exists.1 ((ht.plates n).trans (Option.isSome_of_eq_some hy))
  rw [State.forceDrain, hdrain]
  constructor
  · exact (((hstop.trans ht).trans (State.updPlate_sameTurns _ _ _)).trans (State.updPlate_sameTurns _ _ _)).trans
      ((State.updPlate_sameTurns _ _ _).trans (State.updPlate_sameTurns _ _ _))
  · simp [State.setUnits, State.countBusy, Kv.get_upd_self, hz]

/-- The command of a number stands as before. -/
theorem SameTurns.findCmd {s t : State} (h : SameTurns s t) (q k : Nat) : (t.findCmd q k).map Cmd.turn = (s.findCmd q k).map Cmd.turn := by
  have hfind (u : State) : (u.findCmd q k).map Cmd.turn = (u.cmds.map Cmd.turn).find? fun x => decide (x.1 = q ∧ x.2.1 = k) := by
    rw [List.find?_map]
    rfl
  rw [hfind, hfind, h.turns]

theorem State.numbers_of_findCmd {s : State} {q k : Nat} {c : Cmd} (h : s.findCmd q k = some c) : c.queue = q ∧ c.seq = k := by
  simpa using List.find?_some h

/-! ### Overruns (R145 to R147) -/

theorem exec_strokeOverrun_plate {s : State} {n : Nat} {x : Plate} (hx : Kv.get n s.plates = some x) (hdue : x.due = true)
    (hu : x.units ≠ []) (run : Nat) : exec (.strokeOverrun (.plate n) run) s =
      .next (x.units.foldl (fun s u => s.overrunUnit (.plate n) u) (s.forceDrain n run)) := by
  have hgo : ¬ (¬ s.isDue (.plate n) = true ∨ x.units.isEmpty = true) := by
    simp [State.isDue, hx, hdue, hu]
  show execStrokeOverrun (.plate n) run s = _
  have hunits : s.unitsOf (.plate n) = x.units := by simp [State.unitsOf, hx]
  simp only [execStrokeOverrun, hunits, if_neg hgo]
  rfl

/-- A record of a kind other than MEDIA counts no error at a plate. -/
theorem State.faultRecord_plates (s : State) (n : Nat) {f : FaultRecord} (h : f.kind ≠ .media) : (s.faultRecord n f).plates = s.plates := by
  have hlog (t : State) (a b d e g i : Nat) : (t.logEvent a b d e g i).plates = t.plates := by rw [logEvent_frame]
  have hraise (t : State) (v : Nat) : (t.raise v).plates = t.plates := by rw [raise_frame]
  unfold State.faultRecord
  simp only [h, or_false, ↓reduceIte]
  split
  all_goals split_ifs
  all_goals simp only [hlog, hraise, State.updCtx_plates]
  all_goals rfl

/-- The record, the log entry and the counts of an overrun (R146). -/
def State.recordOverrun (s : State) (r : UnitRef) (u : DispatchUnit) (c : Cmd) : State :=
  let s0 := s.updCmd c.queue c.seq Cmd.leaveUnit
  let n := (c.view s0).ctx
  let s1 := s0.faultRecord n
    { mkFault .strokeOverrun 0 c.engine.1 c.engine.2 {} c.queue c.seq c.cursor with estimate := u.estimate, run := s.overrunRun u, isOpen := false }
  let s2 := (s1.logEvent 0x0401 c.engine.1 (placeIndex r) n c.queue c.seq).updCtx n fun x =>
    { x with counts := x.counts.set 2 (satAdd (x.counts.getD 2 0) 1 (2 ^ 32 - 1)) }
  { s2 with power := { s2.power with counts := s2.power.counts.set 1 ((s2.power.counts.getD 1 0 + 1) % 2 ^ 64) } }

/-- Recording takes the unit off its command, and leaves the other commands and every plate. -/
theorem State.recordOverrun_frame (s : State) (r : UnitRef) (u : DispatchUnit) (c : Cmd) :
    (s.recordOverrun r u c).plates = s.plates ∧ (s.recordOverrun r u c).cmds = (s.updCmd c.queue c.seq Cmd.leaveUnit).cmds := by
  unfold State.recordOverrun
  dsimp only
  rw [State.updCtx_plates, State.updCtx_cmds, logEvent_frame]
  refine ⟨State.faultRecord_plates _ _ nofun, ?_⟩
  rw [faultRecord_frame]

/-- The ending of a command at its third overrun in a row (R147). -/
def State.overrunEnding (s : State) (u : DispatchUnit) (c : Cmd) : Ending :=
  { status := .strokeOverrun, detail := 20, r0 := s.overrunRun u % 2 ^ 32, r1 := c.cursor % 2 ^ 32 }

theorem State.overrunUnit_eq {s : State} {r : UnitRef} {u : DispatchUnit} {c : Cmd} (hc : s.findCmd u.queue u.seq = some c)
    (hcancel : c.cancel = false) : s.overrunUnit r u =
      if 3 ≤ c.overruns + 1 then (s.recordOverrun r u c).finish c (s.overrunEnding u c)
      else (s.recordOverrun r u c).updCmd c.queue c.seq fun y => { y with overruns := y.overruns + 1, budget := y.budget / 2 } := by
  simp only [State.overrunUnit, hc, hcancel, Bool.false_eq_true, ↓reduceIte]
  rfl

theorem State.overrunUnit_plates {s : State} {u : DispatchUnit} {c : Cmd} (hc : s.findCmd u.queue u.seq = some c) (hcancel : c.cancel = false)
    (r : UnitRef) : (s.overrunUnit r u).plates = s.plates := by
  rw [State.overrunUnit_eq hc hcancel]
  split_ifs
  · exact (s.recordOverrun_frame r u c).1
  · exact (s.recordOverrun_frame r u c).1

/-- Recording an overrun leaves the command where it is found, without its unit. -/
theorem State.findCmd_recordOverrun {s : State} {u : DispatchUnit} {c : Cmd} (hc : s.findCmd u.queue u.seq = some c) (r : UnitRef) :
    (s.recordOverrun r u c).findCmd c.queue c.seq = some c.leaveUnit := by
  obtain ⟨hq, hk⟩ := State.numbers_of_findCmd hc
  have hcmds : (s.recordOverrun r u c).findCmd c.queue c.seq = (s.updCmd c.queue c.seq Cmd.leaveUnit).findCmd c.queue c.seq :=
    congrArg (List.find? _) (s.recordOverrun_frame r u c).2
  rw [hcmds, findCmd_updCmd s _ _ Cmd.leaveUnit fun _ => ⟨rfl, rfl⟩, hq, hk, hc]
  simp [hq, hk]

/-- Before its third overrun in a row a command counts one more. -/
theorem State.overrunUnit_counts {s : State} {u : DispatchUnit} {c : Cmd} (hc : s.findCmd u.queue u.seq = some c) (hcancel : c.cancel = false)
    (hfew : c.overruns < 2) (r : UnitRef) : ((s.overrunUnit r u).findCmd c.queue c.seq).map (·.overruns) = some (c.overruns + 1) := by
  rw [State.overrunUnit_eq hc hcancel, if_neg (by omega), findCmd_updCmd, State.findCmd_recordOverrun hc]
  · simp [Cmd.leaveUnit]
  · exact fun _ => ⟨rfl, rfl⟩

/-- At its third overrun in a row a command ends. -/
theorem State.overrunUnit_ends {s : State} {u : DispatchUnit} {c : Cmd} (hc : s.findCmd u.queue u.seq = some c) (hcancel : c.cancel = false)
    (hmany : 2 ≤ c.overruns) (r : UnitRef) :
    ((s.overrunUnit r u).findCmd c.queue c.seq).map (·.phase) = some (.finished (s.overrunEnding u c)) := by
  rw [State.overrunUnit_eq hc hcancel, if_pos (by omega), findCmd_finish, State.findCmd_recordOverrun hc]
  simp

/-! ### Handovers (R140, R141) -/

/-- A plate in the hands of a context for this stroke. -/
def Plate.give (x : Plate) (k : Option Nat) : Plate :=
  { x with ctx := k, last := k.getD x.last, due := false, arrays := x.arrays.map fun _ => .idle, stipples := x.stipples.map fun _ => .empty }

/-- A drained plate that is due goes to the context chosen; other plates, memory and commands stay. -/
theorem State.givePlate_spec {s : State} {n : Nat} {x : Plate} (hx : Kv.get n s.plates = some x) (hdue : x.due = true)
    (hdrained : x.drained = true) (hhung : x.hung = false) :
    (s.givePlate n).plates = Kv.upd n (fun y => y.give (s.chooseCtx (.plate n) x.last x.ctx)) s.plates ∧ (s.givePlate n).mem = s.mem ∧
      (s.givePlate n).cmds = s.cmds := by
  simp only [State.givePlate, hx, hdue, hdrained, hhung, and_self, not_true_eq_false, Bool.false_eq_true, or_self, ↓reduceIte]
  split
  · exact ⟨rfl, rfl, rfl⟩
  · exact ⟨rfl, rfl, rfl⟩

theorem exec_plateHandover_due {s : State} {n : Nat} {x : Plate} (hx : Kv.get n s.plates = some x) (hdue : x.due = true)
    (hdrained : x.drained = true) (hhung : x.hung = false) : exec (.plateHandover n) s = .next ((s.givePlate n).firstUnits (.plate n)) := by
  show execPlateHandover n s = _
  simp [execPlateHandover, State.handOver, hx, hdue, hdrained, hhung]

/-! ### Hangs (R148) -/

/-- How many arrays and Stipple units a plate has. -/
def Plate.sizes (x : Plate) : Nat × Nat := (x.arrays.length, x.stipples.length)

/-- t has the memory of s and plates with the same arrays and units. -/
structure SameSizes (s t : State) : Prop where
  mem : t.mem = s.mem
  sizes : ∀ n, (Kv.get n t.plates).map Plate.sizes = (Kv.get n s.plates).map Plate.sizes

theorem SameSizes.refl (s : State) : SameSizes s s := ⟨rfl, fun _ => rfl⟩

theorem SameSizes.trans {s t u : State} (h : SameSizes s t) (h' : SameSizes t u) : SameSizes s u :=
  ⟨h'.mem.trans h.mem, fun n => (h'.sizes n).trans (h.sizes n)⟩

/-- Other fields may differ. -/
theorem SameSizes.of_fields {s t u : State} (h : SameSizes s t) (hmem : u.mem = t.mem) (hplates : u.plates = t.plates) : SameSizes s u :=
  ⟨hmem.trans h.mem, fun n => hplates ▸ h.sizes n⟩

theorem SameSizes.foldl {α : Type} {f : State → α → State} (hf : ∀ s a, SameSizes s (f s a)) (l : List α) (s : State) :
    SameSizes s (l.foldl f s) :=
  foldl_related SameSizes.refl SameSizes.trans id hf l s

theorem State.updPlate_sameSizes (s : State) (n : Nat) {f : Plate → Plate} (hf : ∀ x, (f x).sizes = x.sizes) :
    SameSizes s (s.updPlate n f) where
  mem := rfl
  sizes j := by
    by_cases h : j = n
    · simp [h, Kv.get_upd_self, Function.comp_def, hf]
    · rw [State.updPlate_plates, Kv.get_upd_ne h]

theorem State.countStall_sameSizes (s : State) (n : Nat) : SameSizes s (s.countStall n) := by
  have hdraw : SameSizes s (s.draw 32).2 := ⟨rfl, fun _ => rfl⟩
  unfold State.countStall
  exact hdraw.trans (State.updPlate_sameSizes _ n fun _ => rfl)

theorem State.endStall_sameSizes (s : State) (n : Nat) : SameSizes s (s.endStall n) := by
  unfold State.endStall
  split
  · exact .refl s
  · split_ifs
    · exact (s.countStall_sameSizes n).trans (State.updPlate_sameSizes _ _ fun x => by simp [Plate.sizes])
    · exact .refl s

theorem Plate.drop_sizes (x : Plate) (q k : Nat) : (x.drop q k).sizes = x.sizes := by
  simp [Plate.sizes, Plate.drop]

theorem State.dropPlates_sameSizes (s : State) (q k : Nat) : SameSizes s (s.dropPlates q k) := by
  unfold State.dropPlates
  refine (SameSizes.foldl (fun s n => s.endStall_sameSizes n) _ s).trans ⟨rfl, fun n => ?_⟩
  dsimp only
  rw [Kv.get_map fun x => Plate.drop x q k]
  simp [Function.comp_def, Plate.drop_sizes]

theorem State.closeFault_sameSizes (s : State) (n fseq : Nat) : SameSizes s (s.closeFault n fseq) := ⟨rfl, fun _ => rfl⟩

theorem State.unhook_sameSizes (s : State) (c : Cmd) : SameSizes s (s.unhook c) := by
  unfold State.unhook
  dsimp only
  split
  · exact ((s.closeFault_sameSizes _ _).trans (State.dropPlates_sameSizes _ c.queue c.seq)).of_fields rfl rfl
  · exact (s.dropPlates_sameSizes c.queue c.seq).of_fields rfl rfl

theorem State.endGroupInternal_sameSizes (s : State) (c : Cmd) : SameSizes s (s.endGroupInternal c) :=
  (SameSizes.foldl (fun s d => s.unhook_sameSizes d) _ s).of_fields rfl rfl

/-- The groups of units end with INTERNAL. -/
def State.endUnitGroups (s : State) (us : List DispatchUnit) : State :=
  us.foldl (fun (s : State) x => match s.findCmd x.queue x.seq with
    | some c => s.endGroupInternal c
    | none => s) s

theorem State.endUnitGroups_sameSizes (s : State) (us : List DispatchUnit) : SameSizes s (s.endUnitGroups us) := by
  refine SameSizes.foldl (fun s x => ?_) us s
  split
  · exact s.endGroupInternal_sameSizes _
  · exact .refl s

/-- A plate reset as hung. -/
def Plate.hang (x : Plate) : Plate :=
  { x with
    units := [], drained := true, hung := true, tray := []
    arrays := x.arrays.map fun _ => .idle, stipples := x.stipples.map fun _ => .empty }

/-- A hang ends the groups of the plate's units and resets the plate; the rest of it is counted and reported. -/
theorem exec_engineHung_plate {s : State} {n : Nat} {x : Plate} (hx : Kv.get n s.plates = some x) (hdue : x.due = true) (hu : x.units ≠ []) :
    ∃ t : State, exec (.engineHung (.plate n)) s = .next t ∧ t.plates = ((s.endUnitGroups x.units).updPlate n Plate.hang).plates ∧
      t.mem = (s.endUnitGroups x.units).mem := by
  have hgo : ¬ (¬ s.isDue (.plate n) = true ∨ x.units.isEmpty = true) := by
    simp [State.isDue, hx, hdue, hu]
  have hunits : s.unitsOf (.plate n) = x.units := by simp [State.unitsOf, hx]
  refine ⟨_, rfl, ?_⟩
  simp only [hunits, if_neg hgo]
  rw [failEvent_frame, logEvent_frame]
  exact ⟨rfl, rfl⟩

theorem map_const_of_length_eq {α β : Type} {l l' : List α} (h : l.length = l'.length) (b : β) : (l.map fun _ => b) = l'.map fun _ => b := by
  rw [List.map_const', List.map_const', h]

/-! ### Skipped commands (R79) -/

/-- COMMAND_SKIP of a command whose predicate is settled: the nearest earlier one that is carried, and carried by no command in flight. -/
theorem exec_commandSkip_settled {s : State} {q k : Nat} {c : Cmd} {r : PredResult} (hc : s.findCmd q k = some c) (hskip : c.awaitsSkip = true)
    (hstart : s.mayStart c = true)
    (hr : (s.preds.filter fun r => decide (r.queue = q) && decide (r.group = c.group) && decide (r.seq < k)) = [r])
    (hbetween : ∀ d ∈ s.cmds, ¬ (d.queue = q ∧ d.group = c.group ∧ r.seq < d.seq ∧ d.seq < k))
    (hown : ∀ d ∈ s.cmds, ¬ (d.queue = q ∧ d.seq = r.seq)) : exec (.commandSkip q k) s = .next (
      if r.held then
        let t := (s.ledgerFlag (c.view s).ctx (c.pkt.par 0 5) 0x08).finish c (Ending.ok 0 2)
        if c.pkt.epi 2 1 = 0 then t else { t with preds := { queue := q, group := c.group, seq := k, held := false } :: t.preds }
      else s.updCmd q k fun y => { y with skipSettled := true }) := by
  have hearlier : (s.cmds.any fun d => decide (d.queue = q ∧ d.group = c.group ∧ r.seq < d.seq ∧ d.seq < k) &&
      decide (d.pkt.opcode = 0x0301 ∨ d.pkt.opcode = 0x0302) && decide (d.pkt.epi 2 1 ≠ 0)) = false :=
    List.any_eq_false.2 fun d hd => by simp [hbetween d hd]
  have hnone : (s.cmds.any fun d => decide (d.queue = q ∧ d.seq = r.seq)) = false :=
    List.any_eq_false.2 fun d hd => by simpa using hown d hd
  show execCommandSkip q k s = _
  simp only [execCommandSkip, hc, hskip, hstart, hr, List.mergeSort_singleton, hearlier, hnone, and_self, not_true_eq_false, ↓reduceIte,
    Bool.false_eq_true, or_self]

/-- Settles O13, event by event: a handover is `State.givePlate_spec`, an overrun reads of its command what the forced drain leaves
(`State.forceDrain_spec`), a hang keeps how many arrays and units the plate has (`SameSizes`), and a skip is its row. -/
theorem strokeEventsOfPlatesComplete : Obligations.StrokeEventsOfPlatesComplete := by
  unfold Obligations.StrokeEventsOfPlatesComplete
  refine ⟨?handover, ?overrun, ?hang, ?skip⟩
  case handover =>
    intro s n x hx hdue hdrained hhung
    obtain ⟨hplates, hmem, hcmds⟩ := State.givePlate_spec hx hdue hdrained hhung
    refine ⟨s.givePlate n, ?_, ?_, ?_, fun j hj => ?_, hmem, hcmds⟩
    · rw [exec_plateHandover_due hx hdue hdrained hhung, State.firstUnits, hcmds]
    · rw [hplates, Kv.get_upd_self, hx]
      rfl
    · rw [hplates, Kv.get_upd_self, hx]
      rfl
    · rw [hplates, Kv.get_upd_ne hj]
  case overrun =>
    intro s n run x u c hx hdue hu hc hcancel
    obtain ⟨hturns, hplate⟩ := State.forceDrain_spec hx run
    obtain ⟨d, hd, hturn⟩ := Option.map_eq_some_iff.1 ((hturns.findCmd u.queue u.seq).trans (congrArg (Option.map Cmd.turn) hc))
    obtain ⟨hq, hk, hcan, hover⟩ : d.queue = c.queue ∧ d.seq = c.seq ∧ d.cancel = c.cancel ∧ d.overruns = c.overruns := by
      simpa [Cmd.turn] using hturn
    rw [hcancel] at hcan
    have hrun : (s.forceDrain n run).overrunRun u = s.overrunRun u := by rw [State.overrunRun, hturns.strk, State.overrunRun]
    refine ⟨(s.forceDrain n run).overrunUnit (.plate n) u, ?_, ?_, fun hfew => ?_, fun hmany => ?_⟩
    · rw [exec_strokeOverrun_plate hx hdue (by simp [hu]), hu]
      rfl
    · rw [State.overrunUnit_plates hd hcan, hplate]
    · rw [← hq, ← hk, State.overrunUnit_counts hd hcan (hover ▸ hfew), hover]
    · rw [← hq, ← hk, State.overrunUnit_ends hd hcan (hover ▸ hmany), State.overrunEnding, hrun]
      exact ⟨_, rfl⟩
  case hang =>
    intro s n x hx hdue hu
    obtain ⟨t, he, hplates, hmem⟩ := exec_engineHung_plate hx hdue hu
    obtain ⟨hsame, hsizes⟩ := s.endUnitGroups_sameSizes x.units
    obtain ⟨y, hy, hsize⟩ := Option.map_eq_some_iff.1 ((hsizes n).trans (congrArg (Option.map Plate.sizes) hx))
    obtain ⟨harrays, hstipples⟩ := Prod.mk.inj hsize
    refine ⟨t, he, ?_, ?_, hmem.trans hsame⟩
    · rw [hplates, State.get_updPlate hy]
      rfl
    · rw [hplates, State.get_updPlate hy, ← map_const_of_length_eq harrays, ← map_const_of_length_eq hstipples]
      rfl
  case skip =>
    intro s q k c r hc hskip hstart hr hbetween hown
    have he := exec_commandSkip_settled hc hskip hstart hr hbetween hown
    refine ⟨fun hheld => ⟨_, rfl, fun hnone => ?_, fun hsome => ?_⟩, fun hnot => ?_⟩
    · rw [he, if_pos hheld]
      exact congrArg _ (if_pos hnone)
    · rw [he, if_pos hheld]
      exact congrArg _ (if_neg hsome)
    · rw [he, hnot]
      rfl

end Sys2Proof.Machine
end

section
/-! PROOFS. Descriptors and open faults (05_tracer_layouts_gather.md R81, 11_command_reference.md R185, R186, 12_memory_translation_isolation.md R220):
how DESC_CREATE, DESC_RELEASE and FAULT_RESUME end. -/

namespace Sys2Proof.Machine

open Sys2Proof

section Rows

variable {s : State} {p : Packet} {c d : Cmd} {x : Ctx}

/-! ### Rows that run at once -/

/-- As `Ready.runNow`, for a row whose effect it has. -/
theorem Ready.runNow_ok {op : Nat} (h : Ready s p op c x) {act : State → Cmd → Ctx → Except Ending (State × Ending)} {t : State} {e : Ending}
    (ha : act s c x = .ok (t, e)) : s.forOp p op (s.runNow p act) = t.finish c e := by
  rw [h.runNow, ha]

/-- As `Ready.runNow`, for a row that is refused. -/
theorem Ready.runNow_error {op : Nat} (h : Ready s p op c x) {act : State → Cmd → Ctx → Except Ending (State × Ending)} {e : Ending}
    (ha : act s c x = .error e) : s.forOp p op (s.runNow p act) = s.finish c e := by
  rw [h.runNow, ha]

/-! ### DESC_CREATE and DESC_RELEASE (R81, R186) -/

/-- Where a handle is left, DESC_CREATE draws one that is not taken and enters the packet's record under it (R81). -/
theorem Ready.exec_descCreate (h : Ready s p 0x0205 c x) (hc : checkDescCreate x p = .ok ())
    (hfree : ∃ k, 1 ≤ k ∧ k < min inlineHandle (s.ctxs.length * 65536 + 2) ∧ s.handleTaken k = false) :
    ∃ k, s.handleTaken k = false ∧ exec (.descCreate p) s = .next (State.finish
      ({ s with free := s.free + 1 }.updCtx (c.view s).ctx fun y => { y with descs := Kv.set k { record := p.params 64 } y.descs }) c
      (Ending.ok k 0)) := by
  obtain ⟨k, ⟨-, -, huntaken⟩, hdraw⟩ := freshNumber_spec s 32 1 _ s.handleTaken hfree
  refine ⟨k, huntaken, congrArg Host.Outcome.next (h.runNow_ok ?_)⟩
  simp only [hc, hdraw]
  rfl

/-- A record that fails a check ends DESC_CREATE with that check's ending (R81). -/
theorem Ready.exec_descCreate_refused (h : Ready s p 0x0205 c x) {e : Ending} (hc : checkDescCreate x p = .error e) :
    exec (.descCreate p) s = .next (s.finish c e) := by
  refine congrArg Host.Outcome.next (h.runNow_error ?_)
  simp only [hc]
  rfl

/-- DESC_RELEASE takes its handle out of the context's descriptors (R186). -/
theorem Ready.exec_descRelease (h : Ready s p 0x0206 c x) (hc : s.checkDescRelease (c.view s).ctx x p = .ok ()) :
    exec (.descRelease p) s = .next (State.finish
      (s.updCtx (c.view s).ctx fun y => { y with descs := Kv.del (p.at 64 4) y.descs }) c (Ending.ok 0 0)) := by
  refine congrArg Host.Outcome.next (h.runNow_ok ?_)
  simp only [hc]
  rfl

/-! ### FAULT_RESUME (R186, R220) -/

/-- FAULT_RESUME with RETRY closes the fault, and the command that waited on it waits no longer. -/
theorem Ready.exec_faultResume_retry (h : Ready s p 0x0208 c x) (hc : s.checkFaultResume (c.view s).ctx p = .ok ()) (hretry : p.at 72 1 = 0)
    (hd : s.faultedCmd (c.view s).ctx (p.at 64 8) = some d) :
    exec (.faultResume p) s = .next (State.finish
      ((s.updCmd d.queue d.seq fun y => { y with fault := none }).closeFault (c.view s).ctx (p.at 64 8)) c (Ending.ok 0 0)) := by
  refine congrArg Host.Outcome.next (h.runNow_ok ?_)
  simp only [hc, if_pos hretry, hd]
  rfl

/-- The command that waits on an abandoned fault ends FAULT_PENDING, with the faulting field as the detail and its cursor in RESULT1 (R220). -/
theorem State.abandonFault_of_faultedCmd {n fseq : Nat} (hd : s.faultedCmd n fseq = some d) :
    s.abandonFault n fseq = State.finish (s.updCmd d.queue d.seq fun y => { y with fault := none }) d
      { status := .faultPending, detail := d.faultAt, r1 := d.cursor } := by
  rw [State.abandonFault, hd]

/-- FAULT_RESUME with ABORT abandons the fault and closes it. -/
theorem Ready.exec_faultResume_abort (h : Ready s p 0x0208 c x) (hc : s.checkFaultResume (c.view s).ctx p = .ok ()) (habort : p.at 72 1 ≠ 0) :
    exec (.faultResume p) s = .next (State.finish
      ((s.abandonFault (c.view s).ctx (p.at 64 8)).closeFault (c.view s).ctx (p.at 64 8)) c (Ending.ok 0 0)) := by
  refine congrArg Host.Outcome.next (h.runNow_ok ?_)
  simp only [hc, if_neg habort]
  rfl

end Rows

/-- Settles O4, command by command: DESC_CREATE with a record that passes its checks and with one that does not, DESC_RELEASE, and FAULT_RESUME with
RETRY and with ABORT. -/
theorem descriptorAndFaultCommandsComplete : Obligations.DescriptorAndFaultCommandsComplete := by
  unfold Obligations.DescriptorAndFaultCommandsComplete
  refine ⟨?create, ?refused, ?release, ?retry, ?abort⟩
  case create => exact fun _ _ _ _ h hc hfree => h.exec_descCreate hc hfree
  case refused => exact fun _ _ _ _ _ h hc => h.exec_descCreate_refused hc
  case release => exact fun _ _ _ _ h hc => h.exec_descRelease hc
  case retry => exact fun _ _ _ _ _ h hc hretry hd => h.exec_faultResume_retry hc hretry hd
  case abort =>
    intro s p c d x h hc habort hd
    rw [h.exec_faultResume_abort hc (by omega), State.abandonFault_of_faultedCmd hd]
    rfl

end Sys2Proof.Machine
end

section
/-! PROOFS. GRAD_POLICY (07_backward_and_training_numerics.md R124), the commands of Crosshatch (17_crosshatch_gradient_reduction.md R298 to R304) and the
prefetch agent (R309): how each ends or begins. -/

namespace Sys2Proof.Machine

open Sys2Proof

section Rows

variable {s s1 s2 : State} {p : Packet} {c : Cmd} {x : Ctx} {d : Desc}

/-! ### GRAD_POLICY (R124, R191) -/

/-- GRAD_POLICY installs the policies that its entries say, read once its accesses are through. -/
theorem Ready.exec_gradPolicy {ps : List LayerPolicy} (h : Ready s p 0x0306 c x) (hc : s.checkGradPolicy (c.view s) x p false = .ok ())
    (hio : s.mgmtTouch c 10 [s.ioOf c 64 false] = .ok s2) (hfull : s2.checkGradPolicy (c.view s2) x p true = .ok ())
    (hd : s2.needDesc (c.view s2).ctx (p.at 64 4) 64 false = .ok d) (hps : s2.policies (c.view s2) d = .ok ps) :
    exec (.gradPolicy p) s = .next ((s2.updCtx (c.view s2).ctx fun y => y.install ps).finish c (Ending.ok 0 0)) := by
  refine congrArg Host.Outcome.next (h.runReach hc hio ?_)
  simp only [hfull, hd, bind, Except.bind, hps]
  rfl

/-! ### XH_GROUP (R196, R298) -/

/-- A queue pair that a staging header names at an offset, none for all ones. -/
def headerField (hdr : List Byte) (o : Nat) : Option Nat := if fieldAt hdr o 4 = 0xFFFF_FFFF then none else some (fieldAt hdr o 4)

/-- The group that an XH_GROUP and its staging area's header define. -/
def XhGroup.ofHeader (p : Packet) (d : Desc) (hdr : List Byte) : XhGroup :=
  { mode := p.at 65 1, topology := p.at 66 1, ring := p.at 67 1, contributors := p.at 68 2, margin := p.at 70 1, deadline := p.at 72 4
    handle := p.at 76 4, staging := d.base, stagingBytes := d.extent, prev := headerField hdr 0, next := headerField hdr 4
    children := (List.range 16).filterMap fun i => headerField hdr (8 + 4 * i), ituskPlate := fieldAt hdr 72 1 }

/-- XH_GROUP reads the header and writes the staging area of the descriptor that it names, zero-fills the area behind the header, and stores the
group under its number. -/
theorem Ready.exec_xhGroup {d0 : Desc} (h : Ready s p 0x0801 c x) (hc : s.checkXhGroup (c.view s).ctx x p false = .ok ())
    (hd0 : s.desc (c.view s).ctx (p.at 76 4) = some d0)
    (hio : s.mgmtTouch c 8 [{ detail := 76, write := false, ranges := [(d0.base, 128)] },
      { detail := 76, write := true, ranges := [(d0.base, stagingMin)] }] = .ok s2)
    (hfull : s2.checkXhGroup (c.view s2).ctx x p true = .ok ()) (hd : s2.needDesc (c.view s2).ctx (p.at 76 4) 76 true = .ok d) :
    exec (.xhGroup p) s = .next (((s2.vput (c.view s2).ctx (d.base + 128) (zeros (stagingMin - 128))).updCtx (c.view s2).ctx fun y =>
      { y with groups := Kv.set (p.at 64 1) (.ofHeader p d (s2.stagingHeader (c.view s2).ctx (p.at 76 4))) y.groups }).finish c
        (Ending.ok 0 0)) := by
  refine congrArg Host.Outcome.next (h.runReach (s2 := s2) hc ?_ ?_)
  · simp only [hd0]
    exact hio
  · simp only [hfull, hd]
    rfl

/-! ### XH_REDUCE and XH_ABORT (R300, R304) -/

/-- A bucket of the numbers of a command waits or is reduced. -/
def State.hasBucket (s : State) (c : Cmd) : Bool := s.buckets.any fun b => decide (b.queue = c.queue ∧ b.seq = c.seq)

/-- XH_REDUCE begins behind its bucket, which enters its group's queue where it has not. -/
theorem Ready.exec_xhReduce (h : Ready s p 0x0802 c x) (hc : s.checkXhReduce (c.view s).ctx x p = .ok ()) :
    exec (.xhReduce p) s = .next ((if s.hasBucket c then s else s.admitBucket (c.view s).ctx p).begin c .none) := by
  show execXhReduce p s = _
  simp only [execXhReduce, State.forOp, h.opcode, h.start, h.ctx, hc, ↓reduceIte]
  rfl

/-- XH_ABORT aborts its step on this part. -/
theorem Ready.exec_xhAbort (h : Ready s p 0x0803 c x) (hc : s.checkXhAbort (c.view s).ctx x p = .ok ()) :
    exec (.xhAbort p) s = .next ((s.stepAbort (c.view s).ctx (p.at 64 5) (.fail .stepAborted 0) (s.ownRecord 3) (p.at 69 1) none).finish c
      (Ending.ok 0 0)) := by
  refine congrArg Host.Outcome.next (h.runNow_ok ?_)
  simp only [hc]
  rfl

/-! ### PREFETCH_HINT (R309) -/

/-- A hint that could start goes before one of a packet: by PRIORITY, then by admission. -/
def State.hintAhead (s : State) (c : Cmd) (p : Packet) (d : Cmd) : Bool :=
  s.mayStart d && (decide (d.pkt.at 84 1 < p.at 84 1) || (decide (d.pkt.at 84 1 = p.at 84 1) && d.before c))

/-- PREFETCH_HINT with no copy and no hint ahead of it copies from its first page on. -/
theorem Ready.exec_prefetchHint (h : Ready s p 0x0804 c x) (hc : s.checkPrefetchHint (c.view s).ctx x p = .ok ())
    (hhost : s.hostBlocked (c.view s) [(p.at 64 8, p.at 80 4)] = false) (hcopy : s.copyAhead = false)
    (hhints : (s.hints (c.view s).ctx).any (s.hintAhead c p) = false) :
    exec (.prefetchHint p) s = .next (s.prefetchRun c (p.at 64 8) (p.at 72 8) (p.at 80 4 / 4096) 0) := by
  have hturn : (s.copyAhead || (s.hints (c.view s).ctx).any (s.hintAhead c p)) = false := by rw [hcopy, hhints, Bool.or_false]
  show execPrefetchHint p s = _
  simp only [execPrefetchHint, State.forOp, h.opcode, h.start, Option.orElse_some, h.ctx, hc, hhost, ↓reduceIte, Bool.false_eq_true]
  exact congrArg Host.Outcome.next (if_neg (Bool.eq_false_iff.1 hturn))

variable {src dst k done : Nat}

/-- A page that can be read and written is copied, and the run goes on behind it. -/
theorem State.prefetchRun_page (hsrc : s.touch (c.view s).ctx (c.view s).bound (src + done) 4096 accR true = .ok s1)
    (hdst : s1.touch (c.view s).ctx (c.view s).bound (dst + done) 4096 accW true = .ok s2)
    (hgood : s2.badRange (c.view s).ctx (c.view s).bound (src + done) 4096 = none) :
    s.prefetchRun c src dst (k + 1) done = (s2.vwrite (c.view s).ctx (c.view s).bound (dst + done)
      (s2.vread (c.view s).ctx (c.view s).bound (src + done) 4096)).prefetchRun c src dst k (done + 4096) := by
  rw [State.prefetchRun]
  simp only [hsrc, hdst, hgood]

/-- At a page that is not present the hint ends with the bytes copied. -/
theorem State.prefetchRun_notPresent {va : Nat}
    (hsrc : s.touch (c.view s).ctx (c.view s).bound (src + done) 4096 accR true = .error (.notPresent, va)) :
    s.prefetchRun c src dst (k + 1) done = s.finish c (Ending.ok done 0) := by
  rw [State.prefetchRun]
  simp only [hsrc, State.prefetchRun.stop, ↓reduceIte]

end Rows

/-- Settles O17, command by command; a run of the prefetch agent is taken page by page. -/
theorem crosshatchCommandsComplete : Obligations.CrosshatchCommandsComplete := by
  unfold Obligations.CrosshatchCommandsComplete
  refine ⟨?policy, ?group, ?reduce, ?abort, ?hint, ?page, ?absent⟩
  case policy => exact fun _ _ _ _ _ _ _ h hc hio hfull hd hps => h.exec_gradPolicy hc hio hfull hd hps
  case group =>
    intro s s2 p c x d hdr h hc hd0 hio hfull hd hhdr
    subst hhdr
    exact ⟨_, h.exec_xhGroup hc hd0 hio hfull hd, rfl, rfl, rfl, rfl, rfl, rfl, rfl, rfl, rfl, rfl, rfl, rfl⟩
  case reduce =>
    intro s p c x h hc
    refine ⟨fun ⟨b, hb, hmine⟩ => ?_, fun hnone => ?_⟩
    · have hhas : s.hasBucket c = true := List.any_eq_true.2 ⟨b, hb, decide_eq_true hmine⟩
      rw [h.exec_xhReduce hc, if_pos hhas]
    · have hhas : ¬ s.hasBucket c = true := by simpa [State.hasBucket] using hnone
      rw [h.exec_xhReduce hc, if_neg hhas]
  case abort => exact fun _ _ _ _ h hc => h.exec_xhAbort hc
  case hint =>
    intro s p c x h hc hhost hcopy hfirst
    refine h.exec_prefetchHint hc hhost hcopy (List.any_eq_false.2 fun d hd => ?_)
    simp only [State.hintAhead, Bool.and_eq_true, Bool.or_eq_true, decide_eq_true_eq]
    rintro ⟨hstart, hlower | ⟨hsame, hbefore⟩⟩
    · exact (hfirst d hd hstart).1 hlower
    · exact Bool.eq_false_iff.1 ((hfirst d hd hstart).2 hsame) hbefore
  case page =>
    intro s s1 s2 c src dst k done hsrc hdst hgood
    exact ⟨rfl, State.prefetchRun_page hsrc hdst hgood⟩
  case absent => exact fun _ _ _ _ _ _ _ hsrc => State.prefetchRun_notPresent hsrc

end Sys2Proof.Machine
end

section
/-! PROOFS. The step of the block (09_strokes.md R140, 10_command_queues.md R157, R165). -/

namespace Sys2Proof.Machine

open Sys2Proof

/-- Settles O44: the front of the queue is what the step runs, and there is none on an empty queue. -/
theorem stepTakesFront : Obligations.StepTakesFront := by
  unfold Obligations.StepTakesFront
  exact ⟨fun _ _ _ => step_of_pending_cons rfl, fun _ h => step_of_pending_nil h⟩

end Sys2Proof.Machine
end

section
/-! PROOFS. The issue of dispatch units (09_strokes.md R143, R147, 10_command_queues.md R176): how many indivisible units one takes, and where it is
issued. -/

namespace Sys2Proof.Machine

open Sys2Proof

/-! ### What the sizes of dispatch units read -/

section ReadsAlike

variable {s t : State} (h : ReadsAlike s t)
include h

theorem ReadsAlike.tilesLeft (c : Cmd) (gone : TileWork → List Nat) : t.tilesLeft c gone = s.tilesLeft c gone := by
  simp only [State.tilesLeft, h.view, h.tileGrid]

theorem ReadsAlike.itemsLeft (c : Cmd) : t.itemsLeft c = s.itemsLeft c := by
  simp only [State.itemsLeft, h.view, h.tileGrid, h.tilesLeft]

theorem ReadsAlike.listLen (v : View) (p : Packet) (rank : Nat) : t.listLen v p rank = s.listLen v p rank := by
  simp only [State.listLen, h.desc]

theorem ReadsAlike.tracerTotal (v : View) (p : Packet) : t.tracerTotal v p = s.tracerTotal v p := by
  simp only [State.tracerTotal, h.desc, h.listLen]

theorem ReadsAlike.tracerSpan (v : View) (p : Packet) (u n : Nat) : t.tracerSpan v p u n = s.tracerSpan v p u n := by
  simp only [State.tracerSpan, State.tracerUnitTime, State.scanTime, h.desc, h.listLen]

theorem ReadsAlike.stencilTotal (v : View) (p : Packet) : t.stencilTotal v p = s.stencilTotal v p := by
  simp only [State.stencilTotal, State.tokensOf, h.desc]

theorem ReadsAlike.unitsLeft (c : Cmd) : t.unitsLeft c = s.unitsLeft c := by
  simp only [State.unitsLeft, h.view, h.itemsLeft, h.tilesLeft, h.tracerTotal, h.stencilTotal]

theorem ReadsAlike.spanTime (c : Cmd) (n : Nat) : t.spanTime c n = s.spanTime c n := by
  simp only [State.spanTime, h.view, h.stageProduct, h.itemsLeft, h.tracerSpan]

theorem ReadsAlike.unitGoal (c : Cmd) (n : Nat) : t.unitGoal c n = s.unitGoal c n := by
  simp only [State.unitGoal, h.view, h.tileGrid, h.itemsLeft, h.tilesLeft]

theorem ReadsAlike.unitsFit (hduty : t.strk.duty = s.strk.duty) (c : Cmd) (k n : Nat) : t.unitsFit c k n = s.unitsFit c k n := by
  induction k generalizing n with
  | zero => rfl
  | succ k ih => simp only [State.unitsFit, h.unitsLeft, h.spanTime, hduty, ih]

end ReadsAlike

section Issue

variable (s : State) (c : Cmd)

/-! ### How many indivisible units a dispatch unit takes -/

theorem State.le_unitsFit (k n : Nat) : n ≤ s.unitsFit c k n := by
  induction k generalizing n with
  | zero => exact le_rfl
  | succ k ih =>
    rw [State.unitsFit]
    split
    · exact (Nat.le_succ n).trans (ih (n + 1))
    · exact le_rfl

/-- The search goes beyond its start only as far as the budget holds the estimate. -/
theorem State.unitsFit_eq_or_within (k n : Nat) :
    s.unitsFit c k n = n ∨ s.spanTime c (s.unitsFit c k n) * 64 ≤ c.budget * s.strk.duty := by
  induction k generalizing n with
  | zero => exact .inl rfl
  | succ k ih =>
    rw [State.unitsFit]
    split
    · next hmore =>
      rcases ih (n + 1) with hstop | hwithin
      · rw [hstop]
        exact .inr hmore.2
      · exact .inr hwithin
    · exact .inl rfl

/-! ### The instant of an issue -/

variable (r : UnitRef) (boundary : Bool)

/-- The instant of an issue, in ns after the boundary: the boundary's, or a free value (assumption 47). -/
def State.issueInstant : Nat × State := if boundary ∧ ¬ (s.placeFlags r).1 then (0, s) else s.drawNs

theorem State.issueInstant_spec :
    ∃ ns f, s.issueInstant r boundary = (ns, { s with free := f }) ∧ (boundary = true → (s.placeFlags r).1 = false → ns = 0) := by
  unfold State.issueInstant
  split
  case isTrue => exact ⟨0, s.free, rfl, fun _ _ => rfl⟩
  case isFalse hlate => exact ⟨_, _, rfl, fun hb hearly => absurd ⟨hb, by simp [hearly]⟩ hlate⟩

/-! ### Where a dispatch unit is issued -/

/-- A command with the budget with which its next unit is issued (R147). -/
def State.resumed : Cmd := { c with budget := s.resumedBudget c }

/-- The indivisible units of a command's next dispatch unit. -/
def State.nextUnitSize : Nat := s.unitsFit (s.resumed c) (s.unitsLeft (s.resumed c)) 1

/-- Its estimate in ACLK at full duty. -/
def State.unitEstimate : Nat := s.spanTime (s.resumed c) (s.nextUnitSize c)

/-- The next dispatch unit of a command, issued at an instant. -/
def State.nextUnit (ns : Nat) : DispatchUnit :=
  { queue := c.queue, seq := c.seq, estimate := s.unitEstimate c, start := c.progress
    goal := s.unitGoal (s.resumed c) (s.nextUnitSize c), issued := ns }

/-- A unit that fits at the instant of its issue, or is the first of a stroke at its boundary and could never fit, joins its place, and its command
holds the budget with which it is issued; any other closes its place. -/
theorem State.issueUnit_eq {ns f : Nat} (hi : s.issueInstant r boundary = (ns, { s with free := f })) :
    s.issueUnit r c boundary =
      if s.unitEstimate c * 64 ≤ s.remaining ns * s.strk.duty ∨
          ((boundary && (s.unitsOf r).isEmpty) = true ∧ s.dispatchWindow * s.strk.duty < s.unitEstimate c * 64) then
        (({ s with free := f } : State).updCmd c.queue c.seq fun x => { x with budget := s.resumedBudget c }).addUnit r (s.nextUnit c ns)
      else ({ s with free := f } : State).closePlace r := by
  rw [State.issueUnit, show (if boundary ∧ ¬ (s.placeFlags r).1 then (0, s) else s.drawNs) = _ from hi]
  have hreads : ReadsAlike s { s with free := f } := .of_work s f s.plates s.cmds
  simp only [hreads.unitsLeft, hreads.spanTime, hreads.unitGoal, hreads.unitsFit rfl]
  rfl

end Issue

/-! ### What an issue changes -/

/-- An update that keeps what g reads of an entry keeps it for every entry. -/
theorem map_get_upd {α β : Type} {f : α → α} {g : α → β} (hfg : ∀ x, g (f x) = g x) (k j : Nat) (t : List (Nat × α)) :
    (Kv.get j (Kv.upd k f t)).map g = (Kv.get j t).map g := by
  by_cases hj : j = k
  · subst hj
    simp [Kv.get_upd_self, Option.map_map, Function.comp_def, hfg]
  · rw [Kv.get_upd_ne hj]

section Place

variable {s : State} {r r' : UnitRef}

theorem State.unitsOf_updPlate {f : Plate → Plate} (hf : ∀ x, (f x).units = x.units) (n : Nat) : (s.updPlate n f).unitsOf r = s.unitsOf r := by
  cases r with
  | plate m => exact congrArg (·.getD []) (map_get_upd hf n m s.plates)
  | router m => rfl

theorem State.unitsOf_updRouter {f : Router → Router} (hf : ∀ x, (f x).units = x.units) (n : Nat) :
    (s.updRouter n f).unitsOf r = s.unitsOf r := by
  cases r with
  | plate m => rfl
  | router m => exact congrArg (·.getD []) (map_get_upd hf n m s.routers)

/-- The host of a place's units is the place's, whatever the commands and the free values are. -/
theorem State.unitHost_of_free_cmds (f : Nat) (cs : List Cmd) : ({ s with free := f, cmds := cs } : State).unitHost r = s.unitHost r := by
  cases r <;> rfl

theorem State.unitsOf_setUnits_self (h : s.unitHost r ≠ none) (us : List DispatchUnit) : (s.setUnits r us).unitsOf r = us := by
  cases r with
  | plate n =>
    obtain ⟨x, hx⟩ : ∃ x, Kv.get n s.plates = some x := Option.ne_none_iff_exists'.1 fun hx => h (by simp [State.unitHost, hx])
    simp [State.unitsOf, State.setUnits, Kv.get_upd_self, hx]
  | router n =>
    obtain ⟨x, hx⟩ : ∃ x, Kv.get n s.routers = some x := Option.ne_none_iff_exists'.1 fun hx => h (by simp [State.unitHost, hx])
    simp [State.unitsOf, State.setUnits, Kv.get_upd_self, hx]

theorem State.unitsOf_setUnits_ne (h : r' ≠ r) (us : List DispatchUnit) : (s.setUnits r us).unitsOf r' = s.unitsOf r' := by
  cases r with
  | plate n =>
    cases r' with
    | plate m => simp only [State.unitsOf, State.setUnits, State.updPlate_plates, Kv.get_upd_ne (mt (congrArg UnitRef.plate) h)]
    | router m => rfl
  | router n =>
    cases r' with
    | plate m => rfl
    | router m => simp only [State.unitsOf, State.setUnits, State.updRouter_routers, Kv.get_upd_ne (mt (congrArg UnitRef.router) h)]

theorem State.unitsOf_closePlace : (s.closePlace r).unitsOf r' = s.unitsOf r' := by
  cases r with
  | plate n => exact State.unitsOf_updPlate (by intro _; rfl) n
  | router n => exact State.unitsOf_updRouter (by intro _; rfl) n

/-- A unit that joins its place changes units there as setting them does: what a plate notes besides is none of its units. -/
theorem State.unitsOf_addUnit (u : DispatchUnit) : (s.addUnit r u).unitsOf r' = (s.setUnits r (s.unitsOf r ++ [u])).unitsOf r' := by
  cases r with
  | plate n =>
    refine (State.unitsOf_updPlate (by intro _; rfl) n).trans ?_
    cases r' <;> rfl
  | router n => rfl

theorem State.closePlace_mem : (s.closePlace r).mem = s.mem := by cases r <;> rfl

theorem State.closePlace_free : (s.closePlace r).free = s.free := by cases r <;> rfl

theorem State.addUnit_mem (u : DispatchUnit) : (s.addUnit r u).mem = s.mem := by cases r <;> rfl

end Place

/-- Settles O52: the units taken are those of the search `State.unitsFit`, and an issue is one of the two cases of `State.issueUnit_eq`. -/
theorem unitsAreIssuedWhereTheyFit : Obligations.UnitsAreIssuedWhereTheyFit := by
  unfold Obligations.UnitsAreIssuedWhereTheyFit
  rintro s _ r c _ boundary _ _ hhost rfl rfl rfl rfl
  obtain ⟨ns, f, hi, hns⟩ := s.issueInstant_spec r boundary
  have hissue := s.issueUnit_eq c r boundary hi
  simp only [Bool.and_eq_true, List.isEmpty_iff, and_assoc] at hissue
  refine ⟨s.le_unitsFit _ _ 1, s.unitsFit_eq_or_within _ _ 1, fun r' hr => ?others, ?bytes, ns, hns,
    fun hfits => ?issued, fun hlate hlarge => ?closed⟩
  case others =>
    rw [hissue]
    split
    · exact (State.unitsOf_addUnit _).trans (State.unitsOf_setUnits_ne hr _)
    · exact State.unitsOf_closePlace
  case bytes =>
    intro a
    rw [hissue]
    split
    · rw [State.addUnit_mem]
      rfl
    · rw [State.closePlace_mem]
  case issued =>
    rw [hissue.trans (if_pos hfits)]
    exact (State.unitsOf_addUnit _).trans (State.unitsOf_setUnits_self ((State.unitHost_of_free_cmds f _).trans_ne hhost) _)
  case closed =>
    rw [hissue.trans (if_neg (not_or.2 ⟨Nat.not_le.2 hlate, hlarge⟩)), State.closePlace_free]

end Sys2Proof.Machine
end

section
/-! PROOFS. The commands of management and of strokes (09_strokes.md R139, 11_command_reference.md R182, 15_fabric_ports_topology.md R265, R266,
23_proof_core_and_trouble_log.md R392, R398, R400, 24_power_clocks_reset.md R414): how each ends. -/

namespace Sys2Proof.Machine

open Sys2Proof

section Rows

variable {s s1 s2 : State} {p : Packet} {c : Cmd} {x : Ctx}

/-! ### Class MAINTENANCE of the Proof core (R392) -/

/-- LOG_READ writes the entries asked for, and returns their count and the newest slot (R398). -/
theorem Ready.exec_logRead (h : Ready s p 0x0C07 c x) (hslot : c.slot = none) (htake : s.takeSlot c clsMaintenance = .ok s1)
    (hc : s1.checkLogRead (c.view s1).ctx p = .ok ()) (hio : s1.mgmtTouch c 10 [s1.ioOf c 64 true] = .ok s2) :
    exec (.logRead p) s =
      .next ((s2.mgmtWrite c 64 (s2.log.copy (p.at 68 2) (p.at 70 2))).finish c (Ending.ok (p.at 70 2) s2.log.newest)) :=
  congrArg Host.Outcome.next (h.runMgmt hslot htake hc hio _)

/-- TELEMETRY_READ writes the set, and returns its bytes (R400). -/
theorem Ready.exec_telemetryRead (h : Ready s p 0x0C08 c x) (hslot : c.slot = none) (htake : s.takeSlot c clsMaintenance = .ok s1)
    (hc : s1.checkTelemetry (c.view s1).ctx x p = .ok ()) (hio : s1.mgmtTouch c 10 [s1.ioOf c 64 true] = .ok s2) {bs : List Byte}
    (hbs : bs = s2.telemetry (p.at 68 1) (c.view s2).ctx) :
    exec (.telemetryRead p) s = .next ((s2.mgmtWrite c 64 bs).finish c (Ending.ok bs.length 0)) := by
  subst hbs
  exact congrArg Host.Outcome.next (h.runMgmt hslot htake hc hio _)

/-- PROFILE_SET notes its change for the second boundary after its admission (R414). -/
theorem Ready.exec_profileSet (h : Ready s p 0x0C09 c x) (htake : s.takeSlot c clsMaintenance = .ok s1) (hc : State.checkProfileSet p = .ok ()) :
    exec (.profileSet p) s = .next (State.finish
      { s1 with power := { s1.power with changes := s1.power.changes ++ [(c.admitted + 2, p.at 64 1)] } } c (Ending.ok (c.admitted + 2) 0)) := by
  refine congrArg Host.Outcome.next ((h.runProof htake _).trans ?_)
  simp only [hc]
  rfl

/-! ### Strokes and bank switches (R139, R182, R266) -/

/-- STROKE_SET puts its change behind those before it (R139). -/
theorem Ready.exec_strokeSet (h : Ready s p 0x0D01 c x) (hc : s.checkStrokeSet p = .ok ()) :
    exec (.strokeSet p) s = .next (State.finish { s with strk := { s.strk with
      origin := s.originFrom p
      changes := (s.strk.changes.filter fun y => decide (y.effective < p.at 72 6)) ++ [strokeChange p] } } c (Ending.ok 0 0)) := by
  refine congrArg Host.Outcome.next (h.runNow_ok ?_)
  simp only [hc]
  rfl

/-- STROKE_QUERY returns the stroke number and the alignment state (R182). -/
theorem Ready.exec_strokeQuery (h : Ready s p 0x0D04 c x) (hc : zeroBytes p 64 79 = .ok ()) :
    exec (.strokeQuery p) s =
      .next (s.finish c (Ending.ok (s.strk.now % 2 ^ 32) (s.strk.align.code * 2 ^ 16 + bitsOf s.strk.now 47 32))) := by
  refine congrArg Host.Outcome.next (h.runNow_ok ?_)
  simp only [hc]
  rfl

/-- ROUTEMAP_SWITCH schedules its bank for its stroke (R266). -/
theorem Ready.exec_routemapSwitch (h : Ready s p 0x0D03 c x) (hc : s.checkRoutemapSwitch p = .ok ()) :
    exec (.routemapSwitch p) s =
      .next (State.finish { s with fabric := { s.fabric with switch := some (p.at 64 1, p.at 72 6) } } c (Ending.ok 0 0)) := by
  refine congrArg Host.Outcome.next (h.runNow_ok ?_)
  simp only [hc]
  rfl

/-! ### ROUTEMAP_LOAD (R265) -/

variable {a b : Desc} (h : Ready s p 0x0D02 c x) (hc : s.checkRoutemapLoad (c.view s).ctx p = .ok ())
  (hio : s.mgmtTouch c 7 [s.ioOf c 68 false, s.ioOf c 72 false] = .ok s2) (ha : s2.desc (c.view s2).ctx (p.at 68 4) = some a)
  (hb : s2.desc (c.view s2).ctx (p.at 72 4) = some b)
include h hc hio ha

/-- A wrong map is logged with the field that fails, and refused (assumption 23). -/
theorem Ready.exec_routemapLoad_refused {o : Nat}
    (hmap : s2.checkMap (s2.descBytes (c.view s2) a) (s2.descBytes (c.view s2) a).length = some o) :
    exec (.routemapLoad p) s = .next ((s2.logEvent 0x0501 13 0 (c.view s2).ctx 0 (2 + o % 256 * 256)).finish c (badField 68)) := by
  show execRoutemapLoad p s = _
  simp only [execRoutemapLoad, State.forOp, h.opcode, h.start, Option.orElse_some, hc, hio, ha, hmap, ↓reduceIte, Option.map_some, Option.getD_some]

include hb

/-- A right map and a right schedule fill the bank. -/
theorem Ready.exec_routemapLoad_fills (hmap : s2.checkMap (s2.descBytes (c.view s2) a) (s2.descBytes (c.view s2) a).length = none)
    (hsch : checkSchedule (s2.descBytes (c.view s2) b) s2.strk.period = none) :
    exec (.routemapLoad p) s = .next (State.finish { s2 with fabric := { s2.fabric with
      banks := Kv.set (p.at 64 1) { map := (s2.descBytes (c.view s2) a).take (mapBytes (s2.descBytes (c.view s2) a))
                                    schedule := s2.descBytes (c.view s2) b } s2.fabric.banks } } c (Ending.ok 0 0)) := by
  show execRoutemapLoad p s = _
  simp only [execRoutemapLoad, State.forOp, h.opcode, h.start, Option.orElse_some, hc, hio, ha, hb, hmap, hsch, ↓reduceIte, Option.map_some,
    Option.getD_some]

end Rows

/-- Settles O25, command by command. -/
theorem managementCommandsComplete : Obligations.ManagementCommandsComplete := by
  unfold Obligations.ManagementCommandsComplete
  refine ⟨?logRead, ?telemetryRead, ?profileSet, ?strokeSet, ?strokeQuery, ?routemapLoad, ?routemapSwitch⟩
  case logRead => exact fun _ _ _ _ _ _ h hslot htake hc hio => h.exec_logRead hslot htake hc hio
  case telemetryRead => exact fun _ _ _ _ _ _ _ h hslot htake hc hio hbs => h.exec_telemetryRead hslot htake hc hio hbs
  case profileSet => exact fun _ _ _ _ _ h htake hc => h.exec_profileSet htake hc
  case strokeSet => exact fun _ _ _ _ h hc => h.exec_strokeSet hc
  case strokeQuery => exact fun _ _ _ _ h hc => h.exec_strokeQuery hc
  case routemapLoad =>
    rintro s s2 p c x a b _ _ h hc hio ha hb rfl rfl
    refine ⟨fun o hmap => h.exec_routemapLoad_refused hc hio ha hmap, ?_⟩
    rintro _ hmap hsch rfl
    exact h.exec_routemapLoad_fills hc hio ha hb hmap hsch
  case routemapSwitch => exact fun _ _ _ _ h hc => h.exec_routemapSwitch hc

end Sys2Proof.Machine
end

section
/-! PROOFS. The stroke boundary, the alignment to a time source and the opening of slots (09_strokes.md R139, R140, R151 to R155,
19_failure_survival_and_replay.md R337, 24_power_clocks_reset.md R402, R409, R411). -/

namespace Sys2Proof.Machine

open Sys2Proof

section Rows

variable {s : State}

/-! ### STROKE_BOUNDARY (R140, R337, R402, R409) -/

/-- An alignment state changes neither the stroke number nor the changes that wait (R153). -/
theorem State.setAlign_now (s : State) (a : Align) : (s.setAlign a).strk.now = s.strk.now := by
  unfold State.setAlign
  dsimp only
  split
  · rfl
  · rw [logEvent_frame]

theorem State.applyChange_now (s : State) (x : StrokeChange) : (s.applyChange x).strk.now = s.strk.now := State.setAlign_now _ _

/-- Action 1 sets the stroke number; the changes whose stroke has come leave it. -/
theorem State.nextBoundary_now (s : State) : s.nextBoundary.strk.now = s.nextStroke % 2 ^ 48 := by
  have hkeep (l : List StrokeChange) (t : State) : (l.foldl State.applyChange t).strk.now = t.strk.now := by
    induction l generalizing t with
    | nil => rfl
    | cons x l ih => exact (ih _).trans (t.applyChange_now x)
  exact hkeep _ _

theorem State.logDropped_strk (s : State) : s.logDropped.strk = s.strk := by
  unfold State.logDropped
  dsimp only
  split
  · rfl
  · rw [logEvent_frame]

theorem State.evaluateOffset_now (s : State) (x : Option Int) : (s.evaluateOffset x).strk.now = s.strk.now := by
  unfold State.evaluateOffset
  split <;> rfl

/-- The stroke number moves on at every boundary of the auxiliary domain. -/
theorem State.auxBoundary_now (s : State) (b : BoundaryInput) : (s.auxBoundary b).strk.now = s.nextStroke % 2 ^ 48 :=
  calc (s.auxBoundary b).strk.now
    _ = s.nextBoundary.logDropped.strk.now := State.evaluateOffset_now _ _
    _ = s.nextBoundary.strk.now := by rw [State.logDropped_strk]
    _ = s.nextStroke % 2 ^ 48 := s.nextBoundary_now

theorem exec_strokeBoundary_porst (b : BoundaryInput) (h : s.side.porst = true) : exec (.strokeBoundary b) s = .next s :=
  congrArg Host.Outcome.next (if_pos h)

section Boundary

variable (b : BoundaryInput) (hup : s.side.porst = false)
include hup

theorem exec_strokeBoundary_stopped (h : s.power.stopped = true) : exec (.strokeBoundary b) s = .next (s.auxBoundary b) := by
  show execStrokeBoundary b s = _
  simp only [execStrokeBoundary, hup, h, Bool.false_eq_true, ↓reduceIte]

theorem exec_strokeBoundary_runs (h : s.power.stopped = false) (hwake : (s.boundaryHead b).sleeps = false) :
    exec (.strokeBoundary b) s = .next (s.boundaryHead b).boundaryMiddle.boundaryEnd := by
  show execStrokeBoundary b s = _
  simp only [execStrokeBoundary, hup, h, hwake, Bool.false_eq_true, ↓reduceIte]

theorem exec_strokeBoundary_sleeps (h : s.power.stopped = false) (hsleep : (s.boundaryHead b).sleeps = true) :
    exec (.strokeBoundary b) s = .next (s.boundaryHead b).enterStandby := by
  show execStrokeBoundary b s = _
  simp only [execStrokeBoundary, hup, h, hsleep, Bool.false_eq_true, ↓reduceIte]

end Boundary

/-! ### PTP_SYNC and SYNC_TIMEOUT (R139, R153, R155) -/

/-- A message of another source or port is nothing to the part. -/
theorem exec_ptpSync_other {m : PtpMessage} (h : s.strk.source = 0 ∨ m.source ≠ s.strk.source ∨ m.port ≠ s.strk.port) :
    exec (.ptpSync m) s = .next s := congrArg Host.Outcome.next (if_pos h)

section Named

variable {m : PtpMessage} {n : Nat} (hnamed : ¬ (s.strk.source = 0 ∨ m.source ≠ s.strk.source ∨ m.port ≠ s.strk.port))
include hnamed

/-- A two-step Sync bounds the offset and waits for its Follow_Up. -/
theorem exec_ptpSync_twoStep (hm : m.body = .sync n none) :
    exec (.ptpSync m) s = .next { s with strk := { s.strk with unbounded := false, ptpSync := some (n, m.arrival) } } := by
  show execPtpSync m s = _
  simp only [execPtpSync, if_neg hnamed, hm]

/-- A one-step Sync bounds the offset and is complete. -/
theorem exec_ptpSync_oneStep {sent : Int} (hm : m.body = .sync n (some sent)) :
    exec (.ptpSync m) s = .next (State.syncDone
      { s with strk := { s.strk with unbounded := false, ptpSync := some (n, m.arrival) } } sent m.arrival m.departure) := by
  show execPtpSync m s = _
  simp only [execPtpSync, if_neg hnamed, hm]

/-- The Follow_Up of the Sync that waits completes it. -/
theorem exec_ptpSync_followUp {sent a : Int} (hm : m.body = .followUp n sent) (hsync : s.strk.ptpSync = some (n, a)) :
    exec (.ptpSync m) s = .next (s.syncDone sent a m.departure) := by
  show execPtpSync m s = _
  simp only [execPtpSync, if_neg hnamed, hm, hsync, ↓reduceIte]

theorem exec_ptpSync_followUp_unmatched {sent : Int} (hm : m.body = .followUp n sent) (hsync : s.strk.ptpSync.map (·.1) ≠ some n) :
    exec (.ptpSync m) s = .next s := by
  show execPtpSync m s = _
  simp only [execPtpSync, if_neg hnamed, hm]
  cases hs : s.strk.ptpSync with
  | none => rfl
  | some w => exact congrArg Host.Outcome.next (if_neg fun hw => hsync (by rw [hs, Option.map_some, hw]))

theorem exec_ptpSync_delayAnswer {received : Int} (hm : m.body = .delayAnswer n received) :
    exec (.ptpSync m) s = .next (s.delayDone n received) := by
  show execPtpSync m s = _
  simp only [execPtpSync, if_neg hnamed, hm]

end Named

/-- The answer to the delay request that waits gives the path delay, half of both ways (assumption 161). -/
theorem State.delayDone_matched {n : Nat} {received left d : Int} (hreq : s.strk.ptpRequest = some (n, left)) (hdiff : s.strk.ptpDiff = some d) :
    s.delayDone n received = { s with strk := { s.strk with ptpRequest := none, ptpDelay := (d + (received - left)) / 2 } } := by
  simp only [State.delayDone, hreq, hdiff, ↓reduceIte]

theorem State.delayDone_unmatched {n : Nat} (hreq : s.strk.ptpRequest.map (·.1) ≠ some n) (received : Int) : s.delayDone n received = s := by
  unfold State.delayDone
  split
  case h_1 k left d hk hd => exact if_neg fun hkn => hreq (by rw [hk, Option.map_some, hkn])
  case h_2 => rfl

theorem exec_syncTimeout_ptp (h : s.strk.source ≠ 0) : exec .syncTimeout s = .next { s with strk := { s.strk with unbounded := true } } :=
  congrArg Host.Outcome.next (if_neg h)

theorem exec_syncTimeout_local (h : s.strk.source = 0) : exec .syncTimeout s = .next s := congrArg Host.Outcome.next (if_pos h)

/-! ### Alignment (R153) -/

/-- Another alignment state is entered with an entry in the trouble log. -/
theorem State.setAlign_of_ne {a : Align} (h : s.strk.align ≠ a) : s.setAlign a =
    ({ s with strk := { s.strk with align := a, within := 0, beyond := 0 } } : State).logEvent 0x0403 11 0 noContext a.code (twos 64 s.strk.offset) :=
  if_neg h

theorem exec_alignmentAcquired_few (h : s.strk.within < 8) : exec .alignmentAcquired s = .next s :=
  congrArg Host.Outcome.next (if_neg fun hw => absurd hw.2 (Nat.not_le.2 h))

/-- Eight boundaries in a row within ±100 ns bring ALIGNED. -/
theorem exec_alignmentAcquired_eight (ha : s.strk.align = .acquiring ∨ s.strk.align = .unaligned) (h : 8 ≤ s.strk.within) :
    exec .alignmentAcquired s = .next (({ s with strk := { s.strk with align := .aligned, within := 0, beyond := 0 } } : State).logEvent
      0x0403 11 0 noContext 2 (twos 64 s.strk.offset)) := by
  have hne : s.strk.align ≠ .aligned := by rcases ha with ha | ha <;> simp [ha]
  exact congrArg Host.Outcome.next ((if_pos ⟨ha, h⟩).trans (State.setAlign_of_ne hne))

theorem exec_alignmentLost_few (h : s.strk.beyond < 3) : exec .alignmentLost s = .next s :=
  congrArg Host.Outcome.next (if_neg fun hw => absurd hw.2 (Nat.not_le.2 h))

theorem exec_alignmentLost_three (ha : s.strk.align = .aligned) (h : 3 ≤ s.strk.beyond) : exec .alignmentLost s = .next s.loseAlignment :=
  congrArg Host.Outcome.next (if_pos ⟨ha, h⟩)

/-- ALIGNED is lost: UNALIGNED, and the alignment-lost bit; no command and no byte of memory changes. -/
theorem State.loseAlignment_spec (ha : s.strk.align = .aligned) : s.loseAlignment.strk.align = .unaligned ∧ s.loseAlignment.host.alignLost = true ∧
    s.loseAlignment.cmds = s.cmds ∧ s.loseAlignment.mem = s.mem := by
  rw [State.loseAlignment, if_pos ha, State.setAlign_of_ne (by simp [ha]), logEvent_frame]
  exact ⟨rfl, rfl, rfl, rfl⟩

/-! ### SLOT_OPEN (R151) -/

section Slot

variable {p i : Nat} {es : List (Nat × Nat × Nat × Nat)} {e : Nat × Nat × Nat × Nat} (hs : s.schedule = some es) (he : es[i]? = some e)
include hs he

theorem exec_slotOpen_governed (h : bitOf e.2.2.2 p = true) :
    exec (.slotOpen p i) s = .next ((s.updPort p fun q => { q with slot := some i }).portLane p (e.1 + 100)) := by
  show execSlotOpen p i s = _
  simp only [execSlotOpen, hs, he, h, ↓reduceIte]

theorem exec_slotOpen_not_governed (h : bitOf e.2.2.2 p = false) : exec (.slotOpen p i) s = .next s := by
  show execSlotOpen p i s = _
  simp only [execSlotOpen, hs, he, h, Bool.false_eq_true, ↓reduceIte]

end Slot

end Rows

/-- Settles O34, row by row: STROKE_BOUNDARY by what the part is in, the messages of a time source by what they tell, then the alignment rows and
SLOT_OPEN. -/
theorem strokeRowsComplete : Obligations.StrokeRowsComplete := by
  unfold Obligations.StrokeRowsComplete
  refine ⟨?boundary, ?named, fun _ _ h => exec_ptpSync_other h, fun _ => ⟨exec_syncTimeout_ptp, exec_syncTimeout_local⟩, ?acquired, ?lost, ?slot⟩
  case boundary =>
    intro s b
    refine ⟨exec_strokeBoundary_porst b, fun hup hstop => ?_, exec_strokeBoundary_runs b, fun hup hrun hsleep => ?_⟩
    · exact ⟨exec_strokeBoundary_stopped b hup hstop, s.auxBoundary_now b⟩
    · exact ⟨_, exec_strokeBoundary_sleeps b hup hrun hsleep, rfl, rfl⟩
  case named =>
    intro s m h0 hsource hport
    have hnamed : ¬ (s.strk.source = 0 ∨ m.source ≠ s.strk.source ∨ m.port ≠ s.strk.port) := by simp [h0, hsource, hport]
    refine ⟨fun n hm => exec_ptpSync_twoStep hnamed hm, ?oneStep, ?followUp, ?noSync, ?answer, ?noRequest⟩
    case oneStep =>
      rintro n sent _ hm rfl
      exact exec_ptpSync_oneStep hnamed hm
    case followUp =>
      rintro n sent a _ hm hsync rfl
      exact exec_ptpSync_followUp hnamed hm hsync
    case noSync => exact fun n sent hm hsync => exec_ptpSync_followUp_unmatched hnamed hm hsync
    case answer =>
      intro n received left d hm hreq hdiff
      rw [exec_ptpSync_delayAnswer hnamed hm, State.delayDone_matched hreq hdiff]
    case noRequest =>
      intro n received hm hreq
      rw [exec_ptpSync_delayAnswer hnamed hm, State.delayDone_unmatched hreq]
  case acquired => exact fun _ ha => ⟨exec_alignmentAcquired_eight ha, exec_alignmentAcquired_few⟩
  case lost => exact fun _ ha => ⟨fun h => ⟨_, exec_alignmentLost_three ha h, State.loseAlignment_spec ha⟩, exec_alignmentLost_few⟩
  case slot => exact fun _ _ _ _ _ hs he => ⟨exec_slotOpen_governed hs he, exec_slotOpen_not_governed hs he⟩

end Sys2Proof.Machine
end

section
/-! PROOFS. What the ending of a command changes (10_command_queues.md R169, R170), and the admission of groups (09_strokes.md R142,
10_command_queues.md R161, R165, R169, 18_model_distribution.md R321). -/

namespace Sys2Proof.Machine

open Sys2Proof

/-! ### What the ending of one command changes -/

theorem State.finish_frame (s : State) (c : Cmd) (e : Ending) : s.finish c e = { s with cmds := (s.finish c e).cmds } := rfl

/-- Settles O49 by what a number finds after an ending. -/
theorem endingEndsOneCommand : Obligations.EndingEndsOneCommand := by
  unfold Obligations.EndingEndsOneCommand
  refine fun s c e => ⟨s.finish_frame c e, fun d hd => ?own, fun q k hother => ?other⟩
  case own => rw [findCmd_finish, if_pos ⟨rfl, rfl⟩, hd, Option.map_some]
  case other => rw [findCmd_finish, if_neg hother]

/-! ### Commands that end together -/

/-- Every command of a list ends, each with its own ending. -/
def State.endAll (s : State) (l : List (Cmd × Ending)) : State := l.foldl (fun s g => s.finish g.1 g.2) s

@[simp] theorem State.endAll_nil (s : State) : s.endAll [] = s := rfl

@[simp] theorem State.endAll_cons (s : State) (g : Cmd × Ending) (l : List (Cmd × Ending)) : s.endAll (g :: l) = (s.finish g.1 g.2).endAll l := rfl

theorem State.finish_cmds_congr {s t : State} (h : t.cmds = s.cmds) (c : Cmd) (e : Ending) : (t.finish c e).cmds = (s.finish c e).cmds := by
  simp only [State.finish, State.updCmd, h]

theorem findCmd_congr {s t : State} (h : t.cmds = s.cmds) (q k : Nat) : t.findCmd q k = s.findCmd q k := by
  simp only [State.findCmd, h]

/-- A fold of which each step ends one command ends them all; what else the steps change does not count. -/
theorem cmds_foldl_eq_endAll {α : Type} {f : State → α → State} (g : α → Cmd × Ending)
    (hf : ∀ s a, (f s a).cmds = (s.finish (g a).1 (g a).2).cmds) (l : List α) {s t : State} (h : t.cmds = s.cmds) :
    (l.foldl f t).cmds = (s.endAll (l.map g)).cmds := by
  induction l generalizing s t with
  | nil => exact h
  | cons a l ih => exact ih ((hf t a).trans (State.finish_cmds_congr h _ _))

theorem State.endAll_seqs (s : State) (l : List (Cmd × Ending)) : (s.endAll l).cmds.map (·.seq) = s.cmds.map (·.seq) := by
  induction l generalizing s with
  | nil => rfl
  | cons g l ih =>
    rw [State.endAll_cons, ih]
    simp only [State.finish, State.updCmd, List.map_map]
    refine List.map_congr_left fun d _ => ?_
    simp only [Function.comp_apply]
    split <;> rfl

/-- What is admitted after the endings is a command that none of them touched. -/
theorem State.mem_of_mem_endAll {s : State} {l : List (Cmd × Ending)} {d : Cmd} (h : d ∈ (s.endAll l).cmds) (hd : d.phase = .admitted) :
    d ∈ s.cmds := by
  induction l generalizing s with
  | nil => exact h
  | cons g l ih =>
    obtain ⟨b, hb, rfl⟩ := List.mem_map.1 (ih h)
    split at hd
    · cases hd
    · rwa [if_neg ‹_›]

theorem findCmd_endAll_of_not_mem {s : State} {l : List (Cmd × Ending)} {q k : Nat} (h : (q, k) ∉ l.map fun g => (g.1.queue, g.1.seq)) :
    (s.endAll l).findCmd q k = s.findCmd q k := by
  induction l generalizing s with
  | nil => rfl
  | cons g l ih =>
    simp only [List.map_cons, List.mem_cons, Prod.mk.injEq, not_or] at h
    rw [State.endAll_cons, ih h.2, findCmd_finish, if_neg h.1]

/-- A command of the list, whose numbers no other has, is finished with the ending that the list gives it. -/
theorem phase_findCmd_endAll {s : State} {l : List (Cmd × Ending)} (hl : (l.map fun g => (g.1.queue, g.1.seq)).Nodup) {c : Cmd} {e : Ending}
    (hc : (c, e) ∈ l) (hs : (s.findCmd c.queue c.seq).isSome = true) :
    ((s.endAll l).findCmd c.queue c.seq).map (·.phase) = some (.finished e) := by
  induction l generalizing s with
  | nil => cases hc
  | cons g l ih =>
    obtain ⟨hg, hl⟩ := List.nodup_cons.1 hl
    rw [State.endAll_cons]
    rcases List.mem_cons.1 hc with rfl | hc
    · obtain ⟨d, hd⟩ := Option.isSome_iff_exists.1 hs
      rw [findCmd_endAll_of_not_mem hg, findCmd_finish, if_pos ⟨rfl, rfl⟩, hd]
      rfl
    · refine ih hl hc ?_
      rw [findCmd_finish]
      split
      · rwa [Option.isSome_map]
      · exact hs

/-! ### A group that a check refuses (R165) -/

theorem State.notePin_cmds (s : State) (n : Nat) (c : Cmd) (e : Ending) : (s.notePin n c e).cmds = s.cmds := by
  unfold State.notePin State.inkPinFault State.inkMedia
  split
  · split_ifs
    · rw [faultRecord_frame]
    · split
      · rw [logMedia_frame, faultRecord_frame]
      · rfl
    · rfl
  · rfl

theorem State.noteWalk_cmds (s : State) (n : Nat) (c : Cmd) (e : Ending) : (s.noteWalk n c e).cmds = s.cmds := by
  unfold State.noteWalk
  split
  · split_ifs
    · rw [faultRecord_frame]
    · rfl
  · rfl

/-- How a refusal ends a group: a failing command with its own status, another with GROUP_ENDED. -/
def refusals (group : List Cmd) (fails : List (Option Ending)) : List (Cmd × Ending) :=
  (group.zip fails).map fun g => (g.1, g.2.getD (conflict scGroupEnded))

theorem State.refuseGroup_cmds (s : State) (group : List Cmd) (fails : List (Option Ending)) :
    (s.refuseGroup group fails).cmds = (s.endAll (refusals group fails)).cmds := by
  refine cmds_foldl_eq_endAll _ (fun s g => ?_) _ rfl
  refine State.finish_cmds_congr ?_ g.1 (g.2.getD (conflict scGroupEnded))
  split
  · rw [State.noteWalk_cmds, State.notePin_cmds]
  · rfl

theorem State.groupFailures_length (s : State) (x : Ctx) (g : List Cmd) : (s.groupFailures x g).length = g.length := by
  simp [State.groupFailures]

/-- The refusals name the group's commands in their order. -/
theorem numbers_refusals {group : List Cmd} {fails : List (Option Ending)} (h : fails.length = group.length) :
    ((refusals group fails).map fun g => (g.1.queue, g.1.seq)) = group.map fun c => (c.queue, c.seq) := by
  rw [refusals, List.map_map, ← List.map_fst_zip (l₁ := group) (l₂ := fails) h.ge, List.map_map, List.map_fst_zip h.ge]
  rfl

theorem mem_refusals {group : List Cmd} {fails : List (Option Ending)} (h : fails.length = group.length) {i : Nat} {c : Cmd}
    (hc : group[i]? = some c) :
    (c, (fails.getD i none).getD (conflict scGroupEnded)) ∈ refusals group fails := by
  obtain ⟨hi, rfl⟩ := List.getElem?_eq_some_iff.1 hc
  refine List.mem_map.2 ⟨(group[i], fails[i]), ?_, ?_⟩
  · exact List.mem_iff_getElem.2 ⟨i, by simp [h, hi], by simp⟩
  · simp [h, hi]

/-! ### What an admission notes (R122, R165, R303, R317, R333, R334, R363) -/

/-- t is s after the notes of an admission: they change no command and no queue. -/
def Notes (s t : State) : Prop := ∃ (free : Nat) (mem : Memory) (host : HostPort) (ctxs : List (Nat × Ctx)) (buckets : List Bucket)
  (manifests : List (Nat × Manifest)) (streams : List (Nat × EStream)),
  t = { s with free := free, mem := mem, host := host, ctxs := ctxs, buckets := buckets, manifests := manifests, streams := streams }

theorem Notes.refl (s : State) : Notes s s := ⟨_, _, _, _, _, _, _, rfl⟩

theorem Notes.trans {s t u : State} : Notes s t → Notes t u → Notes s u := by
  rintro ⟨_, _, _, _, _, _, _, rfl⟩ ⟨_, _, _, _, _, _, _, rfl⟩
  exact ⟨_, _, _, _, _, _, _, rfl⟩

theorem Notes.queues {s t : State} : Notes s t → t.queues = s.queues := by
  rintro ⟨_, _, _, _, _, _, _, rfl⟩
  rfl

theorem Notes.cmds {s t : State} : Notes s t → t.cmds = s.cmds := by
  rintro ⟨_, _, _, _, _, _, _, rfl⟩
  rfl

theorem Notes.foldl {α : Type} {f : State → α → State} (hf : ∀ s a, Notes s (f s a)) (l : List α) (s : State) : Notes s (l.foldl f s) :=
  foldl_related Notes.refl Notes.trans id hf l s

/-- A note that is made under a condition. -/
theorem Notes.ite {p : Prop} [Decidable p] {s t : State} (h : Notes s t) : Notes s (if p then t else s) := by
  split
  · exact h
  · exact .refl s

theorem Stores.notes {s t : State} : Stores s t → Notes s t := by
  rintro ⟨_, _, rfl⟩
  exact ⟨_, _, _, _, _, _, _, rfl⟩

theorem State.updCtx_notes (s : State) (n : Nat) (f : Ctx → Ctx) : Notes s (s.updCtx n f) := ⟨_, _, _, _, _, _, _, rfl⟩

theorem State.draw_notes (s : State) (w : Nat) : Notes s (s.draw w).2 := ⟨_, _, _, _, _, _, _, rfl⟩

theorem State.drawNs_notes (s : State) : Notes s s.drawNs.2 := s.draw_notes 32

theorem State.updLedger_notes (s : State) (n : Nat) (f : Ledger → Ledger) : Notes s (s.updLedger n f) := s.updCtx_notes n _

theorem State.vput_notes (s : State) (n va : Nat) (bs : List Byte) : Notes s (s.vput n va bs) := (s.vwrite_stores n [] va bs).notes

theorem State.ledgerFlag_notes (s : State) (n step mask : Nat) : Notes s (s.ledgerFlag n step mask) := by
  unfold State.ledgerFlag
  split
  · exact .ite (s.vput_notes _ _ _)
  · exact .refl s

theorem State.layerDigests_notes (s : State) (n : Nat) (l : Ledger) (va : Nat) : Notes s (s.layerDigests n l va) := by
  refine Notes.foldl (fun t i => ?_) _ s
  dsimp only
  split
  · exact .refl t
  · exact t.vput_notes _ _ _

theorem State.interval_notes (s : State) (n : Nat) (l : Ledger) : Notes s (s.interval n l) := by
  unfold State.interval
  dsimp only
  split <;> exact s.vput_notes _ _ _

theorem State.closeVerified_notes (s : State) (n step : Nat) (l : Ledger) : Notes s (s.closeVerified n step l) := by
  have hdraw := s.drawNs_notes
  unfold State.closeVerified
  generalize s.drawNs = r at hdraw
  obtain ⟨ns, t⟩ := r
  dsimp -zeta only
  extract_lets _ tensors last _ _ figures
  have hlast : Notes s last := (hdraw.trans (t.vput_notes _ _ _)).trans (State.vput_notes _ _ _ _)
  have hfigures : Notes s figures := hlast.trans (.ite (State.interval_notes _ _ _))
  exact hfigures.trans (State.updLedger_notes _ _ _)

theorem State.closeEntry_notes (s : State) (n step : Nat) : Notes s (s.closeEntry n step) := by
  unfold State.closeEntry
  split
  · exact .refl s
  · split
    · exact .refl s
    · split
      · exact .refl s
      · extract_lets _ flagged _ _ _ digests state stroke _ _ hashes replayed closed
        have hflagged : Notes s flagged := .ite (s.ledgerFlag_notes _ _ _)
        have hdigests : Notes s digests := hflagged.trans (.ite (State.layerDigests_notes _ _ _ _))
        have hhashes : Notes s hashes :=
          ((hdigests.trans (State.vput_notes _ _ _ _)).trans (State.vput_notes _ _ _ _)).trans (State.vput_notes _ _ _ _)
        have hreplayed : Notes s replayed := by
          refine hhashes.trans ?_
          subst replayed
          split
          · exact .ite (State.vput_notes _ _ _ _)
          · exact .refl _
        have hclosed : Notes s closed := hreplayed.trans (.ite (State.closeVerified_notes _ _ _ _))
        exact hclosed.trans (State.updLedger_notes _ _ _)

theorem State.openEntry_notes (s : State) (n step : Nat) (byAdmission : Bool) : Notes s (s.openEntry n step byAdmission) := by
  unfold State.openEntry
  split
  · exact .refl s
  · split
    · exact .refl s
    · split
      · exact .refl s
      · extract_lets _ _ entry _ opened _ attempts kept
        have hattempts : Notes s attempts := ((s.vput_notes _ _ _).trans (State.updLedger_notes _ _ _)).trans (State.vput_notes _ _ _ _)
        have hkept : Notes s kept := by
          refine hattempts.trans ?_
          subst kept
          split
          · exact .ite (Notes.foldl (fun t i => t.vput_notes _ _ _) _ _)
          · exact .refl _
        exact hkept.trans (.ite (State.ledgerFlag_notes _ _ _ _))

theorem State.noteAdmission_notes (s : State) (n : Nat) (p : Packet) : Notes s (s.noteAdmission n p) := by
  unfold State.noteAdmission
  split
  · exact .refl s
  · extract_lets _ closed opened _
    have hopened : Notes s opened :=
      (Notes.foldl (fun t k => .ite (t.closeEntry_notes n k)) _ s).trans (State.openEntry_notes _ _ _ _)
    split
    · have hdrawn := hopened.trans opened.drawNs_notes
      generalize opened.drawNs = r at hdrawn
      obtain ⟨ns, t⟩ := r
      dsimp -zeta only
      extract_lets _ _ _ first sum count resumed told narrow
      have hfirst : Notes s first :=
        hdrawn.trans (.ite (((State.updLedger_notes _ _ _).trans (State.vput_notes _ _ _ _)).trans (State.vput_notes _ _ _ _)))
      have hcount : Notes s count := (hfirst.trans (State.vput_notes _ _ _ _)).trans (State.vput_notes _ _ _ _)
      have htold : Notes s told := (hcount.trans (.ite (State.ledgerFlag_notes _ _ _ _))).trans (State.updLedger_notes _ _ _)
      have hnarrow : Notes s narrow := htold.trans (.ite (State.ledgerFlag_notes _ _ _ _))
      exact hnarrow.trans (.ite (State.ledgerFlag_notes _ _ _ _))
    · exact hopened

theorem State.noteWrites_notes (s : State) (n : Nat) (p : Packet) : Notes s (s.noteWrites n p) := by
  unfold State.noteWrites
  dsimp only
  split
  · exact .refl s
  · exact s.updLedger_notes _ _

theorem State.admitBucket_notes (s : State) (n : Nat) (p : Packet) : Notes s (s.admitBucket n p) := by
  unfold State.admitBucket
  split
  · exact .refl s
  · exact ⟨_, _, _, _, _, _, _, rfl⟩

theorem State.noteShard_notes (s : State) (p : Packet) : Notes s (s.noteShard p) := .ite ⟨_, _, _, _, _, _, _, rfl⟩

theorem State.noteRound_notes (s : State) (n : Nat) (p : Packet) : Notes s (s.noteRound n p) :=
  .ite ((s.drawNs_notes.trans (State.updLedger_notes _ _ _)).trans (State.ledgerFlag_notes _ _ _ _))

theorem State.noteStream_notes (s : State) (c : Cmd) : Notes s (s.noteStream c) := .ite ⟨_, _, _, _, _, _, _, rfl⟩

theorem State.admitCmd_notes (s : State) (n : Nat) (c : Cmd) : Notes s (s.admitCmd n c) := by
  unfold State.admitCmd
  extract_lets p noted stepped bound bucket
  have hnoted : Notes s noted := .ite ((s.noteAdmission_notes n p).trans (State.noteWrites_notes _ n p))
  have hstepped : Notes s stepped := by
    refine hnoted.trans ?_
    subst stepped
    split
    · exact State.updCtx_notes _ _ _
    · exact .refl _
  have hbucket : Notes s bucket := (hstepped.trans (State.updCtx_notes _ _ _)).trans (.ite (State.admitBucket_notes _ n p))
  exact ((hbucket.trans (State.noteShard_notes _ _)).trans (State.noteRound_notes _ _ _)).trans (State.noteStream_notes _ _)

theorem State.admitCmd_mem {s : State} {c : Cmd} (h : numbered c.pkt.opcode = false) (hsave : c.pkt.opcode ≠ 0x0A02) (n : Nat) :
    (s.admitCmd n c).mem = s.mem := by
  have hreduce : c.pkt.opcode ≠ 0x0802 := fun h' => by simp [h', numbered] at h
  have hround (t : State) : t.noteRound n c.pkt = t := if_neg hsave
  have hshard (t : State) : (t.noteShard c.pkt).mem = t.mem := by
    unfold State.noteShard
    split <;> rfl
  have hstream (t : State) : (t.noteStream c).mem = t.mem := by
    unfold State.noteStream
    dsimp only
    split_ifs <;> rfl
  unfold State.admitCmd
  simp only [h, Bool.false_eq_true, if_false, if_neg hreduce, hstream, hround, hshard, State.updCtx_mem]
  split <;> rfl

/-! ### A group that is admitted (R142, R165, R321) -/

/-- A command as its admission leaves it, bound to the windows of its context. -/
def State.admitted (s : State) (x : Ctx) (d : Cmd) : Cmd :=
  { d with phase := .admitted, admitted := s.strk.now, place := s.admissions, budget := s.fullBudget d, bound := x.binding }

/-- The commands of a group are admitted, and the counter of admissions moves on. -/
def State.takeGroup (s : State) (x : Ctx) (group : List Cmd) : State :=
  { s with
    cmds := s.cmds.map fun d => if ∃ c ∈ group, c.queue = d.queue ∧ c.seq = d.seq then s.admitted x d else d
    admissions := s.admissions + 1 }

/-- The group as admission's checks see it: its commands bound to the windows of their context. -/
def boundGroup (x : Ctx) (group : List Cmd) : List Cmd := group.map fun c => { c with bound := x.binding }

theorem State.admitGroup_eq (s : State) (n : Nat) (x : Ctx) (group : List Cmd) :
    s.admitGroup n x (boundGroup x group) = (boundGroup x group).foldl (fun s c => s.admitCmd n c) (s.takeGroup x group) := by
  simp [State.admitGroup, State.takeGroup, State.admitted, boundGroup]

theorem State.admitGroup_notes (s : State) (n : Nat) (x : Ctx) (group : List Cmd) :
    Notes (s.takeGroup x group) (s.admitGroup n x (boundGroup x group)) := by
  rw [State.admitGroup_eq]
  exact Notes.foldl (fun t c => t.admitCmd_notes n c) _ _

/-- Where no command of a group carries a step or saves, its admission writes nothing. -/
theorem State.admitGroup_mem {s : State} {x : Ctx} {group : List Cmd}
    (h : ∀ c ∈ group, numbered c.pkt.opcode = false ∧ c.pkt.opcode ≠ 0x0A02) (n : Nat) :
    (s.admitGroup n x (boundGroup x group)).mem = s.mem := by
  rw [State.admitGroup_eq]
  refine List.foldlRecOn _ _ (motive := fun (t : State) => t.mem = s.mem) rfl fun t ht c hc => ?_
  obtain ⟨d, hd, rfl⟩ := List.mem_map.1 hc
  obtain ⟨hstep, hsave⟩ := h d hd
  exact (State.admitCmd_mem hstep hsave n).trans ht

/-! ### One queue in a pass (R165) -/

theorem State.mem_visibleGroup {s : State} {q : Nat} {c : Cmd} (h : c ∈ s.visibleGroup q) : c ∈ s.cmds := by
  unfold State.visibleGroup at h
  cases hg : (s.visibleGroups q).head? with
  | none => simp [hg] at h
  | some g =>
    rw [hg, Option.getD_some] at h
    obtain ⟨k, -, rfl⟩ := List.mem_map.1 (List.mem_filter.1 (List.mem_of_head? hg)).1
    exact (List.mem_filter.1 (List.mem_filter.1 h).1).1

theorem State.findCmd_isSome_of_mem {s : State} {c : Cmd} (h : c ∈ s.cmds) : (s.findCmd c.queue c.seq).isSome = true :=
  List.find?_isSome.2 ⟨c, h, by simp⟩

theorem inkSample_frame (s : State) (n f : Nat) : s.inkSample n f = { s with mem := (s.inkSample n f).mem } := by
  have hclaim (va : Nat) : s.claimPage n va = { s with mem := (s.claimPage n va).mem } := by
    unfold State.claimPage
    repeat' split
    · rw [claim_frame]
    · rfl
    · rfl
  unfold State.inkSample
  split
  · rfl
  · split
    · rw [inkTouch_frame, hclaim]
    · rfl

theorem State.passQueue_passed {s : State} {q : Nat} {k : Queue} (hk : Kv.get q s.queues = some k)
    (h : k.state = .stopped ∨ 64 ≤ k.held.length ∨ s.visibleGroup q = []) : s.passQueue q = (s, false) := by
  unfold State.passQueue
  simp only [hk]
  split
  · rfl
  · rfl
  · exact if_pos (by simp_all)

/-- What a queue's turn does with its oldest whole group, after the sample t of its wait. -/
theorem State.passQueue_serves {s t : State} {q : Nat} {k : Queue} {x : Ctx} {f : Cmd} {g : List Cmd} {fails : List (Option Ending)}
    (hk : Kv.get q s.queues = some k) (hx : Kv.get k.owner s.ctxs = some x) (hg : s.visibleGroup q = f :: g) (hrun : k.state ≠ .stopped)
    (hheld : k.held.length < 64) (ht : t = s.inkSample k.owner f.pkt.wait) (hf : fails = s.groupFailures x (boundGroup x (f :: g))) :
    s.passQueue q =
      if fails.any (·.isSome) then (t.refuseGroup (f :: g) fails, false)
      else if t.groupReady k.owner x (f :: g) then (t.admitGroup k.owner x (boundGroup x (f :: g)), true)
      else (t, false) := by
  have hgo : ¬ (k.state = .stopped ∨ 64 ≤ k.held.length) := by simp [hrun, hheld]
  subst ht hf
  unfold State.passQueue
  simp only [hk, hx, hg, if_neg hgo]
  rfl

/-- What is admitted after a refusal was admitted before it, and is not of the refused group. -/
theorem State.mem_of_mem_refuseGroup {s : State} {group : List Cmd} {fails : List (Option Ending)} {c : Cmd}
    (h : c ∈ (s.refuseGroup group fails).cmds) (hc : c.phase = .admitted) : c ∈ s.cmds :=
  State.mem_of_mem_endAll (s.refuseGroup_cmds group fails ▸ h) hc

/-- Each command of a refused group ends: a failing one with its own status, another with GROUP_ENDED. -/
theorem State.phase_findCmd_refuseGroup {s : State} {group : List Cmd} {fails : List (Option Ending)} (hlength : fails.length = group.length)
    (hnodup : (group.map fun c => (c.queue, c.seq)).Nodup) {i : Nat} {c : Cmd} (hc : group[i]? = some c) (hmem : c ∈ s.cmds) :
    ((s.refuseGroup group fails).findCmd c.queue c.seq).map (·.phase) = some (.finished ((fails.getD i none).getD (conflict scGroupEnded))) := by
  rw [findCmd_congr (s.refuseGroup_cmds group fails)]
  exact phase_findCmd_endAll ((numbers_refusals hlength).symm ▸ hnodup) (mem_refusals hlength hc) (State.findCmd_isSome_of_mem hmem)

/-- Settles O33: ADMISSION_PASS, then a queue that serves its group (admitted, refused or waiting), then a queue that is passed over. -/
theorem admissionServesGroupsWhole : Obligations.AdmissionServesGroupsWhole := by
  unfold Obligations.AdmissionServesGroupsWhole
  refine ⟨fun s d => ⟨fun h => ?runs, fun h => ?stopped⟩, ?serves, fun s q k hk h => State.passQueue_passed hk h⟩
  case runs => exact congrArg Host.Outcome.next (if_neg (by simp [h]))
  case stopped => exact congrArg Host.Outcome.next (if_pos h)
  case serves =>
    intro s t q k x f g fails hk hx hg hrun hheld ht hfails
    have hserve := State.passQueue_serves hk hx hg hrun hheld ht hfails
    have hsample : t.cmds = s.cmds := by rw [ht, inkSample_frame]
    have hany : fails.any (·.isSome) = true ↔ ∃ e ∈ fails, e ≠ none := by
      simp [Option.isSome_iff_ne_none]
    have hnone (h : ∀ e ∈ fails, e = none) : ¬ fails.any (·.isSome) = true := by
      simpa [hany] using h
    refine ⟨fun hpass hready => ?admits, fun hfail => ?refuses, fun hpass hwait => ?waits⟩
    case admits =>
      rw [if_neg (hnone hpass), if_pos hready] at hserve
      have hnotes := t.admitGroup_notes k.owner x (f :: g)
      exact ⟨_, hserve, hnotes.queues, fun h => State.admitGroup_mem h _, hnotes.cmds⟩
    case refuses =>
      rw [if_pos (hany.2 hfail)] at hserve
      have hlength : fails.length = (f :: g).length := by
        rw [hfails, State.groupFailures_length, List.length_map]
      refine ⟨_, hserve, ?_, fun c hc hadmitted => ?_, fun hnodup i c hc => ?_⟩
      · rw [State.refuseGroup_cmds, State.endAll_seqs, hsample]
      · exact ⟨c, hsample ▸ State.mem_of_mem_refuseGroup hc hadmitted, rfl, rfl, hadmitted⟩
      · refine State.phase_findCmd_refuseGroup hlength hnodup hc ?_
        rw [hsample]
        exact State.mem_visibleGroup (hg ▸ List.mem_of_getElem? hc)
    case waits => rw [hserve, if_neg (hnone hpass), if_neg (by simp [hwait])]

end Sys2Proof.Machine
end

section
/-! PROOFS. The rows of queues: the reading of records (10_command_queues.md R158, R159, R164, R452), completion (10_command_queues.md R170,
13_host_coupling.md R236), and the waits that time out (10_command_queues.md R169, 12_memory_translation_isolation.md R216). -/

namespace Sys2Proof.Machine

open Sys2Proof

/-! ### The reading of a record (R158, R159, R164, R452) -/

section Fetch

variable {s : State} {k : Nat} {x : Queue}

theorem State.fetch_broken {a : Nat × FaultKind} (h : s.recordBroken x 64 = some a) (miss : State → State) :
    s.fetch k x miss = s.breakPin k x a x.expSeq accR x.sqBroken := by
  unfold State.fetch
  simp only [h]

/-- The lines that are read are those of the bytes that are read, whether or not LENGTH can be that of a packet. -/
theorem recordLines_eq (p : Prop) [Decidable p] (len : Nat) :
    (if p then max 1 (ceilDiv len 64) else 1) = max 1 (ceilDiv (if p then len else 64) 64) := by
  split <;> rfl

section Read

variable {u : State} {len n : Nat} (h : s.recordBroken x 64 = none)
  (hlen : len = leNat ((((s.claimPage x.owner (x.recordAddr 0)).recordBytes x 64).drop 4).take 2))
  (hn : n = if len ≤ 512 ∧ ceilDiv len 64 ≤ x.posted then len else 64)
  (hu : u = (s.claimPage x.owner (x.recordAddr 0)).cacheRing x (max 1 (ceilDiv n 64))) (hr : u.recordBroken x n = none)
include h hlen hn hu hr

/-- A visible record, whose pages can be read, is consumed once its first page is claimed and its lines are read. -/
theorem State.fetch_visible {bs : List Byte} (hv : u.visibleRecord x = some bs) (miss : State → State) : s.fetch k x miss = u.consume k x bs := by
  unfold State.fetch
  simp only [h, ← hlen, recordLines_eq, ← hn, ← hu, hr, hv]

/-- Where no record is visible, the ring's mark of a broken page is gone, and the row goes on as its own rule says. -/
theorem State.fetch_not_visible (hv : u.visibleRecord x = none) (miss : State → State) :
    s.fetch k x miss = miss (u.updQueue k fun y => { y with sqBroken := false }) := by
  unfold State.fetch
  simp only [h, ← hlen, recordLines_eq, ← hn, ← hu, hr, hv]

end Read

/-- A re-read counts where no record is visible, and the eighth stalls an active queue (R164). -/
def State.missReread (s : State) (k : Nat) (x : Queue) : State :=
  let s := s.updQueue k fun y => { y with rereads := y.rereads + 1 }
  if x.rereads + 1 = 8 ∧ x.state = .active then
    (s.updQueue k fun y => { y with state := .stalled }).logEvent 0x0301 10 0 x.owner k x.expSeq
  else s

variable (hx : Kv.get k s.queues = some x) (hread : s.mayRead k x = true)
include hx hread

theorem exec_recordFetch_read : exec (.recordFetch k) s = .next (s.fetch k x id) := by
  show execRecordFetch k s = _
  simp only [execRecordFetch, hx, if_pos hread]

theorem exec_stalledReread_read (hstalled : x.state = .stalled) (hspent : x.rereads = 8) : exec (.stalledReread k) s = .next (s.fetch k x id) := by
  show execStalledReread k s = _
  simp only [execStalledReread, hx, hread, hstalled, hspent, and_self, ↓reduceIte]

theorem exec_recordReread_read (hleft : x.rereads < 8) : exec (.recordReread k) s = .next (s.fetch k x fun s => s.missReread k x) := by
  show execRecordReread k s = _
  simp only [execRecordReread, hx, if_pos (And.intro hread hleft), State.missReread]

end Fetch

theorem State.updQueue_updQueue (s : State) (k : Nat) (f g : Queue → Queue) : (s.updQueue k f).updQueue k g = s.updQueue k (g ∘ f) := by
  have hmap (l : List (Nat × Queue)) : Kv.upd k g (Kv.upd k f l) = Kv.upd k (g ∘ f) l := by
    simp only [Kv.upd, List.map_map]
    refine List.map_congr_left fun e _ => ?_
    by_cases h : e.1 = k <;> simp [h]
  simp only [State.updQueue, hmap]

theorem State.missReread_counts {s : State} {k : Nat} {x : Queue} (h : x.rereads + 1 ≠ 8 ∨ x.state ≠ .active) :
    (s.updQueue k fun y => { y with sqBroken := false }).missReread k x =
      s.updQueue k fun y => { y with sqBroken := false, rereads := y.rereads + 1 } := by
  rw [State.missReread, if_neg (by tauto), State.updQueue_updQueue]
  rfl

theorem State.missReread_stalls {s : State} {k : Nat} {x : Queue} (hlast : x.rereads + 1 = 8) (hactive : x.state = .active) :
    (s.updQueue k fun y => { y with sqBroken := false }).missReread k x =
      (s.updQueue k fun y => { y with sqBroken := false, rereads := y.rereads + 1, state := .stalled }).logEvent 0x0301 10 0 x.owner k x.expSeq := by
  rw [State.missReread, if_pos ⟨hlast, hactive⟩, State.updQueue_updQueue, State.updQueue_updQueue]
  rfl

/-! ### Completion (R170, R236) -/

section Complete

variable {s : State} {q k : Nat} {c : Cmd} {e : Ending} (hc : s.findCmd q k = some c)
include hc

theorem exec_commandComplete_finished (he : c.phase = .finished e) (hfree : s.behindPosts c = false) :
    exec (.commandComplete q k) s =
      .next (if c.pkt.global then s.updCmd q k fun d => { d with phase := .flushing e } else s.completeNow c e) := by
  show execCommandComplete q k s = _
  simp only [execCommandComplete, hc, he, hfree, Bool.false_eq_true, ↓reduceIte]

theorem exec_globalFlushDone_flushing (he : c.phase = .flushing e) :
    exec (.globalFlushDone q k) s = .next (if s.mem.snooped = [] ∧ s.host.heldWrites = [] then s.completeNow c e else s) := by
  show execGlobalFlushDone q k s = _
  simp only [execGlobalFlushDone, hc, he, List.isEmpty_iff]

end Complete

/-! ### Waits that time out (R169, R216) -/

theorem State.expireGroup_eq (s : State) (g : List Cmd) (e : Ending) :
    s.expireGroup g e = s.endAll (g.zipIdx.map fun c => (c.1, if c.2 = 0 then e else conflict scGroupEnded)) := by
  rw [State.endAll, List.foldl_map]
  rfl

/-- Each command of a group that ends without having run is finished: the first with the group's ending, the others with GROUP_ENDED. -/
theorem State.phase_findCmd_expireGroup {s : State} {g : List Cmd} (hnodup : (g.map fun c => (c.queue, c.seq)).Nodup) {i : Nat} {c : Cmd}
    (hc : g[i]? = some c) (hs : (s.findCmd c.queue c.seq).isSome = true) (e : Ending) :
    ((s.expireGroup g e).findCmd c.queue c.seq).map (·.phase) = some (.finished (if i = 0 then e else conflict scGroupEnded)) := by
  have hnumbers : ((g.zipIdx.map fun c => (c.1, if c.2 = 0 then e else conflict scGroupEnded)).map fun h => (h.1.queue, h.1.seq)) =
      g.map fun c => (c.queue, c.seq) := by
    rw [List.map_map]
    conv_rhs => rw [← List.zipIdx_map_fst 0 g, List.map_map]
    rfl
  rw [State.expireGroup_eq]
  exact phase_findCmd_endAll (hnumbers ▸ hnodup) (List.mem_map.2 ⟨(c, i), List.mem_zipIdx_iff_getElem?.2 hc, rfl⟩) hs

section Timeouts

variable {s : State} {k : Nat} {x : Queue} (hx : Kv.get k s.queues = some x)
include hx

theorem exec_pinRetry_queue : exec (.pinRetry k) s = .next (if x.pinBroken then s.flush k else s) := by
  show execPinRetry k s = _
  simp only [execPinRetry, hx]

section Wait

variable {waited : Cmd → Bool} (hw : waited = fun c => (c.firstPass.any fun f => decide (f + x.waitLimit ≤ s.strk.now)) &&
  decide (s.inkWaitHolds x.owner c.pkt.wait ≠ some true))
include hw

theorem exec_waitTimeout_due {c : Cmd} {t : List Cmd} (hg : (s.visibleGroups k).find? (fun g => g.head?.any waited) = some (c :: t)) :
    exec (.waitTimeout k) s = .next ((s.expireGroup (c :: t) (.fail .timeout 24)).logEvent 0x0303 10 0 x.owner k c.seq) := by
  show execWaitTimeout k s = _
  simp only [execWaitTimeout, hx, ← hw, hg]

theorem exec_waitTimeout_none (hg : (s.visibleGroups k).find? (fun g => g.head?.any waited) = none) : exec (.waitTimeout k) s = .next s := by
  show execWaitTimeout k s = _
  simp only [execWaitTimeout, hx, ← hw, hg]

end Wait

section Residence

variable {resided : Cmd → Bool} (hr : resided = fun c => c.firstBoundary.any fun f => decide (f + x.waitLimit ≤ s.strk.now))
include hr

theorem exec_residenceTimeout_due {g : List Cmd} {o : Ctx} (hg : (s.visibleGroups k).find? (fun g => g.head?.any resided) = some g)
    (ho : Kv.get x.owner s.ctxs = some o) :
    exec (.residenceTimeout k) s = .next (if o.slot.isNone then s.expireGroup g (.fail .timeout 16) else s) := by
  show execResidenceTimeout k s = _
  simp only [execResidenceTimeout, hx, ← hr, hg, ho, Option.map_some, Option.getD_some]

theorem exec_residenceTimeout_none (hg : (s.visibleGroups k).find? (fun g => g.head?.any resided) = none) :
    exec (.residenceTimeout k) s = .next s := by
  show execResidenceTimeout k s = _
  simp only [execResidenceTimeout, hx, ← hr, hg]

end Residence

end Timeouts

theorem exec_residenceWait_waiting {s : State} {n since : Nat} {c : Ctx} (hc : Kv.get n s.ctxs = some c) (hsince : c.waitingSince = some since)
    (hslot : c.slot = none) (hlogged : c.waitLogged = false) :
    exec (.residenceWait n) s = .next (if s.strk.now < since + 1000 then s else
      (s.updCtx n fun c => { c with waitLogged := true }).logEvent 0x0304 10 0 n
        (((s.cmds.find? fun d => decide ((d.view s).ctx = n) && s.inWhole d).map (·.queue)).getD 0) (s.strk.now - since)) := by
  show execResidenceWait n s = _
  simp only [execResidenceWait, hc, hsince, hslot, hlogged, Option.isSome_none, Bool.false_eq_true, false_or]

/-- Settles O32: the reading of a record, the end of a command, PIN_RETRY, the two timeouts, the commands that they end, and RESIDENCE_WAIT. -/
theorem queueRowsComplete : Obligations.QueueRowsComplete := by
  unfold Obligations.QueueRowsComplete
  refine ⟨?records, ?ends, ?pins, ?timeouts, fun s g e i c hnodup hc hs => State.phase_findCmd_expireGroup hnodup hc hs e, ?residence⟩
  case records =>
    intro s u k len n x hx hread
    refine ⟨?broken, fun hfirst hlen hn hu hrest => ?whole⟩
    case broken =>
      rintro a ha t rfl
      refine ⟨?_, fun hleft => ?_, fun hstalled hspent => ?_⟩
      · rw [exec_recordFetch_read hx hread, State.fetch_broken ha]
      · rw [exec_recordReread_read hx hread hleft, State.fetch_broken ha]
      · rw [exec_stalledReread_read hx hread hstalled hspent, State.fetch_broken ha]
    case whole =>
      refine ⟨fun bs hv => ?visible, fun hv => ?missing⟩
      case visible =>
        have hfetch := State.fetch_visible (k := k) hfirst hlen hn hu hrest hv
        refine ⟨?_, fun hleft => ?_, fun hstalled hspent => ?_⟩
        · rw [exec_recordFetch_read hx hread, hfetch]
        · rw [exec_recordReread_read hx hread hleft, hfetch]
        · rw [exec_stalledReread_read hx hread hstalled hspent, hfetch]
      case missing =>
        have hfetch := State.fetch_not_visible (k := k) hfirst hlen hn hu hrest hv
        refine ⟨?_, fun hstalled hspent => ?_, fun hleft hcounts => ?_, fun hlast hactive => ?_⟩
        · rw [exec_recordFetch_read hx hread, hfetch, id]
        · rw [exec_stalledReread_read hx hread hstalled hspent, hfetch, id]
        · rw [exec_recordReread_read hx hread hleft, hfetch, State.missReread_counts hcounts]
        · rw [exec_recordReread_read hx hread (by omega), hfetch, State.missReread_stalls hlast hactive]
  case ends =>
    intro s k n c e hc
    refine ⟨fun he hfree => ⟨fun hpath => ?_, fun hglobal => ?_⟩, fun he => ⟨fun hsnooped hheld => ?_, fun hwaits => ?_⟩⟩
    · rw [exec_commandComplete_finished hc he hfree, hpath]
      rfl
    · rw [exec_commandComplete_finished hc he hfree, if_pos hglobal]
    · rw [exec_globalFlushDone_flushing hc he, if_pos ⟨hsnooped, hheld⟩]
    · rw [exec_globalFlushDone_flushing hc he, if_neg (by tauto)]
  case pins =>
    intro s k x hx
    refine ⟨fun hbroken => ?_, fun hwhole => ?_⟩
    · rw [exec_pinRetry_queue hx, if_pos hbroken]
    · rw [exec_pinRetry_queue hx, hwhole]
      rfl
  case timeouts =>
    intro s k x waited resided hx hw hr
    refine ⟨fun c t hg => exec_waitTimeout_due hx hw hg, exec_waitTimeout_none hx hw, fun g o hg ho => ⟨fun hslot => ?_, fun hslot => ?_⟩,
      exec_residenceTimeout_none hx hr⟩
    · rw [exec_residenceTimeout_due hx hr hg ho, hslot]
      rfl
    · rw [exec_residenceTimeout_due hx hr hg ho, if_neg (by simpa [Option.isSome_iff_ne_none] using hslot)]
  case residence =>
    intro s n since c hc hsince hslot hlogged
    refine ⟨fun hlong => ?_, fun hshort => ?_⟩
    · rw [exec_residenceWait_waiting hc hsince hslot hlogged, if_neg (by omega)]
    · rw [exec_residenceWait_waiting hc hsince hslot hlogged, if_pos hshort]

end Sys2Proof.Machine
end

section
/-! PROOFS. QUEUE_START (10_command_queues.md R156, 11_command_reference.md R183, R184): what it does in a table of rising numbers, and in one that
holds a number twice. -/

namespace Sys2Proof.Kv

variable {α : Type} {k : Nat} {a : α} {t : List (Nat × α)}

/-- Where the keys rise, every entry is what its key reads. -/
theorem get_of_mem (ht : sorted t = true) (h : (k, a) ∈ t) : get k t = some a := by
  induction t with
  | nil => cases h
  | cons e t ih =>
    obtain ⟨j, b⟩ := e
    rw [sorted_iff, List.map_cons, List.pairwise_cons, ← sorted_iff] at ht
    rw [get_cons]
    rcases List.mem_cons.1 h with hhead | h
    · obtain ⟨rfl, rfl⟩ := Prod.mk.inj hhead
      exact if_pos rfl
    · have hlt : j < k := ht.1 k (List.mem_map_of_mem h)
      rw [if_neg hlt.ne, ih ht.2 h]

/-- Where the keys rise, an update is settled by what it makes of the entry that its key reads. -/
theorem upd_congr {f g : α → α} (ht : sorted t = true) (ha : get k t = some a) (hf : f a = g a) : upd k f t = upd k g t := by
  refine List.map_congr_left fun e he => ?_
  split
  case isTrue h =>
    obtain rfl : e.2 = a := Option.some.inj ((get_of_mem ht (h ▸ he)).symm.trans ha)
    rw [hf]
  case isFalse => rfl

theorem upd_id (k : Nat) (t : List (Nat × α)) : upd k id t = t := by
  simp [upd]

end Sys2Proof.Kv

namespace Sys2Proof.Machine

open Sys2Proof

section Start

variable {s : State} {p : Packet} {c : Cmd} {x : Ctx}

theorem Ready.exec_queueStart (h : Ready s p 0x0107 c x) (hc : s.checkQueueStart (c.view s).ctx x p = .ok ()) :
    exec (.queueStart p) s = .next (State.finish ((s.updQueue (p.at 64 2) Queue.start).flush (p.at 64 2)) c (Ending.ok 0 0)) := by
  refine congrArg Host.Outcome.next (h.runNow_ok ?_)
  simp only [hc]
  rfl

/-- A queue that holds nothing back and waits for nothing has nothing to retry. -/
theorem State.flush_of_idle {k : Nat} {q : Queue} (hq : Kv.get k s.queues = some q) (hheld : q.held = []) (hdrain : q.drain = none) :
    s.flush k = s := by
  simp only [State.flush, hq, hheld, List.length_nil, State.flushHeld, State.drainDone, hdrain]

/-- In a table whose numbers rise, QUEUE_START makes a STOPPED queue that is not closed ACTIVE (R184). -/
theorem Ready.exec_queueStart_stopped {q : Queue} (h : Ready s p 0x0107 c x) (hc : s.checkQueueStart (c.view s).ctx x p = .ok ())
    (hsorted : Kv.sorted s.queues = true) (hq : Kv.get (p.at 64 2) s.queues = some q) (hstopped : q.state = .stopped)
    (hopen : q.drain.any (·.destroy) = false) :
    exec (.queueStart p) s = .next (State.finish
      ((s.updQueue (p.at 64 2) fun q => { q with state := .active, rereads := 0 }).flush (p.at 64 2)) c (Ending.ok 0 0)) := by
  have hstart : q.start = { q with state := .active, rereads := 0 } := if_pos ⟨hstopped, by simp [hopen]⟩
  rw [h.exec_queueStart hc, State.updQueue, Kv.upd_congr (g := fun q => { q with state := .active, rereads := 0 }) hsorted hq hstart]
  rfl

/-- In a table whose numbers rise, QUEUE_START leaves any other queue as it is (R184). -/
theorem Ready.exec_queueStart_other {q : Queue} (h : Ready s p 0x0107 c x) (hc : s.checkQueueStart (c.view s).ctx x p = .ok ())
    (hsorted : Kv.sorted s.queues = true) (hq : Kv.get (p.at 64 2) s.queues = some q)
    (hother : q.state ≠ .stopped ∨ q.drain.any (·.destroy) = true) :
    exec (.queueStart p) s = .next (State.finish (s.flush (p.at 64 2)) c (Ending.ok 0 0)) := by
  have hstart : q.start = id q := if_neg (by tauto)
  rw [h.exec_queueStart hc, State.updQueue, Kv.upd_congr hsorted hq hstart, Kv.upd_id]

end Start

namespace QueueStart

/-- QUEUE_START of queue 1, SEQ 1 of queue 0. -/
def packet : Packet := { queue := 0, bytes := RouteStart.words ([0x02000107, 80, 1] ++ List.replicate 13 0 ++ [1, 0, 0, 0]) }

/-- Its command, admitted. -/
def cmd : Cmd := { RouteStart.cmd with bytes := packet.bytes }

/-- A new queue of context 0. -/
def queue : Queue := newQueue 0 0 6 0 6 50000 none

/-- The part after reset, with context 0, this command, and a table that holds queue 1 twice: ACTIVE, then STOPPED. -/
def state : State :=
  { State.reset with ctxs := [(0, RouteStart.ctx)], cmds := [cmd], queues := [(1, queue), (1, { queue with state := .stopped })] }

theorem startable : state.startable packet = some cmd := rfl

theorem ready : Ready state packet 0x0107 cmd RouteStart.ctx where
  opcode := rfl
  start := startable
  ctx := rfl

theorem checkQueueStart : state.checkQueueStart (cmd.view state).ctx RouteStart.ctx packet = .ok () := rfl

theorem target : packet.at 64 2 = 1 := rfl

end QueueStart

/-- Refutes O2 at QUEUE_START, by a table that holds queue 1 twice, ACTIVE and then STOPPED (`QueueStart.state`): the row makes every STOPPED entry of
that number ACTIVE, where the statement, which asks only for what the number reads, leaves both as they are. Where the numbers of the table rise, as
in every safe state, the clause holds: `Ready.exec_queueStart_stopped` and `Ready.exec_queueStart_other`. -/
theorem not_queueCommandsComplete : ¬ Obligations.QueueCommandsComplete := by
  unfold Obligations.QueueCommandsComplete
  rintro ⟨-, -, -, hstart, -⟩
  have stated := (hstart _ _ _ _ QueueStart.queue QueueStart.ready QueueStart.checkQueueStart rfl).2 (.inl (by decide))
  have starts := QueueStart.ready.exec_queueStart QueueStart.checkQueueStart
  rw [QueueStart.target] at stated starts
  rw [State.flush_of_idle (q := QueueStart.queue) rfl rfl rfl] at stated starts
  have same : State.finish (QueueStart.state.updQueue 1 Queue.start) QueueStart.cmd (Ending.ok 0 0) =
      QueueStart.state.finish QueueStart.cmd (Ending.ok 0 0) := Host.Outcome.next.inj (starts.symm.trans stated)
  have states := congrArg (fun s : State => s.queues.map (·.2.state)) same
  revert states
  decide

end Sys2Proof.Machine
end

section
/-! PROOFS. DMA_COPY (02_number_formats.md R36, 11_command_reference.md R186): one unit of the inline payload. -/

namespace Sys2Proof.Machine

open Sys2Proof

/-! ### Checks -/

/-- A sequence of checks passes only where its first condition holds. -/
theorem ensure_bind_ok {b : Bool} {e : Ending} {k : Check} (h : (ensure b e >>= fun _ => k) = .ok ()) : b = true ∧ k = .ok () := by
  cases b
  · cases h
  · exact ⟨rfl, h⟩

theorem checkDmaCopy_length {x : Ctx} {p : Packet} (h : checkDmaCopy x p = .ok ()) : 1 ≤ p.at 80 8 := by
  unfold checkDmaCopy notInline at h
  obtain ⟨-, h⟩ := ensure_bind_ok h
  obtain ⟨-, h⟩ := ensure_bind_ok h
  obtain ⟨-, h⟩ := ensure_bind_ok h
  obtain ⟨hlength, -⟩ := ensure_bind_ok h
  simp only [Bool.and_eq_true, decide_eq_true_eq] at hlength
  exact hlength.1.1

/-! ### The units of a copy (R36) -/

section Units

variable {s s1 : State} {c : Cmd}

/-- A copy whose cursor has passed its bytes ends. -/
theorem State.dmaRun_done (h : c.pkt.at 80 8 ≤ c.cursor * 4096) (k : Nat) : s.dmaRun c (k + 1) = s.finish c (Ending.ok 0 0) := by
  rw [State.dmaRun]
  exact if_pos h

/-- An inline payload that fits one unit is written whole once its destination has translated, and the copy ends. -/
theorem State.dmaRun_inline (hinline : c.pkt.at 64 8 = 2 ^ 64 - 1) (hcursor : c.cursor = 0) (hcancel : c.cancel = false) (hpos : 1 ≤ c.pkt.at 80 8)
    (hunit : c.pkt.at 80 8 ≤ 4096) (htouch : s.touch (c.view s).ctx c.bound (c.pkt.at 72 8) (c.pkt.at 80 8) accW true = .ok s1) :
    s.dmaRun c 2 = ((s1.vwrite (c.view s).ctx c.bound (c.pkt.at 72 8) ((c.pkt.payload 32).take (c.pkt.at 80 8))).updCmd c.queue c.seq
      fun x => { x with cursor := x.cursor + 1 }).finish c (Ending.ok 0 0) := by
  have hdma : dmaInline c.pkt = true := decide_eq_true hinline
  have hmore : ¬ c.pkt.at 80 8 ≤ 0 := by omega
  rw [State.dmaRun]
  simp only [hcursor, hcancel, hdma, hmore, Nat.zero_mul, Nat.sub_zero, Nat.add_zero, List.drop_zero, Nat.min_eq_right hunit, Bool.not_true,
    Bool.false_and, Bool.false_eq_true, if_false, if_true, show (c.view s).bound = c.bound from rfl, htouch]
  refine State.dmaRun_done ?_ 0
  show c.pkt.at 80 8 ≤ 1 * 4096
  omega

end Units

/-- DMA_COPY begins at the first unit. -/
theorem Ready.exec_dmaCopy {s : State} {p : Packet} {c : Cmd} {x : Ctx} (h : Ready s p 0x0207 c x) :
    exec (.dmaCopy p) s = .next ((s.begin c .none).dmaRun { c with phase := .running } (p.at 80 8 / 4096 + 2)) := by
  show execDmaCopy p s = _
  simp only [execDmaCopy, State.forOp, h.opcode, h.start, if_true]

/-- Settles O5: the payload fits one unit, and the command's numbers, packet and view are as they were before it began. -/
theorem dmaCopyOfInlinePayloadCompletes : Obligations.DmaCopyOfInlinePayloadCompletes := by
  unfold Obligations.DmaCopyOfInlinePayloadCompletes
  intro s s1 p c x h hcursor hcancel hcheck hinline hshort htouch
  have hpos := checkDmaCopy_length hcheck
  obtain rfl := h.pkt
  rw [h.exec_dmaCopy, show c.pkt.at 80 8 / 4096 + 2 = 2 by omega]
  exact congrArg Host.Outcome.next
    (State.dmaRun_inline (c := { c with phase := .running }) hinline hcursor hcancel hpos (hshort.trans (by decide)) htouch)

end Sys2Proof.Machine
end

section
/-! PROOFS. The commands of contexts (11_command_reference.md R182, R183, R185): CONTEXT_CREATE, CONTEXT_DESTROY and CONTEXT_QUERY. -/

namespace Sys2Proof.Kv

/-- Taking keys out one by one leaves the entries of all others. -/
theorem get_foldl_del {α : Type} (j : Nat) (ks : List Nat) (t : List (Nat × α)) :
    get j (ks.foldl (fun t k => del k t) t) = if j ∈ ks then none else get j t := by
  induction ks generalizing t with
  | nil => rfl
  | cons k ks ih =>
    rw [List.foldl_cons, ih]
    by_cases hk : j = k
    · simp [hk]
    · simp [hk, get_del_ne]

end Sys2Proof.Kv

namespace Sys2Proof.Machine

open Sys2Proof

/-! ### Frames that are released (R206, R312) -/

theorem State.get_owners_releaseFrames (s : State) (fs : List Nat) (f : Nat) :
    Kv.get f (s.releaseFrames fs).1.mem.owners = if f ∈ fs then none else Kv.get f s.mem.owners := by
  have howners : (s.releaseFrames fs).1.mem.owners = fs.foldl (fun o f => Kv.del f o) s.mem.owners := by
    unfold State.releaseFrames
    dsimp only
    rw [foldl_updMem_frame fun f m => { m with owners := Kv.del f m.owners }]
    exact (List.foldl_hom Memory.owners (g₁ := fun m f => { m with owners := Kv.del f m.owners }) (g₂ := fun o f => Kv.del f o)
      fun _ _ => rfl).symm
  rw [howners, Kv.get_foldl_del]

/-- No frame that was FREE has an owner in t. -/
def StaysFree (s t : State) : Prop := ∀ f, Kv.get f s.mem.owners = none → Kv.get f t.mem.owners = none

theorem State.releaseFrames_staysFree (s : State) (fs : List Nat) : StaysFree s (s.releaseFrames fs).1 := by
  intro f hf
  rw [s.get_owners_releaseFrames, hf, ite_self]

theorem State.unloadManifest_staysFree (s : State) (k : Nat) : StaysFree s (s.unloadManifest k) := by
  unfold State.unloadManifest
  split
  · exact fun _ hf => hf
  · exact s.releaseFrames_staysFree _

theorem State.orphanManifests_staysFree (s : State) (n : Nat) : StaysFree s (s.orphanManifests n) := by
  refine foldl_related (fun _ _ hf => hf) (fun h h' f hf => h' f (h f hf)) id (fun t e => ?_) _ s
  dsimp only [id]
  split
  · exact fun _ hf => hf
  · exact t.unloadManifest_staysFree _

/-! ### A context that is gone (R185) -/

theorem State.destroyCtx_ctxs (s : State) (n : Nat) : (s.destroyCtx n).1.ctxs = Kv.del n s.ctxs := by
  unfold State.destroyCtx State.dropKey
  dsimp only [State.updMem]
  rw [orphanManifests_frame, releaseFrames_frame]

theorem State.destroyCtx_queues (s : State) (n : Nat) : (s.destroyCtx n).1.queues = s.queues := by
  unfold State.destroyCtx State.dropKey
  dsimp only [State.updMem]
  rw [orphanManifests_frame, releaseFrames_frame]

theorem State.destroyCtx_frames (s : State) (n : Nat) :
    (s.destroyCtx n).2 = (s.framesOf n).filter fun f => decide (s.region (f * 65536) ≠ .ddr) := rfl

/-- The frames of a context that is gone are in the frame map no longer. -/
theorem State.destroyCtx_owners (s : State) (n : Nat) {f : Nat} (hf : f ∈ s.framesOf n) : Kv.get f (s.destroyCtx n).1.mem.owners = none := by
  have howners : (s.destroyCtx n).1.mem.owners = ((s.releaseFrames (s.framesOf n)).1.orphanManifests n).mem.owners := rfl
  rw [howners]
  exact State.orphanManifests_staysFree _ n f (by rw [s.get_owners_releaseFrames, if_pos hf])

section Rows

variable {s s1 : State} {p : Packet} {c : Cmd} {x : Ctx}

/-! ### CONTEXT_CREATE (R183, R392) -/

/-- The number of the context that a CONTEXT_CREATE makes: its own, or the lowest free one. -/
def State.createdNumber (s : State) (p : Packet) : Nat := if p.at 64 2 = 0xFFFF then (Kv.lowestFree 1 4095 s.ctxs).getD 0 else p.at 64 2

/-- The context that a CONTEXT_CREATE makes. -/
def createdCtx (p : Packet) : Ctx :=
  newCtx (bitOf (p.at 70 1) 0) (bitOf (p.at 70 1) 1) (p.at 68 2) (p.at 66 2) (p.at 72 8) (p.at 80 8) (p.at 88 4)
    (if p.at 92 4 = 0 then 5000 else p.at 92 4)

/-- A class that is open to the command's context gives it a slot. -/
theorem State.takeSlot_of_classAdmits {k : Nat} (h : s.classAdmits k (c.view s).ctx = true) : ∃ s1, s.takeSlot c k = .ok s1 :=
  ⟨_, if_pos h⟩

/-- With its slot, CONTEXT_CREATE enters the context and draws its key. -/
theorem Ready.exec_contextCreate (h : Ready s p 0x0101 c x) (htake : s.takeSlot c clsKey = .ok s1) (hc : s1.checkContextCreate p = .ok ()) :
    exec (.contextCreate p) s = .next (State.finish
      (({ s1 with ctxs := Kv.set (s1.createdNumber p) (createdCtx p) s1.ctxs } : State).newKey (s1.createdNumber p)) c
      (Ending.ok (s1.createdNumber p) 0)) := by
  refine congrArg Host.Outcome.next ((h.runProof htake _).trans ?_)
  simp only [hc]
  rfl

/-! ### CONTEXT_DESTROY (R185, R206) -/

theorem Ready.exec_contextDestroy (h : Ready s p 0x0102 c x) (hc : s.checkContextDestroy (c.view s).ctx x p = .ok ()) :
    exec (.contextDestroy p) s =
      .next ((s.destroyCtx (p.at 64 2)).1.awaitFill c (s.destroyCtx (p.at 64 2)).2 (Ending.ok 0 0)) := by
  show execContextDestroy p s = _
  simp only [execContextDestroy, State.forOp, h.opcode, h.start, h.ctx, hc, if_true]

/-! ### CONTEXT_QUERY (R182) -/

theorem Ready.exec_contextQuery {y : Ctx} (h : Ready s p 0x0103 c x) (hc : s.checkTarget (c.view s).ctx x p false = .ok ())
    (hz : zeroBytes p 66 79 = .ok ()) (hy : Kv.get (p.at 64 2) s.ctxs = some y) :
    exec (.contextQuery p) s = .next (s.finish c (Ending.ok
      ((s.queues.filter fun e => decide (e.2.owner = p.at 64 2)).length * 65536 + 4 * b2n y.debug + 2 * b2n y.admin + b2n y.slot.isSome)
      y.ring.opened.length)) := by
  refine congrArg Host.Outcome.next (h.runNow_ok ?_)
  simp only [hc, hz, hy]
  rfl

end Rows

/-- Settles O1, command by command: the slot that CONTEXT_CREATE takes changes nothing that the command reads. -/
theorem contextCommandsComplete : Obligations.ContextCommandsComplete := by
  unfold Obligations.ContextCommandsComplete
  refine ⟨?create, ?destroy, ?query⟩
  case create =>
    rintro s p c x _ h hopen hc rfl
    obtain ⟨s1, htake⟩ := State.takeSlot_of_classAdmits hopen
    have hframe := takeSlot_frame htake
    have hctxs : s1.ctxs = s.ctxs := by rw [hframe]
    have hnumber : s1.createdNumber p = s.createdNumber p := by rw [State.createdNumber, hctxs]; rfl
    have hc1 : s1.checkContextCreate p = .ok () := by rw [hframe]; exact hc
    have hexec := h.exec_contextCreate htake hc1
    rw [hnumber, hctxs] at hexec
    refine ⟨_, createdCtx p, hexec, Kv.get_set_self _ _ _, fun j hj => Kv.get_set_ne hj _ _, ?_, ?_,
      rfl, rfl, rfl, rfl, rfl, rfl, rfl, rfl, rfl, rfl,
      rfl⟩
    · rw [hframe]
      rfl
    · rw [hframe]
      exact fun _ => rfl
  case destroy =>
    intro s p c x h hc
    have hexec := h.exec_contextDestroy hc
    refine ⟨_, _, hexec, ?_, fun j hj => ?_, s.destroyCtx_queues _, rfl, fun f hf => s.destroyCtx_owners _ hf, fun hnone => ?_⟩
    · rw [s.destroyCtx_ctxs, Kv.get_del_self]
    · rw [s.destroyCtx_ctxs, Kv.get_del_ne hj]
    · rw [hexec, State.awaitFill, hnone]
      rfl
  case query => exact fun _ _ _ _ _ h hc hz hy => h.exec_contextQuery hc hz hy

end Sys2Proof.Machine
end

section
/-! PROOFS. The commands of allocations (11_command_reference.md R186, 12_memory_translation_isolation.md R205, R206, R211, R217): MEM_REGISTER,
MEM_RELEASE, MEM_PIN, MEM_UNPIN and TLB_INVALIDATE. -/

namespace Sys2Proof.Kv

/-- Entries put in one by one, each a function of its key. -/
theorem get_foldl_set {α : Type} (g : Nat → α) (j : Nat) (ks : List Nat) (t : List (Nat × α)) :
    get j (ks.foldl (fun t k => set k (g k) t) t) = if j ∈ ks then some (g j) else get j t := by
  induction ks generalizing t with
  | nil => rfl
  | cons k ks ih =>
    rw [List.foldl_cons, ih]
    by_cases hk : j = k
    · simp [hk]
    · simp [hk, get_set_ne]

end Sys2Proof.Kv

namespace Sys2Proof.Machine

open Sys2Proof

/-! ### Pin counts (R217) -/

/-- The count that a table of pins holds for a page. -/
def pinsAt (i : Nat) (pins : List (Nat × Nat)) : Nat := (Kv.get i pins).getD 0

/-- An allocation with one more pin on every page of a list. -/
def Alloc.pinPages (is : List Nat) (a : Alloc) : Alloc := { a with pins := is.foldl (fun t i => Kv.set i (a.pinCount i + 1) t) a.pins }

theorem Alloc.pinCount_pinPages (is : List Nat) (a : Alloc) (i : Nat) :
    (a.pinPages is).pinCount i = a.pinCount i + if i ∈ is then 1 else 0 := by
  show (Kv.get i (is.foldl (fun t i => Kv.set i (a.pinCount i + 1) t) a.pins)).getD 0 = _
  rw [Kv.get_foldl_set fun i => a.pinCount i + 1]
  by_cases hi : i ∈ is
  · simp [hi]
  · simp [hi, Alloc.pinCount]

/-- A table of pins with what a MEM_UNPIN leaves on page i. -/
def Alloc.unpinPage (a : Alloc) (t : List (Nat × Nat)) (i : Nat) : List (Nat × Nat) :=
  match a.pinCount i with
  | 0 => t
  | 1 => Kv.del i t
  | k + 1 => Kv.set i k t

/-- Unpinning a page that holds its count, or is unpinned already, leaves one pin less. -/
theorem Alloc.pinsAt_unpinPage_self (a : Alloc) {t : List (Nat × Nat)} {i : Nat} (h : pinsAt i t = a.pinCount i ∨ pinsAt i t = a.pinCount i - 1) :
    pinsAt i (a.unpinPage t i) = a.pinCount i - 1 := by
  unfold Alloc.unpinPage
  split
  · omega
  · next hone => simp [pinsAt, hone]
  · next k _ hmore => simp [pinsAt, hmore]

theorem Alloc.pinsAt_unpinPage_ne (a : Alloc) (t : List (Nat × Nat)) {i j : Nat} (h : j ≠ i) : pinsAt j (a.unpinPage t i) = pinsAt j t := by
  unfold Alloc.unpinPage
  split
  · rfl
  · rw [pinsAt, Kv.get_del_ne h, pinsAt]
  · rw [pinsAt, Kv.get_set_ne h, pinsAt]

/-- Unpinning the pages of a list, whatever pages occur twice in it, takes one pin from each. -/
theorem Alloc.pinsAt_unpinPages (a : Alloc) (j : Nat) (is : List Nat) (t : List (Nat × Nat))
    (h : pinsAt j t = a.pinCount j ∨ pinsAt j t = a.pinCount j - 1) :
    pinsAt j (is.foldl a.unpinPage t) = if j ∈ is then a.pinCount j - 1 else pinsAt j t := by
  induction is generalizing t with
  | nil => rfl
  | cons i is ih =>
    rw [List.foldl_cons]
    by_cases hi : j = i
    · subst hi
      have hself := a.pinsAt_unpinPage_self h
      simp [ih _ (.inr hself), hself]
    · have hne := a.pinsAt_unpinPage_ne t hi
      simp [ih _ (hne.symm ▸ h), hne, hi]

section Rows

variable {s : State} {p : Packet} {c : Cmd} {x : Ctx} {a : Alloc}

/-! ### MEM_REGISTER and MEM_RELEASE (R186, R206) -/

/-- The allocation that a MEM_REGISTER makes. -/
def registeredAlloc (p : Packet) : Alloc :=
  { base := p.at 64 8, size := p.at 72 8, write := bitOf (p.at 80 1) 0, pinned := bitOf (p.at 80 1) 1, ink := bitOf (p.at 80 1) 2, pins := [] }

/-- MEM_REGISTER claims the frames under the range and enters the allocation. -/
theorem Ready.exec_memRegister (h : Ready s p 0x0201 c x) (hc : s.checkMemRegister (c.view s).ctx x p = .ok ()) :
    exec (.memRegister p) s = .next (State.finish
      ((s.claimRange (c.view s).ctx x.root (p.at 64 8) (p.at 72 8)).updCtx (c.view s).ctx fun y =>
        { y with allocs := y.allocs ++ [registeredAlloc p] }) c (Ending.ok 0 0)) := by
  refine congrArg Host.Outcome.next (h.runWalk ?_)
  simp only [hc]
  rfl

/-- MEM_RELEASE frees the frames that only its allocation covers, and drops the allocation with its translations. -/
theorem Ready.exec_memRelease (h : Ready s p 0x0202 c x) (hc : s.checkMemRelease (c.view s).ctx x p = .ok ()) (ha : x.released p = some a) :
    exec (.memRelease p) s = .next (State.awaitFill
      (((s.releaseFrames (s.releasedFrames (c.view s).ctx x a)).1.updCtx (c.view s).ctx fun y =>
        { y with allocs := y.allocs.filter fun b => b.base ≠ a.base }).dropTlb (c.view s).ctx a.base a.size) c
      ((s.releasedFrames (c.view s).ctx x a).filter fun f => decide (s.region (f * 65536) ≠ .ddr)) (Ending.ok 0 0)) := by
  have hx : Kv.get (c.view s).ctx s.ctxs = some x := h.ctx
  show execMemRelease p s = _
  simp only [execMemRelease, State.forOp, h.opcode, h.start, hx, hc, ha, if_true]
  rfl

/-! ### MEM_PIN and MEM_UNPIN (R217) -/

/-- MEM_PIN adds one pin to every page of its range. -/
theorem Ready.exec_memPin (h : Ready s p 0x0203 c x) (hc : s.checkMemPin (c.view s).ctx x p = .ok ()) (ha : x.allocAt (p.at 64 8) = some a) :
    exec (.memPin p) s = .next (State.finish
      (s.updAlloc (c.view s).ctx (p.at 64 8) (Alloc.pinPages (a.pageIndices (p.at 64 8) (p.at 72 8)))) c
      (Ending.ok ((a.pageIndices (p.at 64 8) (p.at 72 8)).filter fun i => !a.pinned && decide (a.pinCount i = 0)).length 0)) := by
  refine congrArg Host.Outcome.next (h.runWalk ?_)
  simp only [hc, ha]
  rfl

/-- MEM_UNPIN takes one pin from every page of its range that has one. -/
theorem Ready.exec_memUnpin (h : Ready s p 0x0204 c x) (hc : s.checkMemUnpin (c.view s).ctx x p = .ok ()) (ha : x.allocAt (p.at 64 8) = some a) :
    exec (.memUnpin p) s = .next (State.finish
      (s.updAlloc (c.view s).ctx (p.at 64 8) fun b =>
        { b with pins := (a.pageIndices (p.at 64 8) (p.at 72 8)).foldl a.unpinPage a.pins }) c
      (Ending.ok ((a.pageIndices (p.at 64 8) (p.at 72 8)).filter fun i => !a.pinned && decide (a.pinCount i ≤ 1)).length 0)) := by
  refine congrArg Host.Outcome.next (h.runNow_ok ?_)
  simp only [hc, ha]
  rfl

/-! ### TLB_INVALIDATE (R83, R211) -/

/-- TLB_INVALIDATE lets the units in progress keep their translations, and drops those of the range. -/
theorem Ready.exec_tlbInvalidate (h : Ready s p 0x0209 c x) (hc : checkRange x p = .ok ()) :
    exec (.tlbInvalidate p) s = .next (State.finish
      ((s.keepTranslations (c.view s).ctx (p.at 64 8) (p.at 72 8)).dropTlb (c.view s).ctx (p.at 64 8) (p.at 72 8)) c (Ending.ok 0 0)) := by
  refine congrArg Host.Outcome.next (h.runNow_ok ?_)
  simp only [hc]
  rfl

/-- A cached translation of context n over a range. -/
def tlbHit (n base size : Nat) (e : TlbEntry) : Bool :=
  decide (e.context = n) && rangesOverlap [(e.page * 4096, 4096)] [(base, size)]

/-- A LINEAR or STIPPLE command of context n has a unit on a plate. -/
def State.unitRuns (s : State) (n : Nat) (d : Cmd) : Bool :=
  decide (d.pkt.opcode = 0x0301 ∨ d.pkt.opcode = 0x0302) && decide ((d.view s).ctx = n) &&
    s.plates.any fun e => e.2.units.any fun u => decide (u.queue = d.queue ∧ u.seq = d.seq)

/-- A command behind a TLB_INVALIDATE: with a unit in progress it keeps the translations dropped. -/
def State.keeping (s : State) (n base size : Nat) (d : Cmd) : Cmd :=
  if s.unitRuns n d then { d with bound := d.bound ++ (s.mem.tlb.filter (tlbHit n base size)).map Bound.page } else d

theorem State.keepTranslations_dropTlb (s : State) (n base size : Nat) : (s.keepTranslations n base size).dropTlb n base size =
    { s with
      cmds := s.cmds.map (s.keeping n base size)
      mem := { s.mem with tlb := s.mem.tlb.filter fun e => !tlbHit n base size e } } := rfl

theorem State.keeping_of_no_unit {n base size : Nat} {d : Cmd}
    (h : ∀ pl ∈ s.plates, ∀ u ∈ pl.2.units, ¬ (u.queue = d.queue ∧ u.seq = d.seq)) :
    s.keeping n base size d = d := by
  have hnone : (s.plates.any fun e => e.2.units.any fun u => decide (u.queue = d.queue ∧ u.seq = d.seq)) = false := by
    simpa only [List.any_eq_false, decide_eq_true_eq, Bool.not_eq_true] using h
  rw [State.keeping, State.unitRuns, hnone, Bool.and_false]
  rfl

end Rows

/-- Settles O3, command by command; of the commands behind a TLB_INVALIDATE, each is what `State.keeping` makes of it. -/
theorem allocationCommandsComplete : Obligations.AllocationCommandsComplete := by
  unfold Obligations.AllocationCommandsComplete
  refine ⟨?register, ?release, ?pin, ?unpin, ?invalidate⟩
  case register =>
    intro s p c x h hc
    have hx : Kv.get (c.view s).ctx s.ctxs = some x := h.ctx
    refine ⟨_, registeredAlloc p, h.exec_memRegister hc, ?_, rfl, rfl, rfl, rfl, rfl, rfl, fun j hj => ?_, ?_⟩
    · rw [State.updCtx_ctxs, Kv.get_upd_self, claimRange_frame, hx]
      rfl
    · rw [State.updCtx_ctxs, Kv.get_upd_ne hj, claimRange_frame]
    · rw [State.updCtx_queues, claimRange_frame]
  case release =>
    intro s p c x a h hc ha
    have hx : Kv.get (c.view s).ctx s.ctxs = some x := h.ctx
    have hbase : a.base = p.at 64 8 := by simpa using List.find?_some ha
    have hexec := h.exec_memRelease hc ha
    rw [hbase] at hexec
    refine ⟨_, hexec, ?_, fun j hj => ?_, ?_, ?_⟩
    all_goals rw [State.dropTlb]
    · rw [State.updMem_ctxs, State.updCtx_ctxs, Kv.get_upd_self, releaseFrames_frame, hx]
      rfl
    · rw [State.updMem_ctxs, State.updCtx_ctxs, Kv.get_upd_ne hj, releaseFrames_frame]
    · rw [State.updMem_queues, State.updCtx_queues, releaseFrames_frame]
    · rw [State.updMem_mem, State.updCtx_mem, releaseFrames_frame]
  case pin =>
    intro s p c x a h hc ha
    exact ⟨_, h.exec_memPin hc ha, fun b => ⟨rfl, b.pinCount_pinPages _⟩⟩
  case unpin =>
    intro s p c x a h hc ha
    refine ⟨_, h.exec_memUnpin hc ha, fun i => ?_⟩
    have hcount := a.pinsAt_unpinPages i (a.pageIndices (p.at 64 8) (p.at 72 8)) a.pins (.inl rfl)
    split
    · next hi => exact hcount.trans (if_pos hi)
    · next hi => exact hcount.trans (if_neg hi)
  case invalidate =>
    intro s p c x hit h hc hhit
    obtain rfl : hit = tlbHit (c.view s).ctx (p.at 64 8) (p.at 72 8) := funext hhit
    refine ⟨_, (h.exec_tlbInvalidate hc).trans (by rw [State.keepTranslations_dropTlb]), List.length_map _, fun j d d' hd hd' => ?_⟩
    obtain rfl : s.keeping (c.view s).ctx (p.at 64 8) (p.at 72 8) d = d' := by
      rw [List.getElem?_map, hd] at hd'
      exact Option.some.inj hd'
    refine ⟨?_, State.keeping_of_no_unit⟩
    rw [State.keeping]
    split
    · exact .inr rfl
    · exact .inl rfl

end Sys2Proof.Machine
end

section
/-! PROOFS. Posts (11_command_reference.md R195, 14_ink_synchronisation.md R249, 16_stylus_transport.md R276, R277, R285, R287): POST_RECV, POST_SEND,
POST_INK, and the firing and the timeout of armed requests. -/

namespace Sys2Proof.Machine

open Sys2Proof

/-! ### The state of a queue pair on chip (R229, R285) -/

theorem State.hostLine_stores (s : State) (pa : Nat) : Stores s (s.hostLine pa) := by
  unfold State.hostLine
  split
  · exact ⟨_, _, rfl⟩
  · exact .refl s

theorem State.backingLines_stores (s : State) (k : Nat) : Stores s (s.backingLines k) := Stores.foldl (fun t _ => t.hostLine_stores _) _ s

/-- t is s but for what it costs to bring a queue pair's state on chip: memory, what is held for the host, a free value, and the chip's entries. -/
def Brings (s t : State) : Prop :=
  ∃ (mem : Memory) (host : HostPort) (free : Nat) (chip : List Nat),
    t = { s with mem := mem, host := host, free := free, stylus := { s.stylus with chip := chip } }

section Brings

variable {s t : State} (h : Brings s t)
include h

theorem Brings.qp (k : Nat) : t.qp k = s.qp k := by
  obtain ⟨_, _, _, _, rfl⟩ := h
  rfl

theorem Brings.cmds : t.cmds = s.cmds := by
  obtain ⟨_, _, _, _, rfl⟩ := h
  rfl

theorem Brings.ctxs : t.ctxs = s.ctxs := by
  obtain ⟨_, _, _, _, rfl⟩ := h
  rfl

end Brings

theorem State.useQp_brings (s : State) (k : Nat) : Brings s (s.useQp k) := by
  unfold State.useQp
  dsimp only
  split
  · exact ⟨_, _, _, _, rfl⟩
  · unfold State.storeQp
    dsimp only [State.draw]
    obtain ⟨_, _, h⟩ := (State.backingLines_stores _ _).trans (State.physWrite_stores _ _ _)
    exact ⟨_, _, _, _, h⟩

theorem State.bringQp_brings (s : State) (k : Nat) : Brings s (s.bringQp k) := by
  unfold State.bringQp
  obtain ⟨_, _, _, _, h⟩ := s.useQp_brings k
  split
  · exact ⟨_, _, _, _, h⟩
  · obtain ⟨_, _, h'⟩ := (s.useQp k).backingLines_stores k
    rw [h', h]
    exact ⟨_, _, _, _, rfl⟩

/-- Where the chip is not over-full, a queue pair that is on chip comes to the front of the order of use, and nothing else changes. -/
theorem State.useQp_of_onChip {s : State} {k : Nat} (h : s.onChip k = true) (hfull : s.stylus.chip.length ≤ 2048) :
    s.useQp k = { s with stylus := { s.stylus with chip := k :: s.stylus.chip.filter (· ≠ k) } } := by
  have hroom : (s.stylus.chip.filter (· ≠ k)).length < 2048 :=
    (List.length_filter_lt_length_iff_exists.2 ⟨k, of_decide_eq_true h, by simp⟩).trans_le hfull
  rw [State.useQp]
  simp only [if_pos hroom]

theorem State.bringQp_of_onChip {s : State} {k : Nat} (h : s.onChip k = true) : s.bringQp k = s.useQp k := if_pos h

theorem State.qp_updQp_self (s : State) (k : Nat) (f : Qp → Qp) : (s.updQp k f).qp k = (s.qp k).map f := Kv.get_upd_self _ _ _

/-! ### Posts (R276, R277) -/

section Rows

variable {s : State} {p : Packet} {c : Cmd} {x : Ctx}

/-- A post that need not wait for earlier posts, nor for the queue pair's state, starts at once. -/
theorem State.startPost_now (hwaits : s.postWaits c = false) (hchip : s.onChip (c.pkt.at 64 4) = true)
    (hfetch : s.postFetching (c.pkt.at 64 4) = false) :
    s.startPost c (.ok ()) = s.postNow c := by
  simp [State.startPost, hwaits, hchip, hfetch]

theorem Ready.exec_postRecv (h : Ready s p 0x0704 c x) : exec (.postRecv p) s = .next (s.startPost c (s.checkPostRecv (c.view s).ctx x p)) := by
  show execPostRecv p s = _
  simp only [execPostRecv, State.forOp, h.opcode, h.start, h.ctx, if_true]

theorem Ready.exec_postSend (h : Ready s p 0x0705 c x) : exec (.postSend p) s = .next (s.startPost c (s.checkPost (c.view s).ctx x p)) := by
  show execPostSend p s = _
  simp only [execPostSend, State.forOp, h.opcode, h.start, h.ctx, if_true]

theorem Ready.exec_postInk (h : Ready s p 0x0706 c x) : exec (.postInk p) s = .next (s.startPost c (s.checkPost (c.view s).ctx x p)) := by
  show execPostInk p s = _
  simp only [execPostInk, State.forOp, h.opcode, h.start, h.ctx, if_true]

/-- A posted receive goes behind those of its queue pair. -/
theorem State.postNow_recv (h : c.pkt.opcode = 0x0704) :
    s.postNow c = ((s.begin c .none).useQp (c.pkt.at 64 4)).updQp (c.pkt.at 64 4) fun q => { q with recvs := q.recvs ++ [(c.queue, c.seq)] } :=
  if_pos h

/-- A request without a trigger is accepted. -/
theorem State.postNow_send (h : c.pkt.opcode ≠ 0x0704) (htrigger : c.pkt.at 80 1 = 0) :
    s.postNow c = ((s.begin c .none).useQp (c.pkt.at 64 4)).acceptSend (c.pkt.at 64 4)
      (((s.begin c .none).useQp (c.pkt.at 64 4)).reqOf (c.view s).ctx c.pkt) :=
  (if_neg h).trans (if_pos htrigger)

end Rows

/-- A queue pair that has accepted a request: last among the accepted ones, with the next MSN. -/
def Qp.accepted (q : Qp) (r : SendReq) : Qp :=
  { q with sends := q.sends ++ [{ r with msn := q.nextMsn }], nextMsn := (q.nextMsn + 1) % 2 ^ 32 }

theorem State.qp_acceptSend_self {s : State} {k : Nat} {q : Qp} (hq : s.qp k = some q) (r : SendReq) :
    (s.acceptSend k r).qp k = some (q.accepted r) := by
  rw [State.acceptSend, State.qp_updQp_self, hq]
  rfl

section Start

variable {s : State} {c : Cmd} {q : Qp} (hchip : s.onChip (c.pkt.at 64 4) = true) (hfull : s.stylus.chip.length ≤ 2048)
  (hq : s.qp (c.pkt.at 64 4) = some q)
include hchip hfull hq

/-- A posted receive runs, and takes its place behind those of its queue pair. -/
theorem State.postNow_recv_spec (hop : c.pkt.opcode = 0x0704) :
    (s.postNow c).cmds = (s.begin c .none).cmds ∧ (s.postNow c).qp (c.pkt.at 64 4) = some { q with recvs := q.recvs ++ [(c.queue, c.seq)] } ∧
      (s.postNow c).mem = s.mem ∧ (s.postNow c).ctxs = s.ctxs := by
  rw [State.postNow_recv hop, State.useQp_of_onChip (s := s.begin c .none) hchip hfull]
  refine ⟨rfl, ?_, rfl, rfl⟩
  rw [State.qp_updQp_self]
  exact congrArg (Option.map _) hq

/-- A request without a trigger runs, and is accepted by its queue pair. -/
theorem State.postNow_send_spec (hop : c.pkt.opcode ≠ 0x0704) (htrigger : c.pkt.at 80 1 = 0) :
    (s.postNow c).cmds = (s.begin c .none).cmds ∧ (s.postNow c).qp (c.pkt.at 64 4) = some (q.accepted (s.reqOf (c.view s).ctx c.pkt)) ∧
      (s.postNow c).mem = s.mem ∧ (s.postNow c).ctxs = s.ctxs := by
  rw [State.postNow_send hop htrigger, State.useQp_of_onChip (s := s.begin c .none) hchip hfull]
  exact ⟨rfl, State.qp_acceptSend_self hq _, rfl, rfl⟩

end Start

/-! ### Triggers (R287) -/

/-- A queue pair without an armed request. -/
def Qp.disarmed (q : Qp) (a : Armed) : Qp := { q with armed := q.armed.filter (· ≠ a) }

/-- A state in which queue pair k has an armed request no longer. -/
def State.disarm (s : State) (k : Nat) (a : Armed) : State := s.updQp k fun q => q.disarmed a

section Triggers

variable {s : State} {k : Nat} {q : Qp} {a : Armed} (hq : s.qp k = some q)
include hq

theorem State.qp_disarm_self : (s.disarm k a).qp k = some (q.disarmed a) := by
  rw [State.disarm, State.qp_updQp_self, hq]
  rfl

/-- A fired request is armed no longer, and is accepted once its queue pair's state is on chip. -/
theorem exec_triggerFire {c : Cmd} (ha : q.armed.find? (·.fired) = some a) (hc : s.findCmd a.queue a.seq = some c) :
    exec (.triggerFire k) s = .next (((s.disarm k a).bringQp k).acceptSend k
      (s.reqOf q.owner c.pkt)) := by
  show execTriggerFire k s = _
  simp only [execTriggerFire, hq, ha, hc]
  rfl

/-- An armed request whose WAIT_LIMIT has passed ends, and is armed no longer. -/
theorem exec_triggerTimeout (ha : q.armed.find? (fun a => !a.fired &&
    decide (a.since + (((Kv.get a.queue s.queues).map (·.waitLimit)).getD 0) ≤ s.strk.now)) = some a) :
    exec (.triggerTimeout k) s = .next (((s.disarm k a).finishPost (a.queue, a.seq)
      (.fail .timeout 80)).logEvent 0x0303 7 (k % 256) q.owner a.queue a.seq) := by
  show execTriggerTimeout k s = _
  simp only [execTriggerTimeout, hq, ha]
  rfl

end Triggers

/-- Settles O15: the posts by `State.postNow_recv_spec` and `State.postNow_send_spec`, and the armed requests by what brings their queue pair's state
on chip, which touches neither commands nor contexts nor queue pairs. -/
theorem postsTakeTheirPlace : Obligations.PostsTakeTheirPlace := by
  unfold Obligations.PostsTakeTheirPlace
  refine ⟨?recv, ?send, ?ink, ?fire, ?timeout⟩
  case recv =>
    intro s p c x q h hc hchip hfull hwaits hfetch hq
    obtain rfl := h.pkt
    obtain ⟨hcmds, hqp, hmem, hctxs⟩ := State.postNow_recv_spec hchip hfull hq h.opcode
    exact ⟨_, by rw [h.exec_postRecv, hc, State.startPost_now hwaits hchip hfetch], hcmds, hqp, hmem, hctxs⟩
  case send =>
    intro s p c x q h hc htrigger hchip hfull hwaits hfetch hq
    obtain rfl := h.pkt
    obtain ⟨hcmds, hqp, hmem, hctxs⟩ := State.postNow_send_spec hchip hfull hq (by rw [h.opcode]; decide) htrigger
    have hink : (s.reqOf (c.view s).ctx c.pkt).ink = false := decide_eq_false (by rw [h.opcode]; decide)
    exact ⟨_, _, by rw [h.exec_postSend, hc, State.startPost_now hwaits hchip hfetch], hcmds, hqp, rfl, hink, rfl, rfl, rfl, hmem, hctxs⟩
  case ink =>
    intro s p c x q h hc htrigger hchip hfull hwaits hfetch hq
    obtain rfl := h.pkt
    obtain ⟨hcmds, hqp, hmem, hctxs⟩ := State.postNow_send_spec hchip hfull hq (by rw [h.opcode]; decide) htrigger
    have hink : decide (c.pkt.opcode = 0x0706) = true := decide_eq_true h.opcode
    exact ⟨_, _, by rw [h.exec_postInk, hc, State.startPost_now hwaits hchip hfetch], hcmds, hqp, rfl, hink, if_pos hink, rfl, rfl, hmem, hctxs⟩
  case fire =>
    intro s k q a c hq ha hc
    have hbring := (s.disarm k a).bringQp_brings k
    refine ⟨_, { s.reqOf q.owner c.pkt with msn := q.nextMsn }, exec_triggerFire hq ha hc,
      State.qp_acceptSend_self ((hbring.qp k).trans (State.qp_disarm_self hq)) _, rfl, rfl, hbring.cmds, hbring.ctxs, fun hchip hfull => ?_⟩
    rw [State.bringQp_of_onChip (s := s.disarm k a) hchip, State.useQp_of_onChip (s := s.disarm k a) hchip hfull]
    rfl
  case timeout =>
    intro s k q a hq ha
    refine ⟨_, exec_triggerTimeout hq ha, ?_, ?_, ?_⟩ <;> rw [logEvent_frame]
    · exact State.qp_disarm_self hq
    · rfl
    · rfl

end Sys2Proof.Machine
end

section
/-! PROOFS. Model distribution (11_command_reference.md R197, 12_memory_translation_isolation.md R213, 18_model_distribution.md R311 to R322):
MANIFEST_LOAD, the shard commands as they begin, and the commands of base epochs. -/

namespace Sys2Proof.Machine

open Sys2Proof

/-- A command's slot is no part of its view. -/
theorem Cmd.view_slot (s : State) (c : Cmd) (k : Option Nat) : ({ c with slot := k } : Cmd).view s = c.view s := rfl

/-! ### MANIFEST_LOAD (R312) -/

section ManifestLoad

variable {s s1 s2 : State} {p : Packet} {c : Cmd} {x : Ctx} {d sg : Desc} (h : Ready s p 0x0901 c x) (hslot : c.slot = none)
  (htake : s.takeSlot c clsVerify = .ok s1) (hc : s1.checkManifestLoad (c.view s1).ctx p = .ok ())
  (hio : s1.mgmtTouch c 9 [s1.ioOf c 64 false, s1.ioOf c 68 false] = .ok s2) (hd : s2.needDesc (c.view s2).ctx (p.at 64 4) 64 false = .ok d)
  (hsg : s2.needDesc (c.view s2).ctx (p.at 68 4) 68 false = .ok sg)

/-- Does the signature of a MANIFEST_LOAD hold under its publisher's key. -/
def State.manifestSigned (s : State) (p : Packet) (v : View) (d sg : Desc) : Bool :=
  Config.slhVerify ((s.storeKey (0x20 + p.at 72 1)).getD []) (s.descBytes v d) (s.descBytes v sg)

/-- The manifest of context n with a digest. -/
def State.loadedManifest (s : State) (n : Nat) (digest : List Byte) : Option (Nat × Manifest) :=
  s.manifests.find? fun e => decide (e.2.owner = some n) && decide (e.2.digest = digest)

/-- The manifest that a MANIFEST_LOAD makes of its bytes and its claimed frames. -/
def newManifest (n : Nat) (p : Packet) (bs : List Byte) (fs : List Nat) : Manifest :=
  { owner := some n, publisher := p.at 72 1, bytes := bs, digest := sha256 bs, frames := fs, verified := [], receives := [], discards := 0 }

include h hslot htake hc hio hd hsg

/-- A manifest that is loaded already is answered, once its signature holds. -/
theorem Ready.exec_manifestLoad_known {e : Nat × Manifest}
    (he : s2.loadedManifest (c.view s2).ctx (sha256 (s2.descBytes (c.view s2) d)) = some e) : exec (.manifestLoad p) s =
      .next (s2.finish c (if s2.manifestSigned p (c.view s2) d sg then Ending.ok e.1 e.2.shards else .fail .signatureInvalid 68)) := by
  refine congrArg Host.Outcome.next ((h.runMgmt hslot htake hc hio _).trans ?_)
  rw [Cmd.view_slot]
  unfold State.loadedManifest at he
  cases hsigned : s2.manifestSigned p (c.view s2) d sg
  all_goals
    unfold State.manifestSigned at hsigned
    simp only [hd, hsg, bind, Except.bind, he, hsigned]
    rfl

variable {fs : List Nat} {s3 s4 : State} (hnew : s2.loadedManifest (c.view s2).ctx (sha256 (s2.descBytes (c.view s2) d)) = none)
  (hroom : s2.manifests.length < 256) (hclaim : s2.claimStore (ceilDiv (s2.descBytes (c.view s2) d).length 65536) = some (fs, s3))
include hnew hroom hclaim

theorem Ready.exec_manifestLoad_unsigned (hsigned : s2.manifestSigned p (c.view s2) d sg = false) :
    exec (.manifestLoad p) s = .next (s2.finish c (.fail .signatureInvalid 68)) := by
  refine congrArg Host.Outcome.next ((h.runMgmt hslot htake hc hio _).trans ?_)
  rw [Cmd.view_slot]
  unfold State.loadedManifest at hnew
  unfold State.manifestSigned at hsigned
  simp only [hd, hsg, bind, Except.bind, hnew, hroom, hclaim, hsigned]
  rfl

variable (hsigned : s2.manifestSigned p (c.view s2) d sg = true)
include hsigned

theorem Ready.exec_manifestLoad_malformed (hok : manifestOk (s2.descBytes (c.view s2) d) d.extent = false) :
    exec (.manifestLoad p) s = .next (s2.finish c (badField 64)) := by
  refine congrArg Host.Outcome.next ((h.runMgmt hslot htake hc hio _).trans ?_)
  rw [Cmd.view_slot]
  unfold State.loadedManifest at hnew
  unfold State.manifestSigned at hsigned
  simp only [hd, hsg, bind, Except.bind, hnew, hroom, hclaim, hsigned, hok]
  rfl

/-- A new manifest, signed and well formed, whose digest's low bits no other of its context has, is copied and numbered. -/
theorem Ready.exec_manifestLoad_new {m : Manifest} {k : Nat} (hok : manifestOk (s2.descBytes (c.view s2) d) d.extent = true)
    (hm : m = newManifest (c.view s2).ctx p (s2.descBytes (c.view s2) d) fs)
    (hlow : (s2.manifests.any fun e => decide (e.2.owner = some (c.view s2).ctx) && decide (e.2.low = m.low)) = false)
    (hfresh : freshNumber s3 8 0 256 (fun k => Kv.has k s3.manifests) = (some k, s4)) :
    exec (.manifestLoad p) s = .next (({ s4.fillFrames fs (s2.descBytes (c.view s2) d) with manifests := Kv.set k m s4.manifests } :
      State).finish c (Ending.ok k m.shards)) := by
  refine congrArg Host.Outcome.next ((h.runMgmt hslot htake hc hio _).trans ?_)
  rw [Cmd.view_slot]
  subst hm
  unfold State.loadedManifest at hnew
  unfold State.manifestSigned at hsigned
  unfold newManifest at hlow
  simp only [hd, hsg, bind, Except.bind, hnew, hroom, hclaim, hsigned, hok,
    hlow, hfresh]
  rfl

end ManifestLoad

section Rows

variable {s s1 : State} {p : Packet} {c : Cmd} {x y : Ctx}

/-! ### Shard commands (R315) -/

theorem Ready.exec_shardSend (h : Ready s p 0x0902 c x) (hlane : s.hasLane c = true) (hc : s.checkShardSend (c.view s).ctx p = .ok ()) :
    exec (.shardSend p) s = .next (s.begin c (.shard s.newShard)) := by
  show execShardSend p s = _
  simp only [execShardSend, State.forOp, h.opcode, h.start, hlane, hc, not_true_eq_false, if_true, if_false]

theorem Ready.exec_shardReceive (h : Ready s p 0x0903 c x) (hlane : s.hasLane c = true)
    (hc : s.checkShardReceive (c.view s).ctx x p = .ok ()) : exec (.shardReceive p) s = .next (s.begin c (.shard s.newShard)) := by
  show execShardReceive p s = _
  simp only [execShardReceive, State.forOp, h.opcode, h.start, h.ctx, hlane, hc, not_true_eq_false, if_true, if_false]

/-! ### BASE_INSTALL (R319) -/

/-- The state without cached translations of some allocations of a context. -/
def State.dropAllocs (s : State) (n : Nat) (as : List Alloc) : State := as.foldl (fun s a => s.dropTlb n a.base a.size) s

/-- Every shard of a manifest is in its DEST with its digest. -/
def State.shardsRight (s : State) (n : Nat) (m : Manifest) : Prop :=
  ∀ i < m.shards, sha256 (s.vread n [] ((m.dest i).getD 0) (m.length i)) = m.shardDigest i

/-- With every shard right, a slot and a frame for its zeros, the epoch is installed, and its allocations leave the context. -/
theorem Ready.exec_baseInstall {m : Manifest} {n slot : Nat} {s3 s4 : State} {z : List Nat} (h : Ready s p 0x0904 c x)
    (hc : s.checkBaseInstall (c.view s).ctx x p = .ok ()) (hget : Kv.get (p.at 64 2) s.manifests = some m)
    (hio : s.mgmtTouch c 9 [{ detail := 64, write := false, ranges := (List.range m.shards).map fun i => ((m.dest i).getD 0, m.length i) }] = .ok s1)
    (hn : n = (c.view s1).ctx) (hm : s1.needManifest n (p.at 64 2) = .ok m) (hright : s1.shardsRight n m)
    (hslot : freshNumber (s1.dropAllocs n (x.destAllocs m)) 8 0 256
      (fun k => (s1.dropAllocs n (x.destAllocs m)).epochs.any fun e => decide (e.2.slot = k)) = (some slot, s4))
    (hclaim : (s1.dropAllocs n (x.destAllocs m)).claimStore 1 = some (z, s3)) :
    exec (.baseInstall p) s = .next (((s3.installEpoch n m (p.at 66 2) (p.at 64 2) slot (z.headD 0)).updCtx n fun y =>
      { y with allocs := y.allocs.filter fun a => a ∉ x.destAllocs m }).finish c (Ending.ok 0 0)) := by
  subst hn
  have hbad : ((List.range m.shards).filter fun i =>
      decide (sha256 (s1.vread (c.view s1).ctx [] ((m.dest i).getD 0) (m.length i)) ≠ m.shardDigest i)) = [] := by
    simpa [State.shardsRight] using hright
  refine congrArg Host.Outcome.next (h.runReach (s2 := s1) hc ?_ ?_)
  · simp only [hget]
    exact hio
  · unfold State.dropAllocs at hslot hclaim
    simp only [hm, bind, Except.bind, hbad, ne_eq, not_true_eq_false, if_false, hslot, hclaim]
    rfl

/-! ### BASE_MAP and BASE_RETIRE (R213, R320, R322) -/

/-- The window that a BASE_MAP sets. -/
def mappedWindow (p : Packet) (e : Epoch) : Window :=
  { va := p.at 72 8, epoch := p.at 66 2, manifest := e.manifest, sizeGib := ceilDiv e.bytes (2 ^ 30), valid := true }

/-- The window of a context that a BASE_MAP of va sets: the one that starts there, or the lowest free one. -/
def Ctx.mapTarget (c : Ctx) (va : Nat) : Option Nat := (c.windowIs va).orElse fun _ => c.windows.findIdx? fun w => !w.valid

theorem Ready.exec_baseMap {e : Epoch} {i : Nat} (h : Ready s p 0x0905 c x) (hc : s.checkBaseMap p = .ok ())
    (hy : Kv.get (p.at 64 2) s.ctxs = some y) (he : Kv.get (p.at 66 2) s.epochs = some e) (hi : y.mapTarget (p.at 72 8) = some i) :
    exec (.baseMap p) s = .next ((s.updCtx (p.at 64 2) fun y => { y with windows := y.windows.set i (mappedWindow p e) }).finish c
      (Ending.ok 0 0)) := by
  refine congrArg Host.Outcome.next (h.runNow_ok ?_)
  unfold Ctx.mapTarget at hi
  simp only [hc, hy, he, hi]
  rfl

/-- A context none of whose windows maps epoch k. -/
def Ctx.unmapped (k : Nat) (c : Ctx) : Ctx := { c with windows := c.windows.map fun w => if w.epoch = k then { w with valid := false } else w }

theorem Ready.exec_baseRetire (h : Ready s p 0x0906 c x) (hc : s.checkBaseRetire p = .ok ()) :
    exec (.baseRetire p) s = .next (State.finish { s with
      epochs := Kv.upd (p.at 64 2) (fun e => { e with retiring := true }) s.epochs
      ctxs := s.ctxs.map fun e => (e.1, e.2.unmapped (p.at 64 2)) } c (Ending.ok (s.boundTo (p.at 64 2)) 0)) := by
  refine congrArg Host.Outcome.next (h.runNow_ok ?_)
  simp only [hc]
  rfl

end Rows

/-- Settles O19, command by command; the numbers of a new manifest and of a new epoch's slot are those that `freshNumber_spec` gives. -/
theorem distributionCommandsComplete : Obligations.DistributionCommandsComplete := by
  unfold Obligations.DistributionCommandsComplete
  refine ⟨?load, ?send, ?receive, ?install, ?map, ?retire⟩
  case load =>
    rintro s s1 s2 p c x d sg _ h hslot htake hc hio hd hsg rfl signed hsigned
    refine ⟨fun e he => ?known, fun fs s3 m hothers hroom hnumber hclaim hm => ?new⟩
    case known =>
      have hexec := h.exec_manifestLoad_known hslot htake hc hio hd hsg he
      rw [State.manifestSigned, hsigned] at hexec
      refine ⟨fun hgood => ?_, fun hbad => ?_⟩
      · rw [hexec, hgood, if_pos rfl]
      · rw [hexec, hbad, if_neg Bool.false_ne_true]
    case new =>
      have hnew : s2.loadedManifest (c.view s2).ctx (sha256 (s2.descBytes (c.view s2) d)) = none :=
        List.find?_eq_none.2 fun e he => by simpa using fun ho hsame => hothers e he ⟨ho, .inl hsame⟩
      have hlow : (s2.manifests.any fun e => decide (e.2.owner = some (c.view s2).ctx) && decide (e.2.low = m.low)) = false :=
        List.any_eq_false.2 fun e he => by simpa using fun ho hsame => hothers e he ⟨ho, .inr hsame⟩
      refine ⟨fun hbad => ?_, fun hgood hbad => ?_, fun hgood hok => ?_⟩
      · exact h.exec_manifestLoad_unsigned hslot htake hc hio hd hsg hnew hroom hclaim (hsigned.trans hbad)
      · exact h.exec_manifestLoad_malformed hslot htake hc hio hd hsg hnew hroom hclaim (hsigned.trans hgood) hbad
      · obtain ⟨k, hk, hfree⟩ := hnumber
        obtain ⟨k', ⟨-, hlt, hunused⟩, hfresh⟩ :=
          freshNumber_spec s3 8 0 256 (fun k => Kv.has k s3.manifests) ⟨k, Nat.zero_le k, hk, hfree⟩
        exact ⟨k', _, hlt, hunused, rfl,
          h.exec_manifestLoad_new hslot htake hc hio hd hsg hnew hroom hclaim (hsigned.trans hgood) hok hm hlow hfresh⟩
  case send => exact fun _ _ _ _ h hlane hc => h.exec_shardSend hlane hc
  case receive => exact fun _ _ _ _ h hlane hc => h.exec_shardReceive hlane hc
  case install =>
    rintro s s1 _ s3 p c x n m z h hc hget hio hn hm hright rfl ⟨k, hk, hfree⟩ hclaim
    obtain ⟨slot, ⟨-, hlt, hunused⟩, hfresh⟩ := freshNumber_spec (s1.dropAllocs n (x.destAllocs m)) 8 0 256
      (fun k => (s1.dropAllocs n (x.destAllocs m)).epochs.any fun e => decide (e.2.slot = k))
      ⟨k, Nat.zero_le k, hk, by simpa [State.dropAllocs] using hfree⟩
    exact ⟨slot, hlt, by simpa [State.dropAllocs] using hunused, h.exec_baseInstall hc hget hio hn hm hright hfresh hclaim⟩
  case map =>
    rintro s p c x y e i h hc hy he hi _ rfl
    refine h.exec_baseMap hc hy he ?_
    rcases hi with hi | ⟨hnone, hi⟩
    · rw [Ctx.mapTarget, hi]
      rfl
    · rw [Ctx.mapTarget, hnone]
      exact hi
  case retire =>
    rintro s p c x h hc _ rfl _ rfl
    exact h.exec_baseRetire hc

end Sys2Proof.Machine
end

section
/-! PROOFS. Surviving failures (11_command_reference.md R198, 19_failure_survival_and_replay.md R324 to R342): LEDGER_SET, TENSOR_CLASS, REPLAY,
PLACEMENT_SET and the commands of the hot spare. -/

namespace Sys2Proof.Machine

open Sys2Proof

section Ledgers

variable {s s1 : State} {p : Packet} {c : Cmd} {x : Ctx} {d : Desc} {l : Ledger}

/-! ### LEDGER_SET (R324, R329) -/

/-- The state in which what the part writes of a ledger's area is cleared. -/
def State.clearLedger (s : State) (n : Nat) (d : Desc) (l : Ledger) : State :=
  (s.vput n (d.base + 128) (leBytes 2 s.placement ++ zeros 30 ++ leBytes 4 l.snapMin ++ zeros 10)).vput n (d.base + 1024)
    (zeros (32 * l.tensorMax + (l.entryCount + 1) * l.entryBytes))

/-- The keep area that a ledger's header names. -/
def State.ledgerKeep (s : State) (n : Nat) (h : List Byte) : Option (Nat × Nat) := (s.desc n (fieldAt h 16 4)).map fun k => (k.base, k.extent)

theorem Ready.exec_ledgerSet {h : List Byte} (hr : Ready s p 0x0A05 c x) (hc : s.checkLedgerSet (c.view s).ctx x p = .ok ())
    (hd : s.desc (c.view s).ctx (p.at 64 4) = some d)
    (hio : s.mgmtTouch c 9 [{ detail := 64, write := false, ranges := [(d.base, 1024)] }, s.ioOf c 64 true] = .ok s1)
    (hd1 : s1.needDesc (c.view s1).ctx (p.at 64 4) 64 true = .ok d) (hh : h = s1.vread (c.view s1).ctx [] d.base 1024)
    (hfields : ∀ f ∈ s1.ledgerChecks (c.view s1).ctx x h, f.1 = true)
    (hl : l = ledgerOf d.base (p.at 64 4) (s1.ledgerKeep (c.view s1).ctx h) h)
    (hfits : 1024 + 32 * l.tensorMax + (l.entryCount + 1) * l.entryBytes ≤ d.extent)
    (hkeep : ∀ k, s1.ledgerKeep (c.view s1).ctx h = some k → s1.keepOk (c.view s1).ctx k.1 k.2 = true) :
    exec (.ledgerSet p) s = .next (((s1.clearLedger (c.view s1).ctx d l).updCtx (c.view s1).ctx fun c => { c with ledger := some l }).finish c
      (Ending.ok 0 0)) := by
  have hnone : (s1.ledgerChecks (c.view s1).ctx x h).find? (fun f => !f.1) = none :=
    List.find?_eq_none.2 fun f hf => by simp [hfields f hf]
  have hkept : ((s1.ledgerKeep (c.view s1).ctx h).map fun k => s1.keepOk (c.view s1).ctx k.1 k.2).getD true = true := by
    cases hk : s1.ledgerKeep (c.view s1).ctx h with
    | none => rfl
    | some k => exact hkeep k hk
  refine congrArg Host.Outcome.next (hr.runReach hc (s2 := s1) ?_ ?_)
  · simp only [hd]
    exact hio
  · unfold State.ledgerKeep at hl hkept
    simp only [hd1, bind, Except.bind, ← hh, ← hl, hnone, hkept, hfits, decide_true, ensure, if_true]
    rfl

/-! ### TENSOR_CLASS (R325, R326) -/

/-- The entry of the tensor table that a TENSOR_CLASS makes. -/
def newTensor (p : Packet) (d : Desc) : TensorEntry :=
  { layer := p.at 64 2, tensor := p.at 66 2, requested := p.at 68 1, applied := 0, buddy := p.at 70 2, handle := p.at 72 4, writeSteps := 0,
    base := d.base, bytes := d.extent }

/-- The class applied to a layer's tensor. -/
def appliedClass (layer tensor : Nat) (ts : List TensorEntry) : Nat :=
  ((ts.find? fun t => decide (t.layer = layer) && decide (t.tensor = tensor)).map (·.applied)).getD 0

theorem Ready.exec_tensorClass {n : Nat} {ts : List TensorEntry} (h : Ready s p 0x0A01 c x) (hn : n = (c.view s).ctx)
    (hc : s.checkTensorClass n x p = .ok ()) (hd : s.needDesc n (p.at 72 4) 72 false = .ok d) (hl : s.ledger n = some l)
    (hts : ts = s.applyClasses n l (putTensor (newTensor p d) (s.tensors n l))) :
    exec (.tensorClass p) s = .next ((s.putTensors n l ts).finish c (Ending.ok (appliedClass (p.at 64 2) (p.at 66 2) ts) 0)) := by
  subst hn hts
  refine congrArg Host.Outcome.next (h.runNow_ok ?_)
  simp only [hc, hd, hl]
  rfl

/-! ### REPLAY (R334, R336) -/

/-- The state in which an entry is noted to be replayed as a step. -/
def State.noteReplay (s : State) (n step : Nat) (entry : List Byte) : State :=
  (s.updCtx n fun c =>
    { c.setXhStep { step := step, attempts := 0, verified := [], aborted := false, stale := [] } with stepSeen := false }).updLedger n fun l =>
      { l with replay := some { step := step, entry := entry } }

theorem Ready.exec_replay {n : Nat} (h : Ready s p 0x0A06 c x) (hn : n = (c.view s).ctx) (hc : s.checkReplay n x p false = .ok ())
    (hd : s.desc n (p.at 72 4) = some d) (hl : s.ledger n = some l)
    (hio : s.mgmtTouch c 9 [{ detail := 72, write := false, ranges := [(d.base, l.entryBytes)] }] = .ok s1) (hn1 : n = (c.view s1).ctx)
    (hc1 : s1.checkReplay n x p true = .ok ()) (hd1 : s1.needDesc n (p.at 72 4) 72 false = .ok d) (hl1 : s1.ledger n = some l) :
    exec (.replay p) s = .next (((l.opened.foldl (fun s k => s.closeEntry n k) s1).noteReplay n (p.at 64 5)
      (s1.vread n [] d.base l.entryBytes)).finish c (Ending.ok 0 0)) := by
  refine congrArg Host.Outcome.next (h.runReach (s2 := s1) (hn ▸ hc) ?_ ?_)
  · simp only [← hn, hd, hl]
    exact hio
  · simp only [← hn1, hc1, hd1, hl1]
    rfl

/-! ### Placement and hot spares (R337, R339, R340, R342) -/

theorem Ready.exec_placementSet (h : Ready s p 0x0A09 c x) (hc : s.checkPlacementSet p = .ok ()) :
    exec (.placementSet p) s = .next (({ s with nextPlacement := some (p.at 64 2) } : State).finish c (Ending.ok 0 0)) := by
  refine congrArg Host.Outcome.next (h.runNow_ok ?_)
  simp only [hc]
  rfl

theorem Ready.exec_spareArm (h : Ready s p 0x0A07 c x) (htake : s.takeSlot c clsSurvival = .ok s1) (hc : s1.checkSpareArm p = .ok ()) :
    exec (.spareArm p) s = .next (({ s1 with spare := { s1.spare with node := p.at 64 2, pattern := p.at 66 1, port := p.at 67 1, arming := true } } :
      State).finish c (Ending.ok 0 0)) := by
  refine congrArg Host.Outcome.next ((h.runProof htake _).trans ?_)
  simp only [hc]
  rfl

/-- As `Ready.runProof`, for an effect that may leave the command running. -/
theorem Ready.runProofLong {op k : Nat} (h : Ready s p op c x) (htake : s.takeSlot c k = .ok s1) {chk : State → Nat → Check}
    (hc : chk s1 (c.view s1).ctx = .ok ()) (act : State → Cmd → State) : s.forOp p op (s.runProofLong p k chk act) = act s1 c := by
  simp [State.forOp, State.runProofLong, h.opcode, h.start, h.ctx, htake, hc]

variable (h : Ready s p 0x0A08 c x) (htake : s.takeSlot c clsSurvival = .ok s1) (hc : s1.checkSparePromote (c.view s1).ctx p = .ok ())
include h htake hc

theorem Ready.exec_sparePromote_awake (hstate : s1.spare.state = .awake) : exec (.sparePromote p) s =
    .next (({ s1 with spare := { s1.spare with promoting := some (c.queue, c.seq, p.at 64 2) } } : State).begin c .none) := by
  refine congrArg Host.Outcome.next ((h.runProofLong htake hc _).trans ?_)
  simp only [hstate, if_true]

/-- With no queue pair, and no fill begun, the part is active at once. -/
theorem Ready.exec_sparePromote_unfilled (hstate : s1.spare.state = .taken) (hqp : p.at 68 4 = 0xFFFF_FFFF) (hfill : s1.spare.fill = none) :
    exec (.sparePromote p) s =
      .next (({ s1 with spare := { s1.spare with state := .active, fill := none, cursor := none } } : State).finish c (Ending.ok 0 0)) := by
  refine congrArg Host.Outcome.next ((h.runProofLong htake hc _).trans ?_)
  simp only [hstate, hqp, hfill, reduceCtorEq, if_true, if_false]

theorem Ready.exec_sparePromote_fill (hstate : s1.spare.state = .taken) (hqp : p.at 68 4 ≠ 0xFFFF_FFFF) : exec (.sparePromote p) s =
    .next ((({ s1 with spare := { s1.spare with fill := some (Fill.mk c.queue c.seq (p.at 68 4) (c.view s1).ctx none false) } } :
      State).begin c .none).postHeld (p.at 68 4) none keepTag (fillRequest ((s1.spare.cursor.map (·.1)).getD 0))) := by
  refine congrArg Host.Outcome.next ((h.runProofLong htake hc _).trans ?_)
  simp only [hstate, hqp, reduceCtorEq, if_false]

end Ledgers

/-- Settles O21, command by command. -/
theorem survivalCommandsComplete : Obligations.SurvivalCommandsComplete := by
  unfold Obligations.SurvivalCommandsComplete
  refine ⟨?ledger, ?cls, ?replay, ?placement, ?arm, ?promote⟩
  case ledger =>
    rintro s s1 p c x d n bs l keep h rfl hc hd hio hn hd1 hh hfields rfl hl hfits hkeep
    rw [hn] at hd1 hh hfields hl hkeep ⊢
    exact h.exec_ledgerSet hc hd hio hd1 hh hfields hl hfits hkeep
  case cls =>
    intro s p c x d n l h hn hc hd hl ts hts
    exact h.exec_tensorClass hn hc hd hl hts
  case replay =>
    rintro s s1 _ p c x d n l h hn hc hd hl hio hn1 hc1 hd1 hl1 rfl _ rfl
    exact h.exec_replay hn hc hd hl hio hn1 hc1 hd1 hl1
  case placement => exact fun _ _ _ _ h hc => h.exec_placementSet hc
  case arm => exact fun _ _ _ _ _ h htake hc => h.exec_spareArm htake hc
  case promote =>
    exact fun _ _ _ _ _ h htake hc => ⟨h.exec_sparePromote_awake htake hc, h.exec_sparePromote_unfilled htake hc,
      h.exec_sparePromote_fill htake hc⟩

end Sys2Proof.Machine
end

section
/-! PROOFS. Saves and restores (11_command_reference.md R198, 19_failure_survival_and_replay.md R328 to R334): SNAPSHOT, MIRROR and RESTORE as they
begin, one chunk of each, and their ends. -/

namespace Sys2Proof.Machine

open Sys2Proof

/-! ### A save begins (R331) -/

section SaveBegins

variable {s : State} {p : Packet} {c : Cmd} {x : Ctx} {j : SaveJob} {op : Nat}

theorem Ready.save (h : Ready s p op c x) (hc : s.checkSave (c.view s).ctx x p = .ok ()) (hj : s.saveJob c = some j) :
    s.forOp p op (s.save p) =
      (s.begin c (.counts [])).saveRun { c with phase := .running, work := .counts [] } j (j.d.extent / chunkSize + 2) := by
  simp only [State.forOp, h.opcode, if_true, State.save, h.start, h.ctx, hc, hj]

theorem Ready.exec_snapshot (h : Ready s p 0x0A02 c x) (hc : s.checkSave (c.view s).ctx x p = .ok ()) (hj : s.saveJob c = some j) :
    exec (.snapshot p) s =
      .next ((s.begin c (.counts [])).saveRun { c with phase := .running, work := .counts [] } j (j.d.extent / chunkSize + 2)) :=
  congrArg Host.Outcome.next (h.save hc hj)

theorem Ready.exec_mirror (h : Ready s p 0x0A04 c x) (hc : s.checkSave (c.view s).ctx x p = .ok ()) (hj : s.saveJob c = some j) :
    exec (.mirror p) s =
      .next ((s.begin c (.counts [])).saveRun { c with phase := .running, work := .counts [] } j (j.d.extent / chunkSize + 2)) :=
  congrArg Host.Outcome.next (h.save hc hj)

end SaveBegins

/-! ### One chunk of a save (R328, R330) -/

theorem State.hostBlocked_nil (s : State) (v : View) : s.hostBlocked v [] = false := by
  simp only [State.hostBlocked, List.any_nil, Bool.and_false]

/-- A save, or its row of the queue, with one chunk more whose bytes are given. -/
def Cmd.withLeaf (c : Cmd) (leaves : List Nat) (bs : List Byte) : Cmd :=
  { c with cursor := c.cursor + 1, work := .counts (leaves ++ [leNat (chunkLeaf bs)]) }

section SaveRuns

variable {s s1 s2 : State} {c : Cmd} {j : SaveJob} {leaves : List Nat} {len k : Nat} (hwork : c.work = .counts leaves)
include hwork

theorem State.saveRun_past_last (hdone : j.d.extent ≤ chunkSize * c.cursor) : s.saveRun c j (k + 1) = s.saveEnd c j leaves := by
  rw [State.saveRun]
  simp only [hwork, hdone, if_true]

variable (hcancel : c.cancel = false) (hmore : chunkSize * c.cursor < j.d.extent) (hlen : len = min chunkSize (j.d.extent - chunkSize * c.cursor))
  (hfree : s.hostBlocked (c.view s) [(j.d.base + chunkSize * c.cursor, len)] = false)
  (hread : s.touch (c.view s).ctx (c.view s).bound (j.d.base + chunkSize * c.cursor) len accR false = .ok s1)
include hcancel hmore hlen hfree hread

/-- A chunk of a save to the host goes to the bounce buffer. -/
theorem State.saveRun_bounced {b : Desc} (hb : j.bounce = some b)
    (hfree' : s.hostBlocked (c.view s) [(b.base + chunkSize * c.cursor, len)] = false)
    (hwrite : s1.touch (c.view s).ctx (c.view s).bound (b.base + chunkSize * c.cursor) len accW false = .ok s2)
    (hgood : s2.badRange (c.view s).ctx (c.view s).bound (j.d.base + chunkSize * c.cursor) len = none) {bs : List Byte}
    (hbs : bs = s2.vread (c.view s).ctx (c.view s).bound (j.d.base + chunkSize * c.cursor) len) :
    s.saveRun c j (k + 1) = ((s2.vwrite (c.view s).ctx (c.view s).bound (b.base + chunkSize * c.cursor) bs).updCmd c.queue c.seq
      (·.withLeaf leaves bs)).saveRun (c.withLeaf leaves bs) j k := by
  subst hlen
  rw [State.saveRun]
  simp only [hwork, hcancel, Nat.not_le.2 hmore, hfree, hread, hb, hfree', hwrite, hgood, Option.map_some, Option.toList_some, List.map_cons,
    List.map_nil, Bool.false_eq_true, if_false, ← hbs, Cmd.withLeaf]

/-- A chunk of a save to a buddy is sent behind its piece header. -/
theorem State.saveRun_sent (hb : j.bounce = none)
    (hgood : s1.badRange (c.view s).ctx (c.view s).bound (j.d.base + chunkSize * c.cursor) len = none) {bs : List Byte}
    (hbs : bs = s1.vread (c.view s).ctx (c.view s).bound (j.d.base + chunkSize * c.cursor) len) :
    s.saveRun c j (k + 1) = ((s1.postHeld (c.pkt.at 76 4) (some (c.queue, c.seq)) keepTag (pieceHeader j.t.layer j.t.tensor (c.pkt.at 64 5)
      (saveKind c.pkt) c.cursor j.d.extent [] ++ bs)).updCmd c.queue c.seq (·.withLeaf leaves bs)).saveRun (c.withLeaf leaves bs) j k := by
  subst hlen
  rw [State.saveRun]
  simp only [hwork, hcancel, Nat.not_le.2 hmore, hfree, hread, hb, hgood, Option.map_none, Option.toList_none, List.map_nil,
    State.hostBlocked_nil, Bool.false_eq_true, if_false, ← hbs, Cmd.withLeaf]

end SaveRuns

/-! ### The end of a save (R330, R331) -/

section SaveEnds

variable {s s1 : State} {c : Cmd} {j : SaveJob} {leaves : List Nat}

/-- The digest record of a save. -/
def State.saveRecord (s : State) (c : Cmd) (j : SaveJob) (leaves : List Nat) : List Byte :=
  digestRecord j.t.layer j.t.tensor (c.pkt.at 64 5) j.t.applied s.selfNode j.d.extent (leaves.map (leBytes 32))

/-- A SNAPSHOT writes its record to DIGEST; a save to the host then ends, one to a buddy sends the record and waits for its sendings. -/
theorem State.saveEnd_snapshot {g : Desc} {r : List Byte} (hg : j.digest = some g) (hop : c.pkt.opcode = 0x0A02)
    (hr : r = s.saveRecord c j leaves) (hfree : s.hostBlocked { ctx := (c.view s).ctx, bound := c.bound } [(g.base, r.length)] = false)
    (htouch : s.touch (c.view s).ctx c.bound g.base r.length accW false = .ok s1) :
    s.saveEnd c j leaves = if hostTarget c.pkt then (s1.vwrite (c.view s).ctx c.bound g.base r).finish c (Ending.ok leaves.length 0)
      else ((s1.vwrite (c.view s).ctx c.bound g.base r).postHeld (c.pkt.at 76 4) (some (c.queue, c.seq)) keepTag r).updCmd c.queue c.seq
        fun x => { x with work := .sending (Ending.ok leaves.length 0) } := by
  unfold State.saveRecord at hr
  simp only [State.saveEnd, hg, Option.map_some, Option.toList_some, ← hr, hfree, htouch, hop, Nat.reduceEqDiff, Bool.false_eq_true, if_false]

theorem State.saveEnd_mirror (hg : j.digest = none) (hop : c.pkt.opcode = 0x0A04) :
    s.saveEnd c j leaves = (s.postHeld (c.pkt.at 76 4) (some (c.queue, c.seq)) keepTag (s.saveRecord c j leaves)).updCmd c.queue c.seq
      fun x => { x with work := .sending (Ending.ok j.d.extent 0) } := by
  have hpeer : hostTarget c.pkt = false := by simp [hostTarget, hop]
  simp only [State.saveEnd, hg, Option.map_none, Option.toList_none, State.hostBlocked_nil, hpeer, hop, Bool.false_eq_true, if_true, if_false]
  rfl

end SaveEnds

/-! ### RESTORE (R198, R332) -/

section Restores

variable {s s1 : State} {p : Packet} {c : Cmd} {x : Ctx} {d g h : Desc}

/-- The bytes of its record that a RESTORE reads when it begins. -/
def restoreNeed (p : Packet) (d : Desc) : Nat := if p.at 76 1 = 1 then 64 + 32 * ceilDiv d.extent chunkSize else 64

section Begins

variable {need : Nat} {r : List Byte} (hr : Ready s p 0x0A03 c x) (hc : s.checkRestore (c.view s).ctx x p = .ok ())
  (hd : s.desc (c.view s).ctx (p.at 64 4) = some d) (hg : s.desc (c.view s).ctx (p.at 72 4) = some g) (hneed : need = restoreNeed p d)
  (hfree : s.hostBlocked (c.view s) [(g.base, need)] = false)
  (htouch : s.touch (c.view s).ctx (c.view s).bound g.base need accR false = .ok s1)
  (hgood : s1.badRange (c.view s).ctx (c.view s).bound g.base need = none)
  (hrec : r = s1.vread (c.view s).ctx (c.view s).bound g.base need)

include hr hc in
theorem Ready.exec_restore : exec (.restore p) s = .next (s.restoreStart c) := by
  show execRestore p s = _
  simp only [execRestore, State.forOp, hr.opcode, if_true, hr.start, hr.ctx, hc]

include hr hd hg hneed hfree htouch hgood hrec

theorem Ready.restoreStart_host (hhost : p.at 76 1 = 1) (hh : s1.desc (c.view s).ctx (p.at 68 4) = some h) (hok : recordOk r d.extent = true) :
    s.restoreStart c = (s1.begin c .none).restoreRun { c with phase := .running } d h g (d.extent / chunkSize + 2) := by
  simp only [restoreNeed, hhost, if_true] at hneed
  subst hneed
  subst hrec
  simp only [State.restoreStart, hr.pkt, hd, hg, hhost, hfree, htouch, hgood, hh, hok, Bool.false_eq_true, if_true, if_false]

theorem Ready.restoreStart_buddy (hpeer : p.at 76 1 = 0) (hmagic : r.take 4 = ascii "KVSD") :
    s.restoreStart c = (s1.begin c (.counts [])).postHeld (p.at 68 4) (some (c.queue, c.seq)) keepTag
      (pieceHeader (fieldAt r 4 2) (fieldAt r 6 2) (fieldAt r 8 5) 2 0 (fieldAt r 16 8) [] ++ r) := by
  simp only [restoreNeed, hpeer, Nat.zero_ne_one, if_false] at hneed
  subst hneed
  simp only [State.restoreStart, hr.pkt, hd, hg, hpeer, hfree, htouch, hgood, ← hrec, hmagic, Nat.zero_ne_one, ne_eq, not_true_eq_false,
    Bool.false_eq_true, if_false]

end Begins

/-- One chunk of DEST is written, then checked against its leaf. -/
theorem State.restoreChunk_written {va : Nat} {bs leaf : List Byte} {next : State → Cmd → State} (hva : va = d.base + chunkSize * c.cursor)
    (hfree : s.hostBlocked (c.view s) [(va, bs.length)] = false)
    (htouch : s.touch (c.view s).ctx (c.view s).bound va bs.length accW false = .ok s1) :
    s.restoreChunk c d bs leaf next =
      if chunkLeaf bs ≠ leaf then (s1.vwrite (c.view s).ctx (c.view s).bound va bs).endShard c (restoreFail c.cursor)
      else next ((s1.vwrite (c.view s).ctx (c.view s).bound va bs).updCmd c.queue c.seq fun x => { x with cursor := x.cursor + 1 })
        { c with cursor := c.cursor + 1 } := by
  subst hva
  simp only [State.restoreChunk, hfree, htouch, Bool.false_eq_true, if_false]

theorem State.restoreRun_past_last {k : Nat} (hdone : d.extent ≤ chunkSize * c.cursor) : s.restoreRun c d h g (k + 1) =
    (s.noteRestore (c.view s).ctx d (fieldAt (s.vread (c.view s).ctx (c.view s).bound g.base 64) 8 5)).finish c (Ending.ok c.cursor 0) := by
  rw [State.restoreRun]
  simp only [hdone, if_true]

end Restores

/-- Settles O22, clause by clause. -/
theorem savesAndRestoresComplete : Obligations.SavesAndRestoresComplete := by
  unfold Obligations.SavesAndRestoresComplete
  refine ⟨?begins, ?chunk, ?snapshot, ?mirror, ?restore, ?restoreChunk, ?restored⟩
  case begins =>
    rintro s p c x j op - h hc hj _ rfl
    exact ⟨fun hop => (hop ▸ h).exec_snapshot hc hj, fun hop => (hop ▸ h).exec_mirror hc hj⟩
  case chunk =>
    rintro s s1 s2 c j leaves _ len k bs _ rfl hwork hcancel rfl hmore hlen hfree hread
    exact ⟨fun _ hb hfree' hwrite hgood hbs => State.saveRun_bounced hwork hcancel hmore hlen hfree hread hb hfree' hwrite hgood hbs,
      fun hb hgood hbs => State.saveRun_sent hwork hcancel hmore hlen hfree hread hb hgood hbs⟩
  case snapshot =>
    rintro s s1 c j g leaves r k _ rfl hwork hdone hg hop hr hfree htouch
    rw [State.saveRun_past_last hwork hdone, State.saveEnd_snapshot hg hop hr hfree htouch]
    exact ⟨fun hhost => if_pos hhost, fun hpeer => if_neg (by simp [hpeer])⟩
  case mirror =>
    intro s c j leaves k hwork hdone hg hop
    rw [State.saveRun_past_last hwork hdone, State.saveEnd_mirror hg hop, State.saveRecord]
  case restore =>
    rintro s s1 p c x d g need r _ h rfl hc hd hg hneed hfree htouch hgood hrec
    rw [h.exec_restore hc]
    exact ⟨fun _ hhost hh hok => congrArg _ (h.restoreStart_host hd hg hneed hfree htouch hgood hrec hhost hh hok),
      fun hpeer hmagic => congrArg _ (h.restoreStart_buddy hd hg hneed hfree htouch hgood hrec hpeer hmagic)⟩
  case restoreChunk =>
    rintro s s1 c d va bs leaf next _ rfl hva hfree htouch
    rw [State.restoreChunk_written hva hfree htouch]
    exact ⟨fun hbad => if_pos hbad, fun hgood => if_neg (not_not.2 hgood)⟩
  case restored => exact fun _ _ _ _ _ _ hdone => State.restoreRun_past_last hdone

end Sys2Proof.Machine
end

section
/-! PROOFS. The Proof core's own commands (11_command_reference.md R200, 16_stylus_transport.md R289, 22_boot_identity_store.md R370 to R388):
ATTEST, SESSION_KEY, the firmware slots and the configuration store. -/

namespace Sys2Proof.Machine

open Sys2Proof

/-! ### A command that reaches memory, and one that writes the flash in two phases (R370, R392) -/

section Phases

variable {s s1 s2 t : State} {p : Packet} {op k engine : Nat} {c : Cmd} {x : Ctx} {chk : State → Cmd → Ctx → Check}
  {io : State → Cmd → List MgmtIO} {act : State → Cmd → Ctx → Except Ending (State × Option Ending)} {e : Ending}

theorem Ready.runMgmt_ends (h : Ready s p op c x) (hslot : c.slot = none) (htake : s.takeSlot c k = .ok s1) (hc : chk s1 c x = .ok ())
    (hio : s1.mgmtTouch c engine (io s1 c) = .ok s2) (hact : act s2 { c with slot := some k } x = .ok (t, some e)) :
    s.forOp p op (s.runMgmt p k engine chk io act) = t.finish c e := by
  rw [h.runMgmt hslot htake hc hio, hact]

theorem Ready.runMgmt_refuses (h : Ready s p op c x) (hslot : c.slot = none) (htake : s.takeSlot c k = .ok s1) (hc : chk s1 c x = .ok ())
    (hio : s1.mgmtTouch c engine (io s1 c) = .ok s2) (hact : act s2 { c with slot := some k } x = .error e) :
    s.forOp p op (s.runMgmt p k engine chk io act) = s2.finish c e := by
  rw [h.runMgmt hslot htake hc hio, hact]

theorem Ready.runMgmt_runs (h : Ready s p op c x) (hslot : c.slot = none) (htake : s.takeSlot c k = .ok s1) (hc : chk s1 c x = .ok ())
    (hio : s1.mgmtTouch c engine (io s1 c) = .ok s2) (hact : act s2 { c with slot := some k } x = .ok (t, none)) :
    s.forOp p op (s.runMgmt p k engine chk io act) = t := by
  rw [h.runMgmt hslot htake hc hio, hact]

theorem Again.runMgmt_ends (h : Again s p op c x) (hc : chk s c x = .ok ()) (hio : s.mgmtTouch c engine (io s c) = .ok s2)
    (hact : act s2 { c with slot := some k } x = .ok (t, some e)) : s.forOp p op (s.runMgmt p k engine chk io act) = t.finish c e := by
  rw [h.runMgmt hc hio, hact]

variable {erase : State → State} {prog : State → State × Ending}

theorem State.flashTwice_erases (hfree : s.boot.flashOp = none) : s.flashTwice c erase prog = ((erase s).flashBegin c, none) := by
  simp only [State.flashTwice, State.flashMine, hfree, reduceCtorEq, decide_false, Option.isSome_none, Bool.false_eq_true, if_false]

theorem State.flashTwice_programs (hmine : s.boot.flashOp = some { cmd := some (c.queue, c.seq) }) (hprog : prog s = (t, e)) :
    s.flashTwice c erase prog = (t.flashEnd, some e) := by
  simp only [State.flashTwice, State.flashMine, hmine, decide_true, if_true, hprog]

end Phases

/-! ### ATTEST and SESSION_KEY (R289, R387, R388) -/

section Exchanges

variable {s s1 s2 : State} {p : Packet} {c : Cmd} {x : Ctx} {k : List Byte}

theorem Ready.exec_attest {bs : List Byte} (h : Ready s p 0x0C01 c x) (hslot : c.slot = none) (htake : s.takeSlot c clsSign = .ok s1)
    (hc : s1.checkAttest (c.view s1).ctx p = .ok ()) (hio : s1.mgmtTouch c 10 [s1.ioOf c 68 false, s1.ioOf c 64 true] = .ok s2)
    (hk : s2.deviceSecret = some k) (hbs : bs = s2.reportBody (s2.mgmtBytes c 68 (p.at 72 4))) :
    exec (.attest p) s = .next ((s2.mgmtWrite c 64 (bs ++ Config.slhSign k bs)).finish c (Ending.ok (reportSize s2.epochs.length) 0)) := by
  rw [hbs]
  refine congrArg Host.Outcome.next (h.runMgmt_ends hslot htake hc hio ?_)
  simp only [hk]
  rfl

/-- Stage 0 of the exchange gives the signed first message and notes what it began. -/
theorem State.exchange_first {m : List Byte} (hstage : fieldAt (s.mgmtBytes c 68 18400) 4 1 = 0)
    (hm : m = kxHeader 0 s.selfNode (c.pkt.at 64 4) (fieldAt (s.mgmtBytes c 68 18400) 8 2) (fieldAt (s.mgmtBytes c 68 18400) 10 2) ++
      Config.kemEncapKey s.drawRandom.1) :
    s.exchange c k = .ok ((s.drawRandom.2.updQp (c.pkt.at 64 4) fun q => { q with initiated := some (s.drawRandom.1, m) }).mgmtWrite c 72
      (m ++ Config.slhSign k m), some (Ending.ok 0 0)) := by
  subst hm
  simp only [State.exchange, hstage, if_true]

/-- What a SESSION_KEY does once its secret is at hand. -/
theorem Ready.sessionKey (h : Ready s p 0x0C02 c x) (hslot : c.slot = none) (htake : s.takeSlot c (s.kxClass p) = .ok s1)
    (hc : s1.checkSessionKey (c.view s1).ctx c true = .ok ()) (hio : s1.mgmtTouch c 10 [s1.ioOf c 68 false, s1.ioOf c 72 true] = .ok s2)
    (hk : s2.deviceSecret = some k) :
    (∀ t e, s2.exchange c k = .ok (t, some e) → exec (.sessionKey p) s = .next (t.finish c e)) ∧
    (∀ e, s2.exchange c k = .error e → exec (.sessionKey p) s = .next (s2.finish c e)) := by
  refine ⟨fun t e he => congrArg Host.Outcome.next (h.runMgmt_ends hslot htake hc hio ?_),
    fun e he => congrArg Host.Outcome.next (h.runMgmt_refuses hslot htake hc hio ?_)⟩
  all_goals
    simp only [hk]
    exact he

end Exchanges

/-! ### Firmware (R379, R381) -/

section Firmware

variable {s s1 s2 t : State} {p : Packet} {c : Cmd} {x : Ctx}

section Staging

variable {d g : Desc} {img sig : List Byte} (hd : s2.needDesc (c.view s2).ctx (p.at 64 4) 64 false = .ok d)
  (hg : s2.needDesc (c.view s2).ctx (p.at 68 4) 68 false = .ok g) (himg : img = s2.descBytes (c.view s2) d)
  (hsig : sig = s2.descBytes (c.view s2) g)
include hd hg himg hsig

section Begins

variable (h : Ready s p 0x0C03 c x) (hslot : c.slot = none) (htake : s.takeSlot c clsVerify = .ok s1)
  (hc : s1.checkFwStage (c.view s1).ctx p = .ok ()) (hio : s1.mgmtTouch c 10 [s1.ioOf c 64 false, s1.ioOf c 68 false] = .ok s2)
include h hslot htake hc hio

theorem Ready.exec_fwStage_unsigned (hbad : imageSigned img sig = false) :
    exec (.fwStage p) s = .next (s2.finish c (.fail .signatureInvalid 68)) := by
  refine congrArg Host.Outcome.next (h.runMgmt_refuses hslot htake hc hio ?_)
  rw [Cmd.view_slot]
  simp only [hd, hg, bind, Except.bind, ← himg, ← hsig, hbad]
  rfl

/-- The other slot's header and image are erased before they are written. -/
theorem Ready.exec_fwStage_erases (hgood : imageSigned img sig = true) (hchk : s2.checkImage img = .ok ())
    (hfloor : s2.storeNat 2 ≤ fieldAt img 8 4) (hfree : s2.boot.flashOp = none) :
    exec (.fwStage p) s =
      .next (((s2.flashErase (slotHeader s2.otherSlot) 65536).flashErase (slotImage s2.otherSlot) (2 ^ 24)).flashBegin c) := by
  refine congrArg Host.Outcome.next (h.runMgmt_runs hslot htake hc hio ?_)
  rw [Cmd.view_slot]
  simp only [hd, hg, bind, Except.bind, ← himg, ← hsig, hgood, hchk, hfloor, decide_true, ensure, if_true, State.flashTwice_erases hfree]
  rfl

end Begins

/-- The slot header that is programmed behind a staged image. -/
def State.stagedHeader (s : State) (img sig : List Byte) : List Byte :=
  slotBytes ((((s.boot.slot.map s.slotSeq).getD 0) + 1) % 2 ^ 32) img sig 0xFFFF_FFFF

variable (h : Again s p 0x0C03 c x) (hc : s.checkFwStage (c.view s).ctx p = .ok ())
  (hio : s.mgmtTouch c 10 [s.ioOf c 64 false, s.ioOf c 68 false] = .ok s2) (hgood : imageSigned img sig = true)
  (hchk : s2.checkImage img = .ok ()) (hfloor : s2.storeNat 2 ≤ fieldAt img 8 4)
  (hmine : s2.boot.flashOp = some { cmd := some (c.queue, c.seq) }) (ht : t = s2.flashWrite (slotImage s2.otherSlot) img)
include h hc hio hgood hchk hfloor hmine ht

theorem Again.exec_fwStage_right (hright : sha256 (t.flashRead (slotImage s2.otherSlot) img.length) = sha256 img) :
    exec (.fwStage p) s = .next (((t.flashWrite (slotHeader s2.otherSlot) (t.stagedHeader img sig)).flashEnd).finish c
      (Ending.ok (fieldAt img 8 4) s2.otherSlot)) := by
  refine congrArg Host.Outcome.next (h.runMgmt_ends hc hio ?_)
  rw [Cmd.view_slot]
  simp only [hd, hg, bind, Except.bind, ← himg, ← hsig, hgood, hchk, hfloor, decide_true, ensure, if_true]
  refine congrArg Except.ok (State.flashTwice_programs hmine ?_)
  simp only [← ht, hright, ne_eq, not_true_eq_false, if_false, State.stagedHeader]

theorem Again.exec_fwStage_wrong (hwrong : sha256 (t.flashRead (slotImage s2.otherSlot) img.length) ≠ sha256 img) :
    exec (.fwStage p) s = .next (t.flashEnd.finish c (.fail .mediaError 64)) := by
  refine congrArg Host.Outcome.next (h.runMgmt_ends hc hio ?_)
  rw [Cmd.view_slot]
  simp only [hd, hg, bind, Except.bind, ← himg, ← hsig, hgood, hchk, hfloor, decide_true, ensure, if_true]
  refine congrArg Except.ok (State.flashTwice_programs hmine ?_)
  simp only [← ht, hwrong, ne_eq, not_false_eq_true, if_true]

end Staging

theorem Ready.exec_fwActivate (h : Ready s p 0x0C04 c x) (hslot : c.slot = none) (htake : s.takeSlot c clsMaintenance = .ok s1)
    (hc : s1.checkFwActivate p = .ok ()) (hfree : s1.boot.flashOp = none) : exec (.fwActivate p) s = .next (s1.flashBegin c) :=
  congrArg Host.Outcome.next (h.runMgmt_runs hslot htake hc rfl (congrArg Except.ok (State.flashTwice_erases hfree)))

theorem Again.exec_fwActivate (h : Again s p 0x0C04 c x) (hc : s.checkFwActivate p = .ok ())
    (hmine : s.boot.flashOp = some { cmd := some (c.queue, c.seq) }) :
    exec (.fwActivate p) s = .next ((s.flashWrite (slotHeader (p.at 64 1) + 12) (zeros 4)).flashEnd.finish c (Ending.ok 0 0)) :=
  congrArg Host.Outcome.next (h.runMgmt_ends hc rfl (congrArg Except.ok (State.flashTwice_programs hmine rfl)))

end Firmware

/-! ### The configuration store (R370, R375 to R377) -/

section Store

variable {s s1 s2 t : State} {p : Packet} {c : Cmd} {x : Ctx}

theorem Ready.exec_configRead {v : List Byte} (h : Ready s p 0x0C05 c x) (hslot : c.slot = none) (htake : s.takeSlot c clsMaintenance = .ok s1)
    (hc : s1.checkConfigRead (c.view s1).ctx p = .ok ()) (hio : s1.mgmtTouch c 10 [s1.ioOf c 68 true] = .ok s2)
    (hv : v = s2.shownKey (p.at 64 2)) :
    exec (.configRead p) s = .next ((s2.mgmtWrite c 68 v).finish c (Ending.ok v.length s2.boot.storeSeq)) := by
  subst hv
  exact congrArg Host.Outcome.next (h.runMgmt_ends hslot htake hc hio rfl)

theorem Ready.exec_configWrite (h : Ready s p 0x0C06 c x) (hslot : c.slot = none) (htake : s.takeSlot c clsMaintenance = .ok s1)
    (hc : s1.checkConfigWrite c true = .ok ()) (hio : s1.mgmtTouch c 10 [s1.ioOf c 68 false] = .ok s2) (hseed : s2.boot.seed.isSome = true)
    (hfree : s2.boot.flashOp = none) :
    exec (.configWrite p) s = .next ((s2.flashErase (bankBase s2.spareBank) 65536).flashBegin c) := by
  refine congrArg Host.Outcome.next (h.runMgmt_runs hslot htake hc hio ?_)
  simp only [Option.isNone_eq_false_iff.2 hseed, Bool.false_eq_true, if_false, State.flashTwice_erases hfree]
  rfl

variable (h : Again s p 0x0C06 c x) (hc : s.checkConfigWrite c true = .ok ()) (hio : s.mgmtTouch c 10 [s.ioOf c 68 false] = .ok s2)
  (hseed : s2.boot.seed.isSome = true) (hmine : s2.boot.flashOp = some { cmd := some (c.queue, c.seq) })
include h hc hio hseed hmine

theorem Again.exec_configWrite_committed (ht : s2.commitStore (p.at 64 2) (s2.configValue c) = some t) :
    exec (.configWrite p) s = .next (t.flashEnd.finish c (Ending.ok t.boot.storeSeq 0)) := by
  refine congrArg Host.Outcome.next (h.runMgmt_ends hc hio ?_)
  simp only [Option.isNone_eq_false_iff.2 hseed, Bool.false_eq_true, if_false]
  refine congrArg Except.ok (State.flashTwice_programs hmine ?_)
  have hslotless : s2.commitStore (p.at 64 2) (s2.configValue { c with slot := some clsMaintenance }) = some t := ht
  simp only [hslotless]

theorem Again.exec_configWrite_unwritten (ht : s2.commitStore (p.at 64 2) (s2.configValue c) = none) :
    exec (.configWrite p) s = .next (s2.flashEnd.finish c (.fail .mediaError 64)) := by
  refine congrArg Host.Outcome.next (h.runMgmt_ends hc hio ?_)
  simp only [Option.isNone_eq_false_iff.2 hseed, Bool.false_eq_true, if_false]
  refine congrArg Except.ok (State.flashTwice_programs hmine ?_)
  have hslotless : s2.commitStore (p.at 64 2) (s2.configValue { c with slot := some clsMaintenance }) = none := ht
  simp only [hslotless]

end Store

/-- Settles O24, command by command: each in the phase in which it is presented. -/
theorem proofCommandsComplete : Obligations.ProofCommandsComplete := by
  unfold Obligations.ProofCommandsComplete
  refine ⟨?attest, ?key, ?stage, ?staged, ?activate, ?read, ?write⟩
  case attest => exact fun _ _ _ _ _ _ _ _ h hslot htake hc hio hk hbs => h.exec_attest hslot htake hc hio hk hbs
  case key =>
    intro s s1 s2 p c x k h hslot htake hc hio hk
    obtain ⟨hends, hrefused⟩ := h.sessionKey hslot htake hc hio hk
    refine ⟨fun m hstage hm => hends _ _ ?_, hends, hrefused⟩
    rw [← h.pkt] at hm ⊢
    exact State.exchange_first hstage hm
  case stage =>
    intro s s1 s2 p c x d g img sig h hslot htake hc hio hd hg himg hsig
    exact ⟨h.exec_fwStage_unsigned hd hg himg hsig hslot htake hc hio, h.exec_fwStage_erases hd hg himg hsig hslot htake hc hio⟩
  case staged =>
    intro s s2 t p c x d g img sig h hc hio hd hg himg hsig hgood hchk hfloor hmine ht
    exact ⟨h.exec_fwStage_right hd hg himg hsig hc hio hgood hchk hfloor hmine ht,
      h.exec_fwStage_wrong hd hg himg hsig hc hio hgood hchk hfloor hmine ht⟩
  case activate =>
    exact fun _ _ _ _ _ hc => ⟨fun h hslot htake hfree => h.exec_fwActivate hslot htake hc hfree, fun h hmine => h.exec_fwActivate hc hmine⟩
  case read => exact fun _ _ _ _ _ _ _ h hslot htake hc hio hv => h.exec_configRead hslot htake hc hio hv
  case write =>
    intro s s1 s2 p c x hc hio hseed
    exact ⟨fun h hslot htake hfree => h.exec_configWrite hslot htake hc hio hseed hfree,
      fun h hmine => ⟨fun _ => h.exec_configWrite_committed hc hio hseed hmine, h.exec_configWrite_unwritten hc hio hseed hmine⟩⟩

end Sys2Proof.Machine
end

section
/-! PROOFS. Easel (11_command_reference.md R199, 21_easel_ingest.md R362 to R368): the stream commands, a frame that is decoded, a batch that begins,
and the two timeouts. -/

namespace Sys2Proof.Kv

variable {α : Type}

theorem mem_keys_of_has {k : Nat} {t : List (Nat × α)} (h : has k t = true) : k ∈ keys t := by
  induction t with
  | nil => cases h
  | cons e t ih =>
    rw [has, get_cons] at h
    rw [keys, List.map_cons, List.mem_cons]
    split at h
    case isTrue heq => exact .inl heq.symm
    case isFalse => exact .inr (ih h)

/-- Among one number more than a table has entries, one is no key. -/
theorem exists_free (lo : Nat) (t : List (Nat × α)) : ∃ i < t.length + 1, has (lo + i) t = false := by
  have hcard : (keys t).toFinset.card < (Finset.Ico lo (lo + (t.length + 1))).card := by
    rw [Nat.card_Ico, Nat.add_sub_cancel_left]
    exact Nat.lt_succ_of_le ((List.toFinset_card_le _).trans (List.length_map _).le)
  obtain ⟨k, hk, hfree⟩ := Finset.exists_mem_notMem_of_card_lt_card hcard
  obtain ⟨hlo, hhi⟩ := Finset.mem_Ico.1 hk
  refine ⟨k - lo, by omega, ?_⟩
  rw [Nat.add_sub_cancel' hlo]
  exact Bool.eq_false_iff.2 fun h => hfree (List.mem_toFinset.2 (mem_keys_of_has h))

end Sys2Proof.Kv

namespace Sys2Proof.Machine

open Sys2Proof

/-! ### The stream commands (R199, R362, R363, R368) -/

section Commands

variable {s : State} {p : Packet} {c : Cmd} {x : Ctx} {y : EStream}

/-- The stream that a STREAM_OPEN of a context opens. -/
def openedStream (n : Nat) (p : Packet) : EStream :=
  { owner := n, codec := p.par 1 1, width := p.par 2 2, height := p.par 4 2, rate := p.par 6 2, output := p.par 8 4, metaH := p.par 12 4,
    signal := p.par 16 8, batch := p.par 24 1, slots := p.par 25 1, group := if p.par 26 1 = 0xFF then none else some (p.par 26 1),
    mode := p.par 27 1, units := [], next := 0, released := 0, started := none, frames := [], complete := [], feeds := [], good := 0,
    closing := none, closed := false, refused := 0 }

theorem Ready.exec_streamOpen (h : Ready s p 0x0B01 c x) (hc : s.checkStreamOpen (c.view s).ctx p = .ok ()) : exec (.streamOpen p) s =
    .next (({ s with streams := Kv.set (p.par 0 1) (openedStream (c.view s).ctx p) s.streams } : State).finish c (Ending.ok 0 0)) := by
  refine congrArg Host.Outcome.next (h.runNow_ok ?_)
  simp only [hc]
  rfl

theorem Ready.exec_streamFeed {f : EFeed} (h : Ready s p 0x0B02 c x) (hy : Kv.get (p.par 0 1) s.streams = some y)
    (howner : y.owner = (c.view s).ctx) (hf : f ∈ y.feeds) (hq : f.queue = c.queue) (hseq : f.seq = c.seq) :
    exec (.streamFeed p) s = .next (s.begin c .none) := by
  have hordered : (y.feeds.any fun f => decide (f.queue = c.queue ∧ f.seq = c.seq)) = true :=
    List.any_eq_true.2 ⟨f, hf, decide_eq_true ⟨hq, hseq⟩⟩
  show execStreamFeed p s = _
  simp only [execStreamFeed, State.forOp, h.opcode, h.start, hy, howner, hordered, and_self, if_true]

/-- A stream with no batch that waits for release leaves nothing behind. -/
theorem State.closeStream_empty {k : Nat} (hnone : y.complete = []) : s.closeStream k y = { s with streams := Kv.del k s.streams } := by
  simp only [State.closeStream, hnone, List.isEmpty_nil, if_true]

/-- What waits for release stays under a number beyond the streams'. -/
theorem State.closeStream_waiting (k : Nat) (hsome : y.complete ≠ []) : ∃ j, 32 ≤ j ∧ Kv.has j (Kv.del k s.streams) = false ∧
    s.closeStream k y = { s with streams := Kv.set j { y with closed := true, closing := none } (Kv.del k s.streams) } := by
  obtain ⟨i, hi, hfree⟩ := Kv.exists_free 32 (Kv.del k s.streams)
  have hfound : (((List.range ((Kv.del k s.streams).length + 1)).map (32 + ·)).find? fun j => !Kv.has j (Kv.del k s.streams)).isSome :=
    List.find?_isSome.2 ⟨32 + i, List.mem_map_of_mem (List.mem_range.2 hi), by simp [hfree]⟩
  obtain ⟨j, hj⟩ := Option.isSome_iff_exists.1 hfound
  obtain ⟨a, -, ha⟩ := List.mem_map.1 (List.mem_of_find?_eq_some hj)
  refine ⟨j, ha ▸ Nat.le_add_right 32 a, by simpa using List.find?_some hj, ?_⟩
  simp only [State.closeStream, List.isEmpty_eq_false_iff.2 hsome, Bool.false_eq_true, if_false, hj, Option.getD_some]

/-- With no partial batch there is nothing to pad. -/
theorem State.padFrames_whole {k : Nat} (hy : Kv.get k s.streams = some y) (hwhole : y.next % y.batch = 0) (n : Nat) :
    s.padFrames k c (n + 1) = (s.closeStream k y).finish c (Ending.ok y.good 0) := by
  rw [State.padFrames]
  simp only [hy, hwhole, true_or, if_true]

section Closing

variable (h : Ready s p 0x0B03 c x) (hy : Kv.get (p.par 0 1) s.streams = some y) (howner : y.owner = (c.view s).ctx)
  (hclosing : y.closing = some (c.queue, c.seq)) (hfault : c.fault = none) (hwait : c.hostWait = none)
include h hy hclosing

include howner in
theorem Ready.exec_streamClose : exec (.streamClose p) s = .next ((s.begin c .none).tryClose (p.par 0 1)) := by
  show execStreamClose p s = _
  simp only [execStreamClose, State.forOp, h.opcode, h.start, hy, howner, hclosing, and_self, if_true]

include hfault hwait

/-- A close that has begun waits for the feeds before it, and then fills its last batch. -/
theorem Ready.tryClose_begin : (s.begin c .none).tryClose (p.par 0 1) =
    if y.feeds.isEmpty then (s.begin c .none).padFrames (p.par 0 1) { c with phase := .running, work := .none } 66 else s.begin c .none := by
  have hstream : Kv.get (p.par 0 1) (s.begin c .none).streams = some y := hy
  have hfound : s.findCmd c.queue c.seq = some c := by
    obtain ⟨hqueue, hseq⟩ := h.numbers
    rw [hqueue, hseq]
    exact h.found.1
  simp only [State.tryClose, hstream, hclosing, findCmd_begin hfound, hfault, hwait, and_true]

include howner in
/-- With no feed before it and no partial batch, a close ends the stream. -/
theorem Ready.exec_streamClose_ends (hfeeds : y.feeds = []) (hwhole : y.next % y.batch = 0) :
    exec (.streamClose p) s = .next (((s.begin c .none).closeStream (p.par 0 1) y).finish c (Ending.ok y.good 0)) := by
  have hstream : Kv.get (p.par 0 1) (s.begin c .none).streams = some y := hy
  rw [h.exec_streamClose hy howner hclosing, h.tryClose_begin hy hclosing hfault hwait]
  rw [if_pos (List.isEmpty_iff.2 hfeeds), State.padFrames_whole hstream hwhole]
  rfl

end Closing

end Commands

/-! ### A frame is decoded (R363 to R366) -/

section Frames

variable {s s1 s2 : State} {k first : Nat} {x : EStream} {f : EFeed} {c : Cmd} {d : Desc} {recs : List FeedRecord} {whole : Bool}
  (hx : Kv.get k s.streams = some x) (hhead : s.headFeed x = some (f, c)) (hcodec : 2 < x.codec)
  (hd : s.desc (c.view s).ctx (c.pkt.par 4 4) = some d)
  (hread : s.touchUnit (c.view s) (UnitIO.mk [(68, [(d.base, c.pkt.par 8 4)])] []) = .ok s1)
  (hrecs : feedRecords ((s1.feedBytes c).length / 16 + 1) (s1.feedBytes c) = (recs, whole)) (hfirst : first = f.first.getD x.next)
include hx hhead hd hread hrecs hfirst

/-- The end of a feed whose records are used up. -/
def feedEnding (f : EFeed) (c : Cmd) (whole : Bool) : Ending :=
  if whole then Ending.ok (c.cursor - f.dropped) f.dropped
  else { status := .mediaError, detail := 72, r0 := c.cursor - f.dropped, r1 := f.dropped }

theorem exec_easelFrameDecoded_used (hnone : recs[x.next - first]? = none) :
    exec (.easelFrameDecoded k) s = .next (s1.endFeed k c (feedEnding f c whole)) := by
  subst hfirst
  show execEaselFrameDecoded k s = _
  simp only [execEaselFrameDecoded, hx, hhead, State.decodeFrame, hd, hread, hrecs, hnone]
  rfl

variable {r : FeedRecord} {out md : Desc} (hr : recs[x.next - first]? = some r) (hopen : x.batchDone (x.next / x.batch) = false)
  (hbegun : x.started = some (x.next / x.batch) ∨ x.next % x.batch ≠ 0) (hout : s1.desc x.owner x.output = some out)
  (hmd : s1.desc x.owner x.metaH = some md)
  (hwrite : s1.touchUnit (c.view s) (UnitIO.mk [] [(64, (x.frameIO out md x.next).1), (64, (x.frameIO out md x.next).2)]) = .ok s2)
include hcodec hr hopen hbegun hout hmd hwrite

/-- A frame whose batch is under way is written, as good where it decodes and as dropped where it does not. -/
theorem exec_easelFrameDecoded_frame :
    (∀ val pts, x.picture [] x.next r.payload = some (val, pts) →
      exec (.easelFrameDecoded k) s = .next ((s2.putFrame k x out md x.next r.capture 0 pts val).countFrame k c first true [])) ∧
    (x.picture [] x.next r.payload = none →
      exec (.easelFrameDecoded k) s = .next ((s2.putFrame k x out md x.next r.capture 1 0 fun _ => FV.zero).countFrame k c first false [])) := by
  have hplain : decide (x.codec ≤ 2) = false := decide_eq_false (Nat.not_le.2 hcodec)
  have hgo : ¬ (x.started ≠ some (x.next / x.batch) ∧ x.next % x.batch = 0 ∧ (f.since.isSome ∨ ¬ s1.hasRoom x (x.next / x.batch))) :=
    fun ⟨hstarted, hstart, _⟩ => hbegun.elim hstarted fun hinside => hinside hstart
  subst hfirst
  refine ⟨fun val pts hpicture => ?_, fun hpicture => ?_⟩
  all_goals
    show execEaselFrameDecoded k s = _
    simp only [execEaselFrameDecoded, hx, hhead, State.decodeFrame, hd, hread, hrecs, hr, hplain, hopen, Bool.false_eq_true, if_false, if_neg hgo,
      hout, hmd, hwrite, hpicture]

end Frames

/-! ### A batch begins, and the timeouts (R363, R366, R367) -/

section Events

variable {s s1 : State} {k t : Nat} {x : EStream} {f : EFeed} {c : Cmd}

/-- A stream whose next batch begins: its first feed waits no more. -/
def EStream.begun (b : Nat) (y : EStream) : EStream :=
  { y with started := some b, feeds := match y.feeds with
    | f :: t => { f with since := none } :: t
    | [] => [] }

theorem exec_easelBatchStart {fs : List EFeed} (hx : Kv.get k s.streams = some x) (hfeeds : x.feeds = f :: fs) (hsince : f.since = some t) :
    exec (.easelBatchStart k) s = .next (if s.hasRoom x (x.next / x.batch) then s.updStream k (EStream.begun (x.next / x.batch)) else s) := by
  show execEaselBatchStart k s = _
  simp only [execEaselBatchStart, hx, hfeeds, List.head?_cons, Option.bind_some, hsince, Option.isSome_some, true_and]
  rfl

theorem exec_feedTimeout {q : Queue} (hx : Kv.get k s.streams = some x) (hhead : s.headFeed x = some (f, c)) (hsince : f.since = some t)
    (hq : Kv.get f.queue s.queues = some q) : exec (.feedTimeout k) s = .next (if s.strk.now < t + q.waitLimit then s
      else s.endFeed k c { status := .timeout, detail := 64, r0 := c.cursor - f.dropped, r1 := f.dropped }) := by
  show execFeedTimeout k s = _
  simp only [execFeedTimeout, hx, hhead, hsince, hq]

/-- A batch that is late on its member, and has begun there, gets its missing frames. -/
theorem exec_batchMissingTimeout {b j since : Nat} {y : EStream} {out md : Desc} (hx : Kv.get k s.streams = some x) (hopen : x.closed = false)
    (hb : ((List.range (x.complete.length + 1)).map (x.released + ·)).find? (fun b => !x.batchDone b) = some b)
    (hout : s.desc x.owner x.output = some out) (hmd : s.desc x.owner x.metaH = some md) (hmate : (j, y) ∈ s.streamMates k x)
    (hdone : (b, since) ∈ y.complete) (hlate : since + ceilDiv 1000000 s.strk.period ≤ s.strk.now)
    (hbegun : ∃ e ∈ x.frames, e.frame / x.batch = b)
    (htouch : s.touchAll { ctx := x.owner, bound := [] }
      (((List.range x.batch).map fun i => x.frameIO out md (b * x.batch + i)).flatMap fun p => p.1 ++ p.2) accW false = .ok s1) :
    exec (.batchMissingTimeout k) s = .next (s1.fillMissing k b x out md) := by
  have hoverdue : ((s.streamMates k x).any fun e => e.2.complete.any fun d =>
      decide (d.1 = b ∧ d.2 + ceilDiv 1000000 s.strk.period ≤ s.strk.now)) = true :=
    List.any_eq_true.2 ⟨(j, y), hmate, List.any_eq_true.2 ⟨(b, since), hdone, decide_eq_true ⟨rfl, hlate⟩⟩⟩
  have hstarted : (x.frames.any fun e => decide (e.frame / x.batch = b)) = true := by
    obtain ⟨e, he, heq⟩ := hbegun
    exact List.any_eq_true.2 ⟨e, he, decide_eq_true heq⟩
  show execBatchMissingTimeout k s = _
  simp only [execBatchMissingTimeout, hx, hb, hout, hmd, hoverdue, hopen, hstarted, List.map_map, Function.comp_def, htouch, not_true_eq_false,
    Bool.false_eq_true, true_or, or_self, if_false]

end Events

/-- Settles O26, command by command and event by event. -/
theorem easelCommandsAndEventsComplete : Obligations.EaselCommandsAndEventsComplete := by
  unfold Obligations.EaselCommandsAndEventsComplete
  refine ⟨?opens, ?feed, ?close, ?decoded, ?batch, ?timeout, ?missing⟩
  case opens =>
    exact fun _ p _ _ h hc => ⟨openedStream _ p, h.exec_streamOpen hc, rfl, rfl, rfl, rfl, rfl, rfl, rfl, rfl, rfl, rfl, rfl, rfl, rfl⟩
  case feed => exact fun _ _ _ _ _ _ h hy howner hf hq hseq => h.exec_streamFeed hy howner hf hq hseq
  case close =>
    intro s p c x y h hy howner hclosing hfault hwait
    have hends := h.exec_streamClose_ends hy howner hclosing hfault hwait
    refine ⟨fun hfeeds => ?_, fun hfeeds hwhole hnone => ?_, fun hfeeds hwhole hsome => ?_⟩
    · rw [h.exec_streamClose hy howner hclosing, h.tryClose_begin hy hclosing hfault hwait, if_neg (by simpa using hfeeds)]
    · rw [hends hfeeds hwhole, State.closeStream_empty hnone]
      rfl
    · obtain ⟨j, hbeyond, hfree, hclose⟩ := State.closeStream_waiting (s := s.begin c .none) (p.par 0 1) hsome
      exact ⟨j, hbeyond, hfree, by rw [hends hfeeds hwhole, hclose]; rfl⟩
  case decoded =>
    intro s s1 k first x f c d recs whole hx hhead hcodec hd hread hrecs hfirst
    exact ⟨exec_easelFrameDecoded_used hx hhead hd hread hrecs hfirst, fun r out md s2 hr hopen hbegun hout hmd hwrite =>
      exec_easelFrameDecoded_frame hx hhead hcodec hd hread hrecs hfirst hr hopen hbegun hout hmd hwrite⟩
  case batch =>
    intro s k t x f fs hx hfeeds hsince
    rw [exec_easelBatchStart hx hfeeds hsince]
    exact ⟨fun hroom => ⟨_, by rw [if_pos hroom], by rw [EStream.begun, hfeeds]⟩, fun hfull => by rw [hfull, if_neg Bool.false_ne_true]⟩
  case timeout =>
    intro s k t x f c q hx hhead hsince hq
    rw [exec_feedTimeout hx hhead hsince hq]
    exact ⟨fun hpast => by rw [if_neg (Nat.not_lt.2 hpast)], fun hyet => by rw [if_pos hyet]⟩
  case missing =>
    exact fun _ _ _ _ _ _ _ _ _ _ hx hopen hb hout hmd hmate hdone hlate hbegun htouch =>
      exec_batchMissingTimeout hx hopen hb hout hmd hmate hdone hlate hbegun htouch

end Sys2Proof.Machine
end

section
/-! PROOFS. Memory (12_memory_translation_isolation.md R203 to R225): what a write of an engine leaves, what a granted access reaches, and the memory
events. -/

namespace Sys2Proof.Machine

open Sys2Proof

/-! ### An engine's write (R225, R230) -/

section EngineWrite

/-- What is noted for the host leaves the uncorrectable lines (R230). -/
theorem Memory.snoop_badLines (m : Memory) (a : Nat) (b : Byte) : (m.snoop a b).badLines = m.badLines := by
  unfold Memory.snoop
  dsimp only
  split <;> rfl

theorem Memory.snoops_badLines (l : List (Byte × Nat)) (a : Nat) (m : Memory) :
    (l.foldl (fun m x => m.snoop (a + x.2) x.1) m).badLines = m.badLines := by
  induction l generalizing m with
  | nil => rfl
  | cons x l ih => rw [List.foldl_cons, ih, Memory.snoop_badLines]

theorem Memory.mem_badLines_writeBytes (m : Memory) (a : Nat) (bs : List Byte) (l : Nat) :
    l ∈ (m.writeBytes a bs).badLines ↔ l ∈ m.badLines ∧ ¬ (a ≤ l ∧ l + 64 ≤ a + bs.length) := by
  simp only [Memory.writeBytes, List.mem_filter, ← Bool.decide_and, Bool.not_eq_true', decide_eq_false_iff_not]

theorem Memory.mem_badLines_engineWrite (m : Memory) (a : Nat) (bs : List Byte) (l : Nat) :
    l ∈ (m.engineWrite a bs).badLines ↔ l ∈ m.badLines ∧ ¬ (a ≤ l ∧ l + 64 ≤ a + bs.length) := by
  rw [Memory.engineWrite, Memory.snoops_badLines, Memory.mem_badLines_writeBytes]

end EngineWrite

/-- Settles O50: the engines' view is what `Memory.writeBytes` makes of the memory, as what is noted for the host is held apart. -/
theorem engineWriteStoresItsBytes : Obligations.EngineWriteStoresItsBytes := by
  unfold Obligations.EngineWriteStoresItsBytes
  refine fun m a bs => ⟨fun i b hb => ?inside, fun x hx => ?outside, fun h => m.engineWrite_wf h a bs, m.mem_badLines_engineWrite a bs⟩
  case inside =>
    obtain ⟨hi, rfl⟩ := List.getElem?_eq_some_iff.1 hb
    rw [Memory.read_engineWrite, Memory.read_writeBytes_in m a bs i hi, List.getD_eq_getElem]
  case outside => rw [Memory.read_engineWrite, Memory.read_writeBytes_out m a bs x hx]

/-! ### What a granted access reaches (R205, R206, R210, R213) -/

section Access

variable {s t : State} {n va : Nat} {bound : List Bound} {acc : Acc} {demand : Bool} {l : Leaf}

theorem State.cache_frame (s : State) (n : Nat) (bound : List Bound) (page : Nat) (l : Leaf) :
    s.cache n bound page l = { s with mem := { s.mem with tlb := (s.cache n bound page l).mem.tlb } } := by
  unfold State.cache
  split <;> rfl

@[simp] theorem State.claim_owners (s : State) (f : Nat) (o : FrameOwner) : (s.claim f o).mem.owners = Kv.set f o s.mem.owners := by
  unfold State.claim
  dsimp only
  repeat' split
  all_goals rfl

@[simp] theorem State.cache_owners (s : State) (n : Nat) (bound : List Bound) (page : Nat) (l : Leaf) :
    (s.cache n bound page l).mem.owners = s.mem.owners := by
  rw [State.cache_frame]

@[simp] theorem State.claim_ctxs (s : State) (f : Nat) (o : FrameOwner) : (s.claim f o).ctxs = s.ctxs := by
  rw [claim_frame]

@[simp] theorem State.cache_ctxs (s : State) (n : Nat) (bound : List Bound) (page : Nat) (l : Leaf) : (s.cache n bound page l).ctxs = s.ctxs := by
  rw [State.cache_frame]

@[simp] theorem State.ownerOf_cache (s : State) (n : Nat) (bound : List Bound) (page : Nat) (l : Leaf) (pa : Nat) :
    (s.cache n bound page l).ownerOf pa = s.ownerOf pa := by
  rw [State.cache_frame]
  rfl

/-- A FREE frame that is claimed is its claimant's (R206). -/
theorem State.ownerOf_claim_of_free {pa : Nat} (hfree : s.ownerOf pa = none) (o : FrameOwner) : (s.claim (pa / 65536) o).ownerOf pa = some o := by
  have hregion : (s.claim (pa / 65536) o).region pa = s.region pa := by
    rw [claim_frame]
    rfl
  unfold State.ownerOf at hfree ⊢
  rw [hregion]
  split
  case h_1 t hreserved => simp [hreserved] at hfree
  case h_2 => rw [State.claim_owners, Kv.get_set_self]

/-- What a frame lets in: a claimant while it is FREE, its own context, and through a window the readers of a base slot (R205, R206, R213). -/
theorem State.frameDenied_eq_false {win : Bool} {pa : Nat} (h : s.frameDenied n win pa = false) :
    s.ownerOf pa = none ∨ s.ownerOf pa = some (.context n) ∨ (∃ b, s.ownerOf pa = some (.base b)) ∧ win = true := by
  unfold State.frameDenied at h
  split at h
  case h_1 hfree => exact .inl hfree
  case h_2 k howner => exact .inr (.inl (by rw [howner, of_not_not (of_decide_eq_false h)]))
  case h_3 b howner => exact .inr (.inr ⟨⟨b, howner⟩, by simpa using h⟩)
  case h_4 => cases h

theorem State.accessCheck_none (h : s.accessCheck n bound va acc l = none) (hframed : s.framed l.pa = true) :
    ∃ c, Kv.get n s.ctxs = some c ∧ s.frameDenied n (c.windowAt bound va).isSome l.pa = false := by
  unfold State.accessCheck at h
  split at h
  case h_1 => cases h
  case h_2 c hc =>
    refine ⟨c, hc, Bool.eq_false_iff.2 fun hdenied => ?_⟩
    simp only [hframed, hdenied, and_self, if_true] at h
    split at h <;> cases h

/-- The page that an access is granted lies in a frame that was FREE, and is claimed, or that was the context's own, or a base slot's behind a
window; the owners change by that claim alone. -/
theorem State.touchPage_granted (htranslate : s.translate n bound va = .ok l) (hframed : s.framed l.pa = true)
    (ht : s.touchPage n bound acc demand va = .ok t) :
    (s.ownerOf l.pa = none ∧ t = (s.claim (l.pa / 65536) (.context n)).cache n bound (va / 4096) l) ∨
      (s.ownerOf l.pa = some (.context n) ∨
        ∃ b c w, s.ownerOf l.pa = some (.base b) ∧ Kv.get n s.ctxs = some c ∧ c.windowAt bound va = some w) ∧
      t = s.cache n bound (va / 4096) l := by
  simp only [State.touchPage, htranslate] at ht
  split at ht
  case h_1 => cases ht
  case h_2 hcheck =>
    cases ht
    obtain ⟨c, hc, hallowed⟩ := State.accessCheck_none hcheck hframed
    rcases State.frameDenied_eq_false hallowed with hfree | hown | ⟨⟨b, hbase⟩, hwin⟩
    · exact .inl ⟨hfree, by rw [if_pos ⟨hframed, hfree⟩]⟩
    · exact .inr ⟨.inl hown, by simp [hown]⟩
    · obtain ⟨w, hw⟩ := Option.isSome_iff_exists.1 hwin
      exact .inr ⟨.inr ⟨b, c, w, hbase, hc, hw⟩, by simp [hbase]⟩

end Access

/-- Settles O51 by what the frame of a granted page was before the access. -/
theorem accessesStayInOwnFrames : Obligations.AccessesStayInOwnFrames := by
  unfold Obligations.AccessesStayInOwnFrames
  refine fun s n va bound acc demand l htranslate hframed => ⟨fun t ht => ?granted, fun k hk howner => ?other⟩
  case granted =>
    rcases State.touchPage_granted htranslate hframed ht with ⟨hfree, rfl⟩ | ⟨howner, rfl⟩
    · refine ⟨.inl ?_, fun f hf => ?_, by simp⟩
      · rw [State.ownerOf_cache, State.ownerOf_claim_of_free hfree]
      · rw [State.cache_owners, State.claim_owners, Kv.get_set_ne hf]
    · simpa using howner
  case other =>
    cases ht : s.touchPage n bound acc demand va with
    | error e => exact ⟨e, rfl⟩
    | ok t =>
      rcases State.touchPage_granted htranslate hframed ht with ⟨hfree, -⟩ | ⟨hown | ⟨b, -, -, hbase, -, -⟩, -⟩
      · cases hfree.symm.trans howner
      · cases hown.symm.trans howner
        exact absurd rfl hk
      · cases hbase.symm.trans howner

/-! ### The memory events (R204, R206, R220, R224, R225) -/

section FaultLimit

variable {s : State} {n fseq : Nat} {x : Ctx} {f : FaultRecord} {c : Cmd}

/-- The command that waits on a fault is in flight, under its numbers. -/
theorem State.findCmd_of_faultedCmd (hc : s.faultedCmd n fseq = some c) : (s.findCmd c.queue c.seq).isSome = true :=
  State.findCmd_isSome_of_mem (List.mem_of_find?_eq_some hc)

theorem State.abandonFault_frame (s : State) (n fseq : Nat) : s.abandonFault n fseq = { s with cmds := (s.abandonFault n fseq).cmds } := by
  unfold State.abandonFault
  split <;> rfl

/-- The command that waits on an abandoned fault is finished (R220). -/
theorem State.phase_findCmd_abandonFault (hc : s.faultedCmd n fseq = some c) : ((s.abandonFault n fseq).findCmd c.queue c.seq).map (·.phase) =
    some (.finished { status := .faultPending, detail := c.faultAt, r1 := c.cursor }) := by
  obtain ⟨d, hd⟩ := Option.isSome_iff_exists.1 (State.findCmd_of_faultedCmd hc)
  rw [State.abandonFault_of_faultedCmd hc, findCmd_finish, if_pos ⟨rfl, rfl⟩,
    findCmd_updCmd s _ _ (fun y => { y with fault := none }) fun _ => ⟨rfl, rfl⟩, hd]
  rfl

@[simp] theorem State.logEvent_ctxs (s : State) (code source index context aux data : Nat) :
    (s.logEvent code source index context aux data).ctxs = s.ctxs := by
  rw [logEvent_frame]

@[simp] theorem State.raise_ctxs (s : State) (v : Nat) : (s.raise v).ctxs = s.ctxs := by
  rw [raise_frame]

/-- A record of a kind other than MEDIA changes its own context alone, whose ring takes it (R219). -/
theorem State.faultRecord_ctxs (s : State) (n : Nat) {f : FaultRecord} (h : f.kind ≠ .media) : (s.faultRecord n f).ctxs =
    Kv.upd n (fun c => { c with
      ring := c.ring.add { f with stroke := s.strk.now, ns := s.drawNs.1 }, counts := c.counts.set 3 (satAdd (c.counts.getD 3 0) 1 (2 ^ 32 - 1)) })
      s.ctxs := by
  simp only [State.faultRecord, h, if_false]
  split <;> split_ifs <;> simp <;> rfl

/-- A ring that takes a record that is not open has the faults open that it had. -/
theorem FaultRing.opened_add_of_not_open (r : FaultRing) (h : f.isOpen = false) : (r.add f).opened = r.opened := by
  simp [FaultRing.add, h]

theorem FaultRing.not_open_close (r : FaultRing) (fseq : Nat) : ((r.close fseq).opened.any fun f => decide (f.fseq = fseq)) = false := by
  simp [FaultRing.close]

/-- A closed fault is open no more (R220). -/
theorem State.faultOpen_closeFault (s : State) (n fseq : Nat) : (s.closeFault n fseq).faultOpen n fseq = false := by
  rw [State.faultOpen, State.closeFault, State.updCtx_ctxs, Kv.get_upd_self, Option.map_map]
  cases Kv.get n s.ctxs with
  | none => rfl
  | some c => exact c.ring.not_open_close fseq

/-- A record that is not open, of a kind other than MEDIA, opens no fault. -/
theorem State.faultOpen_faultRecord (hkind : f.kind ≠ .media) (hopen : f.isOpen = false) :
    (s.faultRecord n f).faultOpen n fseq = s.faultOpen n fseq := by
  rw [State.faultOpen, State.faultRecord_ctxs s n hkind, Kv.get_upd_self, Option.map_map, State.faultOpen]
  refine congrArg (Option.getD · false) (congrArg (Option.map · _) (funext fun c => ?_))
  exact congrArg (List.any · _) (FaultRing.opened_add_of_not_open _ hopen)

/-- FAULT_LIMIT of an open fault whose limit has passed: its command is abandoned, the fault closes, and a LIMIT record is written (R220). -/
theorem exec_faultLimit_passed (hx : Kv.get n s.ctxs = some x) (hf : x.ring.opened.find? (fun g => decide (g.fseq = fseq)) = some f)
    (hlimit : f.stroke + x.faultLimit ≤ s.strk.now) : exec (.faultLimit n fseq) s =
      .next (((s.abandonFault n fseq).closeFault n fseq).faultRecord n { f with kind := .limit, isOpen := false }) := by
  show execFaultLimit n fseq s = _
  simp only [execFaultLimit, State.expireFault, hx, hf, if_neg (Nat.not_lt.2 hlimit)]

end FaultLimit

section Events

variable {s : State}

/-- FRAME_ZERO_FILL_DONE of a frame being filled changes the memory by the zero fill and the commands in flight (R206). -/
theorem exec_frameZeroFillDone {f : Nat} (hf : f ∈ s.mem.filling) : ∃ cs : List Cmd, exec (.frameZeroFillDone f) s =
    .next { s with cmds := cs, mem := { s.mem.zeroFrame f with filling := s.mem.filling.filter (· ≠ f) } } := by
  show ∃ cs, execFrameZeroFillDone f s = _
  simp only [execFrameZeroFillDone, if_pos hf]
  exact ⟨_, rfl⟩

/-- The lines that are uncorrectable after a patrol read has found one; a line of a table's copy is written again from the other copy (R204). -/
def Memory.linesWithFound (m : Memory) (l : Nat) : List Nat := if inTableCopy l = true ∨ l ∈ m.badLines then m.badLines else l :: m.badLines

theorem Memory.mem_linesWithFound (m : Memory) (l k : Nat) :
    k ∈ m.linesWithFound l ↔ k ∈ m.badLines ∨ (k = l ∧ inTableCopy k = false) := by
  unfold Memory.linesWithFound
  split
  case isTrue hkept =>
    refine ⟨.inl, ?_⟩
    rintro (hk | ⟨rfl, hcopy⟩)
    · exact hk
    · exact hkept.resolve_left (Bool.eq_false_iff.1 hcopy)
  case isFalse hnew =>
    obtain ⟨hcopy, -⟩ := not_or.1 hnew
    rw [List.mem_cons, or_comm]
    exact or_congr_right ⟨fun hk => ⟨hk, hk ▸ Bool.eq_false_iff.2 hcopy⟩, And.left⟩

theorem exec_patrolRead_corrected {line : Nat} (h : s.framed (lineOf line) = true) :
    exec (.patrolRead line .corrected) s = .next (s.countError (lineOf line) 0) := by
  show execPatrolRead line .corrected s = _
  simp only [execPatrolRead, h, if_true]

/-- An uncorrectable line is marked, and enters the trouble log without a context (R224, R225). -/
theorem exec_patrolRead_uncorrectable {line : Nat} (h : s.framed (lineOf line) = true) : exec (.patrolRead line .uncorrectable) s =
    .next (State.logMedia { s with mem := { s.mem with badLines := s.mem.linesWithFound (lineOf line) } } noContext (lineOf line)) := by
  show execPatrolRead line .uncorrectable s = _
  simp only [execPatrolRead, h, if_true, Memory.linesWithFound]
  by_cases hcopy : inTableCopy (lineOf line) = true
  · simp only [hcopy, if_true, true_or]
  · simp only [hcopy, Bool.false_eq_true, if_false, false_or, State.updMem]

theorem exec_patrolRead_unframed {line : Nat} (h : s.framed (lineOf line) = false) (finding : PatrolFinding) :
    exec (.patrolRead line finding) s = .next s := by
  show execPatrolRead line finding s = _
  cases finding <;> simp [execPatrolRead, h]

end Events

/-- Settles O8, event by event. -/
theorem memoryEventsComplete : Obligations.MemoryEventsComplete := by
  unfold Obligations.MemoryEventsComplete
  refine ⟨?fill, ?limit, ?clean, ?corrected, ?uncorrectable, ?unframed⟩
  case fill =>
    intro s f hf
    obtain ⟨cs, hexec⟩ := exec_frameZeroFillDone hf
    have hread (a : Nat) := s.mem.read_zeroFrame f a
    exact ⟨_, hexec, fun a ha => (hread a).trans (if_pos ha), fun a ha => (hread a).trans (if_neg ha), by simp, rfl, rfl⟩
  case limit =>
    intro s n fseq x f c hx hf hlimit hc
    refine ⟨_, exec_faultLimit_passed hx hf hlimit, ?_, ?_, ?_, ?_⟩
    · rw [← State.phase_findCmd_abandonFault hc, faultRecord_frame]
      rfl
    · exact (State.faultOpen_faultRecord (by simp) rfl).trans (State.faultOpen_closeFault _ n fseq)
    · rw [faultRecord_frame, State.closeFault, State.abandonFault_frame]
      rfl
    · rw [faultRecord_frame, State.closeFault, State.abandonFault_frame]
      rfl
  case clean => exact fun _ _ => rfl
  case corrected => exact fun s line h => ⟨exec_patrolRead_corrected h, countError_frame s _ 0⟩
  case uncorrectable => exact fun s line h => ⟨_, exec_patrolRead_uncorrectable h, rfl, s.mem.mem_linesWithFound _⟩
  case unframed => exact fun s line finding h => exec_patrolRead_unframed h finding

end Sys2Proof.Machine
end

section
/-! PROOFS. Ink words and the rows of class 0x06 (14_ink_synchronisation.md R240 to R244 and R251, 11_command_reference.md R194). -/

namespace Sys2Proof.Machine

open Sys2Proof

/-! ### Words (R240, R242 to R244) -/

section Words

variable {w w' : InkWord} {v : Nat}

/-- The word of a counter, field by field (R244). -/
theorem InkWord.bits_counter (hcounter : w.counter = true) (hvalue : w.value < 2 ^ 16) (hlower : w.lower < 2 ^ 16) (hupper : w.upper < 2 ^ 16) :
    w.bits = 2 ^ 63 + w.upper * 2 ^ 32 + w.lower * 2 ^ 16 + w.value := by
  rw [InkWord.bits, if_pos hcounter, Nat.mod_eq_of_lt hvalue, Nat.mod_eq_of_lt hlower, Nat.mod_eq_of_lt hupper]

theorem InkWord.bits_value (hvalue : w.value < 2 ^ 16) (hplain : w.counter = false) : w.bits = w.value := by
  rw [InkWord.bits, hplain, Nat.mod_eq_of_lt hvalue]
  rfl

/-- A counter word within its bounds reads back (R240, R244). -/
theorem InkWord.ofBits_bits_counter (hgood : w.malformed = false) (hcounter : w.counter = true) (hlow : w.lower ≤ w.value)
    (hhigh : w.value ≤ w.upper) (hupper : w.upper < 2 ^ 16) : InkWord.ofBits w.bits w.tag = w := by
  have hbits := InkWord.bits_counter hcounter (by omega) (by omega) hupper
  have hdiv16 : w.bits / 2 ^ 16 = 2 ^ 47 + w.upper * 2 ^ 16 + w.lower := by omega
  have hdiv32 : w.bits / 2 ^ 32 = 2 ^ 31 + w.upper := by omega
  have hdiv48 : w.bits / 2 ^ 48 = 2 ^ 15 := by omega
  have hdiv63 : w.bits / 2 ^ 63 = 1 := by omega
  have hmode : bitOf w.bits 63 = true := by rw [bitOf, Nat.testBit_eq_decide_div_mod_eq, hdiv63, decide_eq_true_eq]
  have hvalue : w.bits % 2 ^ 16 = w.value := by omega
  have hlower : bitsOf w.bits 31 16 = w.lower := by
    rw [bitsOf, hdiv16]
    omega
  have hupper' : bitsOf w.bits 47 32 = w.upper := by
    rw [bitsOf, hdiv32]
    omega
  have hreserved : bitsOf w.bits 62 48 = 0 := by
    rw [bitsOf, hdiv48]
    rfl
  rw [InkWord.ofBits, if_pos hmode, hvalue, hlower, hupper', hreserved, decide_eq_false (Nat.not_lt.2 hlow), decide_eq_false (Nat.not_lt.2 hhigh)]
  cases w
  simp_all

/-- A value word reads back (R240, R243). -/
theorem InkWord.ofBits_bits_value (hgood : w.malformed = false) (hplain : w.counter = false) (hvalue : w.value < 2 ^ 16) (hlower : w.lower = 0)
    (hupper : w.upper = 0) : InkWord.ofBits w.bits w.tag = w := by
  have hmode : bitOf w.value 63 = false := Nat.testBit_lt_two_pow (hvalue.trans (by decide))
  have hreserved : bitsOf w.value 62 16 = 0 := by
    rw [bitsOf]
    omega
  rw [InkWord.bits_value hvalue hplain, InkWord.ofBits, hmode, Nat.mod_eq_of_lt hvalue, hreserved]
  cases w
  simp_all

/-- What a signal makes of a value word, and what it makes of a counter word that has room for it (R243, R244). -/
theorem inkStep_ok {k : Nat} (h : inkStep w k v = .ok w') : w.malformed = false ∧
    ((w.counter = false ∧ (w' = { w with value := v, tag := true } ∨ w' = { w with tag := false })) ∨
      (w.counter = true ∧ ((w.value + v ≤ w.upper ∧ w' = w.count (w.value + v)) ∨
        (w.lower + v ≤ w.value ∧ w' = w.count (w.value - v))))) := by
  unfold inkStep at h
  split at h
  case isTrue => cases h
  case isFalse hgood =>
    refine ⟨Bool.eq_false_iff.2 hgood, ?_⟩
    repeat' split at h
    all_goals cases h
    all_goals simp_all

/-- A raise is refused with INK_OVERFLOW exactly where it passes UPPER (R244). -/
theorem inkStep_raise (hgood : w.malformed = false) (hcounter : w.counter = true) :
    inkStep w 3 v = .error .inkOverflow ↔ w.upper < w.value + v := by
  simp [inkStep, hgood, hcounter]

/-- A lowering is refused with INK_UNDERFLOW exactly where it falls below LOWER (R244). -/
theorem inkStep_lower (hgood : w.malformed = false) (hcounter : w.counter = true) :
    inkStep w 4 v = .error .inkUnderflow ↔ w.value < w.lower + v := by
  simp [inkStep, hgood, hcounter]

end Words

/-- Settles O7, by what a word's bits are and by what a signal makes of a word. -/
theorem inkWordsKeepTheirBounds : Obligations.InkWordsKeepTheirBounds := by
  unfold Obligations.InkWordsKeepTheirBounds
  refine ⟨fun w hgood hvalue hbounds => ?reads, fun w w' k v hgood hbounds hstep => ?steps,
    fun w v hgood hcounter => ⟨inkStep_raise hgood hcounter, inkStep_lower hgood hcounter⟩⟩
  case reads =>
    split at hbounds
    case isTrue hcounter =>
      obtain ⟨hlow, hhigh, hupper⟩ := hbounds
      exact InkWord.ofBits_bits_counter hgood hcounter hlow hhigh hupper
    case isFalse hplain =>
      obtain ⟨hlower, hupper⟩ := hbounds
      exact InkWord.ofBits_bits_value hgood (Bool.eq_false_iff.2 hplain) hvalue hlower hupper
  case steps =>
    obtain ⟨-, ⟨hplain, hw⟩ | ⟨hcounter, hw⟩⟩ := inkStep_ok hstep
    · have hnever (P : Prop) : w.counter = true → P := fun hc => absurd (hplain.symm.trans hc) Bool.false_ne_true
      rcases hw with rfl | rfl <;> exact ⟨hgood, rfl, rfl, rfl, hnever _⟩
    · obtain ⟨hlow, hhigh⟩ := hbounds hcounter
      rcases hw with ⟨hroom, rfl⟩ | ⟨hroom, rfl⟩
      · exact ⟨rfl, rfl, rfl, rfl, fun _ => ⟨by simp [InkWord.count]; omega, hroom, by simp [InkWord.count]⟩⟩
      · exact ⟨rfl, rfl, rfl, rfl, fun _ => ⟨by simp [InkWord.count]; omega, by simp [InkWord.count]; omega, by simp [InkWord.count]⟩⟩

/-! ### The rows (R194, R251) -/

section Rows

variable {s s1 : State} {p : Packet} {c : Cmd} {x : Ctx} {pa : Nat} {w : InkWord}

theorem Ready.exec_nop (h : Ready s p 0x0603 c x) : exec (.nop p) s = .next (s.finish c (Ending.ok 0 0)) :=
  congrArg Host.Outcome.next (h.runNow_ok rfl)

/-- The word that INK_INIT writes (R194, R242 to R244). -/
def initWord (p : Packet) : InkWord :=
  if p.at 72 1 = 0 then { counter := false, value := 0, lower := 0, upper := 0, tag := bitOf (p.at 73 1) 0, malformed := false }
  else { counter := true, value := p.at 74 2, lower := p.at 76 2, upper := p.at 78 2, tag := decide (p.at 76 2 < p.at 74 2), malformed := false }

theorem initWord_value (h : p.at 72 1 = 0) :
    initWord p = { counter := false, value := 0, lower := 0, upper := 0, tag := bitOf (p.at 73 1) 0, malformed := false } := if_pos h

theorem initWord_counter (h : p.at 72 1 ≠ 0) : initWord p =
    { counter := true, value := p.at 74 2, lower := p.at 76 2, upper := p.at 78 2, tag := decide (p.at 76 2 < p.at 74 2), malformed := false } :=
  if_neg h

theorem Ready.exec_inkInit (h : Ready s p 0x0601 c x) (hpa : s.pinnedInkPa (c.view s).ctx (p.at 64 8) = some pa)
    (hs1 : s1 = s.claimPage (c.view s).ctx (p.at 64 8)) :
    exec (.inkInit p) s = .next (State.finish (s1.inkPut pa (initWord p)) c (Ending.ok 0 0)) := by
  subst hs1
  refine congrArg Host.Outcome.next (h.runNow_ok ?_)
  simp only [hpa]
  rfl

theorem Ready.exec_inkRead (h : Ready s p 0x0602 c x) (hpa : s.pinnedInkPa (c.view s).ctx (p.at 64 8) = some pa)
    (hs1 : s1 = s.claimPage (c.view s).ctx (p.at 64 8)) (hline : s1.mem.bad pa 8 = false) (hgood : (s1.inkAt pa).malformed = false) :
    exec (.inkRead p) s = .next ((s1.inkTouch pa).finish c
      (Ending.ok (2 * b2n (s1.inkAt pa).counter + b2n (s1.inkAt pa).tag) (s1.inkAt pa).value)) := by
  subst hs1
  refine congrArg Host.Outcome.next (h.runNow_ok ?_)
  simp only [hpa, hline, hgood]
  rfl

/-- An override that its word takes: the word is written, its context marked where it changed, and the entry follows (R251). -/
theorem Ready.exec_inkOverride (h : Ready s p 0x0604 c x) (hc : s.checkInkOverride p = .ok ()) (hpa : s.inkPa (p.at 64 2) (p.at 72 8) = some pa)
    (hs1 : s1 = s.claimPage (p.at 64 2) (p.at 72 8)) (hline : s1.mem.bad pa 8 = false)
    (hw : overrideWord (s1.inkAt pa) (p.at 80 1) (p.at 82 2) = some w) : exec (.inkOverride p) s = .next (State.finish (State.logOverride
      (if w.bits = (s1.inkAt pa).bits ∧ w.tag = (s1.inkAt pa).tag ∧ ¬ (s1.inkAt pa).malformed then s1.inkPut pa w
        else (s1.inkPut pa w).updCtx (p.at 64 2) fun y => { y with overridden := true }) (c.view s).ctx p .done) c
      (Ending.ok (2 * b2n (s1.inkAt pa).counter + b2n (s1.inkAt pa).tag) (s1.inkAt pa).value)) := by
  subst hs1
  refine congrArg Host.Outcome.next (h.runNow_ok ?_)
  simp only [hc, State.override, hpa, hline, hw]
  rfl

end Rows

/-- Settles O6, row by row. -/
theorem inkCommandsComplete : Obligations.InkCommandsComplete := by
  unfold Obligations.InkCommandsComplete
  refine ⟨?nop, ?init, ?read, ?override, ?evict⟩
  case nop => exact fun _ _ _ _ h => h.exec_nop
  case init =>
    intro s s1 p c x pa h hpa hs1
    refine ⟨initWord p, h.exec_inkInit hpa hs1, ?_, fun hvalue => ?_, fun hcounter => ?_⟩
    · by_cases hmode : p.at 72 1 = 0
      · rw [initWord_value hmode]
      · rw [initWord_counter hmode]
    · simp [initWord_value hvalue]
    · simp [initWord_counter hcounter]
  case read =>
    intro s s1 p c x pa h hpa hs1 hline hgood
    exact ⟨_, h.exec_inkRead hpa hs1 hline hgood, inkTouch_frame s1 pa⟩
  case override =>
    intro s s1 p c x pa w h hc hpa hs1 hline hw
    have hexec := h.exec_inkOverride hc hpa hs1 hline hw
    refine ⟨fun hchanged => ?_, fun hbits htag hgood => ?_⟩
    · rw [hexec, if_neg]
      rintro ⟨hbits, htag, hgood⟩
      rcases hchanged with hne | hne | hbad
      · exact hne hbits
      · exact hne htag
      · exact hgood hbad
    · rw [hexec, if_pos ⟨hbits, htag, Bool.eq_false_iff.1 hgood⟩]
  case evict => exact fun _ _ => rfl

end Sys2Proof.Machine
end

section
/-! PROOFS. The trouble log's unit (23_proof_core_and_trouble_log.md R396, R397), and power, sensors, rails and clocks
(24_power_clocks_reset.md R405 to R417, 25_limits_and_timeouts.md R419 to R424). -/

namespace Sys2Proof.Machine

open Sys2Proof

/-! ### The log unit (R396, R397) -/

section Log

variable {s : State} {ns code source index context aux data : Nat}

/-- Beyond the 64 entries of a stroke an event of lower severity is counted and nothing more (R397). -/
theorem State.logAt_dropped (hlow : logSeverity code < 2) (hfull : 64 ≤ s.log.thisStroke) : s.logAt ns code source index context aux data =
    { s with log := { s.log with dropped := s.log.dropped + 1, droppedAll := (s.log.droppedAll + 1) % 2 ^ 64 } } := by
  unfold State.logAt
  exact if_pos ⟨hlow, hfull⟩

/-- The entry of an event (R396). -/
def State.entryOf (s : State) (ns code source index context aux data : Nat) : LogEntry :=
  { stroke := s.strk.now, ns := ns, code := code, severity := logSeverity code, source := source, index := index % 256,
    flags := if s.strk.align = .aligned then 0 else 2, context := context, aux := aux % 65536, seq := s.log.nextSeq, data := data % 2 ^ 64 }

/-- An event that the log takes is written into the slot of its SEQ (R397). -/
theorem State.logAt_taken (h : 2 ≤ logSeverity code ∨ s.log.thisStroke < 64) : (s.logAt ns code source index context aux data).log =
    { s.log with
      slots := Kv.set ((s.log.nextSeq - 1) % 8192) (s.entryOf ns code source index context aux data) s.log.slots
      nextSeq := (s.log.nextSeq + 1) % 2 ^ 32
      thisStroke := if logSeverity code < 2 then s.log.thisStroke + 1 else s.log.thisStroke } := by
  unfold State.logAt
  rw [if_neg (by omega)]
  rfl

end Log

/-- Settles O53, by whether the log unit takes the event or drops it. -/
theorem logTakesOrDrops : Obligations.LogTakesOrDrops := by
  unfold Obligations.LogTakesOrDrops
  rintro s ns code source index context aux data t rfl
  refine ⟨fun htaken => ?taken, fun hlow hfull => ?dropped, fun a => ?bytes⟩
  case taken =>
    rw [State.logAt_taken htaken]
    exact ⟨⟨_, Kv.get_set_self _ _ _, rfl, rfl, rfl, rfl, rfl, rfl, rfl⟩, fun k hk => Kv.get_set_ne hk _ _, rfl, rfl⟩
  case dropped =>
    rw [State.logAt_dropped hlow hfull]
    exact ⟨rfl, rfl, rfl⟩
  case bytes => rw [logAt_frame]

/-! ### A round of readings (R417, R420, R421) -/

/-- Of the power settings the trouble log changes the alert alone (R436). -/
theorem State.logAt_power (s : State) (ns code source index context aux data : Nat) : (s.logAt ns code source index context aux data).power =
    { s.power with alert := (s.logAt ns code source index context aux data).power.alert } := by
  unfold State.logAt
  dsimp only
  split <;> rfl

theorem State.sensorEntry_power (s : State) (sensor : Nat) (raw : Int) (event : Nat) :
    (s.sensorEntry sensor raw event).power = { s.power with alert := (s.sensorEntry sensor raw event).power.alert } :=
  State.logAt_power _ _ _ _ _ _ _ _

/-- Watching the heat changes what it watches, and by its entries the alert. -/
theorem State.watchHeat_power (s : State) : s.watchHeat.power =
    { s.power with hot := s.watchHeat.power.hot, tripRun := s.watchHeat.power.tripRun, alert := s.watchHeat.power.alert } := by
  have key (l : List Nat) (t : State) : ∃ a, (l.foldl (fun (s : State) i => s.sensorEntry i ((s.itemTemp i).getD 0) 0) t).power =
      { t.power with alert := a } := by
    induction l generalizing t with
    | nil => exact ⟨_, rfl⟩
    | cons i l ih =>
      obtain ⟨a, ha⟩ := ih (t.sensorEntry i ((t.itemTemp i).getD 0) 0)
      exact ⟨a, by rw [List.foldl_cons, ha, State.sensorEntry_power]⟩
  unfold State.watchHeat
  dsimp only
  obtain ⟨a, ha⟩ := key _ _
  rw [ha]

theorem set_zero_getD (l : List Nat) : l.set 0 (l.getD 0 0) = l := by cases l <;> rfl

/-- Temperatures change the sensors and the count of the implausible ones (R420). -/
theorem State.takeTemps_power (s : State) (ts : List (Nat × Int)) : ∃ n, (s.takeTemps ts).power =
    { s.power with sensors := (s.takeTemps ts).power.sensors, discarded := s.power.discarded.set 0 n } := by
  unfold State.takeTemps
  induction ts generalizing s with
  | nil => exact ⟨s.power.discarded.getD 0 0, by rw [set_zero_getD]; rfl⟩
  | cons e ts ih =>
    rw [List.foldl_cons]
    dsimp only
    obtain ⟨n, hn⟩ := ih { s with power := { s.power with
      sensors := Kv.set e.1 (((Kv.get e.1 s.power.sensors).getD newSensor).take (e.1 / 4) e.2) s.power.sensors
      discarded := s.power.discarded.set 0 (s.power.discarded.getD 0 0 +
        if ((Kv.get e.1 s.power.sensors).getD newSensor).plausible (e.1 / 4) e.2 then 0 else 1) } }
    exact ⟨n, by rw [hn, List.set_set]⟩

/-- The rails of a sample whose mean current is implausible, by their place in R402's order. -/
def badRails (x : SensorInput) : List Nat :=
  (List.range 12).filter fun i => currentBad (i + 1) ((Kv.get (i + 1) x.currents).getD 0)

/-- What a round of readings leaves of the power settings, part by part (R417, R420, R421). -/
theorem exec_sensorSample_power (s : State) (x : SensorInput) : ∃ t : State, ∃ n, exec (.sensorSample x) s = .next t ∧ t.power =
    { s.power with
      sensors := (s.takeTemps x.temps).power.sensors
      sramMv := (Kv.get 6 x.levels).getD s.power.sramMv
      discarded := (s.power.discarded.set 0 n).set 1 ((s.power.discarded.set 0 n).getD 1 0 + (badRails x).length)
      samples := packagePower x :: s.power.samples
      above := if s.limitMw < packagePower x then min 80 (s.power.above + 1) else 0
      clamp := s.power.clamp || (decide (6 * s.limitMw < 5 * packagePower x) ||
        decide (0 < (if s.limitMw < packagePower x then min 80 (s.power.above + 1) else 0) ∧
          s.excursionRun ≤ if s.limitMw < packagePower x then min 80 (s.power.above + 1) else 0))
      powerMw := packagePower x, hot := t.power.hot, tripRun := t.power.tripRun, alert := t.power.alert } := by
  obtain ⟨n, hn⟩ := s.takeTemps_power x.temps
  refine ⟨_, n, rfl, ?_⟩
  generalize (s.takeTemps x.temps).power.sensors = ss at hn ⊢
  rw [State.watchHeat_power]
  simp only [State.takePower, State.limitMw, State.excursionRun, hn]
  rfl

theorem packagePower_le (x : SensorInput) : packagePower x ≤ 2500000 := by
  unfold packagePower
  dsimp only
  split <;> omega

/-- What a reading is held against, part by part (R420). -/
theorem Sensor.plausible_iff {y : Sensor} {item : Nat} {raw v : Int} (hv : y.vals.head? = some v) : y.plausible item raw = true ↔
    -320 ≤ raw ∧ (raw ≤ if item ≤ 4 then 2240 else 2000) ∧ (raw - v).natAbs ≤ 160 := by
  simp only [Sensor.plausible, hv, Bool.and_eq_true, decide_eq_true_eq, and_assoc]

theorem Sensor.take_plausible {y : Sensor} {item : Nat} {raw : Int} (h : y.plausible item raw = true) :
    (y.take item raw).vals = (raw :: y.vals).take 3 ∧ (y.take item raw).bad = 0 := by
  rw [Sensor.take, if_pos h]
  exact ⟨rfl, rfl⟩

theorem Sensor.take_implausible {y : Sensor} {item : Nat} {raw : Int} (h : ¬ y.plausible item raw = true) :
    (y.take item raw).vals = y.vals ∧ (y.take item raw).good = 0 := by
  rw [Sensor.take, if_neg h]
  exact ⟨rfl, rfl⟩

/-- Settles O40, by what a round of readings leaves and by what a sensor's reading is held against. -/
theorem sampleIsTaken : Obligations.SampleIsTaken := by
  unfold Obligations.SampleIsTaken
  refine ⟨fun s x => ?round, fun y item raw v hv => ⟨fun hlow hdie hstack hfall hrise => ?joins, fun hout => ?discarded⟩⟩
  case round =>
    obtain ⟨t, n, hexec, hpower⟩ := exec_sensorSample_power s x
    refine ⟨t, hexec, ?_⟩
    rw [hpower]
    refine ⟨rfl, packagePower_le x, rfl, fun hclamp => by simp [hclamp], fun hover => by simp [hover], rfl, fun hnone => by rw [hnone]; rfl,
      fun k raw hone y hy => ?_⟩
    simp [hone, State.takeTemps, hy]
  case joins =>
    refine Sensor.take_plausible ((Sensor.plausible_iff hv).2 ⟨hlow, ?_, by omega⟩)
    split
    case isTrue hitem => exact hdie hitem
    case isFalse hitem => exact hstack (by omega)
  case discarded =>
    refine Sensor.take_implausible fun hgood => ?_
    obtain ⟨hlow, hhigh, hnear⟩ := (Sensor.plausible_iff hv).1 hgood
    split at hhigh <;> omega

theorem railPeaks_getD (r : Nat) :
    railPeaks.getD r 0 = [3000, 30000, 44000, 14000, 2000, 160000, 600000, 600000, 600000, 600000, 130000, 8000].getD r 0 := rfl

theorem currentBad_iff (rail : Nat) (c : Int) : currentBad rail c = true ↔ c < 0 ∨ (railPeaks.getD (rail - 1) 0 : Int) * 5 < c * 4 := by
  simp only [currentBad, Bool.or_eq_true, decide_eq_true_eq]
  omega

/-- The sum of the rails' powers (R402, R421). -/
theorem packagePower_eq (x : SensorInput) : packagePower x =
    if 2500000 < ([1, 2, 3, 4, 5, 6, 7, 8, 9, 10, 11, 12].map (railPower x)).sum / 1000 then 1800000
    else ([1, 2, 3, 4, 5, 6, 7, 8, 9, 10, 11, 12].map (railPower x)).sum / 1000 := by
  have hrails : (List.range 12).map (fun i => railPower x (i + 1)) = [1, 2, 3, 4, 5, 6, 7, 8, 9, 10, 11, 12].map (railPower x) := rfl
  rw [List.sum_eq_foldl_nat, ← hrails]
  rfl

/-- Settles O54, by the rails' powers and what a round of readings leaves. -/
theorem implausiblePowerIsReplaced : Obligations.ImplausiblePowerIsReplaced := by
  unfold Obligations.ImplausiblePowerIsReplaced
  intro s x peak mean bad w hpeak hmean hbad hw
  have hbad' (r : Nat) : bad r ↔ currentBad r ((Kv.get r x.currents).getD 0) = true := by
    rw [hbad, currentBad_iff, railPeaks_getD, ← hpeak, hmean]
  refine ⟨fun r _ _ => ⟨fun hr => ?replaced, fun hr => ?taken⟩, ?sample⟩
  case replaced => rw [railPower, if_pos ((hbad' r).1 hr), railPeaks_getD, ← hpeak]
  case taken =>
    have hpos : 0 ≤ mean r := by
      rw [hbad] at hr
      omega
    rw [railPower, if_neg (fun h => hr ((hbad' r).2 h)), ← hmean, ← Int.toNat_of_nonneg hpos]
    rfl
  case sample =>
    obtain ⟨t, n, hexec, hpower⟩ := exec_sensorSample_power s x
    have hsum : packagePower x = if 2500000 < w then 1800000 else w := by rw [packagePower_eq, hw]
    refine ⟨t, hexec, fun hover => ?_, fun hin => ?_, (badRails x).map (· + 1), ?_, fun r => ?_, fun a b c habc => ⟨n, ?_⟩⟩
    · rw [hpower, hsum, if_pos hover]
    · rw [hpower, hsum, if_neg (Nat.not_lt.2 hin)]
    · exact (List.nodup_range.filter _).map (add_left_injective 1)
    · simp only [badRails, List.mem_map, List.mem_filter, List.mem_range, hbad']
      constructor
      · rintro ⟨i, ⟨hi, hr⟩, rfl⟩
        exact ⟨by omega, by omega, hr⟩
      · rintro ⟨hlo, hhi, hr⟩
        obtain ⟨i, rfl⟩ := Nat.exists_eq_add_of_le' hlo
        exact ⟨i, ⟨by omega, hr⟩, rfl⟩
    · rw [hpower, habc, List.length_map]
      rfl

/-! ### Control value and thermal cap (R416, R423) -/

section Control

variable {s : State}

/-- The control value and the count of low boundaries after a stroke with samples (R416). -/
def State.nextControl (s : State) : Nat × Nat :=
  if s.power.clamp then (max 4 (s.power.control * s.limitMw / max 1 (s.power.samples.foldl max 0)), 0)
  else if s.limitMw * s.power.samples.length < s.power.samples.sum then
    (max 4 (s.power.control * s.limitMw * s.power.samples.length / s.power.samples.sum), 0)
  else if 100 * s.power.samples.sum < 95 * s.limitMw * s.power.samples.length then
    (if s.power.low = 7 then (min 64 (s.power.control + 1), 0) else (s.power.control, s.power.low + 1))
  else (s.power.control, 0)

theorem State.stepControl_power (hboard : s.power.boardOver = false) (hsome : s.power.samples ≠ []) : s.stepControl.power =
    { s.power with control := s.nextControl.1, low := s.nextControl.2, clamp := false, boardOver := false, samples := [] } := by
  have hlength : s.power.samples.length ≠ 0 := by simpa using hsome
  rw [State.nextControl, List.sum_eq_foldl_nat]
  simp only [State.stepControl, hboard, Bool.false_eq_true, if_false, if_neg hlength]

/-- What an item calls for (R423). -/
def State.itemCap (s : State) (i : Nat) : Nat :=
  match s.itemTemp i with
  | some t => if t ≤ (thermalLimits i).1 then 64 else max 4 (64 - 6 * ((t - (thermalLimits i).1).toNat / 16))
  | none => 64

/-- The cap that the items call for together (R423). -/
def State.thermalWant (s : State) : Nat := (thermalItems.map s.itemCap).foldl min 64

theorem State.stepThermal_power (s : State) : s.stepThermal.power.thermal =
    if s.power.thermal < s.thermalWant then min s.thermalWant (s.power.thermal + 2) else s.thermalWant := by
  unfold State.stepThermal State.thermalWant
  dsimp only
  rfl

theorem le_foldl_min {a c : Nat} {l : List Nat} : c ≤ l.foldl min a ↔ c ≤ a ∧ ∀ x ∈ l, c ≤ x := by
  induction l generalizing a with
  | nil => simp
  | cons x l ih => simp [ih, and_assoc]

theorem State.le_thermalWant {c : Nat} : c ≤ s.thermalWant ↔ c ≤ 64 ∧ ∀ i < 17, c ≤ s.itemCap i := by
  rw [State.thermalWant, le_foldl_min, List.forall_mem_map]
  simp only [thermalItems, List.mem_range]

theorem State.four_le_itemCap (s : State) (i : Nat) : 4 ≤ s.itemCap i := by
  unfold State.itemCap
  split
  case h_1 => split_ifs <;> omega
  case h_2 => omega

theorem State.itemCap_above {i : Nat} {t : Int} (ht : s.itemTemp i = some t) (habove : (thermalLimits i).1 < t) :
    s.itemCap i = max 4 (64 - 6 * ((t - (thermalLimits i).1).toNat / 16)) := by
  simp only [State.itemCap, ht, if_neg (Int.not_le.2 habove)]

theorem State.itemCap_below {i : Nat} (h : ∀ t, s.itemTemp i = some t → t ≤ (thermalLimits i).1) : s.itemCap i = 64 := by
  unfold State.itemCap
  split
  case h_1 t ht => exact if_pos (h t ht)
  case h_2 => rfl

end Control

/-- Settles O58: the control value branch by branch, and the thermal cap by what the items call for. -/
theorem controlAndThermalCap : Obligations.ControlAndThermalCap := by
  unfold Obligations.ControlAndThermalCap
  refine ⟨?control, ?thermal⟩
  case control =>
    rintro s sum top d hboard hsome rfl rfl rfl t rfl
    rw [State.stepControl_power hboard hsome]
    refine ⟨rfl, rfl, fun hclamp htop => ?_, fun hclamp hover => ?_, fun hclamp hin hmid => ?_,
      fun hclamp hlimit hlow => ⟨fun hseven => ?_, fun hless => ?_⟩⟩
    all_goals simp only [State.nextControl, hclamp, if_true, Bool.false_eq_true, if_false]
    · rw [Nat.max_eq_right htop]
    · rw [if_pos hover]
    · rw [if_neg (by omega), if_neg (by omega)]
      exact ⟨rfl, rfl⟩
    all_goals rw [Nat.mul_assoc] at hlow; rw [if_neg (by omega), Nat.mul_assoc, if_pos hlow]
    · rw [if_pos hseven]
      exact ⟨rfl, rfl⟩
    · rw [if_neg hless]
      exact ⟨rfl, rfl⟩
  case thermal =>
    rintro s t rfl
    obtain ⟨hwant, hitems⟩ := s.le_thermalWant.1 le_rfl
    rw [State.stepThermal_power]
    refine ⟨?_, ?_, fun i temp hi htemp habove => ?_, fun hfour => ?_, fun hcool => ?_⟩
    · split_ifs <;> omega
    · split_ifs <;> omega
    · have hitem := hitems i hi
      rw [State.itemCap_above htemp habove] at hitem
      split_ifs <;> omega
    · have hleast : 4 ≤ s.thermalWant := s.le_thermalWant.2 ⟨by omega, fun i _ => s.four_le_itemCap i⟩
      split_ifs <;> omega
    · have hmost : 64 ≤ s.thermalWant :=
        s.le_thermalWant.2 ⟨le_rfl, fun i hi => (State.itemCap_below fun temp htemp => hcool i temp hi htemp).ge⟩
      rw [Nat.le_antisymm hwant hmost]

/-! ### Core voltage (R407) -/

/-- Settles O39: the step goes towards a level between 0.55 V and the ceiling. -/
theorem coreVoltageMovesInSteps : Obligations.CoreVoltageMovesInSteps := by
  unfold Obligations.CoreVoltageMovesInSteps
  intro s k v hruns hv
  have hdraw (d : Nat) : (s.avsWant k d).2 = { s with free := s.free + 1 } := rfl
  have hexec : ∃ w, exec (.avsStep k) s = .next { s with free := s.free + 1, power := { s.power with
      avs := s.power.avs.set k (if v ≤ max 5500 (min w s.avsCeiling) then min (max 5500 (min w s.avsCeiling)) (v + 100)
        else max (max 5500 (min w s.avsCeiling)) (v - 100)) } } := by
    show ∃ w, execAvsStep k s = _
    simp only [execAvsStep, hruns, if_true, hdraw, List.getD_eq_getElem?_getD, hv, Option.getD_some]
    exact ⟨_, rfl⟩
  obtain ⟨w, hexec⟩ := hexec
  have hceiling : s.avsCeiling = min 8000 (s.power.sramMv * 10 + 200) := rfl
  exact ⟨_, hexec, by split_ifs <;> omega, by split_ifs <;> omega, by split_ifs <;> omega, by split_ifs <;> omega⟩

/-! ### Sensors, rails and clocks (R405, R406, R409, R419, R420, R422, R424) -/

section Rows

variable {s : State} {k r : Nat} {x : Sensor}

theorem exec_sensorFailed (hx : Kv.get k s.power.sensors = some x) : exec (.sensorFailed k) s = .next (if x.failed ∨ x.bad < 3 then s else
    ({ s with power := { s.power with sensors := Kv.upd k (fun y => { y with failed := true }) s.power.sensors } } : State).logEvent
      0x0902 11 (k / 4) noContext 0 (twos 16 x.raw + 2 * 65536)) := by
  show execSensorFailed k s = _
  simp only [execSensorFailed, hx, State.sensorEntry]

theorem exec_sensorRecovered (hx : Kv.get k s.power.sensors = some x) : exec (.sensorRecovered k) s = .next (if ¬ x.failed ∨ x.good < 1000 then s else
    ({ s with power := { s.power with sensors := Kv.upd k (fun y => { y with failed := false }) s.power.sensors } } : State).logEvent
      0x0902 11 (k / 4) noContext 0 (twos 16 x.raw + 3 * 65536)) := by
  show execSensorRecovered k s = _
  simp only [execSensorRecovered, hx, State.sensorEntry]

/-- The part after a thermal trip (R424). -/
def State.tripped (s : State) (e : Nat × Nat) : State :=
  ({ s.holdCore with power := { s.holdCore.power with tripped := true, reqCore := false, reqIo := false, waking := false } } : State).logEvent
    0x0902 11 e.1 noContext 0 (twos 16 ((s.itemTemp e.1).getD 0) + 4 * 65536)

theorem exec_thermalTrip_none (h : s.power.tripped = true ∨ ∀ e ∈ s.power.tripRun, e.2 < 10) : exec .thermalTrip s = .next s := by
  show execThermalTrip s = _
  unfold execThermalTrip
  split
  case h_1 => rfl
  case h_2 e he =>
    have hten := List.find?_some he
    rcases h with h | h
    · rw [if_pos h]
    · exact absurd (h e (List.mem_of_find?_eq_some he)) (Nat.not_lt.2 (of_decide_eq_true hten))

theorem exec_thermalTrip_some (hrun : ∃ e ∈ s.power.tripRun, 10 ≤ e.2) (hfirst : s.power.tripped = false) :
    ∃ e ∈ s.power.tripRun, 10 ≤ e.2 ∧ exec .thermalTrip s = .next (s.tripped e) := by
  have hfound : (s.power.tripRun.find? fun e => decide (10 ≤ e.2)).isSome := List.find?_isSome.2 (by simpa using hrun)
  obtain ⟨e, he⟩ := Option.isSome_iff_exists.1 hfound
  refine ⟨e, List.mem_of_find?_eq_some he, by simpa using List.find?_some he, ?_⟩
  show execThermalTrip s = _
  simp only [execThermalTrip, he, hfirst, Bool.false_eq_true, if_false]
  rfl

theorem exec_railFault (r : Nat) : exec (.railFault r) s = .next (if r = 0 ∨ 12 < r ∨ s.side.porst then s
    else if s.power.tripped then s.openReading (32 + r) 0
    else if s.power.rail ≠ .normal ∨ s.power.waking ∨ ¬ (if r ≤ 6 then s.power.reqIo else s.power.reqCore) then s
    else { s.holdCore.openReading (32 + r) 0 with
      power := { (s.holdCore.openReading (32 + r) 0).power with rail := .down, tries := 0, reqCore := false, reqIo := false }
      boot := { (s.holdCore.openReading (32 + r) 0).boot with retrain := true } }) := rfl

theorem exec_railRelease : exec .railRelease s = .next (if s.power.rail = .down ∧ ¬ s.power.tripped then
    { s with power := { s.power with rail := .rising, reqCore := true, reqIo := true } } else s) := rfl

theorem exec_railRecoveryTimeout_idle (h : ¬ (s.power.rail = .rising ∧ ¬ s.power.tripped)) : exec .railRecoveryTimeout s = .next s :=
  congrArg Host.Outcome.next (if_neg h)

/-- The rails are not back: the entry names an open rail, and the cycle repeats three times at most (R405). -/
theorem exec_railRecoveryTimeout_rising (h : s.power.rail = .rising ∧ ¬ s.power.tripped) : ∃ v t,
    t = ({ s with free := s.free + 1 } : State).openReading (33 + v % 12) 0 ∧ exec .railRecoveryTimeout s = .next { t with power :=
      { t.power with reqCore := false, reqIo := false, tries := min 3 (t.power.tries + 1), rail := if 3 ≤ t.power.tries then .dead else .down } } :=
  ⟨_, _, rfl, congrArg Host.Outcome.next (if_pos h)⟩

theorem exec_wakeRailTimeout_waking (h : s.power.waking = true) : ∃ v t, t = ({ s with free := s.free + 1 } : State).openReading (33 + v % 12) 0 ∧
    exec .wakeRailTimeout s = .next { t with power := { t.power with waking := false, reqCore := false, reqIo := false } } :=
  ⟨_, _, rfl, congrArg Host.Outcome.next (if_pos h)⟩

end Rows

/-- Settles O38, row by row. -/
theorem powerEventsComplete : Obligations.PowerEventsComplete := by
  unfold Obligations.PowerEventsComplete
  refine ⟨?sensors, ?trip, ?board, ?fault, ?rails, ?wake, ?fabclk, ?auxclk, ?avs⟩
  case sensors =>
    intro s k x hx
    rw [exec_sensorFailed hx, exec_sensorRecovered hx]
    refine ⟨fun hlive hbad => ?_, fun hfailed hgood => ?_, fun hidle => ?_, fun hidle => ?_⟩
    · rw [if_neg (by simp [hlive, hbad])]
    · rw [if_neg (by simp [hfailed, hgood])]
    · rw [if_pos hidle]
    · rw [if_pos (by simpa using hidle)]
  case trip => exact fun s => ⟨exec_thermalTrip_none, exec_thermalTrip_some⟩
  case board =>
    exact fun s => ⟨rfl, fun hboard => congrArg Host.Outcome.next (if_pos hboard),
      fun hboard => congrArg Host.Outcome.next (if_neg (Bool.eq_false_iff.1 hboard))⟩
  case fault =>
    intro s r
    rw [exec_railFault]
    refine ⟨fun hno => ?_, fun hlo hhi hporst => ?_⟩
    · rw [if_pos hno]
    · rw [if_neg (by simp [hporst]; omega)]
      refine ⟨fun htripped => ?_, fun hlive hnormal hwake hask => ?_, fun hlive hidle => ?_⟩
      · rw [if_pos htripped]
      · rintro t rfl
        rw [hlive, if_neg Bool.false_ne_true, if_neg (by simp [hnormal, hwake, hask])]
      · rw [hlive, if_neg Bool.false_ne_true, if_pos (by simpa using hidle)]
  case rails =>
    intro s
    rw [exec_railRelease]
    refine ⟨fun htripped => ⟨?_, ?_⟩, fun hlive => ⟨fun hdown => ?_, fun hnot => ?_, fun hnot => ?_, fun hrising => ?_⟩⟩
    · rw [if_neg (by simp [htripped])]
    · exact exec_railRecoveryTimeout_idle (by simp [htripped])
    · rw [if_pos (by simp [hdown, hlive])]
    · rw [if_neg (by simp [hnot])]
    · exact exec_railRecoveryTimeout_idle (by simp [hnot])
    · obtain ⟨v, t, ht, hexec⟩ := exec_railRecoveryTimeout_rising (s := s) (by simp [hrising, hlive])
      refine ⟨v, t, ht, hexec.trans ?_⟩
      by_cases htries : 3 ≤ t.power.tries
      · rw [if_pos htries, if_neg (Nat.not_lt.2 htries)]
      · rw [if_neg htries, if_pos (Nat.lt_of_not_le htries)]
  case wake => exact fun s => ⟨fun h => congrArg Host.Outcome.next (if_neg (Bool.eq_false_iff.1 h)), exec_wakeRailTimeout_waking⟩
  case fabclk =>
    exact fun s => ⟨fun h => congrArg Host.Outcome.next (if_pos h), fun h => congrArg Host.Outcome.next (if_neg (Bool.eq_false_iff.1 h))⟩
  case auxclk =>
    intro s
    refine ⟨fun h => ⟨?_, ?_⟩, fun h => ⟨?_, ?_⟩⟩
    · exact congrArg Host.Outcome.next (if_pos h)
    · exact congrArg Host.Outcome.next (if_pos h)
    · exact congrArg Host.Outcome.next (if_neg (Bool.eq_false_iff.1 h))
    · exact congrArg Host.Outcome.next (if_neg (Bool.eq_false_iff.1 h))
  case avs =>
    intro s k
    refine ⟨fun h => congrArg Host.Outcome.next (if_pos h), fun h => ⟨?_, ?_⟩⟩
    · exact congrArg Host.Outcome.next (if_neg (Bool.eq_false_iff.1 h))
    · exact congrArg Host.Outcome.next (if_neg (Bool.eq_false_iff.1 h))

end Sys2Proof.Machine
end

section
/-! PROOFS. Resets and boot (22_boot_identity_store.md R371 to R385, 24_power_clocks_reset.md R402 to R411): what each reset leaves and where boot
goes on, and what a warm reset keeps through boot. -/

namespace Sys2Proof.Machine

open Sys2Proof

/-! ### The rows (R384, R402 to R410) -/

section Rows

variable {s t : State} {e : BootInput}

theorem stagesFrom_one : stagesFrom 1 = [1, 2, 3, 4, 5, 6, 7, 8, 9] := by decide

theorem stagesFrom_three : stagesFrom 3 = [3, 4, 5, 6, 7, 8, 9] := by decide

/-- COLD_RESET boots every stage, or none with TEST_EN high (R384, R433). -/
theorem exec_coldReset (e : BootInput) (s : State) (ht : t = (s.coldState.resetEntry 0 s.boot.stage).meetFlash e) : exec (.coldReset e) s =
    .next (if e.testEn then { t with boot := { t.boot with factory := true } } else t.bootFrom e [1, 2, 3, 4, 5, 6, 7, 8, 9]) := by
  subst ht
  rw [← stagesFrom_one]
  rfl

theorem exec_warmReset (e : BootInput) (s : State) : exec (.warmReset e) s = .next (if s.warmable then s.warmReset e 1 else s) := rfl

theorem exec_perstReset (e : BootInput) (s : State) : exec (.perstReset e) s = .next (if s.warmable then { s.warmReset e 2 with host :=
    { (s.warmReset e 2).host with settled := false, heldDown := false, lost := false, msixTable := [], msixPending := [] } } else s) := rfl

theorem exec_watchdogReset (e : BootInput) (s : State) :
    exec (.watchdogReset e) s = .next (if s.warmable ∧ 5 ≤ s.boot.stage then s.warmReset e 4 else s) := rfl

theorem exec_delayedWarmReset (e : BootInput) (s : State) :
    exec (.delayedWarmReset e) s = .next (if s.warmable ∧ s.boot.warmDue then s.warmReset e 1 else s) := rfl

theorem exec_railRecovered (e : BootInput) (s : State) (ht : t = { s with power := { s.power with rail := .normal, tries := 0 } }) :
    exec (.railRecovered e) s = .next (if s.power.rail ≠ .rising ∨ s.power.tripped then s else if t.warmable then t.warmReset e 1 else t) := by
  subst ht
  rfl

theorem exec_fabclkRestored (e : BootInput) (s : State) (ht : t = { s with power := { s.power with fabLost := false } }) :
    exec (.fabclkRestored e) s = .next (if ¬ s.power.fabLost then s else if t.warmable then t.warmReset e 1 else t) := by
  subst ht
  rfl

/-- WAKE_RAILS_IN_WINDOW boots an AWAKE spare from stage 3 (R337, R406). -/
theorem exec_wakeRailsInWindow {w : State} (e : BootInput) (s : State) (hw : w = s.warmState) (ht : t = { w with
      boot := { w.boot with retrain := true }, fabric := { w.fabric with banks := s.fabric.banks, active := s.fabric.active }
      spare := { w.spare with state := .awake } }) : exec (.wakeRailsInWindow e) s =
    .next (if ¬ s.power.waking ∨ s.power.tripped ∨ s.power.fabLost ∨ s.power.rail ≠ .normal then s
      else (t.meetFlash { e with flashOk := s.boot.flashOk }).bootFrom e [3, 4, 5, 6, 7, 8, 9]) := by
  subst ht hw
  rw [← stagesFrom_three]
  rfl

theorem exec_bootStageTimeout (e : BootInput) (s : State) (ht : t = s.failStage e (s.boot.stage + 1)) : exec (.bootStageTimeout e) s =
    .next (if ¬ s.boot.running then s else if t.bootStopped then { t with boot := { t.boot with running := false } }
      else ({ t with boot := { t.boot with stage := s.boot.stage + 1 } } : State).bootFrom e (stagesFrom (s.boot.stage + 2))) := by
  subst ht
  rfl

end Rows

/-- Settles O41, row by row. -/
theorem resetsComplete : Obligations.ResetsComplete := by
  unfold Obligations.ResetsComplete
  refine ⟨?cold, ?warm, ?rail, ?fabclk, ?wake, ?vaux, ?idle, ?stage⟩
  case cold =>
    intro s e t ht
    rw [exec_coldReset e s ht]
    exact ⟨fun h => by rw [if_pos h], fun h => by rw [if_neg (Bool.eq_false_iff.1 h)]⟩
  case warm =>
    intro s e
    rw [exec_warmReset, exec_perstReset, exec_watchdogReset, exec_delayedWarmReset]
    refine ⟨fun h => by simp [h], fun h => ⟨by simp [h], ?_, fun hstage => ?_, fun hstage => ?_, fun hdue => ?_, fun hdue => ?_⟩⟩
    · rintro t rfl
      rw [if_pos h]
    · rw [if_pos ⟨h, hstage⟩]
    · rw [if_neg (by simp [hstage])]
    · rw [if_pos ⟨h, hdue⟩]
    · rw [if_neg (by simp [hdue])]
  case rail =>
    intro s e t ht
    rw [exec_railRecovered e s ht]
    refine ⟨fun h => by rw [if_pos h], fun hrising hlive => ?_⟩
    rw [if_neg (by simp [hrising, hlive])]
    exact ⟨fun h => by rw [if_pos h], fun h => by rw [if_neg (Bool.eq_false_iff.1 h)]⟩
  case fabclk =>
    intro s e t ht
    rw [exec_fabclkRestored e s ht]
    refine ⟨fun h => by rw [if_pos (Bool.eq_false_iff.1 h)], fun hlost => ?_⟩
    rw [if_neg (not_not.2 hlost)]
    exact ⟨fun h => by rw [if_pos h], fun h => by rw [if_neg (Bool.eq_false_iff.1 h)]⟩
  case wake =>
    intro s e w t hw ht
    rw [exec_wakeRailsInWindow e s hw ht]
    refine ⟨fun h => ?_, fun hwaking hlive hclock hrail => ?_⟩
    · rw [if_pos (by simpa using h)]
    · rw [if_neg (by simp [hwaking, hlive, hclock, hrail])]
  case vaux => exact fun s => ⟨s.auxReset, rfl, rfl, rfl, rfl, rfl, rfl, rfl, rfl, rfl, rfl, rfl⟩
  case idle => exact fun s e h => by rw [exec_bootStageTimeout e s rfl, if_pos (Bool.eq_false_iff.1 h)]
  case stage =>
    intro s e t ht h
    rw [exec_bootStageTimeout e s ht, if_neg (not_not.2 h)]
    exact ⟨fun h => by rw [if_pos h], fun h => by rw [if_neg (Bool.eq_false_iff.1 h)]⟩

/-! ### What boot from stage 3 on leaves alone (R384, R411) -/

/-- What boot from stage 3 on leaves alone, but for context 0 and queue 0. -/
def State.resting (s : State) :=
  (s.cmds, s.streams, s.stylus.qps, s.epochs, s.manifests, s.fabric.banks, s.fabric.active, s.spare.state, s.strk, s.boot.seed, s.mem.cells)

/-- The context and queue tables with it. -/
def State.kept (s : State) := (s.ctxs, s.queues, s.resting)

section Kept

variable {s : State}

@[simp] theorem State.kept_logEvent (s : State) (code source index context aux data : Nat) :
    (s.logEvent code source index context aux data).kept = s.kept := by
  rw [logEvent_frame]
  rfl

@[simp] theorem State.kept_sensorEntry (s : State) (sensor : Nat) (raw : Int) (event : Nat) : (s.sensorEntry sensor raw event).kept = s.kept :=
  s.kept_logEvent _ _ _ _ _ _

@[simp] theorem State.kept_addCause (s : State) (cause index : Nat) : (s.addCause cause index).kept = s.kept :=
  State.kept_logEvent _ _ _ _ _ _ _

@[simp] theorem State.kept_portRefused (s : State) (p off : Nat) : (s.portRefused p off).kept = s.kept := s.kept_logEvent _ _ _ _ _ _

@[simp] theorem State.kept_sbEvent (s : State) (p e : Nat) : (s.sbEvent p e).kept = s.kept := s.kept_logEvent _ _ _ _ _ _

@[simp] theorem State.kept_stackFails (s : State) (k : Nat) : (s.stackFails k).kept = s.kept := State.kept_addCause _ _ _

theorem State.kept_foldl {α : Type} {f : State → α → State} (hf : ∀ s a, (f s a).kept = s.kept) (l : List α) (s : State) :
    (l.foldl f s).kept = s.kept := by
  induction l generalizing s with
  | nil => rfl
  | cons a l ih => exact (ih _).trans (hf s a)

theorem State.kept_logBank (s : State) (b : Nat) : (s.logBank b).kept = s.kept := by
  unfold State.logBank
  split
  · exact s.kept_logEvent _ _ _ _ _ _
  · rfl

theorem State.kept_selectStore (s : State) : s.selectStore.kept = s.kept := by
  have hlog : ((s.logBank 0).logBank 1).kept = s.kept := (State.kept_logBank _ 1).trans (s.kept_logBank 0)
  unfold State.selectStore
  extract_lets t src put
  have hput (b : Option Nat) (seq : Nat) (es : List (Nat × List Byte)) : (put b seq es).kept = s.kept := hlog
  clear_value put
  split
  · split <;> exact hput _ _ _
  all_goals exact hput _ _ _

theorem State.kept_selectFw (s : State) (n : Nat) (ks : List Nat) : (s.selectFw n ks).kept = s.kept := by
  induction n generalizing s ks with
  | zero => rfl
  | succ n ih =>
    rw [State.selectFw]
    dsimp only
    split
    · rfl
    · split
      · rfl
      · exact (ih _ _).trans (s.kept_logEvent _ _ _ _ _ _)

theorem State.kept_enterRecovery (s : State) : s.enterRecovery.kept = s.kept := rfl

theorem State.kept_readPower (s : State) : s.readPower.kept = s.kept := by
  unfold State.readPower
  extract_lets v bad ok boot src t
  exact (State.kept_foldl (fun s (o : Nat) => s.kept_sensorEntry 60 o 7) bad t).trans rfl

theorem State.kept_includeDdr (s : State) (ds : List DimmInput) : (s.includeDdr ds).kept = s.kept := by
  unfold State.includeDdr
  dsimp only
  refine (State.kept_foldl (fun s d => ?_) (dimmOrder ds) s : _)
  split
  · exact s.kept_logEvent _ _ _ _ _ _
  · rfl

theorem State.kept_readPorts (s : State) : s.readPorts.kept = s.kept := by
  unfold State.readPorts
  dsimp only
  split
  · exact State.kept_portRefused _ _ _
  · refine (State.kept_foldl (fun s p => ?_) _ _).trans rfl
    split
    · exact s.kept_portRefused _ _
    · rfl

theorem State.kept_readBus (s : State) : s.readBus.kept = s.kept :=
  State.kept_foldl (fun s p => State.kept_sbEvent { s with free := s.free + 1 } p _) _ _

theorem State.kept_commitStore {t : State} {k : Nat} {v : List Byte} (h : s.commitStore k v = some t) : t.kept = s.kept := by
  unfold State.commitStore at h
  split at h
  · cases h
  · dsimp only at h
    split at h
    · cases h
      rfl
    · cases h

theorem State.kept_ownStore (s : State) (k : Nat) (v : List Byte) : (s.ownStore k v).kept = s.kept := by
  unfold State.ownStore
  cases h : (s.flashErase (bankBase s.spareBank) 65536).commitStore k v with
  | none => rfl
  | some t => exact (State.kept_commitStore h).trans rfl

theorem State.kept_reachReady (s : State) : s.reachReady.kept = s.kept := by
  unfold State.reachReady
  extract_lets own src t
  have hcount : t.kept = s.kept := by
    subst t
    split
    · rfl
    · exact s.kept_ownStore _ _
  clear_value t
  split
  · exact (t.kept_ownStore _ _).trans hcount
  · exact hcount

theorem State.kept_runStage (e : BootInput) {k : Nat} (hk : 3 ≤ k) (h5 : k ≠ 5) : (s.runStage e k).kept = s.kept := by
  unfold State.runStage
  split
  case h_1 | h_2 => omega
  case h_3 => exact s.kept_selectStore
  case h_4 =>
    dsimp only
    split
    · exact (State.kept_enterRecovery _).trans (s.kept_selectFw _ _)
    · exact s.kept_selectFw _ _
  case h_5 => exact absurd rfl h5
  case h_6 =>
    split
    · exact s.kept_stackFails _
    · rfl
  case h_7 =>
    split
    · exact s.kept_includeDdr _
    · rfl
  case h_8 => exact (State.kept_readBus _).trans s.kept_readPorts
  case h_9 => exact s.kept_reachReady

end Kept

/-- A state of boot that began in v: at most the context and queue of the Proof core, and the rest as it was (R157). -/
structure Booting (v s : State) : Prop where
  ctxs : ∀ x ∈ s.ctxs, x.1 = 0
  queues : ∀ x ∈ s.queues, x.1 = 0
  resting : s.resting = v.resting

section Booting

variable {v s t : State} {e : BootInput}

theorem Booting.of_kept (h : Booting v s) (ht : t.kept = s.kept) : Booting v t := by
  obtain ⟨hctxs, hqueues, hrest⟩ : t.ctxs = s.ctxs ∧ t.queues = s.queues ∧ t.resting = s.resting := by simpa [State.kept] using ht
  exact ⟨hctxs ▸ h.ctxs, hqueues ▸ h.queues, hrest.trans h.resting⟩

theorem Booting.createAdmin (h : Booting v s) : Booting v s.createAdmin :=
  ⟨fun x hx => (Kv.mem_set hx).elim (fun hnew => hnew ▸ rfl) (h.ctxs x),
    fun x hx => (Kv.mem_set hx).elim (fun hnew => hnew ▸ rfl) (h.queues x), h.resting⟩

theorem Booting.startFirmware (h : Booting v s) : Booting v s.startFirmware := by
  have hpower := h.of_kept s.kept_readPower
  unfold State.startFirmware
  dsimp only
  refine Booting.createAdmin ?_
  split
  · exact hpower.of_kept (State.kept_addCause _ _ _)
  · exact hpower

theorem Booting.runStage {k : Nat} (h : Booting v s) (hk : 3 ≤ k) : Booting v (s.runStage e k) := by
  by_cases h5 : k = 5
  · subst h5
    exact h.startFirmware
  · exact h.of_kept (State.kept_runStage e hk h5)

theorem Booting.bootFrom {ks : List Nat} (hks : ∀ k ∈ ks, 3 ≤ k) (h : Booting v s) : Booting v (s.bootFrom e ks) := by
  induction ks generalizing s with
  | nil => exact h.of_kept rfl
  | cons k ks ih =>
    obtain ⟨hk, hks⟩ := List.forall_mem_cons.1 hks
    have hstage : Booting v (s.runStage e k) := h.runStage hk
    rw [State.bootFrom]
    dsimp only
    split
    · exact h.of_kept rfl
    split
    · exact hstage.of_kept rfl
    · exact ih hks (hstage.of_kept rfl)

end Booting

/-- What a warm reset has cleared before boot goes on, and kept (R411). -/
theorem State.resting_warmState (s : State) : s.warmState.resting = ([], [], [], [], [], [], none, .active, s.strk, s.boot.seed,
    s.mem.cells.filter fun c => decide (ddrBase ≤ c.1)) := rfl

theorem State.kept_resetEntry (s : State) (cause stage : Nat) : (s.resetEntry cause stage).kept = s.kept := s.kept_logEvent _ _ _ _ _ _

theorem State.kept_noIdentity (s : State) (h : s.boot.seed = none) : s.noIdentity.kept = s.kept := by
  refine (State.kept_addCause _ 3 0).trans ?_
  rw [State.kept, State.kept, State.resting, State.resting, h]

/-- Boot after a warm reset leaves what the reset has left (R384, R411). -/
theorem State.booting_warmReset (s : State) (e : BootInput) (cause : Nat) : Booting s.warmState (s.warmReset e cause) := by
  have hstart : Booting s.warmState s.warmState := ⟨fun _ h => absurd h List.not_mem_nil, fun _ h => absurd h List.not_mem_nil, rfl⟩
  have hentry := hstart.of_kept (s.warmState.kept_resetEntry cause s.boot.stage)
  unfold State.warmReset
  extract_lets stage t u
  have ht : Booting s.warmState t := hentry.of_kept rfl
  clear_value t
  have hu : Booting s.warmState u := by
    subst u
    split
    case isTrue h => exact ht.of_kept (State.kept_noIdentity _ (Option.isNone_iff_eq_none.1 h.1))
    case isFalse => exact ht
  exact hu.bootFrom (by decide)

/-- An address that no cell lists reads as unlisted. -/
theorem Memory.read_of_not_listed {m : Memory} {a : Nat} (h : ∀ c ∈ m.cells, c.1 ≠ a) : m.read a = m.unlisted a := by
  have hnone : Kv.get a m.cells = none := by
    rw [← Option.not_isSome_iff_eq_none]
    intro hsome
    obtain ⟨c, hc, heq⟩ := List.mem_map.1 (Kv.mem_keys_of_has hsome)
    exact h c hc heq
  rw [Memory.read, hnone]

/-- Settles O42, by what the reset leaves and boot keeps. -/
theorem warmResetKeepsAndClears : Obligations.WarmResetKeepsAndClears := by
  unfold Obligations.WarmResetKeepsAndClears
  intro s e hwarm
  have hexec : exec (.warmReset e) s = .next (s.warmReset e 1) := by rw [exec_warmReset, if_pos hwarm]
  have hsites := ((exec_keeps (.warmReset e) s).of hexec).sites
  obtain ⟨hctxs, hqueues, hrest⟩ := s.booting_warmReset e 1
  rw [State.resting_warmState] at hrest
  simp only [State.resting, Prod.mk.injEq] at hrest
  obtain ⟨hcmds, hstreams, hqps, hepochs, hmanifests, hbanks, hactive, hspare, hstrk, hseed, hcells⟩ := hrest
  refine ⟨_, hexec, hctxs, hqueues, hcmds, hstreams, hqps, hepochs, hmanifests, hbanks, hactive, hspare, hsites, ?_, ?_, ?_, ?_, ?_,
    fun x hx => hseed.trans hx, fun a ha => Memory.read_of_not_listed fun c hc => ?_⟩
  case refine_6 =>
    rw [hcells, List.mem_filter, decide_eq_true_eq] at hc
    omega
  all_goals rw [hstrk]

end Sys2Proof.Machine
end

section
/-! PROOFS. The host's requests, coherence and the host link (13_host_coupling.md R226 to R239): what each request does, and what the link going
down or being lost leaves. -/

namespace Sys2Proof.Kv

theorem mem_of_get {α : Type} {k : Nat} {a : α} {t : List (Nat × α)} (h : get k t = some a) : (k, a) ∈ t := by
  induction t with
  | nil => cases h
  | cons e t ih =>
    rw [get_cons] at h
    split at h
    case isTrue heq =>
      cases h
      exact heq ▸ List.mem_cons_self
    case isFalse => exact List.mem_cons_of_mem _ (ih h)

end Sys2Proof.Kv

namespace Sys2Proof.Machine

open Sys2Proof

@[simp] theorem length_leBytes (n v : Nat) : (leBytes n v).length = n := by
  induction n generalizing v with
  | zero => rfl
  | succ n ih => rw [leBytes, List.length_cons, ih]

/-! ### Requests (R227, R230, R232) -/

section Requests

variable {s : State} {r : HostRequest}

/-- An access of the host through the device-memory window, in the mode that opens the window (R230). -/
theorem exec_hostInboundRequest_window {n : Nat} (hup : s.host.up = true) (htrust : r.trusted = true)
    (hn : n = if r.write then r.data.length else r.length)
    (hopen : (r.target = .bar4 ∧ s.host.coherent = false ∧ 0 < n ∧ r.offset % 64 + n ≤ 64) ∨ (r.target = .hdm ∧ s.host.coherent = true)) :
    ∃ err, exec (.hostInboundRequest r) s = .next (s.windowAccess r err) := by
  subst hn
  rcases hopen with ⟨htarget, hplain, hsome, hline⟩ | ⟨htarget, hcoherent⟩
  · have hfits : ¬ ((if r.write then r.data.length else r.length) = 0 ∨ 64 < r.offset % 64 + if r.write then r.data.length else r.length) := by omega
    refine ⟨if r.write then .written else .data (zeros (if r.write then r.data.length else r.length)), ?_⟩
    show execHostInboundRequest r s = _
    simp only [execHostInboundRequest, hup, htarget, htrust, hplain, not_true_eq_false, if_false, Bool.false_eq_true, false_or, if_neg hfits]
  · refine ⟨.unsupported, ?_⟩
    show execHostInboundRequest r s = _
    simp only [execHostInboundRequest, hup, htarget, htrust, hcoherent, not_true_eq_false, if_false, if_true]

/-- An access whose line the host does not take into its cache (R230). -/
theorem State.windowAccess_plain {n pa : Nat} (err : HostAnswer) (hn : n = if r.write then r.data.length else r.length)
    (hpa : s.windowPa r.offset = some pa) (hline : s.mem.bad pa n = false) (hcache : ¬ (r.cached ∧ s.host.coherent)) :
    s.windowAccess r err = if r.write then ((s.windowWrite pa r.data).sampleTriggers).answerHost .written else s.windowRead pa n := by
  subst hn
  have hfull : ¬ (r.cached = true ∧ s.host.coherent = true ∧ s.mem.directoryFull (lineOf pa) = true) :=
    fun ⟨hcached, hcoherent, _⟩ => hcache ⟨hcached, hcoherent⟩
  unfold State.windowAccess
  simp only [hpa, hline, Bool.false_eq_true, false_and, if_false, if_neg hfull, if_neg hcache]

/-- A line of the host's that finds the directory full waits behind a snoop of the oldest line (R230). -/
theorem State.windowAccess_full {pa : Nat} (err : HostAnswer) (hpa : s.windowPa r.offset = some pa)
    (hline : s.mem.bad pa (if r.write then r.data.length else r.length) = false) (hcached : r.cached = true) (hcoherent : s.host.coherent = true)
    (hfull : s.mem.directoryFull (lineOf pa) = true) :
    s.windowAccess r err = { s with mem := s.mem.snoopOldest, host := { s.host with waiting := s.host.waiting ++ [r] } } := by
  have hwait : r.cached = true ∧ s.host.coherent = true ∧ s.mem.directoryFull (lineOf pa) = true := ⟨hcached, hcoherent, hfull⟩
  unfold State.windowAccess
  simp only [hpa, hline, Bool.false_eq_true, false_and, if_false, if_pos hwait]
  rfl

theorem State.windowWrite_keyed {pa : Nat} {bs : List Byte} (h : ¬ (s.region pa = .ddr ∧ s.ownerOf pa = none)) :
    s.windowWrite pa bs = { s with mem := s.mem.writeBytes pa bs } := if_neg h

theorem State.windowWrite_keyless {pa : Nat} {bs : List Byte} (h : s.region pa = .ddr ∧ s.ownerOf pa = none) : s.windowWrite pa bs =
    { s with mem := { s.mem.writeBytes pa bs with ddrLast := Kv.set (pa / 65536) noKey (s.mem.writeBytes pa bs).ddrLast } } := if_pos h

theorem State.windowRead_keyed {pa n : Nat} (h : ¬ (s.region pa = .ddr ∧ s.ownerOf pa = none)) :
    s.windowRead pa n = s.answerHost (.data (s.mem.readBytes pa n)) := if_neg h

/-- In a frame without a key the host reads an open value (R223, R230). -/
theorem State.windowRead_keyless {pa n : Nat} (h : s.region pa = .ddr ∧ s.ownerOf pa = none) :
    ∃ bs, s.windowRead pa n = ({ s with free := s.free + 1 } : State).answerHost (.data bs) ∧ bs.length = n :=
  ⟨_, if_pos h, length_leBytes n _⟩

end Requests

/-! ### Coherence (R229 to R231) -/

/-- The memory after the host's answer to a snoop: its write-back, then the engines' bytes that waited for it (R231). -/
def Memory.answered (m : Memory) (line : Nat) (bs : List Byte) (mine : List (Nat × Byte)) : Memory :=
  { mine.foldl (fun (m : Memory) e => m.write e.1 e.2) (if bs.length = 64 then m.writeBytes line bs else m) with
    snooped := Kv.del line (mine.foldl (fun (m : Memory) e => m.write e.1 e.2) (if bs.length = 64 then m.writeBytes line bs else m)).snooped
    directory := (mine.foldl (fun (m : Memory) e => m.write e.1 e.2) (if bs.length = 64 then m.writeBytes line bs else m)).directory.filter (· ≠ line) }

theorem exec_backInvalidationResponse {s : State} {l : Nat} {mine : List (Nat × Byte)} (hmine : Kv.get (lineOf l) s.mem.snooped = some mine)
    (bs : List Byte) :
    exec (.backInvalidationResponse l bs) s = .next ({ s with mem := s.mem.answered (lineOf l) bs mine } : State).serveWaiting := by
  show execBackInvalidationResponse l bs s = _
  simp only [execBackInvalidationResponse, hmine]
  rfl

theorem Memory.not_mem_directory_answered (m : Memory) (line : Nat) (bs : List Byte) (mine : List (Nat × Byte)) :
    line ∉ (m.answered line bs mine).directory := fun h => of_decide_eq_true (List.mem_filter.1 h).2 rfl

/-! ### The link (R226, R239, R408) -/

section Link

variable {s : State}

theorem widthCode_ne_zero {w : Nat} (h : w ∈ [4, 8, 16]) : widthCode w ≠ 0 := by
  simp only [List.mem_cons, List.not_mem_nil, or_false] at h
  rcases h with rfl | rfl | rfl <;> decide

/-- HOST_LINK_UP on a part that may take it (R226). -/
theorem exec_hostLinkUp {cxl : Bool} {w : Nat} {t : State} (hdown : s.host.up = false) (hfree : s.host.heldDown = false) (hw : w ∈ [4, 8, 16])
    (hrun : s.power.stopped = false) (hporst : s.side.porst = false) (hfactory : s.boot.factory = false)
    (ht : t = { s with host := { s.host with up := true, settled := true, coherent := cxl, width := widthCode w, lost := false } }) :
    exec (.hostLinkUp cxl w) s = .next (if s.host.settled ∧ s.host.coherent ≠ cxl then
        ({ s with host := { s.host with heldDown := true } } : State).logEvent 0x0501 12 0 noContext 0 0
      else (if w < 16 ∨ ¬ cxl then t.logEvent 0x0501 12 0 noContext 0 1 else t).releaseHost) := by
  subst ht
  show execHostLinkUp cxl w s = _
  unfold execHostLinkUp
  dsimp only
  rw [if_neg (by simp [hdown, hfree, widthCode_ne_zero hw, hrun, hporst, hfactory])]
  rfl

theorem State.linkDown_up (h : s.host.up = true) : s.linkDown = (({ s with host := { s.host with up := false, lost := false, waiting := [] }, mem :=
    { s.mem with hostLines := [], directory := [], snooped := [] } } : State).logEvent 0x0501 12 0 noContext 0 0) := if_neg (not_not.2 h)

/-- A command that waits for the host, after the link is given up (R239). -/
def Cmd.lostHost (c : Cmd) : Cmd :=
  match c.hostWait with
  | some d => { c with phase := .finished (.fail .timeout d), hostWait := none, work := .none }
  | none => c

/-- The stall of a queue in host memory, with its entry (R164, R239). -/
def State.stallLost (s : State) (e : Nat × Queue) : State :=
  (s.updQueue e.1 fun y => { y with state := .stalled, rereads := 8 }).logEvent 0x0301 10 0 e.2.owner e.1 e.2.expSeq

theorem exec_hostLinkLossTimeout (hdown : s.host.up = false) (hnew : s.host.lost = false) : exec .hostLinkLossTimeout s =
    .next ((s.queues.filter fun e => s.awaitsHost e.2).foldl State.stallLost
      { s with host := { s.host with lost := true }, cmds := s.cmds.map Cmd.lostHost }) := by
  show execHostLinkLossTimeout s = _
  unfold execHostLinkLossTimeout
  rw [if_neg (by simp [hdown, hnew])]
  rfl

theorem State.stallLost_queues (s : State) (e : Nat × Queue) :
    (s.stallLost e).queues = Kv.upd e.1 (fun y => { y with state := .stalled, rereads := 8 }) s.queues := by
  unfold State.stallLost
  rw [logEvent_frame]
  rfl

theorem State.foldl_stallLost_cmds (l : List (Nat × Queue)) (s : State) : (l.foldl State.stallLost s).cmds = s.cmds := by
  induction l generalizing s with
  | nil => rfl
  | cons e l ih =>
    rw [List.foldl_cons, ih, State.stallLost, logEvent_frame]
    rfl

/-- The trouble log leaves the host link's settings but for its own flag. -/
theorem State.logEvent_host (s : State) (code source index context aux data : Nat) : (s.logEvent code source index context aux data).host =
    { s.host with logError := (s.logEvent code source index context aux data).host.logError } := by
  unfold State.logEvent State.logAt
  dsimp only
  split <;> rfl

theorem State.foldl_stallLost_lost (l : List (Nat × Queue)) (s : State) : (l.foldl State.stallLost s).host.lost = s.host.lost := by
  induction l generalizing s with
  | nil => rfl
  | cons e l ih =>
    rw [List.foldl_cons, ih, State.stallLost, State.logEvent_host]
    rfl

/-- A queue that is stalled stays so. -/
theorem State.foldl_stallLost_stalled {l : List (Nat × Queue)} {k : Nat} (h : (Kv.get k s.queues).map (·.state) = some .stalled) :
    (Kv.get k (l.foldl State.stallLost s).queues).map (·.state) = some .stalled := by
  induction l generalizing s with
  | nil => exact h
  | cons e l ih =>
    refine ih ?_
    rw [State.stallLost_queues]
    by_cases hk : k = e.1
    · rw [hk, Kv.get_upd_self, ← hk, Option.map_map]
      obtain ⟨x, hx, -⟩ := Option.map_eq_some_iff.1 h
      rw [hx]
      rfl
    · rwa [Kv.get_upd_ne hk]

/-- Every queue of the list that exists is stalled (R239). -/
theorem State.foldl_stallLost_mem {l : List (Nat × Queue)} {k : Nat} {x : Queue} (hx : Kv.has k s.queues = true) (hmem : (k, x) ∈ l) :
    (Kv.get k (l.foldl State.stallLost s).queues).map (·.state) = some .stalled := by
  induction l generalizing s with
  | nil => cases hmem
  | cons e l ih =>
    have hkeep : Kv.get k (s.stallLost e).queues =
        if k = e.1 then (Kv.get k s.queues).map fun y => { y with state := .stalled, rereads := 8 } else Kv.get k s.queues := by
      rw [State.stallLost_queues]
      split
      case isTrue hk => rw [hk, Kv.get_upd_self]
      case isFalse hk => rw [Kv.get_upd_ne hk]
    obtain ⟨y, hy⟩ := Option.isSome_iff_exists.1 hx
    rcases List.mem_cons.1 hmem with rfl | hmem
    · refine State.foldl_stallLost_stalled (s := s.stallLost (k, x)) ?_
      rw [hkeep, if_pos rfl, hy]
      rfl
    · refine ih ?_ hmem
      rw [Kv.has, hkeep, hy]
      split <;> rfl

end Link

/-- Settles O31, request by request and row by row. -/
theorem hostRequestsAndLinkComplete : Obligations.HostRequestsAndLinkComplete := by
  unfold Obligations.HostRequestsAndLinkComplete
  refine ⟨?requests, ?window, ?full, fun _ _ => rfl, ?response, ?up, ?down, ?lost⟩
  case requests =>
    intro s r hup
    have hexec : exec (.hostInboundRequest r) s = execHostInboundRequest r s := rfl
    refine ⟨fun htarget hread => ?_, fun f htarget => ⟨fun huse => ?_, fun huse => ?_⟩, fun htrust htarget => ?_, fun htrust htarget hwrite => ?_,
      fun htrust htarget hread => ?_, fun htrust htarget hwrite => ?_, fun htrust htarget hplain => ?_⟩
    all_goals rw [hexec, execHostInboundRequest]
    · simp only [hup, htarget, State.configAccess, hread, not_true_eq_false, Bool.false_eq_true, if_false]
    · simp only [hup, htarget, huse, not_true_eq_false, if_false, if_true]
    · simp only [hup, htarget, huse, not_true_eq_false, Bool.false_eq_true, if_false, State.unsupported]
    · rcases htarget with htarget | htarget | htarget | htarget <;>
        simp only [hup, htarget, htrust, not_true_eq_false, Bool.false_eq_true, not_false_eq_true, if_true, if_false]
    · simp only [hup, htarget, htrust, hwrite, not_true_eq_false, if_false, if_true]
    · simp only [hup, htarget, htrust, hread, not_true_eq_false, Bool.false_eq_true, if_false]
    · simp only [hup, htarget, htrust, hwrite, not_true_eq_false, if_false, if_true]
    · simp only [hup, htarget, htrust, hplain, not_true_eq_false, Bool.false_eq_true, if_false]
  case window =>
    intro s r n pa keyless hup htrust hn hopen hpa hline hkey
    have hplain : ¬ (r.cached = true ∧ s.host.coherent = true) := by
      rcases hopen with ⟨-, hcoherent, -, -⟩ | ⟨-, -, hcached⟩
      · simp [hcoherent]
      · simp [hcached]
    obtain ⟨err, hexec⟩ := exec_hostInboundRequest_window hup htrust hn (hopen.imp_right fun ⟨htarget, hcoherent, _⟩ => ⟨htarget, hcoherent⟩)
    rw [hexec, State.windowAccess_plain err hn hpa hline hplain]
    refine ⟨fun hwrite hkeyed => ?_, fun m hwrite hkeyless hm => ?_, fun hread hkeyed => ?_, fun hread hkeyless => ?_⟩
    · rw [if_pos hwrite, State.windowWrite_keyed (mt hkey.2 hkeyed)]
    · rw [if_pos hwrite, State.windowWrite_keyless (hkey.1 hkeyless), hm]
    · rw [if_neg (Bool.eq_false_iff.1 hread), State.windowRead_keyed (mt hkey.2 hkeyed)]
    · obtain ⟨bs, hbs, hlength⟩ := State.windowRead_keyless (n := n) (hkey.1 hkeyless)
      exact ⟨bs, by rw [if_neg (Bool.eq_false_iff.1 hread), hbs], hlength⟩
  case full =>
    intro s r pa hup htrust htarget hcoherent hcached hpa hline hfull
    obtain ⟨err, hexec⟩ := exec_hostInboundRequest_window hup htrust rfl (.inr ⟨htarget, hcoherent⟩)
    rw [hexec, State.windowAccess_full err hpa hline hcached hcoherent hfull]
  case response =>
    exact fun s l bs mine hmine => ⟨_, exec_backInvalidationResponse hmine bs, Kv.get_del_self _ _,
      Memory.not_mem_directory_answered _ _ _ _, fun _ => rfl⟩
  case up =>
    intro s cxl w hdown hfree hw hrun hporst hfactory
    refine ⟨fun hsettled hmode => ?_, fun t hmode ht => ?_⟩
    · rw [exec_hostLinkUp hdown hfree hw hrun hporst hfactory rfl, if_pos ⟨hsettled, hmode⟩]
    · rw [exec_hostLinkUp hdown hfree hw hrun hporst hfactory ht, if_neg (by simpa using fun h => hmode.resolve_left (by simp [h]))]
      refine ⟨fun hwidth hcxl => ?_, fun hless => ?_⟩
      · rw [if_neg (by simp [hwidth, hcxl])]
      · rw [if_pos (by simpa using hless)]
  case down =>
    rintro s h t rfl
    have hdown := congrArg (Host.Outcome.next (φ := Fault) (ρ := Refusal)) (State.linkDown_up h)
    exact ⟨hdown, hdown⟩
  case lost =>
    intro s hdown hnew
    refine ⟨_, exec_hostLinkLossTimeout hdown hnew, State.foldl_stallLost_lost _ _, State.foldl_stallLost_cmds _ _, fun k x hx hwait => ?_⟩
    exact State.foldl_stallLost_mem (by simp [Kv.has, hx]) (List.mem_filter.2 ⟨Kv.mem_of_get hx, hwait⟩)

end Sys2Proof.Machine
end

section
/-! PROOFS. The mailbox's operations (27_host_register_map.md R449 to R451), the sideband (26_package_and_signals.md R436, R437), flash timeouts
(22_boot_identity_store.md R370) and the service partition's restart (23_proof_core_and_trouble_log.md R391). -/

namespace Sys2Proof.Machine

open Sys2Proof

/-! ### Serving a request (R449) -/

/-- The request r, which names op, is in service, and something serves it (R384, R449). -/
structure Serving (s : State) (r : MboxRequest) (op : Nat) : Prop where
  busy : s.mbox.busy = some r
  served : s.mboxServed = true
  names : fieldAt r.bytes 0 2 = op

section Serving

variable {s t : State} {r : MboxRequest} {op : Nat} {lenOk : Nat → Bool} {act : State → Except Ending (State × Option (Ending × List Byte))}
  {e : Ending} {body : List Byte}

/-- A request in service is in no case in which its operation does nothing. -/
theorem Serving.named (h : Serving s r op) : ¬ (s.mbox.busy ≠ some r ∨ fieldAt r.bytes 0 2 ≠ op ∨ ¬ s.mboxServed = true) := by
  simp [h.busy, h.served, h.names]

theorem Serving.ends (h : Serving s r op) (hlen : lenOk (fieldAt r.bytes 2 2) = true) (ha : act s = .ok (t, some (e, body))) :
    s.serveMbox r op lenOk act = t.answerMbox r e body := by
  simp only [State.serveMbox, if_neg h.named, if_neg (not_not.2 hlen), ha]

theorem Serving.goesOn (h : Serving s r op) (hlen : lenOk (fieldAt r.bytes 2 2) = true) (ha : act s = .ok (t, none)) :
    s.serveMbox r op lenOk act = t := by
  simp only [State.serveMbox, if_neg h.named, if_neg (not_not.2 hlen), ha]

theorem Serving.refuses (h : Serving s r op) (hlen : lenOk (fieldAt r.bytes 2 2) = true) (ha : act s = .error e) :
    s.serveMbox r op lenOk act = s.answerMbox r e [] := by
  simp only [State.serveMbox, if_neg h.named, if_neg (not_not.2 hlen), ha]

end Serving

/-- A check that holds. -/
theorem ensure_of {b : Bool} (h : b = true) (e : Ending) : ensure b e = .ok () := if_pos h

theorem and_of {a b : Bool} (ha : a = true) (hb : b = true) : (a && b) = true := by rw [ha, hb]; rfl

theorem ensure_not {b : Bool} (h : b = false) (e : Ending) : ensure b e = .error e := if_neg (Bool.eq_false_iff.1 h)

theorem leNat_eq_zero {bs : List Byte} (h : leNat bs = 0) : ∀ b ∈ bs, b = 0 := by
  induction bs with
  | nil => exact fun _ hb => absurd hb List.not_mem_nil
  | cons a bs ih =>
    rw [leNat] at h
    refine List.forall_mem_cons.2 ⟨BitVec.eq_of_toNat_eq ?_, ih (by omega)⟩
    show a.toNat = 0
    omega

/-- Reserved bytes that read as zero (R6). -/
theorem zeroField_of {bs : List Byte} {base lo hi : Nat} (h : fieldAt bs lo (hi - lo) = 0) : zeroField bs base lo hi = .ok () := by
  have hnone : ((bs.drop lo).take (hi - lo)).findIdx? (· ≠ 0) = none :=
    List.findIdx?_eq_none_iff.2 fun b hb => by simp [leNat_eq_zero h b hb]
  unfold zeroField firstNonzero
  rw [hnone]
  rfl

/-! ### Operations without the flash (R375, R400, R414, R450) -/

section Operations

variable {s t : State} {r : MboxRequest}

theorem Serving.exec_mboxNop (h : Serving s r 1) (hlen : fieldAt r.bytes 2 2 = 0) :
    exec (.mboxNop r) s = .next (s.answerMbox r (Ending.ok 0 0) []) :=
  congrArg Host.Outcome.next (h.ends (decide_eq_true hlen) rfl)

theorem Serving.exec_sbSend {seq : Nat} (h : Serving s r 2) (hlen : 54 ≤ fieldAt r.bytes 2 2) (hc : s.checkSbSend r = .ok ())
    (hcount : fieldAt ((MboxBody r).drop 8) 15 1 ≠ 6 ∨ s.boot.counted = true) (hseq : s.nextFrameSeq = (seq, t)) :
    exec (.sbSend r) s = .next (((bothPorts.filter fun p => bitOf (fieldAt (MboxBody r) 0 1) p).foldl
      (fun s p => s.sbPut p (padFrame (t.fillFrame ((MboxBody r).drop 8) seq))) t).answerMbox r (Ending.ok 0 0) []) := by
  have hsent : ¬ (fieldAt ((MboxBody r).drop 8) 15 1 = 6 ∧ ¬ s.boot.counted = true) := fun ⟨htype, hnot⟩ => hcount.elim (· htype) hnot
  refine congrArg Host.Outcome.next (h.ends (decide_eq_true hlen) ?_)
  simp only [hc, if_neg hsent, hseq]
  rfl

theorem Serving.exec_mboxTelemetry (h : Serving s r 3) (hlen : fieldAt r.bytes 2 2 = 1) (hset : fieldAt r.bytes 16 1 ≤ 5) :
    exec (.mboxTelemetry r) s = .next (s.answerMbox r (Ending.ok (setBytes (fieldAt r.bytes 16 1)) 0) (s.telemetry (fieldAt r.bytes 16 1) 0)) := by
  refine congrArg Host.Outcome.next (h.ends (decide_eq_true hlen) ?_)
  simp only [ensure_of (decide_eq_true hset)]
  rfl

theorem Serving.exec_mboxConfigRead (h : Serving s r 4) (hlen : fieldAt r.bytes 2 2 = 4) (hkey : keyDefined (fieldAt r.bytes 16 2) = true)
    (hread : s.readLengthOk (fieldAt r.bytes 16 2) (fieldAt r.bytes 18 2) = true) : exec (.mboxConfigRead r) s =
      .next (s.answerMbox r (Ending.ok (s.shownKey (fieldAt r.bytes 16 2)).length s.boot.storeSeq) (s.shownKey (fieldAt r.bytes 16 2))) := by
  refine congrArg Host.Outcome.next (h.ends (decide_eq_true hlen) ?_)
  simp only [ensure_of hkey, ensure_of hread]
  rfl

theorem Serving.exec_mboxProfileSet (h : Serving s r 6) (hlen : fieldAt r.bytes 2 2 = 1) (hprofile : fieldAt r.bytes 16 1 ≤ 2) :
    exec (.mboxProfileSet r) s =
      .next (({ s with power := { s.power with changes := s.power.changes ++ [(s.strk.now + 2, fieldAt r.bytes 16 1)] } } : State).answerMbox r
        (Ending.ok (s.strk.now + 2) 0) []) := by
  refine congrArg Host.Outcome.next (h.ends (decide_eq_true hlen) ?_)
  simp only [ensure_of (decide_eq_true hprofile)]
  rfl

end Operations

/-! ### Operations that write the flash (R370, R377, R451) -/

section Flash

variable {s t : State} {r : MboxRequest} {erase : State → State} {prog : State → State × Ending × List Byte}

/-- While nothing writes the flash, the mailbox's write erases first. -/
theorem State.mboxFlash_free (hfree : s.boot.flashOp = none) :
    s.mboxFlash erase prog = ({ erase s with boot := { (erase s).boot with flashOp := some { cmd := none } } }, none) := by
  simp [State.mboxFlash, State.flashMine, hfree]

/-- Its row come again, the mailbox's write programs and ends. -/
theorem State.mboxFlash_mine (hmine : s.boot.flashOp = some { cmd := none }) :
    s.mboxFlash erase prog = ((prog s).1.flashEnd, some ((prog s).2.1, (prog s).2.2)) := by
  simp [State.mboxFlash, State.flashMine, hmine]

section ConfigWrite

variable {k : Nat} {v : List Byte} (h : Serving s r 5) (hlen : 4 ≤ fieldAt r.bytes 2 2) (hk : k = fieldAt r.bytes 16 2) (hv : v = (MboxBody r).drop 4)
  (hlength : v.length = fieldAt r.bytes 18 2) (hc : s.checkKey k v.length v 16 18 20 = .ok ()) (hseed : s.boot.seed.isSome = true)
include h hlen hk hv hlength hc hseed

theorem Serving.mboxConfigWrite (hfree : s.boot.flashOp = none) : exec (.mboxConfigWrite r) s =
    .next { s.flashErase (bankBase s.spareBank) 65536 with
      boot := { (s.flashErase (bankBase s.spareBank) 65536).boot with flashOp := some { cmd := none } } } := by
  subst hk hv
  rw [hlength] at hc
  refine congrArg Host.Outcome.next (h.goesOn (decide_eq_true hlen) ?_)
  simp only [ensure_of (decide_eq_true hlength), hc, Option.isNone_eq_false_iff.2 hseed, State.mboxFlash_free hfree]
  rfl

theorem Serving.mboxConfigWrite_again (hmine : s.boot.flashOp = some { cmd := none }) :
    (∀ t, s.commitStore k v = some t → exec (.mboxConfigWrite r) s = .next (t.flashEnd.answerMbox r (Ending.ok t.boot.storeSeq 0) [])) ∧
    (s.commitStore k v = none → exec (.mboxConfigWrite r) s = .next (s.flashEnd.answerMbox r (.fail .mediaError 16) [])) := by
  subst hk hv
  rw [hlength] at hc
  refine ⟨fun t ht => ?_, fun hnone => ?_⟩ <;> refine congrArg Host.Outcome.next (h.ends (decide_eq_true hlen) ?_)
  · simp only [ensure_of (decide_eq_true hlength), hc, Option.isNone_eq_false_iff.2 hseed, State.mboxFlash_mine hmine, ht]
    rfl
  · simp only [ensure_of (decide_eq_true hlength), hc, Option.isNone_eq_false_iff.2 hseed, State.mboxFlash_mine hmine, hnone]
    rfl

end ConfigWrite

section Begin

variable (h : Serving s r 0x10) (hlen : fieldAt r.bytes 2 2 = 8) (hlo : 65536 ≤ fieldAt r.bytes 16 4) (hhi : fieldAt r.bytes 16 4 ≤ 2 ^ 24)
  (hsig : fieldAt r.bytes 20 4 = sigLength) (hflash : s.boot.flashOk = true)
include h hlen hlo hhi hsig hflash

theorem Serving.recoveryBegin (hfree : s.boot.flashOp = none) (ht : t = (s.flashErase (slotHeader 0) 65536).flashErase (slotImage 0) (2 ^ 24)) :
    exec (.recoveryBegin r) s = .next { t with boot := { t.boot with flashOp := some { cmd := none } } } := by
  subst ht
  have hsize := and_of (decide_eq_true hlo) (decide_eq_true hhi)
  refine congrArg Host.Outcome.next (h.goesOn (decide_eq_true hlen) ?_)
  simp only [ensure_of hsize, ensure_of (decide_eq_true hsig), State.needFlash, ensure_of hflash, State.mboxFlash_free hfree]
  rfl

theorem Serving.recoveryBegin_again (hmine : s.boot.flashOp = some { cmd := none }) : exec (.recoveryBegin r) s =
    .next (({ s with boot := { s.boot with recv := some { length := fieldAt r.bytes 16 4, received := [] } } } : State).flashEnd.answerMbox r
      (Ending.ok 0 0) []) := by
  have hsize := and_of (decide_eq_true hlo) (decide_eq_true hhi)
  refine congrArg Host.Outcome.next (h.ends (decide_eq_true hlen) ?_)
  simp only [ensure_of hsize, ensure_of (decide_eq_true hsig), State.needFlash, ensure_of hflash, State.mboxFlash_mine hmine]
  rfl

end Begin

section Data

variable {o : Nat} {bs : List Byte} {rt : Recovery} (h : Serving s r 0x11) (hlen : 8 < fieldAt r.bytes 2 2) (ho : o = fieldAt r.bytes 16 4)
  (hbs : bs = (MboxBody r).drop 8) (hrecv : s.boot.recv = some rt) (hfits : o + bs.length ≤ rt.length + sigLength)
  (hzero : fieldAt r.bytes 20 4 = 0) (hflash : s.boot.flashOk = true)
include h hlen ho hbs hrecv hfits hzero hflash

theorem Serving.recoveryData (hfree : s.boot.flashOp = none) :
    exec (.recoveryData r) s = .next { s with boot := { s.boot with flashOp := some { cmd := none } } } := by
  subst ho hbs
  refine congrArg Host.Outcome.next (h.goesOn (decide_eq_true hlen) ?_)
  conv_lhs => simp only [hrecv, ensure_of (decide_eq_true hfits), zeroField_of (hi := 24) hzero, State.needFlash, ensure_of hflash,
    State.mboxFlash_free hfree]
  rfl

theorem Serving.recoveryData_again {got : List (Nat × Byte)} (hmine : s.boot.flashOp = some { cmd := none })
    (ht : t = s.flashWrite (slotImage 0 + o) (bs.take (rt.length - o)))
    (hgot : got = (rt.received.filter fun c => decide (c.1 < o)) ++ (bs.zipIdx.map fun x => (o + x.2, x.1)) ++
      (rt.received.filter fun c => decide (o + bs.length ≤ c.1))) : exec (.recoveryData r) s =
    .next (({ t with boot := { t.boot with recv := some { rt with received := got } } } : State).flashEnd.answerMbox r (Ending.ok 0 0) []) := by
  subst ho hbs ht hgot
  refine congrArg Host.Outcome.next (h.ends (decide_eq_true hlen) ?_)
  simp only [hrecv, ensure_of (decide_eq_true hfits), zeroField_of (hi := 24) hzero, State.needFlash, ensure_of hflash, State.mboxFlash_mine hmine]
  rfl

end Data

section Commit

variable {img sig : List Byte} {rt : Recovery} (h : Serving s r 0x12) (hlen : fieldAt r.bytes 2 2 = 0) (hrecv : s.boot.recv = some rt)
  (hwhole : rt.received.length = rt.length + sigLength) (himg : img = (rt.received.take rt.length).map (·.2))
  (hsig : sig = (rt.received.drop rt.length).map (·.2))
include h hlen hrecv hwhole himg hsig

theorem Serving.recoveryCommit_unsigned (hbad : imageSigned img sig = false) :
    exec (.recoveryCommit r) s = .next (s.answerMbox r (.fail .signatureInvalid 0) []) := by
  subst himg hsig
  refine congrArg Host.Outcome.next (h.refuses (decide_eq_true hlen) ?_)
  simp only [hrecv, ensure_of (decide_eq_true hwhole), ensure_not hbad]
  rfl

variable (hgood : imageSigned img sig = true) (hc : s.checkImage img = .ok ()) (hfloor : s.storeNat 2 ≤ fieldAt img 8 4)
  (hflash : s.boot.flashOk = true)
include hgood hc hfloor hflash

theorem Serving.recoveryCommit (hfree : s.boot.flashOp = none) (ht : t = s.flashErase (slotHeader 0) 65536) :
    exec (.recoveryCommit r) s = .next { t with boot := { t.boot with flashOp := some { cmd := none } } } := by
  subst himg hsig ht
  refine congrArg Host.Outcome.next (h.goesOn (decide_eq_true hlen) ?_)
  simp only [hrecv, ensure_of (decide_eq_true hwhole), ensure_of hgood, hc, ensure_of (decide_eq_true hfloor), State.needFlash, ensure_of hflash,
    State.mboxFlash_free hfree]
  rfl

theorem Serving.recoveryCommit_again (hmine : s.boot.flashOp = some { cmd := none }) (ht : t = s.flashWrite (slotHeader 0) (slotBytes
      (if slotHeaderOk (s.flashRead (slotHeader 1) 7924) then (s.slotSeq 1 + 1) % 2 ^ 32 else 1) img sig 0)) : exec (.recoveryCommit r) s =
    .next (({ t with boot := { t.boot with warmDue := true } } : State).flashEnd.answerMbox r (Ending.ok 0 0) []) := by
  subst himg hsig ht
  refine congrArg Host.Outcome.next (h.ends (decide_eq_true hlen) ?_)
  simp only [hrecv, ensure_of (decide_eq_true hwhole), ensure_of hgood, hc, ensure_of (decide_eq_true hfloor), State.needFlash, ensure_of hflash,
    State.mboxFlash_mine hmine]
  rfl

end Commit

end Flash

/-- Settles O27, operation by operation. -/
theorem mailboxOperationsComplete : Obligations.MailboxOperationsComplete := by
  unfold Obligations.MailboxOperationsComplete
  rintro s r len hbusy hserved rfl
  have serving {op : Nat} (hop : fieldAt r.bytes 0 2 = op) : Serving s r op := ⟨hbusy, hserved, hop⟩
  refine ⟨?nop, ?send, ?telemetry, ?read, ?write, ?profile, ?begin, ?data, ?commit⟩
  case nop => exact fun hop hlen => (serving hop).exec_mboxNop hlen
  case send =>
    rintro g seq t hop hlen hc hcount hseq rfl
    exact (serving hop).exec_sbSend hlen hc hcount hseq
  case telemetry => exact fun hop hlen hset => (serving hop).exec_mboxTelemetry hlen hset
  case read =>
    rintro k v hop hlen rfl hkey hread rfl
    exact (serving hop).exec_mboxConfigRead hlen hkey hread
  case write =>
    intro k v hop hlen hk hv hlength hc hseed
    refine ⟨?_, (serving hop).mboxConfigWrite_again hlen hk hv hlength hc hseed⟩
    rintro t hfree rfl
    exact (serving hop).mboxConfigWrite hlen hk hv hlength hc hseed hfree
  case profile => exact fun hop hlen hprofile => (serving hop).exec_mboxProfileSet hlen hprofile
  case begin =>
    exact fun hop hlen hlo hhi hsig hflash => ⟨fun _ hfree ht => (serving hop).recoveryBegin hlen hlo hhi hsig hflash hfree ht,
      (serving hop).recoveryBegin_again hlen hlo hhi hsig hflash⟩
  case data =>
    exact fun o bs rt hop hlen ho hbs hrecv hfits hzero hflash => ⟨(serving hop).recoveryData hlen ho hbs hrecv hfits hzero hflash,
      fun _ _ hmine ht hgot => (serving hop).recoveryData_again hlen ho hbs hrecv hfits hzero hflash hmine ht hgot⟩
  case commit =>
    exact fun img sig rt hop hlen hrecv hwhole himg hsig => ⟨(serving hop).recoveryCommit_unsigned hlen hrecv hwhole himg hsig,
      fun hgood hc hfloor hflash =>
        ⟨fun _ hfree ht => (serving hop).recoveryCommit hlen hrecv hwhole himg hsig hgood hc hfloor hflash hfree ht,
          fun _ hmine ht => (serving hop).recoveryCommit_again hlen hrecv hwhole himg hsig hgood hc hfloor hflash hmine ht⟩⟩

/-! ### The sideband and the TAP (R418, R436, R437) -/

section Sideband

variable {s : State} {m : MctpMessage}

/-- An MCTP message on a part that serves the sideband (R418, R436). -/
theorem exec_mctpRequest (hfactory : s.boot.factory = false) (hserved : s.mboxServed = true)
    (hawake : s.spare.state ≠ .standby ∨ s.power.reqIo = true) : exec (.mctpRequest m) s = .next (
      if ¬ s.eidMatches m.destEid ∨ m.mtype ∉ [0, 1, 0x7E] ∨ m.body.length < 2 then
        { s with power := { s.power with discarded := s.power.discarded.set 2 (s.power.discarded.getD 2 0 + 1) } }
      else if s.mbox.busy.isSome then ({ s with side := { s.side with busy := false, answer := none } } : State).sideBusy m
      else if m.mtype = 0 then ({ s with side := { s.side with busy := false, answer := none } } : State).mctpControl m.body
      else if m.mtype = 1 then ({ s with side := { s.side with busy := false, answer := none } } : State).pldm m.body
      else ({ s with side := { s.side with busy := false, answer := none } } : State).submitMbox { sideband := true, bytes := m.body }) := by
  show execMctpRequest m s = _
  unfold execMctpRequest
  rw [if_neg]
  rintro (hf | hs | ⟨hstandby, hio⟩)
  · exact Bool.false_ne_true (hfactory.symm.trans hf)
  · exact hs hserved
  · exact hawake.elim (· hstandby) hio

/-- Get Endpoint ID answers the part's own (R436). -/
theorem State.mctpControl_getEid {b : List Byte} (h : fieldAt b 1 1 = 2) : s.mctpControl b =
    s.sideAnswer 0 ([BitVec.ofNat 8 (fieldAt b 0 1 % 32), 2] ++ [0] ++ leBytes 1 s.side.eid ++ [0, 0]) := by
  simp only [State.mctpControl, h]
  rfl

end Sideband

/-! ### Flash timeouts and the service partition's restart (R370, R391) -/

section Restart

variable {s : State}

theorem exec_flashTimeout {op : FlashOp} {w : Nat × Nat} {c : Cmd} (hop : s.boot.flashOp = some op) (hw : op.cmd = some w)
    (hc : s.findCmd w.1 w.2 = some c) : exec .flashTimeout s = .next (if c.pkt.opcode = 0x0C06 then (s.flashEnd.finish c (.fail .timeout 64)).loseBank
      else (s.flashEnd.finish c (.fail .timeout 64)).loseSlot
        (if c.pkt.opcode = 0x0C03 then (s.flashEnd.finish c (.fail .timeout 64)).otherSlot else c.pkt.at 64 1)) := by
  have hfound : s.flashEnd.findCmd w.1 w.2 = some c := hc
  show execFlashTimeout s = _
  simp only [execFlashTimeout, hop, hw, hfound]

/-- The Proof core's load changes its overload flag, its refusals and restarts not (R395). -/
theorem State.proofLoad_restarts (s : State) : s.proofLoad.proof.restarts = s.proof.restarts := by
  unfold State.proofLoad
  dsimp only
  split_ifs
  · rw [logEvent_frame]
  · rw [logEvent_frame]
  · rfl

/-- What an answer of the mailbox leaves (R449). -/
theorem State.answerMbox_spec (s : State) (r : MboxRequest) (e : Ending) (body : List Byte) : (s.answerMbox r e body).proof.restarts = s.proof.restarts ∧
    (s.answerMbox r e body).boot = s.boot ∧ (s.answerMbox r e body).cmds = s.cmds ∧ (s.answerMbox r e body).mbox.busy = none := by
  have hload (t : State) : t.proofLoad.proof.restarts = t.proof.restarts ∧ t.proofLoad.boot = t.boot ∧ t.proofLoad.cmds = t.cmds ∧
      t.proofLoad.mbox = t.mbox := ⟨t.proofLoad_restarts, by rw [proofLoad_frame], by rw [proofLoad_frame], by rw [proofLoad_frame]⟩
  unfold State.answerMbox
  extract_lets out src u v
  split
  · obtain ⟨hrestarts, hboot, hcmds, hmbox⟩ := hload { u with mbox := { u.mbox with sideband := out } }
    exact ⟨hrestarts, hboot, hcmds, congrArg (·.busy) hmbox⟩
  · obtain ⟨hrestarts, hboot, hcmds, hmbox⟩ := hload { u with mbox := { u.mbox with response := out, done := true } }
    split
    · rw [raise_frame]
      exact ⟨hrestarts, hboot, hcmds, congrArg (·.busy) hmbox⟩
    · exact ⟨hrestarts, hboot, hcmds, congrArg (·.busy) hmbox⟩

/-- SERVICE_RESTART ends what holds a slot, drops the flash write and the request in service, and counts (R391). -/
theorem exec_serviceRestart (s : State) : ∃ t : State, exec .serviceRestart s = .next t ∧ t.proof.restarts = (s.proof.restarts + 1) % 2 ^ 64 ∧
    t.boot.flashOp = none ∧ t.mbox.busy = none ∧ t.cmds = s.cmds.map fun c =>
      if c.slot.isSome && (decide (c.phase = .running) || decide (c.phase = .admitted)) then
        { c with phase := .finished { status := .internal }, work := .none }
      else c := by
  refine ⟨_, rfl, ?_⟩
  rw [logEvent_frame]
  dsimp only
  cases hbusy : s.mbox.busy with
  | none => exact ⟨rfl, rfl, hbusy, rfl⟩
  | some r =>
    dsimp only
    obtain ⟨hrestarts, hboot, hcmds, hidle⟩ := State.answerMbox_spec { s with
      cmds := s.cmds.map fun c => if c.slot.isSome && (decide (c.phase = .running) || decide (c.phase = .admitted)) then
        { c with phase := .finished { status := .internal }, work := .none } else c
      boot := { s.boot with flashOp := none }
      proof := { s.proof with restarts := (s.proof.restarts + 1) % 2 ^ 64 } } r { status := .internal } []
    exact ⟨hrestarts, by rw [hboot], hidle, hcmds⟩

end Restart

/-- Settles O28, row by row. -/
theorem sideCommandsComplete : Obligations.SideCommandsComplete := by
  unfold Obligations.SideCommandsComplete
  refine ⟨?mctp, fun _ => rfl, ?timeout, ?idle, ?restart, ?tap⟩
  case mctp =>
    intro s m hfactory hserved hawake
    rw [exec_mctpRequest hfactory hserved hawake]
    refine ⟨fun hdrop => ?_, ?_⟩
    · rw [if_pos (by simpa using hdrop)]
    · rintro t rfl hmine hlong
      have htaken (hknown : m.mtype ∈ [0, 1, 0x7E]) : ¬ (¬ s.eidMatches m.destEid = true ∨ m.mtype ∉ [0, 1, 0x7E] ∨ m.body.length < 2) := by
        simp only [hmine, hknown, not_true_eq_false, false_or]
        omega
      refine ⟨fun hknown hbusy => ?_, fun hfree => ⟨fun htype => ?_, fun htype hcode => ?_, fun htype => ?_⟩⟩
      · rw [if_neg (htaken hknown), if_pos hbusy]
      all_goals rw [if_neg (htaken (by simp [htype])), if_neg (by simp [hfree])]
      · rw [if_neg (by simp [htype]), if_neg (by simp [htype])]
      · rw [if_pos htype, State.mctpControl_getEid hcode]
      · rw [if_neg (by simp [htype]), if_pos htype]
  case timeout => exact fun s op w c hop hw hc => exec_flashTimeout hop hw hc
  case idle =>
    intro s hnone
    show execFlashTimeout s = _
    simp only [execFlashTimeout, hnone]
  case restart =>
    intro s
    obtain ⟨t, hexec, hrestarts, hflash, hidle, hcmds⟩ := exec_serviceRestart s
    refine ⟨t, hexec, hrestarts, hflash, hidle, ?_⟩
    rw [hcmds, List.map_map]
    refine List.map_congr_left fun c _ => ?_
    simp only [Function.comp_apply, Bool.and_eq_true, Bool.or_eq_true, decide_eq_true_eq]
    split <;> rfl
  case tap =>
    intro s code
    refine ⟨_, rfl, rfl, rfl, fun hcode => if_pos hcode, fun hlo hhi => ?_, fun hcode => ?_⟩
    · simp [show ¬ code ≤ 2 by omega, hhi]
    · simp [show ¬ code ≤ 2 by omega, show ¬ code ≤ 5 by omega]

end Sys2Proof.Machine
end

section
/-! PROOFS. The fabric ports' rows (15_fabric_ports_topology.md R254 to R269): received frames, links, transit, pass-through and announcements. -/

namespace Sys2Proof.Machine

open Sys2Proof

/-! ### Received frames (R254) -/

section Received

variable {s : State} {p : Nat} {q : Port} {f : List Byte} (hq : s.port p = some q) (hmode : q.mode ≠ 0) (hup : q.up = true)
include hq hmode hup

/-- A frame that fails its FCS, is too long, or is for another address is counted and dropped. -/
theorem exec_frameReceived_dropped (h : crc32 (f.take (f.length - 4)) ≠ leNat (f.drop (f.length - 4)) ∨ q.maxFrame < f.length ∨
      (beNat (f.take 6) ≠ q.mac ∧ beNat (f.take 6) ≠ 2 ^ 48 - 1 ∧ beNat (f.take 6) / 2 ^ 32 ≠ 0x3333)) :
    exec (.frameReceived p f) s = .next ((s.portCount p 1 1).portCount p 2 1) := by
  have hserves : ¬ (q.mode = 0 ∨ ¬ q.up = true) := by simp [hmode, hup]
  show execFrameReceived p f s = _
  simp only [execFrameReceived, hq, if_neg hserves]
  by_cases hbad : crc32 (f.take (f.length - 4)) ≠ leNat (f.drop (f.length - 4)) ∨ q.maxFrame < f.length
  · rw [if_pos hbad]
  · obtain ⟨hmac, hcast, hmulti⟩ := (or_assoc.2 h).resolve_left hbad
    rw [if_neg hbad, if_pos ⟨hmac, hcast, fun hm => hmulti hm.1⟩]

variable {ty : Nat} {b : List Byte} (hfcs : crc32 (f.take (f.length - 4)) = leNat (f.drop (f.length - 4))) (hfits : f.length ≤ q.maxFrame)
  (hmine : beNat (f.take 6) = q.mac ∨ beNat (f.take 6) = 2 ^ 48 - 1) (hbody : etherBody q (f.take (f.length - 4)) = some (ty, b))
include hfcs hfits hmine hbody

theorem exec_frameReceived_arp {r : List Byte} (hty : ty = 0x0806) (hr : arpReply q b = some r) :
    exec (.frameReceived p f) s = .next ((s.portCount p 1 1).transmit p r) := by
  subst hty
  have hserves : ¬ (q.mode = 0 ∨ ¬ q.up = true) := by simp [hmode, hup]
  have hgood : ¬ (crc32 (f.take (f.length - 4)) ≠ leNat (f.drop (f.length - 4)) ∨ q.maxFrame < f.length) := by simp [hfcs, hfits]
  show execFrameReceived p f s = _
  simp only [execFrameReceived, hq, if_neg hserves, if_neg hgood, hbody, hr, if_true]
  rw [if_neg fun h => hmine.elim h.1 h.2.1]

theorem exec_frameReceived_udp (hty : ty ≠ 0x0806) (hport : udpDport q ty b = some s.fabric.udpPort) :
    exec (.frameReceived p f) s = .next (s.portCount p 1 1) := by
  have hserves : ¬ (q.mode = 0 ∨ ¬ q.up = true) := by simp [hmode, hup]
  have hgood : ¬ (crc32 (f.take (f.length - 4)) ≠ leNat (f.drop (f.length - 4)) ∨ q.maxFrame < f.length) := by simp [hfcs, hfits]
  show execFrameReceived p f s = _
  simp only [execFrameReceived, hq, if_neg hserves, if_neg hgood, hbody, if_neg hty, hport]
  rw [if_neg fun h => hmine.elim h.1 h.2.1, if_pos (.inl rfl)]

end Received

/-! ### Links (R255) -/

section Links

variable {s : State} {p : Nat} {q : Port} (hq : s.port p = some q)
include hq

theorem exec_linkUp : exec (.linkUp p) s = .next (if q.mode = 0 ∨ q.up ∨ s.power.stopped then s
    else (s.updPort p fun q => { q with up := true }).logEvent 0x0501 13 p noContext 0 1) := by
  show execLinkUp p s = _
  simp only [execLinkUp, hq]

theorem exec_linkDown : exec (.linkDown p) s = .next (if q.up then
    ((s.updPort p fun q => { q with up := false }).portCount p 3 1).logEvent 0x0501 13 p noContext 0 0 else s) := by
  show execLinkDown p s = _
  simp only [execLinkDown, hq]

end Links

/-! ### Transit (R258, R259) -/

section Transit

variable {s t : State} {p now : Nat} {m pkt f : List Byte} {o : Nat} {e : NodeEntry} (hm : s.activeMap = some m) (hdirect : fieldAt m 6 1 = 1)
  (hother : fieldAt pkt 4 2 ≠ s.selfNode) (hup : s.portUp p = true) (hlong : 40 ≤ pkt.length)
include hm hdirect hother hup hlong

omit hm in
/-- A packet for another node in a DIRECT topology is transit. -/
theorem State.not_local : ¬ (fieldAt m 6 1 ≠ 1 ∨ fieldAt pkt 4 2 = s.selfNode ∨ ¬ s.portUp p = true ∨ pkt.length < 40) := by
  simp [hdirect, hother, hup, hlong]

theorem State.transit_spent (hhops : fieldAt pkt 2 2 % 4096 = 4095) : s.transit p pkt now = s.portCount p 2 1 := by
  simp only [State.transit, hm, if_neg (State.not_local hdirect hother hup hlong), if_pos hhops]

variable (hhops : fieldAt pkt 2 2 % 4096 ≠ 4095)
include hhops

/-- What is wrapped already goes on along its ring (R259). -/
theorem State.transit_wrapped (hwrap : bitOf (fieldAt pkt 1 1) 7 = true) (ho : s.ringMate p = some o) (hoUp : s.portUp o = true) :
    s.transit p pkt now = s.sendTransit o (s.entryVia o (fieldAt pkt 4 2)) (bitsOf (fieldAt pkt 1 1) 3 2)
      (packetWith pkt true (fieldAt pkt 2 2 % 4096 + 1)) now := by
  simp only [State.transit, hm, if_neg (State.not_local hdirect hother hup hlong), if_neg hhops, hwrap, ho, hoUp, if_true]

variable (hplain : bitOf (fieldAt pkt 1 1) 7 = false) (he : s.nodeOf (fieldAt pkt 4 2) = some e)
include hplain he

theorem State.transit_onward {os : List Nat} (ho : (s.upPorts e.mask).filter (· ≠ p) = o :: os) : s.transit p pkt now =
    s.sendTransit o e (bitsOf (fieldAt pkt 1 1) 3 2) (packetWith pkt false (fieldAt pkt 2 2 % 4096 + 1)) now := by
  simp only [State.transit, hm, if_neg (State.not_local hdirect hother hup hlong), if_neg hhops, hplain, he, ho, Bool.false_eq_true, if_false]

/-- With no port up towards its node a packet turns back (R259). -/
theorem State.transit_back (hnone : s.upPorts e.mask = []) : s.transit p pkt now = s.sendTransit p (s.entryVia p (fieldAt pkt 4 2))
    (bitsOf (fieldAt pkt 1 1) 3 2) (packetWith pkt true (fieldAt pkt 2 2 % 4096 + 1)) now := by
  simp only [State.transit, hm, if_neg (State.not_local hdirect hother hup hlong), if_neg hhops, hplain, he, hnone, Bool.false_eq_true, if_false,
    List.filter_nil, List.isEmpty_nil, if_true]

end Transit

/-- A transit packet waits at its port, and what waits there begins where its class may (R258). -/
theorem State.sendTransit_eq {s t : State} {p cls : Nat} {e : NodeEntry} {pkt f : List Byte} (h : s.frameFor p e cls pkt = (f, t)) (now : Nat) :
    s.sendTransit p e cls pkt now = (t.updPort p fun q => { q with waiting := q.waiting ++ [(cls, f)] }).portLane p now := by
  rw [State.sendTransit, h]

/-! ### Pass-through and announcements (R268, R269) -/

theorem exec_passThroughFrame {s : State} {p : Nat} {m f : List Byte} (hm : s.activeMap = some m) (hpass : (mapPort m p).1 = 6)
    (hup : s.portUp p = true) (hpartner : s.portUp (mapPort m p).2.2.1 = true) (hspare : s.spare.state = .standby ∨ s.spare.state = .awake) :
    exec (.passThroughFrame p f) s = .next (if crc32 (f.take (f.length - 4)) ≠ leNat (f.drop (f.length - 4)) then
        (s.portCount p 1 1).portCount p 2 1
      else (s.portCount p 1 1).transmit (mapPort m p).2.2.1 (f.take (f.length - 4))) := by
  have hopen : ¬ ((mapPort m p).1 ≠ 6 ∨ ¬ s.portUp p = true ∨ ¬ s.portUp (mapPort m p).2.2.1 = true) := by simp [hpass, hup, hpartner]
  show execPassThroughFrame p f s = _
  simp only [execPassThroughFrame, State.passThrough, hm, hspare, if_true, if_neg hopen]

/-- t differs from s in the fabric alone, whose announcements due are as they were. -/
def OnlyFabric (s t : State) : Prop := t = { s with fabric := t.fabric } ∧ t.fabric.announce = s.fabric.announce

theorem OnlyFabric.refl (s : State) : OnlyFabric s s := ⟨rfl, rfl⟩

theorem OnlyFabric.trans {s t u : State} (h : OnlyFabric s t) (h' : OnlyFabric t u) : OnlyFabric s u := by
  obtain ⟨hst, ha⟩ := h
  obtain ⟨htu, hb⟩ := h'
  refine ⟨?_, hb.trans ha⟩
  rw [htu, hst]

theorem OnlyFabric.transmit (s : State) (p : Nat) (bs : List Byte) : OnlyFabric s (s.transmit p bs) := ⟨rfl, rfl⟩

theorem OnlyFabric.foldl {α : Type} {f : State → α → State} (hf : ∀ s a, OnlyFabric s (f s a)) (l : List α) (s : State) :
    OnlyFabric s (l.foldl f s) := by
  induction l generalizing s with
  | nil => exact OnlyFabric.refl s
  | cons a l ih => exact (hf s a).trans (ih _)

/-- An announcement leaves everything but what it sends and the number of those left (R269). -/
theorem exec_promotionAnnouncement {s : State} (h : 0 < s.fabric.announce) : ∃ t : State, exec .promotionAnnouncement s = .next t ∧
    t.fabric.announce = s.fabric.announce - 1 ∧ t = { s with fabric := t.fabric } := by
  have hround : ∀ u, u = (List.range 8).foldl (fun (s : State) p => match s.port p with
      | some q => if q.up then (announcements q).foldl (fun s f => s.transmit p f) s else s
      | none => s) s → OnlyFabric s u := by
    rintro u rfl
    refine OnlyFabric.foldl (fun s p => ?_) _ s
    split
    · split
      · exact OnlyFabric.foldl (fun s f => OnlyFabric.transmit s p f) _ s
      · exact OnlyFabric.refl s
    · exact OnlyFabric.refl s
  show ∃ t, execPromotionAnnouncement s = .next t ∧ _
  unfold execPromotionAnnouncement
  rw [if_neg h.ne']
  extract_lets u
  obtain ⟨hu, ha⟩ := hround u rfl
  refine ⟨_, rfl, by rw [ha], ?_⟩
  rw [hu]

/-- Settles O35, row by row. -/
theorem fabricRowsComplete : Obligations.FabricRowsComplete := by
  unfold Obligations.FabricRowsComplete
  refine ⟨?received, ?links, ?transit, ?pass, ?announce⟩
  case received =>
    exact fun s p q f hq hmode hup => ⟨exec_frameReceived_dropped hq hmode hup, fun ty b hfcs hfits hmine hbody =>
      ⟨fun r hty hr => exec_frameReceived_arp hq hmode hup hfcs hfits hmine hbody hty hr,
        exec_frameReceived_udp hq hmode hup hfcs hfits hmine hbody⟩⟩
  case links =>
    intro s p q hq
    rw [exec_linkUp hq, exec_linkDown hq]
    refine ⟨fun hmode hdown hrun => ?_, fun hup => ⟨?_, ?_⟩, fun hdown => ?_⟩
    · rw [if_neg (by simp [hmode, hdown, hrun])]
    · rw [if_pos (.inr (.inl hup))]
    · rw [if_pos hup]
    · rw [if_neg (Bool.eq_false_iff.1 hdown)]
  case transit =>
    rintro s p dest hops cls now m pkt hm hdirect rfl hother hup hlong rfl rfl
    have hexec : exec (.transitForward p { bytes := pkt, now := now }) s = .next (s.transit p pkt now) := rfl
    rw [hexec]
    refine ⟨fun hhops => ?_, fun o f t hhops hwrap ho hoUp hf => ?_, fun e o os f t hhops hplain he ho hf => ?_,
      fun e f t hhops hplain he hnone hf => ?_⟩
    · rw [State.transit_spent hm hdirect hother hup hlong hhops]
    · rw [State.transit_wrapped hm hdirect hother hup hlong hhops hwrap ho hoUp, State.sendTransit_eq hf]
    · rw [State.transit_onward hm hdirect hother hup hlong hhops hplain he ho, State.sendTransit_eq hf]
    · rw [State.transit_back hm hdirect hother hup hlong hhops hplain he hnone, State.sendTransit_eq hf]
  case pass =>
    intro s p m f hm hpass hup hpartner hspare
    rw [exec_passThroughFrame hm hpass hup hpartner hspare]
    exact ⟨fun hfcs => by rw [if_neg (not_not.2 hfcs)], fun hfcs => by rw [if_pos hfcs]⟩
  case announce => exact fun s => ⟨fun h => congrArg Host.Outcome.next (if_pos h), exec_promotionAnnouncement⟩

end Sys2Proof.Machine
end

section
/-! PROOFS. The Stylus packet and timer events (16_stylus_transport.md R272 to R286). -/

namespace Sys2Proof.Machine

open Sys2Proof

/-! ### Reception (R272, R280, R286) -/

section Reception

variable {s t : State} {port k c : Nat} {q : Qp} {pkt : List Byte} (h : RxPasses s port k q pkt)
include h

theorem RxPasses.withFree (n : Nat) : RxPasses { s with free := n } port k q pkt :=
  ⟨h.up, h.long, h.version, h.known, h.self, h.class_, h.reserved, h.size, h.dest, h.pair, h.chip, h.none, h.state, h.plain, h.flag, h.node, h.peer⟩

/-- A packet that passes the checks reaches its queue pair, whose state is used. -/
theorem RxPasses.rxArrive (now : Nat) : s.rxArrive port true pkt now = (s.useQp k).rxPacket k port pkt (s.strk.elapsed + now) := by
  have hup : ¬ ¬ s.portUp port = true := not_not.2 h.up
  have hform : ¬ (¬ True ∨ pkt.length < 40 ∨ fieldAt pkt 0 1 / 16 ≠ 1 ∨ 2 < fieldAt pkt 0 1 % 16) := by
    simp [h.long, h.version, h.known]
  have hhead : ¬ (bitsOf (fieldAt pkt 1 1) 3 2 = 3 ∨ fieldAt pkt 1 1 % 4 ≠ 0 ∨ 4096 ≤ fieldAt pkt 2 2) := by
    simp [h.class_, h.reserved, h.size]
  have hself : ¬ fieldAt pkt 4 2 ≠ s.selfNode := not_not.2 h.self
  simp only [State.rxArrive, if_neg hup, if_neg hform, if_neg hself, if_neg hhead, h.dest, h.pair, h.chip, h.none, and_self, if_true]

/-- On its queue pair a packet that passes the checks is in no case that drops it. -/
theorem RxPasses.mine : ¬ (q.state = .reset ∨ q.state = .keyed ∨ bitOf (fieldAt pkt 1 1) 6 ≠ q.encrypt ∨ fieldAt pkt 6 2 ≠ q.peerNode ∨
    fieldAt pkt 10 2 ≠ q.peerQp) := by
  simp [h.state, h.plain, h.flag, h.node, h.peer]

theorem RxPasses.live : q.state ≠ .error := by simp [h.state]

theorem RxPasses.opened (ack : Bool) (ext : Nat) : q.opened ack ext pkt = some (pkt.drop 40) := by simp [Qp.opened, h.plain]

theorem RxPasses.rxPacket_ack (ht : t.qp k = some q) (hty : fieldAt pkt 0 1 % 16 = 2) (at' : Nat) :
    t.rxPacket k port pkt at' = (t.updQp k fun q => { q with authFails := 0 }).takeAck k port q pkt at' := by
  simp only [State.rxPacket, ht, if_neg h.mine, if_neg h.live, h.opened, if_pos hty]

/-- A DATA or INK packet is judged by its PSN. -/
theorem RxPasses.rxPacket_psn (ht : t.qp k = some q) (hty : fieldAt pkt 0 1 % 16 ≠ 2) (hext : q.extCount q.cum (fieldAt pkt 12 3) = some c)
    (at' : Nat) : t.rxPacket k port pkt at' =
      if c < q.cum ∨ c ∈ q.received then
        (t.updQp k fun q => { q with authFails := 0 }).updQp k fun q => { q with echo := c }.ackNow 0 0 0
      else if q.cum + q.window ≤ c then t.portCount port 2 1
      else if fieldAt pkt 0 1 % 16 = 1 then (t.updQp k fun q => { q with authFails := 0 }).takeInk k port q c pkt
      else (t.updQp k fun q => { q with authFails := 0 }).takeData k port q c pkt (pkt.drop 40) := by
  simp only [State.rxPacket, ht, if_neg h.mine, if_neg h.live, h.opened, if_neg hty, hext]

/-- One that is new and inside the window goes to the queue pair by its type. -/
theorem RxPasses.rxPacket_new (ht : t.qp k = some q) (hty : fieldAt pkt 0 1 % 16 ≠ 2) (hext : q.extCount q.cum (fieldAt pkt 12 3) = some c)
    (hcum : q.cum ≤ c) (hnew : c ∉ q.received) (hwindow : c < q.cum + q.window) (at' : Nat) : t.rxPacket k port pkt at' =
      if fieldAt pkt 0 1 % 16 = 1 then (t.updQp k fun q => { q with authFails := 0 }).takeInk k port q c pkt
      else (t.updQp k fun q => { q with authFails := 0 }).takeData k port q c pkt (pkt.drop 40) := by
  have hfresh : ¬ (c < q.cum ∨ c ∈ q.received) := by simp [hcum, hnew]
  rw [h.rxPacket_psn ht hty hext, if_neg hfresh, if_neg hwindow.not_ge]

theorem RxPasses.rxPacket_old (ht : t.qp k = some q) (hty : fieldAt pkt 0 1 % 16 ≠ 2) (hext : q.extCount q.cum (fieldAt pkt 12 3) = some c)
    (hold : c < q.cum) (at' : Nat) : t.rxPacket k port pkt at' =
      (t.updQp k fun q => { q with authFails := 0 }).updQp k fun q => { q with echo := c }.ackNow 0 0 0 := by
  rw [h.rxPacket_psn ht hty hext, if_pos (.inl hold)]

/-- The state of the queue pair, used. -/
theorem RxPasses.qp_useQp : (s.useQp k).qp k = some q := ((s.useQp_brings k).qp k).trans h.pair

end Reception

/-! ### The rows that present a packet (R272, R277, R279, R281) -/

/-- A row that presents a DATA packet draws the instant of its arrival. -/
theorem exec_dataPacketReceived {s : State} {pkt : List Byte} (h : packetType pkt 0 = true) (port : Nat) (ok : Bool) :
    exec (.dataPacketReceived port ok pkt) s = .next (({ s with free := s.free + 1 } : State).rxArrive port ok pkt s.drawNs.1) := by
  show execDataPacketReceived port ok pkt s = _
  rw [execDataPacketReceived, if_pos h]
  rfl

theorem exec_inkPacketReceived {s : State} {pkt : List Byte} (h : fieldAt pkt 0 1 % 16 = 1) (port : Nat) (ok : Bool) :
    exec (.inkPacketReceived port ok pkt) s = .next (({ s with free := s.free + 1 } : State).rxArrive port ok pkt s.drawNs.1) := by
  show execInkPacketReceived port ok pkt s = _
  rw [execInkPacketReceived, if_pos (show packetType pkt 1 = true from decide_eq_true h)]
  rfl

theorem exec_ackReceived {s : State} {pkt : List Byte} (h : fieldAt pkt 0 1 % 16 = 2) (port now : Nat) (ok : Bool) :
    exec (.ackReceived port ok pkt now) s = .next (s.rxArrive port ok pkt now) := by
  show execAckReceived port ok pkt now s = _
  rw [execAckReceived, if_pos (show packetType pkt 2 = true from decide_eq_true h)]

/-- A packet that fails its checksum is counted as dropped. -/
theorem State.rxArrive_corrupt {s : State} {port : Nat} (hup : s.portUp port = true) (pkt : List Byte) (now : Nat) :
    s.rxArrive port false pkt now = s.portCount port 2 1 := by
  simp [State.rxArrive, hup]

/-! ### The states of the queue pairs (R275) -/

/-- t's queue pairs are in the states in which s's are. -/
def SameQpStates (s t : State) : Prop := ∀ k, (t.qp k).map (·.state) = (s.qp k).map (·.state)

theorem SameQpStates.refl (s : State) : SameQpStates s s := fun _ => rfl

theorem SameQpStates.trans {s t u : State} (h : SameQpStates s t) (h' : SameQpStates t u) : SameQpStates s u := fun k => (h' k).trans (h k)

theorem SameQpStates.of_qps {s t : State} (h : t.stylus.qps = s.stylus.qps) : SameQpStates s t := fun k => by rw [State.qp, State.qp, h]

theorem SameQpStates.foldl {α : Type} {f : State → α → State} (hf : ∀ s a, SameQpStates s (f s a)) (l : List α) (s : State) :
    SameQpStates s (l.foldl f s) :=
  foldl_related SameQpStates.refl SameQpStates.trans id hf l s

theorem Stores.sameQpStates {s t : State} (h : Stores s t) : SameQpStates s t := by
  obtain ⟨_, _, rfl⟩ := h
  exact .refl s

theorem State.updQp_sameQpStates {f : Qp → Qp} (hf : ∀ q, (f q).state = q.state) (s : State) (k : Nat) : SameQpStates s (s.updQp k f) :=
  fun j => map_get_upd hf k j s.stylus.qps

theorem State.logEvent_sameQpStates (s : State) (a b c d e f : Nat) : SameQpStates s (s.logEvent a b c d e f) :=
  .of_qps (by rw [logEvent_frame])

/-- A message that the part posts on a held queue pair changes no state. -/
theorem State.postHeld_sameQpStates (s : State) (k : Nat) (cmd : Option (Nat × Nat)) (tag : Nat) (data : List Byte) :
    SameQpStates s (s.postHeld k cmd tag data) := by
  unfold State.postHeld State.acceptSend
  refine State.updQp_sameQpStates ?_ s k
  exact fun _ => rfl

theorem State.sendAbort_sameQpStates (s : State) (n step attempt : Nat) (rec : Verdict) (skip : Option Nat) :
    SameQpStates s (s.sendAbort n step attempt rec skip) := by
  unfold State.sendAbort
  split
  · exact .refl s
  · refine SameQpStates.foldl (fun s e => SameQpStates.foldl (fun s k => ?_) _ s) _ s
    split
    · exact .refl s
    · exact s.postHeld_sameQpStates _ _ _ _

/-- A step that aborts ends commands, drops buckets and posts records: no queue pair changes its state. -/
theorem State.stepAbort_sameQpStates (s : State) (n step : Nat) (e : Ending) (rec : Verdict) (group : Nat) (skip : Option Nat) :
    SameQpStates s (s.stepAbort n step e rec group skip) := by
  unfold State.stepAbort
  split
  · exact .refl s
  · extract_lets x open' s1 s2 s3 s4 s5 s6
    have hended : SameQpStates s s1 := by
      refine SameQpStates.foldl (fun t b => ?_) _ s
      split
      · split
        · exact .refl t
        · exact .refl t
        · exact .of_qps rfl
      · exact .refl t
    have hcleared : SameQpStates s1 s4 := .of_qps rfl
    have hledger : SameQpStates s4 s5 := by
      dsimp only [s5]
      split
      · split
        · exact (s4.vwrite_stores _ _ _ _).sameQpStates
        · exact .refl s4
      · exact .refl s4
    exact (((hended.trans hcleared).trans hledger).trans (s5.logEvent_sameQpStates _ _ _ _ _ _)).trans (s6.sendAbort_sameQpStates _ _ _ _ _)

theorem State.xhPeerLost_sameQpStates (s : State) (n k : Nat) : SameQpStates s (s.xhPeerLost n k) := by
  unfold State.xhPeerLost
  split
  · exact .refl s
  · exact SameQpStates.foldl (fun t step => t.stepAbort_sameQpStates _ _ _ _ _ _) _ s

/-- A queue pair that enters ERROR is in ERROR when all that it held has been ended. -/
theorem State.qpError_state {s : State} {k : Nat} {q : Qp} (hq : s.qp k = some q) (hlive : q.state ≠ .error) (status psn : Nat) :
    ((s.qpError k status psn).qp k).map (·.state) = some .error := by
  unfold State.qpError
  split
  · next hnone => exact absurd (hq.symm.trans hnone) (by simp)
  next q' hq' =>
  obtain rfl : q = q' := Option.some.inj (hq.symm.trans hq')
  rw [if_neg hlive]
  extract_lets s1 holders s2 s3 s4 sp s5
  have hposts : SameQpStates s s2 := by
    refine (s.logEvent_sameQpStates _ _ _ _ _ _).trans (SameQpStates.foldl (fun t w => ?_) _ s1)
    exact .of_qps rfl
  have hholders : SameQpStates s3 s4 := by
    refine SameQpStates.foldl (fun t c => ?_) _ s3
    split
    · exact .of_qps rfl
    · exact .of_qps rfl
  have hend : SameQpStates s3 (s5.xhPeerLost q.owner k).settleSends :=
    ((hholders.trans (.of_qps rfl)).trans (s5.xhPeerLost_sameQpStates _ _)).trans (.of_qps rfl)
  have herror : (s3.qp k).map (·.state) = some .error := by
    obtain ⟨q2, hq2, -⟩ := Option.map_eq_some_iff.1 ((hposts k).trans (congrArg _ hq))
    rw [State.qp_updQp_self, hq2]
    rfl
  exact (hend k).trans herror

/-! ### Timers (R277, R280, R281, R285) -/

section Timers

variable {s : State} {k : Nat} {q : Qp} (hq : s.qp k = some q)
include hq

theorem exec_ackTimer (h : 0 < q.sinceAck) : exec (.ackTimer k) s = .next (s.updQp k fun q => q.ackNow 0 0 0) := by
  show execAckTimer k s = _
  simp only [execAckTimer, hq, if_pos h]

/-- A retransmission timeout with a packet outstanding, whose request has not met RNR, counts as an expiry. -/
theorem exec_retransmitTimeout (hout : q.unacked.all (·.acked) = false) (hrnr : ((q.oldestReq).map (·.rnr)).getD false = false) :
    exec (.retransmitTimeout k) s = .next
      (if q.expiries + 1 = 16 then ((s.bringQp k).qpError k (Status.peerLost).code q.oldest).failEvent q.peerNode 0
      else (s.bringQp k).updQp k fun q => { q with expiries := q.expiries + 1, rto := min (2 * q.rto) 64000 }.resendOldest) := by
  show execRetransmitTimeout k s = _
  simp only [execRetransmitTimeout, hq, hout, hrnr, Bool.false_eq_true, or_self, if_false]

theorem State.failEvent_qpError_state (hlive : q.state ≠ .error) (status psn node cause : Nat) :
    ((((s.bringQp k).qpError k status psn).failEvent node cause).qp k).map (·.state) = some .error := by
  have herror := State.qpError_state (((s.bringQp_brings k).qp k).trans hq) hlive status psn
  rw [failEvent_frame]
  exact herror

theorem exec_rnrResend {r : SendReq} (hr : q.oldestReq = some r) (hrnr : r.rnr = true) :
    exec (.rnrResend k) s = .next (s.updQp k fun q => (q.setReq { r with rnr := false }).resendOldest) := by
  show execRnrResend k s = _
  simp only [execRnrResend, hq, hr, if_pos hrnr]

/-- A send that has met RNR for its WAIT_LIMIT ends, and its packets stay for no command. -/
theorem exec_rnrTimeout {since : Nat} {r : SendReq} {w : Nat × Nat} {c : Cmd} {x : Queue} (hr : q.sends.find? (·.rnr) = some r) (hw : r.cmd = some w)
    (hc : s.findCmd w.1 w.2 = some c) (hsince : rnrSince c r = some since) (hx : Kv.get c.queue s.queues = some x)
    (hlate : since + x.waitLimit ≤ s.strk.now) (hop : c.pkt.opcode ≠ 0x0903) : exec (.rnrTimeout k) s = .next
      ((s.updQp k fun q => { q with sends := q.sends.map fun x => if x.cmd = r.cmd then { x with cmd := none } else x }).finish c
        (.fail .timeout 72)) := by
  show execRnrTimeout k s = _
  simp only [execRnrTimeout, hq, hr, Option.bind_some, hw, hc, Option.map_some, hsince, hx, if_neg hlate.not_gt, if_neg hop]

/-- The state of a queue pair for which no packet and no post waits is fetched. -/
theorem exec_qpStateFetched (hchip : s.onChip k = false) (hmiss : (s.stylus.miss.filter fun m => decide (m.1 = k)) = [])
    (hposts : ∀ c ∈ s.cmds, ¬ (c.phase = .running ∧ c.work = .counts [1] ∧ c.postsTo k = true)) : exec (.qpStateFetched k) s =
      .next { s.bringQp k with stylus := { (s.bringQp k).stylus with miss := (s.bringQp k).stylus.miss.filter fun m => m.1 ≠ k } } := by
  have hnone : ((s.bringQp k).cmds.filter fun c => decide (c.phase = .running) && decide (c.work = .counts [1]) && c.postsTo k) = [] := by
    rw [(s.bringQp_brings k).cmds, List.filter_eq_nil_iff]
    intro c hc
    simpa [and_assoc] using hposts c hc
  show execQpStateFetched k s = _
  simp only [execQpStateFetched, hq, hchip, hmiss, hnone, Bool.false_eq_true, false_and, if_false, List.mergeSort_nil, List.foldl_nil]

end Timers

theorem State.onChip_useQp (s : State) (k : Nat) : (s.useQp k).onChip k = true := by
  unfold State.useQp
  dsimp only
  split
  · simp [State.onChip]
  · unfold State.storeQp
    dsimp only [State.draw]
    obtain ⟨_, _, h⟩ := (State.backingLines_stores _ _).trans (State.physWrite_stores _ _ _)
    rw [h]
    simp [State.onChip]

theorem State.onChip_bringQp (s : State) (k : Nat) : (s.bringQp k).onChip k = true := by
  unfold State.bringQp
  split
  · exact s.onChip_useQp k
  · obtain ⟨_, _, h⟩ := (s.useQp k).backingLines_stores k
    rw [h]
    exact s.onChip_useQp k

/-- PACKET_SEND with an ACK due whose class may begin now sends the oldest one, and the transit packets behind it. -/
theorem exec_packetSend_ack {s : State} {k now flags sp st : Nat} {q : Qp} {e : NodeEntry} {port : Nat × Bool} {rest : List (Nat × Nat × Nat)}
    {pkt : List Byte} (hq : s.qp k = some q) (hchip : s.onChip k = true) (hnext : q.nextTx = some .ack) (he : s.nodeOf q.peerNode = some e)
    (hport : s.txPort k q .ack = some port) (hplain : port.2 = false) (hacks : q.acks = (flags, sp, st) :: rest)
    (hpkt : pkt = sealPacket q k true q.ackSeq (ackHeader q s.selfNode k flags sp st) [])
    (hbegin : s.mayBegin port.1 q.cls (s.frameBytes port.1 e pkt) now (s.queuedAt k port.1) = true) :
    exec (.packetSend k now) s = .next ((((s.useQp k).sendPacket port.1 e q.cls pkt).updQp k fun q =>
      { q with acks := rest, ackSeq := (q.ackSeq + 1) % 2 ^ 64 }).portLane port.1 (now + s.frameTime port.1 (s.frameBytes port.1 e pkt))) := by
  subst hpkt
  show execPacketSend k now s = _
  simp only [execPacketSend, hq, hchip, hnext, he, hport, State.sendAck, hacks, State.launch, hplain, Bool.false_eq_true, if_false, not_true, hbegin,
    if_true]

/-- Settles O16, row by row; the state of a queue pair that enters ERROR is followed through the ends of all that it held. -/
theorem stylusEventsComplete : Obligations.StylusEventsComplete := by
  unfold Obligations.StylusEventsComplete
  refine ⟨?data, ?corrupt, ?ink, ?ack, ?ackTimer, ?retransmit, ?rnrResend, ?rnrTimeout, ?fetched, ?send⟩
  case data =>
    intro s port k c q pkt h hty hzero hext
    have hdata : fieldAt pkt 0 1 % 16 ≠ 2 := by simp [hzero]
    have hfree := h.withFree (s.free + 1)
    refine ⟨fun hcum hnew hwindow => ?_, fun hold => ?_⟩
    · rw [exec_dataPacketReceived hty, hfree.rxArrive, hfree.rxPacket_new hfree.qp_useQp hdata hext hcum hnew hwindow, hzero]
      rfl
    · rw [exec_dataPacketReceived hty, hfree.rxArrive, hfree.rxPacket_old hfree.qp_useQp hdata hext hold]
  case corrupt =>
    intro s port pkt hup hty
    have hfree : ({ s with free := s.free + 1 } : State).portUp port = true := hup
    rw [exec_dataPacketReceived hty, State.rxArrive_corrupt hfree]
  case ink =>
    intro s port k c q pkt h hone hext hcum hnew hwindow
    have hink : fieldAt pkt 0 1 % 16 ≠ 2 := by simp [hone]
    have hfree := h.withFree (s.free + 1)
    rw [exec_inkPacketReceived hone, hfree.rxArrive, hfree.rxPacket_new hfree.qp_useQp hink hext hcum hnew hwindow, if_pos hone]
  case ack =>
    intro s port k now q pkt h htwo
    rw [exec_ackReceived htwo, h.rxArrive, h.rxPacket_ack h.qp_useQp htwo]
  case ackTimer => exact fun _ _ _ hq h => exec_ackTimer hq h
  case retransmit =>
    intro s k q hq hout hrnr
    refine ⟨fun hcount => ?_, fun hcount hlive => ?_⟩
    · rw [exec_retransmitTimeout hq hout hrnr, if_neg hcount]
    · have hexec := exec_retransmitTimeout hq hout hrnr
      rw [if_pos hcount] at hexec
      exact ⟨_, hexec, State.failEvent_qpError_state hq hlive _ _ _ _⟩
  case rnrResend => exact fun _ _ _ _ hq hr hrnr => exec_rnrResend hq hr hrnr
  case rnrTimeout =>
    intro s k since q r w c x hq hr hw hc hsince hx hlate hop
    exact ⟨_, exec_rnrTimeout hq hr hw hc hsince hx hlate hop, rfl, rfl⟩
  case fetched =>
    intro s k q hq hchip hmiss hposts
    have hbrings := s.bringQp_brings k
    refine ⟨_, exec_qpStateFetched hq hchip hmiss hposts, s.onChip_bringQp k, ?_, hbrings.cmds, rfl⟩
    obtain ⟨_, _, _, _, h⟩ := hbrings
    rw [h]
  case send =>
    intro s k now flags sp st q e port rest hq hchip hnext he hport hplain hacks pkt hpkt hbegin
    exact exec_packetSend_ack hq hchip hnext he hport hplain hacks hpkt hbegin

end Sys2Proof.Machine
end

section
/-! PROOFS. The events of the gradient reduction (17_crosshatch_gradient_reduction.md R293, R299 to R304): buckets, segments, records, deadlines. -/

namespace Sys2Proof.Machine

open Sys2Proof

/-! ### BUCKET_START (R300) -/

theorem State.ledgerFlag_stores (s : State) (n step mask : Nat) : Stores s (s.ledgerFlag n step mask) := by
  unfold State.ledgerFlag
  split
  · split
    · exact s.vwrite_stores _ _ _ _
    · exact .refl s
  · exact .refl s

/-- The ledger of a context after an ITUSK bucket of an open step has started: it holds the bucket's ring (R308). -/
def Ledger.noteRing (b : Bucket) (g : Nat) (l : Ledger) : Ledger :=
  let ring := leBytes 2 b.members.length ++ leBytes 1 b.fanout ++ zeros 5 ++ b.members.flatMap (leBytes 2 ·)
  let w := l.workOf b.step
  if b.step ∈ l.opened then
    l.setWork { w with rings := Kv.set g (ring ++ zeros (roundUp (2 * b.members.length) 8 - 2 * b.members.length)) w.rings }
  else l

section Start

variable {s s1 : State} {n g : Nat} {b : Bucket} {j : XhJob}
  (hb : (s.buckets.filter fun b => decide (b.context = n) && decide (b.group = g)).find? (fun b => !b.started) = some b)
  (hfew : ((s.buckets.filter fun b => decide (b.context = n) && decide (b.group = g)).filter (·.started)).length < 8)
  (hj : s.job b = some j) (hrun : j.c.phase = .running) (hwait : j.c.hostWait = none) (hhost : s.hostBlocked j.v j.src.ranges = false)
  (htouch : s.xhTouch j false b.body = .ok s1)
include hb hfew hj hrun hwait hhost htouch

/-- The oldest waiting bucket of a BFX32 group starts with its agreed exponent, which the ledger records. -/
theorem exec_bucketStart_bfx (hmode : j.g.mode ≠ 1) {b' : Bucket}
    (hb' : b' = { b with started := true, xp := s1.agreedXp j.v b.step g b.bucket, amax := s1.ownAmax j }) :
    exec (.bucketStart n g) s = .next (((s1.recordXp n b.step g b.bucket b'.xp).setBucket b').sendOwn { j with b := b' }) := by
  subst hb'
  show execBucketStart n g s = _
  simp only [execBucketStart, hb, if_neg hfew.not_ge, hj, hrun, hwait, hhost, htouch, XhJob.itusk, hmode, decide_false, Bool.false_eq_true, if_false,
    ne_eq, not_true, Option.isSome_none, or_self]

/-- That of an ITUSK group starts with no exponent; the ledger records its ring. -/
theorem exec_bucketStart_itusk (hmode : j.g.mode = 1) {b' : Bucket} (hb' : b' = { b with started := true, xp := 0, amax := 0 }) :
    exec (.bucketStart n g) s =
      .next ((((s1.updLedger n (Ledger.noteRing b g)).ledgerFlag n b.step 0x04).setBucket b').sendOwn { j with b := b' }) := by
  subst hb'
  show execBucketStart n g s = _
  simp only [execBucketStart, hb, if_neg hfew.not_ge, hj, hrun, hwait, hhost, htouch, XhJob.itusk, hmode, decide_true, Bool.false_eq_true, if_false,
    ne_eq, not_true, Option.isSome_none, or_self, if_true]
  rfl

end Start

/-! ### Segments (R293, R299, R300) -/

section Segments

variable {s : State} {m : HeldMessage} {q : Qp} (hhead : s.isHead m = true) (hgroup : (s.groupOf q.owner m.qp).isSome = true)
  (hphase : bitsOf m.tag 7 6 < 2) (hq : s.qp m.qp = some q)
include hhead hgroup hphase

omit hq in
/-- The head of a held queue pair whose tag names a segment is in no case in which the row does nothing. -/
theorem HeldMessage.segment_taken : ¬ (¬ s.isHead m = true ∨ (s.groupOf q.owner m.qp).isNone = true ∨ 2 ≤ bitsOf m.tag 7 6) := by
  simp [hhead, Option.isSome_iff_ne_none.1 hgroup, hphase]

include hq

theorem exec_xhSegmentReceived_discard (hfile : s.fileKey q.owner m.tag = .discard) :
    exec (.xhSegmentReceived m) s = .next ((s.takeMsg m.qp 0).staleResult q.owner
      (((Kv.get q.owner s.ctxs).map fun c => c.fullStep (bitsOf m.tag 63 40)).getD 0)) := by
  show execXhSegmentReceived m s = _
  simp only [execXhSegmentReceived, hq, if_neg (HeldMessage.segment_taken hhead hgroup hphase), hfile]

theorem exec_xhSegmentReceived_notReady (hfile : s.fileKey q.owner m.tag = .notReady) :
    exec (.xhSegmentReceived m) s = .next (s.rnrMsg m.qp) := by
  show execXhSegmentReceived m s = _
  simp only [execXhSegmentReceived, hq, if_neg (HeldMessage.segment_taken hhead hgroup hphase), hfile]

/-- A segment of a BFX32 bucket, new in its pass, of the right length and within the body, goes where its group's shape and its phase say; an UP
segment of a tree needs room among those that wait. -/
theorem exec_xhSegmentReceived_bucket {j : XhJob} {first count chunk idx : Nat} {body : List Byte} {key : Nat × Nat × Nat × Nat}
    (hfile : s.fileKey q.owner m.tag = .bucket j) (hfirst : first = fieldAt m.bytes 0 4) (hcount : count = fieldAt m.bytes 4 2)
    (hidx : idx = fieldAt m.bytes 6 1) (hchunk : chunk = bitsOf m.tag 19 8) (hbody : body = m.bytes.drop 64)
    (hkey : key = (bitsOf m.tag 7 6, chunk, first, m.qp)) (hmode : j.g.mode = 0) (hpass : bitOf m.tag 5 = j.b.pass2) (hnew : key ∉ j.b.taken)
    (hfits : first + count ≤ j.b.body.length) (hlen : body.length = 132 * count)
    (hroom : j.g.topology = 1 → bitsOf m.tag 7 6 = 0 → (j.b.up.map fun x => x.2.2.length).sum + body.length ≤ 1081344) :
    exec (.xhSegmentReceived m) s = .next
      (if j.g.topology = 1 then
        (if bitsOf m.tag 7 6 = 0 then (s.takeMsg m.qp 0).takeUp j idx first count m.qp body key
        else (s.takeMsg m.qp 0).takeFinal j chunk idx first count body key j.g.children)
      else if bitsOf m.tag 7 6 = 0 then (s.takeMsg m.qp 0).takeScatter j chunk idx first count body key
      else (s.takeMsg m.qp 0).takeFinal j chunk idx first count body key
        (if chunk = ((s.takeMsg m.qp 0).posIn j.b + 2) % j.b.members.length then [] else j.g.next.toList)) := by
  subst hfirst hcount hidx hchunk hbody hkey
  have hitusk : j.itusk = false := by simp [XhJob.itusk, hmode]
  have hready : ¬ (bitOf m.tag 5 ≠ j.b.pass2 ∨
      (j.g.topology = 1 ∧ bitsOf m.tag 7 6 = 0 ∧ 1081344 < (j.b.up.map fun x => x.2.2.length).foldl (· + ·) 0 + (m.bytes.drop 64).length) ∨
      (j.itusk = true ∧ bitsOf m.tag 7 6 = 0 ∧ ((Kv.get j.g.ituskPlate s.plates).bind (·.ctx)) ≠ some q.owner)) := by
    rintro (h | ⟨htree, hzero, hover⟩ | ⟨h, -⟩)
    · exact h hpass
    · have := hroom htree hzero
      rw [List.sum_eq_foldl] at this
      omega
    · simp [hitusk] at h
  have hright : ¬ (j.b.body.length < fieldAt m.bytes 0 4 + fieldAt m.bytes 4 2 ∧ 0 < fieldAt m.bytes 4 2 ∨
      (¬ j.itusk = true ∧ (m.bytes.drop 64).length ≠ 132 * fieldAt m.bytes 4 2)) := by
    simp [hfits.not_gt, hlen]
  show execXhSegmentReceived m s = _
  simp only [execXhSegmentReceived, hq, if_neg (HeldMessage.segment_taken hhead hgroup hphase), hfile, if_neg hready, if_neg hnew, if_neg hright,
    XhJob.tree, decide_eq_true_eq]

end Segments

/-! ### Verdict records (R301 to R304) -/

section Records

variable {s : State} {m : HeldMessage} {q : Qp} {r : Verdict} (hq : s.qp m.qp = some q) (hhead : s.isHead m = true)
  (hgroup : (s.groupOf q.owner m.qp).isSome = true) (hphase : 2 ≤ bitsOf m.tag 7 6) (hr : r = Verdict.ofBytes (m.bytes.drop 64))
include hhead hgroup hphase

/-- The head of a held queue pair whose tag names a record is in no case in which the row does nothing. -/
theorem HeldMessage.record_taken : ¬ (¬ s.isHead m = true ∨ (s.groupOf q.owner m.qp).isNone = true ∨ bitsOf m.tag 7 6 < 2) := by
  simp [hhead, Option.isSome_iff_ne_none.1 hgroup, hphase.not_gt]

include hq hr

theorem exec_verdictRecordReceived_abort (hcode : r.code ≠ 0) :
    exec (.verdictRecordReceived m) s = .next ((s.takeMsg m.qp 0).takeAbort q.owner m.qp m.tag r) := by
  subst hr
  show execVerdictRecordReceived m s = _
  simp only [execVerdictRecordReceived, hq, if_neg (HeldMessage.record_taken hhead hgroup hphase), if_pos hcode]

variable {j : XhJob} (hcode : r.code = 0) (hfile : s.fileKey q.owner m.tag = .bucket j)
include hcode hfile

/-- A COLLECT record joins those of its bucket. -/
theorem exec_verdictRecordReceived_collect (hcollect : bitsOf m.tag 7 6 = 2) {b : Bucket}
    (hb : b = { j.b with collects := j.b.collects ++ [(m.qp, m.bytes.drop 64)] }) :
    exec (.verdictRecordReceived m) s = .next (((s.takeMsg m.qp 0).setBucket b).tryVerdict { j with b := b }) := by
  subst hr hb
  show execVerdictRecordReceived m s = _
  simp only [execVerdictRecordReceived, hq, if_neg (HeldMessage.record_taken hhead hgroup hphase), hcode, ne_eq, not_true, if_false, hfile,
    if_pos hcollect]

/-- A distributed PASS that comes in time to a member that has joined goes on and ends the bucket. -/
theorem exec_verdictRecordReceived_pass (hdown : bitsOf m.tag 7 6 = 3) (hjoined : j.b.joined = true) (htime : s.strk.now < j.deadline + j.g.deadline) :
    exec (.verdictRecordReceived m) s = .next (((s.takeMsg m.qp 0).sendVerdict j true r).verified j r.amax) := by
  subst hr
  have hother : bitsOf m.tag 7 6 ≠ 2 := by simp [hdown]
  show execVerdictRecordReceived m s = _
  simp only [execVerdictRecordReceived, hq, if_neg (HeldMessage.record_taken hhead hgroup hphase), hcode, ne_eq, not_true, if_false, hfile,
    if_neg hother, hjoined, if_neg htime.not_ge]

end Records

/-! ### Deadlines (R303) -/

section Deadlines

variable {s : State} {k : BucketKey} {b : Bucket} {j : XhJob} (hb : s.bucketAt k = some b) (hj : s.job b = some j)
include hb hj

theorem exec_deadlineExpiry : exec (.deadlineExpiry k) s =
    .next (if s.isJudge j = true ∧ j.deadline ≤ s.strk.now then s.decideLate j.b else s) := by
  show execDeadlineExpiry k s = _
  simp only [execDeadlineExpiry, State.expireDeadline, hb, Option.bind_some, hj]

theorem exec_verdictTimeout : exec (.verdictTimeout k) s = .next (if j.deadline + j.g.deadline ≤ s.strk.now then
    s.stepAbort k.context k.step (.fail .peerLost 76) (s.ownRecord 4) k.group none else s) := by
  show execVerdictTimeout k s = _
  simp only [execVerdictTimeout, State.expireVerdict, hb, Option.bind_some, hj]

end Deadlines

/-- Settles O18, row by row. -/
theorem crosshatchEventsComplete : Obligations.CrosshatchEventsComplete := by
  unfold Obligations.CrosshatchEventsComplete
  refine ⟨?start, ?segment, ?record, ?deadline⟩
  case start =>
    intro s s1 n g b j hb hfew hj hrun hwait hhost htouch
    refine ⟨fun hmode b' hb' => exec_bucketStart_bfx hb hfew hj hrun hwait hhost htouch hmode hb', fun hmode b' hb' => ?_⟩
    refine ⟨_, exec_bucketStart_itusk hb hfew hj hrun hwait hhost htouch hmode hb', ?_⟩
    obtain ⟨_, _, h⟩ := (s1.updLedger n (Ledger.noteRing b g)).ledgerFlag_stores n b.step 0x04
    rw [h]
    exact ⟨rfl, rfl⟩
  case segment =>
    intro s m q hq hhead hgroup hphase
    refine ⟨fun hfile => exec_xhSegmentReceived_discard hhead hgroup hphase hq hfile,
      fun hfile => exec_xhSegmentReceived_notReady hhead hgroup hphase hq hfile, ?_⟩
    intro j first count chunk idx body key hfile hfirst hcount hidx hchunk hbody hkey hmode hpass hnew hfits hlen
    have hexec := exec_xhSegmentReceived_bucket hhead hgroup hphase hq hfile hfirst hcount hidx hchunk hbody hkey hmode hpass hnew hfits hlen
    refine ⟨fun hring hscatter => ?_, fun hring hfinal => ?_, fun htree hup hroom => ?_, fun htree hfinal => ?_⟩
    · simpa [hring, hscatter] using hexec
    · simpa [hring, hfinal] using hexec
    · simpa [htree, hup] using hexec fun _ _ => hroom
    · simpa [htree, hfinal] using hexec
  case record =>
    intro s m q r hq hhead hgroup hphase hr
    refine ⟨exec_verdictRecordReceived_abort hq hhead hgroup hphase hr, fun j hcode hfile =>
      ⟨fun hcollect b hb => ?_, fun hdown hjoined htime => ?_⟩⟩
    · exact exec_verdictRecordReceived_collect hq hhead hgroup hphase hr hcode hfile hcollect hb
    · exact exec_verdictRecordReceived_pass hq hhead hgroup hphase hr hcode hfile hdown hjoined htime
  case deadline =>
    intro s k b j hb hj
    refine ⟨fun hjudge hdue => ?_, fun hearly => ?_, fun hdue => ?_, fun hearly => ?_⟩
    · rw [exec_deadlineExpiry hb hj, if_pos ⟨hjudge, hdue⟩, State.decideLate]
    · rw [exec_deadlineExpiry hb hj, if_neg fun h => hearly.not_ge h.2]
    · rw [exec_verdictTimeout hb hj, if_pos hdue]
    · rw [exec_verdictTimeout hb hj, if_neg hearly.not_ge]

end Sys2Proof.Machine
end

section
/-! PROOFS. The events of the model's distribution (18_model_distribution.md R314 to R317, R323): shard pieces, trailers, timeouts, epochs. -/

namespace Sys2Proof.Machine

open Sys2Proof

/-- The job of a shard command is of that command. -/
theorem State.shardJob_c {s : State} {c : Cmd} {j : ShardJob} (h : s.shardJob c = some j) : j.c = c := by
  unfold State.shardJob at h
  split at h
  · split at h
    · split at h
      · rw [← Option.some.inj h]
      · cases h
    · cases h
  · cases h

/-! ### Commands on a lane (R315, R317) -/

section Lane

variable {s : State} {q k : Nat} {c : Cmd} {j : ShardJob} (hc : s.findCmd q k = some c) (hj : s.shardJob c = some j)
include hc hj

/-- The lane takes the next of the pieces that stand in a row from the first, whose bytes can be read. -/
theorem exec_shardPieceHashed {s1 : State} {va n : Nat} (hmore : j.w.hashed < j.pieces)
    (hpresent : c.pkt.opcode = 0x0903 → j.isLocal = true ∨ j.w.hashed ∈ j.w.present) (hva : va = j.d.base + pieceSize * j.w.hashed)
    (hn : n = j.pieceLen j.w.hashed) (hhost : s.hostBlocked j.v [(va, n)] = false) (htouch : s.touch j.v.ctx j.v.bound va n accR false = .ok s1)
    (hgood : s1.badRange j.v.ctx j.v.bound va n = none) :
    exec (.shardPieceHashed q k) s = .next (s1.hashPiece j (s1.vread j.v.ctx j.v.bound va n)) := by
  subst hva hn
  have hnext : ¬ (j.pieces ≤ j.w.hashed ∨ (j.c.pkt.opcode = 0x0903 ∧ ¬ j.isLocal = true ∧ j.w.hashed ∉ j.w.present)) := by
    rw [State.shardJob_c hj]
    rintro (hdone | ⟨hop, hremote, habsent⟩)
    · exact hmore.not_ge hdone
    · exact (hpresent hop).elim hremote habsent
  show execShardPieceHashed q k s = _
  simp only [execShardPieceHashed, hc, Option.bind_some, hj, if_neg hnext, hhost, Bool.false_eq_true, if_false, htouch, hgood]

/-- A SHARD_RECEIVE that awaits a piece or the upstream trailer ends when it has waited WAIT_LIMIT. -/
theorem exec_shardTimeout {x : Queue} (hx : Kv.get q s.queues = some x) (hop : j.c.pkt.opcode = 0x0903) (hremote : j.isLocal = false)
    (hawaits : j.w.upstream = none ∨ j.w.present.length < j.pieces) : exec (.shardTimeout q k) s =
      .next (if j.w.since + x.waitLimit ≤ s.strk.now then s.endShard j.c (s.shardResults j.c (.fail .timeout 76)) else s) := by
  have hawaits' : j.w.upstream.isNone = true ∨ j.w.present.length < j.pieces := by rwa [Option.isNone_iff_eq_none]
  show execShardTimeout q k s = _
  simp only [execShardTimeout, hc, Option.bind_some, hj, hx, hop, hremote, hawaits', Bool.false_eq_true, not_false_eq_true, true_and]

end Lane

/-! ### Messages of a shard (R314, R317) -/

section Messages

variable {s : State} {k tag : Nat} {bs : List Byte}

theorem State.strayShard_eq {q : Qp} (hq : s.qp k = some q) :
    s.strayShard k tag = if s.shardKnown q.owner tag then (s.takeMsg k 0).countDiscard q.owner tag else s.rnrMsg k := by
  simp only [State.strayShard, hq]

theorem exec_shardPieceReceived_stray (hhead : s.shardHead k bs false = some tag) (hfor : s.shardFor k tag = none) :
    exec (.shardPieceReceived k bs) s = .next (s.strayShard k tag) := by
  show execShardPieceReceived k bs s = _
  simp only [execShardPieceReceived, hhead, hfor]

theorem exec_shardTrailerReceived_stray (hhead : s.shardHead k bs true = some tag) (hfor : s.shardFor k tag = none) :
    exec (.shardTrailerReceived k bs) s = .next (s.strayShard k tag) := by
  show execShardTrailerReceived k bs s = _
  simp only [execShardTrailerReceived, hhead, hfor]

variable {j : ShardJob} {w : ShardWork} (hfor : s.shardFor k tag = some j)
include hfor

/-- A piece of an open SHARD_RECEIVE lands in DEST and is sent on. -/
theorem exec_shardPieceReceived {s1 : State} {i va : Nat} (hhead : s.shardHead k bs false = some tag) (hi : i = bitsOf tag 43 36) (hrange : i < j.pieces)
    (hlen : bs.length = j.pieceLen i) (hva : va = j.d.base + pieceSize * i)
    (htouch : (s.takeMsg k 0).touch j.v.ctx j.v.bound va bs.length accW false = .ok s1)
    (hw : w = if i ∈ j.w.present then { j.w with since := s1.strk.now } else
      { j.w with present := i :: j.w.present, stored := j.w.stored + bs.length, since := s1.strk.now }) :
    exec (.shardPieceReceived k bs) s =
      .next (((s1.vwrite j.v.ctx j.v.bound va bs).setShard j.c w).shardSend { j with w := w } i false bs) := by
  subst hw hva hi
  have hright : ¬ (j.pieces ≤ bitsOf tag 43 36 ∨ bs.length ≠ j.pieceLen (bitsOf tag 43 36)) := by simp [hrange, hlen]
  have hnow : (s1.vwrite j.v.ctx j.v.bound (j.d.base + pieceSize * bitsOf tag 43 36) bs).strk = s1.strk := by
    obtain ⟨_, _, h⟩ := s1.vwrite_stores j.v.ctx j.v.bound (j.d.base + pieceSize * bitsOf tag 43 36) bs
    rw [h]
  show execShardPieceReceived k bs s = _
  simp only [execShardPieceReceived, hhead, hfor, if_neg hright, htouch, hnow]

/-- The upstream verdict is noted, and the shard is settled where its own is known. -/
theorem exec_shardTrailerReceived (hhead : s.shardHead k bs true = some tag)
    (hw : w = { j.w with upstream := some (decide (fieldAt bs 0 1 = 0)), since := (s.takeMsg k 0).strk.now }) :
    exec (.shardTrailerReceived k bs) s = .next (((s.takeMsg k 0).setShard j.c w).settleShard { j with w := w }) := by
  subst hw
  show execShardTrailerReceived k bs s = _
  simp only [execShardTrailerReceived, hhead, hfor]

end Messages

/-! ### Epochs (R323) -/

theorem exec_epochRelease {s : State} {k : Nat} {e : Epoch} (he : Kv.get k s.epochs = some e) (hretiring : e.retiring = true) :
    exec (.epochRelease k) s = .next (if s.boundTo k = 0 then s.releaseEpoch k e else s) := by
  show execEpochRelease k s = _
  simp only [execEpochRelease, he, hretiring, true_and]

/-- Settles O20, row by row. -/
theorem distributionEventsComplete : Obligations.DistributionEventsComplete := by
  unfold Obligations.DistributionEventsComplete
  refine ⟨?hashed, ?stray, ?piece, ?trailer, ?timeout, ?release⟩
  case hashed =>
    intro s s1 q k va n c j hc hj hmore hpresent hva hn hhost htouch hgood
    exact exec_shardPieceHashed hc hj hmore hpresent hva hn hhost htouch hgood
  case stray =>
    rintro s k tag q bs trailer hhead hfor hq _ rfl
    refine ⟨fun hpiece => ?_, fun htrailer => ?_⟩
    · rw [exec_shardPieceReceived_stray (hpiece ▸ hhead) hfor, State.strayShard_eq hq]
    · rw [exec_shardTrailerReceived_stray (htrailer ▸ hhead) hfor, State.strayShard_eq hq]
  case piece =>
    intro s s1 k tag i va j piece w hhead hfor hi hrange hlen hva htouch hw
    exact exec_shardPieceReceived hfor hhead hi hrange hlen hva htouch hw
  case trailer => exact fun _ _ _ _ _ _ hhead hfor hw => exec_shardTrailerReceived hfor hhead hw
  case timeout =>
    intro s q k c j x hc hj hx hop hremote hawaits
    refine ⟨fun hlate => ?_, fun hearly => ?_⟩
    · rw [exec_shardTimeout hc hj hx hop hremote hawaits, if_pos hlate]
    · rw [exec_shardTimeout hc hj hx hop hremote hawaits, if_neg hearly.not_ge]
  case release =>
    intro s k e he hretiring
    refine ⟨fun hfree => ?_, fun hbound => ?_⟩
    · rw [exec_epochRelease he hretiring, if_pos hfree]
    · rw [exec_epochRelease he hretiring, if_neg hbound.ne']

end Sys2Proof.Machine
end
